-- ==== Sys2Proof/Word.lean ====
section
/-! DEFINITION. The word types of the Zokar model and their plainest arithmetic (R12, R13). -/

namespace Sys2Proof

/-- One byte of memory, SRAM or a message. -/
abbrev Byte := BitVec 8
/-- A T32 pattern, a flag word, a Flutter word. -/
abbrev W32 := BitVec 32
/-- The contents of one register (R13: registers are 64 bits wide). -/
abbrev W64 := BitVec 64
/-- A SHA3-512 digest, byte 0 in bits [7:0]. -/
abbrev Digest := BitVec 512

/-- ⌈a / b⌉, with 0 for b = 0. -/
def ceilDiv (a b : Nat) : Nat := (a + b - 1) / b

/-- A count that holds at its largest value (the "holds at" of the register tables). -/
def satAdd (cap a b : Nat) : Nat := min cap (a + b)

end Sys2Proof
end

