-- ==== Sys2Proof/Machine/Num.lean ====
section
/-! DEFINITION. Exact values, number formats and conversion (chapter "Number Formats", R35 to R63; rne32 of R69). -/

namespace Sys2Proof

/-- An exact value: a signed fraction n / d (d > 0, the sign kept for zeros), an infinity or a NaN. -/
inductive Xv where
  | nan
  | inf (neg : Bool)
  | fin (neg : Bool) (n d : Nat)
  deriving DecidableEq, Repr

namespace Machine

/-- The element formats of Table 2.1, and the record formats a manifest may name beside them
(Table 7.6, Table 13.6): scent lines, reduction-buffer elements, tile status records. -/
inductive Fmt where
  | t8f | t8g | t16 | t32 | i8 | w2 | w1 | m8bs | m8bu | scent | rbuf | status
  deriving DecidableEq, Repr

/-! ### Exact arithmetic -/

def xZero : Xv := .fin false 0 1
def xOfNat (n : Nat) : Xv := .fin false n 1

/-- 2^e as an exact value. -/
def xPow2 (e : Int) : Xv :=
  if 0 ≤ e then .fin false (2 ^ e.toNat) 1 else .fin false 1 (2 ^ (-e).toNat)

def xNeg : Xv → Xv
  | .nan => .nan
  | .inf s => .inf (!s)
  | .fin s n d => .fin (!s) n d

def xAbs : Xv → Xv
  | .nan => .nan
  | .inf _ => .inf false
  | .fin _ n d => .fin false n d

def xIsFinite : Xv → Bool
  | .fin _ _ _ => true
  | _ => false

def xIsNan : Xv → Bool
  | .nan => true
  | _ => false

def xIsZero : Xv → Bool
  | .fin _ n _ => n == 0
  | _ => false

def xSign : Xv → Bool
  | .nan => false
  | .inf s => s
  | .fin s _ _ => s

/-- Bring two denominators together; a denominator that divides the other is kept as it is. -/
def commonDen (n₁ d₁ n₂ d₂ : Nat) : Nat × Nat × Nat :=
  if d₁ = d₂ then (n₁, n₂, d₁)
  else if d₂ % d₁ = 0 then (n₁ * (d₂ / d₁), n₂, d₂)
  else if d₁ % d₂ = 0 then (n₁, n₂ * (d₁ / d₂), d₁)
  else (n₁ * d₂, n₂ * d₁, d₁ * d₂)

/-- The exact sum. An exact zero is −0 only when both terms are −0 (R227, R57). -/
def xAdd : Xv → Xv → Xv
  | .nan, _ => .nan
  | _, .nan => .nan
  | .inf s, .inf t => if s = t then .inf s else .nan
  | .inf s, _ => .inf s
  | _, .inf t => .inf t
  | .fin s n₁ d₁, .fin t n₂ d₂ =>
    let c := commonDen n₁ d₁ n₂ d₂
    if s = t then .fin s (c.1 + c.2.1) c.2.2
    else if c.1 = c.2.1 then .fin false 0 c.2.2
    else if c.2.1 < c.1 then .fin s (c.1 - c.2.1) c.2.2
    else .fin t (c.2.1 - c.1) c.2.2

def xSub (a b : Xv) : Xv := xAdd a (xNeg b)

/-- The exact product; 0 × ∞ is NaN (R73, R228). -/
def xMul : Xv → Xv → Xv
  | .nan, _ => .nan
  | _, .nan => .nan
  | .inf s, .inf t => .inf (s != t)
  | .inf s, .fin t n _ => if n = 0 then .nan else .inf (s != t)
  | .fin s n _, .inf t => if n = 0 then .nan else .inf (s != t)
  | .fin s n₁ d₁, .fin t n₂ d₂ => .fin (s != t) (n₁ * n₂) (d₁ * d₂)

/-- The exact quotient with the IEEE 754 special cases (R228). -/
def xDiv : Xv → Xv → Xv
  | .nan, _ => .nan
  | _, .nan => .nan
  | .inf _, .inf _ => .nan
  | .inf s, .fin t _ _ => .inf (s != t)
  | .fin s _ _, .inf t => .fin (s != t) 0 1
  | .fin s n₁ d₁, .fin t n₂ d₂ =>
    if n₂ = 0 then (if n₁ = 0 then .nan else .inf (s != t))
    else .fin (s != t) (n₁ * d₂) (d₁ * n₂)

/-- a < b as exact numbers; false when either is a NaN. Zeros of both signs are equal. -/
def xLt : Xv → Xv → Bool
  | .nan, _ => false
  | _, .nan => false
  | .inf s, .inf t => s && !t
  | .inf s, _ => s
  | _, .inf t => !t
  | .fin s n₁ d₁, .fin t n₂ d₂ =>
    let a := n₁ * d₂
    let b := n₂ * d₁
    match s, t with
    | false, false => a < b
    | true, true => b < a
    | false, true => false
    | true, false => !(a == 0 && b == 0)

def xLe (a b : Xv) : Bool := !xIsNan a && !xIsNan b && !xLt b a

/-- The larger of two magnitudes; NaN if either is a NaN (maxima of R53, R220, R291). -/
def xMaxAbs (a b : Xv) : Xv :=
  if xIsNan a || xIsNan b then .nan
  else if xLt (xAbs a) (xAbs b) then xAbs b else xAbs a

/-! ### Rounding a positive fraction -/

/-- ⌊log₂(n / d)⌋ for n, d > 0. -/
def log2Frac (n d : Nat) : Int :=
  let k : Int := (Nat.log2 n : Int) - (Nat.log2 d : Int)
  if (if 0 ≤ k then d * 2 ^ k.toNat ≤ n else d ≤ n * 2 ^ (-k).toNat) then k else k - 1

/-- Rounding selections of R57 step 2: to nearest even, or stochastic with its 16-bit rnd (R60). -/
inductive Rnd where
  | rne
  | sr (rnd : Nat)
  deriving DecidableEq, Repr

/-- Round N / D to an integer, to nearest even or by R60 on the integer grid. -/
def roundInt (r : Rnd) (N D : Nat) : Nat :=
  let m := N / D
  let rem := N % D
  match r with
  | .rne =>
    if 2 * rem < D then m
    else if D < 2 * rem then m + 1
    else if m % 2 = 0 then m else m + 1
  | .sr rnd => if rem = 0 then m else if 65536 ≤ 65536 * rem / D + rnd then m + 1 else m

/-- Parameters of a float format (Table 2.2): fraction bits, bias, largest finite code. -/
structure FloatFmt where
  width : Nat
  frac  : Nat
  bias  : Nat
  maxCode : Nat
  deriving DecidableEq, Repr

def ffT8F : FloatFmt := { width := 8, frac := 3, bias := 7, maxCode := 0x7E }
def ffT8G : FloatFmt := { width := 8, frac := 2, bias := 15, maxCode := 0x7B }
def ffT16 : FloatFmt := { width := 16, frac := 7, bias := 127, maxCode := 0x7F7F }
def ffT32 : FloatFmt := { width := 32, frac := 23, bias := 127, maxCode := 0x7F7F_FFFF }

/-- The magnitude code of n / d > 0 rounded into a float format with an unbounded exponent range
above (R57 step 2, R60): a code above `maxCode` says that the rounded result lies beyond the largest finite. -/
def roundCode (f : FloatFmt) (r : Rnd) (n d : Nat) : Nat :=
  if n = 0 then 0
  else
    let qmin : Int := 1 - (f.bias : Int) - (f.frac : Int)
    let q : Int := max (log2Frac n d - (f.frac : Int)) qmin
    let m := if 0 ≤ q then roundInt r n (d * 2 ^ q.toNat) else roundInt r (n * 2 ^ (-q).toNat) d
    (q - qmin).toNat * 2 ^ f.frac + m

/-- The value of a magnitude code of a float format (R37). -/
def codeValue (f : FloatFmt) (neg : Bool) (c : Nat) : Xv :=
  let e := c / 2 ^ f.frac
  let m := c % 2 ^ f.frac
  let sig := if e = 0 then m else 2 ^ f.frac + m
  let q : Int := ((max e 1 : Nat) : Int) - (f.bias : Int) - (f.frac : Int)
  if 0 ≤ q then .fin neg (sig * 2 ^ q.toNat) 1 else .fin neg sig (2 ^ (-q).toNat)

/-! ### Decoding elements -/

/-- The infinity code of a float format; T8F has none (Table 2.2). -/
def infCode (f : FloatFmt) : Option Nat :=
  if f = ffT8F then none else some (f.maxCode + 1)

/-- The decoded value of a float code, before the tensor scale (R37, R42: every NaN code alike). -/
def decodeFloat (f : FloatFmt) (code : Nat) : Xv :=
  let sgn := code / 2 ^ (f.width - 1) % 2 = 1
  let mag := code % 2 ^ (f.width - 1)
  if mag ≤ f.maxCode then codeValue f sgn mag
  else if infCode f = some mag then .inf sgn
  else .nan

/-- An I8 code as an exact integer (R43; 0x80 decodes to −128). -/
def decodeI8 (code : Nat) : Xv :=
  if code % 256 < 128 then .fin false (code % 256) 1 else .fin true (256 - code % 256) 1

/-- T32 pattern to exact value. -/
def valT32 (w : W32) : Xv := decodeFloat ffT32 w.toNat

def floatFmt? : Fmt → Option FloatFmt
  | .t8f => some ffT8F
  | .t8g => some ffT8G
  | .t16 => some ffT16
  | .t32 => some ffT32
  | _ => none

/-- Decoded value of one element code, before its scale (R37, R43; W2 and W1 multipliers of Table 2.9). -/
def decodeElem (f : Fmt) (code : Nat) : Xv :=
  match f with
  | .t8f => decodeFloat ffT8F code
  | .t8g => decodeFloat ffT8G code
  | .t16 => decodeFloat ffT16 code
  | .t32 => decodeFloat ffT32 code
  | .i8 => decodeI8 code
  | .w2 => if code = 1 then .fin false 1 1 else if code = 3 then .fin true 1 1 else .fin false 0 1
  | .w1 => if code = 0 then .fin false 1 1 else .fin true 1 1
  | _ => .nan

/-- Whether a code is a non-zero subnormal of its format (R54, R55). -/
def isSubnormal (f : Fmt) (code : Nat) : Bool :=
  match floatFmt? f with
  | none => false
  | some p => 0 < code % 2 ^ (p.width - 1) && code % 2 ^ (p.width - 1) < 2 ^ p.frac

/-- A code read as an operand under a subnormal mode: a subnormal becomes the zero of its sign in
FLUSH mode (Table 2.11); the flag says that one was flushed (R55). -/
def readElem (f : Fmt) (flush : Bool) (code : Nat) : Xv × Bool :=
  if flush && isSubnormal f code then
    (.fin (xSign (decodeElem f code)) 0 1, true)
  else (decodeElem f code, false)

/-- Canonical NaN codes (Table 2.2). -/
def nanCode : Fmt → Nat
  | .t8f => 0x7F
  | .t8g => 0x7E
  | .t16 => 0x7FC0
  | .t32 => 0x7FC0_0000
  | _ => 0

def signBit (f : FloatFmt) (neg : Bool) : Nat := if neg then 2 ^ (f.width - 1) else 0

/-! ### Conversion (R57) -/

/-- What a conversion stores, and what it counts (R55, R58, Table 2.12). -/
structure Cvt where
  code    : Nat
  sat     : Bool := false
  nonfin  : Bool := false
  flushed : Bool := false
  deriving DecidableEq, Repr

/-- Steps 3 and 4 of R57 on a magnitude code of a float target. -/
def finishFloat (f : FloatFmt) (flush : Bool) (neg : Bool) (mag : Nat) : Cvt :=
  if f.maxCode < mag then
    match infCode f with
    | some i => { code := signBit f neg + i, nonfin := true }
    | none => { code := signBit f neg + f.maxCode, sat := true }
  else if flush && 0 < mag && mag < 2 ^ f.frac then { code := signBit f neg, flushed := true }
  else { code := signBit f neg + mag }

/-- R57 steps 2 to 4 for a float target (Table 2.12). -/
def convFloat (f : FloatFmt) (nan : Nat) (r : Rnd) (flush : Bool) (v : Xv) : Cvt :=
  match v with
  | .nan => { code := nan, nonfin := true }
  | .inf s =>
    match infCode f with
    | some i => { code := signBit f s + i, nonfin := true }
    | none => { code := nan, nonfin := true }
  | .fin s n d => finishFloat f flush s (roundCode f r n d)

/-- R57 for an I8 target (R43, Table 2.12). -/
def convI8 (r : Rnd) (v : Xv) : Cvt :=
  match v with
  | .nan => { code := 0, nonfin := true }
  | .inf s => { code := if s then 0x81 else 0x7F, nonfin := true }
  | .fin s n d =>
    let m := roundInt r n d
    if 127 < m then { code := if s then 0x81 else 0x7F, sat := true }
    else { code := if s && 0 < m then 256 - m else m }

/-- R57 steps 2 to 4 into an element format; packed formats are derived by line (R62, R63). -/
def convElem (f : Fmt) (r : Rnd) (flush : Bool) (v : Xv) : Cvt :=
  match f with
  | .t8f => convFloat ffT8F 0x7F r flush v
  | .t8g => convFloat ffT8G 0x7E r flush v
  | .t16 => convFloat ffT16 0x7FC0 r flush v
  | .t32 => convFloat ffT32 0x7FC0_0000 .rne flush v      -- R61: T32 always rounds to nearest even
  | .i8 => convI8 r v
  | _ => { code := 0 }

/-- RNE32 (R57): one rounding to T32, the zero keeping the sign of the exact value. -/
def rne32s (v : Xv) : W32 := BitVec.ofNat 32 (convFloat ffT32 0x7FC0_0000 .rne false v).code

/-- rne32 of R69: as RNE32, but every zero result is +0. -/
def rne32z (v : Xv) : W32 :=
  let w := rne32s v
  if w = 0x8000_0000#32 then 0#32 else w

/-- The rounding of R84 overflows: finite operand, rounded magnitude beyond the binary32 maximum. -/
def overflows32 (v : Xv) : Bool :=
  match v with
  | .fin _ n d => ffT32.maxCode < roundCode ffT32 .rne n d
  | _ => false

/-! ### Tensor scales -/

/-- R52: a tensor scale is positive, finite and normal. -/
def scaleOk (s : W32) : Bool := 0x0080_0000 ≤ s.toNat && s.toNat ≤ 0x7F7F_FFFF

def t32One : W32 := 0x3F80_0000#32

/-- The largest finite magnitude M of a scaled format (Table 2.10). -/
def fmtMax : Fmt → Xv
  | .t8f => xOfNat 448
  | .t8g => xOfNat 57344
  | .t16 => codeValue ffT16 false 0x7F7F
  | .i8 => xOfNat 127
  | _ => codeValue ffT32 false 0x7F7F_FFFF

/-- The smallest integer e with a × 2^(−e) ≤ m, for exact a, m > 0, clamped to −126 … 127 (R53, R106). -/
def smallestExp (a m : Xv) : Int :=
  match a, m with
  | .fin _ na da, .fin _ nm dm =>
    if na = 0 then -126
    else
      -- a / m = N / D; the smallest e with N / D ≤ 2^e
      let N := na * dm
      let D := da * nm
      let k := log2Frac N D
      let exact := if 0 ≤ k then N = D * 2 ^ k.toNat else N * 2 ^ (-k).toNat = D
      let e := if exact then k else k + 1
      max (-126) (min 127 e)
  | _, _ => 127

/-- 2^e as a T32 pattern, for −126 ≤ e ≤ 127. -/
def t32Pow2 (e : Int) : W32 := BitVec.ofNat 32 ((e + 127).toNat * 2 ^ 23)

/-- POW2_DELAYED of Table 2.10: the scale of step t from the largest magnitude of step t − 1 and the
margin; the previous scale where that magnitude is zero or non-finite. -/
def pow2Delayed (f : Fmt) (margin : Nat) (prev : W32) (amax : Xv) : W32 :=
  match amax with
  | .fin _ n _ =>
    if n = 0 then prev
    else t32Pow2 (smallestExp amax (xMul (fmtMax f) (xPow2 (-(margin : Int)))))
  | _ => prev

/-! ### Square roots (R212, R227) -/

/-- ⌊√n⌋ from bit b downwards, r the root so far. -/
def isqrtFrom (n : Nat) : Nat → Nat → Nat
  | 0, r => if (r + 1) * (r + 1) ≤ n then r + 1 else r
  | b + 1, r =>
    let r' := r + 2 ^ (b + 1)
    isqrtFrom n b (if r' * r' ≤ n then r' else r)

/-- ⌊√n⌋. -/
def isqrt (n : Nat) : Nat := isqrtFrom n (Nat.log2 n / 2 + 1) 0

/-- √(n / d) as the T32 magnitude code rounded to nearest even, decided exactly on squares. -/
def sqrtCode (n d : Nat) : Nat :=
  if n = 0 then 0
  else
    -- scale so that ⌊√(n·4^k / d)⌋ has at least 26 significant bits
    let k := 90 + Nat.log2 d
    let r := isqrt (n * 4 ^ k / d)
    -- r ≤ √(n·4^k/d) < r + 1; a sticky half keeps inexact values off ties and grid points
    let exact := r * r * d = n * 4 ^ k
    if exact then roundCode ffT32 .rne r (2 ^ k) else roundCode ffT32 .rne (2 * r + 1) (2 ^ (k + 1))

/-- RNE32(√x) with the special values of R228. -/
def sqrt32 (v : Xv) : W32 :=
  match v with
  | .nan => 0x7FC0_0000#32
  | .inf s => if s then 0x7FC0_0000#32 else 0x7F80_0000#32
  | .fin s n d =>
    if n = 0 then (if s then 0x8000_0000#32 else 0#32)
    else if s then 0x7FC0_0000#32
    else BitVec.ofNat 32 (sqrtCode n d)

end Machine
end Sys2Proof
end

