-- ==== Sys2Proof/Machine/Flutter.lean ====
section
/-! DEFINITION. The Flutter generator and its counters (R159 to R167). -/

namespace Sys2Proof.Machine

/-- The four 32-bit words of a Flutter key, counter or output, word 0 first. -/
structure Quad where
  w0 : W32
  w1 : W32
  w2 : W32
  w3 : W32
  deriving DecidableEq, Repr

/-- Rotation pairs RA, RB of R159 in round order. -/
def fltRot : List (Nat × Nat) :=
  [(11, 23), (7, 19), (29, 5), (13, 27), (3, 17), (25, 9), (15, 21), (6, 30)]

def fltKs (k : Quad) (i : Nat) : W32 :=
  match i % 5 with
  | 0 => k.w0
  | 1 => k.w1
  | 2 => k.w2
  | 3 => k.w3
  | _ => 0x6A09_E667#32 ^^^ k.w0 ^^^ k.w1 ^^^ k.w2 ^^^ k.w3

/-- Injection s: word i receives ks[(s + i) mod 5], word 3 also s. -/
def fltInject (k : Quad) (s : Nat) (x : Quad) : Quad :=
  { w0 := x.w0 + fltKs k s, w1 := x.w1 + fltKs k (s + 1), w2 := x.w2 + fltKs k (s + 2),
    w3 := x.w3 + fltKs k (s + 3) + BitVec.ofNat 32 s }

/-- The mixing of one round: two add-rotate-xor pairs, then the word permutation. -/
def fltMix (x : Quad) (r : Nat × Nat) : Quad :=
  let a := x.w0 + x.w1
  let b := x.w1.rotateLeft r.1 ^^^ a
  let c := x.w2 + x.w3
  let d := x.w3.rotateLeft r.2 ^^^ c
  { w0 := a, w1 := d, w2 := c, w3 := b }

/-- Flutter (R159): injection 0, four rounds, injection 1, four rounds, injection 2. -/
def flutter (k c : Quad) : Quad :=
  let x0 := fltInject k 0 c
  let x1 := fltInject k 1 ((fltRot.take 4).foldl fltMix x0)
  fltInject k 2 ((fltRot.drop 4).foldl fltMix x1)

/-- Lane j of an output (R160). -/
def fltLane (q : Quad) (j : Nat) : Nat :=
  let v := q.w0.toNat + q.w1.toNat * 2 ^ 32 + q.w2.toNat * 2 ^ 64 + q.w3.toNat * 2 ^ 96
  bitsOf' v (16 * (j % 8))
where
  bitsOf' (v lo : Nat) : Nat := v / 2 ^ lo % 65536

/-- The counter of Table 6.4. -/
def fltCounter (block id step domain draw : Nat) : Quad :=
  { w0 := BitVec.ofNat 32 block
    w1 := BitVec.ofNat 32 (block / 2 ^ 32 % 2 ^ 16 + (id % 2 ^ 16) * 2 ^ 16)
    w2 := BitVec.ofNat 32 step
    w3 := BitVec.ofNat 32 (step / 2 ^ 32 % 2 ^ 16 + (domain % 2 ^ 8) * 2 ^ 16 + (draw % 2 ^ 8) * 2 ^ 24) }

/-- The 16-bit value of element e of a use (R160, R161). -/
def fltValue (key : Quad) (id step domain draw e : Nat) : Nat :=
  fltLane (flutter key (fltCounter (e / 8) id step domain draw)) (e % 8)

/-- Domains of Table 6.5. -/
def domDropout : Nat := 0
def domSround : Nat := 1
def domUser : Nat := 2

end Sys2Proof.Machine
end

