-- ==== Sys2Proof/Machine/Bits.lean ====
section
/-! DEFINITION. Byte order, bit fields, checksums and SHA3-512 (R36, R45, R244, R296; FIPS 202 as chapter 17 names it). -/

namespace Sys2Proof.Machine

/-- The low n bytes of v, least significant first (R36: little-endian). -/
def leBytes : Nat → Nat → List Byte
  | 0, _ => []
  | n + 1, v => BitVec.ofNat 8 v :: leBytes n (v / 256)

/-- The number a little-endian byte string spells. -/
def ofLe : List Byte → Nat
  | [] => 0
  | b :: bs => b.toNat + 256 * ofLe bs

/-- Bits [lo + w − 1 : lo] of v. -/
def bitsOf (v lo w : Nat) : Nat := v / 2 ^ lo % 2 ^ w

/-- n bytes of a byte string from offset o, bytes beyond its end read as 0. -/
def slice (bs : List Byte) (o n : Nat) : List Byte :=
  let r := (bs.drop o).take n
  r ++ List.replicate (n - r.length) 0#8

/-- A little-endian field of n bytes at offset o. -/
def fieldLe (bs : List Byte) (o n : Nat) : Nat := ofLe (slice bs o n)

/-- ASCII text as bytes. -/
def ascii (s : String) : List Byte := s.toList.map (fun c => BitVec.ofNat 8 c.toNat)

/-- Split a list into pieces of n (n > 0), with fuel. -/
def chunksOf {α : Type} (n : Nat) : Nat → List α → List (List α)
  | 0, _ => []
  | _, [] => []
  | k + 1, xs => xs.take n :: chunksOf n k (xs.drop n)

/-! ### CRC -/

/-- One bit step of a non-reflected CRC of width w. -/
def crcStepUp (w poly r : Nat) : Nat :=
  if r / 2 ^ (w - 1) % 2 = 1 then (r * 2 % 2 ^ w) ^^^ poly else r * 2

/-- One bit step of a reflected CRC (polynomial reflected). -/
def crcStepDown (poly r : Nat) : Nat :=
  if r % 2 = 1 then (r / 2) ^^^ poly else r / 2

def iter8 (f : Nat → Nat) (r : Nat) : Nat := f (f (f (f (f (f (f (f r)))))))

/-- CRC-16 of R45: polynomial 0x1021, initial 0xFFFF, no reflection, no final XOR. -/
def crc16 (bs : List Byte) : Nat :=
  bs.foldl (fun r b => iter8 (crcStepUp 16 0x1021) (r ^^^ (b.toNat * 256))) 0xFFFF

/-- CRC-32C of R244 (0x1EDC_6F41 reflected). -/
def crc32c (bs : List Byte) : Nat :=
  (bs.foldl (fun r b => iter8 (crcStepDown 0x82F6_3B78) (r ^^^ b.toNat)) 0xFFFF_FFFF) ^^^ 0xFFFF_FFFF

/-- CRC-64 of R296 (ECMA-182 0x42F0_E1EB_A9EA_3693 reflected). -/
def crc64 (bs : List Byte) : Nat :=
  (bs.foldl (fun r b => iter8 (crcStepDown 0xC96C_5795_D787_0F42) (r ^^^ b.toNat))
    0xFFFF_FFFF_FFFF_FFFF) ^^^ 0xFFFF_FFFF_FFFF_FFFF

/-! ### SHA3-512 (FIPS 202) -/

/-! The state is one number of 1,600 bits: lane (x, y) in its bits 64 (5 y + x) and up, so that row y is 320 bits. -/

/-- A pattern of one row in all five rows. -/
def allRows (m : Nat) : Nat := m * (1 + 2 ^ 320 + 2 ^ 640 + 2 ^ 960 + 2 ^ 1280)

/-- The lanes of every row moved along so that column x + k comes to column x. -/
def rowTurn (k a : Nat) : Nat :=
  (a / 2 ^ (64 * k) &&& allRows (2 ^ (320 - 64 * k) - 1)) + (a &&& allRows (2 ^ (64 * k) - 1)) * 2 ^ (320 - 64 * k)

/-- θ: a lane takes up the parity of the column before its own and, turned by one bit, that of the column after it. -/
def keccakTheta (a : Nat) : Nat :=
  let par := (List.range 5).foldl (fun p y => p ^^^ bitsOf a (320 * y) 320) 0
  let next := rowTurn 1 par
  let tops := next / 2 ^ 63 &&& (1 + 2 ^ 64 + 2 ^ 128 + 2 ^ 192 + 2 ^ 256)
  a ^^^ allRows (rowTurn 4 par % 2 ^ 320 ^^^ ((next - tops * 2 ^ 63) * 2 + tops))

/-- ρ and π: the lane at stop t of the walk (x, y) → (y, 2x + 3y) turns left by (t + 1)(t + 2) / 2 bits and moves on to the
next stop; the lane at (0, 0) stays. -/
def keccakRhoPi (a : Nat) : (fuel t x y : Nat) → Nat
  | 0, _, _, _ => bitsOf a 0 64
  | k + 1, t, x, y =>
    let n := (t + 1) * (t + 2) / 2 % 64
    let v := bitsOf a (64 * (5 * y + x)) 64
    let z := (2 * x + 3 * y) % 5
    (v * 2 ^ n % 2 ^ 64 + v / 2 ^ (64 - n)) * 2 ^ (64 * (5 * z + y)) + keccakRhoPi a k (t + 1) y z

/-- χ: a lane's bit changes where the next lane of its row has 0 and the one after it 1. -/
def keccakChi (a : Nat) : Nat :=
  let two := rowTurn 2 a
  a ^^^ (two - (rowTurn 1 a &&& two))

/-- The register that makes ι's bits, one place on. -/
def iotaNext (r : Nat) : Nat := (2 * r % 2 ^ 8) ^^^ (r / 2 ^ 7 * 0x71)

/-- The constant of a round, in bits 2^j − 1, and the register after it. -/
def iotaWord (r : Nat) : Nat × Nat :=
  (List.range 7).foldl (fun acc j =>
    let r := iotaNext acc.2
    (acc.1 + bitsOf r 1 1 * 2 ^ (2 ^ j - 1), r)) (0, r)

/-- Rounds of Keccak-f[1600]: θ, ρ, π, χ and ι. -/
def keccakRounds : (fuel r a : Nat) → Nat
  | 0, _, a => a
  | k + 1, r, a => keccakRounds k (iotaWord r).2 (keccakChi (keccakRhoPi (keccakTheta a) 24 0 1 0) ^^^ (iotaWord r).1)

/-- Absorb one 72-byte block, the rate of SHA3-512: the low 576 bits of the state; then 24 rounds. -/
def absorb (a : Nat) (blk : List Byte) : Nat := keccakRounds 24 1 (a ^^^ fieldLe blk 0 72)

/-- The pad of SHA3: 01, then 10*1, least significant bit first, to a whole number of 72-byte blocks. -/
def sha3Pad (n : Nat) : List Byte :=
  let k := 72 - n % 72
  if k = 1 then [0x86#8] else 0x06#8 :: (List.replicate (k - 2) 0#8 ++ [0x80#8])

/-- SHA3-512 of a byte string, byte 0 of the digest in bits [7:0]. -/
def sha3_512 (m : List Byte) : Digest :=
  let p := m ++ sha3Pad m.length
  BitVec.ofNat 512 ((chunksOf 72 p.length p).foldl absorb 0)

/-- The 64 bytes of a digest as stored. -/
def digestBytes (d : Digest) : List Byte := leBytes 64 d.toNat

end Sys2Proof.Machine
end

