-- ==== Sys2Proof/Machine/Lines.lean ====
section
/-! DEFINITION. Packed lines: W2, W1, M8B-S, M8B-U and scent lines (R44 to R51, R62, R63, R155). -/

namespace Sys2Proof.Machine

/-- Format tag of a packed line (Table 2.6). -/
def lineTag : Fmt → Nat
  | .w2 => 1
  | .w1 => 2
  | .scent => 2
  | .m8bs => 3
  | .m8bu => 4
  | _ => 0

/-- Codes per line (Table 2.6). -/
def codesPerLine : Fmt → Nat
  | .w2 => 224
  | .w1 => 448
  | .scent => 448
  | .m8bs => 56
  | .m8bu => 56
  | _ => 1

def isPacked : Fmt → Bool
  | .w2 | .w1 | .m8bs | .m8bu | .scent => true
  | _ => false

/-- Bits of one element in its stored form (8 for a byte code). -/
def codeBits : Fmt → Nat
  | .w2 => 2
  | .w1 => 1
  | .scent => 1
  | _ => 8

/-- A packed line apart from its CHECK: SCALE, FLAGS and the codes. -/
structure PackedLine where
  scale : W32
  nf    : Bool := false
  sat   : Bool := false
  sr    : Bool := false
  codes : List Nat
  deriving DecidableEq, Repr

/-- Pack codes of b bits each into n bytes, code 0 in the low bits of byte 0 (Table 2.8). -/
def packCodes (b : Nat) : Nat → List Nat → List Byte
  | 0, _ => []
  | n + 1, cs =>
    let per := 8 / b
    let v := (cs.take per).reverse.foldl (fun acc c => acc * 2 ^ b + c) 0
    BitVec.ofNat 8 v :: packCodes b n (cs.drop per)

/-- The codes a body holds. -/
def unpackCodes (b : Nat) (body : List Byte) : List Nat :=
  body.flatMap (fun x => (List.range (8 / b)).map (fun i => bitsOf x.toNat (b * i) b))

/-- The 64 bytes of a line, CHECK computed afresh (Table 2.5, R45). -/
def lineBytes (f : Fmt) (l : PackedLine) : List Byte :=
  let flags := (if l.nf then 1 else 0) + (if l.sat then 2 else 0) + (if l.sr then 4 else 0)
  let sc := leBytes 4 l.scale.toNat
  let rest := [BitVec.ofNat 8 (lineTag f), BitVec.ofNat 8 flags] ++ packCodes (codeBits f) 56 l.codes
  sc ++ leBytes 2 (crc16 (sc ++ rest)) ++ rest

/-- What a retriever finds when it reads a line (the cases of R45). -/
inductive LineRead where
  | badCheck
  | badFormat
  | ok (l : PackedLine)
  deriving DecidableEq, Repr

/-- CHECK of a stored line matches (R45). -/
def lineCheckOk (bs : List Byte) : Bool :=
  fieldLe bs 4 2 = crc16 (slice bs 0 4 ++ slice bs 6 58)

/-- A reserved code of the format (R47, R50). -/
def reservedCode : Fmt → Nat → Bool
  | .w2, c => c == 2
  | .m8bs, c => c == 0x80
  | _, _ => false

/-- Read a 64-byte line declared to be of format f (R45). -/
def readLine (f : Fmt) (bs : List Byte) : LineRead :=
  if !lineCheckOk bs then .badCheck
  else if fieldLe bs 6 1 ≠ lineTag f then .badFormat
  else
    let fl := fieldLe bs 7 1
    let codes := unpackCodes (codeBits f) (slice bs 8 56)
    if codes.any (reservedCode f) then .badFormat
    else .ok { scale := BitVec.ofNat 32 (fieldLe bs 0 4), nf := fl % 2 = 1, sat := fl / 2 % 2 = 1,
               sr := fl / 4 % 2 = 1, codes := codes }

/-- The signed value of an M8B-S code. -/
def m8sVal (c : Nat) : Xv := decodeI8 c

/-- The value of one code of a line (R47 to R51): every element is NaN where SCALE is not finite (R49). -/
def lineElem (f : Fmt) (scale : W32) (code : Nat) : Xv :=
  let sc := valT32 scale
  if !xIsFinite sc then .nan
  else
    match f with
    | .w2 => if code = 0 then xZero else xMul sc (decodeElem .w2 code)
    | .w1 => xMul sc (decodeElem .w1 code)
    | .m8bs => valT32 (rne32s (xDiv (xMul sc (m8sVal code)) (xOfNat 127)))
    | .m8bu => valT32 (rne32s (xDiv (xMul sc (xOfNat (code * code))) (xOfNat 65025)))
    | _ => decodeElem .w1 code

/-- The line written when a source value is non-finite (Table 2.12). -/
def nfLine (sr : Bool) (n : Nat) : PackedLine :=
  { scale := 0x7FC0_0000#32, nf := true, sr := sr, codes := List.replicate n 0 }

/-- What a line derivation counts beside the line. -/
structure LineOut where
  line   : PackedLine
  satCount : Nat := 0
  nonfin : Bool := false
  deriving DecidableEq, Repr

/-- R62 for a W2 or W1 line from its valid T32 source values. -/
def deriveW (f : Fmt) (ws : List W32) : LineOut :=
  let vs := ws.map valT32
  if vs.any (fun v => !xIsFinite v) then { line := nfLine false ws.length, nonfin := true }
  else
    let sum := vs.foldl (fun a v => xAdd a (xAbs v)) xZero
    let scale := rne32s (xDiv sum (xOfNat ws.length))
    let half := xDiv (valT32 scale) (xOfNat 2)
    let code (v : Xv) : Nat :=
      match f with
      | .w2 => if xLt half v then 1 else if xLt v (xNeg half) then 3 else 0
      | _ => if xSign v then 1 else 0
    { line := { scale := scale, codes := vs.map code } }

/-- The M8B-S code of R63 step 3 (a magnitude above `SCALE` takes ±127, R219). -/
def m8sCode (r : Rnd) (scale v : Xv) : Nat × Bool :=
  match xDiv (xMul (xOfNat 127) v) scale with
  | .fin s n d =>
    let m := roundInt r n d
    if 127 < m then (if s then 0x81 else 127, true)
    else (if s && 0 < m then 256 - m else m, false)
  | _ => (if xSign v then 0x81 else 127, true)

/-- The M8B-U code of R63 step 4: nearest to 255·√(v / SCALE), ties to even, decided on squares. -/
def m8uCode (scale v : Xv) : Nat × Bool :=
  match xDiv (xMul (xOfNat 65025) v) scale with
  | .fin _ n d =>
    let q := isqrt (n / d)
    -- (2q + 1)² · d against 4 n decides between q and q + 1
    let a := (2 * q + 1) * (2 * q + 1) * d
    let c := if a < 4 * n then q + 1 else if a = 4 * n then (if q % 2 = 0 then q else q + 1) else q
    if 255 < c then (255, true) else (c, false)
  | _ => (255, true)

/-- Encode M8B values against a given SCALE (R63 steps 3 to 5); a magnitude above a kept SCALE saturates (R219). `rnds`
holds the rounding of each element. -/
def m8Codes (f : Fmt) (scale : W32) (rnds : List Rnd) (ws : List W32) : List (Nat × Bool) :=
  let sc := valT32 scale
  (ws.zip rnds).map (fun p =>
    let v := valT32 p.1
    match f with
    | .m8bs =>
      if xLt sc (xAbs v) then (if xSign v then 0x81 else 127, true)
      else if xIsZero sc then (0, false) else m8sCode p.2 sc v
    | _ =>
      if xSign v || xIsZero v then (0, !xIsZero v)
      else if xLt sc v then (255, true)
      else m8uCode sc v)

/-- R63 for a whole M8B line. -/
def deriveM8 (f : Fmt) (sr : Bool) (rnds : List Rnd) (ws : List W32) : LineOut :=
  let vs := ws.map valT32
  if vs.any (fun v => !xIsFinite v) then { line := nfLine sr ws.length, nonfin := true }
  else
    let mags : List W32 := ws.map (fun w =>
      match f with
      | .m8bs => w &&& 0x7FFF_FFFF#32
      | _ => if xSign (valT32 w) then 0#32 else w)
    let scale := mags.foldl (fun a w => if a.toNat < w.toNat then w else a) 0#32
    let cs := m8Codes f scale rnds ws
    let nsat := (cs.filter (·.2)).length
    { line := { scale := scale, sat := 0 < nsat, sr := sr, codes := cs.map (·.1) }, satCount := nsat }

/-- Derive a line of any packed element format (R62, R63). -/
def deriveLine (f : Fmt) (sr : Bool) (rnds : List Rnd) (ws : List W32) : LineOut :=
  match f with
  | .m8bs => deriveM8 .m8bs sr rnds ws
  | .m8bu => deriveM8 .m8bu false rnds ws
  | _ => deriveW f ws

/-- A scent line with the given bits (R155): SCALE 1, FLAGS 0. -/
def scentLine (bits : List Nat) : List Byte := lineBytes .scent { scale := t32One, codes := bits }

end Sys2Proof.Machine
end

