-- ==== Sys2Proof/Syntax.lean ====
section
/-! DEFINITION. The commands of the block: one constructor per row of opcode_table.json, with the operands
the row's rule gives it. A value the device measures or receives from outside (a test finding, a received
flit, host data, a temperature) is an operand of the row that tells of it. -/

namespace Sys2Proof
open Machine (Fmt)

/-! ### Operand types -/

/-- The two management controllers (Table 1.2). -/
inductive Mc where
  | west
  | east
  deriving DecidableEq, Repr

/-- What a controller asserts on the leader handshake (R374). -/
inductive HsSignal where
  | lead
  | fail
  | follow
  deriving DecidableEq, Repr

/-- Command kinds (R124). -/
inductive Kind where
  | fwd | bwd | upd | xfer | ctrl
  deriving DecidableEq, Repr

/-- A core's own memories under SECDED (Table 11.5). -/
inductive CoreMem where
  | dataSram
  | accStore
  | instrBank
  deriving DecidableEq, Repr

/-- The memory errors that a command's own accesses meet (R309 to R311): 64-byte blocks that have become uncorrectable, blocks
whose write fails its retry, how many HBM4 reads and parity retries, DDR5 reads and SRAM words were corrected, and the two-bit
error of a core's own memory, if any, with the byte offset. -/
structure MemMeet where
  reads  : List Nat := []
  writes : List Nat := []
  hbm    : Nat := 0
  ddr    : Nat := 0
  sram   : Nat := 0
  unit   : Option (CoreMem × Nat) := none
  deriving DecidableEq, Repr

/-- A number that a command names, with the memory errors the command meets. -/
structure MetNat where
  n   : Nat
  mem : MemMeet := { }
  deriving DecidableEq, Repr

/-- Bytes that a command brings from the host (none where the host answered with an error), with the memory errors it meets. -/
structure MetData where
  bytes : Option (List Byte)
  mem   : MemMeet := { }
  deriving DecidableEq, Repr

/-- The attributes every core command carries (R124, R126, R127): the logical core whose stream holds it, its
offset in the core's command section, its tag and kind (the footprint of R132 is derived from the operands), whether the stepping defines it (Table 5.3, CMD_ILLEGAL),
the engines it names as bits of Table 13.11, and the memory errors that its accesses meet. -/
structure Attr where
  core    : Nat
  offset  : Nat
  tag     : Nat
  kind    : Kind
  defined : Bool
  engines : Nat
  mem     : MemMeet := { }
  deriving DecidableEq, Repr

/-- A lane of a mesh, span or edge-bridge link (Table 14.10: LINK 0 toward x + 1, 1 toward y + 1, 2 span, 3 edge). -/
structure LaneRef where
  die  : Nat
  x    : Nat
  y    : Nat
  link : Nat
  dir  : Nat
  lane : Nat
  deriving DecidableEq, Repr

/-- A core site: die (0 west, 1 east), column, row (Table 1.4). -/
structure Site where
  die : Nat
  x   : Nat
  y   : Nat
  deriving DecidableEq, Repr

/-- A broadcast poll answer (Table 14.8). GAP names the missing packets. -/
inductive PollStatus where
  | ok
  | gap (missing : List Nat)
  | digest
  | noHeader
  | lost
  deriving DecidableEq, Repr

/-- How the firmware packets sent to one core before a poll arrive, and whether the core answers that poll within 10 µs
(R384 to R386): the SEQ values lost (0 is the header), and the data packets that arrive with other bytes. -/
structure PollRx where
  answers : Bool
  lost    : List Nat
  damaged : List (Nat × List Byte)
  deriving DecidableEq, Repr

/-- Everything arrives and the core answers. -/
def PollRx.clean : PollRx := { answers := true, lost := [], damaged := [] }

/-- What a module's SPD hub reports (R306, R307). `kind`: 1 RDIMM, 2 MRDIMM, other values unsupported types. -/
structure DdrModule where
  kind       : Nat
  speed      : Nat
  capGib     : Nat
  ranks      : Nat          -- physical ranks
  height     : Nat := 1     -- dies of a 3DS stack; 1 is planar
  deviceBits : Nat
  ecc        : Bool
  perChannel : Nat
  deriving DecidableEq, Repr

/-- What the start-up test, the trainings and the polls of one INSPECT find (R379 to R387). -/
structure Findings where
  powerOk      : Bool                          -- step 1 ended without an electrical trip
  tripHolds    : Bool                          -- the condition of a soft trip still holds (R398)
  badLanes     : List LaneRef                  -- step 2
  badRouters   : List Site                     -- step 2
  badSites     : List Site                     -- step 2 site failures outside routers
  hbmFail      : List Nat                      -- step 3 or 3Q: stacks that fail
  hbmAbsent    : List Nat := []                -- step 3 or 3Q: stacks that do not answer or are of an unsupported kind (Table 11.3)
  ddr          : List (Option DdrModule)       -- step 4: channels D0 to D11
  polls        : List (Site × List PollRx)     -- step 6: per core and round, what arrives; absent cores receive all
  selfTestFail : List Site                     -- step 7
  aged         : List Site                     -- step 7: path margin below the ageing threshold (R414)
  logWriteFail : Bool                          -- step 8: a flash write failed
  deriving DecidableEq, Repr

/-- A flit: its header fields with the CRC field, and its payload (Table 9.6). -/
structure Flit where
  type      : Nat
  resend    : Bool
  last      : Bool
  stream    : Nat
  hop       : Nat
  sendStamp : Nat
  nakValid  : Bool
  nakStamp  : Nat
  seq       : Nat
  crc       : W32 := 0
  payload   : List Byte
  deriving DecidableEq, Repr

/-- How a flit arrives: the bytes of its line block that arrive wrong (R238), and the time of its arrival on this package's
clock in 1/64 slot (R249). -/
structure Arrival where
  errs : List Nat := []
  at64 : Nat := 0
  deriving DecidableEq, Repr

/-- A flit as it arrives. -/
structure Rx where
  flit : Flit
  how  : Arrival := {}
  deriving DecidableEq, Repr

/-- A flit and the peer's schedule slot whose sending it arrives from. -/
structure SlotRx where
  slot : Nat
  rx   : Rx
  deriving DecidableEq, Repr

/-- What a STOP flit carries: the origin's herd index, the reason and the pack time of detection (R262). -/
structure StopMsg where
  origin : Nat
  reason : Nat
  time   : Nat
  deriving DecidableEq, Repr

/-- A Hostlink flit: the header fields of Table 12.1 with the CRC field, and its payload. -/
structure HlFlit where
  type     : Nat
  lseq     : Nat
  ackSeq   : Nat
  ackValid : Bool
  nak      : Bool
  credit   : Nat
  crc      : W32 := 0
  payload  : List Byte
  deriving DecidableEq, Repr

/-- What stands beside the other header fields of a Hostlink flit: its CRC field and payload, and the bytes of its line block that
arrive wrong (R238, R326). -/
structure HlBody where
  crc     : W32 := 0
  payload : List Byte
  errs    : List Nat := []
  deriving DecidableEq, Repr

/-- What an ANNOUNCE flit carries: a stretch announcement (R268), or the pack time a parent gives (R250). -/
inductive Announce where
  | stretch (beat s : Nat)
  | time (packTime beat beatStart s : Nat) (table : List (Nat × Nat))
  deriving DecidableEq, Repr

/-- An ANNOUNCE flit as it arrives in a slot. -/
structure AnnRx extends SlotRx where
  ann : Announce
  deriving DecidableEq, Repr

/-- What a training state measures or receives when it completes (R239 to R241, R324). -/
structure TrainInfo where
  lanes    : Nat        -- lanes with FEC lock, one bit per lane
  rtt      : Nat        -- mean round trip in 1/64 slot (R240)
  peerHerd : Nat        -- the peer's PF_HERD contents (R241)
  peerPort : Nat
  reqCredit : Nat       -- the host's initial credits of the REQ and RSP channels (R324, R328)
  rspCredit : Nat
  deriving DecidableEq, Repr

/-- Activation kinds of Table 6.3. -/
inductive ActKind where
  | relu | leaky | abs | clamp | max2 | other
  deriving DecidableEq, Repr

/-- An activation record (R156): kind, parameters α, lo, hi and an optional scent tensor. -/
structure ActRec where
  kind  : ActKind
  alpha : W32
  lo    : W32
  hi    : W32
  scent : Option Nat
  deriving DecidableEq, Repr

/-- A backward factor (R158): scent tensor, kind, and for MAX2 the side (false = first input). -/
structure BackRec where
  scent : Nat
  kind  : ActKind
  alpha : W32
  side  : Bool
  deriving DecidableEq, Repr

/-- The conversion a command names (R57, R156 to R161, R168). `counter` is the counter tensor and `first` the index in it of
the first element converted; the manifest's rounding selection for the tensor converted into decides the rounding (R61).
`rescale` is the scale that replaces a FIXED one of that tensor at the next step boundary (R53, R153). -/
structure Conv where
  dst     : Fmt
  sSrc    : W32
  sDst    : W32
  draw    : Nat
  counter : Option Nat
  first   : Nat
  act     : Option ActRec
  back    : Option BackRec
  dropout : Option Nat
  rescale : Option W32 := none
  deriving DecidableEq, Repr

/-- Preload kinds of Table 3.5 with the SRAM or tensor source of the values. -/
inductive Preload where
  | zero
  | bias (fmt : Fmt) (scale : W32) (tensor : Nat) (first : Nat)
  | residual (fmt : Fmt) (scale : W32) (tensor : Nat)
  | undefinedKind (fmt : Fmt)
  deriving DecidableEq, Repr

/-- One tile of an OPEN (R78, R79): rows, columns, region offset in the accumulator store, position in the
output, index of its status record (R91). -/
structure TileArg where
  rows : Nat
  cols : Nat
  acc  : Nat
  m0   : Nat
  n0   : Nat
  recIdx  : Nat
  deriving DecidableEq, Repr

/-- Which product of a narrow layer a group is (R96). -/
inductive NarrowKind where
  | forward | backData | weightGrad
  deriving DecidableEq, Repr

/-- What a narrow-layer product adds to its OPEN: ladder record, product, whether the weight operand is an
instar of a past version, the ladder sources of operands A and B and the master (R98, R103, R104), the leaf (R114)
and the DRAW values of the conversions that fed A and B. -/
structure NarrowArg where
  layer  : Nat
  kind   : NarrowKind
  instar : Bool
  srcA   : Option Nat
  srcB   : Option Nat
  master : Option Nat
  leaf   : Nat
  drawA  : Nat
  drawB  : Nat
  deriving DecidableEq, Repr

/-- The operands of an OPEN (R64 to R82, R148, R152). -/
structure OpenArg where
  group   : Nat
  fa      : Fmt
  fb      : Fmt
  ta      : Option Nat
  tb      : Option Nat
  sA      : W32
  sB      : W32
  a32c    : Nat           -- accumulator mode: 0 A32, 1 A32C, other values undefined
  strict  : Bool
  orient  : Nat           -- 0 ROW, 1 COL, other values undefined
  k0      : Nat
  preload : Preload
  out     : Nat           -- manifest index of the output tensor
  tiles   : List TileArg
  narrow  : Option NarrowArg
  alongB  : Bool          -- K runs along the lines of operand B (R66)
  deriving DecidableEq, Repr

/-- The operands of an ACCUMULATE: K start and length, formats, and SRAM offsets of A and of each tile's B;
for a narrow product the index of its first source element and the row stride in each source. -/
structure AccArg where
  group : Nat
  fa    : Fmt
  fb    : Fmt
  k     : Nat
  kLen  : Nat
  rows  : Nat
  cols  : List Nat
  aOff  : Nat
  bOff  : List Nat
  srcA  : Nat × Nat
  srcB  : Nat × Nat
  wSrc  : Nat × Nat
  deriving DecidableEq, Repr

/-- Where CLOSE stores a tile: its output tensor in memory, or data SRAM. -/
inductive StoreDest where
  | tensor
  | sram (off : Nat)
  deriving DecidableEq, Repr

/-- FLUTTER modes of Table 6.7. -/
inductive FltMode where
  | raw | uniform | mask
  deriving DecidableEq, Repr

/-- Operands of a VOP (R227 to R229): opcode of Table 8.9, element count, SRAM sources a, b, c, destination and
its conversion, SCALE2 exponent or reduction kind, row length for RRED. -/
structure VopArg where
  op    : Nat
  n     : Nat
  nB    : Nat
  nC    : Nat
  a     : Nat
  b     : Option Nat
  c     : Option Nat
  dst   : Nat
  arg   : Int
  row   : Nat
  srcT32 : Bool
  conv  : Conv
  deriving DecidableEq, Repr

/-- Operands of a RETRIEVE (R151, R314 to R321): tensor and first element, count, SRAM destination, the
conversion (none = copied), transposed window, gather, T32 factor. -/
structure RetArg where
  tensor  : Nat
  first   : Nat
  count   : Nat
  dst     : Nat
  conv    : Option Conv
  transp  : Option (Nat × Nat)
  gather  : Option (Nat × Nat)
  factor  : W32
  deriving DecidableEq, Repr

/-- Operands of a DEPOSIT: SRAM source and its format, tensor, first element, count, conversion (none = copied), zero write. -/
structure DepArg where
  src    : Nat
  sfmt   : Fmt
  tensor : Nat
  first  : Nat
  count  : Nat
  conv   : Option Conv
  zero   : Bool
  deriving DecidableEq, Repr

/-- Operands of an UPDATE (R217): the layer (recipe index), the master's shard and the tensors bound to it. -/
structure UpdArg where
  layer   : Nat
  master  : Nat
  first   : Nat
  count   : Nat
  m1      : Option Nat
  m2      : Option Nat
  ema     : Option Nat
  state   : Nat
  work    : Nat
  grad    : Nat
  deriving DecidableEq, Repr

/-- An I3C in-band or private transfer status code is a register status (R467). -/
abbrev Status := Nat

/-- Measured values of one 10 µs power sample (R401, R406, R417). -/
structure PowerMeas where
  pin    : Nat      -- input power, W
  vin    : Nat      -- input voltage, 10 mV units
  tMax   : Nat      -- hottest junction, °C
  pHold  : Nat      -- measured power while every core waits at a heel, W (R409)
  pRaw   : Nat      -- mean raw estimate of the interval, W (R404)
  estFloor : Nat    -- the estimate at floor settings, W (R407)
  deriving DecidableEq, Repr

/-- Activity of one unit in a beat (R402): the core, stack or port, the kind of event, and how often it happened. -/
structure ActCount where
  unit  : Nat
  event : Nat
  count : Nat
  deriving DecidableEq, Repr

/-- One rail as the static term of R402 reads it: the half, the part of the estimate it belongs to (0 links, 1 memory, 2 compute),
its voltage in mV and its die's temperature in °C. -/
structure RailRead where
  half : Nat
  part : Nat
  mv   : Nat
  temp : Nat
  deriving DecidableEq, Repr

/-- What a beat's estimate is formed from (R402). -/
structure Activity where
  cores  : List ActCount
  hbm    : List ActCount
  ports  : List ActCount
  rails  : List RailRead
  deriving DecidableEq, Repr

/-- A DDR5 module's temperature readout (R308): the channel, and °C. -/
structure ModTemp where
  channel : Nat
  temp    : Nat
  deriving DecidableEq, Repr

/-! ### The commands -/

/-- One constructor per row of opcode_table.json, in its order. -/
inductive Instr where
  | vin48Valid (leadSel i3cA1 i3cA0 flash1v8 : Bool)
  | vin48Loss
  | sb33Loss
  | sb33Return
  | mcSelfCheckDone (mc : Mc) (romOk sramOk : Bool)
  | leaderHandshakeSignal (mc : Mc) (sig : HsSignal)
  | candidateTimeout (mc : Mc)
  | leaderConfirmTimeout (mc : Mc)
  | aliveToggle (mc : Mc)
  | aliveTimeout (mc : Mc)
  | mcLeadForce (mc : Mc) (value : W64)
  | inspect (f : Findings)
  | commit
  | run
  | jobStart
  | stop
  | reset (full : Bool) (f : Findings)
  | heel (a : Attr) (h d : Nat) (waits : List (Nat × Nat))
  | heelDeadline (core : Nat)
  | fence (a : Attr)
  | branch (a : Attr) (target : Nat)
  | decide (a : Attr) (mask target : Nat)
  | swap (a : Attr) (segment entry : Nat)
  | endStream (a : Attr)
  | openGroup (a : Attr) (o : OpenArg)
  | accumulate (a : Attr) (o : AccArg)
  | close (a : Attr) (group : Nat) (dest : StoreDest) (conv : Conv)
  | vop (a : Attr) (o : VopArg)
  | vconvert (a : Attr) (src dst n : Nat) (sfmt : Fmt) (conv : Conv)
  | flutter (a : Attr) (dom id draw e0 n : Nat) (mode : FltMode) (thr dst : Nat)
  | update (a : Attr) (o : UpdArg)
  | retrieve (a : Attr) (o : RetArg)
  | deposit (a : Attr) (o : DepArg)
  | send (a : Attr) (stream seq src slot : Nat) (pairForm : Bool)
  | accept (a : Attr) (stream seq dst : Nat)
  | contribute (a : Attr) (stream src count unit slot : Nat)
  | imemLoad (a : Attr) (segment bank : Nat)
  | imemBankLoadComplete (core bank : Nat)
  | breakFreeze (a : Attr)
  | ctxSaveFreeze
  | stepOrigin
  | chrysalisReady (slot : Nat)
  | memChryRel (value : W64)
  | portModeWrite (port : Nat) (value : W64)
  | train (port : Nat)
  | trainingStateComplete (port : Nat) (info : TrainInfo)
  | trainingTimeout (port : Nat)
  | fecLockLoss (port lane : Nat)
  | linkSilence (port : Nat)
  | scheduledSendSlot (port : Nat)
  | dataFlitReceive (port slot : Nat) (f : Rx)
  | failedFlitReceive (port slot : Nat)
  | nakReceive (port stamp : Nat)
  | resendSpare (port : Nat)
  | retryOverrun (port : Nat)
  | retryExhausted (port : Nat) (found : Option Flit)
  | flitDelivery (stream seq : Nat)
  | forwardSend (port : Nat)
  | placeDelivery (stream : Nat) (seq : MetNat)
  | reduceApply (stack : MetNat)
  | stopFlitReceive (port slot : Nat) (f : Rx) (stop : StopMsg)
  | idleHoldReceive (port : Nat) (f : SlotRx)
  | announceFlitReceive (port : Nat) (f : AnnRx)
  | packtimeLock (phase : Int)
  | packtimeLockLost (phase : Int)
  | pfStretchReq (value : W64)
  | beatStart (act : Activity)
  | stretchAutoEval
  | collectiveLastSendSlot (id : Nat)
  | collectiveDelivery (id : Nat)
  | hostlinkFlitReceive (port type lseq : Nat) (ack : Nat × Bool) (nak : Bool) (credit : Nat) (body : HlBody)
  | replay (port : Nat)
  | snpInv (port tag addr : Nat)
  | snpData (port tag addr : Nat)
  | hData (port tag param status : Nat) (data : List Byte)
  | hAck (port tag status : Nat)
  | regRd (port tag addr : Nat)
  | regWr (port tag addr : Nat) (value : W64)
  | memRd (port tag addr : Nat) (lines : MetNat)
  | memWr (port tag addr : Nat) (data : MetData)
  | descFetch (sq : Nat)
  | nop (sq i : Nat)
  | input (sq i : Nat) (data : MetData)
  | copyIn (sq i : Nat) (data : MetData)
  | copyOut (sq i : Nat) (hostOk : Bool) (mem : MemMeet)
  | snapReq (sq i : Nat)
  | ctxSave (sq i : Nat)
  | jobLoad (sq i : Nat) (image : Option (List Byte))
  | restore (sq i : Nat) (slot : Option (List Byte))
  | descComplete (sq i : Nat)
  | descDeadline (sq i : Nat)
  | inputDeadline (index : Nat)
  | wakeTimer (cq : Nat)
  | hlSqCfgWrite (q : Nat) (value : W64)
  | hlCqCfgWrite (q : Nat) (value : W64)
  | hlEvqCfgWrite (value : W64)
  | contextRestore
  | flutterTestGo (core : Nat)
  | pwrCapWrite (value : W64)
  | pwrCapSchedWrite (value : W64)
  | powerSample (m : PowerMeas)
  | powerIntervalEnd
  | estimatorRecalibration
  | inputOvervoltage
  | inputOvercurrent (die : Nat)
  | sustainedInputPower
  | intermediatePlane (half : Nat)
  | regulator (half : Nat)
  | powerStageDieTemperature (die : Nat)
  | dieJunction (half : Nat)
  | hbm4StackTemperature (stack : Nat)
  | marginMonitor (core : Nat)
  | droop (core periods : Nat)
  | hbmTemperatureReadout (temps : List Nat)
  | patrolScrub (corrected : Nat) (uncorrectable : List Nat)
  | attest (hostOk : Bool) (mc : Mc)
  | certOut (hostOk : Bool)
  | fwWrite (region : Option (List Byte)) (readBackOk : Bool)
  | svnCommit
  | jobkey (record : Option (List Byte))
  | debugUnlock (token : Option (List Byte))
  | ownerEnrol (key : Option (List Byte))
  | i3cPointerWrite (mc : Mc) (bytes : List Byte)
  | i3cRegisterWrite (mc : Mc) (bytes : List Byte)
  | i3cPrivateRead (mc : Mc)
  | setdasa (mc : Mc) (static dyn : Nat)
  | entdaa (mc : Mc) (dyn : Nat)
  | rstdaa (mc : Mc)
  | enec (mc : Mc)
  | disec (mc : Mc)
  | getpid (mc : Mc)
  | getbcr (mc : Mc)
  | getdcr (mc : Mc)
  | getstatus (mc : Mc)
  | getmwl (mc : Mc)
  | getmrl (mc : Mc)
  | registerWrite (mc : Mc) (addr : Nat) (value : W64)
  | idleFlitReceive (port slot : Nat) (f : Rx)
  | refclkFabStop (half : Nat)
  | ddr5ModuleTemperature (reading : ModTemp)
  | bringUpChannelLoss
  deriving DecidableEq, Repr

/-- The attributes of a core command (R124); none for the other rows. -/
def Instr.attr? : Instr → Option Attr
  | .heel a _ _ _ | .fence a | .branch a _ | .decide a _ _ | .swap a _ _ | .endStream a => some a
  | .openGroup a _ | .accumulate a _ | .close a _ _ _ => some a
  | .vop a _ | .vconvert a _ _ _ _ _ | .flutter a _ _ _ _ _ _ _ _ | .update a _ => some a
  | .retrieve a _ | .deposit a _ | .send a _ _ _ _ _ | .accept a _ _ _ | .contribute a _ _ _ _ _
  | .imemLoad a _ _ => some a
  | _ => none

end Sys2Proof
end

