-- ==== Sys2Proof/Machine/Groups.lean ====
section
/-! DEFINITION. The accumulation groups a core holds (Chapter 3), as State keeps them. -/

namespace Sys2Proof.Machine

/-- An accumulator element: main and err of R69, both T32. -/
abbrev AccElem := W32 × W32

/-- One ACCUMULATE as a tile has taken it: its arguments and the operand values of the tile as T32 patterns, A row by row
and B column by column, and how many of each were flushed on the read. -/
structure TileAcc where
  arg : Sys2Proof.AccArg
  a   : List W32
  b   : List W32
  flA : Nat
  flB : Nat
  deriving DecidableEq, Repr

/-- One tile of an open group: its arguments, its preload values row by row as T32 patterns before the source's scale,
whether a preload was flushed, its prescale (9 once it keeps overflowing or a repeat was refused), its elements row by row
(R78, R80, R85, R86) and the accumulates it has taken. -/
structure Tile where
  arg   : Sys2Proof.TileArg
  pre   : List W32
  preFl : Bool
  q     : Nat
  elems : List AccElem
  hist  : List TileAcc
  deriving DecidableEq, Repr

/-- The last writer of a range of data SRAM: a RETRIEVE, with the runs of source elements it read and, for each element it
converted, whether the conversion saturated and whether it flushed; or another command (none). -/
structure Feed where
  off   : Nat
  len   : Nat
  ret   : Option Sys2Proof.RetArg
  runs  : List (Nat × Nat) := []
  marks : List (Bool × Bool) := []
  deriving DecidableEq, Repr

/-- One ACCUMULATE a group has taken: its arguments, the data SRAM bytes of its operands and the transfers that fed them,
which a repeat re-issues (R87). -/
structure AccFeed where
  arg   : Sys2Proof.AccArg
  bytes : List (Nat × List Byte)
  feeds : List Feed
  deriving DecidableEq, Repr

/-- An open accumulation group (R78): the OPEN, its tiles, the K length reached, whether a partial chunk has ended its
K, and the accumulates taken. -/
structure Group where
  o     : Sys2Proof.OpenArg
  tiles : List Tile
  k     : Nat
  ended : Bool
  hist  : List AccFeed
  deriving DecidableEq, Repr

end Sys2Proof.Machine
end

