-- ==== Sys2Proof/Config.lean ====
section
/-! DEFINITION. What an implementation fixes and what the spec leaves open. A constant declared `opaque` has no
body: nothing in Lean can evaluate it or prove a value of it, so a statement about it holds whatever it is. -/

namespace Sys2Proof.Config

/-- One segment of a PROGRAM section: ID, offset and length in the section, wide-entry flag (Table 13.3). -/
structure Segment where
  id   : Nat
  off  : Nat
  len  : Nat
  wide : Bool
  deriving DecidableEq, Repr, Inhabited

/-- A SEND of a command section: its stream, SEQ, send slot and whether it stands in the wide schedule. -/
structure ProgSend where
  stream : Nat
  seq    : Nat
  slot   : Nat
  wide   : Bool
  deriving DecidableEq, Repr, Inhabited

/-- What the device reads from a command section in the stepping's private encoding (R124, Table 13.3, checks 7, 9,
10 and 16 of Table 13.12): its segments, the engines its commands name, the first undefined command if any, whether
some narrow-layer product lacks its ladder sources (R98), the counter tensors its conversions name (R161), the ladder
record of its first narrow layer (R101) and its SENDs (R283). -/
structure ProgInfo where
  segments  : List Segment
  engines   : Nat
  undefAt   : Option Nat
  noLadder  : Bool
  counters  : List Nat
  ladder    : Option Nat
  sends     : List ProgSend
  deriving DecidableEq, Repr, Inhabited

/-- The reading of a PROGRAM section: the encoding is private to each stepping (R124). Free: log entry 12. -/
opaque programInfo : (stepping : Nat) → List Byte → ProgInfo

/-- A layer's train mask (R170, Table 6.10): granularity 0 ROW, 1 BLOCK32, 2 TILE32, its bitmap over the n-major
orientation, and whether the tensor asked about holds rows and columns transposed. -/
structure TrainMask where
  gran   : Nat
  bits   : List Bool
  transp : Bool
  deriving DecidableEq, Repr, Inhabited

/-- The train mask that the MANIFEST section gives a tensor's layer: the manifest may give one (R170), but no table
says where. Free: log entry 25. -/
opaque trainMask : (manifest : List Byte) → (tensor : Nat) → Option TrainMask

/-- How many 16 B slot-table runs a SLOTS section holds before its collective instance records: Table 13.3 does not say
where the runs end. Free: log entry 24. -/
opaque slotRunCount : List Byte → Nat

/-- The 16 B units of REQ and RSP credit that the device advertises in IDENTIFY: R328 names only those of SNP. Free: log
entry 20. -/
opaque reqCredits : Nat
opaque rspCredits : Nat

/-- The manifest format code of I8, which Table 7.6 does not give (R35, R357). Free: log entry 15. -/
opaque i8FormatCode : Nat

/-- A value the spec leaves open, drawn by the step counter `free` of State. Log entry 10. -/
opaque freeWord : Nat → W64

/-- The context save image's group table and tile table bytes, for the groups that a core holds: private to the stepping
(Table 5.13). Free: log entry 13. -/
opaque privateTableByte : (stepping : Nat) → (groups : List (Nat × Machine.Group)) → (offset : Nat) → Byte

/-- The groups that the private group and tile tables of a context image stand for (R94, Table 5.13), the tiles' elements
apart: those stand in the image's accumulator store. Free: log entry 13. -/
opaque privateGroups : (stepping : Nat) → (tables : List Byte) → List (Nat × Machine.Group)

/-- The ML-DSA-87 public key KeyGen produces from a 32-byte seed (R439, FIPS 204). Free: log entry 11. -/
opaque identityPublicKey : BitVec 256 → BitVec 20736

/-- The ML-DSA-87 signature of a 64-byte digest under the identity key of a seed, context string given by its bytes;
the last argument counts the draws, for a hedged signature (R448, FIPS 204). Free: log entry 11. -/
opaque identitySign : BitVec 256 → List Byte → Digest → Nat → BitVec 37016

/-- The exponent of a ladder record's fallback scale before the first update pass of its layer, by the job image's digest and
the record's index (R106 gives none). Free: log entry 29. -/
opaque fallbackExponent : Digest → Nat → Nat

/-- Bytes of data SRAM that an update pass has staged in: by step, layer and offset, the same in every run, since results may not
differ (R7, R222). Free: log entry 50. -/
opaque stagedByte : (step layer offset : Nat) → Byte

/-- The exponent of the power-of-two scale bound to the codes of a version slot after a restore of a slot that this package has not
taken, by its body digest and the version slot's key. Free: log entry 49. -/
opaque restoredBound : Digest → Nat → Nat

/-- N_g of a slow gradient whose step came before a restore, by the slot's body digest and the step: no field of a slot holds
it (Table 7.7). Free: log entry 49. -/
opaque restoredNorm : Digest → Nat → W32

/-- The fallback scale's exponent where a layer's largest master is not finite: no exponent meets R106 there. Free: log entry
29. -/
opaque nonfiniteExponent : Nat

/-- The fallback scale's exponent after a restore of a layer that is not narrow and whose shards this package does not all own,
by the slot's body digest and the master: the scale table has no row for it (Table 7.7). Free: log entry 29. -/
opaque restoredExponent : Digest → Nat → Nat

/-- The index, in its level, of the tree node that a flit of a REDUCE stream into an RBT range carries, by the image's digest, the
package's herd index, the stream and the SEQ: no field of an image gives it (R280, R289). Free: log entry 28. -/
opaque nodeIndex : Digest → (herd stream seq : Nat) → Nat

/-- The master of a ladder record's layer, by the manifest: its tensor entries give a working copy its ladder record and a
master its recipe, and no table pairs the two. Free: log entry 29. -/
opaque ladderMaster : (manifest : List Byte) → (ladder : Nat) → Nat

/-- The DRAW field of the stochastic roundings that an update pass makes itself: R161 takes it from the conversion, and no
command or record gives it for UPDATE. Free: log entry 48. -/
opaque updateDraw : Nat

/-- The coefficient, in mW for one event in a beat, that each die is fused with for an activity count of the estimator: part 0 links, 1
memory, 2 compute (R402). Free: log entry 9. -/
opaque activityMw : (part half event : Nat) → Nat

/-- What one rail adds to the estimator's static term, in mW, by part, half, voltage and temperature: R402 gives no formula. Free: log
entry 9. -/
opaque staticMw : (part half mv temp : Nat) → Nat

/-- Fused and flash constants of the package modelled. Log entry 4 (DESIGN CHOICE): grade, stepping and the
maximum frequency of every site. -/
def grade : Nat := 1
/-- Stepping identifier of the modelled package (MC_IDENT.STEPPING): log entry 4. -/
def stepping : Nat := 1
/-- Fused maximum frequency of every core site in MHz, the upper end of the fused range (log entry 4). -/
def fusedMax : Nat := 2050

end Sys2Proof.Config
end

