-- ==== Sys2Proof/Machine/JobTypes.lean ====
section
/-! DEFINITION. The data of an installed job (Chapter 13), as State keeps it. -/

namespace Sys2Proof.Machine

/-- A manifest tensor entry (Table 13.6). `fmt` is the format code. -/
structure Tensor where
  index  : Nat
  fmt    : Nat
  cls    : Nat
  kind   : Nat
  flags  : Nat
  rank   : Nat
  margin : Nat
  ns     : Nat
  stage  : Nat
  scale  : W32
  dims   : List Nat
  unused : List Nat := []           -- the dimensions beyond the rank
  status : Nat
  layer  : Nat
  deriving DecidableEq, Repr, Inhabited

/-- A manifest shard entry with its holder list (Table 13.7). -/
structure Shard where
  index   : Nat
  tensor  : Nat
  first   : Nat
  count   : Nat
  owner   : Nat
  holders : List Nat
  deriving DecidableEq, Repr, Inhabited

/-- A PLACEMENT entry: a held tensor part and its device address (Table 13.3). -/
structure Place where
  tensor : Nat
  first  : Nat
  addr   : Nat
  deriving DecidableEq, Repr, Inhabited

/-- A stream context (Tables 9.8, 13.8). -/
structure Stream where
  kind    : Nat
  flags   : Nat
  owner   : Nat
  dstHerd : Nat
  links   : Nat
  level   : Nat
  dst     : Nat
  dstAddr : Nat
  route   : List Nat
  deltas  : List Nat
  flits   : Nat
  wflits  : Nat
  deriving DecidableEq, Repr, Inhabited

/-- A slot-table run (Table 13.9). `ctx` is the stream context index, or 0x8000 plus the in-port for a forward run. -/
structure Run where
  port  : Nat
  recv  : Bool
  wide  : Bool
  ctx   : Nat
  first : Nat
  count : Nat
  seq   : Nat
  deriving DecidableEq, Repr, Inhabited

/-- A collective instance record (Table 13.3). -/
structure CollInst where
  id       : Nat
  kind     : Nat
  group    : Nat
  key      : Nat
  lastSend : Nat
  delivery : Nat
  deriving DecidableEq, Repr, Inhabited

/-- A ladder record (Table 13.3, R109 to R111). -/
structure Ladder where
  top     : Nat
  satThr  : Nat
  flushThr : Nat
  budget  : Nat
  wBudget : Nat
  deriving DecidableEq, Repr, Inhabited

/-- A dropout site (Table 13.3, R168). -/
structure DropSite where
  index : Nat
  draw  : Nat
  t     : Nat
  c     : W32
  shape : Nat
  deriving DecidableEq, Repr, Inhabited

/-- An INPUTS entry (Table 13.3). -/
structure InputDecl where
  nIn      : Nat
  bytes    : Nat
  deadline : Nat
  base     : Nat
  deriving DecidableEq, Repr, Inhabited

/-- The resource declaration (Table 13.5). -/
structure Resource where
  cores    : Nat
  streams  : Nat
  sram     : Nat
  acc      : Nat
  runs     : Nat
  hbm      : List Nat
  ddr      : List Nat
  cmdAddr  : Nat
  cmdLen   : Nat
  engines  : Nat
  deriving DecidableEq, Repr, Inhabited

/-- A REDUCE_RANGES entry (Table 13.15). -/
structure RedRange where
  tensor : Nat
  top    : Nat
  first  : Nat
  count  : Nat
  lmap   : Nat
  deriving DecidableEq, Repr, Inhabited

/-- A PROGRAM section that the program map names: its ID, its place in the command area, its bytes and what the device
reads from them. -/
structure Prog where
  id       : Nat
  base     : Nat
  bytes    : List Byte
  info     : Config.ProgInfo
  deriving DecidableEq, Repr, Inhabited

/-- The JOB section (Table 13.4). -/
structure JobHdr where
  herd      : Nat
  replicas  : Nat
  freq      : Nat
  flags     : Nat
  subnormal : Nat
  delayD    : Nat
  depth     : Nat
  ns        : Nat
  diameter  : Nat
  lambdaMax : Nat
  snapEvery : Nat
  tauC      : W32
  tauA      : W32
  stepLen   : Nat
  statusDel : Nat
  eN        : Nat
  eW        : Nat
  lW        : Nat
  updates   : List Nat
  deriving DecidableEq, Repr, Inhabited

/-- A recipe record as stored, with its length known from its header (Table 8.6). -/
abbrev RecipeBytes := List Byte

/-- An installed job: everything of the image this package reads, decoded. -/
structure Job where
  digest   : Digest
  herdIdx  : Nat
  hdr      : JobHdr
  tensors  : List Tensor
  shards   : List Shard
  places   : List Place
  recipes  : List RecipeBytes
  ladders  : List Ladder
  dropKey  : BitVec 128
  srKey    : BitVec 128
  userKey  : BitVec 128
  sites    : List DropSite
  inputs   : List InputDecl
  res      : Resource
  streams  : List Stream
  runs     : List Run
  colls    : List CollInst
  progMap  : List (Nat × Nat)
  ranges   : List RedRange
  progs    : List Prog
  inits    : List (Nat × List Byte)
  masks    : List (Nat × Config.TrainMask)
  ladderOf : List Nat               -- the master of each ladder record's layer
  deriving DecidableEq, Repr, Inhabited

end Sys2Proof.Machine
end

