-- ==== Sys2Proof/Machine/Dot.lean ====
section
/-! DEFINITION. Accumulation (chapter "Dot Products and Accumulators", R64 to R90): pair classes, the element of R69
with its non-finite and overflow rules, strict mode, the sums of R229 and the repair charges of Table 4.5. Operand
values are T32 patterns: every operand value is exact in binary32 (R67, R89). -/

namespace Sys2Proof.Machine
open Sys2Proof

/-! ### Pair classes (R64, R65, Tables 3.1 and 3.4) -/

inductive DotClass where
  | c8 | t16 | narrowBlock | narrow | strict
  deriving DecidableEq, Repr

def is8 (f : Fmt) : Bool := f == .i8 || f == .t8f || f == .t8g
def isNarrow (f : Fmt) : Bool := f == .w2 || f == .w1

/-- The class of a format pair; none where Table 3.1 has no row for it. -/
def pairClass (strict : Bool) (fa fb : Fmt) : Option DotClass :=
  if strict then
    if (is8 fa || fa == .t16 || fa == .t32) && (is8 fb || fb == .t16 || fb == .t32 || isNarrow fb) then some .strict
    else none
  else if is8 fa && is8 fb then some .c8
  else if fa == .t16 && (is8 fb || fb == .t16 || isNarrow fb) then some .t16
  else if is8 fa && fb == .t16 then some .t16
  else if fa == .i8 && isNarrow fb then some .narrowBlock
  else if (fa == .t8f || fa == .t8g) && isNarrow fb then some .narrow
  else none

/-- Chunk length L; 1 for strict groups under R81 (R90). -/
def chunkLen (c : DotClass) (fb : Fmt) : Nat :=
  match c with
  | .narrowBlock => codesPerLine fb
  | .strict => 1
  | _ => 32

/-- Tile width N_c. -/
def tileWidth : DotClass → Nat
  | .narrow => 128
  | .narrowBlock => 128
  | _ => 32

/-- The largest M of Table 3.4. -/
def maxRows (c : DotClass) (a32c : Bool) : Nat := 128 * 1024 / (tileWidth c * (if a32c then 8 else 4))

/-! ### One element (R69, R71, R73, R84) -/

/-- The running main and err of an element, and whether a rounding of R84 has overflowed. -/
structure ElemRun where
  m   : W32
  e   : W32
  ovf : Bool
  deriving DecidableEq, Repr

def fin32 (w : W32) : Bool := xIsFinite (valT32 w)

/-- The exact chunk sum, with the non-finite cases of R73. -/
def chunkSum (ps : List (W32 × W32)) : Xv := ps.foldl (fun c p => xAdd c (xMul (valT32 p.1) (valT32 p.2))) xZero

/-- The exact two-sum of a renormalization (R71). -/
def renorm (r : ElemRun) : ElemRun :=
  let x := xAdd (valT32 r.m) (valT32 r.e)
  let t := rne32z x
  { m := t, e := rne32z (xSub x (valT32 t)), ovf := r.ovf || overflows32 x }

/-- One chunk: its sum rounded at prescale `kp`, then added in A32C (`c`) or A32. -/
def addChunk (c : Bool) (kp : Nat) (r : ElemRun) (x : Xv) : ElemRun :=
  let y := xMul x (xPow2 (-(kp : Int)))
  let cs := rne32z y
  if !fin32 r.m then { r with m := rne32z (xAdd (valT32 r.m) (valT32 cs)), e := 0 }
  else if !xIsFinite x then { r with m := cs, e := 0 }
  else
    let z := xAdd (valT32 r.m) (valT32 cs)
    let t := rne32z z
    let bad := r.ovf || overflows32 y || overflows32 z
    if c then
      let w := xAdd (valT32 r.e) (xSub z (valT32 t))
      { m := t, e := rne32z w, ovf := bad || overflows32 w }
    else { m := t, e := 0, ovf := bad }

/-- Every chunk in turn; `n` chunks have been added before. -/
def addChunks (c : Bool) (kp : Nat) : Nat → ElemRun → List (List (W32 × W32)) → ElemRun
  | _, r, [] => r
  | n, r, ps :: t =>
    let r := addChunk c kp r (chunkSum ps)
    let r := if c && (n + 1) % 65536 == 0 && fin32 r.m then renorm r else r
    addChunks c kp (n + 1) r t

/-- s_eff of R69. -/
def sEff (s : W32) (kp : Nat) : Xv := xMul (valT32 s) (xPow2 kp)

/-- The preload split. -/
def preloadElem (c : Bool) (s : W32) (kp : Nat) (p : Xv) : ElemRun :=
  let pa := xDiv p (sEff s kp)
  let m := rne32z pa
  if !xIsFinite p then { m, e := 0, ovf := false }
  else if c then
    let d := xSub pa (valT32 m)
    { m, e := rne32z d, ovf := overflows32 pa || overflows32 d }
  else { m, e := 0, ovf := overflows32 pa }

/-- tile_element of R69 up to the final rounding: operand values in increasing K. -/
def elemRun (c : Bool) (L kp : Nat) (s : W32) (p : Xv) (as bs : List W32) : ElemRun :=
  let ps := as.zip bs
  addChunks c kp 0 (preloadElem c s kp p) (chunksOf L ps.length ps)

/-- The final rounding of R69 (R73 for a non-finite main). -/
def elemOut (s : W32) (kp : Nat) (e : AccElem) : W32 :=
  if !fin32 e.1 then rne32z (valT32 e.1) else rne32z (xMul (xAdd (valT32 e.1) (valT32 e.2)) (sEff s kp))

/-! ### Strict mode (R89) -/

/-- The fused multiply-adds of a K range on an accumulator; zeros keep their IEEE 754 signs. -/
def strictFrom (acc : W32) (as bs : List W32) : W32 :=
  (as.zip bs).foldl (fun acc q => rne32s (xAdd (xMul (valT32 q.1) (valT32 q.2)) (valT32 acc))) acc

/-- The accumulator after the K range; a preload of −0 loads +0 (R80, R90). -/
def strictAcc (s : W32) (p : Xv) (zero : Bool) (as bs : List W32) : W32 :=
  strictFrom (if zero || xIsZero p then 0 else rne32s (xDiv p (valT32 s))) as bs

def strictOut (s acc : W32) : W32 := rne32s (xMul (valT32 acc) (valT32 s))

/-! ### Sums of R229 and R211 -/

/-- Exact chunk sums in turn, in A32C at prescale 0, renormalized like `addChunks`. -/
def addSums : Nat → ElemRun → List Xv → ElemRun
  | _, r, [] => r
  | n, r, x :: t =>
    let r := addChunk true 0 r x
    addSums (n + 1) (if (n + 1) % 65536 == 0 && fin32 r.m then renorm r else r) t

/-- R69 over exact products in chunks of 32, A32C, scale 1, preload zero; +∞ where a rounding overflows. -/
def sum69 (ps : List Xv) : W32 :=
  let r := addSums 0 (preloadElem true t32One 0 xZero) ((chunksOf 32 ps.length ps).map (fun c => c.foldl xAdd xZero))
  if r.ovf || overflows32 (xAdd (valT32 r.m) (valT32 r.e)) then 0x7F80_0000#32 else elemOut t32One 0 (r.m, r.e)

/-- SUM of values, SUMSQ of values (R229). -/
def sumOf (xs : List W32) : W32 := sum69 (xs.map valT32)
def sumSq (xs : List W32) : W32 := sum69 (xs.map (fun x => xMul (valT32 x) (valT32 x)))

/-- MAXABS: +0 for an empty set, canonical NaN if any value is a NaN (R228, R229). -/
def maxAbs (xs : List W32) : W32 :=
  xs.foldl (fun m x =>
    if xIsNan (valT32 m) || xIsNan (valT32 x) then 0x7FC0_0000#32
    else if m.toNat < (x &&& 0x7FFF_FFFF#32).toNat then x &&& 0x7FFF_FFFF#32 else m) 0

/-! ### Repair charges (Table 4.5) -/

/-- The charge of one pass of an M × N tile over K in a class; `master` at rungs 3 and 4. Table 4.5 has no strict row:
a strict group never repeats. -/
def repairCost (c : DotClass) (m n k : Nat) (master : Bool) : Nat :=
  let q := ceilDiv k 32
  (match c with
    | .narrow => m * q + 32 * q
    | .narrowBlock => m * q + 32 * q
    | .c8 => ceilDiv n 32 * (m * q + 32 * q)
    | .t16 => ceilDiv n 32 * (2 * m * q + 32 * q)
    | .strict => 0) + (if master then ceilDiv (k * n) 64 else 0)

end Sys2Proof.Machine
end

