-- ==== Sys2Proof/Machine/Map.lean ====
section
/-! DEFINITION. Sparse maps from addresses to values in one canonical form: keys strictly rising, no entry equal to
the value an unlisted key reads as. Device memory, the register space, the core windows' hidden state and the data
SRAM are such maps. -/

namespace Sys2Proof.Machine

/-- Read key `k`; `d` gives what an unlisted key reads as. -/
def mapGet {α : Type} (d : Nat → α) : List (Nat × α) → Nat → α
  | [], k => d k
  | (a, v) :: t, k => if a = k then v else mapGet d t k

/-- Write `v` at key `k`, keeping the canonical form: a value equal to the unlisted one removes the entry. -/
def mapSet {α : Type} [DecidableEq α] (d : Nat → α) : List (Nat × α) → Nat → α → List (Nat × α)
  | [], k, v => if v = d k then [] else [(k, v)]
  | (a, w) :: t, k, v =>
    if a < k then (a, w) :: mapSet d t k v
    else if a = k then (if v = d k then t else (k, v) :: t)
    else (if v = d k then (a, w) :: t else (k, v) :: (a, w) :: t)

/-- The canonical form of a map. -/
abbrev mapWf {α : Type} [DecidableEq α] (d : Nat → α) (m : List (Nat × α)) : Prop :=
  List.Pairwise (fun p q => p.1 < q.1) m ∧ ∀ p ∈ m, p.2 ≠ d p.1

/-- Drop every entry whose key satisfies `p`: those keys then read as unlisted ones do. -/
def mapDrop {α : Type} (p : Nat → Bool) (m : List (Nat × α)) : List (Nat × α) :=
  m.filter (fun e => !p e.1)

/-- Write a run of values at consecutive keys from `k`. -/
def mapSetRun {α : Type} [DecidableEq α] (d : Nat → α) (m : List (Nat × α)) (k : Nat) : List α → List (Nat × α)
  | [] => m
  | v :: t => mapSetRun d (mapSet d m k v) (k + 1) t

/-- Read `n` values at consecutive keys from `k`. -/
def mapGetRun {α : Type} (d : Nat → α) (m : List (Nat × α)) (k n : Nat) : List α :=
  (List.range n).map (fun i => mapGet d m (k + i))

/-! ### Short association lists -/

/-- Set an association: the key's old entry is dropped, the new one comes last. -/
def setAssoc {α : Type} (l : List (Nat × α)) (k : Nat) (v : α) : List (Nat × α) := (l.filter (fun e => e.1 != k)) ++ [(k, v)]
/-- The value of a key. -/
def getAssoc {α : Type} (l : List (Nat × α)) (k : Nat) : Option α := (l.find? (fun e => e.1 == k)).map (·.2)

/-- Insert by key, after entries with the same key. -/
def insKey {α : Type} (p : Nat × α) : List (Nat × α) → List (Nat × α)
  | [] => [p]
  | q :: t => if p.1 < q.1 then p :: q :: t else q :: insKey p t

def sortKeys {α : Type} (l : List (Nat × α)) : List (Nat × α) := l.foldl (fun acc p => insKey p acc) []

end Sys2Proof.Machine
end

