-- ==== Sys2Proof/Machine/Recipe.lean ====
section
/-! DEFINITION. Recipes: the record of Table 8.6, the admission checks of R226, the operations of Table 8.9 with their
special values (R227, R228) and one run of a recipe over staged elements (R217, R225, R229 to R231). -/

namespace Sys2Proof.Machine
open Sys2Proof

/-! ### Records (R223, R224) -/

/-- One operation (Table 8.7). -/
structure ROp where
  op  : Nat
  dst : Nat
  a   : Nat
  b   : Nat
  c   : Nat
  x   : Nat
  deriving DecidableEq, Repr

/-- A decoded recipe record (Table 8.6). `bind` holds the in and out slots of GRAD, MASTER, M1, M2, EMA. -/
structure Recipe where
  len    : Nat
  index  : Nat
  nOps   : Nat
  slots  : Nat
  nConst : Nat
  nPts   : Nat
  nQ     : Nat
  flags  : Nat
  bind   : List Nat
  q      : List W32
  k      : List W32
  pts    : List (Nat × W32)
  ops    : List ROp
  deriving DecidableEq, Repr

def w32At (bs : List Byte) (o : Nat) : W32 := BitVec.ofNat 32 (fieldLe bs o 4)

def recipeOf (bs : List Byte) : Recipe :=
  let f (o : Nat) := fieldLe bs o 1
  { len := fieldLe bs 0 2, index := fieldLe bs 2 2, nOps := f 4, slots := f 5, nConst := f 6, nPts := f 7, nQ := f 8
    flags := f 9, bind := (List.range 10).map (fun i => f (10 + i))
    q := (List.range 16).map (fun i => w32At bs (0x20 + 4 * i))
    k := (List.range 32).map (fun i => w32At bs (0x60 + 4 * i))
    pts := (List.range (f 7)).map (fun i => (fieldLe bs (0xE0 + 8 * i) 4, w32At bs (0xE4 + 8 * i)))
    ops := (List.range (f 4)).map (fun i =>
      let g (j : Nat) := f (0x160 + 8 * i + j)
      { op := g 0, dst := g 1, a := g 2, b := g 3, c := g 4, x := g 5 }) }

/-- In-slot and out-slot of a binding: 0 GRAD, 1 MASTER, 2 M1, 3 M2, 4 EMA; 0xFF none. -/
def Recipe.inSlot (r : Recipe) (i : Nat) : Nat := r.bind.getD (2 * i) 0xFF
def Recipe.outSlot (r : Recipe) (i : Nat) : Nat := r.bind.getD (2 * i + 1) 0xFF
def Recipe.binds (r : Recipe) (i : Nat) : Bool := r.inSlot i != 0xFF

/-! ### Operations (R227, R228, Table 8.9) -/

def canon (w : W32) : W32 := if xIsNan (valT32 w) then 0x7FC0_0000#32 else w

def absW (w : W32) : W32 := w &&& 0x7FFF_FFFF#32

/-- The larger of two; of two zeros, +0 unless both are −0. -/
def maxW (a b : W32) : W32 :=
  if xIsNan (valT32 a) || xIsNan (valT32 b) then 0x7FC0_0000#32
  else if xIsZero (valT32 a) && xIsZero (valT32 b) then a &&& b
  else if xLt (valT32 a) (valT32 b) then b else a

def minW (a b : W32) : W32 :=
  if xIsNan (valT32 a) || xIsNan (valT32 b) then 0x7FC0_0000#32
  else if xIsZero (valT32 a) && xIsZero (valT32 b) then a ||| b
  else if xLt (valT32 b) (valT32 a) then b else a

/-- The two's complement exponent of SCALE2. -/
def signed8 (x : Nat) : Int := if x % 256 < 128 then (x % 256 : Nat) else (x % 256 : Nat) - 256

/-- An element-wise operation 0x01 to 0x13 on T32 values. -/
def vecOp (op : Nat) (e : Int) (wa wb wc : W32) : W32 :=
  let a := valT32 wa
  let b := valT32 wb
  let c := valT32 wc
  if op = 0x01 then canon wa
  else if op = 0x02 then rne32s (xAdd a b)
  else if op = 0x03 then rne32s (xSub a b)
  else if op = 0x04 then rne32s (xMul a b)
  else if op = 0x05 then rne32s (xAdd (xMul a b) c)
  else if op = 0x06 then rne32s (xSub c (xMul a b))
  else if op = 0x07 then rne32s (xDiv a b)
  else if op = 0x08 then sqrt32 a
  else if op = 0x09 then rne32s (xDiv (xOfNat 1) (xAdd (valT32 (sqrt32 a)) b))
  else if op = 0x0A then rne32s (xAdd a (xMul c (xSub b a)))
  else if op = 0x0B then rne32s (xAdd a (xMul c (xSub (xMul b b) a)))
  else if op = 0x0C then maxW wa wb
  else if op = 0x0D then minW wa wb
  else if op = 0x0E then (if xIsNan a then 0x7FC0_0000#32 else absW wa)
  else if op = 0x0F then rne32s (xNeg a)
  else if op = 0x10 then (if xIsNan a then 0x7FC0_0000#32 else absW wa ||| (wb &&& 0x8000_0000#32))
  else if op = 0x11 then
    (if xIsNan a || xIsNan b || xIsNan c then 0x7FC0_0000#32
     else if xLt c b then wc else minW (maxW wa wb) wc)
  else if op = 0x12 then rne32s (xMul a (xPow2 e))
  else rne32s (xAdd a (xMul (xSub (xOfNat 1) c) (xSub b a)))

/-- Operands an operation reads: 0 for an undefined opcode. -/
def opArity (op : Nat) : Nat :=
  if op = 0x05 ∨ op = 0x06 ∨ op = 0x0A ∨ op = 0x0B ∨ op = 0x11 ∨ op = 0x13 then 3
  else if op = 0x02 ∨ op = 0x03 ∨ op = 0x04 ∨ op = 0x07 ∨ op = 0x09 ∨ op = 0x0C ∨ op = 0x0D ∨ op = 0x10 then 2
  else if op = 0x01 ∨ op = 0x08 ∨ op = 0x0E ∨ op = 0x0F ∨ op = 0x12 ∨ op = 0x14 then 1
  else if 0x20 ≤ op ∧ op ≤ 0x22 then 1 else 0

def isReduction (op : Nat) : Bool := decide (0x20 ≤ op) && decide (op ≤ 0x22)

/-- SCHED (R231): the schedule value at x = UPD_INDEX. -/
def schedValue (pts : List (Nat × W32)) (x : W32) : W32 :=
  let xv := valT32 x
  match pts, pts.getLast? with
  | p :: _, some l =>
    if xLe xv (xOfNat p.1) then p.2
    else if xLe (xOfNat l.1) xv then l.2
    else
      match (pts.zip (pts.drop 1)).find? (fun q => xLe (xOfNat q.1.1) xv && xLt xv (xOfNat q.2.1)) with
      | some (u, v) =>
        rne32s (xAdd (valT32 u.2) (xDiv (xMul (xSub (valT32 v.2) (valT32 u.2)) (xSub xv (xOfNat u.1)))
          (xSub (xOfNat v.1) (xOfNat u.1))))
      | none => l.2
  | _, _ => 0

/-! ### Operand codes (Table 8.8) and the checks of R226 -/

inductive RKind where
  | elem | scalar | row | col | bad
  deriving DecidableEq, Repr

/-- Kind of an operand code; `bad` for an undefined one. -/
def Recipe.kindOf (r : Recipe) (c : Nat) : RKind :=
  if c < 0x10 then (if c < r.slots then .elem else .bad)
  else if 0x40 ≤ c ∧ c < 0x60 then (if c - 0x40 < r.nConst then .scalar else .bad)
  else if 0x60 ≤ c ∧ c < 0x70 then (if c - 0x60 < r.nQ then .scalar else .bad)
  else if 0x70 ≤ c ∧ c ≤ 0x82 then .scalar
  else if 0xA0 ≤ c ∧ c ≤ 0xA3 then .row
  else if c = 0xB0 ∨ c = 0xB1 then .col else .bad

/-- Source codes an operation reads. -/
def ROp.srcs (o : ROp) : List Nat := [o.a, o.b, o.c].take (opArity o.op)

/-- Opcode, kinds and writable destination of one operation (R225, first two items of R226). -/
def Recipe.opOk (r : Recipe) (o : ROp) : Bool :=
  let d := r.kindOf o.dst
  let ks := o.srcs.map r.kindOf
  if opArity o.op = 0 ∨ ks.contains .bad then false
  else if o.op = 0x22 then d == .scalar && decide (0x60 ≤ o.dst) && decide (o.dst < 0x80) && ks == [.elem] && decide (o.x < 3)
  else if o.op = 0x20 then d == .row && ks == [.elem] && decide (o.x < 3)
  else if o.op = 0x21 then d == .col && ks == [.elem] && decide (o.x < 3)
  else if o.op = 0x14 then
    (d == .elem || (d == .scalar && decide (0x60 ≤ o.dst) && decide (o.dst < 0x80))) && ks == [.scalar] && 0 < r.nPts
  else if d == .elem then true
  else d == .scalar && decide (0x60 ≤ o.dst) && decide (o.dst < 0x80) && ks.all (· == .scalar)

/-- A value that must be written or bound before it is read: element slots, row and column registers. -/
def needsWrite (c : Nat) : Bool := decide (c < 0x10) || decide (0xA0 ≤ c)

/-- In-slots bound at the start. -/
def Recipe.bound (r : Recipe) : List Nat := ((List.range 5).map r.inSlot).filter (· != 0xFF)
def Recipe.outs (r : Recipe) : List Nat := ((List.range 4).map (fun i => r.outSlot (i + 1))).filter (· != 0xFF)

/-- Every read is of something bound or written before; the out-slots are read last. -/
def Recipe.readsOk (r : Recipe) : Bool :=
  let go := r.ops.foldl (fun (st : Bool × List Nat) o =>
    (st.1 && o.srcs.all (fun c => !needsWrite c || st.2.contains c), o.dst :: st.2)) (true, r.bound)
  go.1 && r.outs.all go.2.contains

/-- Reduction rounds used: a reduction that reads a slot written since the round's first reduction starts another. -/
def Recipe.rounds (r : Recipe) : Nat :=
  (r.ops.foldl (fun (st : Nat × List Nat) o =>
    if isReduction o.op then
      if st.1 = 0 ∨ st.2.contains o.a then (st.1 + 1, [o.dst]) else (st.1, o.dst :: st.2)
    else (st.1, o.dst :: st.2)) (0, [])).1

/-- EMA operations stand where R226 places them, and nothing else writes the EMA out-slot. -/
def Recipe.emaOk (r : Recipe) (depth : Nat) : Bool :=
  let mo := r.outSlot 1
  let eo := r.outSlot 4
  let n := r.ops.length
  (List.range n).all (fun i =>
    match r.ops[i]? with
    | none => true
    | some o =>
      if o.op = 0x13 then
        r.binds 4 && o.a == r.inSlot 4 && o.b == mo && r.kindOf o.c == .scalar && o.dst == eo && decide (depth ≤ 1)
          && !(r.ops.drop (i + 1)).any (fun p => p.dst == mo)
      else eo == 0xFF || o.dst != eo)

/-- RSQRT_EPS names a positive, finite, normal constant. -/
def Recipe.epsOk (r : Recipe) : Bool :=
  r.ops.all (fun o => o.op != 0x09 || (decide (0x40 ≤ o.b) && decide (o.b < 0x60) && scaleOk (r.k.getD (o.b - 0x40) 0)))

def Recipe.schedOk (r : Recipe) : Bool :=
  r.pts.all (fun p => fin32 p.2) && (r.pts.zip (r.pts.drop 1)).all (fun q => decide (q.1.1 < q.2.1))

/-- R226 apart from the binding formats. -/
def Recipe.admitted (r : Recipe) (depth : Nat) : Bool :=
  r.ops.all r.opOk && r.readsOk && r.outSlot 1 != 0xFF
    && (List.range 2).all (fun i => (r.inSlot (i + 2) == 0xFF) == (r.outSlot (i + 2) == 0xFF))
    && r.emaOk depth && r.epsOk && r.schedOk && decide (r.rounds ≤ 2)

/-- LRED and CRED operations of a recipe, in program order. -/
def Recipe.layerOps (r : Recipe) : List ROp := r.ops.filter (fun o => o.op == 0x21 || o.op == 0x22)

def Recipe.layerReds (r : Recipe) : Nat := r.layerOps.length

def Recipe.hasRed (r : Recipe) (op : Nat) : Bool := r.ops.any (fun o => o.op == op)
/-- Row registers a recipe writes. -/
def Recipe.rowRegs (r : Recipe) : Nat := ((r.ops.filter (fun o => o.op == 0x20)).map (·.dst)).eraseDups.length

/-! ### Running a recipe (R217, R225, R229, R230) -/

def assocGet {α : Type} (d : α) (l : List (Nat × α)) (k : Nat) : α := (getAssoc l k).getD d

/-- One reduction of R229. -/
def reduceKind (k : Nat) (xs : List W32) : W32 := if k = 0 then sumOf xs else if k = 1 then sumSq xs else maxAbs xs

/-- Combine the units' values of one reduction (R230): MAXABS by maximum, sums by the compensated fold of R293 in
increasing order of unit. -/
def joinUnits (add : AccElem → AccElem → AccElem) (k : Nat) (parts : List (Nat × List W32)) : List W32 :=
  let ps := sortKeys parts
  (List.range (ps.foldl (fun n p => max n p.2.length) 0)).map (fun i =>
    let xs := ps.map (fun q => q.2.getD i 0)
    if k = 2 then maxAbs xs
    else
      let r := xs.foldl (fun acc x => add acc (x, 0)) ((0 : W32), (0 : W32))
      rne32s (xAdd (valT32 r.1) (valT32 r.2)))

/-- What a recipe is run on: how an element-wise operation, SCHED, a reduction over elements and the joining of units act. -/
structure RAlg where
  vec   : Nat → Int → W32 → W32 → W32 → W32
  sched : List (Nat × W32) → W32 → W32
  red   : Nat → List W32 → W32
  join  : Nat → List (Nat × List W32) → List W32

/-- The values; `add` is the compensated add of R278. -/
def valueAlg (add : AccElem → AccElem → AccElem) : RAlg :=
  { vec := vecOp, sched := schedValue, red := reduceKind, join := joinUnits add }

/-- Whether a value rests on a non-finite input: 1 if so (R218). -/
def taintAlg : RAlg :=
  let any (ws : List W32) : W32 := if ws.any (· != 0) then 1 else 0
  { vec := fun op _ a b c => any ([a, b, c].take (opArity op)), sched := fun _ _ => 0, red := fun _ => any
    join := fun _ ps => (List.range (ps.foldl (fun n p => max n p.2.length) 0)).map (fun i =>
      any (ps.map (fun p => p.2.getD i 0))) }

/-- One command's part of a pass: elements, first canonical index, row length, which are trained, the unit of R211 (from `unit` on one
for every `unitLen` canonical elements where that is not 0), element slots and row registers. -/
structure RPart where
  n       : Nat
  first   : Nat
  rl      : Nat
  keep    : List Bool
  unit    : Nat
  unitLen : Nat
  el      : List (Nat × List W32)
  rows    : List (Nat × List W32)

def RPart.unitOf (p : RPart) (i : Nat) : Nat := if p.unitLen = 0 then p.unit else p.unit + (p.first + i) / p.unitLen

/-- Trained elements of a slot at positions that satisfy `f`. -/
def RPart.pick (p : RPart) (slot : Nat) (f : Nat → Bool) : List W32 :=
  let xs := assocGet [] p.el slot
  (List.range p.n).filterMap (fun i => if f i && p.keep.getD i true then some (xs.getD i 0) else none)

/-- A pass of a layer on one package: its parts in increasing manifest and canonical index, and the registers they share. -/
structure REnv where
  parts : List RPart
  sc    : List (Nat × W32)
  cols  : List (Nat × List W32)

/-- The value operand `c` has at element `i` of a part. -/
def REnv.at (v : REnv) (p : RPart) (c i : Nat) : W32 :=
  if c < 0x10 then (assocGet [] p.el c).getD i 0
  else if 0xA0 ≤ c ∧ c < 0xB0 then (assocGet [] p.rows c).getD ((p.first + i) / p.rl - p.first / p.rl) 0
  else if 0xB0 ≤ c ∧ c < 0xC0 then (assocGet [] v.cols c).getD ((p.first + i) % p.rl) 0
  else assocGet 0 v.sc c

/-- The units that this package's elements lie in. -/
def REnv.units (v : REnv) : List Nat := (v.parts.flatMap (fun p => (List.range p.n).map p.unitOf)).eraseDups

/-- The values of LRED or CRED over each unit here (R230). -/
def REnv.partials (g : RAlg) (v : REnv) (o : ROp) : List (Nat × List W32) :=
  let total (f : RPart → Nat → Bool) : W32 := g.red o.x (v.parts.flatMap (fun p => p.pick o.a (f p)))
  v.units.map (fun u => (u,
    if o.op = 0x21 then
      (List.range ((v.parts.head?.map (·.rl)).getD 0)).map (fun c =>
        total (fun p i => p.unitOf i == u && (p.first + i) % p.rl == c))
    else [total (fun p i => p.unitOf i == u)]))

/-- LRED or CRED takes the joined value. -/
def REnv.joined (g : RAlg) (v : REnv) (o : ROp) (units : List (Nat × List W32)) : REnv :=
  let xs := g.join o.x units
  if o.op = 0x21 then { v with cols := setAssoc v.cols o.dst xs } else { v with sc := setAssoc v.sc o.dst (xs.headD 0) }

/-- Any other operation; SCHED reads UPD_INDEX, whatever scalar source A names (R231). -/
def REnv.step (g : RAlg) (pts : List (Nat × W32)) (v : REnv) (o : ROp) : REnv :=
  let f (p : RPart) (i : Nat) : W32 :=
    if o.op = 0x14 then g.sched pts (assocGet 0 v.sc 0x82)
    else g.vec o.op (signed8 o.x) (v.at p o.a i) (v.at p o.b i) (v.at p o.c i)
  if o.op = 0x20 then
    let sums (p : RPart) : List W32 := (List.range (ceilDiv (p.first % p.rl + p.n) p.rl)).map (fun r =>
      g.red o.x (p.pick o.a (fun i => (p.first + i) / p.rl - p.first / p.rl == r)))
    { v with parts := v.parts.map (fun p => { p with rows := setAssoc p.rows o.dst (sums p) }) }
  else if o.dst < 0x10 then
    { v with parts := v.parts.map (fun p => { p with el := setAssoc p.el o.dst ((List.range p.n).map (f p)) }) }
  else match v.parts with
    | p :: _ => { v with sc := setAssoc v.sc o.dst (f p 0) }
    | [] => v

/-- How a run ends: with its results, or at layer reduction `k`, whose other units have not come. -/
inductive RunEnd where
  | done (v : REnv)
  | waits (k : Nat) (mine : List (Nat × List W32))

/-- Run operations in program order; `gather k mine` gives the values of every unit of layer reduction `k`, once they are
here. -/
def REnv.run (g : RAlg) (pts : List (Nat × W32)) (gather : Nat → List (Nat × List W32) → Option (List (Nat × List W32))) :
    Nat → REnv → List ROp → RunEnd
  | _, v, [] => .done v
  | k, v, o :: rest =>
    if o.op = 0x21 ∨ o.op = 0x22 then
      let mine := v.partials g o
      match gather k mine with
      | some all => (v.joined g o all).run g pts gather (k + 1) rest
      | none => .waits k mine
    else (v.step g pts o).run g pts gather k rest

end Sys2Proof.Machine
end

