-- ==== Sys2Proof/Machine/Codes.lean ====
section
/-! DEFINITION. The reason codes of Table 16.4. -/

namespace Sys2Proof.Machine

def cCmdIllegal : Nat := 0x0101
def cCmdBadOperand : Nat := 0x0102
def cSegMismatch : Nat := 0x0103
def cShapeMismatch : Nat := 0x0201
def cFormatMismatch : Nat := 0x0202
def cGroupNotOpen : Nat := 0x0203
def cKOrder : Nat := 0x0204
def cGroupLimit : Nat := 0x0205
def cEngineAbsent : Nat := 0x0301
def cResourceExceeded : Nat := 0x0302
def cFreqBelow : Nat := 0x0303
def cImemActiveWrite : Nat := 0x0304
def cJobFormat : Nat := 0x0305
def cJobStepping : Nat := 0x0306
def cJobDecl : Nat := 0x0307
def cJobBusy : Nat := 0x0308
def cMemUncorrectable : Nat := 0x0401
def cMemRange : Nat := 0x0402
def cMemTier : Nat := 0x0403
def cDdrConfig : Nat := 0x0404
def cSlotMissed : Nat := 0x0501
def cRetryExhausted : Nat := 0x0502
def cHeelTimeout : Nat := 0x0503
def cRetryOverrun : Nat := 0x0504
def cPacktimeSkew : Nat := 0x0505
def cStretchConflict : Nat := 0x0506
def cStopReceived : Nat := 0x0601
def cLinkDown : Nat := 0x0602
def cPeerMismatch : Nat := 0x0603
def cLatencyExceeded : Nat := 0x0604
def cRouteInvalid : Nat := 0x0605
def cWeightDivergence : Nat := 0x0701
def cReduceOrder : Nat := 0x0702
def cReduceDecl : Nat := 0x0703
def cElectricalTrip : Nat := 0x0801
def cThermalTrip : Nat := 0x0802
def cCapUnreachable : Nat := 0x0803
def cMarginLost : Nat := 0x0804
def cSignatureFail : Nat := 0x0901
def cRollback : Nat := 0x0902
def cBreakCount : Nat := 0x0A01
def cBreakTag : Nat := 0x0A02
def cRunToCount : Nat := 0x0A03
def cCtxCorrupt : Nat := 0x0A04
def cCtxMismatch : Nat := 0x0A05
def cLeaderConflict : Nat := 0x0B01
def cGradeShortfall : Nat := 0x0B02
def cBcastFailed : Nat := 0x0B03
def cSpanDegraded : Nat := 0x0B04
def cMapInvalid : Nat := 0x0B05
def cHostStop : Nat := 0x0B06
def cHbmFail : Nat := 0x0B07
def cStepWidened : Nat := 0x0C01
def cPersistentWiden : Nat := 0x0C02
def cNotDrained : Nat := 0x0D01
def cSnapCorrupt : Nat := 0x0D02
def cSnapMismatch : Nat := 0x0D03
def cSnapLate : Nat := 0x0D04
def cStateDecl : Nat := 0x0D05
def cSkipNonfinite : Nat := 0x0E01
def cSkipNorm : Nat := 0x0E02
def cUpdNonfinite : Nat := 0x0E03
def cUpdDecl : Nat := 0x0E04
def cDescMalformed : Nat := 0x0F01
def cDescTimeout : Nat := 0x0F02
def cDescNoJob : Nat := 0x0F03
def cHostError : Nat := 0x0F04
def cWindowFault : Nat := 0x0F05
def cUnavailable : Nat := 0x0F06
def cInputLate : Nat := 0x0F07
def cCqOverrun : Nat := 0x0F08

/-- The complete list of reason codes (R425, Table 16.4). -/
def tableCodes : List Nat :=
  [ cCmdIllegal, cCmdBadOperand, cSegMismatch, cShapeMismatch, cFormatMismatch, cGroupNotOpen, cKOrder,
    cGroupLimit, cEngineAbsent, cResourceExceeded, cFreqBelow, cImemActiveWrite, cJobFormat, cJobStepping,
    cJobDecl, cJobBusy, cMemUncorrectable, cMemRange, cMemTier, cDdrConfig, cSlotMissed, cRetryExhausted,
    cHeelTimeout, cRetryOverrun, cPacktimeSkew, cStretchConflict, cStopReceived, cLinkDown, cPeerMismatch,
    cLatencyExceeded, cRouteInvalid, cWeightDivergence, cReduceOrder, cReduceDecl, cElectricalTrip, cThermalTrip,
    cCapUnreachable, cMarginLost, cSignatureFail, cRollback, cBreakCount, cBreakTag, cRunToCount, cCtxCorrupt,
    cCtxMismatch, cLeaderConflict, cGradeShortfall, cBcastFailed, cSpanDegraded, cMapInvalid, cHostStop, cHbmFail,
    cStepWidened, cPersistentWiden, cNotDrained, cSnapCorrupt, cSnapMismatch, cSnapLate, cStateDecl,
    cSkipNonfinite, cSkipNorm, cUpdNonfinite, cUpdDecl, cDescMalformed, cDescTimeout, cDescNoJob, cHostError,
    cWindowFault, cUnavailable, cInputLate, cCqOverrun ]

end Sys2Proof.Machine
end

