-- ==== Sys2Proof/Machine/RegMap.lean ====
section
/-! DEFINITION. The register map of Chapter 18: addresses, fields with their access codes (R13, R451) and reset
values (Tables 18.4 to 18.12). A register address of the MC_ block of MC-E is kept at its address plus 2^32. -/

namespace Sys2Proof.Machine
open Sys2Proof

/-- Access codes of R13. -/
inductive Acc where
  | ro | rw | w1c | wo | rwl | rc
  deriving DecidableEq, Repr

/-- A field: lowest bit, width, access code. -/
structure FieldDef where
  lo  : Nat
  w   : Nat
  acc : Acc
  deriving DecidableEq, Repr

/-- A named field of a register at a fixed address. -/
structure Fld where
  reg : Nat
  lo  : Nat
  w   : Nat
  deriving DecidableEq, Repr

/-- Register blocks of Table 18.1. -/
inductive Block where
  | mc | sec | pwr | bu | hl | pf | port | mem | core
  deriving DecidableEq, Repr

/-! ### Addresses -/

def mceBase : Nat := 0x1_0000_0000
def rMcIdent : Nat := 0x0000
def rMcPowerOn : Nat := 0x0008
def rMcLeadStat : Nat := 0x0100
def rMcLeadForce : Nat := 0x0108
def rSecBootStat : Nat := 0x1_0000
def rSecSerialLo : Nat := 0x1_0008
def rSecSerialHi : Nat := 0x1_0010
def rSecJobKey : Nat := 0x1_0018
def rSecNonce (i : Nat) : Nat := 0x1_0040 + 8 * i
def rSecOp : Nat := 0x1_0100
def rSecOpAddr : Nat := 0x1_0108
def rSecOpLen : Nat := 0x1_0110
def rSecOpStat : Nat := 0x1_0118
def rPwrIn : Nat := 0x2_0000
def rPwrEnergy : Nat := 0x2_0008
def rPwrCap : Nat := 0x2_0010
def rPwrCapSched : Nat := 0x2_0018
def rPwrAvg : Nat := 0x2_0020
def rPwrShare : Nat := 0x2_0028
def rPwrFloor : Nat := 0x2_0030
def rPwrFreq : Nat := 0x2_0038
def rPwrEst : Nat := 0x2_0040
def rPwrEstMap : Nat := 0x2_0048
def rPwrStretch : Nat := 0x2_0050
def rPwrPant : Nat := 0x2_0058
def rPwrTherm : Nat := 0x2_0060
def rPwrTrip : Nat := 0x2_0068
def rPwrGain (n : Nat) : Nat := 0x2_0100 + 8 * n
def rBuState : Nat := 0x3_0000
def rBuCtrl : Nat := 0x3_0008
def rBuInspect : Nat := 0x3_0010
def rBuSpan : Nat := 0x3_0018
def rBuRows : Nat := 0x3_0020
def rBuMapErr : Nat := 0x3_0028
def rBuDlogStat : Nat := 0x3_0030
def rBuJobStat : Nat := 0x3_0F00
def rBuJobDetail : Nat := 0x3_0F08
def rBuJobDigest (i : Nat) : Nat := 0x3_0F10 + 8 * i
def rBuSiteGood (k : Nat) : Nat := 0x3_1000 + 8 * k
def rBuSiteFuse (k : Nat) : Nat := 0x3_1400 + 8 * k
def rBuSiteLog (k : Nat) : Nat := 0x3_1800 + 8 * k
def rBuSiteTest (k : Nat) : Nat := 0x3_1C00 + 8 * k
def rBuMap (i : Nat) : Nat := 0x3_2000 + 8 * i
def rBuDlog (j : Nat) : Nat := 0x3_3000 + 8 * j
def rHlCtrl : Nat := 0x4_0000
def rHlSnpStat : Nat := 0x4_0008
def rHlEvqBase : Nat := 0x4_0100
def rHlEvqCfg : Nat := 0x4_0108
def rHlEvqHead : Nat := 0x4_0110
def rHlEvqStat : Nat := 0x4_0118
def rHlWinBase (w : Nat) : Nat := 0x4_0200 + 0x20 * w
def rHlWinLimit (w : Nat) : Nat := 0x4_0208 + 0x20 * w
def rHlWinAttr (w : Nat) : Nat := 0x4_0210 + 0x20 * w
def rHlSqBase (q : Nat) : Nat := 0x4_1000 + 0x20 * q
def rHlSqCfg (q : Nat) : Nat := 0x4_1008 + 0x20 * q
def rHlSqDb (q : Nat) : Nat := 0x4_1010 + 0x20 * q
def rHlSqRpt (q : Nat) : Nat := 0x4_1018 + 0x20 * q
def rHlCqBase (q : Nat) : Nat := 0x4_1800 + 0x20 * q
def rHlCqCfg (q : Nat) : Nat := 0x4_1808 + 0x20 * q
def rHlCqHead (q : Nat) : Nat := 0x4_1810 + 0x20 * q
def rHlCqWake (q : Nat) : Nat := 0x4_1818 + 0x20 * q
def rPfPackTime : Nat := 0x5_0000
def rPfSyncCtrl : Nat := 0x5_0008
def rPfSyncStat : Nat := 0x5_0010
def rPfHerd : Nat := 0x5_0018
def rPfStart : Nat := 0x5_0020
def rPfBeat : Nat := 0x5_0028
def rPfStretchReq : Nat := 0x5_0100
def rPfStretchStat : Nat := 0x5_0108
def rPfStretchNext : Nat := 0x5_0110
def rPfStopCause : Nat := 0x5_0200
def rPfStopTime : Nat := 0x5_0208
def rPfFault : Nat := 0x5_0210
def rPfFaultTime : Nat := 0x5_0218
def rPfWidenStat : Nat := 0x5_0400
def rPfWidenCause : Nat := 0x5_0408
def rPfStepStat : Nat := 0x5_0410
def rPfStepNorm : Nat := 0x5_0418
def rPfNormLimits : Nat := 0x5_0420
def rPfNfTensor : Nat := 0x5_0428
def rPfNfElem : Nat := 0x5_0430
def rPfUpdStat : Nat := 0x5_0438
def rPfDiverge : Nat := 0x5_0500
def rPfDivStep : Nat := 0x5_0508
def rPfDivLocal : Nat := 0x5_0510
def rPfDivRef : Nat := 0x5_0518
def rPfRedStat : Nat := 0x5_0520
def rPfDbgCtrl : Nat := 0x5_0600
def rPfDbgStat : Nat := 0x5_0608
def rPfRtc : Nat := 0x5_0610
def rPortMode (p : Nat) : Nat := 0x8_0000 + 0x1000 * p
def rPortStat (p : Nat) : Nat := 0x8_0008 + 0x1000 * p
def rPortLink (p : Nat) : Nat := 0x8_0010 + 0x1000 * p
def rPortPeer (p : Nat) : Nat := 0x8_0018 + 0x1000 * p
def rPortErr (p : Nat) : Nat := 0x8_0020 + 0x1000 * p
def rMemHbm : Nat := 0x10_0000
def rMemEcc : Nat := 0x10_0010
def rMemDdr : Nat := 0x10_0100
def rMemErr : Nat := 0x10_0200
def rMemScrub : Nat := 0x10_0300
def rMemChryStat : Nat := 0x10_0F00
def rMemChryRel : Nat := 0x10_0F08
def coreBase : Nat := 0x0100_0000
/-- Window register of logical core `n` at offset `o` (Table 18.1). -/
def rCore (n o : Nat) : Nat := coreBase + 0x2000 * n + o
def oState : Nat := 0x0000
def oCount : Nat := 0x0008
def oLast : Nat := 0x0010
def oBank : Nat := 0x0018
def oImemErr : Nat := 0x0020
def oHeel : Nat := 0x0028
def oHaltInfo : Nat := 0x0100
def oHaltCount : Nat := 0x0108
def oHaltTag : Nat := 0x0110
def oHaltTime : Nat := 0x0118
def oBrkCount : Nat := 0x0200
def oBrkTag : Nat := 0x0208
def oDbg : Nat := 0x0210
def oNwThresh : Nat := 0x0600
def oNwSlack : Nat := 0x0608
def oNwCount : Nat := 0x0610
def oFltKeyLo : Nat := 0x0700
def oFltKeyHi : Nat := 0x0708
def oFltCtrLo : Nat := 0x0710
def oFltCtrHi : Nat := 0x0718
def oFltOutLo : Nat := 0x0720
def oFltOutHi : Nat := 0x0728
def oFltCtrl : Nat := 0x0730
def oFreq : Nat := 0x0800

/-! ### Field lists -/

/-- A register whose 64 bits are one field. -/
def whole (a : Acc) : List FieldDef := [⟨0, 64, a⟩]

/-- Fields of the singly placed registers below the per-port blocks, none where the address decodes to no register. -/
def loFields (a : Nat) : Option (List FieldDef) :=
  -- MC_ (Tables 18.2 to 18.4, 14.4)
  if a = rMcIdent then some [⟨0, 47, .ro⟩]
  else if a = rMcPowerOn then some [⟨0, 32, .ro⟩]
  else if a = rMcLeadStat then some [⟨0, 6, .ro⟩, ⟨6, 1, .w1c⟩, ⟨7, 2, .ro⟩]
  else if a = rMcLeadForce then some [⟨0, 2, .wo⟩, ⟨16, 16, .wo⟩]
  -- SEC_ (Table 17.7)
  else if a = rSecBootStat then some [⟨0, 35, .ro⟩]
  else if a = rSecSerialLo ∨ a = rSecSerialHi then some (whole .ro)
  else if a = rSecJobKey then some [⟨0, 48, .ro⟩]
  else if rSecNonce 0 ≤ a ∧ a ≤ rSecNonce 7 ∧ a % 8 = 0 then some (whole .rw)
  else if a = rSecOp then some [⟨0, 3, .wo⟩]
  else if a = rSecOpAddr then some [⟨6, 46, .rw⟩]
  else if a = rSecOpLen then some [⟨0, 24, .rw⟩]
  else if a = rSecOpStat then some [⟨0, 1, .ro⟩, ⟨1, 1, .w1c⟩, ⟨2, 3, .ro⟩, ⟨5, 1, .w1c⟩, ⟨8, 24, .ro⟩]
  -- PWR_ (Table 15.4)
  else if a = rPwrIn then some [⟨0, 32, .ro⟩]
  else if a = rPwrEnergy then some (whole .ro)
  else if a = rPwrCap then some [⟨0, 16, .rw⟩, ⟨16, 1, .w1c⟩]
  else if a = rPwrCapSched then some [⟨0, 60, .rw⟩]
  else if a = rPwrAvg then some [⟨0, 37, .ro⟩, ⟨37, 1, .w1c⟩, ⟨38, 1, .ro⟩]
  else if a = rPwrShare then some [⟨0, 48, .ro⟩]
  else if a = rPwrFloor then some [⟨0, 44, .ro⟩]
  else if a = rPwrFreq then some [⟨0, 12, .ro⟩, ⟨16, 12, .ro⟩]
  else if a = rPwrEst then some [⟨0, 39, .ro⟩, ⟨39, 1, .w1c⟩]
  else if a = rPwrEstMap then some (whole .ro)
  else if a = rPwrStretch then some [⟨0, 1, .rw⟩, ⟨16, 12, .ro⟩]
  else if a = rPwrPant then some [⟨0, 1, .rw⟩, ⟨16, 16, .rw⟩, ⟨32, 16, .rw⟩]
  else if a = rPwrTherm then some [⟨0, 8, .ro⟩, ⟨8, 8, .rw⟩, ⟨16, 16, .ro⟩]
  else if a = rPwrTrip then some [⟨0, 9, .ro⟩, ⟨9, 1, .w1c⟩, ⟨32, 32, .ro⟩]
  else if rPwrGain 0 ≤ a ∧ a ≤ rPwrGain 63 ∧ a % 8 = 0 then some [⟨0, 32, .ro⟩]
  -- BU_ (Tables 14.7, 14.9, 13.13)
  else if a = rBuState then some [⟨0, 5, .ro⟩, ⟨5, 1, .w1c⟩, ⟨6, 2, .ro⟩, ⟨16, 16, .ro⟩]
  else if a = rBuCtrl then some [⟨0, 5, .wo⟩]
  else if a = rBuInspect then some [⟨0, 22, .ro⟩, ⟨24, 24, .ro⟩]
  else if a = rBuSpan then some [⟨0, 32, .ro⟩]
  else if a = rBuRows then some (whole .ro)
  else if a = rBuMapErr then some [⟨0, 14, .ro⟩]
  else if a = rBuDlogStat then some [⟨0, 9, .ro⟩]
  else if a = rBuJobStat then some [⟨0, 2, .ro⟩, ⟨8, 24, .ro⟩]
  else if a = rBuJobDetail then some [⟨0, 60, .ro⟩]
  else if rBuJobDigest 0 ≤ a ∧ a ≤ rBuJobDigest 7 ∧ a % 8 = 0 then some (whole .ro)
  else if a % 8 = 0 ∧ (rBuSiteGood 0 ≤ a ∧ a ≤ rBuSiteGood 71 ∨ rBuSiteFuse 0 ≤ a ∧ a ≤ rBuSiteFuse 71
      ∨ rBuSiteLog 0 ≤ a ∧ a ≤ rBuSiteLog 71 ∨ rBuSiteTest 0 ≤ a ∧ a ≤ rBuSiteTest 71) then some [⟨0, 32, .ro⟩]
  else if rBuMap 0 ≤ a ∧ a ≤ rBuMap 511 ∧ a % 8 = 0 then
    -- bits [14:12] of each 16-bit entry are reserved (Table 1.4)
    some [⟨0, 12, .rw⟩, ⟨15, 13, .rw⟩, ⟨31, 13, .rw⟩, ⟨47, 13, .rw⟩, ⟨63, 1, .rw⟩]
  else if rBuDlog 0 ≤ a ∧ a ≤ rBuDlog 255 ∧ a % 8 = 0 then some (whole .ro)
  else none

/-- Fields of the HL_ registers (Tables 12.12 to 12.14). -/
def hlFields (a : Nat) : Option (List FieldDef) :=
  let q := (a - 0x4_0000) / 0x20
  let o := a % 0x20
  if a = rHlCtrl then some [⟨0, 7, .rw⟩]
  else if a = rHlSnpStat then some [⟨0, 36, .rc⟩, ⟨36, 10, .ro⟩]
  else if a = rHlEvqBase then some [⟨12, 40, .rw⟩]
  else if a = rHlEvqCfg then some [⟨0, 6, .rw⟩, ⟨12, 1, .w1c⟩]
  else if a = rHlEvqHead then some [⟨6, 46, .rw⟩]
  else if a = rHlEvqStat then some [⟨0, 16, .rc⟩]
  else if 0x10 ≤ q ∧ q < 0x18 then
    if o = 0 ∨ o = 8 then some [⟨6, 42, .rw⟩] else if o = 16 then some [⟨0, 2, .rw⟩] else none
  else if 0x80 ≤ q ∧ q < 0xC0 then
    if o = 0 then some [⟨12, 40, .rw⟩] else if o = 8 then some [⟨0, 12, .rw⟩, ⟨12, 1, .w1c⟩]
    else if o = 16 ∨ o = 24 then some [⟨6, 46, .rw⟩] else none
  else if 0xC0 ≤ q ∧ q < 0x100 then
    if o = 0 then some [⟨12, 40, .rw⟩] else if o = 8 then some [⟨0, 6, .rw⟩, ⟨12, 1, .w1c⟩]
    else if o = 16 then some [⟨6, 46, .rw⟩] else if o = 24 then some [⟨0, 48, .rw⟩] else none
  else none

/-- Fields of the PF_ registers (Table 18.9 and the tables it cites). -/
def pfFields (a : Nat) : Option (List FieldDef) :=
  if a = rPfPackTime then some (whole .ro)
  else if a = rPfSyncCtrl then some [⟨0, 7, .rw⟩]
  else if a = rPfSyncStat then some [⟨0, 1, .ro⟩, ⟨1, 1, .w1c⟩, ⟨8, 8, .ro⟩]
  else if a = rPfHerd then some [⟨0, 11, .rwl⟩, ⟨16, 12, .rwl⟩, ⟨32, 32, .rwl⟩]
  else if a = rPfStart then some [⟨0, 48, .rw⟩]
  else if a = rPfBeat then some [⟨0, 60, .ro⟩]
  else if a = rPfStretchReq then some [⟨0, 60, .wo⟩]
  else if a = rPfStretchStat then some [⟨0, 3, .ro⟩, ⟨3, 1, .w1c⟩]
  else if a = rPfStretchNext then some [⟨0, 60, .ro⟩]
  else if a = rPfStopCause then some [⟨0, 11, .ro⟩, ⟨16, 18, .ro⟩, ⟨48, 16, .ro⟩]
  else if a = rPfFault then some [⟨0, 31, .ro⟩, ⟨48, 16, .ro⟩]
  else if a = rPfStopTime ∨ a = rPfFaultTime then some (whole .ro)
  else if a = rPfWidenStat then some [⟨0, 40, .ro⟩, ⟨40, 1, .w1c⟩, ⟨41, 1, .ro⟩]
  else if a = rPfWidenCause then some (whole .ro)
  else if a = rPfStepStat ∨ a = rPfStepNorm ∨ a = rPfNormLimits ∨ a = rPfNfTensor ∨ a = rPfNfElem then
    some (whole .ro)
  else if a = rPfUpdStat then some [⟨0, 32, .ro⟩, ⟨32, 16, .rc⟩, ⟨48, 3, .ro⟩]
  else if a = rPfDiverge then some [⟨0, 43, .ro⟩, ⟨48, 1, .ro⟩]
  else if a = rPfDivStep ∨ a = rPfDivLocal ∨ a = rPfDivRef then some (whole .ro)
  else if a = rPfRedStat then some [⟨0, 32, .ro⟩, ⟨32, 16, .rc⟩]
  else if a = rPfDbgCtrl then some [⟨0, 1, .rw⟩, ⟨1, 2, .wo⟩]
  else if a = rPfDbgStat then some [⟨0, 2, .ro⟩, ⟨2, 1, .w1c⟩, ⟨3, 12, .ro⟩, ⟨16, 12, .ro⟩]
  else if a = rPfRtc then some (whole .rw)
  else none

/-- Fields of a port's registers by offset (Tables 9.2, 9.4, 9.5). -/
def portFields (o : Nat) : Option (List FieldDef) :=
  if o = 0 then some [⟨0, 2, .rwl⟩, ⟨2, 1, .wo⟩, ⟨3, 1, .w1c⟩]
  else if o = 8 then some [⟨0, 11, .ro⟩, ⟨11, 1, .w1c⟩]
  else if o = 16 then some [⟨0, 32, .ro⟩]
  else if o = 24 then some [⟨0, 49, .ro⟩]
  else if o = 32 then some [⟨0, 48, .rc⟩]
  else none

/-- Fields of the MEM_ registers (Tables 11.8 to 11.12, 7.3, 7.4). On OTZ-2048-N the DDR5 registers ignore writes
(R458). -/
def memFields (a : Nat) : Option (List FieldDef) :=
  if a = rMemHbm then some [⟨0, 24, .ro⟩]
  else if a = rMemEcc then some [⟨0, 32, .rc⟩, ⟨32, 24, .rc⟩, ⟨56, 8, .rc⟩]
  else if a = rMemDdr then some (if Config.grade = 3 then [] else [⟨0, 7, .ro⟩, ⟨8, 24, .ro⟩])
  else if a = rMemErr then some [⟨0, 48, .ro⟩, ⟨48, 1, .w1c⟩, ⟨49, 4, .ro⟩]
  else if a = rMemScrub then some (if Config.grade = 3 then [] else [⟨0, 1, .rw⟩, ⟨8, 8, .rw⟩, ⟨16, 16, .rc⟩])
  else if a = rMemChryStat then some [⟨0, 5, .ro⟩, ⟨32, 32, .ro⟩]
  else if a = rMemChryRel then some [⟨0, 2, .wo⟩]
  else none

/-- Fields of a core window's registers by offset (Table 18.12 and the tables it cites). -/
def coreFields (o : Nat) : Option (List FieldDef) :=
  if o = oState then some [⟨0, 11, .ro⟩]
  else if o = oCount ∨ o = oHaltCount ∨ o = oHaltTag ∨ o = oHaltTime then some (whole .ro)
  else if o = oLast then some [⟨0, 48, .ro⟩]
  else if o = oBank then some [⟨0, 4, .ro⟩, ⟨16, 32, .ro⟩]
  else if o = oImemErr then some [⟨0, 16, .rc⟩, ⟨16, 1, .w1c⟩]
  else if o = oHeel then some [⟨0, 16, .ro⟩, ⟨16, 16, .rc⟩, ⟨32, 32, .rc⟩]
  else if o = oHaltInfo then some [⟨0, 19, .ro⟩, ⟨32, 32, .ro⟩]
  else if o = oBrkCount then some (whole .rw)
  else if o = oBrkTag then some [⟨0, 17, .rw⟩, ⟨32, 32, .rw⟩]
  else if o = oDbg then some [⟨0, 4, .ro⟩, ⟨16, 16, .ro⟩]
  else if o = oNwThresh then some [⟨0, 32, .ro⟩]
  else if o = oNwSlack then some [⟨0, 49, .ro⟩]
  else if o = oNwCount then some [⟨0, 16, .rc⟩, ⟨16, 16, .rc⟩, ⟨32, 16, .rc⟩]
  else if o = oFltKeyLo ∨ o = oFltKeyHi ∨ o = oFltCtrLo ∨ o = oFltCtrHi then some (whole .rw)
  else if o = oFltOutLo ∨ o = oFltOutHi then some (whole .ro)
  else if o = oFltCtrl then some [⟨0, 1, .wo⟩, ⟨1, 1, .ro⟩]
  else if o = oFreq then some [⟨0, 41, .ro⟩, ⟨48, 16, .rc⟩]
  else none

/-- The block an address lies in (Table 18.1), none outside every block. -/
def blockOf (a : Nat) : Option Block :=
  if a < 0x1_0000 then some .mc
  else if a < 0x2_0000 then some .sec
  else if a < 0x3_0000 then some .pwr
  else if a < 0x4_0000 then some .bu
  else if a < 0x5_0000 then some .hl
  else if a < 0x6_0000 then some .pf
  else if 0x8_0000 ≤ a ∧ a < 0x9_2000 then some .port
  else if 0x10_0000 ≤ a ∧ a < 0x11_0000 then some .mem
  else if coreBase ≤ a ∧ a < 0x0200_0000 then some .core
  else none

/-- The fields of the register at address `a`; none where it decodes to no register (R450). -/
def regFields (a : Nat) : Option (List FieldDef) :=
  match blockOf a with
  | none => none
  | some .mc => loFields a
  | some .sec => loFields a
  | some .pwr => loFields a
  | some .bu => loFields a
  | some .hl => hlFields a
  | some .pf => pfFields a
  | some .port => portFields (a % 0x1000)
  | some .mem => memFields a
  | some .core => coreFields ((a - coreBase) % 0x2000)

/-- Reset values of Tables 18.4 to 18.12 that are the same for every package; what an unlisted key of `regs` reads
as. Fused, flash and strap values are written by power-on. -/
def regDefault (a : Nat) : W64 :=
  if a = rMcIdent ∨ a = mceBase + rMcIdent then
    BitVec.ofNat 64 (Config.grade + 2 ^ 8 * Config.stepping + 2 ^ 24 * (if Config.grade = 2 then 960 else 1024)
      + 2 ^ 35 * (if Config.grade = 2 then 960 else 1024) + 2 ^ 46 * (if Config.grade = 3 then 0 else 1))
  else if a = mceBase + rMcLeadStat then 1
  else if a = rSecBootStat then 0x2_0000_0000
  else if a = rPwrCap then 0x4640
  else if a = rPwrFreq then 0x05AA_05AA
  else if a = rPwrPant then 0x0000_1000_0028_0001
  else if a = rPwrTherm then 0x6E_5F00
  else if a = rBuState then 1
  else if a = rPfStepNorm then 0x3F80_0000_0000_0000
  else if a = rPfNormLimits then 0x7F80_0000_7F80_0000
  else if a = rPfNfTensor then 0x0000_0000_FFFF_FFFF
  else if a = rPfNfElem then 0xFFFF_FFFF_FFFF_FFFF
  else if a = rPortMode 0 ∨ a = rPortMode 9 then 2
  else if 0x8_0000 ≤ a ∧ a < 0x9_2000 ∧ a % 0x1000 = 0 then 1
  else if a = rMemScrub then (if Config.grade = 3 then 0 else 0x1801)
  else if coreBase ≤ a ∧ a < 0x0200_0000 then
    if (a - coreBase) % 0x2000 = oHeel then 0xFFFF
    else if (a - coreBase) % 0x2000 = oNwThresh then 0xFFFF_FFFF
    else 0
  else 0

/-- The value a read returns and the value the register keeps: WO fields read 0, RC fields clear (R451). -/
def regReadVal (fs : List FieldDef) (v : Nat) : Nat × Nat :=
  (fs.foldl (fun r f => if f.acc = .wo then r else r + 2 ^ f.lo * bitsOf v f.lo f.w) 0,
   fs.foldl (fun r f => if f.acc = .rc then r - 2 ^ f.lo * bitsOf v f.lo f.w else r) v)

/-- The value a register holds after a write of `x` over `v`, field by field (R13, R451). `locked`: its RWL fields
have locked. WO fields keep nothing. -/
def regWriteVal (fs : List FieldDef) (locked : Bool) (v x : Nat) : Nat :=
  fs.foldl (fun r f =>
    let old := bitsOf v f.lo f.w
    let new := bitsOf x f.lo f.w
    let keep := match f.acc with
      | .ro => old
      | .rc => old
      | .rw => new
      | .w1c => old - (old &&& new)
      | .wo => 0
      | .rwl => if locked then old else new
    r + 2 ^ f.lo * keep) 0

end Sys2Proof.Machine
end

