-- ==== Sys2Proof/Machine/State.lean ====
section
/-! DEFINITION. The state of the package: every register, buffer, counter, mode and pin the spec gives it, and the
queue of waiting commands. Plain data throughout. Registers live in `regs`, keyed by their address of Chapter 18
(the MC_ block of MC-E at its address plus 2^32, since each controller serves its own). -/

namespace Sys2Proof.Machine
open Sys2Proof

/-! ### Reasons a step can stop -/

/-- Faults. No command of this block ends in one: every trouble the spec describes is an effect on the state (a halt
record, a status, a refusal code). The one constructor stands for a step that the model's own invariants exclude. -/
inductive Fault where
  /-- Raised by no meaning; kept so that the type has a name for it. Safe. -/
  | unreachable
  deriving DecidableEq, Repr

/-- Refusals: what the model does not give a meaning to. -/
inductive Refusal where
  /-- Raised by an arm of exec whose command has no meaning yet. Safe. -/
  | notModelled (mnemonic : String)
  deriving DecidableEq, Repr

/-! ### Messages the package sends -/

/-- One thing the package has put on a link, a bus or a pin, oldest first in `outbox`. A DATA flit names its schedule slot; `stop`
says that a port starts to send a STOP, and `stopSlots` in which slots it carries it. The other flits name the pack time of their first slot, whose low 24 bits are their SEND_STAMP, how many slots in turn carry such a
flit, and the NAK_STAMP in their headers where NAK_VALID is set (R245). `hostlink` is a message that the port sends, `hlFlit` the
flit that carries the messages before it; `annAgain` is the re-send of an ANNOUNCE flit, with the stamp of its first sending. -/
inductive Out where
  | flit (port slot : Nat) (f : Flit)
  | idle (port time slots : Nat) (hold : Bool) (nak : Option Nat)
  | stop (port origin reason time : Nat)
  | stopSlots (port time slots : Nat) (nak : Option Nat) (origin reason detected : Nat)
  | announce (port time : Nat) (nak : Option Nat) (a : Announce)
  | annAgain (port time stamp : Nat) (nak : Option Nat) (a : Announce)
  | markers (port n : Nat)
  | identify (port : Nat) (herd : W64)
  | hello (port version : Nat) (credits : List Nat)
  | hostlink (port op tag addr status param : Nat) (data : List Byte)
  | hlFlit (port : Nat) (image : List Byte)
  | ibi (mc : Mc) (code : Nat)
  | i3c (mc : Mc) (bytes : List Byte)
  deriving DecidableEq, Repr

/-! ### Fuses and on-package flash -/

/-- A job key slot (R444): 0 EMPTY, 1 ENROLLED, 2 REVOKED, with its public key. -/
structure KeySlot where
  state : Nat
  key   : List Byte
  deriving DecidableEq, Repr

/-- What FIPS 204 accepts: public key, context string, 64-byte digest, signature. -/
structure SigFact where
  key : List Byte
  ctx : List Byte
  dig : Digest
  sig : List Byte
  deriving DecidableEq, Repr

/-- Fused and flash contents (R5, R414, R438 to R446, R382, R400, R402, R456). -/
structure Nv where
  serial      : BitVec 128
  uds         : BitVec 256
  roots       : List Digest       -- root key digests, slots 0 to 3
  revoked     : Nat               -- bit n: root slot n revoked
  mcCtr       : Nat
  coreCtr     : Nat
  owner       : Option Digest
  keys        : List KeySlot      -- job key slots 0 to 7
  keySeq      : Nat
  cert        : List Byte
  regionA     : List Byte         -- boot flash region A, as stored from offset 0 of the region
  regionB     : List Byte
  powerOn     : Nat
  rowFuse     : Nat × Nat         -- rows the fuse record lists bad, west and east
  siteFuse    : List (Nat × Nat)  -- (k, rows): bad sites the fuse record lists, k = 36 d + x
  laneFuse    : List LaneRef
  dlog        : List W64          -- field defect log entries (Table 14.10)
  age         : List (Nat × Nat)  -- (site key 32 k + y, ageing steps)
  fmax        : List (Nat × Nat)  -- (site key, fused maximum in MHz) of sites other than Config.fusedMax
  gains       : List Nat          -- calibration record: 64 gains / 32,768
  covered     : Nat
  trip        : Option (Nat × Bool × Nat)   -- power stage trip register: source, hard, power-on count
  deriving DecidableEq, Repr

/-! ### Management controllers and package control -/

/-- One management controller's hidden state (R373 to R377, R452, R465 to R468). -/
structure McSt where
  checked   : Bool          -- its self-check has ended
  lead      : Bool          -- it asserts LEAD
  failSig   : Bool          -- it asserts FAIL
  follow    : Bool          -- it asserts FOLLOW
  sawLead   : Bool          -- it has seen the other controller's LEAD
  sawFail   : Bool          -- it has seen the other controller's FAIL
  region    : Nat           -- boot flash region it booted from
  ptr       : Nat           -- I3C register address pointer
  lastWr    : Nat           -- status of the last I3C write
  dyn       : Option Nat    -- dynamic address
  ibiOn     : Bool          -- in-band interrupts enabled
  ibiHeld   : Option Nat    -- the latest event, held while disabled
  deriving DecidableEq, Repr

/-- The firmware image a controller runs, or the retained core firmware (R440 to R442). -/
structure FwInfo where
  svn    : Nat
  slot   : Nat
  revoke : Nat
  seg    : Nat
  digest : Digest
  body   : List Byte
  deriving DecidableEq, Repr

/-- Instruction bank 1 of a core site under the firmware broadcast (R384 to R386): segment ID, length and digest of the
header, and the bytes received by SEQ. -/
structure FwBank where
  hdr   : Option (Nat × Nat × Digest)
  parts : List (Nat × List Byte)
  deriving DecidableEq, Repr

/-- Package-level control that no register holds. -/
structure Pkg where
  vin        : Bool           -- the 48 V input is valid
  whelp      : Bool           -- the package has reached WHELP since power-on
  sb33       : Bool           -- SB33 is valid
  lowVoltage : Bool           -- FLASH_1V8 as sampled
  i3cA       : Nat            -- strap value A
  channel    : Bool           -- the span bring-up channel is up
  latched    : Bool           -- a hard trip is latched: the logic side is unpowered
  hbmUp      : Bool           -- HBM trained: the MEM_ block answers
  computeOn  : Bool           -- compute dies powered
  selfRef    : Bool           -- HBM4 stacks in self-refresh
  ddrOn      : Bool           -- INSPECT step 4 has been run: VDDQ_DDR is powered
  softTrip   : Bool           -- a soft trip since the last accepted RESET
  thermTrip  : Bool           -- THERM_TRIP_N asserted
  thermWarn  : Bool           -- THERM_WARN_N asserted
  forcedW    : Bool           -- MC-W holds a forced role
  forcedE    : Bool           -- MC-E holds a forced role
  buOp       : Option (Nat × Bool)  -- INSPECT or RESET accepted by a BU_CTRL write and not yet run: CMD, FULL
  pwrSettled : Bool           -- INSPECT step 1 has run since power-on
  niMap      : List Nat       -- the committed map in the NIs, 2,048 entries; empty when none is committed
  hbmMap     : List Nat       -- the last committed map in the reserved HBM of R301; empty when none is there
  spanRow    : List Nat       -- s(y) for y = 0 to 31 (R29); empty when no map is committed
  mcFw       : Option FwInfo  -- the leader's running MC firmware
  fwW        : Option FwInfo
  fwE        : Option FwInfo
  coreFw     : Option FwInfo  -- the retained core firmware
  fwBank     : Option FwBank  -- bank 1 of every candidate site since step 6, but for those of `fwOff` (R384)
  fwOff      : List (Site × FwBank)  -- bank 1 of the sites whose broadcast failed (R387)
  deriving DecidableEq, Repr

/-! ### Cores -/

/-- How far a command of the window has come (R133 to R136). A command that issues completes in the same step, but for an
UPDATE whose layer reduction waits for other cores or owners: it has staged. `held`: it has been found waiting for room in the NI
send buffer or for a bank's load. `done`: it completed at that pack time. -/
inductive CmdStatus where
  | waiting
  | held
  | issuing
  | staged
  | done (time : Nat)
  deriving DecidableEq, Repr

/-- A command in a core's window: the pack time at which it entered and the cycles for which it has been passed over
while ready (R135). -/
structure WinCmd where
  cmd    : Instr
  since  : Nat
  passed : Nat
  status : CmdStatus
  deriving DecidableEq, Repr

/-- A halt that waits for the commands older than the halting one (R130), with the pack time at which its condition arose, or a
freeze that waits for every issued command (R430, R431, R435): whether the core reached its own target, and whether it writes its
image. The window then holds the older commands only. -/
inductive Ending where
  | halt (a : Attr) (code : Nat) (noEff : Bool) (time : Nat)
  | freeze (a : Attr) (code cause kind : Nat) (own image : Bool)
  deriving DecidableEq, Repr

/-- A delivered flit payload in a delivery buffer: stream, SEQ, schedule slot of delivery, payload. -/
structure Delivery where
  stream  : Nat
  seq     : Nat
  slot    : Nat
  payload : List Byte
  deriving DecidableEq, Repr

/-- The status of a conversion outside the tiles (R55, R58): flags and counts of Table 3.7 and the index of the first
non-finite element, all ones for none. -/
structure ConvStat where
  nonfinite : Bool
  flushed   : Bool
  sat       : Nat
  flushes   : Nat
  first     : Nat
  deriving DecidableEq, Repr

/-- A logical core's state outside its register window (R123, R133, R138 to R146, R214). -/
structure CoreSt where
  sram    : List (Nat × Byte)
  groups  : List (Nat × Group)
  window  : List WinCmd             -- the oldest unretired commands of the stream (R133)
  stream  : List Instr              -- commands read from the stream that have not entered the window
  ending  : Option Ending
  asOf    : Nat                     -- pack time up to which the stream has been followed: that of the latest retirement or entry
  feeds   : List Feed               -- last writers of data SRAM ranges, oldest first
  resume  : Nat                     -- offset in the active bank at which fetch resumes
  bank0   : List Byte
  bank1   : List Byte
  load0   : Option (Nat × Nat)      -- a load in progress: command-area address and length
  load1   : Option (Nat × Nat)
  entry   : Option Nat              -- entry segment of the program map; none for an unused core
  step    : Nat
  widen   : Bool                    -- step decision bits
  skip    : Bool
  nonfin  : Bool
  clip    : W32
  dlv     : List Delivery
  vecStat : ConvStat                -- record of the last vector operation
  xferStat : ConvStat               -- status of the last retriever transfer
  limit   : Nat                     -- island frequency limit set by margin drops, MHz; 0 none
  panting : Bool
  deriving DecidableEq, Repr

/-! ### Ports and the fabric -/

/-- A flit a port has sent and may have to re-send: its send slot as pack time and schedule slot, and what an ANNOUNCE carries. -/
structure SentFlit where
  time : Nat
  slot : Nat
  flit : Flit
  ann  : Option Announce := none
  deriving DecidableEq, Repr

/-- A Hostlink line-table entry: host address, state (false Shared, true Held), use, its 64 bytes. -/
inductive LineUse where
  | doorbell (sq : Nat)
  | report (sq : Nat)
  | head (cq : Nat)
  | evHead
  deriving DecidableEq, Repr

structure Line where
  addr : Nat
  held : Bool
  use  : LineUse
  data : List Byte
  deriving DecidableEq, Repr

/-- A Hostlink message (Table 12.2). -/
structure HlMsg where
  op     : Nat
  tag    : Nat
  addr   : Nat
  status : Nat
  param  : Nat
  data   : List Byte
  deriving DecidableEq, Repr

/-- A MSG flit in the replay buffer: its LSEQ, how often it was sent, its messages (R327). -/
structure HlTx where
  lseq  : Nat
  sends : Nat
  msgs  : List HlMsg
  deriving DecidableEq, Repr

/-- A request outstanding to the host (R331, R333): its tag, OP, address, what it is for. -/
inductive ReqUse where
  | line (u : LineUse)
  | desc (sq i : Nat)
  | record (cq : Nat)
  | eventRec
  | stepRec (cq step : Nat)
  | data
  | copyOut (sq i : Nat)
  | giveUp (u : LineUse)
  | wake (cq : Nat)
  deriving DecidableEq, Repr

structure Req where
  tag   : Nat
  op    : Nat
  addr  : Nat
  stale : Bool
  use   : ReqUse
  deriving DecidableEq, Repr

/-- A STOP being repeated on a port: origin, reason, detection time, the pack time of its first slot, and the slots left, none for
no limit (R263). -/
structure StopRec where
  origin : Nat
  reason : Nat
  time   : Nat
  start  : Nat
  left   : Option Nat
  deriving DecidableEq, Repr

/-- One port's state outside its registers. -/
structure PortSt where
  trained   : Bool                  -- TRAIN has been written: MODE is locked
  silence   : Nat                   -- consecutive slots without a good CRC
  full      : Bool                  -- trained at full width
  sent      : List SentFlit         -- DATA flits kept for a re-send
  failedTx  : List (Nat × SentFlit × Bool) -- sent flits that a NAK named, by send slot; done: re-sent, or overrun raised
  failedRx  : List (Nat × Bool)     -- failed flits received, by send slot; done: the re-send has come or failed
  naks      : List (Nat × Nat)      -- NAK copies due: pack time of the slot, stamp; oldest first
  carried   : Nat                   -- slots before this pack time have been filled
  timeDue   : Bool                  -- the beat's ANNOUNCE with the pack time is still to be sent (R250)
  downRaised : Bool                 -- going DOWN has raised LINK_DOWN
  lastSend  : Nat                   -- schedule slots below this have been served
  stops     : List StopRec          -- STOPs being repeated
  stopsSeen : List Nat              -- origins of STOPs received on this port
  annOut    : List Announce         -- announcements waiting to be sent
  annSent   : List (Nat × Announce) -- ANNOUNCE flits sent that a NAK may still name, by pack time
  txNext    : Nat                   -- next LSEQ to send
  rxNext    : Nat                   -- expected LSEQ
  rxNak     : Bool                  -- NAK set in every flit sent
  rxAny     : Bool                  -- a MSG flit has been accepted: ACK_SEQ is valid
  nakSeen   : Bool                  -- the host has set NAK: a replay is due
  owed      : List Nat              -- 16 B units of SNP, SRSP, REQ and RSP taken in and not yet returned as credit
  unacked   : List HlTx             -- the replay buffer
  credits   : List Nat              -- credits held for SNP, SRSP, REQ, RSP
  lines     : List Line             -- line table
  reqs      : List Req              -- outstanding requests
  tagNext   : Nat
  txq       : List HlMsg            -- messages waiting for credit or replay buffer space
  deriving DecidableEq, Repr

/-- What waits for its due slot: a DATA flit on a link, or data bound for HBM or a reduction unit. -/
inductive HeldKind where
  | link (port linkNo : Nat)        -- received on a port, the stream's link number
  | onPkg                           -- a stream without a fabric link
  | forward (inPort port : Nat)     -- received on a port, to be sent on another
  | place
  | reduce (stack : Nat)            -- its elements that lie in this HBM stack
  deriving DecidableEq, Repr

structure Held where
  due     : Nat                     -- schedule slot from the job's slot 0
  kind    : HeldKind
  stream  : Nat
  seq     : Nat
  hop     : Nat
  last    : Bool
  payload : List Byte
  deriving DecidableEq, Repr

/-- A contribution of a collective (Table 10.3). `src` of a partial is the stream that brought it, none for this
package's own. -/
inductive CVal where
  | orBits (v : Nat)
  | minKey (v : Nat)
  | maxMag (vals : List W32)
  | csum (unit : Nat) (src : Option Nat) (vals : List W32)
  | print (shard : Nat) (v : W64)
  deriving DecidableEq, Repr

/-- A collective instance in progress: contributions taken and the local streams that have contributed. -/
structure CollSt where
  id      : Nat
  vals    : List CVal
  streams : List Nat
  result  : List (W32 × W32)
  deriving DecidableEq, Repr

/-- The fabric outside the ports: time base, stretch tables, send buffers and held data. -/
structure Fab where
  beatStart : Nat                       -- pack time at which the current beat began
  table     : List (Nat × Nat)          -- pending table: (B_E, S), the entry in force included
  past      : List (Nat × Nat)          -- retired entries
  everLocked : Bool
  stepNext  : Bool                      -- the next lock steps pack time (R251)
  parent    : Option (Nat × Announce)   -- the parent's pack time as last announced before a lock, and the pack time here on its receipt
  steady    : Option Nat                -- pack time since which the phase error has stayed within ±16/64 slot (R250)
  idleHold  : Bool                      -- R271
  sendBuf   : List Delivery             -- NI send buffers: stream, SEQ, send slot, payload
  held      : List Held
  stopOut   : Bool                      -- this package has sent STOP as origin
  originsFwd : List Nat                 -- origins whose STOP was forwarded
  issueStopped : Bool                   -- issue stopped by STOP
  haltedAt  : Option Nat                -- pack time of the slot in which a STOP or a fault halted the run (R265)
  colls     : List CollSt
  deriving DecidableEq, Repr

/-! ### Job, steps and the update pass -/

/-- A pending slow reduction slot's record (R191). -/
structure SlowRec where
  step : Nat
  clip : W32
  skip : Bool
  deriving DecidableEq, Repr

/-- Step-level state of an installed job (R183 to R201, R208 to R216, R106, R53, R120). -/
structure StepSt where
  started   : Bool                  -- the job has begun to issue (R247)
  b0        : Nat                   -- start beat of the run
  origin    : Nat                   -- schedule slot of the current step's origin
  prevOrigin : Option (Nat × Bool)  -- origin and schedule (true wide) that were in force before it (R254)
  step      : Nat
  v         : Nat                   -- fast-layer update count
  n         : Nat                   -- slow generation counter
  wideRun   : Nat                   -- consecutive widened steps
  wide      : Bool                  -- the wide schedule runs
  widened   : Bool                  -- this step widened
  nfT       : Bool
  nfG       : Bool
  minKey    : Nat                   -- MIN key of the status collective, all ones for none
  gMin      : Nat                   -- MIN key of the norm pass
  normM     : W32                   -- NS: main and err
  normE     : W32
  decided   : Bool                  -- the skip heel's decision is taken
  skip      : Bool
  nonfin    : Bool
  clip      : W32
  snapReq   : Bool                  -- status of the last step delivered SNAP_REQ
  snapNow   : Bool                  -- a snapshot is taken in this step
  snapCount : Nat                   -- snapshots since LOAD or restore
  snapSlot  : Nat
  localWiden : Bool                 -- this package's widen bit (R110)
  widenSent  : Bool                 -- it went into the status collective by its last send slot (R115)
  localNfT  : Bool
  localMin  : Nat
  charged   : List (Nat × Nat)      -- repair charges of this step (R111): 2^32 core + 2^16 leaf + ladder record, cycles
  begun     : Bool                  -- the current step's origin has been taken
  scales    : List (Nat × W32)      -- current tensor scales that differ from the manifest scale
  sfb       : List (Nat × W32)      -- fallback scale of each master's layer (R106)
  sfbDue    : List (Nat × W32)      -- those that this step's update pass records, for the next step
  amax      : List (Nat × Xv)       -- largest magnitude measured per tensor in this step, exact
  rescales  : List (Nat × W32)      -- scales that replace FIXED ones at the next step boundary
  masterMax : List (Nat × W32)
  prints    : List (Nat × W64 × Nat)  -- noseprints: shard, value, step that wrote the version
  compared  : List (Nat × Nat)      -- (shard, step) compared
  updDone   : List (Nat × Nat)      -- elements of each master updated in this step
  norms     : List (Nat × W32)      -- N_g by step, for the slow passes to come (Table 8.8)
  slowRecs  : List SlowRec          -- pending slots' records, newest first
  lred      : List (Nat × List (Nat × List W32))  -- units' values delivered by a layer statistics collective (R230)
  staged    : List (Attr × UpdArg)  -- UPDATEs staged and waiting for a layer reduction (R217 phase 2)
  qBase     : List (Nat × List W32) -- recipe state with which a layer's pass started (R225)
  heeled    : Bool                  -- the decision heel of the step as finally run has retired (R190)
  slowZero  : List (Nat × Nat × Nat × Nat)  -- read slow gradients to zero at that heel: tensor, slot, first, count
  bound     : List (Nat × W32)      -- scale with which a version slot was written: 16 tensor + slot
  bindDue   : List (Nat × W32)      -- scales of EMA slots written in this step, bound from the next step on
  chryStep  : List (Nat × Nat)      -- b of the snapshot in each staging slot (R201)
  chryNeed  : List (Nat × List (Nat × Nat))  -- versions in each staging slot to be compared first: (shard, step) (R298)
  lastRange : Nat                   -- last step whose input is no longer due
  deriving DecidableEq, Repr

/-! ### Hostlink engine -/

/-- A descriptor fetched and not completed (Table 12.7). `result` holds its outcome code, bytes moved and arrival flag
once decided; `when` what it waits for. -/
structure Desc where
  i       : Nat
  bytes   : List Byte
  started : Bool
  done    : Option (Nat × Nat × Bool)
  posted  : Bool
  fetchAt : Nat
  deriving DecidableEq, Repr

structure SqSt where
  tail    : Nat
  fetched : Nat
  retired : Nat
  doneSet : List Nat           -- descriptors at or above `retired` that have completed
  descs   : List Desc
  pend    : List Nat           -- descriptors being read
  deriving DecidableEq, Repr

structure CqSt where
  head     : Nat
  written  : Nat
  reserved : Nat
  since    : Nat               -- records since the last WAKE
  oldest   : Option Nat        -- beat of the oldest record not yet woken
  unacked  : Nat               -- WR_FULL of records without H_ACK
  wakeDue  : Bool
  deriving DecidableEq, Repr

/-- What the state behind a snapshot holds beyond its sections (log entry 49): N_g by step, the scales bound to version slots, the
fallback scales, and the bytes of the version slots that no section holds, by address. -/
structure ChryKeep where
  norms : List (Nat × W32)
  bound : List (Nat × W32)
  sfb   : List (Nat × W32)
  slots : List (Nat × List Byte)
  deriving DecidableEq, Repr

/-- Input staging of one step and index: the ranges named and the bytes present. -/
structure InputSt where
  step   : Nat
  index  : Nat
  ranges : List (Nat × Nat)
  filled : List (Nat × Nat)
  descs  : List (Nat × Nat × Nat × Bool)  -- (sq, i, bytes, arrived at the deadline) waiting for the STEP record
  deriving DecidableEq, Repr

structure HlSt where
  sqs       : List (Nat × SqSt)
  cqs       : List (Nat × CqSt)
  evHead    : Nat
  evWritten : Nat
  evLost    : Bool
  stepQ     : List (List Byte)       -- STEP records waiting for CQ space
  inputs    : List InputSt
  waitIn    : List (Nat × Nat)       -- started INPUT descriptors whose fetch waits for their buffer: sq, i
  snapReqs  : List (Nat × Nat × Nat) -- waiting SNAP_REQ descriptors: sq, i, step
  ctxReqs   : List (Nat × Nat × Nat × Nat)  -- armed CTX_SAVEs: sq, i, step, core or 0xFFFF
  restored  : Option Nat             -- boundary of the completed RESTORE
  ctxKeep   : List (Nat × List (Nat × Group))  -- groups behind the private tables of saved images, by the image's CRC
  chryKeep  : List (Digest × ChryKeep)  -- what stands behind the snapshots taken, by the slot's body digest
  deriving DecidableEq, Repr

/-! ### Power -/

structure PwrSt where
  mj        : Nat                    -- fractional energy: μJ beyond PWR_ENERGY
  interval  : Nat                    -- number of the current 1 ms interval
  e         : Nat                    -- energy of the interval so far, μJ
  past      : List Nat               -- energies of past intervals, newest first, μJ
  caps      : List Nat               -- caps in force in past intervals, newest first, W
  capNow    : Nat                    -- cap in force in this interval
  capNext   : Option Nat             -- cap that applies from the next interval
  floors    : List (Nat × Nat)       -- FLOOR-mode samples: pack time, W
  cells     : List (Nat × Nat × Nat) -- per coverage cell: pairs, Σ measured, Σ P_raw since the last update
  rawSum    : Nat                    -- Σ P_raw over the beats of the current sample
  rawBeats  : Nat
  gainsDue  : List (Nat × Nat)       -- recalibrated gains that take effect at the step origin
  coverDue  : List Nat
  lastCal   : Nat                    -- beat of the last recalibration outside RUN
  limit     : Nat
  factor    : Nat                    -- thermal factor in hundredths
  fsched    : Nat
  autoSent  : List Nat               -- beats with an automatic entry
  level     : Nat                    -- estimated input power of the last beat, panting included, mW (R412)
  runLevel  : Nat                    -- the same of the last beat in which no core panted
  rising    : Bool                   -- the compute dies have been powered up and the input still rises at RAMP (R396)
  lastCore  : List (Nat × Nat)       -- last measured temperatures: kind, value
  deriving DecidableEq, Repr

/-- The security operation engine (R449): the operation written and not yet run, the nonce latched, the controller. -/
structure SecSt where
  op    : Nat
  nonce : List Byte
  mc    : Mc
  deriving DecidableEq, Repr

/-! ### The state -/

structure State where
  regs     : List (Nat × W64)
  mem      : List Host.Cell
  bad      : List Nat               -- aligned 64-byte blocks that read uncorrectable (R310, R312)
  failing  : List Nat               -- blocks whose write fails its retry in the command that runs (R311); none between commands
  nv       : Nv
  sigs     : List SigFact
  pkg      : Pkg
  mcw      : McSt
  mce      : McSt
  cores    : List (Nat × CoreSt)
  ports    : List (Nat × PortSt)
  fab      : Fab
  job      : Option Job
  stp      : StepSt
  hl       : HlSt
  pwr      : PwrSt
  sec      : SecSt
  flocks   : List Nat               -- RWL registers locked
  outbox   : List Out
  free     : Nat                    -- draws of free values
  pending  : List Instr
  deriving DecidableEq, Repr

/-! ### Reset -/

/-- A controller as it leaves reset. -/
def McSt.reset : McSt :=
  { checked := false, lead := false, failSig := false, follow := false, sawLead := false, sawFail := false, region := 0, ptr := 0, lastWr := 0,
    dyn := none, ibiOn := true, ibiHeld := none }

/-- A record that has just started. -/
def ConvStat.fresh : ConvStat := { nonfinite := false, flushed := false, sat := 0, flushes := 0, first := 2 ^ 40 - 1 }

/-- A core in reset. -/
def CoreSt.reset : CoreSt :=
  { sram := [], groups := [], window := [], stream := [], ending := none, asOf := 0, feeds := [], resume := 0, bank0 := [], bank1 := [], load0 := none,
    load1 := none, entry := none, step := 0, widen := false, skip := false, nonfin := false, clip := 0x3F80_0000,
    dlv := [], vecStat := ConvStat.fresh, xferStat := ConvStat.fresh, limit := 0, panting := false }

/-- A port as its port die leaves reset. -/
def PortSt.reset : PortSt :=
  { trained := false, silence := 0, full := false, sent := [], failedTx := [], failedRx := [], naks := [], carried := 0,
    timeDue := false, downRaised := false, lastSend := 0, stops := [], stopsSeen := [], annOut := [], annSent := [], txNext := 0, rxNext := 0, rxNak := false, rxAny := false,
    nakSeen := false, owed := [0, 0, 0, 0], unacked := [], credits := [32, 0, 0, 0], lines := [], reqs := [], tagNext := 0, txq := [] }

def SqSt.reset : SqSt := { tail := 0, fetched := 0, retired := 0, doneSet := [], descs := [], pend := [] }

def CqSt.reset : CqSt :=
  { head := 0, written := 0, reserved := 0, since := 0, oldest := none, unacked := 0, wakeDue := false }

def Fab.reset : Fab :=
  { beatStart := 0, table := [], past := [], everLocked := false, stepNext := false, parent := none, steady := none, idleHold := false, sendBuf := [],
    held := [], stopOut := false, originsFwd := [], issueStopped := false, haltedAt := none, colls := [] }

/-- Step-level state before a job runs. All ones is the MIN key that means none (Table 10.3). -/
def StepSt.reset : StepSt :=
  { started := false, b0 := 0, origin := 0, prevOrigin := none, step := 0, v := 0, n := 0, wideRun := 0, wide := false, widened := false,
    nfT := false, nfG := false, minKey := 2 ^ 96 - 1, gMin := 2 ^ 96 - 1, normM := 0, normE := 0, decided := false,
    skip := false, nonfin := false, clip := 0x3F80_0000, snapReq := false, snapNow := false, snapCount := 0,
    snapSlot := 0, localWiden := false, widenSent := false, localNfT := false, localMin := 2 ^ 96 - 1, charged := [], begun := false,
    scales := [], rescales := [], sfb := [], sfbDue := [], amax := [], masterMax := [], prints := [], compared := [],
    updDone := [], norms := [], slowRecs := [], lred := [], staged := [], qBase := [],
    heeled := false, slowZero := [], bound := [], bindDue := [], chryStep := [], chryNeed := [], lastRange := 0 }

def HlSt.reset : HlSt :=
  { sqs := [], cqs := [], evHead := 0, evWritten := 0, evLost := false, stepQ := [], inputs := [], waitIn := [],
    snapReqs := [], ctxReqs := [], restored := none, ctxKeep := [], chryKeep := [] }

/-- Cap in force after reset: the default 1,600 W of Table 15.4. -/
def PwrSt.reset : PwrSt :=
  { mj := 0, interval := 0, e := 0, past := [], caps := [], capNow := 1600, capNext := none, floors := [], cells := [],
    rawSum := 0, rawBeats := 0, gainsDue := [], coverDue := [], lastCal := 0, limit := 0, factor := 100, fsched := 0,
    autoSent := [], level := 0, runLevel := 0, rising := false, lastCore := [] }

def SecSt.reset : SecSt := { op := 0, nonce := [], mc := .west }

/-- Fuses and flash of the modelled package (log entry 4, DESIGN CHOICE): no defect, no owner, no job key, blank boot
flash, every gain 1.0 and every coverage cell covered. -/
def Nv.factory : Nv :=
  { serial := 1, uds := 0, roots := [0, 0, 0, 0], revoked := 0, mcCtr := 0, coreCtr := 0, owner := none,
    keys := List.replicate 8 { state := 0, key := [] }, keySeq := 0, cert := [], regionA := [], regionB := [],
    powerOn := 1, rowFuse := (0, 0), siteFuse := [], laneFuse := [], dlog := [], age := [], fmax := [],
    gains := List.replicate 64 0x8000, covered := 0xFFFF_FFFF_FFFF_FFFF, trip := none }

/-- Package control just after 48 V became valid with every strap low. -/
def Pkg.reset : Pkg :=
  { vin := true, whelp := false, sb33 := true, lowVoltage := false, i3cA := 0, channel := true, latched := false,
    hbmUp := false, computeOn := false, selfRef := false, ddrOn := false, softTrip := false, thermTrip := false, thermWarn := false,
    forcedW := false, forcedE := false, buOp := none, pwrSettled := false, niMap := [], hbmMap := [],
    spanRow := [], mcFw := none, fwW := none, fwE := none, coreFw := none,
    fwBank := none, fwOff := [] }

/-- The registers whose value after the first power-on differs from `regDefault`: the power-on count of both
controllers, the serial number and the calibration record (R456, Tables 18.4 to 18.6). -/
def resetRegs : List (Nat × W64) :=
  [(rMcPowerOn, 1), (rSecSerialLo, 1), (rPwrEstMap, 0xFFFF_FFFF_FFFF_FFFF)]
    ++ (List.range 64).map (fun n => (rPwrGain n, 0x8000))
    ++ [(mceBase + rMcPowerOn, 1)]

/-- The package right after its first power-on: every register at its value of Chapter 18, nothing in memory, no
command waiting. -/
def State.reset : State :=
  { regs := resetRegs, mem := [], bad := [], failing := [], nv := Nv.factory, sigs := [], pkg := Pkg.reset, mcw := McSt.reset,
    mce := McSt.reset, cores := [], ports := [], fab := Fab.reset, job := none, stp := StepSt.reset,
    hl := HlSt.reset, pwr := PwrSt.reset, sec := SecSt.reset, flocks := [], outbox := [], free := 0, pending := [] }

end Sys2Proof.Machine
end

