-- ==== Sys2Proof/Machine/Flits.lean ====
section
/-! DEFINITION. A flit as its 240 bytes, its CRC, and the line block that carries it (R238, R243, R244, Table 9.6). -/

namespace Sys2Proof
open Machine

/-- The payload of a flit, padded with zeros to 224 B. -/
def Machine.pad224 (bs : List Byte) : List Byte := bs.take 224 ++ List.replicate (224 - bs.length) 0#8

/-- The 96 header bits below the CRC (Table 9.6); reserved bits are 0. -/
def Flit.head (f : Flit) : Nat :=
  f.type % 2 ^ 4 + 2 ^ 4 * f.resend.toNat + 2 ^ 5 * f.last.toNat + 2 ^ 8 * (f.stream % 2 ^ 13) + 2 ^ 21 * (f.hop % 2 ^ 3)
    + 2 ^ 24 * (f.sendStamp % 2 ^ 24) + 2 ^ 48 * (f.nakStamp % 2 ^ 12) + 2 ^ 60 * f.nakValid.toNat
    + 2 ^ 64 * (f.seq % 2 ^ 32)

/-- CRC-32C of bytes 0–11 and 16–239 (Table 9.6, R244). -/
def Flit.check (f : Flit) : Nat := crc32c (leBytes 12 f.head ++ pad224 f.payload)

/-- The flit as sent: with its CRC. -/
def Flit.sealed (f : Flit) : Flit := { f with crc := BitVec.ofNat 32 f.check }

/-- The 240 bytes of a flit (R243). -/
def Flit.image (f : Flit) : List Byte := leBytes 12 f.head ++ leBytes 4 f.crc.toNat ++ pad224 f.payload

/-- Read the 240 bytes of a flit; reserved bits are not looked at. -/
def Machine.flitOf (bs : List Byte) : Flit :=
  let h := fieldLe bs 0 12
  { type := bitsOf h 0 4, resend := bitsOf h 4 1 == 1, last := bitsOf h 5 1 == 1, stream := bitsOf h 8 13
    hop := bitsOf h 21 3, sendStamp := bitsOf h 24 24, nakStamp := bitsOf h 48 12, nakValid := bitsOf h 60 1 == 1
    seq := bitsOf h 64 32, crc := BitVec.ofNat 32 (fieldLe bs 12 4), payload := slice bs 16 224 }

/-- TYPEs (Table 9.6): 0 IDLE, 1 DATA, 2 STOP, 3 IDLE_HOLD, 4 ANNOUNCE, 5 TRAIN; the others are reserved. -/
def Flit.good (f : Flit) : Bool := decide (f.type ≤ 5) && f.crc.toNat == f.check

/-! ### The line block (R238) -/

/-- The codeword of a byte of the 256 B block: even bytes belong to codeword 0, odd ones to codeword 1, the 240 bytes of the flit
first and the 8 parity bytes of each codeword after them (R238; the place of the parity bytes is log entry 117, DESIGN CHOICE:
no result depends on it). -/
def Machine.codewordOf (i : Nat) : Nat := i % 2

/-- Byte errors of a received block in one codeword. -/
def Machine.errorsIn (errs : List Nat) (k : Nat) : Nat := ((errs.eraseDups.filter (fun i => decide (i < 256) && codewordOf i == k))).length

/-- Each codeword of 128 bytes corrects up to 4 byte errors. -/
def Machine.fecOk (errs : List Nat) : Bool := decide (errorsIn errs 0 ≤ 4) && decide (errorsIn errs 1 ≤ 4)

/-- The block arrives with bytes that the code corrects. -/
def Machine.fecCorrects (errs : List Nat) : Bool := fecOk errs && errs.any (fun i => decide (i < 256))

/-! ### Hostlink messages (R328, R329, Table 12.3) -/

def Machine.opRspI : Nat := 0x08
def Machine.opRspS : Nat := 0x09
def Machine.opRspID : Nat := 0x0A
def Machine.opRspSD : Nat := 0x0B
def Machine.opDData : Nat := 0x18
def Machine.opDAck : Nat := 0x19
def Machine.opRdShared : Nat := 0x20
def Machine.opRdHeld : Nat := 0x21
def Machine.opRdOnce : Nat := 0x22
def Machine.opWrFull : Nat := 0x23
def Machine.opWrBack : Nat := 0x24
def Machine.opEvict : Nat := 0x25
def Machine.opWake : Nat := 0x26

/-- Channel of a message the device sends (Table 12.3): 1 SRSP, 2 REQ, 3 RSP. -/
def Machine.hlChannel (op : Nat) : Nat := if op < 0x10 then 1 else if op < 0x20 then 3 else 2

/-- 16 B units of a message with its header. -/
def Machine.HlMsg.units (m : HlMsg) : Nat := 1 + m.data.length / 16

/-- 16 B units a flit's payload holds (R326, R329). -/
def Machine.flitUnits : Nat := 14

/-! ### Hostlink flits (R326, R329, Tables 12.1 to 12.3) -/

/-- The 96 header bits below the CRC (Table 12.1). -/
def HlFlit.head (f : HlFlit) : Nat :=
  f.type % 2 ^ 4 + 2 ^ 4 * (f.lseq % 2 ^ 12) + 2 ^ 16 * (f.ackSeq % 2 ^ 12) + 2 ^ 28 * f.ackValid.toNat + 2 ^ 29 * f.nak.toNat
    + 2 ^ 32 * (f.credit % 2 ^ 32)

def HlFlit.check (f : HlFlit) : Nat := crc32c (leBytes 12 f.head ++ pad224 f.payload)
def HlFlit.sealed (f : HlFlit) : HlFlit := { f with crc := BitVec.ofNat 32 f.check }
def HlFlit.image (f : HlFlit) : List Byte := leBytes 12 f.head ++ leBytes 4 f.crc.toNat ++ pad224 f.payload

/-- The OPs of Table 12.3; every other value is reserved. -/
def Machine.hlOps : List Nat :=
  [0x01, 0x02, 0x08, 0x09, 0x0A, 0x0B, 0x10, 0x11, 0x12, 0x13, 0x18, 0x19, 0x20, 0x21, 0x22, 0x23, 0x24, 0x25, 0x26, 0x30, 0x31]

/-- A message as its 16 B header and its LEN units of data (Table 12.2). -/
def Machine.HlMsg.image (m : HlMsg) : List Byte :=
  leBytes 1 m.op ++ leBytes 1 (m.data.length / 16) ++ leBytes 2 m.tag ++ leBytes 8 m.addr ++ leBytes 2 m.status
    ++ leBytes 1 m.param ++ [0#8] ++ m.data.take (m.data.length / 16 * 16)

/-- The payload of a flit: its messages one after another, then zeros, whose first byte is the OP 0x00 that ends it. -/
def Machine.hlPayload (ms : List HlMsg) : List Byte := pad224 (ms.flatMap HlMsg.image)

/-- The messages of a payload, up to the header with OP 0x00; none where an OP is reserved. `fuel` bounds their number. -/
def Machine.readMsgs : (fuel : Nat) → List Byte → Option (List HlMsg)
  | 0, _ => some []
  | k + 1, bs =>
    let op := fieldLe bs 0 1
    if bs.length < 16 ∨ op = 0 then some []
    else if !hlOps.contains op then none
    else
      let n := 16 * fieldLe bs 1 1
      (readMsgs k (bs.drop (16 + n))).map (fun ms =>
        { op, tag := fieldLe bs 2 2, addr := fieldLe bs 4 8, status := fieldLe bs 12 2, param := fieldLe bs 14 1
          data := (bs.drop 16).take n } :: ms)

/-- Messages of a MSG flit; those of another TYPE carry none. -/
def HlFlit.msgs (f : HlFlit) : Option (List HlMsg) := if f.type = 1 then readMsgs flitUnits f.payload else some []

/-- TYPEs of Table 12.1: 0 IDLE, 1 MSG, 5 TRAIN. A reserved TYPE or OP, or a bad CRC, makes a failed flit. -/
def HlFlit.good (f : HlFlit) : Bool := [0, 1, 5].contains f.type && f.crc.toNat == f.check && f.msgs.isSome

/-- Channel of any message of Table 12.3: 0 SNP, 1 SRSP, 2 REQ, 3 RSP. -/
def Machine.anyChannel (op : Nat) : Nat := if op < 0x08 then 0 else if 0x30 ≤ op then 3 else if op < 0x18 ∧ 0x10 ≤ op then 2 else hlChannel op

/-- Units that the messages of a flit take of each channel. -/
def Machine.unitsTaken (ms : List HlMsg) : List Nat :=
  (List.range 4).map (fun c => ((ms.filter (fun m => anyChannel m.op == c)).map HlMsg.units).sum)

/-- A flit that a port sends, with its current ACK, NAK and CREDIT fields (R327, R328). -/
def Machine.PortSt.flitWith (v : PortSt) (type lseq : Nat) (ms : List HlMsg) : HlFlit :=
  HlFlit.sealed
    { type, lseq, ackSeq := (v.rxNext + 4095) % 4096, ackValid := v.rxAny, nak := v.rxNak
      credit := (List.range 4).foldl (fun n c => n + min 255 (v.owed.getD c 0) * 2 ^ (8 * c)) 0, payload := hlPayload ms }

/-- The flit for an entry of the replay buffer. -/
def Machine.PortSt.hlFlit (v : PortSt) (e : HlTx) : HlFlit := v.flitWith 1 e.lseq e.msgs

/-- The credit that a flit has returned is owed no more. -/
def Machine.PortSt.paid (v : PortSt) : PortSt := { v with owed := v.owed.map (fun n => n - 255) }

/-- This side's initial credits for SNP, SRSP, REQ and RSP (R328): 32 units of SNP, none for SRSP; the others are free. -/
def Machine.ownCredits : List Nat := [32, 0, Config.reqCredits, Config.rspCredits]

end Sys2Proof
end

