-- ==== Sys2Proof/Machine/Ops.lean ====
section
/-! DEFINITION. The named operations over registers, memory, cores, ports and the outbox that every command uses, and
the shared operations the spec describes once: halting a core (R130, R422), raising a package fault and sending STOP
(R262, R265, R424), entering HALTED, in-band interrupts (R468), completion and event records (R343, R349). -/

namespace Sys2Proof.Machine
open Sys2Proof

/-- The outcome of a step of this block. -/
abbrev Res := Host.Outcome State Fault Refusal

/-! ### Registers -/

def State.reg (s : State) (a : Nat) : Nat := (mapGet regDefault s.regs a).toNat

def State.setReg (s : State) (a v : Nat) : State :=
  { s with regs := mapSet regDefault s.regs a (BitVec.ofNat 64 v) }

/-- A field of a register. -/
def State.fld (s : State) (a lo w : Nat) : Nat := bitsOf (s.reg a) lo w

/-- `v` with the field at `lo` of width `w` replaced by `x`. -/
def putBits (v lo w x : Nat) : Nat := v - 2 ^ lo * bitsOf v lo w + 2 ^ lo * (x % 2 ^ w)

def State.setFld (s : State) (a lo w x : Nat) : State := s.setReg a (putBits (s.reg a) lo w x)

/-- Add to a counting field that holds at its largest value. -/
def State.addFld (s : State) (a lo w n : Nat) : State := s.setFld a lo w (satAdd (2 ^ w - 1) (s.fld a lo w) n)

/-- Every register whose address satisfies `p` returns to its reset value. -/
def State.dropRegs (s : State) (p : Nat → Bool) : State := { s with regs := mapDrop p s.regs }

def b2n (b : Bool) : Nat := if b then 1 else 0

/-- A logical core's window register and its fields. -/
def State.cfld (s : State) (n o lo w : Nat) : Nat := s.fld (rCore n o) lo w
def State.setCfld (s : State) (n o lo w x : Nat) : State := s.setFld (rCore n o) lo w x
def State.addCfld (s : State) (n o lo w x : Nat) : State := s.addFld (rCore n o) lo w x

/-! ### Time and package state -/

/-- Current pack time in slots. -/
def State.now (s : State) : Nat := s.reg rPfPackTime

/-- BU_STATE.STATE (Table 14.1). OFF is no register value: see `State.off`. -/
def State.bu (s : State) : Nat := s.fld rBuState 0 4

/-- The package answers nothing: no 48 V, a latched hard trip, or WHELP not reached since power-on (R22, R371, R399). -/
def State.dark (s : State) : Bool := !s.pkg.vin || s.pkg.latched

def stWhelp : Nat := 1
def stInspect : Nat := 2
def stMap : Nat := 3
def stLoad : Nat := 4
def stReady : Nat := 5
def stRun : Nat := 6
def stHalted : Nat := 7

def State.setBu (s : State) (v : Nat) : State := s.setFld rBuState 0 4 v

/-- A job is running. -/
def State.running (s : State) : Bool := s.bu == stRun

/-- Draw a free value: the counter advances, so that two draws differ (log entry 10). -/
def State.draw (s : State) : W64 × State := (Config.freeWord s.free, { s with free := s.free + 1 })

def State.emit (s : State) (o : Out) : State := { s with outbox := s.outbox ++ [o] }

/-! ### Device memory (R13, R300) -/

/-- What a byte of device memory that nothing has written reads as (log entry 5, DESIGN CHOICE). -/
def memDefault (_ : Nat) : Byte := 0

def State.byte (s : State) (a : Nat) : Byte := mapGet memDefault s.mem a

def State.load (s : State) (a n : Nat) : List Byte := mapGetRun memDefault s.mem a n

/-- Aligned 64-byte blocks that a range touches. -/
def blocksOf (a n : Nat) : List Nat :=
  if n = 0 then [] else (List.range ((a + n - 1) / 64 - a / 64 + 1)).map (fun i => (a / 64 + i) * 64)

/-- A block wholly covered by a write. -/
def coversBlock (a n blk : Nat) : Bool := a ≤ blk && blk + 64 ≤ a + n

/-- Store bytes; a block written whole reads good afterwards (R312). -/
def State.store (s : State) (a : Nat) (bs : List Byte) : State :=
  { s with mem := mapSetRun memDefault s.mem a bs
           bad := s.bad.filter (fun blk => !coversBlock a bs.length blk) }

/-- The first block of a range that reads uncorrectable. -/
def State.badIn (s : State) (a n : Nat) : Option Nat := (blocksOf a n).find? (fun b => s.bad.contains b)

/-- A block of a write that is not written: it is covered only in part and reads uncorrectable, or its write fails its retry
(R311, R312). -/
def State.blocked (s : State) (a n blk : Nat) : Bool :=
  (s.bad.contains blk && !coversBlock a n blk) || s.failing.contains blk

/-- The first block of a write that is not written. -/
def State.badPart (s : State) (a n : Nat) : Option Nat := (blocksOf a n).find? (s.blocked a n)

/-- Write bytes block by block: a block that is not written stays as it was, and reads uncorrectable from then on if its write
failed; the first such block is reported (R311, R312). -/
def State.storeParts (s : State) (a : Nat) (bs : List Byte) : Option Nat × State :=
  match s.badPart a bs.length with
  | none => (none, s.store a bs)
  | some b =>
    let all := blocksOf a bs.length
    let s' := { s with bad := s.bad ++ all.filter (fun k => s.failing.contains k && !s.bad.contains k) }
    (some b, (all.filter (fun k => !s.blocked a bs.length k)).foldl (fun s k =>
      let lo := max a k
      let hi := min (a + bs.length) (k + 64)
      s.store lo ((bs.drop (lo - a)).take (hi - lo))) s')

def stackBytes : Nat := 0x10_0000_0000
def hbmTop : Nat := 0x80_0000_0000

/-- Contents the spec leaves unspecified (R364, R400): every listed byte at an address of `p` becomes a free value (log
entry 34). -/
def State.scramble (s : State) (p : Nat → Bool) : State :=
  let f (a : Nat) : Byte := BitVec.ofNat 8 (Config.freeWord (s.free + a)).toNat
  { s with mem := (s.mem.map (fun c => if p c.1 then (c.1, f c.1) else c)).filter (fun c => c.2 != memDefault c.1)
           free := s.free + 2 ^ 48 }
def ddrBase : Nat := 0x1000_0000_0000
def stackReserved : Nat := 0xF_F800_0000

/-- The grade has the DDR5 slow tier (R5). -/
def slowTier : Bool := Config.grade != 3

/-- C of R300 in bytes. -/
def State.ddrC (s : State) : Nat :=
  if slowTier then s.fld rMemDdr 8 9 * 2 ^ 30 else 0

/-- A byte range lies in usable HBM of one stack (R301), or is part of it. -/
def inHbm (a : Nat) : Bool := a < hbmTop && a % stackBytes < stackReserved
def State.inDdr (s : State) (a : Nat) : Bool := ddrBase ≤ a && a < ddrBase + 12 * s.ddrC
/-- An address of the map of Table 11.1 outside the reserved area. -/
def State.mapped (s : State) (a : Nat) : Bool := inHbm a || s.inDdr a

/-- Every 64-byte line of a range is mapped. -/
def State.mappedRange (s : State) (a n : Nat) : Bool := (blocksOf a n).all s.mapped

/-- Record an uncorrectable error; the first since the last clear is kept (R310, Table 11.11). -/
def State.memErr (s : State) (addr source : Nat) (scrub : Bool) : State :=
  let s := if slowTier then s.addFld rMemScrub 16 16 1 else s
  if s.fld rMemErr 48 1 = 1 then s
  else s.setReg rMemErr (addr % 2 ^ 48 + 2 ^ 48 + 2 ^ 49 * b2n scrub + 2 ^ 50 * source)

/-- The blocks whose writes fail their retry. -/
def failedBlocks (m : MemMeet) : List Nat := m.writes.map (fun b => b / 64 * 64)

/-- What a command's memory errors leave: the blocks that became uncorrectable, the blocks it cannot write, and the counts of
MEM_ECC_COUNT (R309 to R311, Table 11.10). -/
def State.meeting (s : State) (m : MemMeet) : State :=
  let s := if m.hbm = 0 then s else s.addFld rMemEcc 0 32 m.hbm
  let s := if m.ddr = 0 then s else s.addFld rMemEcc 32 24 m.ddr
  let s := if m.sram = 0 then s else s.addFld rMemEcc 56 8 m.sram
  { s with bad := s.bad ++ ((m.reads.map (fun b => b / 64 * 64)).eraseDups.filter (fun b => !s.bad.contains b))
           failing := failedBlocks m }

/-- Run a command that meets memory errors. -/
def State.meet (s : State) (m : MemMeet) (k : State → State) : State :=
  if m = { } then k s else { k (s.meeting m) with failing := [] }

/-! ### Controllers -/

def mcKey : Mc → Nat
  | .west => 0
  | .east => mceBase

def mcOther : Mc → Mc
  | .west => .east
  | .east => .west

def State.mc (s : State) : Mc → McSt
  | .west => s.mcw
  | .east => s.mce

def State.setMc (s : State) (m : Mc) (v : McSt) : State :=
  match m with
  | .west => { s with mcw := v }
  | .east => { s with mce := v }

def State.lfld (s : State) (m : Mc) (lo w : Nat) : Nat := s.fld (mcKey m + rMcLeadStat) lo w
def State.setLfld (s : State) (m : Mc) (lo w x : Nat) : State := s.setFld (mcKey m + rMcLeadStat) lo w x

/-- ROLE: 0 none, 1 leader, 2 follower, 3 self-check failed. -/
def State.role (s : State) (m : Mc) : Nat := s.lfld m 1 2
def State.conflict (s : State) (m : Mc) : Bool := s.lfld m 4 1 == 1
def State.anyConflict (s : State) : Bool := s.conflict .west || s.conflict .east

/-- The controller whose side BU_STATE.LEADER names. -/
def State.leader (s : State) : Mc := if s.fld rBuState 6 1 = 1 then .east else .west

/-- Raise an in-band interrupt at a controller: sent when enabled and SB33 is valid, else held as the latest (R468). -/
def State.ibi (s : State) (m : Mc) (code : Nat) : State :=
  if (s.mc m).ibiOn && s.pkg.sb33 then s.emit (.ibi m code)
  else s.setMc m { s.mc m with ibiHeld := some code }

/-- Both live controllers raise an in-band interrupt (R468). -/
def State.ibiBoth (s : State) (code : Nat) : State :=
  let s := if s.role .west = 3 then s else s.ibi .west code
  if s.role .east = 3 then s else s.ibi .east code

/-! ### Ports -/

def portDefault (_ : Nat) : PortSt := PortSt.reset
def State.port (s : State) (p : Nat) : PortSt := mapGet portDefault s.ports p
def State.setPort (s : State) (p : Nat) (v : PortSt) : State := { s with ports := mapSet portDefault s.ports p v }

def State.mode (s : State) (p : Nat) : Nat := s.fld (rPortMode p) 0 2
def State.portState (s : State) (p : Nat) : Nat := s.fld (rPortStat p) 0 3
def State.portUp (s : State) (p : Nat) : Bool := s.portState p == 6
def allPorts : List Nat := List.range 18
def State.fabricUp (s : State) : List Nat := allPorts.filter (fun p => s.mode p == 1 && s.portUp p)
def State.hlPorts (s : State) : List Nat := allPorts.filter (fun p => s.mode p == 2)
/-- The port a queue's PORT field names: 0 the lower-numbered HOSTLINK port, 1 the other. -/
def State.hlPort (s : State) (b : Nat) : Option Nat := s.hlPorts[b]?

/-! ### Cores -/

def coreDefault (_ : Nat) : CoreSt := CoreSt.reset
def State.core (s : State) (n : Nat) : CoreSt := mapGet coreDefault s.cores n
def State.setCore (s : State) (n : Nat) (c : CoreSt) : State := { s with cores := mapSet coreDefault s.cores n c }

def csReset : Nat := 0
def csIdle : Nat := 1
def csRun : Nat := 2
def csHeel : Nat := 3
def csBreak : Nat := 4
def csHalted : Nat := 5
def csSaving : Nat := 6
def csUnmapped : Nat := 7

/-- CORE_STATE.STATE. -/
def State.cstate (s : State) (n : Nat) : Nat := s.cfld n oState 0 3
def State.setCstate (s : State) (n v : Nat) : State := s.setCfld n oState 0 3 v

def numCores : Nat := if Config.grade = 2 then 1920 else 2048
def perDie : Nat := if Config.grade = 2 then 960 else 1024

/-- The committed map entry of a logical core; 0 when no map is committed. -/
def State.mapEntry (s : State) (n : Nat) : Nat := s.pkg.niMap.getD n 0
def State.mapped? (s : State) (n : Nat) : Bool := bitsOf (s.mapEntry n) 15 1 == 1

/-- Logical cores the program map uses. -/
def usedCores (j : Job) : List Nat :=
  (List.range j.progMap.length).filter (fun n => (j.progMap.getD n (0xFFFF_FFFF, 0)).1 != 0xFFFF_FFFF)

def State.used (s : State) : List Nat := (s.job.map usedCores).getD []

/-- Data SRAM of a core: 1 MiB, an unwritten byte reads 0 (log entry 5). -/
def State.sramRead (s : State) (n off len : Nat) : List Byte := mapGetRun memDefault (s.core n).sram off len

/-- Two byte ranges share a byte. -/
def overlap (a n b m : Nat) : Bool := decide (a < b + m) && decide (b < a + n)

/-- Note the last writer of a range of data SRAM (R87): entries wholly inside the range are forgotten; a writer other than a
RETRIEVE is noted only where it overwrites what a RETRIEVE brought. -/
def CoreSt.noteFeed (c : CoreSt) (x : Feed) : CoreSt :=
  if x.ret.isNone && !c.feeds.any (fun f => overlap x.off x.len f.off f.len) then c
  else { c with feeds := c.feeds.filter (fun f => !(decide (x.off ≤ f.off) && decide (f.off + f.len ≤ x.off + x.len)))
                  ++ [x] }

/-- Write data SRAM by a command other than RETRIEVE. -/
def State.sramWrite (s : State) (n off : Nat) (bs : List Byte) : State :=
  let c := s.core n
  s.setCore n ({ c with sram := mapSetRun memDefault c.sram off bs }.noteFeed { off, len := bs.length, ret := none })

/-! ### Hostlink messages and records -/

/-- The next message to leave a port: SRSP, which needs no credit, then RSP, then REQ (R328, R329). -/
def PortSt.nextMsg (v : PortSt) : Option HlMsg :=
  let first (c : Nat) : Option HlMsg := v.txq.find? (fun m => hlChannel m.op == c)
  let ready (c : Nat) : Option HlMsg := (first c).filter (fun m => m.units ≤ v.credits.getD c 0)
  (first 1).orElse (fun _ => (ready 3).orElse (fun _ => ready 2))

/-- Send the next waiting message: in the MSG flit being filled, which has `room` units left, or in a new one with the next
LSEQ, if the replay buffer has room (R327, R329; log entry 20). Answers the state and the room then left. -/
def State.pumpOnce (p : Nat) (sr : State × Nat) : State × Nat :=
  let s := sr.1
  let v := s.port p
  match v.nextMsg with
  | none => sr
  | some m =>
    let new := decide (sr.2 < m.units)
    if !s.portUp p || (new && decide (512 ≤ v.unacked.length)) then sr
    else
      let c := hlChannel m.op
      let v := if new then { v with txNext := (v.txNext + 1) % 4096, unacked := v.unacked ++ [{ lseq := v.txNext, sends := 1, msgs := [m] }] }
        else { v with unacked := v.unacked.dropLast
          ++ (v.unacked.getLast?.map (fun (e : HlTx) => { e with msgs := e.msgs ++ [m] })).toList }
      let s := s.setPort p { v with
        txq := v.txq.erase m
        credits := if c = 1 then v.credits else v.credits.set c (v.credits.getD c 0 - m.units) }
      (s.emit (.hostlink p m.op m.tag m.addr m.status m.param m.data), (if new then flitUnits else sr.2) - m.units)

/-- Put a Hostlink flit on a port: it returns the credit owed (R328). -/
def State.sendHl (s : State) (p : Nat) (f : HlFlit) : State := (s.emit (.hlFlit p f.image)).setPort p (s.port p).paid

/-- Send what credit and replay space allow: the messages are laid into flits, and then the flits go out in order. -/
def State.pump (s : State) (p : Nat) : State :=
  let t := ((s.port p).txq.foldl (fun sr _ => State.pumpOnce p sr) (s, 0)).1
  ((t.port p).unacked.drop (s.port p).unacked.length).foldl (fun s e => s.sendHl p ((s.port p).hlFlit e)) t

def State.hlSend (s : State) (p : Nat) (m : HlMsg) : State :=
  (s.setPort p { s.port p with txq := (s.port p).txq ++ [m] }).pump p

/-- A request to the host on a port, kept outstanding until its answer (R331). -/
def State.request (s : State) (p op addr param : Nat) (use : ReqUse) (data : List Byte) : State :=
  let v := s.port p
  let s := s.setPort p { v with reqs := v.reqs ++ [{ tag := v.tagNext, op, addr, stale := false, use }]
                                tagNext := (v.tagNext + 1) % 2 ^ 16 }
  s.hlSend p { op, tag := v.tagNext, addr, status := 0, param, data }

/-- A 64-byte record with the fields of Table 12.9 (one list of bytes per field, in order). -/
def recordBytes (kind flags code tag w8 w10 w12 : Nat) (q16 q24 : Nat) (rest : List Byte) : List Byte :=
  leBytes 1 kind ++ leBytes 1 flags ++ leBytes 2 code ++ leBytes 4 tag ++ leBytes 2 w8 ++ leBytes 2 w10
    ++ leBytes 4 w12 ++ leBytes 8 q16 ++ leBytes 8 q24 ++ (rest ++ List.replicate (32 - rest.length) 0#8)

/-- `bs` with FLAGS bit 0 (PHASE) set as pass `p / 2^n` of a ring asks (R339). -/
def withPhase (bs : List Byte) (p n : Nat) : List Byte :=
  match bs with
  | k :: f :: t => k :: (f ||| BitVec.ofNat 8 ((p / 2 ^ n + 1) % 2)) :: t
  | _ => bs

/-- Post an EVENT record, or drop and count it (R349, Table 12.10). -/
def State.event (s : State) (ev code core step value : Nat) : State :=
  let n := s.fld rHlEvqCfg 1 4
  match s.hlPort (s.fld rHlEvqCfg 5 1) with
  | some p =>
    if s.fld rHlEvqCfg 0 1 = 1 ∧ s.hl.evWritten - s.hl.evHead < 2 ^ n then
      let r := recordBytes 3 (2 ^ 7 * b2n s.hl.evLost) code 0 ev core 0 step value []
      let addr := 2 ^ 12 * s.fld rHlEvqBase 12 40 + 64 * (s.hl.evWritten % 2 ^ n)
      let r := withPhase r s.hl.evWritten n
      let s := { s with hl := { s.hl with evWritten := s.hl.evWritten + 1, evLost := false } }
      s.request p opWrFull addr 1 .eventRec r
    else { s with hl := { s.hl with evLost := true } }.addFld rHlEvqStat 0 16 1
  | none => { s with hl := { s.hl with evLost := true } }.addFld rHlEvqStat 0 16 1

/-! ### Halts, faults and STOP -/

/-- Own herd index. -/
def State.herdIndex (s : State) : Nat := s.fld rPfHerd 0 11

/-- The first of `cs`, the commands that core `n` has read. When it has read none, the command that it would read next is known to the
core's own stream alone, whose encoding is private to the stepping (R124): its offset and tag are free values (log entry 14). -/
def State.firstAttr (s : State) (n : Nat) (cs : List Instr) : Attr × State :=
  match cs.findSome? Instr.attr? with
  | some a => (a, s)
  | none =>
    let (x, s) := s.draw
    ({ core := n, offset := bitsOf x.toNat 0 32, tag := bitsOf x.toNat 32 16, kind := .ctrl, defined := true,
       engines := 0 }, s)

/-- The command a halt record names when no command causes it (R422): the oldest unretired command of the window, or the
next of the stream. -/
def State.nextAttr (s : State) (n : Nat) : Attr × State :=
  s.firstAttr n ((s.core n).window.map (·.cmd) ++ (s.core n).stream)

/-- Segment ID of a core's active bank. -/
def State.activeSeg (s : State) (n : Nat) : Nat :=
  if s.cfld n oBank 0 2 = 3 then s.cfld n oBank 16 16
  else if s.cfld n oBank 2 2 = 3 then s.cfld n oBank 32 16 else 0

/-- Commands older than the halting or freezing one that have not retired. -/
def CoreSt.ahead (c : CoreSt) : Nat := if c.ending.isSome then c.window.length else 0

/-- Write a core's halt record once per RUN (R422, Table 16.2): COUNT is that of the next command to retire, or of the command before
which a pending halt or freeze has stopped the stream. -/
def State.haltRecord (s : State) (n code : Nat) (own noEff : Bool) (a : Attr) : State :=
  if s.cfld n oHaltInfo 16 1 = 1 then s
  else
    let s := s.setReg (rCore n oHaltInfo)
      (code % 2 ^ 16 + 2 ^ 16 + 2 ^ 17 * b2n own + 2 ^ 18 * b2n noEff + 2 ^ 32 * (a.offset % 2 ^ 32))
    let s := s.setReg (rCore n oHaltCount) (s.reg (rCore n oCount) + (s.core n).ahead + 1)
    let s := s.setReg (rCore n oHaltTag)
      (a.tag % 2 ^ 16 + 2 ^ 16 * s.activeSeg n + 2 ^ 32 * (s.stp.step % 2 ^ 32))
    s.setReg (rCore n oHaltTime) s.now

/-- The banks of a core that enters IDLE or HALTED: no bank is ACTIVE any more (R140). The spec does not name the state that
the ACTIVE bank takes: the model makes it READY and keeps its segment (log entry 110, DESIGN CHOICE). -/
def State.bankRest (s : State) (n : Nat) : State :=
  let s := if s.cfld n oBank 0 2 = 3 then s.setCfld n oBank 0 2 2 else s
  if s.cfld n oBank 2 2 = 3 then s.setCfld n oBank 2 2 2 else s

/-- ACTIVE_BANK of CORE_STATE follows the bank roles. -/
def State.showBank (s : State) (n : Nat) : State := s.setCfld n oState 3 1 (b2n (s.cfld n oBank 2 2 == 3))

/-- A core stops fetching: its window and the commands read behind it are dropped, WINDOW shows 0. -/
def State.dropWindow (s : State) (n : Nat) : State :=
  (s.setCore n { s.core n with window := [], stream := [], ending := none }).setCfld n oState 4 7 0

/-- A core enters HALTED: it issues nothing more; idle islands run at 1.45 GHz, panting when enabled (R130, R411). -/
def State.coreToHalted (s : State) (n : Nat) : State :=
  let s := s.dropWindow n
  let s := s.setCore n { s.core n with panting := s.fld rPwrPant 0 1 == 1 }
  (s.bankRest n).setCstate n csHalted

/-- Is a core fetching or waiting at a heel? -/
def State.coreLive (s : State) (n : Nat) : Bool := s.cstate n == csRun || s.cstate n == csHeel

/-- A core's record at a stop (R423): its own code where its own condition arose before, also when commands older than the halting
or freezing one have not completed; else `code` with OWN = 0 (log entry 133). -/
def State.stopRecord (s : State) (code n : Nat) : State :=
  match (s.core n).ending with
  | some (.halt a own noEff _) => s.haltRecord n own true noEff a
  | some (.freeze a own _ _ mine _) => s.haltRecord n own mine false a
  | none =>
    let (a, s) := s.nextAttr n
    s.haltRecord n code false false a

/-- Every live used core stops (R263, R423). -/
def State.stopCores (s : State) (code : Nat) : State :=
  s.used.foldl (fun s n => if s.coreLive n then (s.stopRecord code n).coreToHalted n else s) s

/-- Halts that wait for older commands (R130) as faults of their cores: core, code and detection pack time. -/
def State.ownHalts (s : State) : List (Nat × Nat × Nat) :=
  s.used.filterMap (fun n => match (s.core n).ending with
    | some (.halt _ code _ time) => if s.coreLive n then some (n, code, time) else none
    | _ => none)

/-- A STOP as the cause: the one detected first, of equal times the lowest origin, among those of before the halt, the slot of
the halt included (R265); after it, one for each origin is counted (Table 9.9, log entry 57). -/
def State.recordStop (s : State) (origin reason time : Nat) (loc : Bool) : State :=
  if s.bu = stHalted ∧ s.fab.haltedAt ≠ some s.now then s.addFld rPfStopCause 48 16 1
  else
    let held := s.fld rPfStopCause 32 1 = 1
    let t := s.reg rPfStopTime
    if held ∧ (t < time ∨ t = time ∧ s.fld rPfStopCause 0 11 ≤ origin) then s
    else
      let later := s.fld rPfStopCause 48 16
      let s := s.setReg rPfStopCause
        (origin % 2 ^ 11 + 2 ^ 16 * (reason % 2 ^ 16) + 2 ^ 32 + 2 ^ 33 * b2n loc + 2 ^ 48 * later)
      s.setReg rPfStopTime time

/-- Start sending a STOP on a port from the next slot on, for `left` slots where it is not yet sent there.
`State.fillPort` gives the slots that carry it. -/
def State.stopOn (s : State) (origin reason time : Nat) (left : Option Nat) (p : Nat) : State :=
  let v := s.port p
  let left := ((v.stops.find? (fun r => r.origin == origin)).map (·.left)).getD left
  let s := s.setPort p { v with stops := (v.stops.filter (fun r => r.origin != origin))
    ++ [⟨origin, reason, time, s.now + 1, left⟩] }
  s.emit (.stop p origin reason time)

/-- Start sending a STOP on every port of a list: the package's first STOP until the peer's comes, that of a later origin for 64
slots at most (R262, R263). -/
def State.sendStop (s : State) (ports : List Nat) (origin reason time : Nat) : State :=
  ports.foldl (fun s p =>
    s.stopOn origin reason time (if s.fab.originsFwd.isEmpty && !s.fab.stopOut then none else some 64) p) s

/-- Complete a descriptor: decide its outcome; DESC_COMPLETE posts the record. -/
def State.sq (s : State) (q : Nat) : SqSt := mapGet (fun _ => SqSt.reset) s.hl.sqs q
def State.setSq (s : State) (q : Nat) (v : SqSt) : State :=
  { s with hl := { s.hl with sqs := mapSet (fun _ => SqSt.reset) s.hl.sqs q v } }
def State.cq (s : State) (q : Nat) : CqSt := mapGet (fun _ => CqSt.reset) s.hl.cqs q
def State.setCq (s : State) (q : Nat) (v : CqSt) : State :=
  { s with hl := { s.hl with cqs := mapSet (fun _ => CqSt.reset) s.hl.cqs q v } }

def State.desc? (s : State) (q i : Nat) : Option Desc := (s.sq q).descs.find? (fun d => d.i == i)

/-- Decide descriptor i's outcome once: code, bytes moved, ARRIVED_AT_DEADLINE. -/
def State.decideDesc (s : State) (q i code bytes : Nat) (atDl : Bool) : State :=
  let v := s.sq q
  s.setSq q { v with descs := v.descs.map (fun d =>
    if d.i == i && d.done.isNone then { d with done := some (code, bytes, atDl) } else d) }

/-- Mark descriptor i started. -/
def State.startDesc (s : State) (q i : Nat) : State :=
  let v := s.sq q
  s.setSq q { v with descs := v.descs.map (fun d => if d.i == i then { d with started := true } else d) }

/-- The job leaves RUN: waiting SNAP_REQ, INPUT and CTX_SAVE descriptors end with DESC_NO_JOB (R195, R345). -/
def State.dropJobDescs (s : State) : State :=
  let s := s.hl.snapReqs.foldl (fun s r => s.decideDesc r.1 r.2.1 cDescNoJob 0 false) s
  let s := s.hl.inputs.foldl (fun s r => r.descs.foldl (fun s d => s.decideDesc d.1 d.2.1 cDescNoJob 0 false) s) s
  let s := s.hl.ctxReqs.foldl (fun s r => s.decideDesc r.1 r.2.1 cDescNoJob 0 false) s
  let s := s.hl.waitIn.foldl (fun s r => s.decideDesc r.1 r.2 cDescNoJob 0 false) s
  { s with hl := { s.hl with snapReqs := [], inputs := [], waitIn := [], ctxReqs := [] } }

/-- The package enters HALTED at the end of RUN (Table 14.1): ARM clears (Table 16.7). The targets come back to 1.45 GHz by a step in
each beat (R413). -/
def State.enterHalted (s : State) : State :=
  let s := s.dropJobDescs
  let s := s.setFld rPfDbgCtrl 0 1 0
  s.setBu stHalted

/-- Cores that took the package's reason at the halt take a lower-ranked fault of the same slot in its place (R423,
R424). -/
def State.recodeStops (s : State) (old new : Nat) : State :=
  s.used.foldl (fun s n =>
    if s.cfld n oHaltInfo 16 2 = 1 ∧ s.cfld n oHaltInfo 0 16 = old ∧ s.reg (rCore n oHaltTime) = s.now
    then s.setCfld n oHaltInfo 0 16 new else s) s

/-- PF_FAULT's ordering of faults of one slot: code, unit, index (R424). -/
def faultRank (reason unit index : Nat) : Nat := reason * 2 ^ 14 + unit % 8 * 2 ^ 11 + index % 2 ^ 11

/-- Write PF_FAULT and its time (R424, Table 16.3). -/
def State.recordFault (s : State) (reason unit index time later : Nat) : State :=
  (s.setReg rPfFault
    (reason % 2 ^ 16 + 2 ^ 16 + 2 ^ 17 * (unit % 8) + 2 ^ 20 * (index % 2 ^ 11) + 2 ^ 48 * later)).setReg
    rPfFaultTime time

/-- As origin of a fault detected at `time`: record the cause, send STOP, stop issue and enter HALTED (R262, R265, R421). -/
def State.stopAsOrigin (s : State) (reason time : Nat) : State :=
  let s := s.recordStop s.herdIndex reason time true
  let s := s.sendStop s.fabricUp s.herdIndex reason time
  let s := { s with fab := { s.fab with stopOut := true, issueStopped := true, haltedAt := some s.now } }
  (s.stopCores reason).enterHalted

/-- A fault detected at `time` enters PF_FAULT (R424, Table 16.3): the first one after LOAD, of two the one of the earlier slot, of one
detection slot the one with the lowest code, unit and index; the others add to LATER. -/
def State.noteFault (s : State) (reason unit index time : Nat) : State :=
  if s.fld rPfFault 16 1 = 0 then (s.recordFault reason unit index time 0).ibiBoth reason
  else
    let later := satAdd 0xFFFF (s.fld rPfFault 48 16) 1
    let t := s.reg rPfFaultTime
    if time < t ∨ time = t
        ∧ faultRank reason unit index < faultRank (s.fld rPfFault 0 16) (s.fld rPfFault 17 3) (s.fld rPfFault 20 11) then
      s.recordFault reason unit index time later
    else s.setFld rPfFault 48 16 later

/-- The halts that wait for older commands enter PF_FAULT. -/
def State.noteHalts (s : State) : State := s.ownHalts.foldl (fun s e => s.noteFault e.2.1 0 e.1 e.2.2) s

/-- The package's STOP, which has not left yet in the slot of its fault, takes the reason `new`: it is sent once and carries the fault
that PF_FAULT holds (R424). -/
def State.restop (s : State) (new : Nat) : State :=
  (List.range 18).foldl (fun s p => s.setPort p { s.port p with stops := (s.port p).stops.map (fun r =>
    if r.origin = s.herdIndex ∧ s.now < r.start then { r with reason := new } else r) }) s

/-- A fault of the halting slot has taken the first one's place in PF_FAULT: the cores, the STOP and, where this package's own STOP is the
recorded cause, PF_STOP_CAUSE take its reason (R265, R423, R424). -/
def State.recode (s : State) (old new : Nat) : State :=
  let s := s.recodeStops old new
  let s := if s.fld rPfStopCause 33 1 = 1 then s.setFld rPfStopCause 16 16 new else s
  s.restop new

/-- The halts that wait become the package's fault: it stops, as R130 asks once a core has halted, or because a STOP has come. -/
def State.endHalts (s : State) : State :=
  if s.running && !s.ownHalts.isEmpty then
    let s := s.noteHalts
    s.stopAsOrigin (s.fld rPfFault 0 16) (s.reg rPfFaultTime)
  else s

/-- The package's own fault (R262, R424). A package that runs a job stops and sends STOP as origin, once; the STOP carries the
fault that PF_FAULT holds, also where a fault of the same slot took the place of the one that stopped it. -/
def State.raise (s : State) (reason unit index : Nat) : State :=
  if s.bu < stLoad then s
  else if s.running then
    let s := s.noteHalts.noteFault reason unit index s.now
    s.stopAsOrigin (s.fld rPfFault 0 16) (s.reg rPfFaultTime)
  else
    let old := s.fld rPfFault 0 16
    let s := s.noteFault reason unit index s.now
    let held := s.fld rPfFault 0 16
    if s.fab.stopOut ∧ held ≠ old then s.recode old held else s

/-- A core enters HALTED with its own code and its package sends STOP (R130 steps 3 and 4, kind H of Table 16.1). -/
def State.coreHaltNow (s : State) (a : Attr) (code : Nat) (noEff : Bool) : State :=
  let s := s.haltRecord a.core code true noEff a
  let s := s.coreToHalted a.core
  s.raise code 0 a.core

/-- A command of the window is being issued. -/
def CoreSt.issues (c : CoreSt) : Bool := c.window.any (fun w => w.status == .issuing)

/-- A core halts with its own code (R130): a command that is alone at once; one of the window when every older command has completed
and retired, and no younger one issues any more. -/
def State.coreHalt (s : State) (a : Attr) (code : Nat) (noEff : Bool) : State :=
  let c := s.core a.core
  if c.issues then
    s.setCore a.core { c with window := c.window.takeWhile (fun w => w.status != .issuing)
                              ending := some (.halt a code noEff s.now) }
  else s.coreHaltNow a code noEff

/-- An operand check of Table 5.3 fails: the command has no effect. -/
def State.checkFail (s : State) (a : Attr) (code : Nat) : State := s.coreHalt a code true

/-! ### Retirement (R126, R136) -/

/-- A command retires: count, tag and offset of the last retired command. -/
def State.retire (s : State) (a : Attr) : State :=
  let s := s.setReg (rCore a.core oCount) (s.reg (rCore a.core oCount) + 1)
  s.setReg (rCore a.core oLast) (a.offset % 2 ^ 32 + 2 ^ 32 * (a.tag % 2 ^ 16))

/-- A core's stream has been followed to pack time `t`. -/
def State.followed (s : State) (n t : Nat) : State :=
  s.setCore n { s.core n with asOf := max (s.core n).asOf t }

end Sys2Proof.Machine
end

