-- ==== Sys2Proof/Machine/Broadcast.lean ====
section
/-! DEFINITION. The firmware broadcast and its repair (R384 to R387, Table 14.8). -/

namespace Sys2Proof.Machine
open Sys2Proof

/-- A broadcast packet (R384): the header, which is SEQ 0, a data packet of 256 B, the end marker. -/
inductive BcPacket where
  | header (seg len : Nat) (digest : Digest)
  | data (seq : Nat) (bytes : List Byte)
  | endMark
  deriving DecidableEq, Repr

/-- Data packets of a segment: n = ⌈length / 256⌉. -/
def packetsOf (len : Nat) : Nat := ceilDiv len 256

/-- A packet's 256 bytes, the last packet's padded with zeros. -/
def dataPacket (body : List Byte) (seq : Nat) : BcPacket :=
  let part := slice body (256 * (seq - 1)) 256
  .data seq (part ++ List.replicate (256 - part.length) 0)

def headerPacket (i : FwInfo) : BcPacket := .header i.seg i.body.length i.digest

def seqsOf (len : Nat) : List Nat := (List.range (packetsOf len)).map (· + 1)

/-- The broadcast of the core firmware: header, SEQ 1 to n in order, end marker. -/
def broadcastOf (i : FwInfo) : List BcPacket :=
  headerPacket i :: ((seqsOf i.body.length).map (dataPacket i.body) ++ [.endMark])

/-- An instruction bank that has received nothing. -/
def FwBank.empty : FwBank := { hdr := none, parts := [] }

/-- A packet enters bank 1 (R141, R386): a data packet writes inside the length its header gave, and one that arrives again
overwrites the same bytes. -/
def FwBank.receive (b : FwBank) : BcPacket → FwBank
  | .header seg len digest => { b with hdr := some (seg, len, digest) }
  | .data seq bytes =>
    match b.hdr with
    | some (_, len, _) =>
      if seq = 0 ∨ packetsOf len < seq then b
      else { b with parts := b.parts.filter (fun e => e.1 != seq) ++ [(seq, bytes.take (len - 256 * (seq - 1)))] }
    | none => b
  | .endMark => b

/-- The bank's contents in the order of SEQ. -/
def FwBank.contents (b : FwBank) : List Byte :=
  match b.hdr with
  | some (_, len, _) => (seqsOf len).flatMap (fun q => ((b.parts.find? (fun e => e.1 == q)).map (·.2)).getD [])
  | none => []

/-- SEQ values of the segment that have not been received. -/
def FwBank.missing (b : FwBank) : List Nat :=
  match b.hdr with
  | some (_, len, _) => (seqsOf len).filter (fun q => !b.parts.any (fun e => e.1 == q))
  | none => []

/-- What a core answers to a poll (Table 14.8). -/
def FwBank.status (b : FwBank) : PollStatus :=
  match b.hdr with
  | none => .noHeader
  | some (_, _, digest) =>
    if b.missing ≠ [] then .gap b.missing
    else if sha3_512 b.contents = digest then .ok else .digest

/-- The bank's state and segment ID (Table 5.7): LOADING from its header on, READY once the last byte is written. -/
def FwBank.state (b : FwBank) : Nat :=
  match b.hdr with
  | none => 0
  | some _ => if b.missing = [] then 2 else 1

/-- The packets a repair round sends for a status (R386). -/
def repairOf (i : FwInfo) : PollStatus → List BcPacket
  | .ok => []
  | .gap ms => ms.map (dataPacket i.body)
  | .digest | .noHeader | .lost => broadcastOf i

def BcPacket.seq : BcPacket → Option Nat
  | .header _ _ _ => some 0
  | .data q _ => some q
  | .endMark => none

/-- A packet on its way to one core: lost, damaged or whole. -/
def deliverRx (r : PollRx) (b : FwBank) (p : BcPacket) : FwBank :=
  match p.seq with
  | none => b.receive p
  | some q =>
    if r.lost.contains q then b
    else match p, r.damaged.find? (fun e => e.1 == q) with
      | .data _ _, some e => b.receive (.data q (e.2.take 256 ++ List.replicate (256 - e.2.length) 0))
      | _, _ => b.receive p

/-- What the leader takes a core's answer for: no answer in 10 µs is LOST (R385). -/
def answerRx (r : PollRx) (b : FwBank) : PollStatus := if r.answers then b.status else .lost

/-- The broadcast to one core and up to `n` repair rounds: rounds used, the bank, and whether its last status is OK. -/
def bcastCore (i : FwInfo) : Nat → List PollRx → FwBank → List BcPacket → Nat × FwBank × Bool
  | 0, rx, b, ps =>
    let b := ps.foldl (deliverRx (rx.headD PollRx.clean)) b
    (0, b, answerRx (rx.headD PollRx.clean) b == .ok)
  | n + 1, rx, b, ps =>
    let b := ps.foldl (deliverRx (rx.headD PollRx.clean)) b
    match answerRx (rx.headD PollRx.clean) b with
    | .ok => (0, b, true)
    | st =>
      let r := bcastCore i n rx.tail b (repairOf i st)
      (r.1 + 1, r.2)

/-- Broadcast and at most four rounds (R386). -/
def bcastTo (i : FwInfo) (rx : List PollRx) : Nat × FwBank × Bool := bcastCore i 4 rx FwBank.empty (broadcastOf i)

/-- Bank 1 of a core that has received the whole broadcast. -/
def FwBank.whole (i : FwInfo) : FwBank := (broadcastOf i).foldl FwBank.receive FwBank.empty

end Sys2Proof.Machine
end

