-- ==== Sys2Proof/Machine/BringUp.lean ====
section
/-! DEFINITION. Power-on, leadership, INSPECT, the logical map and the compute-part reset (Chapter 14, Chapter 1,
R440 to R442, R456, R459, R462 to R465). -/

namespace Sys2Proof.Machine
open Sys2Proof

/-- A package without valid 48 V, or with a hard trip latched, does nothing (R22, R371, R399). -/
def State.whenLive (s : State) (f : State → State) : Res := .next (if s.dark then s else f s)

/-! ### Firmware images (R440, R441, Table 17.2) -/

inductive FwCheck where
  | ok (i : FwInfo)
  | bad
  | rollback
  deriving DecidableEq, Repr

def ctxFw : List Byte := ascii "TCHK-FW"

/-- Check one firmware image for a component (1 MC, 2 core), in the order of R441. The bytes from the image's start. -/
def fwCheck (nv : Nv) (sigs : List SigFact) (comp : Nat) (img : List Byte) : FwCheck :=
  let slot := fieldLe img 0x00B 1
  let svn := fieldLe img 0x00C 1
  let len := fieldLe img 0x010 4
  let pk := slice img 0x1300 2592
  let sig := slice img 0x080 4627
  let body := slice img 0x1D40 len
  let dig : Digest := BitVec.ofNat 512 (fieldLe img 0x040 64)
  if img.length < 0x1D40 + len ∨ slice img 0 8 ≠ ascii "TCHKFWIM" ∨ fieldLe img 8 2 ≠ 1 ∨ fieldLe img 0x00A 1 ≠ comp
      ∨ 4 ≤ slot ∨ 64 ≤ svn ∨ (comp = 2 ∧ 0x1_0000 < len) then .bad
  else if bitsOf nv.revoked slot 1 = 1 then .bad
  else if nv.roots.getD slot 0 ≠ sha3_512 pk then .bad
  else if !sigs.contains ⟨pk, ctxFw, sha3_512 (slice img 0 0x80), sig⟩ then .bad
  else if sha3_512 body ≠ dig then .bad
  else if svn < (if comp = 1 then nv.mcCtr else nv.coreCtr) then .rollback
  else .ok { svn, slot, revoke := bitsOf (fieldLe img 0x00D 1) 0 4, seg := fieldLe img 0x014 2, digest := dig, body }

/-- The core firmware image of a region: at the next 4 KiB boundary after the MC image (R440). -/
def coreImageOf (region : List Byte) : List Byte :=
  region.drop (ceilDiv (0x1D40 + fieldLe region 0x010 4) 4096 * 4096)

/-- The ROM's choice (R442): the valid MC image with the higher SVN, region A on a tie; the region and its image. -/
def romBoot (nv : Nv) (sigs : List SigFact) : Option (Nat × FwInfo) :=
  match fwCheck nv sigs 1 nv.regionA, fwCheck nv sigs 1 nv.regionB with
  | .ok a, .ok b => if a.svn < b.svn then some (1, b) else some (0, a)
  | .ok a, _ => some (0, a)
  | _, .ok b => some (1, b)
  | _, _ => none

/-! ### Power-on (R373, R456, R459, R462, R465) -/

/-- Per-column fuse and log site masks: a bad row covers every column (R24, R381). -/
def rowsOf (rows : Nat × Nat) (d : Nat) : Nat := if d = 0 then rows.1 else rows.2

def fuseMask (nv : Nv) (k : Nat) : Nat :=
  (nv.siteFuse.foldl (fun m e => if e.1 = k then m ||| e.2 else m) 0 ||| rowsOf nv.rowFuse (k / 36)) % 2 ^ 32

def dlogKind (e : W64) : Nat := bitsOf e.toNat 0 2

/-- Rows a log entry of KIND 1 names. -/
def logRows (nv : Nv) (d : Nat) : Nat :=
  nv.dlog.foldl (fun m e => if dlogKind e = 1 ∧ bitsOf e.toNat 2 1 = d then m ||| 2 ^ bitsOf e.toNat 9 5 else m) 0

def logLane (e : W64) : LaneRef :=
  { die := bitsOf e.toNat 2 1, x := bitsOf e.toNat 3 6, y := bitsOf e.toNat 9 5, link := bitsOf e.toNat 14 2,
    dir := bitsOf e.toNat 22 1, lane := bitsOf e.toNat 16 6 }

def logLanes (nv : Nv) : List LaneRef := (nv.dlog.filter (fun e => dlogKind e = 2)).map logLane

/-- A span lane named from the east die is the same lane named from the west die (Table 14.10). -/
def normLane (l : LaneRef) : LaneRef :=
  if l.link = 2 ∧ l.die = 1 then { l with die := 0, x := 35, dir := 1 - l.dir }
  else if l.link = 2 then { l with x := 35 } else l

/-- Bad lanes of one link in one direction. -/
def laneCount (ls : List LaneRef) (l : LaneRef) : Nat :=
  (ls.filter (fun m => m.die = l.die ∧ m.x = l.x ∧ m.y = l.y ∧ m.link = l.link ∧ m.dir = l.dir)).length

/-- A link with more than 2 bad lanes in a direction (R17, R24, R25, R380). -/
def overLink (ls : List LaneRef) (l : LaneRef) : Bool := 2 < laneCount ls l

/-- Rows of a die that the links of lanes `ls` exclude, their bad lanes counted in `all` (R24, R380). -/
def rowsBy (all ls : List LaneRef) (d : Nat) : Nat :=
  ls.foldl (fun m l => if (l.link = 0 ∨ l.link = 3) ∧ l.die = d ∧ overLink all l then m ||| 2 ^ l.y else m) 0

/-- Rows of a die that bad x-links or edge-bridge links exclude. -/
def overRows (ls : List LaneRef) (d : Nat) : Nat := rowsBy ls ls d

/-- BU_SITE_LOG and BU_SITE_FUSE contents. A logged lane whose link the fuse record and the log leave too many bad lanes stands for its
row (R382). -/
def logMask (nv : Nv) (k : Nat) : Nat :=
  (nv.dlog.foldl (fun m e =>
    if dlogKind e = 0 ∧ bitsOf e.toNat 2 1 = k / 36 ∧ bitsOf e.toNat 3 6 = k % 36 then m ||| 2 ^ bitsOf e.toNat 9 5
    else m) 0 ||| logRows nv (k / 36) ||| rowsBy (nv.laneFuse ++ logLanes nv) (logLanes nv) (k / 36)) % 2 ^ 32

def allColumns : List Nat := List.range 72

/-- Load the log registers from flash (Tables 18.7, 18.13). -/
def State.loadLog (s : State) (sites : Bool) : State :=
  let s := s.setReg rBuDlogStat s.nv.dlog.length
  let s := (List.range 256).foldl (fun s j => s.setReg (rBuDlog j) (s.nv.dlog.getD j 0).toNat) s
  if sites then allColumns.foldl (fun s k => s.setReg (rBuSiteLog k) (logMask s.nv k)) s else s

/-- Fused and flash values reload (R457, R459): identity, serial, counters, calibration, site records. -/
def State.loadFused (s : State) (leadSel : Bool) : State :=
  let nv := s.nv
  let s := s.setReg rMcPowerOn nv.powerOn
  let s := s.setReg (mceBase + rMcPowerOn) nv.powerOn
  let s := s.setLfld .west 3 1 (b2n leadSel)
  let s := s.setLfld .east 3 1 (b2n leadSel)
  let s := s.setReg rSecSerialLo (bitsOf nv.serial.toNat 0 64)
  let s := s.setReg rSecSerialHi (bitsOf nv.serial.toNat 64 64)
  let s := s.setFld rSecBootStat 14 6 nv.mcCtr
  let s := s.setFld rSecBootStat 20 6 nv.coreCtr
  let s := s.setFld rSecBootStat 26 4 nv.revoked
  let s := s.setFld rSecBootStat 32 1 (b2n nv.owner.isSome)
  let en := (List.range 8).foldl (fun m n => if (nv.keys.getD n ⟨0, []⟩).state = 1 then m + 2 ^ n else m) 0
  let rv := (List.range 8).foldl (fun m n => if (nv.keys.getD n ⟨0, []⟩).state = 2 then m + 2 ^ n else m) 0
  let s := s.setReg rSecJobKey (en + 2 ^ 8 * rv + 2 ^ 16 * nv.keySeq)
  let s := s.setReg rPwrEstMap nv.covered
  let s := (List.range 64).foldl (fun s n => s.setReg (rPwrGain n) (nv.gains.getD n 0 % 2 ^ 16)) s
  let s := allColumns.foldl (fun s k => s.setReg (rBuSiteFuse k) (fuseMask s.nv k)) s
  s.loadLog true

/-- The 48 V input becomes valid: every register at its reset value, power-on count up by one, straps sampled
(R371, R373, R456, R459, R465). Memory contents do not outlive 48 V. -/
def State.powerOn (s : State) (leadSel a1 a0 low : Bool) : State :=
  let s' : State := { State.reset with
    regs := [], nv := { s.nv with powerOn := (s.nv.powerOn + 1) % 2 ^ 32 }, sigs := s.sigs, free := s.free,
    outbox := s.outbox, pending := s.pending, hl := { HlSt.reset with ctxKeep := s.hl.ctxKeep, chryKeep := s.hl.chryKeep } }
  let s' := { s' with pkg := { s'.pkg with sb33 := s.pkg.sb33, lowVoltage := low, channel := s.pkg.channel,
                                           i3cA := 2 * b2n a1 + b2n a0 } }
  s'.loadFused leadSel

/-- VIN48_VALID (R373). -/
def execVin48Valid (leadSel a1 a0 low : Bool) (s : State) : Res :=
  .next (if s.pkg.vin then s else s.powerOn leadSel a1 a0 low)

/-- VIN48_LOSS (R371, R397 source 9, R399, R469): the package enters OFF; a brownout in RUN is recorded; a latched
trip clears; both thermal outputs release. -/
def execVin48Loss (s : State) : Res :=
  .next (if !s.pkg.vin then s else
    let s := if s.running && !s.pkg.latched then
        { s with nv := { s.nv with trip := some (9, false, s.nv.powerOn) } } else s
    { s with mem := [], bad := [], job := none, cores := []
             pkg := { s.pkg with vin := false, whelp := false, latched := false, thermTrip := false,
                                 thermWarn := false, hbmUp := false, computeOn := false, ddrOn := false, niMap := [], hbmMap := [],
                                 spanRow := [], fwBank := none, fwOff := [] } })

/-- The leader's boot data in SEC_BOOT_STAT (Table 17.7). -/
def State.showBoot (s : State) : State :=
  let fw := match s.leader with
    | .west => s.pkg.fwW
    | .east => s.pkg.fwE
  match fw with
  | some i =>
    let s := { s with pkg := { s.pkg with mcFw := fw } }
    (s.setFld rSecBootStat 2 6 i.svn).setFld rSecBootStat 30 2 i.slot
  | none => s

/-- A controller's self-check fails: it leads nothing and follows nothing, and as candidate asserts FAIL (R374). -/
def State.selfFail (s : State) (m : Mc) : State :=
  let s := (s.setLfld m 1 2 3).setLfld m 7 1 1
  s.setMc m { s.mc m with checked := true, lead := false, follow := false, failSig := true }

/-- The candidate by LEAD_SEL. -/
def State.candidate (s : State) : Mc := if s.lfld .west 3 1 = 1 then .east else .west

/-- HOSTLINK ports of a controller's port die start training at 1 lane (R373, R324). -/
def State.startWhelpTraining (s : State) (m : Mc) : State :=
  let lo := if m = .west then 0 else 9
  (List.range 9).foldl (fun s i =>
    let p := lo + i
    if s.mode p = 2 ∧ s.portState p = 0 then s.setFld (rPortStat p) 0 3 1 else s) s

/-- SB33_LOSS (R463): a self-check in progress fails, which ends it (R373). -/
def execSb33Loss (s : State) : Res :=
  .next (
    let s := { s with pkg := { s.pkg with sb33 := false } }
    if s.dark then s else
      let s := if s.fld rSecOpStat 0 1 = 1 ∧ s.sec.op = 3 then
          let booted := (s.mc s.leader).region
          let s := { s with nv := if booted = 0 then { s.nv with regionB := [] } else { s.nv with regionA := [] } }
          let s := s.setReg rSecOpStat (2 + 2 ^ 2 * 3 + 2 ^ 5 * s.fld rSecOpStat 5 1)
          { s with sec := { s.sec with op := 0 } }
        else s
      let s := if s.mcw.checked then s else (s.selfFail .west).startWhelpTraining .west
      if s.mce.checked then s else (s.selfFail .east).startWhelpTraining .east)

/-- SB33_RETURN (R463): I3C answers again; an interrupt held while it could not be sent goes out (log entry 22). -/
def execSb33Return (s : State) : Res :=
  .next (
    let s := { s with pkg := { s.pkg with sb33 := true } }
    if s.dark then s else
      [Mc.west, Mc.east].foldl (fun s m =>
        match (s.mc m).ibiHeld, (s.mc m).ibiOn with
        | some c, true => (s.setMc m { s.mc m with ibiHeld := none }).emit (.ibi m c)
        | _, _ => s) s)

/-- Has this controller a forced role (R377)? -/
def State.forced (s : State) (m : Mc) : Bool :=
  match m with
  | .west => s.pkg.forcedW
  | .east => s.pkg.forcedE

/-- A controller that has passed its self-check and neither leads nor follows may take a role from the handshake. -/
def State.roleFree (s : State) (m : Mc) : Bool :=
  (s.mc m).checked && s.role m != 3 && !(s.mc m).lead && !(s.mc m).follow && !s.forced m && !s.conflict m

/-- What a controller has seen on the handshake decides its role: FOLLOW after LEAD, LEAD after FAIL (R374). -/
def State.heed (s : State) (m : Mc) : State :=
  if !s.roleFree m then s
  else if (s.mc m).sawLead then (s.setMc m { s.mc m with follow := true }).setLfld m 1 2 2
  else if (s.mc m).sawFail then s.setMc m { s.mc m with lead := true }
  else s

/-- MC_SELF_CHECK_DONE (R374, R442): ROM, SRAM and firmware from the boot flash, in order. -/
def execMcSelfCheckDone (m : Mc) (romOk sramOk : Bool) (s : State) : Res :=
  s.whenLive (fun s =>
    if (s.mc m).checked then s
    else
      let s := match (if romOk && sramOk && s.pkg.sb33 then romBoot s.nv s.sigs else none) with
        | none => s.selfFail m
        | some (r, i) =>
          let s := match m with
            | .west => { s with pkg := { s.pkg with fwW := some i } }
            | .east => { s with pkg := { s.pkg with fwE := some i } }
          let s := s.setFld rSecBootStat (if m = Mc.west then 0 else 1) 1 r
          (s.setMc m { s.mc m with checked := true, region := r, lead := s.candidate == m }).heed m
      s.startWhelpTraining m)

/-! ### Leadership (R374 to R377) -/

/-- WHELP is reached once leadership is settled and a HOSTLINK port is UP (Table 14.1): the leader copies the most
recent trip record (R400) and the interrupt goes out (R468). -/
def State.settleWhelp (s : State) : State :=
  let settled := (s.role .west = 1 ∧ s.mce.follow) ∨ (s.role .east = 1 ∧ s.mcw.follow) ∨ s.anyConflict
  if !s.pkg.whelp && decide settled && s.hlPorts.any s.portUp then
    let s := { s with pkg := { s.pkg with whelp := true } }
    let s := match s.nv.trip with
      | some (src, hard, n) =>
        if s.fld rPwrTrip 9 1 = 1 then s
        else s.setReg rPwrTrip (src + 2 ^ 8 * b2n hard + 2 ^ 9 + 2 ^ 32 * n)
      | none => s
    s.ibiBoth 0
  else s

/-- A controller becomes leader: BU_STATE.LEADER and the boot data name it. -/
def State.makeLeader (s : State) (m : Mc) : State :=
  let s := s.setLfld m 1 2 1
  let s := s.setFld rBuState 6 1 (if m = .east then 1 else 0)
  s.showBoot

/-- The compute part is lost: cores, NIs, banks, job, stream contexts and slot tables, the committed map and the
registers of Table 18.13's compute-part row; HBM4 enters self-refresh (R391, Table 14.11). -/
def State.loseCompute (s : State) : State :=
  let s := s.dropJobDescs
  let s := s.dropRegs (fun a => coreBase ≤ a ∧ a < 0x0200_0000 ∨ rBuJobStat ≤ a ∧ a ≤ rBuJobDigest 7
    ∨ a = rPfStart ∨ a = rPfNormLimits ∨ a = rPfDbgCtrl ∨ a = rPfDbgStat ∨ a = rPfRtc)
  let s := s.setFld rPwrFloor 32 12 0
  { s with
    cores := [], job := none, stp := StepSt.reset
    ports := s.ports.map (fun e => (e.1, { e.2 with sent := [], failedTx := [], failedRx := [], naks := [],
                                                    downRaised := false, lastSend := 0, stops := [], stopsSeen := [] }))
    fab := { s.fab with sendBuf := [], held := [], stopOut := false, originsFwd := [], issueStopped := false,
                        haltedAt := none, colls := [] }
    pwr := { s.pwr with fsched := 0 }
    hl := { s.hl with restored := none }
    pkg := { s.pkg with niMap := [], spanRow := [], selfRef := true, hbmUp := false, fwBank := none, fwOff := [] } }

/-- Repair the canonical form of the port map: an entry equal to a port at reset is not listed. -/
def State.trimPorts (s : State) : State := { s with ports := s.ports.filter (fun e => e.2 != PortSt.reset) }

/-- The STOPs that the ports of `s` repeat go on: the port dies are not reset. -/
def State.keepStops (t s : State) : State :=
  { t with ports := t.ports.map (fun e => (e.1, { e.2 with stops := (s.port e.1).stops, stopsSeen := (s.port e.1).stopsSeen })) }

/-- A controller becomes unconfirmed and enters LEADER_CONFLICT (R376). In RUN that is a fault first, whose STOP the port dies go on
sending; from any later state the package returns to WHELP with its compute part lost. -/
def State.enterConflict (s : State) (m : Mc) : State :=
  let s := s.setMc m { s.mc m with lead := true, follow := false }
  let s := if s.running then s.raise cLeaderConflict 7 (if m = .east then 1 else 0) else s
  let s := if s.bu = stWhelp then s else (s.loseCompute.keepStops s).trimPorts
  let s := { s with pkg := { s.pkg with buOp := none, computeOn := false } }
  let s := (s.setLfld m 1 2 1).setLfld m 4 1 1
  let s := (s.setBu stWhelp).setFld rBuState 4 1 0
  let s := s.setFld rBuState 16 16 cLeaderConflict
  let s := s.ibi m cLeaderConflict
  s.settleWhelp

/-- LEADER_HANDSHAKE_SIGNAL (R374): controller `m` sees the other assert `sig`. With the bring-up channel down it cannot
watch the other (R19); with the handshake down no such command comes, and the timeouts act. -/
def execLeaderHandshakeSignal (m : Mc) (sig : HsSignal) (s : State) : Res :=
  s.whenLive (fun s =>
    let me := s.mc m
    let other := s.mc (mcOther m)
    if !s.pkg.channel then s
    else match sig with
      | .lead => if other.lead then (s.setMc m { me with sawLead := true }).heed m else s
      | .fail => if other.failSig then (s.setMc m { me with sawFail := true }).heed m else s
      | .follow =>
        if other.follow && me.checked && me.lead && s.role m == 0 && !s.forced m && !s.conflict m then
          (s.makeLeader m).settleWhelp
        else s)

/-- CANDIDATE_TIMEOUT (R374): the non-candidate has seen neither LEAD nor FAIL for 5 ms and asserts LEAD. -/
def execCandidateTimeout (m : Mc) (s : State) : Res :=
  s.whenLive (fun s =>
    if s.roleFree m && s.candidate != m && !(s.mc m).sawLead && !(s.mc m).sawFail then
      s.setMc m { s.mc m with lead := true }
    else s)

/-- LEADER_CONFIRM_TIMEOUT (R375): a controller that asserts LEAD has no confirmation within 5 ms, or has had none since the other
dropped FOLLOW. -/
def execLeaderConfirmTimeout (m : Mc) (s : State) : Res :=
  s.whenLive (fun s =>
    if (s.mc m).lead && (s.role m == 0 || s.role m == 1 && !(s.mc (mcOther m)).follow) && !s.conflict m && !s.forced m then
      s.enterConflict m
    else s)

/-- ALIVE_TOGGLE (R375): the other controller sees the toggle. -/
def execAliveToggle (m : Mc) (s : State) : Res :=
  s.whenLive (fun s => if s.pkg.channel && (s.mc m).checked then s.setLfld (mcOther m) 8 1 1 else s)

/-- ALIVE_TIMEOUT (R375, R376): no toggle for 10 µs. A confirmed leader becomes unconfirmed; a follower asserts LEAD
and becomes unconfirmed in turn. A forced role lasts until 48 V is removed (R377). -/
def execAliveTimeout (m : Mc) (s : State) : Res :=
  s.whenLive (fun s =>
    let s := s.setLfld m 8 1 0
    if (s.role m == 1 || s.role m == 2) && !s.conflict m && !s.forced m then s.enterConflict m else s)

/-- Both controllers hold forced roles, or the one in conflict does and the other, which is in none, cannot be forced: the conflict
ends (R377; log entry 141, DEDUCED for the second case). -/
def State.endConflict (s : State) : State :=
  let claim := [Mc.west, Mc.east].filter s.conflict
  if claim.all s.forced then
    let s := (s.setLfld .west 4 1 0).setLfld .east 4 1 0
    s.setFld rBuState 16 16 0
  else s

/-- A write of MC_LEAD_FORCE at controller `m` (R377). -/
def State.leadForce (s : State) (m : Mc) (v : Nat) : State :=
  let lead := bitsOf v 0 2
  if s.conflict m ∧ bitsOf v 16 16 = 0x4C44 ∧ (lead = 1 ∨ lead = 2) then
    let s := match m with
      | .west => { s with pkg := { s.pkg with forcedW := true } }
      | .east => { s with pkg := { s.pkg with forcedE := true } }
    let s := s.setLfld m 5 1 1
    let s := if (lead = 1 ∧ m = .west) ∨ (lead = 2 ∧ m = .east) then s.makeLeader m
             else (s.setLfld m 1 2 2).setMc m { s.mc m with lead := false, follow := true }
    s.endConflict
  else s.setLfld m 6 1 1

/-- MC_LEAD_FORCE (R377). -/
def execMcLeadForce (m : Mc) (v : W64) (s : State) : Res := s.whenLive (fun s => s.leadForce m v.toNat)

/-- BRING_UP_CHANNEL_LOSS (R19, R373): accesses are forwarded no more. -/
def execBringUpChannelLoss (s : State) : Res :=
  s.whenLive (fun s => { s with pkg := { s.pkg with channel := false } })

/-! ### INSPECT (R379 to R387) -/

/-- A bring-up command is discarded (R378). -/
def State.cmdRej (s : State) : State := s.setFld rBuState 5 1 1

/-- INSPECT stops with a code (R379). -/
def State.inspectStop (s : State) (code : Nat) : State :=
  (s.setFld rBuState 16 16 code).setFld rBuState 4 1 0

/-- Set bits of a list of sites in column `k`. -/
def siteMask (l : List Site) (k : Nat) : Nat :=
  l.foldl (fun m p => if 36 * p.die + p.x = k ∧ p.x < 36 ∧ p.y < 32 then m ||| 2 ^ p.y else m) 0

def popCount (n : Nat) : Nat := (List.range 64).foldl (fun c i => c + bitsOf n i 1) 0

/-- The sites of a mask function in order of die, column, row. -/
def sitesOf (m : Nat → Nat) : List Site :=
  allColumns.flatMap (fun k => (List.range 32).filterMap (fun y =>
    if bitsOf (m k) y 1 = 1 then some ⟨k / 36, k % 36, y⟩ else none))

/-- A field defect log entry (Table 14.10). -/
def dlogEntry (kind die x y link lane dir source pow : Nat) : W64 :=
  BitVec.ofNat 64 (kind + 2 ^ 2 * die + 2 ^ 3 * x + 2 ^ 9 * y + 2 ^ 14 * link + 2 ^ 16 * lane + 2 ^ 22 * dir
    + 2 ^ 24 * source + 2 ^ 32 * (pow % 2 ^ 32))

/-- What the steps of an INSPECT establish about the sites (R381): masks by column, row masks by die. -/
structure Sites where
  rowsW  : Nat
  rowsE  : Nat
  good   : Nat → Nat
  test   : Nat → Nat
  bbad   : Nat → Nat
  off    : List (Site × FwBank)
  span   : Nat
  ydead  : Bool
  rounds : Nat
  newLog : List W64

/-- A half whose controller neither leads nor follows stays in reset (R377). -/
def State.deadHalf (s : State) (m : Mc) : Bool := s.role m == 0 || s.role m == 3

/-- Judge every site from the fuse record, the log and this INSPECT's findings (R17, R24, R25, R380 to R387, R414). -/
def State.judgeSites (s : State) (f : Findings) (i : FwInfo) (ages : List (Nat × Nat)) : Sites :=
  let nv := s.nv
  let known := (nv.laneFuse ++ logLanes nv).map normLane
  let found := (f.badLanes.map normLane).eraseDups
  let all := (known ++ found).eraseDups
  let kRows (d : Nat) := rowsOf nv.rowFuse d ||| logRows nv d ||| overRows known d
  let router (d : Nat) := f.badRouters.foldl (fun m p => if p.die = d ∧ p.y < 32 then m ||| 2 ^ p.y else m) 0
  let dead (d : Nat) := if s.deadHalf (if d = 0 then .west else .east) then 2 ^ 32 - 1 else 0
  let rows (d : Nat) := (kRows d ||| overRows all d ||| router d ||| dead d) % 2 ^ 32
  let notM (m : Nat) := 2 ^ 32 - 1 - m % 2 ^ 32
  let whole (k : Nat) := notM (rows (k / 36)) &&& notM (fuseMask nv k) &&& notM (logMask nv k)
  let step2 (k : Nat) := siteMask f.badSites k &&& whole k
  let cand (k : Nat) := whole k &&& notM (step2 k)
  let polled := (f.polls.filter (fun e => bitsOf (cand (36 * e.1.die + e.1.x)) e.1.y 1 = 1)).map
    (fun e => (e.1, bcastTo i e.2))
  let rounds := polled.foldl (fun r e => max r e.2.1) 0
  let failed := polled.filter (fun e => !e.2.2.2)
  let bbadL := failed.map (·.1)
  let bbad (k : Nat) := siteMask bbadL k &&& cand k
  let tooSlow := (ages.filter (fun a => mapGet (fun _ => Config.fusedMax) nv.fmax a.1 < 1450 + 25 * a.2)).map
    (fun a => (⟨a.1 / 32 / 36, a.1 / 32 % 36, a.1 % 32⟩ : Site))
  let t7 (k : Nat) := (siteMask f.selfTestFail k ||| siteMask tooSlow k) &&& cand k &&& notM (bbad k)
  let tbad (k : Nat) := step2 k ||| t7 k
  let rowNew (d : Nat) := rows d &&& notM (kRows d ||| dead d)
  -- every new lane defect has its entry; a row that new lanes exclude has no other (R382)
  let laneLog := (found.filter (fun l => !known.contains l)).map
    (fun l => dlogEntry 2 l.die l.x l.y l.link l.lane l.dir 1 nv.powerOn)
  let rowLog := ((f.badRouters.filter (fun p => bitsOf (kRows p.die) p.y 1 = 0)).foldl
      (fun (acc : List Site) p => if acc.any (fun q => q.die = p.die ∧ q.y = p.y) then acc else acc ++ [p]) []).map
    (fun p => dlogEntry 1 p.die p.x p.y 0 0 0 1 nv.powerOn)
  { rowsW := rows 0, rowsE := rows 1
    good := fun k => cand k &&& notM (bbad k) &&& notM (t7 k)
    test := fun k => tbad k ||| bbad k ||| rowNew (k / 36)
    bbad := bbad
    off := failed.map (fun e => (e.1, e.2.2.1))
    span := (List.range 32).foldl (fun m y =>
      if bitsOf (rows 0) y 1 = 0 ∧ bitsOf (rows 1) y 1 = 0 ∧ !all.any (fun l => l.link = 2 ∧ l.y = y ∧ overLink all l)
      then m + 2 ^ y else m) 0
    ydead := all.any (fun l => l.link = 1 ∧ overLink all l)
    rounds := rounds
    newLog := laneLog ++ rowLog
      ++ (sitesOf tbad).map (fun p => dlogEntry 0 p.die p.x p.y 0 0 0 1 nv.powerOn)
      ++ (sitesOf bbad).map (fun p => dlogEntry 0 p.die p.x p.y 0 0 0 2 nv.powerOn) }

/-- Good sites of a die. -/
def goodCount (m : Nat → Nat) (d : Nat) : Nat := (List.range 36).foldl (fun c x => c + popCount (m (36 * d + x))) 0

/-- Ageing steps after step 7: each aged site gains one (R414). -/
def ageAll (age : List (Nat × Nat)) (aged : List Site) : List (Nat × Nat) :=
  aged.foldl (fun a p =>
    let k := 32 * (36 * p.die + p.x) + p.y
    mapSet (fun _ => 0) a k (mapGet (fun _ => 0) a k + 1)) age

/-- Bank 1 of a candidate site since the broadcast of this INSPECT (R384, R387), until the map is committed (R364 has every
bank EMPTY in LOAD: log entry 121). -/
def State.siteBank (s : State) (p : Site) : Option FwBank :=
  match s.pkg.fwOff.find? (fun e => e.1 == p) with
  | some e => some e.2
  | none => s.pkg.fwBank

/-- Steps 6 to 9: broadcast and repair, self-test, log, judgement (R381 to R387). -/
def State.inspectJudge (s : State) (f : Findings) (i : FwInfo) : State :=
  let ages := ageAll s.nv.age f.aged
  let r := s.judgeSites f i ages
  let s := { s with pkg := { s.pkg with fwBank := some (FwBank.whole i), fwOff := r.off } }
  let room := 256 - s.nv.dlog.length
  let kept := if f.logWriteFail then [] else r.newLog.take room
  let s := { s with nv := { s.nv with age := ages, dlog := s.nv.dlog ++ kept } }
  let s := s.loadLog false
  let gw := goodCount r.good 0
  let ge := goodCount r.good 1
  let bw := goodCount r.bbad 0
  let be := goodCount r.bbad 1
  let full := decide (room < r.newLog.length)
  let s := s.setReg rBuInspect (gw + 2 ^ 11 * ge + 2 ^ 24 * min 255 r.newLog.length + 2 ^ 32 * r.rounds
    + 2 ^ 35 * b2n full + 2 ^ 36 * b2n (f.logWriteFail && !(r.newLog.take room).isEmpty) + 2 ^ 37 * (bw + be))
  let s := s.setReg rBuSpan r.span
  let s := s.setReg rBuRows (r.rowsW + 2 ^ 32 * r.rowsE)
  let s := allColumns.foldl (fun s k => (s.setReg (rBuSiteGood k) (r.good k)).setReg (rBuSiteTest k) (r.test k)) s
  if popCount r.span < 28 then s.inspectStop cSpanDegraded
  else if r.ydead ∨ gw + bw < perDie ∨ ge + be < perDie then s.inspectStop cGradeShortfall
  else if gw < perDie ∨ ge < perDie then s.inspectStop cBcastFailed
  else (s.setFld rBuState 4 1 0).setBu stMap

/-- Supported DDR5 modules of Table 11.4. -/
def ddrSupported (m : DdrModule) : Bool :=
  m.deviceBits == 4 && m.ecc && m.perChannel == 1 &&
  (if m.kind = 1 then
    [4800, 5600, 6400].contains (min m.speed 6400) && (m.ranks == 1 || m.ranks == 2) && (m.height == 1 || m.height == 2)
      && [32, 48, 64, 96, 128, 256].contains m.capGib
   else if m.kind = 2 then
    [8000, 8800].contains (min m.speed 8800) && m.ranks == 2 && m.height == 1 && [32, 64, 128, 256].contains m.capGib
   else false)

def ddrSpeedCode (v : Nat) : Nat :=
  if v = 4800 then 1 else if v = 5600 then 2 else if v = 6400 then 3 else if v = 8000 then 4 else 5

/-- Step 4: read the SPDs and configure the DDR5 tier (R306, R307). Any population but twelve equal supported
modules sets CONFIG_ERR and posts DDR_CONFIG_INVALID. -/
def State.configDdr (s : State) (mods : List (Option DdrModule)) : State :=
  if !slowTier then s
  else
    let ok : Option DdrModule := match mods with
      | some m :: _ => if mods.length = 12 ∧ mods.all (· == some m) ∧ ddrSupported m then some m else none
      | _ => none
    match ok with
    | some m =>
      let sp := ddrSpeedCode (min m.speed (if m.kind = 1 then 6400 else 8800))
      s.setReg rMemDdr (1 + 2 ^ 2 * m.kind + 2 ^ 4 * sp + 2 ^ 8 * m.capGib + 2 ^ 17 * m.ranks)
    | none =>
      let s := s.setReg rMemDdr 2
      s.event 4 cDdrConfig 0xFFFF 0 (s.reg rMemDdr)

/-- Start of an INSPECT: registers of Table 18.13, BUSY, QUICK, CODE 0 (R379). -/
def State.inspectStart (s : State) (full : Bool) : State :=
  let s := s.dropRegs (fun a => a = rBuInspect ∨ a = rBuSpan ∨ a = rBuRows
    ∨ rBuSiteGood 0 ≤ a ∧ a ≤ rBuSiteGood 71 ∨ rBuSiteTest 0 ≤ a ∧ a ≤ rBuSiteTest 71)
  let s := s.loadLog true
  let s := s.setBu stInspect
  let s := (s.setFld rBuState 4 1 1).setFld rBuState 7 1 (b2n !full)
  let s := s.setFld rBuState 16 16 0
  { s with pkg := { s.pkg with buOp := none } }

/-- Bits of the stacks of a list. -/
def stackMask (hs : List Nat) : Nat := hs.foldl (fun m h => if h < 8 then m ||| 2 ^ h else m) 0

/-- HBM training and test, step 3 or 3Q: MEM_ answers from here (Table 14.2). PRESENT: a supported stack answered; TRAINED: its
interface trained (Table 11.8). -/
def State.trainHbm (s : State) (failing absent : List Nat) : State :=
  let s := s.setReg rMemHbm (0xFF - stackMask absent + 2 ^ 8 * (0xFF - stackMask (failing ++ absent)))
  { s with pkg := { s.pkg with hbmUp := true, selfRef := false } }

/-- Steps 5 to 9 after HBM: firmware, then broadcast to judgement. Without SB33 the boot flash cannot be read (R22), and no image
verifies. -/
def State.inspectRest (s : State) (full : Bool) (f : Findings) : State :=
  if full then
    let region := if (s.mc s.leader).region = 0 then s.nv.regionA else s.nv.regionB
    match (if s.pkg.sb33 then fwCheck s.nv s.sigs 2 (coreImageOf region) else .bad) with
    | .bad => s.inspectStop cSignatureFail
    | .rollback => s.inspectStop cRollback
    | .ok i =>
      let s := { s with pkg := { s.pkg with coreFw := some i } }
      (s.setFld rSecBootStat 8 6 i.svn).inspectJudge f i
  else
    match s.pkg.coreFw with
    | some i => if sha3_512 i.body = i.digest then s.inspectJudge f i else s.inspectStop cSignatureFail
    | none => s.inspectStop cSignatureFail

/-- Run the steps of Table 14.5 in order, with what they find. -/
def State.inspectRun (s : State) (full : Bool) (f : Findings) : State :=
  let s := s.inspectStart full
  if full && !f.powerOk then s.inspectStop cElectricalTrip
  else
    let s := { s with pkg := { s.pkg with computeOn := true, pwrSettled := true }
                      pwr := { s.pwr with rising := s.pwr.rising || !s.pkg.computeOn } }
    let s := s.trainHbm f.hbmFail f.hbmAbsent
    if (f.hbmFail ++ f.hbmAbsent).any (· < 8) then s.inspectStop cHbmFail
    else
      let s := if full then { s.configDdr f.ddr with pkg := { (s.configDdr f.ddr).pkg with ddrOn := true } } else s
      s.inspectRest full f

/-- INSPECT is accepted in WHELP without LEADER_CONFLICT and with a leader (Table 14.6). -/
def State.inspectOk (s : State) : Bool :=
  s.bu == stWhelp && s.pkg.whelp && !s.anyConflict && s.fld rBuState 4 1 == 0
    && (s.role .west == 1 || s.role .east == 1)

/-- INSPECT (R379): runs the full steps when a BU_CTRL write has been accepted, or is that write itself. -/
def execInspect (f : Findings) (s : State) : Res :=
  s.whenLive (fun s =>
    match s.pkg.buOp with
    | some (1, _) => s.inspectRun true f
    | some _ => s.cmdRej
    | none => if s.inspectOk then s.inspectRun true f else s.cmdRej)

/-! ### The logical map (R388, R389) -/

/-- Entry of logical core `n` in BU_MAP_i. -/
def State.mapWord (s : State) (n : Nat) : Nat := bitsOf (s.reg (rBuMap (n / 4))) (16 * (n % 4)) 16

/-- The kind of fault of one entry (Table 14.9 BU_MAP_ERR.KIND), 0 when none; `all` holds every entry. Where an entry has
several faults the spec gives no order: x above 35, wrong die, not good, used twice (DESIGN CHOICE, log entry 122). -/
def mapFault (good : Nat → Nat) (all : List Nat) (n : Nat) : Nat :=
  let e := all.getD n 0
  let v := bitsOf e 15 1
  let d := bitsOf e 11 1
  let x := bitsOf e 5 6
  let y := bitsOf e 0 5
  if numCores ≤ n then (if v = 1 then 5 else 0)
  else if v = 0 then 1
  else if 35 < x then 6
  else if d ≠ n / perDie then 3
  else if bitsOf (good (36 * d + x)) y 1 = 0 then 2
  else if 1 < ((List.range numCores).filter (fun k => bitsOf (all.getD k 0) 15 1 = 1
      ∧ bitsOf (all.getD k 0) 0 12 = bitsOf e 0 12)).length then 4
  else 0

/-- s(y): the nearest usable span row, the lower on a tie (R29). -/
def spanRowOf (usable y : Nat) : Nat :=
  ((List.range 32).foldl (fun (best : Option Nat) u =>
    if bitsOf usable u 1 = 0 then best
    else match best with
      | none => some u
      | some b => if (max u y - min u y) < (max b y - min b y) then some u else best) none).getD y

/-! ### Halves and routes (R16, R29) -/

/-- The half of an HBM4 stack (Table 1.2): H0 to H3 west, H4 to H7 east. -/
def stackHalf (h : Nat) : Nat := if h < 4 then 0 else 1

/-- Parts of the package that a transfer crosses. -/
inductive Part where
  | westMesh
  | span
  | eastMesh
  deriving DecidableEq, Repr

/-- What a transfer between the west port die and a resource of half `h` crosses, outward; the way back is the reverse
(R16). -/
def fromWestPort (h : Nat) : List Part := if h = 0 then [.westMesh] else [.westMesh, .span, .eastMesh]

/-- Sites passed from coordinate `a` to `b`, `a` left out. -/
def along (a b : Nat) : List Nat :=
  if a ≤ b then (List.range (b - a)).map (fun k => a + k + 1) else (List.range (a - b)).map (fun k => a - k - 1)

def alongX (d y a b : Nat) : List Site := (along a b).map (fun x => ⟨d, x, y⟩)
def alongY (d x a b : Nat) : List Site := (along a b).map (fun y => ⟨d, x, y⟩)

/-- The inner column of a die. -/
def innerX (d : Nat) : Nat := if d = 0 then 35 else 0

/-- The routers a packet passes from one site to another, `row` giving s(y): x then y on one die, the five steps of R29
between dies. -/
def routeBy (row : Nat → Nat) (p q : Site) : List Site :=
  if p.die = q.die then alongX p.die p.y p.x q.x ++ alongY p.die q.x p.y q.y
  else
    let r := row q.y
    alongX p.die p.y p.x (innerX p.die) ++ alongY p.die (innerX p.die) p.y r ++ [⟨q.die, innerX q.die, r⟩]
      ++ alongY q.die (innerX q.die) r q.y ++ alongX q.die q.y (innerX q.die) q.x

/-- The site of a committed map entry (Table 1.4). -/
def siteOf (e : Nat) : Site := ⟨bitsOf e 11 1, bitsOf e 5 6, bitsOf e 0 5⟩

/-- The NI's route from one logical core to another: sites and s(y) from the committed map (R28, R29). -/
def State.route (s : State) (a b : Nat) : List Site :=
  routeBy (fun y => s.pkg.spanRow.getD y y) (siteOf (s.mapEntry a)) (siteOf (s.mapEntry b))

/-- Current maximum frequency of the site of a map entry, and its fused maximum and ageing steps (R414). -/
def siteKey (e : Nat) : Nat := 32 * (36 * bitsOf e 11 1 + bitsOf e 5 6) + bitsOf e 0 5
def fuseFreq (nv : Nv) (e : Nat) : Nat := mapGet (fun _ => Config.fusedMax) nv.fmax (siteKey e)
def ageOf (nv : Nv) (e : Nat) : Nat := mapGet (fun _ => 0) nv.age (siteKey e)
def currentMax (nv : Nv) (e : Nat) : Nat := fuseFreq nv e - 25 * ageOf nv e

/-- Commit a valid map: s(y), every NI's copy and the one in reserved HBM, LOAD; mapped cores enter IDLE and their windows answer for their
sites (R388). -/
def State.commitMap (s : State) (all : List Nat) : State :=
  let rows := (List.range 32).map (fun y => spanRowOf (s.reg rBuSpan) y)
  let map := all.map (fun e => e % 2 ^ 12 + 2 ^ 15 * bitsOf e 15 1)
  let s := { s with pkg := { s.pkg with niMap := map, hbmMap := map, spanRow := rows, fwBank := none, fwOff := [] } }
  let s := (List.range numCores).foldl (fun s n =>
    let e := s.mapEntry n
    let s := s.setCstate n csIdle
    s.setReg (rCore n oFreq) (min 1450 (currentMax s.nv e) + 2 ^ 12 * currentMax s.nv e + 2 ^ 24 * fuseFreq s.nv e
      + 2 ^ 36 * min 31 (ageOf s.nv e))) s
  s.setBu stLoad

/-- Check and commit the map in BU_MAP_i (R27, R388). -/
def State.commit (s : State) : State :=
  let all := (List.range 2048).map s.mapWord
  match (List.range 2048).find? (fun n => mapFault (fun k => s.reg (rBuSiteGood k)) all n != 0) with
  | some n => s.setReg rBuMapErr (n + 2 ^ 11 * mapFault (fun k => s.reg (rBuSiteGood k)) all n)
  | none => s.commitMap all

/-- COMMIT (R388). -/
def execCommit (s : State) : Res :=
  s.whenLive (fun s => if s.bu = stMap ∧ s.fld rBuState 4 1 = 0 then s.commit else s.cmdRej)

/-! ### RUN, STOP and RESET -/

/-- Current beat. -/
def State.beat (s : State) : Nat := s.fld rPfBeat 0 48

/-- The package enters RUN; cores wait for B₀, panting when enabled (R247, R378, R411, R429). -/
def State.enterRun (s : State) : State :=
  let b0 := s.fld rPfStart 0 48
  let s := s.setFld rPfDbgStat 0 1 (s.fld rPfDbgCtrl 0 1)
  let pant := s.fld rPwrPant 0 1 == 1
  let s := s.used.foldl (fun s n => s.setCore n { s.core n with panting := pant }) s
  let s := { s with stp := { s.stp with b0 := b0, started := false, origin := 0, prevOrigin := none }
                    fab := { s.fab with idleHold := false, haltedAt := none } }
  s.setBu stRun

/-- RUN (R378): accepted in READY if PF_START.BEAT lies above the current beat. -/
def execRun (s : State) : Res :=
  s.whenLive (fun s =>
    if s.bu = stReady ∧ s.fld rBuState 4 1 = 0 ∧ s.beat < s.fld rPfStart 0 48 then s.enterRun else s.cmdRej)

/-- An island's frequency: the target, at most its current maximum and its margin limit, in RUN at least f_sched
(R413, R415). -/
def State.islandFreq (s : State) (n : Nat) : Nat :=
  let e := s.mapEntry n
  let tgt := if bitsOf e 11 1 = 0 then s.fld rPwrFreq 0 12 else s.fld rPwrFreq 16 12
  let cap := currentMax s.nv e
  let cap := if (s.core n).limit = 0 then cap else min cap (s.core n).limit
  if s.running then max s.pwr.fsched (min tgt cap) else min 1450 cap

/-- Cores with an entry in the committed map. -/
def State.mappedCores (s : State) : List Nat := s.pkg.niMap.zipIdx.filterMap (fun e => if bitsOf e.1 15 1 = 1 then some e.2 else none)

/-- Write the island frequencies of the mapped cores (R413). -/
def State.showFreq (s : State) : State := s.mappedCores.foldl (fun s n => s.setCfld n oFreq 0 12 (s.islandFreq n)) s

/-- A core whose stream is fetched from a bank; a core restored from an image that it saved IDLE has none (R140, R437). -/
def State.hasActive (s : State) (n : Nat) : Bool := s.cfld n oBank 0 2 == 3 || s.cfld n oBank 2 2 == 3

/-- JOB_START (R247): the start of beat B₀; the cores begin to issue at schedule slot 0. -/
def execJobStart (s : State) : Res :=
  s.whenLive (fun s =>
    if s.running && !s.stp.started && decide (s.stp.b0 ≤ s.beat) then
      let s := { s with stp := { s.stp with started := true } }
      let s := (s.used.filter s.hasActive).foldl (fun s n =>
        ((s.setCore n { s.core n with panting := false }).showBank n).setCstate n csRun) s
      s.showFreq
    else s)

/-- STOP (R378): in RUN the fault HOST_STOP. -/
def State.hostStop (s : State) : State :=
  if s.running then s.raise cHostStop 7 (if s.leader = .east then 1 else 0) else s.cmdRej

def execStop (s : State) : Res := s.whenLive State.hostStop

/-- States in which RESET is accepted (Table 14.6). -/
def State.resetOk (s : State) : Bool :=
  (s.bu == stInspect && s.fld rBuState 4 1 == 0) || s.bu == stMap || s.bu == stLoad || s.bu == stReady
    || s.bu == stHalted

/-- A compute-part reset, then INSPECT: full if asked or after a soft trip (R391, R398); FABRIC ports send IDLE_HOLD
until the next RUN (R271). -/
def State.computeReset (s : State) (full : Bool) (f : Findings) : State :=
  let full := full || s.pkg.softTrip
  let s := s.loseCompute.trimPorts
  let s := { s with fab := { s.fab with idleHold := true }
                    pkg := { s.pkg with softTrip := false, thermTrip := false, buOp := none } }
  s.inspectRun full f

/-- RESET (R391): refused while the condition of a soft trip still holds (R398). -/
def execReset (full : Bool) (f : Findings) (s : State) : Res :=
  s.whenLive (fun s =>
    match s.pkg.buOp with
    | some (5, fl) =>
      if s.pkg.softTrip && f.tripHolds then
        ({ s with pkg := { s.pkg with buOp := none } }.setFld rBuState 4 1 0).cmdRej
      else s.computeReset fl f
    | some _ => s.cmdRej
    | none =>
      if s.resetOk && !(s.pkg.softTrip && f.tripHolds) then s.computeReset full f else s.cmdRej)

/-- A write of BU_CTRL (R378): COMMIT, RUN and STOP take effect; INSPECT and RESET start, with BUSY set, and run when
their steps' findings come. Reserved commands are discarded. -/
def State.buCtrl (s : State) (v : Nat) : State :=
  let cmd := bitsOf v 0 4
  let full := bitsOf v 4 1 == 1
  if s.fld rBuState 4 1 = 1 then s.cmdRej
  else if cmd = 1 then
    if s.inspectOk then
      { s with pkg := { s.pkg with buOp := some (1, true) } }.setFld rBuState 4 1 1 |>.setBu stInspect
    else s.cmdRej
  else if cmd = 2 then (if s.bu = stMap then s.commit else s.cmdRej)
  else if cmd = 3 then (if s.bu = stReady ∧ s.beat < s.fld rPfStart 0 48 then s.enterRun else s.cmdRej)
  else if cmd = 4 then s.hostStop
  else if cmd = 5 then
    if s.resetOk then { s with pkg := { s.pkg with buOp := some (5, full) } }.setFld rBuState 4 1 1 else s.cmdRej
  else s.cmdRej

end Sys2Proof.Machine
end

