-- ==== Sys2Proof/Machine/Fabric.lean ====
section
/-! DEFINITION. The Pack fabric (Chapter 9): ports and training, pack time and beats, slot tables, flits, delivery,
retry, forwarding, STOP, beat stretch and idle-hold. Slots named by a command are schedule slots counted from the
run's slot 0 (R247). A command that the spec ties to a slot moves pack time forward to that slot (log entry 8). -/

namespace Sys2Proof.Machine
open Sys2Proof

/-! ### Beats and schedule slots (R246, R247, R269) -/

/-- The S of the announcements for one B_E: the largest (R269). -/
def bestS (t : List (Nat × Nat)) (be : Nat) : Nat := t.foldl (fun m e => if e.1 = be then max m e.2 else m) 0

/-- S_b: that of the entry with the largest B_E ≤ b (R269). -/
def stretchAt (t : List (Nat × Nat)) (b : Nat) : Nat :=
  match (t.filter (fun e => e.1 ≤ b)).foldl (fun (m : Option Nat) e => some (max (m.getD 0) e.1)) none with
  | some be => bestS t be
  | none => 0

/-- Σ S_b over lo ≤ b < hi. -/
def stretchSum (t : List (Nat × Nat)) (lo hi : Nat) : Nat :=
  ((t.map (·.1)).eraseDups.map (fun be =>
    let nxt := (t.filter (fun e => be < e.1)).foldl (fun m e => min m e.1) hi
    (min hi nxt - max lo be) * bestS t be)).sum

def State.stretchTable (s : State) : List (Nat × Nat) := s.fab.table ++ s.fab.past

/-- P(b): the pack time at which beat b begins (R246), from the current beat's start. -/
def State.beatTime (s : State) (b : Nat) : Nat :=
  let c := s.beat
  if c ≤ b then s.fab.beatStart + 256 * (b - c) + stretchSum s.stretchTable c b
  else s.fab.beatStart - (256 * (c - b) + stretchSum s.stretchTable b c)

/-- The pack time of schedule slot Q of the run (R247). -/
def State.packOf (s : State) (q : Nat) : Nat := s.beatTime (s.stp.b0 + q / 256) + q % 256

/-- The beat that holds pack time `t`: the one before the current beat for an earlier `t`. -/
def State.beatAt (s : State) (t : Nat) : Nat :=
  if t < s.fab.beatStart then s.beat - 1
  else
    let base := ((s.stretchTable.map (·.1)).filter (fun b => decide (s.beat < b) && decide (s.beatTime b ≤ t))).foldl max s.beat
    base + (t - s.beatTime base) / (256 + stretchAt s.stretchTable base)

/-- Place of pack time `t` in its beat: a position up to 255, a stretch slot above (R246). -/
def State.placeOf (s : State) (t : Nat) : Nat := t - s.beatTime (s.beatAt t)

/-- The last schedule slot of the run whose pack time has come, none before slot 0. -/
def State.schedNow (s : State) : Option Nat :=
  if s.now < s.beatTime s.stp.b0 then none
  else some ((s.beatAt s.now - s.stp.b0) * 256 + min 255 (s.placeOf s.now))

/-- Spare positions (R248): p mod 16 = 15; schedule slot 0 is position 0 of beat B₀. -/
def isSpare (q : Nat) : Bool := q % 16 == 15

/-- The earliest spare at or after `q`. -/
def spareFrom (q : Nat) : Nat := q + (15 - q % 16)

/-- Number of non-spare slots below `q`. -/
def plainIdx (q : Nat) : Nat := q - q / 16
/-- The i-th non-spare slot at or after `q`. -/
def plainNth (q i : Nat) : Nat := (plainIdx q + i) / 15 * 16 + (plainIdx q + i) % 15

/-- The flit number a run of consecutive non-spare positions gives slot `q` (R359). -/
def runIndex (first count q : Nat) : Option Nat :=
  if !isSpare q && decide (first ≤ q) && decide (plainIdx q - plainIdx first < count)
  then some (plainIdx q - plainIdx first) else none

/-! ### What an UP port's slots carry (R245, R248, R250, R257, R263, R268, R271)

Pack time moves through slots in which commands put DATA and re-sends on a port; every other slot carries what waits there: a STOP
being repeated, an ANNOUNCE, or IDLE. -/

/-- λ of a port's link. -/
def State.lambda (s : State) (p : Nat) : Nat := s.fld (rPortLink p) 16 16

/-- The spare a failed flit sent in slot `q` takes (R258): the earliest spare at or after q + 2λ + 3 that is not taken;
none when it lies more than 16 slots after the first. -/
def assignSpare (taken : List Nat) (q lam : Nat) : Option Nat :=
  let f := spareFrom (q + 2 * lam + 3)
  if !taken.contains f then some f else if !taken.contains (f + 16) then some (f + 16) else none

/-- The spare 16 slots after the first one at or after the eligible point: the last that a flit of slot `q` may take. -/
def lastSpare (q lam : Nat) : Nat := spareFrom (q + 2 * lam + 3) + 16

/-- The spares of failed flits with send slots `qs`, in increasing order: each takes what those with earlier send slots have
left (R258). -/
def spareList (lam : Nat) (qs : List Nat) : List (Option Nat) :=
  qs.foldl (fun acc q => acc ++ [assignSpare (acc.filterMap id) q lam]) []

/-- The sender's view of its failed flits: each with its spare. -/
def State.txPlan (s : State) (p : Nat) : List ((Nat × SentFlit × Bool) × Option Nat) :=
  (s.port p).failedTx.zip (spareList (s.lambda p) ((s.port p).failedTx.map (·.1)))

/-- Re-sends still to come on a port: spare and flit, in spare order (R258, R259). -/
def State.resends (s : State) (p : Nat) : List (Nat × SentFlit) :=
  sortKeys ((s.txPlan p).filterMap (fun e => match e.2, e.1.2.2 with
    | some sp, false => some (sp, e.1.2.1)
    | _, _ => none))

/-- Failed flits with no spare for which RETRY_OVERRUN is still to come: its slot and the flit's send slot. -/
def State.overruns (s : State) (p : Nat) : List (Nat × Nat) :=
  sortKeys ((s.txPlan p).filterMap (fun e => match e.2, e.1.2.2 with
    | none, false => some (lastSpare e.1.1 (s.lambda p), e.1.1)
    | _, _ => none))

/-- The receiver's view: re-sends it still expects, as spare and send slot (R258). -/
def State.expects (s : State) (p : Nat) : List (Nat × Nat) :=
  sortKeys (((s.port p).failedRx.zip (spareList (s.lambda p) ((s.port p).failedRx.map (·.1)))).filterMap (fun e =>
    match e.2, e.1.2 with
    | some sp, false => some (sp, e.1.1)
    | _, _ => none))

/-- NAK_STAMP of the flit that a port sends in pack time `t`: of two NAKs due in one flit the later one (log entry 119). -/
def PortSt.nakAt (v : PortSt) (t : Nat) : Option Nat := ((v.naks.filter (fun e => e.1 == t)).getLast?).map (·.2)

/-- An ANNOUNCE may use the slot: a spare no re-send takes, or a stretch slot (R268). -/
def State.annSlot (s : State) (p t : Nat) : Bool :=
  decide (256 ≤ s.placeOf t) || (isSpare (s.placeOf t) && !(s.resends p).any (fun r => s.packOf r.1 == t))

/-- The first such slot from `t` on. Of the spares only those of the port's re-sends are passed over: `fuel` is their number. -/
def State.nextAnn (s : State) (p : Nat) : (fuel t : Nat) → Nat
  | 0, t => t
  | k + 1, t =>
    let c := if 256 ≤ s.placeOf t then t else t + (15 - s.placeOf t % 16)
    if s.annSlot p c then c else s.nextAnn p k (c + 1)

/-- The pack time that a parent announces in slot `t` (R250). -/
def State.timeAnn (s : State) (t : Nat) : Announce :=
  let b := s.beatAt t
  .time t b (s.beatTime b) (stretchAt s.stretchTable b) s.fab.table

/-- An ANNOUNCE flit goes out at pack time `t`: it is kept for a NAK, with those of the last 2,048 slots, of which a NAK's 12 bits leave
no doubt. -/
def PortSt.noteAnn (v : PortSt) (t : Nat) (a : Announce) : PortSt :=
  { v with annSent := v.annSent.filter (fun e => decide (t < e.1 + 2048)) ++ [(t, a)] }

/-- One stretch of a port's slots, from the first one not yet filled and below `b`, that carries one thing: the newest STOP being
repeated (log entry 119), the next ANNOUNCE, or IDLE, which is IDLE_HOLD from a compute-part reset to the next RUN. -/
def State.fillOnce (s : State) (p b : Nat) : State :=
  let v := s.port p
  let a := v.carried
  if b ≤ a then s
  else
    let nak := v.nakAt a
    let e := if nak.isSome then a + 1
      else ((v.naks.map (·.1) ++ v.stops.map (·.start)).filter (fun t => decide (a < t))).foldl min b
    let idle (e : Nat) : State :=
      (s.setPort p { v with carried := e }).emit (.idle p a (e - a) s.fab.idleHold nak)
    match (v.stops.filter (fun r => decide (r.start ≤ a))).getLast? with
    | some r =>
      let n := match r.left with
        | some k => max 1 (min k (e - a))
        | none => e - a
      let stops := match r.left with
        | some k => if k ≤ n then v.stops.erase r else v.stops.map (fun x => if x = r then { r with left := some (k - n) } else x)
        | none => v.stops
      (s.setPort p { v with stops, carried := a + n }).emit (.stopSlots p a n nak r.origin r.reason r.time)
    | none =>
      if v.timeDue || !v.annOut.isEmpty then
        let t := s.nextAnn p ((s.resends p).length + 1) a
        if t ≠ a then idle (min e t)
        else if v.timeDue then
          (s.setPort p { v.noteAnn a (s.timeAnn a) with timeDue := false, carried := a + 1 }).emit (.announce p a nak (s.timeAnn a))
        else match v.annOut with
          | x :: rest => (s.setPort p { v.noteAnn a x with annOut := rest, carried := a + 1 }).emit (.announce p a nak x)
          | [] => s
      else idle e

/-- Fill a port's slots below `b`. `fuel` bounds the stretches: two for each NAK, STOP and ANNOUNCE, and one to end. -/
def State.fillTo (s : State) (p b : Nat) : (fuel : Nat) → State
  | 0 => s
  | k + 1 => (s.fillOnce p b).fillTo p b k

def State.fillPort (s : State) (p b : Nat) : State :=
  let v := s.port p
  let s := s.fillTo p b (2 * (v.naks.length + v.stops.length + v.annOut.length) + 4)
  let v := s.port p
  s.setPort p { v with naks := v.naks.filter (fun e => decide (b ≤ e.1)), carried := max v.carried b }

/-- Every UP FABRIC port's slots below pack time `t` are filled. -/
def State.passSlots (s : State) (t : Nat) : State := s.fabricUp.foldl (fun s p => s.fillPort p t) s

/-- Every UP port counts `n` more slots without a good CRC (R242). -/
def State.silent (s : State) (n : Nat) : State :=
  (allPorts.filter s.portUp).foldl (fun s p => s.setPort p { s.port p with silence := (s.port p).silence + n }) s

/-- Pack time moves forward to at least `t` (log entry 8); the slots that pass bring no flit. -/
def State.advanceTo (s : State) (t : Nat) : State :=
  if s.now < t then (((s.passSlots t).setReg rPfPackTime t)).silent (t - s.now) else s

/-! ### The slot tables (R254, R359) -/

def State.runs (s : State) : List Run := (s.job.map Job.runs).getD []
def State.stream? (s : State) (c : Nat) : Option Stream := s.job.bind (fun j => j.streams[c]?)

/-- The origin and the schedule whose tables hold slot `q`: those of the step before for a slot before the step's origin, whose
flits arrive and come again after it; in a wide step the normal ones until W (R116, R254). -/
def State.frameOf (s : State) (q : Nat) : Nat × Bool :=
  let f := if q < s.stp.origin then s.stp.prevOrigin.getD (s.stp.origin, s.stp.wide) else (s.stp.origin, s.stp.wide)
  (f.1, f.2 && s.job.any (fun j => decide (f.1 + j.hdr.statusDel + j.hdr.eW ≤ q)))

/-- The run of a port's table that covers schedule slot `q` of the run, and the SEQ it gives. -/
def State.tableAt (s : State) (p : Nat) (recv : Bool) (q : Nat) : Option (Run × Nat) :=
  let f := s.frameOf q
  s.runs.findSome? (fun r =>
    if r.port = p ∧ r.recv = recv ∧ r.wide = f.2 then
      (runIndex (f.1 + r.first) r.count q).map (fun i => (r, r.seq + i))
    else none)

/-- The next slot at or after `q` that a port's send table covers. -/
def State.nextSend (s : State) (p q : Nat) : Option Nat :=
  s.runs.foldl (fun best r =>
    if r.port = p ∧ r.recv = false ∧ r.wide = s.stp.wide ∧ 0 < r.count then
      let f := s.stp.origin + r.first
      let last := plainNth f (r.count - 1)
      let c := if q ≤ plainNth f 0 then some (plainNth f 0)
               else if q ≤ last then some (if isSpare q then q + 1 else q) else none
      match best, c with
      | some b, some c => some (min b c)
      | none, c => c
      | b, none => b
    else best) none

/-- The schedule slot of pack time `t`, none before the run's slot 0 and in stretch slots, where no DATA goes (R247, R248). -/
def State.slotOf (s : State) (t : Nat) : Option Nat :=
  if t < s.beatTime s.stp.b0 ∨ 256 ≤ s.placeOf t then none else some ((s.beatAt t - s.stp.b0) * 256 + s.placeOf t)

/-- Flits of a stream in the current step's schedule. -/
def State.flitsOf (s : State) (c : Stream) : Nat := if s.stp.wide then c.wflits else c.flits

/-- An armed run (R429). -/
def State.armed (s : State) : Bool := s.fld rPfDbgStat 0 1 == 1

/-- Cores issue: RUN, B₀ reached. -/
def State.issuing (s : State) : Bool := s.running && s.stp.started

/-- Bound of Table 1.5 between a half's port die or core and a core of logical number `n`: 20 slots in one half,
30 across. -/
def coreHalf (n : Nat) : Nat := if n < perDie then 0 else 1
def portHalf (p : Nat) : Nat := if p < 9 then 0 else 1
def edgeBound (h₁ h₂ : Nat) : Nat := if h₁ = h₂ then 20 else 30

/-! ### Port state and training (R235 to R242, R324, R390) -/

/-- A port goes DOWN (R242): in a running package the fault LINK_DOWN. -/
def State.portDown (s : State) (p : Nat) : State :=
  let wasUp := s.portUp p
  let v := s.port p
  let s := s.setPort p { v with silence := 0, downRaised := v.downRaised || (wasUp && s.running), unacked := [],
                                txq := v.txq.filter (fun m => m.op != opDData && m.op != opDAck), rxNak := false, stops := [], annOut := [], annSent := [], timeDue := false, naks := [] }
  let s := (s.setFld (rPortStat p) 0 3 0).setFld (rPortStat p) 6 5 0
  let s := s.setFld (rPortPeer p) 48 1 0
  if wasUp && s.running then s.raise cLinkDown 1 p else s

/-- Training starts from DETECT (R239). In WHELP the FABRIC ports stay DOWN (R373); from INSPECT on a port trains at
full width (R390). -/
def State.trainPort (s : State) (p : Nat) : State :=
  if 18 ≤ p ∨ s.mode p = 0 ∨ (s.mode p = 1 ∧ s.bu = stWhelp) then s
  else
    let s := if s.portState p = 0 then s else s.portDown p
    let s := s.setPort p { s.port p with trained := true, full := s.bu != stWhelp }
    s.setFld (rPortStat p) 0 3 1

/-- TRAIN (R239). -/
def execTrain (p : Nat) (s : State) : Res := s.whenLive (fun s => s.trainPort p)

/-- MODE of a port is locked: written before, or its training was started by the host (R235, R451). -/
def State.modeLocked (s : State) (p : Nat) : Bool := s.flocks.contains (rPortMode p) || (s.port p).trained

/-- HOSTLINK ports when port `p` takes MODE `m`. -/
def State.hlAfter (s : State) (p m : Nat) : Nat :=
  (allPorts.filter (fun q => (if q = p then m else s.mode q) == 2)).length

/-- A MODE that may not be written (R236). -/
def State.modeBad (s : State) (p m : Nat) : Bool :=
  m == 3 || s.hlAfter p m == 0 || decide (2 < s.hlAfter p m)

/-- A write of PORT_MODE (R235, R236, R390, Table 9.2): writing 1 to MODE_REJ clears it; MODE takes effect and locks, and TRAIN
starts training; a write with a MODE that R236 refuses is ignored whole and sets MODE_REJ. -/
def State.portModeWrite (s : State) (p v : Nat) : State :=
  let m := bitsOf v 0 2
  let s := if bitsOf v 3 1 = 1 then s.setFld (rPortMode p) 3 1 0 else s
  if !s.modeLocked p && s.modeBad p m then s.setFld (rPortMode p) 3 1 1
  else
    let s := if s.modeLocked p then s
      else
        let s := if s.portState p = 0 then s else s.portDown p
        let s := s.setFld (rPortMode p) 0 2 m
        { s with flocks := rPortMode p :: s.flocks }
    if bitsOf v 2 1 = 1 then s.trainPort p else s

/-- PORT_MODE_WRITE (R236). -/
def execPortModeWrite (p : Nat) (v : W64) (s : State) : Res :=
  s.whenLive (fun s => if p < 18 then s.portModeWrite p v.toNat else s)

/-- A training state fails (R239). -/
def State.trainFail (s : State) (p : Nat) : State :=
  let st := s.portState p
  ((s.setFld (rPortStat p) 3 3 st).setFld (rPortStat p) 0 3 0).setFld (rPortStat p) 6 4 0

/-- TRAINING_TIMEOUT (R239). -/
def execTrainingTimeout (p : Nat) (s : State) : Res :=
  s.whenLive (fun s => if 1 ≤ s.portState p ∧ s.portState p ≤ 5 then s.trainFail p else s)

/-- Lanes a HOSTLINK port takes: 0–3, 0–1 or 0 (R324); in WHELP lane 0 (R373). -/
def hlLanes (lanes : Nat) (full : Bool) : Nat :=
  if full ∧ lanes % 16 = 15 then 15 else if full ∧ lanes % 4 = 3 then 3 else if lanes % 2 = 1 then 1 else 0

/-- The port enters UP with a fresh link layer. -/
def State.portToUp (s : State) (p : Nat) : State :=
  let v := s.port p
  let s := s.setPort p { v with silence := 0, downRaised := false, txNext := 0, rxNext := 0, rxNak := false, rxAny := false,
                                nakSeen := false, owed := [0, 0, 0, 0], unacked := [], carried := s.now + 1 }
  ((s.setFld (rPortStat p) 0 3 6).settleWhelp).pump p

/-- A training state begins: in MEASURE 64 marker flits go out (R240), in IDENTIFY PF_HERD and the port number (R241), or on a
HOSTLINK port protocol version 1 and this side's initial credits (R324, Table 12.1). -/
def State.trainTo (s : State) (p n : Nat) : State :=
  let s := s.setFld (rPortStat p) 0 3 n
  if n = 4 then s.emit (.markers p 64)
  else if n = 5 then
    if s.mode p = 2 then s.emit (.hello p 1 ownCredits) else s.emit (.identify p (BitVec.ofNat 64 (s.reg rPfHerd)))
  else s

/-- A training state of port `p` completes its work (Table 9.3; R324 for HOSTLINK). -/
def State.trainStep (s : State) (p : Nat) (i : TrainInfo) : State :=
  let st := s.portState p
  let hl := s.mode p = 2
  let goTo (n : Nat) (s : State) : State := s.trainTo p n
  if st = 1 then goTo (if hl ∧ !(s.port p).full then 3 else 2) s
  else if st = 2 then goTo 3 s
  else if st = 3 then
    if hl then
      let l := hlLanes i.lanes (s.port p).full
      if l = 0 then s.trainFail p else goTo 5 (s.setFld (rPortStat p) 6 4 l)
    else if i.lanes % 16 = 15 then goTo 4 (s.setFld (rPortStat p) 6 4 15) else s.trainFail p
  else if st = 4 then
    goTo 5 (s.setReg (rPortLink p) (i.rtt % 2 ^ 16 + 2 ^ 16 * ((ceilDiv i.rtt 128 + 1) % 2 ^ 16)))
  else if st = 5 then
    let s := if hl then s.setPort p { s.port p with credits := [32, 0, i.reqCredit, i.rspCredit] }
      else s.setReg (rPortPeer p) (bitsOf i.peerHerd 0 11 + 2 ^ 11 * (i.peerPort % 32)
        + 2 ^ 16 * bitsOf i.peerHerd 32 32 + 2 ^ 48)
    s.portToUp p
  else s

/-- TRAINING_STATE_COMPLETE (R239 to R241). -/
def execTrainingStateComplete (p : Nat) (i : TrainInfo) (s : State) : Res :=
  s.whenLive (fun s => if p < 18 then s.trainStep p i else s)

/-- FEC_LOCK_LOSS (R242): a lane in use loses FEC lock. -/
def execFecLockLoss (p lane : Nat) (s : State) : Res :=
  s.whenLive (fun s => if s.portUp p ∧ bitsOf (s.fld (rPortStat p) 6 4) lane 1 = 1 then s.portDown p else s)

/-- REFCLK_FAB_STOP (R464): every port of the half's port die loses FEC lock. -/
def execRefclkFabStop (half : Nat) (s : State) : Res :=
  s.whenLive (fun s => (allPorts.filter (fun p => portHalf p = half)).foldl (fun s p =>
    if s.portState p = 0 then s else s.portDown p) s)

/-- LINK_SILENCE (R242, R272): 256 slots without a good CRC on an UP port whose peer does not hold. -/
def execLinkSilence (p : Nat) (s : State) : Res :=
  s.whenLive (fun s =>
    if s.portUp p ∧ s.fld (rPortStat p) 10 1 = 0 ∧ 256 ≤ (s.port p).silence then s.portDown p else s)

/-! ### Pack-time synchronization (R249 to R251) -/

/-- PF_SYNC_STAT.PHASE: signed, in 1/64 slot, saturating. -/
def phaseField (x : Int) : Nat := ((max (-128) (min 127 x)) % 256).toNat

/-- Synchronization runs and this package is not the root. -/
def State.follows (s : State) : Bool := s.fld rPfSyncCtrl 6 1 == 1 && s.fld rPfSyncCtrl 0 1 == 0

/-- The representative of `e` mod `m` nearest to 0. -/
def centred (e : Int) (m : Nat) : Int :=
  let r := e % (m : Int)
  if r < (m : Int) / 2 then r else r - m

/-- Lock is lost (R251): LOST is set; on a package that runs a job that is PACKTIME_SKEW. The next lock steps pack time when the
error exceeds ±2 slots. -/
def State.loseLock (s : State) (phase : Int) : State :=
  let s := ((s.setFld rPfSyncStat 0 1 0).setFld rPfSyncStat 1 1 1).setFld rPfSyncStat 8 8 (phaseField phase)
  let s := { s with fab := { s.fab with steady := none, stepNext := s.fab.stepNext || decide (phase < -128 ∨ 128 < phase) } }
  if s.running then s.raise cPacktimeSkew 1 (s.fld rPfSyncCtrl 1 5) else s

/-- The phase error of a flit from the parent, in 1/64 slot: its arrival against SEND_STAMP + RTT / 128. Before the package has a
pack time to keep, only the tick within the slot is steered (R249, R250; log entry 120, DEDUCED). -/
def State.phaseOf (s : State) (p : Nat) (f : Flit) (x : Arrival) : Int :=
  let e := (x.at64 : Int) - 64 * (f.sendStamp : Int) - (s.fld (rPortLink p) 0 16 / 2 : Nat)
  centred e (if !s.fab.everLocked || s.fab.stepNext then 64 else 64 * 2 ^ 24)

/-- A good flit from the parent is measured; re-sends are not (R249). A locked package beyond ±2 ns loses lock; an unlocked one
that has drifted by more than ±2 slots will step (R251). -/
def State.measure (s : State) (p : Nat) (f : Flit) (x : Arrival) : State :=
  if !s.follows || p != s.fld rPfSyncCtrl 1 5 || f.resend then s
  else
    let e := s.phaseOf p f x
    let within := decide (-16 ≤ e ∧ e ≤ 16)
    let locked := s.fld rPfSyncStat 0 1 == 1
    let far := !locked && s.fab.everLocked && decide (e < -128 ∨ 128 < e)
    let s := { s with fab := { s.fab with
      steady := if within then some (s.fab.steady.getD s.now) else none, stepNext := s.fab.stepNext || far } }
    if locked && decide (e < -32 ∨ 32 < e) then s.loseLock e else s.setFld rPfSyncStat 8 8 (phaseField e)

/-- Slots of a 1 ms interval (R405). -/
def intervalSlots : Nat := 250000

/-- PENDING and PF_STRETCH_NEXT from the pending table (Table 9.10). -/
def State.showStretch (s : State) : State :=
  let t := s.fab.table
  let s := s.setFld rPfStretchStat 0 3 t.length
  let ahead := t.filter (fun e => s.beat < e.1)
  match ahead with
  | [] => s.setReg rPfStretchNext 0
  | e :: r =>
    let be := r.foldl (fun m x => min m x.1) e.1
    s.setReg rPfStretchNext (be % 2 ^ 48 + 2 ^ 48 * bestS t be)

/-- The package takes its parent's pack time, beat, stretch and pending table, as announced `ago` slots ago (R250). The 1 ms intervals
divide pack time, so the current one is that of the new time (R405). -/
def State.adopt (s : State) (ago : Nat) (a : Announce) : State :=
  match a with
  | .stretch _ _ => s
  | .time t b bs sv tbl =>
    let s := (allPorts.filter s.portUp).foldl (fun s p => s.setPort p { s.port p with carried := t + ago }) s
    let s := s.setReg rPfPackTime (t + ago)
    let s := s.setReg rPfBeat (b % 2 ^ 48 + 2 ^ 48 * (sv % 2 ^ 12))
    let s := { s with fab := { s.fab with beatStart := bs, table := tbl.take 4, past := [] } }
    let nb := s.beatAt (t + ago)
    let start := s.beatTime nb
    let s := s.setReg rPfBeat (nb % 2 ^ 48 + 2 ^ 48 * (stretchAt s.stretchTable nb % 2 ^ 12))
    { s with fab := { s.fab with beatStart := start }, pwr := { s.pwr with interval := (t + ago) / intervalSlots } }.showStretch

/-- PACKTIME_LOCK (R250, R251): the phase error has stayed within ±1 ns for 256 slots. The first lock, and the next one after an error
above ±2 slots, takes the parent's pack time, so it waits until the parent has announced it. -/
def execPacktimeLock (phase : Int) (s : State) : Res :=
  s.whenLive (fun s =>
    if s.follows && decide (-16 ≤ phase ∧ phase ≤ 16) && s.fab.steady.any (fun t => decide (t + 256 ≤ s.now)) then
      let lock (s : State) : State :=
        let s := { s with fab := { s.fab with everLocked := true, stepNext := false, parent := none, steady := none } }
        (s.setFld rPfSyncStat 0 1 1).setFld rPfSyncStat 8 8 (phaseField phase)
      if s.fab.everLocked && !s.fab.stepNext then lock s
      else match s.fab.parent with
        | some (at_, a) => lock (s.adopt (s.now - at_) a)
        | none => s
    else s)

/-- PACKTIME_LOCK_LOST (R251): beyond ±2 ns, that is 32/64 slot. -/
def execPacktimeLockLost (phase : Int) (s : State) : Res :=
  s.whenLive (fun s =>
    if s.fld rPfSyncStat 0 1 = 1 ∧ (phase < -32 ∨ 32 < phase) then s.loseLock phase else s)

/-! ### Beat stretch (R267 to R270) -/

/-- An announcement waits on a port for its slot. -/
def State.queueAnn (s : State) (p : Nat) (a : Announce) : State :=
  s.setPort p { s.port p with annOut := (s.port p).annOut ++ [a] }

/-- Enter an announcement; it goes out on every UP FABRIC port in the next slot that R268 allows it. -/
def State.enterAnn (s : State) (be sv : Nat) : State :=
  let s := { s with fab := { s.fab with table := s.fab.table ++ [(be, sv)] } }
  (s.fabricUp.foldl (fun s p => s.queueAnn p (.stretch be sv)) s).showStretch

/-- At the start of a beat a package that keeps pack time, the root or a locked one, owes its pack time to the packages that may
follow it: on every UP FABRIC port but its own parent's (R250; log entry 120). -/
def State.oweTime (s : State) : State :=
  if s.fld rPfSyncCtrl 6 1 = 1 ∧ (s.fld rPfSyncCtrl 0 1 = 1 ∨ s.fld rPfSyncStat 0 1 = 1) then
    (s.fabricUp.filter (fun p => s.fld rPfSyncCtrl 0 1 == 1 || p != s.fld rPfSyncCtrl 1 5)).foldl (fun s p =>
      s.setPort p { s.port p with timeDue := true }) s
  else s

/-- Start an announcement (R267): accepted 2,048 beats ahead with room in the table, S at most 3,840. -/
def State.stretchReq (s : State) (be sv : Nat) : State :=
  if be < s.beat + 2048 ∨ 4 ≤ s.fab.table.length ∨ 3840 < sv then s.setFld rPfStretchStat 3 1 1
  else if s.fab.table.contains (be, sv) then s
  else s.enterAnn be sv

/-- PF_STRETCH_REQ (R267). -/
def execPfStretchReq (v : W64) (s : State) : Res :=
  s.whenLive (fun s => s.stretchReq (bitsOf v.toNat 0 48) (bitsOf v.toNat 48 12))

/-- An announcement arrives (R268, R270). One that is held raises nothing. -/
def State.stretchArrives (s : State) (p be sv : Nat) : State :=
  if s.fab.table.contains (be, sv) then s
  else if be < s.beat + 64 ∨ 4 ≤ s.fab.table.length then
    if s.running then s.raise cStretchConflict 1 p else s.setFld rPfStretchStat 3 1 1
  else s.enterAnn be sv

/-- A flit with a good CRC has arrived: the silence count restarts (R242); PEER_HOLD follows its type. -/
def State.goodFlit (s : State) (p : Nat) (hold : Bool) : State :=
  (s.setPort p { s.port p with silence := 0 }).setFld (rPortStat p) 10 1 (b2n hold)

/-! ### Sending (R245, R248, R255, R259, R260) -/

/-- A DATA flit of stream `c`, sent at schedule slot `q` (Table 9.6). -/
def State.dataFlit (s : State) (c seq hop q : Nat) (last : Bool) (payload : List Byte) : Flit :=
  { type := 1, resend := false, last, stream := c, hop, sendStamp := s.packOf q % 2 ^ 24, nakValid := false,
    nakStamp := 0, seq, payload := pad224 payload }

/-- A NAK of this flit can still come: the copies reach the sender before its eligible point (R258, R259). -/
def State.nakable (s : State) (p : Nat) (x : SentFlit) : Bool := decide (s.now < s.packOf (x.slot + 2 * s.lambda p + 3))

/-- Put a flit on a port in schedule slot `q`, with the NAK due in that slot and its CRC (R243 to R245). -/
def State.putFlit (s : State) (p q : Nat) (f : Flit) : State :=
  let v := s.port p
  let t := s.packOf q
  let f := match v.nakAt t with
    | some n => { f with nakValid := true, nakStamp := n }
    | none => { f with nakValid := false, nakStamp := 0 }
  (s.setPort p { v with carried := max v.carried (t + 1) }).emit (.flit p q f.sealed)

/-- Send a DATA flit on a port and keep it for a re-send. -/
def State.sendData (s : State) (p q : Nat) (f : Flit) : State :=
  let v := s.port p
  let s := s.setPort p { v with sent := v.sent.filter (s.nakable p) ++ [{ time := s.packOf q, slot := q, flit := f }] }
  s.putFlit p q f

/-- The scheduled data is absent (R255): IDLE goes out and SLOT_MISSED is raised, but not in an armed run (R431). -/
def State.slotMissed (s : State) (unit index : Nat) : State :=
  if s.armed then s else s.raise cSlotMissed unit index

/-- A scheduled send in slot `q` (R242, R255): `data` is what the send buffer holds for it. -/
def State.sendSlot (s : State) (p q : Nat) (data : Option Flit) : State :=
  let v := s.port p
  if !s.portUp p then (if v.downRaised then s else s.raise cLinkDown 1 p)
  else if !v.stops.isEmpty then s
  else match data with
    | some f => s.sendData p q f
    | none => s.slotMissed 1 p

/-- Serve slot `q` of a port: it is not served again. -/
def State.served (s : State) (p q : Nat) : State := s.setPort p { s.port p with lastSend := q + 1 }

/-- The held flit that a forward run from `inPort` sends in slot `q` on port `p` (R260, R359): delivered on the in-port 12 slots
before. -/
def State.forwardHeld (s : State) (inPort p q : Nat) : Option Held :=
  s.fab.held.find? (fun h => h.kind == .forward inPort p && h.due + 12 == q)

/-- A flit held to be forwarded on port `p`. -/
def Held.forwardOn (p : Nat) (h : Held) : Bool :=
  match h.kind with
  | .forward _ o => o == p
  | _ => false

/-- A forward run of the port's table names slot `q` for what its in-port brought (R359). -/
def State.forwardNamed (s : State) (p q : Nat) (h : Held) : Bool :=
  match h.kind, s.tableAt p false q with
  | .forward i o, some (r, _) => o == p && r.ctx == 0x8000 + i
  | _, _ => false

/-- FORWARD_SEND (R260, R359): the earliest forwarded flit held for the port goes out 12 slots after its delivery slot, the slot that a
forward run from its in-port names; in another slot the port has no send for it. -/
def State.forwardNext (s : State) (p : Nat) : State :=
  match (s.fab.held.filter (Held.forwardOn p)).foldl
      (fun (m : Option Held) h => match m with
        | some b => if h.due < b.due then some h else m
        | none => some h) none with
  | none => s
  | some h =>
    let q := h.due + 12
    let named := s.forwardNamed p q h
    let s := (s.advanceTo (s.packOf q)).served p q
    let s := { s with fab := { s.fab with held := s.fab.held.erase h } }
    if named then s.sendSlot p q (some (s.dataFlit h.stream h.seq (h.hop + 1) q h.last h.payload)) else s

/-! ### NAK and re-send (R257 to R259) -/

/-- The latest pack time up to now with these low 12 bits. -/
def State.stampTime (s : State) (stamp : Nat) : Nat := s.now - (s.now + 4096 - stamp % 2 ^ 12) % 4096

/-- The flit that a port sent in the slot a NAK names, if it may be re-sent: DATA, an ANNOUNCE, or the IDLE of a slot with nothing else
in it (R258, R259). A STOP is not re-sent (R263), and a re-send not a second time. -/
def State.sentIn (s : State) (p stamp : Nat) : Option SentFlit :=
  let v := s.port p
  match v.sent.reverse.find? (fun x => x.time % 2 ^ 12 == stamp % 2 ^ 12 && s.nakable p x) with
  | some x => some x
  | none =>
    let t := s.stampTime stamp
    match s.slotOf t with
    | none => none
    | some q =>
      let f : Flit := { type := if s.fab.idleHold then 3 else 0, resend := false, last := false, stream := 0, hop := 0
                        sendStamp := t % 2 ^ 24, nakValid := false, nakStamp := 0, seq := 0, payload := pad224 [] }
      let x : SentFlit := match v.annSent.find? (fun e => e.1 == t) with
        | some e => { time := t, slot := q, flit := { f with type := 4 }, ann := some e.2 }
        | none => { time := t, slot := q, flit := f }
      let again := (s.txPlan p).any (fun e => e.2 == some q)
      let data := v.failedTx.any (fun e => e.1 == q) || v.sent.any (fun y => y.slot == q)
      if v.carried ≤ t || again || data || !v.stops.isEmpty || !s.nakable p x then none else some x

/-- NAK_RECEIVE (R258, R259): the failed flit is the one sent lately whose stamp the NAK carries. It joins the failed flits, whose
spares follow from their send slots; it is not sent a third time. -/
def State.nakArrives (s : State) (p stamp : Nat) : State :=
  let v := s.port p
  match s.sentIn p stamp with
  | none => s
  | some x =>
    if v.failedTx.any (fun e => e.1 == x.slot) then s
    else
      let old := v.failedTx.filter (fun e => !(e.2.2 && decide (e.1 + 31 < x.slot)))
      s.setPort p { v with failedTx := insKey (x.slot, x, false) old }

def execNakReceive (p stamp : Nat) (s : State) : Res :=
  s.whenLive (fun s => if s.issuing && s.portUp p then s.nakArrives p stamp else s)

/-- The NAK field of an arriving flit (R245, Table 9.6). -/
def State.nakOf (s : State) (p : Nat) (f : Flit) : State :=
  if f.nakValid && s.issuing && s.portUp p then s.nakArrives p f.nakStamp else s

/-- Re-send a flit in spare `sp` (R259): RESEND = 1 and its original stamp. -/
def State.resendIn (s : State) (p sp : Nat) (x : SentFlit) : State :=
  match x.ann with
  | none => s.putFlit p sp { x.flit with resend := true }
  | some a =>
    let t := s.packOf sp
    (s.setPort p { s.port p with carried := max (s.port p).carried (t + 1) }).emit
      (.annAgain p t (x.time % 2 ^ 24) ((s.port p).nakAt t) a)

/-- A failed flit of the sender is dealt with: re-sent, or its overrun raised. -/
def State.txDone (s : State) (p q : Nat) : State :=
  let v := s.port p
  s.setPort p { v with failedTx := v.failedTx.map (fun e => if e.1 = q then (e.1, e.2.1, true) else e)
                       sent := v.sent.filter (fun x => x.slot != q) }

/-- The receiver's side of R258: a failed flit of slot `q` will come again; its header told nothing, so of whatever TYPE it was. -/
def State.expectResend (s : State) (p q : Nat) : State :=
  let v := s.port p
  if v.failedRx.any (fun e => e.1 == q) then s
  else
    let old := v.failedRx.filter (fun e => !(e.2 && decide (e.1 + 31 < q)))
    s.setPort p { v with failedRx := insKey (q, false) old }

/-- The re-send of slot `q`'s flit has come, or failed to. -/
def State.rxDone (s : State) (p q : Nat) : State :=
  let v := s.port p
  s.setPort p { v with failedRx := v.failedRx.map (fun e => if e.1 = q then (q, true) else e) }

/-- The re-send of slot `q`'s flit is failed, absent or not that flit (R259). -/
def State.retryFails (s : State) (p q : Nat) : State := (s.rxDone p q).raise cRetryExhausted 1 p

/-- A failed flit of the peer's slot `q` (R244, R257): counted; NAK copies go in the two flits after the slot in which it was
checked; a failed flit in a re-send's spare is RETRY_EXHAUSTED (R259). -/
def State.failedFlit (s : State) (p q : Nat) : State :=
  let s := s.addFld (rPortErr p) 32 16 1
  if s.mode p ≠ 1 then s
  else
    let a := s.packOf q + s.lambda p
    let stamp := s.packOf q % 2 ^ 12
    let v := s.port p
    let s := s.setPort p { v with naks := v.naks ++ [(a + 1, stamp), (a + 2, stamp)] }
    if !s.issuing then s
    else match (s.expects p).find? (fun e => e.1 == q) with
      | some e => s.retryFails p e.2
      | none => s.expectResend p q

/-- FAILED_FLIT_RECEIVE (R244, R257). -/
def execFailedFlitReceive (p q : Nat) (s : State) : Res :=
  s.whenLive (fun s => if s.portUp p then s.failedFlit p q else s)

/-! ### Receiving (R252, R255, R256, R272) -/

/-- The link a flit of stream `c` arrives by, and what is done with it at its delivery slot. -/
def State.heldFor (s : State) (c : Stream) (ctx p q : Nat) (f : Flit) (seq : Nat) : Held :=
  let due := q + c.deltas.getD f.hop 0
  if f.hop + 1 < c.links ∧ c.dstHerd ≠ s.herdIndex then
    { due, kind := .forward p (c.route.getD (f.hop + 1) 0xFF), stream := ctx, seq, hop := f.hop, last := f.last,
      payload := f.payload }
  else { due, kind := .link p f.hop, stream := ctx, seq, hop := f.hop, last := f.last, payload := f.payload }

/-- Values of a COLLECTIVE payload's header agree with the instance its stream names (R295). -/
def State.collectiveOk (s : State) (c : Stream) (payload : List Byte) : Bool :=
  if c.kind != 4 then true
  else match s.job.bind (fun j => j.colls.find? (fun i => i.id == c.dst)) with
    | some i => fieldLe payload 0 2 == i.id && fieldLe payload 2 1 == i.kind
    | none => false

/-- Hold a good DATA flit of slot `q` until its delivery slot, after the stamp check (R252, R256). -/
def State.holdData (s : State) (p q : Nat) (f : Flit) : State :=
  match s.tableAt p true q with
  | none => s.raise cPacktimeSkew 1 p
  | some (r, seq) =>
    if f.sendStamp % 2 ^ 24 ≠ s.packOf q % 2 ^ 24 then s.raise cPacktimeSkew 1 p
    else match s.stream? (r.ctx % 0x8000) with
      | none => s.raise cPacktimeSkew 1 p
      | some c =>
        if s.collectiveOk c f.payload then
          { s with fab := { s.fab with held := s.fab.held ++ [s.heldFor c (r.ctx % 0x8000) p q f seq] } }
        else s.raise cSlotMissed 1 p

/-- A good flit that carries no DATA in a slot where DATA may have been due: SLOT_MISSED (R255); in an armed run it delivers nothing
(R431). -/
def State.noData (s : State) (p q : Nat) : State := if (s.tableAt p true q).isSome then s.slotMissed 1 p else s

/-- A good flit that carries no DATA in a slot: in a re-send's spare it is RETRY_EXHAUSTED unless it stands for the flit that failed
(R259). -/
def State.otherFlit (s : State) (p q : Nat) (f : Flit) : State :=
  if !s.issuing then s
  else match (s.expects p).find? (fun e => e.1 == q) with
    | some (_, q₀) =>
      if f.resend && f.sendStamp % 2 ^ 24 == s.packOf q₀ % 2 ^ 24 then (s.rxDone p q₀).noData p q₀ else s.retryFails p q₀
    | none => s.noData p q

/-- A good DATA flit: what its slot holds, or in a spare the re-send that stands for a failed flit. -/
def State.dataArrives (s : State) (p q : Nat) (f : Flit) : State :=
  if !s.issuing then s
  else match (s.expects p).find? (fun e => e.1 == q) with
    | some (_, q₀) =>
      if f.resend && f.sendStamp % 2 ^ 24 == s.packOf q₀ % 2 ^ 24 then (s.rxDone p q₀).holdData p q₀ f
      else s.retryFails p q₀
    | none => s.holdData p q f

/-- A flit arrives on an UP FABRIC port in the slot that slot `q` of the peer's sending maps to. A line block with more byte errors
than the FEC corrects, a bad CRC or a reserved TYPE makes it a failed flit (R238, R244). A good one ends the silence, brings its NAK
and its stamp (R242, R245, R249), and then does what its TYPE says. -/
def State.rx (s : State) (p q : Nat) (f : Flit) (x : Arrival) (hold : Bool) (k : State → State) : State :=
  if !(s.portUp p && s.mode p == 1) then s
  else
    let s := if fecCorrects x.errs then s.addFld (rPortErr p) 0 16 1 else s
    if fecOk x.errs && f.good then k (((s.goodFlit p hold).nakOf p f).measure p f x) else s.failedFlit p q

/-- DATA_FLIT_RECEIVE (R252, R256, R259). -/
def execDataFlitReceive (p q : Nat) (f : Rx) (s : State) : Res :=
  s.whenLive (fun s => s.rx p q f.flit f.how false
    (fun s => if f.flit.type = 1 then s.dataArrives p q f.flit else s.otherFlit p q f.flit))

/-- IDLE_FLIT_RECEIVE (R242, R255). -/
def execIdleFlitReceive (p q : Nat) (f : Rx) (s : State) : Res :=
  s.whenLive (fun s => s.rx p q f.flit f.how false (fun s => s.otherFlit p q f.flit))

/-- IDLE_HOLD_RECEIVE (R272). -/
def execIdleHoldReceive (p : Nat) (f : SlotRx) (s : State) : Res :=
  s.whenLive (fun s => s.rx p f.slot f.rx.flit f.rx.how true (fun s => s.otherFlit p f.slot f.rx.flit))

/-- What an ANNOUNCE flit brings (R250, R268): from the parent the pack time, which a package keeps for its lock until it is locked; a
stretch announcement otherwise. -/
def State.announced (s : State) (p : Nat) (a : Announce) : State :=
  match a with
  | .stretch be sv => s.stretchArrives p be sv
  | .time _ _ _ _ _ =>
    if s.follows ∧ p = s.fld rPfSyncCtrl 1 5 ∧ s.fld rPfSyncStat 0 1 = 0 then
      { s with fab := { s.fab with parent := some (s.now, a) } }
    else s

/-- ANNOUNCE_FLIT_RECEIVE (R250, R255, R268). -/
def execAnnounceFlitReceive (p : Nat) (f : AnnRx) (s : State) : Res :=
  s.whenLive (fun s => s.rx p f.slot f.rx.flit f.rx.how false (fun s => (s.otherFlit p f.slot f.rx.flit).announced p f.ann))

/-! ### STOP (R262 to R266) -/

/-- Forward a STOP of a new origin on the other UP FABRIC ports (R263). -/
def State.forwardStop (s : State) (p origin reason time : Nat) : State :=
  let s := s.sendStop (s.fabricUp.filter (· != p)) origin reason time
  { s with fab := { s.fab with originsFwd := s.fab.originsFwd ++ [origin] } }

/-- A STOP from the peer ends the port's repetition of the package's first STOP, and of the same origin's (R263). -/
def State.peerStopped (s : State) (p origin : Nat) : State :=
  let v := s.port p
  s.setPort p { v with stops := v.stops.filter (fun r => r.left.isSome && r.origin != origin)
                       stopsSeen := v.stopsSeen ++ [origin] }

/-- A STOP of a package's herd (R263, R265, R423): a new origin's is forwarded; a running package halts, with its own fault where a
core's own condition arose before. -/
def State.stopArrives (s : State) (p origin reason time : Nat) : State :=
  let s := (s.setFld (rPortStat p) 11 1 1).peerStopped p origin
  if !(s.running || s.bu == stHalted) || s.fab.originsFwd.contains origin
      || (s.fab.stopOut && origin == s.herdIndex) then s
  else
    let s := s.endHalts.forwardStop p origin reason time
    let s := s.recordStop origin reason time false
    if s.running then
      let s := { s with fab := { s.fab with issueStopped := true, haltedAt := some s.now } }
      (s.stopCores cStopReceived).enterHalted
    else s

/-- STOP_FLIT_RECEIVE (R255, R263). Where the slot named DATA the package has a fault of its own in that slot, SLOT_MISSED; R265
still records the STOP that was detected first. -/
def execStopFlitReceive (p q : Nat) (f : Rx) (m : StopMsg) (s : State) : Res :=
  s.whenLive (fun s => s.rx p q f.flit f.how false
    (fun s => (s.otherFlit p q f.flit).stopArrives p m.origin m.reason m.time))

end Sys2Proof.Machine
end

