-- ==== Sys2Proof/Machine/Tensors.lean ====
section
/-! DEFINITION. Where the parts of a manifest tensor lie in device memory, how its elements are laid out, which
version or generation a step reads and writes, and the noseprint of a shard (R36, R46, R184 to R193, R275, R297). -/

namespace Sys2Proof.Machine
open Sys2Proof

/-! ### Formats and shapes -/

/-- A manifest format code (Table 7.6, Table 13.6); the code of I8 is not given (log entry 15). -/
def fmtOfCode (c : Nat) : Option Fmt :=
  if c = 0x01 then some .w2 else if c = 0x02 then some .w1 else if c = 0x03 then some .m8bs
  else if c = 0x04 then some .m8bu else if c = 0x10 then some .t8f else if c = 0x11 then some .t8g
  else if c = 0x12 then some .t16 else if c = 0x13 then some .t32 else if c = 0x20 then some .rbuf
  else if c = 0x21 then some .scent else if c = 0x22 then some .status
  else if c = Config.i8FormatCode then some .i8 else none

def Tensor.format (t : Tensor) : Fmt := (fmtOfCode t.fmt).getD .status

/-- Elements of a tensor. -/
def Tensor.numel (t : Tensor) : Nat := t.dims.foldl (· * ·) 1

/-- Length of a row: the last dimension (dimensions are stored outermost first). -/
def Tensor.rowLen (t : Tensor) : Nat := max 1 (t.dims.getD (t.rank - 1) 1)

def Tensor.slow (t : Tensor) : Bool := bitsOf t.flags 2 1 == 1
def Tensor.sr (t : Tensor) : Bool := bitsOf t.flags 1 1 == 1
def Tensor.pow2 (t : Tensor) : Bool := bitsOf t.flags 0 1 == 1

/-- Formats whose tensors carry a scale (R52). -/
def scaled (f : Fmt) : Bool := f == .t8f || f == .t8g || f == .t16 || f == .i8

/-- Kinds of Table 13.6. -/
def kActivation : Nat := 1
def kWorking : Nat := 4
def kMaster : Nat := 5
def kM1 : Nat := 6
def kM2 : Nat := 7
def kEma : Nat := 8
def kState : Nat := 9
def kReduce : Nat := 10
def kInput : Nat := 12
def kCtx : Nat := 13
def kChry : Nat := 14

/-- Bytes of one element of an unpacked format. -/
def elemSize (f : Fmt) (ns : Nat) : Nat :=
  match f with
  | .t8f | .t8g | .i8 => 1
  | .t16 => 2
  | .t32 => 4
  | .rbuf => 8 * max 1 ns
  | .status => 16
  | _ => 64

/-- Lines of one row of a packed tensor (R46). -/
def linesPerRow (f : Fmt) (row : Nat) : Nat := ceilDiv row (codesPerLine f)

/-- The line that holds element `e`, counted from element 0 (R46). -/
def lineOf (f : Fmt) (row e : Nat) : Nat := e / row * linesPerRow f row + e % row / codesPerLine f

/-- Byte offset of element `e` from element 0: of the element itself, or of its line. -/
def elemOffset (f : Fmt) (ns row e : Nat) : Nat :=
  if isPacked f then 64 * lineOf f row e else elemSize f ns * e

/-- Valid elements of line `l`: the first one and how many (R46). -/
def lineElems (f : Fmt) (row l : Nat) : Nat × Nat :=
  let lpr := max 1 (linesPerRow f row)
  let c := l % lpr * codesPerLine f
  (l / lpr * row + c, min (codesPerLine f) (row - c))

def Tensor.offset (t : Tensor) (e : Nat) : Nat := elemOffset t.format t.ns t.rowLen e

/-- Bytes that elements `first` to `first + count − 1` occupy. -/
def Tensor.bytesOf (t : Tensor) (first count : Nat) : Nat :=
  if count = 0 then 0
  else if isPacked t.format then t.offset (first + count - 1) + 64 - t.offset first
  else elemSize t.format t.ns * count

/-! ### Placement and versions -/

def Job.tensor? (j : Job) (i : Nat) : Option Tensor := j.tensors.find? (fun t => t.index == i)

/-- Elements of a placed part: those of the shard that starts there, else the whole tensor (Table 13.3). -/
def Job.partCount (j : Job) (t : Tensor) (first : Nat) : Nat :=
  match j.shards.find? (fun s => s.tensor == t.index && s.first == first) with
  | some s => s.count
  | none => t.numel - first

/-- Version slots of a tensor: k + 1 working copies at stage k, two generations of slow-layer copies, D + 1 slow
reduction buffer slots, N_s staging slots (R185, R188, R189, R200). -/
def Job.slotsOf (j : Job) (t : Tensor) : Nat :=
  if t.slow then
    if t.kind = kReduce then j.hdr.delayD + 1
    else if kWorking ≤ t.kind ∧ t.kind ≤ kState then 2 else 1
  else if t.kind = kWorking then t.stage + 1
  else if t.kind = kChry then max 1 j.hdr.ns else 1

/-- Bytes from one version slot of a part to the next: slots lie one after another, each at a 64 B boundary (log
entry 16, DESIGN CHOICE). -/
def slotStride (bytes : Nat) : Nat := ceilDiv bytes 64 * 64

/-- The part that holds element `e`, and how many elements it has. -/
def Job.part? (j : Job) (t : Tensor) (e : Nat) : Option (Place × Nat) :=
  (j.places.filter (fun p => p.tensor == t.index)).findSome? (fun p =>
    let n := j.partCount t p.first
    if p.first ≤ e ∧ e < p.first + n then some (p, n) else none)

/-- The address of element `e`'s bytes in version slot `v`, and how many elements of the part follow from `e`. -/
def Job.addr? (j : Job) (t : Tensor) (v e : Nat) : Option (Nat × Nat) :=
  (j.part? t e).map (fun (p, n) =>
    (p.addr + v * slotStride (t.bytesOf p.first n) + (t.offset e - t.offset p.first), p.first + n - e))

/-- The address of elements `e` to `e + n − 1`, if one part holds them all. -/
def Job.range? (j : Job) (t : Tensor) (v e n : Nat) : Option Nat :=
  match j.addr? t v e with
  | some (a, k) => if n ≤ k then some a else none
  | none => none

/-- s_fb of R106: the smallest power of two with amax × 2^(−e) ≤ 448; 1 when amax is 0. A free power of two in the clamp's range
when amax is not finite, since no e meets the rule there (log entry 29, DESIGN CHOICE). -/
def fallbackScale (amax : Xv) : W32 :=
  match amax with
  | .fin _ n _ => if n = 0 then t32One else t32Pow2 (smallestExp amax (xOfNat 448))
  | _ => t32Pow2 ((Config.nonfiniteExponent % 254 : Nat) - 126)

/-- The fallback scale of a layer's master (R106). -/
def State.fallback (s : State) (master : Nat) : W32 := (getAssoc s.stp.sfb master).getD t32One

/-- The version slot that the products and transfers of the current step read (R184, R185, R193). -/
def State.readSlot (s : State) (j : Job) (t : Tensor) : Nat :=
  if t.slow then
    if t.kind = kReduce then s.stp.step % (j.hdr.delayD + 1) else s.stp.n % 2
  else if t.kind = kWorking then (s.stp.v - t.stage) % (t.stage + 1)
  else if t.kind = kChry then s.stp.snapSlot else 0

/-- The version slot that an update pass writes: version v + 1 of a fast layer, the other generation of a slow one
(R185, R188). -/
def State.writeSlot (s : State) (_j : Job) (t : Tensor) : Nat :=
  if t.slow then (s.stp.n + 1) % 2
  else if t.kind = kWorking then (s.stp.v + 1) % (t.stage + 1) else 0

/-- The version slot of the newest version (R185, R188). -/
def State.newestSlot (s : State) (t : Tensor) : Nat :=
  if t.slow then s.stp.n % 2 else if t.kind = kWorking then s.stp.v % (t.stage + 1) else 0

/-- Subnormal mode of a tensor class (R54). -/
def Job.flush (j : Job) (cls : Nat) : Bool := bitsOf j.hdr.subnormal cls 1 == 1

/-- A tensor's current scale: 1 for formats that carry none (R52, R53). -/
def State.scaleOf (s : State) (t : Tensor) : W32 :=
  match t.format with
  | .t8f | .t8g | .t16 | .i8 => ((s.stp.scales.find? (fun e => e.1 == t.index)).map (·.2)).getD t.scale
  | _ => t32One

/-- The scale bound to the codes in a version slot: the one they were written with, since a scale changes at a step origin and
the codes of a copy that an update pass writes stay (R153, R181). -/
def State.scaleIn (s : State) (t : Tensor) (v : Nat) : W32 := (getAssoc s.stp.bound (16 * t.index + v)).getD (s.scaleOf t)

/-- The scale bound to what the current step reads of a tensor. -/
def State.scaleAt (s : State) (j : Job) (t : Tensor) : W32 := s.scaleIn t (s.readSlot j t)

/-- A version slot is written with the scale in force. -/
def State.bindScale (s : State) (t : Tensor) (v : Nat) : State :=
  if scaled t.format then
    { s with stp := { s.stp with bound := setAssoc s.stp.bound (16 * t.index + v) (s.scaleOf t) } }
  else s

/-- A receive run of this package brings the stream in. -/
def Job.received (j : Job) (k : Nat) : Bool := j.runs.any (fun r => r.recv && r.ctx == k)

/-! ### Train masks (R170) -/

/-- Rows and columns of a tensor in the master's n-major orientation. -/
def maskShape (m : Config.TrainMask) (t : Tensor) : Nat × Nat :=
  let (r, c) := (t.numel / t.rowLen, t.rowLen)
  if m.transp then (c, r) else (r, c)

/-- Table 6.10: a granularity, and the bitmap it asks for. -/
def maskOk (m : Config.TrainMask) (t : Tensor) : Bool :=
  let (r, c) := maskShape m t
  decide (m.bits.length = if m.gran = 0 then r else if m.gran = 1 then ceilDiv r 32 else ceilDiv r 32 * ceilDiv c 32)
    && decide (m.gran ≤ 2)

/-- Element `e` is trained. -/
def trained (m : Config.TrainMask) (t : Tensor) (e : Nat) : Bool :=
  let (i, k) := (e / t.rowLen, e % t.rowLen)
  let (r, c) := if m.transp then (k, i) else (i, k)
  if m.gran = 0 then m.bits.getD r true
  else if m.gran = 1 then m.bits.getD (r / 32) true
  else m.bits.getD (r / 32 * ceilDiv (maskShape m t).2 32 + c / 32) true

def Job.trainedAt (j : Job) (t : Tensor) (e : Nat) : Bool := (getAssoc j.masks t.index).all (fun m => trained m t e)

/-! ### Noseprints (R296, R297) -/

/-- The CRC-64 of a shard's stored bytes in version slot `v`. -/
def State.shardPrint (s : State) (j : Job) (sh : Shard) (v : Nat) : W64 :=
  match j.tensor? sh.tensor with
  | some t =>
    match j.addr? t v sh.first with
    | some (a, _) => BitVec.ofNat 64 (crc64 (s.load a (t.bytesOf sh.first sh.count)))
    | none => 0
  | none => 0

/-- Record a noseprint for the version written in step `st`. -/
def State.notePrint (s : State) (shard st : Nat) (v : W64) : State :=
  { s with stp := { s.stp with prints := (s.stp.prints.filter (fun e => e.1 != shard)) ++ [(shard, v, st)] } }

/-- The shards of a tensor that this package holds: those with a placed part. -/
def Job.heldShards (j : Job) (t : Tensor) : List Shard :=
  j.shards.filter (fun sh => sh.tensor == t.index && j.places.any (fun p => p.tensor == t.index && p.first == sh.first))

/-- The noseprint of a shard: as noted when its newest version was written, else that of the bytes installed. -/
def State.printOf (s : State) (shard : Nat) : W64 :=
  match s.stp.prints.find? (fun e => e.1 == shard) with
  | some e => e.2.1
  | none =>
    match s.job.bind (fun j => (j.shards.find? (fun sh => sh.index == shard)).map (fun sh => (j, sh))) with
    | some (j, sh) => s.shardPrint j sh (match j.tensor? sh.tensor with
      | some t => s.newestSlot t
      | none => 0)
    | none => 0

/-! ### Shape of the herd (R177, Table 13.7) -/

/-- Packages per replica. -/
def Job.perReplica (j : Job) : Nat := j.hdr.herd / max 1 j.hdr.replicas

/-- This package's position in its replica. -/
def Job.position (j : Job) : Nat := j.herdIdx % max 1 j.perReplica
def Job.replica (j : Job) : Nat := j.herdIdx / max 1 j.perReplica
def Job.owns (j : Job) (sh : Shard) : Bool := sh.owner == j.position
def Job.holds (j : Job) (sh : Shard) : Bool := j.owns sh || sh.holders.contains j.position

/-- Placed parts of a tensor, in increasing first element. -/
def Job.partsOf (j : Job) (t : Tensor) : List Place :=
  (sortKeys ((j.places.filter (fun p => p.tensor == t.index)).map (fun p => (p.first, p)))).map (·.2)

/-- This package owns the part: it owns the shard that starts there; a part without a shard entry is its own. -/
def Job.ownsPart (j : Job) (p : Place) : Bool :=
  (j.shards.filter (fun sh => sh.tensor == p.tensor && sh.first == p.first)).all j.owns

/-! ### Passes of a step (R189 to R191, R216) -/

def Job.hasSlow (j : Job) : Bool := j.tensors.any Tensor.slow

/-- The slow slot whose pass runs in the current step: the record of step `step − D` (R189, R190). -/
def State.slowDue (s : State) (j : Job) : Option SlowRec :=
  if j.hasSlow ∧ j.hdr.delayD ≤ s.stp.step then
    s.stp.slowRecs.find? (fun r => r.step == s.stp.step - j.hdr.delayD)
  else none

/-- A layer has an update pass in this step: a fast layer unless the step skips, a slow one when its slot's record does not
skip. -/
def State.passRuns (s : State) (j : Job) (t : Tensor) : Bool :=
  if t.slow then match s.slowDue j with
    | some r => !r.skip
    | none => false
  else !s.stp.skip

/-- Masters of an update-list layer of which this package owns a part. -/
def Job.ownedMasters (j : Job) (l : Nat) : List Tensor :=
  j.tensors.filter (fun t => t.kind == kMaster && t.layer == l
    && (j.partsOf t).any j.ownsPart)

/-- Elements of a master that this package owns. -/
def Job.ownedElems (j : Job) (t : Tensor) : Nat := (((j.partsOf t).filter j.ownsPart).map (fun p => j.partCount t p.first)).sum

/-! ### Norm units (R211, R290, R293) -/

/-- The parts of a layer's gradients by owner: layer, owner's position, tensor, first element, count. A tensor without shard
entries is its package's own. -/
def Job.gradParts (j : Job) : List (Nat × Nat × Nat × Nat × Nat) :=
  (j.tensors.filter (fun t => t.kind == kReduce)).flatMap (fun t =>
    let shs := j.shards.filter (fun sh => sh.tensor == t.index)
    if shs.isEmpty then [(t.layer, j.position, t.index, 0, t.numel)]
    else (sortKeys (shs.map (fun sh => (sh.first, sh)))).map (fun e => (t.layer, e.2.owner, t.index, e.2.first, e.2.count)))

/-- The units in increasing order of their first element: layer and owner. -/
def Job.normUnits (j : Job) : List (Nat × Nat) := (j.gradParts.map (fun p => (p.1, p.2.1))).eraseDups

/-- Index of the unit that is this package's part of a layer. -/
def Job.unitIndex (j : Job) (layer : Nat) : Nat := j.normUnits.findIdx (fun u => u == (layer, j.position))

/-- Elements of one leaf's range of a tensor with count-invariant reduction; 0 without it (R290). -/
def Job.leafLen (j : Job) (t : Tensor) : Nat := if bitsOf j.hdr.flags 0 1 = 1 then max 1 (ceilDiv t.numel 2048) else 0

/-- The index of the first norm unit of gradient tensor `g` here: without count-invariant reduction its layer's one unit; with it the
units are the norm ranges of every gradient tensor, 2,048 for each, in manifest order (R211, R290, R293; log entry 136). -/
def Job.unitBase (j : Job) (g : Tensor) : Nat :=
  if bitsOf j.hdr.flags 0 1 = 1 then 2048 * (j.tensors.filter (fun t => t.kind == kReduce && decide (t.index < g.index))).length
  else j.unitIndex g.layer

/-- The norm unit of element `e` of gradient tensor `g`. -/
def Job.normUnit (j : Job) (g : Tensor) (e : Nat) : Nat :=
  if j.leafLen g = 0 then j.unitBase g else j.unitBase g + e / j.leafLen g

end Sys2Proof.Machine
end

