-- ==== Sys2Proof/Machine/Reduce.lean ====
section
/-! DEFINITION. Delivery to endpoints, PLACE writes, the reduction units and the collectives (Chapter 10, R256, R474,
Table 10.3 to Table 10.6), and the scheduled sends, whose COLLECTIVE flits carry an engine's values. -/

namespace Sys2Proof.Machine
open Sys2Proof

/-! ### The compensated add (R278, R279) -/

def pz32 : W32 := 0
def nan32 : W32 := 0x7FC0_0000#32
def inf32 (neg : Bool) : W32 := if neg then 0xFF80_0000#32 else 0x7F80_0000#32

def finite32 (w : W32) : Bool := xIsFinite (valT32 w)

/-- pairadd of R278 with the non-finite cases of R279. -/
def pairadd (a b : AccElem) : AccElem :=
  let xs := [a.1, a.2, b.1, b.2].map valT32
  let sum := xAdd (valT32 a.1) (valT32 b.1)
  if xs.any xIsNan then (nan32, pz32)
  else if xs.any (fun x => x == .inf false) ∧ xs.any (fun x => x == .inf true) then (nan32, pz32)
  else if xs.any (fun x => x == .inf false) then (inf32 false, pz32)
  else if xs.any (fun x => x == .inf true) then (inf32 true, pz32)
  else if overflows32 sum then (inf32 (xSign sum), pz32)
  else
    let t := rne32z sum
    (t, rne32z (xAdd (xAdd (valT32 a.2) (valT32 b.2)) (xSub sum (valT32 t))))

/-- The main field of an empty RBT slot (R275). -/
def emptyMain : W32 := 0xFFFF_FFFF#32
def slotEmpty (e : AccElem) : Bool := e.1 == emptyMain
/-- An empty slot. The spec fixes its main field only: the model's err is +0 (DESIGN CHOICE, log entry 134). -/
def emptySlot : AccElem := (emptyMain, pz32)

/-- The gradient value main + err, exact (R276), of slot 0 of an element of `ns` slots; RBC, of none, has no empty slot. -/
def pairValue (ns : Nat) (e : AccElem) : Xv :=
  if ns ≠ 0 && slotEmpty e then xZero else xAdd (valT32 e.1) (valT32 e.2)

def pairBytes (e : AccElem) : List Byte := leBytes 4 e.1.toNat ++ leBytes 4 e.2.toNat
def pairOf (bs : List Byte) : AccElem := (BitVec.ofNat 32 (fieldLe bs 0 4), BitVec.ofNat 32 (fieldLe bs 4 4))

/-- The zero state of an element (R276): +0 in RBC, every slot empty in RBT. -/
def zeroElem (ns : Nat) : List Byte :=
  if ns = 0 then pairBytes (pz32, pz32) else (List.range ns).flatMap (fun _ => pairBytes emptySlot)

/-- RBT insertion of R288 on an element's slots; `fuel` bounds the levels climbed. -/
def rbtInsert (top lmap : Nat) : (fuel : Nat) → List AccElem → (lv : Nat) → AccElem → List AccElem
  | 0, e, _, _ => e
  | k + 1, e, lv, x =>
    if lv = top then e.set 0 x
    else
      let i := bitsOf lmap (4 * lv) 4
      let cur := e.getD i emptySlot
      if slotEmpty cur then e.set i x
      else rbtInsert top lmap k (e.set i emptySlot) (lv + 1) (pairadd cur x)

/-! ### Delivery (R256, R280, R474) -/

/-- Contributions per flit of a REDUCE stream: 56 in T32, 28 in PAIR form. -/
def contribPer (c : Stream) : Nat := if bitsOf c.flags 0 1 = 1 then 28 else 56

/-- The range a REDUCE stream names, and its tensor. -/
def State.redTarget (s : State) (c : Stream) : Option (Job × RedRange × Tensor) :=
  s.job.bind (fun j => (j.ranges[c.dst]?).bind (fun r => (j.tensor? r.tensor).map (fun t => (j, r, t))))

/-- Positions of a REDUCE flit with the addresses of the elements they reach, in payload order. -/
def State.redElems (s : State) (c : Stream) (seq : Nat) : List (Nat × Nat) :=
  match s.redTarget c with
  | none => []
  | some (j, r, t) => (List.range (contribPer c)).filterMap (fun i =>
      let e := c.dstAddr + seq * contribPer c + i
      if e < r.first ∨ r.first + r.count ≤ e then none else (j.addr? t (s.readSlot j t) e).map (fun a => (i, a.1)))

/-- Contributions of a flit to one stack's unit. -/
def State.redCount (s : State) (c : Stream) (seq stack : Nat) : Nat :=
  ((s.redElems c seq).filter (fun p => p.2 / stackBytes == stack)).length

/-- Telemetry of Table 10.6: contributions pending in a unit that has taken new ones. -/
def State.backlog (s : State) (stack : Nat) : State :=
  let n := ((s.fab.held.filter (fun h => h.kind == .reduce stack)).map (fun h => match s.stream? h.stream with
    | some c => s.redCount c h.seq stack
    | none => 0)).sum
  s.setFld rPfRedStat 32 16 (max (s.fld rPfRedStat 32 16) (min 0xFFFF n))

/-- A REDUCE flit is handed to the unit of each stack that its elements lie in (R281). -/
def State.holdReduce (s : State) (h : Held) (c : Stream) : State :=
  ((s.redElems c h.seq).map (fun p => p.2 / stackBytes)).eraseDups.foldl (fun s k =>
    ({ s with fab := { s.fab with held := s.fab.held ++ [{ h with kind := .reduce k }] } }).backlog k) s

/-! ### Collective engines (R291 to R295) -/

def State.coll (s : State) (id : Nat) : CollSt :=
  (s.fab.colls.find? (fun c => c.id == id)).getD { id, vals := [], streams := [], result := [] }

def State.setColl (s : State) (c : CollSt) : State :=
  { s with fab := { s.fab with colls := (s.fab.colls.filter (fun x => x.id != c.id)) ++ [c] } }

def State.inst? (s : State) (id : Nat) : Option CollInst := s.job.bind (fun j => j.colls.find? (fun i => i.id == id))

/-- The larger of two MAX values (Table 10.3): −0 is +0, canonical NaN if either is NaN. -/
def maxMag (a b : W32) : W32 :=
  if xIsNan (valT32 a) || xIsNan (valT32 b) then nan32
  else
    let a := if a = 0x8000_0000#32 then pz32 else a
    let b := if b = 0x8000_0000#32 then pz32 else b
    if xLt (valT32 a) (valT32 b) then b else a

/-- The larger of two vectors of MAX values, element by element; +0 where one ends (R230, Table 10.3). -/
def maxMags (a b : List W32) : List W32 :=
  (List.range (max a.length b.length)).map (fun k => maxMag (a.getD k pz32) (b.getD k pz32))

/-- Combine one value into an engine (Table 10.3): OR, MIN and MAX combine; a unit's partial and a shard's print are
kept once, a partial growing by the flits of the stream that brought its start. -/
def mergeVal (vals : List CVal) (v : CVal) : List CVal :=
  match v with
  | .orBits x =>
    if vals.any (fun w => match w with | .orBits _ => true | _ => false)
    then vals.map (fun w => match w with | .orBits y => .orBits (y ||| x) | w => w) else vals ++ [v]
  | .minKey x =>
    if vals.any (fun w => match w with | .minKey _ => true | _ => false)
    then vals.map (fun w => match w with | .minKey y => .minKey (min y x) | w => w) else vals ++ [v]
  | .maxMag x =>
    if vals.any (fun w => match w with | .maxMag _ => true | _ => false)
    then vals.map (fun w => match w with | .maxMag y => .maxMag (maxMags y x) | w => w)
    else vals ++ [.maxMag (maxMags [] x)]
  | .csum u src xs =>
    if vals.any (fun w => match w with | .csum u' _ _ => u' == u | _ => false)
    then vals.map (fun w => match w with
      | .csum u' src' ys => if u' = u ∧ src.isSome ∧ src' = src then .csum u' src' (ys ++ xs) else .csum u' src' ys
      | w => w)
    else vals ++ [v]
  | .print sh _ =>
    if vals.any (fun w => match w with | .print sh' _ => sh' == sh | _ => false) then vals else vals ++ [v]

def State.contributeVals (s : State) (id : Nat) (stream : Option Nat) (vs : List CVal) : State :=
  let c := s.coll id
  s.setColl { c with vals := vs.foldl mergeVal c.vals
                     streams := match stream with
                       | some i => if c.streams.contains i then c.streams else c.streams ++ [i]
                       | none => c.streams }

/-- C: the status collective's delivery slot in the schedule in force (R116, R208). The wide schedule's own status
collective is the herd OR collective with a later delivery slot that has a norm collective E_n slots after it (log
entry 18). -/
def State.statusSlot (s : State) : Nat :=
  match s.job with
  | none => 0
  | some j =>
    if !s.stp.wide then j.hdr.statusDel
    else
      let ors := (j.colls.filter (fun i => i.group == 0 && i.kind == 1)).map (·.delivery)
      let late := ors.filter (fun d => j.hdr.statusDel + j.hdr.eN < d)
      match late.filter (fun d => late.contains (d + j.hdr.eN)) with
      | [] => j.hdr.statusDel
      | d :: r => r.foldl min d

/-- N: the norm collective's delivery slot in the schedule in force (R208). -/
def State.normSlot (s : State) : Nat :=
  s.statusSlot + match s.job with
    | some j => j.hdr.eN
    | none => 0

/-- What a collective decides (Table 10.4). -/
inductive CollUse where
  | status | norm | layer | maxima | print | other
  deriving DecidableEq, Repr

def State.collUse (s : State) (i : CollInst) : CollUse :=
  if i.kind = 5 then .print
  else if i.group = 0 ∧ i.delivery = s.statusSlot then .status
  else if i.group ≤ 1 ∧ i.delivery = s.normSlot then .norm
  else if i.group = 2 then .layer
  else if i.group = 3 then .maxima
  else .other

/-! ### The norm pass (R210, R211) -/

/-- The version slot of a gradient of the current step. -/
def State.gradSlot (s : State) (j : Job) (t : Tensor) : Nat := s.readSlot j t

/-- This package's gradient elements of a layer: tensor, element, exact value; in increasing manifest and canonical index. -/
def State.ownGrads (s : State) (j : Job) (layer : Nat) : List (Tensor × Nat × Xv) :=
  (j.gradParts.filter (fun p => p.1 == layer && p.2.1 == j.position)).flatMap (fun (_, _, x, f, n) => match j.tensor? x with
    | some t => (List.range n).filterMap (fun i => (j.addr? t (s.gradSlot j t) (f + i)).map (fun a =>
        (t, f + i, pairValue t.ns (pairOf (s.load a.1 8)))))
    | none => [])

/-- Layers whose gradients this package owns. -/
def Job.ownLayers (j : Job) : List Nat := ((j.gradParts.filter (fun p => p.2.1 == j.position)).map (·.1)).eraseDups

/-- Positions of non-finite gradient elements (R210). -/
def State.badGrads (s : State) (j : Job) : List Nat :=
  j.ownLayers.flatMap (fun l => ((s.ownGrads j l).filter (fun e => !xIsFinite e.2.2)).map (fun e =>
    e.1.index * 2 ^ 64 + e.2.1))

/-- The partial of a unit: Σ g² by R69 over its elements, g exact; a masked one contributes zero (R171, R211). -/
def normPartial (j : Job) (es : List (Tensor × Nat × Xv)) : W32 :=
  sum69 (es.map (fun e => if j.trainedAt e.1 e.2.1 then xMul e.2.2 e.2.2 else xZero))

/-- The partials of this package's units: its part of each layer, or of each norm range with count-invariant reduction. -/
def State.normPartials (s : State) (j : Job) : List (Nat × W32) :=
  let es := j.ownLayers.flatMap (s.ownGrads j)
  ((es.map (fun e => j.normUnit e.1 e.2.1)).eraseDups).map (fun u =>
    (u, normPartial j (es.filter (fun e => j.normUnit e.1 e.2.1 == u))))

/-- What the package's norm pass gives a norm collective (R210, R211). -/
def State.ownNorm (s : State) (i : CollInst) : List CVal :=
  match s.job with
  | none => []
  | some j =>
    if i.kind = 1 then [.orBits (b2n (!(s.badGrads j).isEmpty))]
    else if i.kind = 2 then [.minKey ((s.badGrads j).foldl min (2 ^ 96 - 1))]
    else if i.kind = 4 then (s.normPartials j).map (fun p => .csum p.1 none [p.2])
    else []

/-- What the package itself adds to a collective. Status (R115, R195, R209, R93): the widen bit (never in a wide step, R118),
NF_T, SNAP_REQ of a waiting request for the next step, and the lowest TS_FIRST_NF position; norm: its norm pass. -/
def State.ownStatus (s : State) (i : CollInst) : List CVal :=
  match s.collUse i with
  | .status =>
    if i.kind = 1 then
      [.orBits (b2n (s.stp.localWiden && !s.stp.wide) + 2 * b2n s.stp.localNfT
        + 4 * b2n (s.hl.snapReqs.any (fun r => r.2.2 == s.stp.step + 1)))]
    else if i.kind = 2 then [.minKey s.stp.localMin] else []
  | .norm => s.ownNorm i
  | _ => []

/-! ### Layer statistics (R217, R230) -/

/-- Owners of a layer within a replica. -/
def Job.layerOwners (j : Job) (l : Nat) : List Nat :=
  ((j.shards.filter (fun sh => (j.tensor? sh.tensor).any (fun t => t.kind == kMaster && t.layer == l))).map (·.owner)).eraseDups

/-- A layer's statistics instances: in order of delivery they are its reductions in program order, those of the wide schedule after
the normal ones (log entry 114, DESIGN CHOICE). -/
def Job.layerInsts (j : Job) (l : Nat) : List CollInst :=
  (sortKeys ((j.colls.filter (fun i => i.group == 2 && i.key == l)).map (fun i => (i.delivery, i)))).map (·.2)

/-- The instance of the recipe's layer reduction `k`. -/
def State.layerInst (s : State) (j : Job) (r : Recipe) (l k : Nat) : Option CollInst :=
  (j.layerInsts l)[k + if s.stp.wide then r.layerReds else 0]?

/-- Values of one unit in an instance: a column vector's for CRED, else 1 (R230, Table 10.3). -/
def Job.collWidth (j : Job) (i : CollInst) : Nat :=
  if i.group ≠ 2 then 1
  else
    let ops := (recipeOf (j.recipes.getD i.key [])).layerOps
    match ops[(j.layerInsts i.key).findIdx (· == i) % max 1 ops.length]? with
    | some o =>
      if o.op = 0x21 then ((j.tensors.find? (fun t => t.kind == kMaster && t.layer == i.key)).map (·.rowLen)).getD 1 else 1
    | none => 1

/-- The last send slot of an instance has passed. -/
def State.lastSendPast (s : State) (i : CollInst) : Bool := decide (s.packOf (s.stp.origin + i.lastSend) < s.now)

/-- An engine's values as they would be sent now. -/
def State.engineVals (s : State) (i : CollInst) : List CVal :=
  let vs := (s.coll i.id).vals
  if s.lastSendPast i then vs else (s.ownStatus i).foldl mergeVal vs

/-- A flit of `n` values whose first names unit or shard `first` (Table 10.5). -/
def collFlit (i : CollInst) (first : Nat) (n : Nat) (body : List Byte) : List Byte :=
  leBytes 2 i.id ++ leBytes 1 i.kind ++ leBytes 1 n ++ leBytes 4 first ++ body

def collWords (i : CollInst) (first : Nat) (ys : List W32) : List Byte :=
  collFlit i first ys.length (ys.flatMap (fun y => leBytes 4 y.toNat))

/-- Single values of consecutive units joined, 54 at most (Table 10.5: the unit index is that of the first value). -/
def joinScalars (us : List (Nat × List W32)) : List (Nat × List W32) :=
  us.foldl (fun acc p => match acc.getLast? with
    | some (u, xs) =>
      if p.1 = u + xs.length ∧ xs.length < 54 then acc.dropLast ++ [(u, xs ++ p.2)] else acc ++ [p]
    | none => [p]) []

def unitOf : CVal → Nat
  | .csum u _ _ => u
  | .print sh _ => sh
  | _ => 0

/-- Insert by unit index, so that partials leave in increasing order. -/
def insertUnit (v : CVal) : List CVal → List CVal
  | [] => [v]
  | w :: t => if unitOf v < unitOf w then v :: w :: t else w :: insertUnit v t

def sortUnits (vs : List CVal) : List CVal := vs.foldl (fun acc v => insertUnit v acc) []

/-- The units' values of a CSUM collective. -/
def csumUnits (vs : List CVal) : List (Nat × List W32) :=
  vs.filterMap (fun v => match v with
    | .csum u _ xs => some (u, xs)
    | _ => none)

/-- The payloads that carry an engine's values (Table 10.5): OR, MIN and a print one per flit, scalars of consecutive units together, a
vector by 54 (log entry 17, DEDUCED). -/
def collFlits (i : CollInst) (width : Nat) (vs : List CVal) : List (List Byte) :=
  (vs.flatMap (fun v => match v with
    | .orBits x => [collFlit i 0 1 (leBytes 4 x)]
    | .minKey x => [collFlit i 0 1 (leBytes 4 (x / 2 ^ 64) ++ leBytes 8 (x % 2 ^ 64))]
    | .maxMag xs => (chunksOf 54 xs.length xs).map (collWords i 0)
    | .print sh x => [collFlit i sh 1 (leBytes 8 x.toNat)]
    | .csum _ _ _ => []))
  ++ (let us := csumUnits (sortUnits vs)
      (if width = 1 then joinScalars us else us).flatMap (fun p => (chunksOf 54 p.2.length p.2).map (collWords i p.1)))

/-- The values that flit `seq` of a stream carries to an instance whose units have `width` values each (Table 10.5). -/
def collParse (width stream seq : Nat) (p : List Byte) : List CVal :=
  let kind := fieldLe p 2 1
  let n := fieldLe p 3 1
  let first := fieldLe p 4 4
  let words := (List.range (min 54 n)).map (fun k => BitVec.ofNat 32 (fieldLe p (8 + 4 * k) 4))
  if kind = 1 then [.orBits (fieldLe p 8 4)]
  else if kind = 2 then [.minKey (fieldLe p 8 4 * 2 ^ 64 + fieldLe p 12 8)]
  else if kind = 3 then [.maxMag (List.replicate (54 * seq) pz32 ++ words)]
  else if kind = 4 then
    if width = 1 then words.zipIdx.map (fun x => .csum (first + x.2) (some stream) [x.1])
    else [.csum first (some stream) words]
  else if kind = 5 then
    (List.range (min 27 n)).map (fun k => .print (first + k) (BitVec.ofNat 64 (fieldLe p (8 + 8 * k) 8)))
  else []

/-! ### Contributions that an instance waits for (R292) -/

/-- The COLLECTIVE streams of an instance whose CONTRIBUTE feeds its engine here: the source is a used core of this package. -/
def State.expected (s : State) (id : Nat) : List Nat :=
  match s.job with
  | none => []
  | some j => (List.range j.streams.length).filter (fun k => match j.streams[k]? with
      | some c => c.kind == 4 && c.dst == id && (c.links == 0 || !j.received k) && (usedCores j).contains c.owner
      | none => false)

/-- The COLLECTIVE streams that bring other packages' contributions to an instance here. -/
def State.incomingOf (s : State) (id : Nat) : List Nat :=
  match s.job with
  | none => []
  | some j => (List.range j.streams.length).filter (fun k => match j.streams[k]? with
      | some c => c.kind == 4 && c.dst == id && c.links != 0 && c.dstHerd == j.herdIdx && j.received k
      | none => false)

/-- Port die whose engine serves an instance: that of the first local stream's core. -/
def State.engineDie (s : State) (id : Nat) : Nat :=
  match (s.expected id).head?.bind s.stream? with
  | some c => coreHalf c.owner
  | none => 0

/-- A stream of `ks` has not contributed all that it brings. -/
def State.lacks (s : State) (id : Nat) (ks : List Nat) : Bool := ks.any (fun k => !(s.coll id).streams.contains k)

def State.missing (s : State) (id : Nat) : Bool := s.lacks id (s.expected id)

/-- The payload of a COLLECTIVE stream's flit `seq`, none while the engine holds no value for it, or, in an armed run, lacks a
contribution of its own (R431). -/
def State.collPayload (s : State) (c : Stream) (seq : Nat) : Option (List Byte) :=
  match s.inst? c.dst, s.job with
  | some i, some j =>
    if s.armed && s.missing i.id then none else (collFlits i (j.collWidth i) (s.engineVals i))[seq]?
  | _, _ => none

/-! ### FLIT_DELIVERY (R256, R261, R280, R474) -/

/-- Held data that FLIT_DELIVERY delivers. -/
def Held.atEndpoint (h : Held) : Bool :=
  match h.kind with
  | .link _ _ => true
  | .onPkg => true
  | _ => false

/-- The NI delivery buffer of 64 KiB has no room for another payload (Table 5.1). The spec does not say what an arrival then
does: it takes no place (DESIGN CHOICE, log entry 123). -/
def CoreSt.dlvFull (c : CoreSt) : Bool := decide (0x1_0000 < 224 * (c.dlv.length + 1))

/-- Hand a flit whose last link, or whose send, is done to its endpoint. A TRANSFER flit that came by a link reaches its
core after the bound of Table 1.5; PLACE and REDUCE data wait for their own slot, 30 later. -/
def State.toEndpoint (s : State) (h : Held) (c : Stream) : State :=
  if c.kind = 1 then
    let slot := match h.kind with
      | .link p _ => h.due + edgeBound (portHalf p) (coreHalf c.dst)
      | _ => h.due
    let core := s.core c.dst
    if core.dlvFull then s
    else s.setCore c.dst
      { core with dlv := core.dlv ++ [{ stream := h.stream, seq := h.seq, slot, payload := h.payload }] }
  else if c.kind = 2 then
    { s with fab := { s.fab with held := s.fab.held ++ [{ h with due := h.due + 30, kind := .place }] } }
  else if c.kind = 3 then
    s.holdReduce { h with due := h.due + 30 } c
  else
    let width := match s.inst? c.dst, s.job with
      | some i, some j => j.collWidth i
      | _, _ => 1
    s.contributeVals c.dst (if h.last then some h.stream else none) (collParse width h.stream h.seq h.payload)

/-- Hand a held flit to its endpoint. -/
def State.handOver (s : State) (h : Held) : State :=
  match s.stream? h.stream with
  | some c => ({ s with fab := { s.fab with held := s.fab.held.erase h } }).toEndpoint h c
  | none => s

/-- FLIT_DELIVERY: the flit is delivered in its delivery slot. -/
def State.flitDeliver (s : State) (stream seq : Nat) : State :=
  match s.fab.held.find? (fun h => h.stream == stream && h.seq == seq && h.atEndpoint) with
  | some h => (s.advanceTo (s.packOf h.due)).handOver h
  | none => s

/-! ### PLACE_DELIVERY (R474, R182, R297, R312) -/

/-- Source code of MEM_ERR_ADDR for an address: 0 HBM4, 1 DDR5. -/
def memSource (a : Nat) : Nat := if a < hbmTop then 0 else 1

/-- The pseudo-channel of an HBM4 address within its stack: 256 B granules in rotation over 64 (R302). -/
def pseudoChannel (a : Nat) : Nat := a % stackBytes / 256 % 64

/-- The DDR5 channel of an address and the offset within its module: six channels a half region in rotation (R302). -/
def State.ddrPlace (s : State) (a : Nat) : Nat × Nat :=
  let half := if a - ddrBase < 6 * s.ddrC then 0 else 1
  let off := a - ddrBase - half * (6 * s.ddrC)
  (6 * half + off / 256 % 6, off / 1536 * 256 + a % 256)

/-- The unit and index of PF_FAULT for a memory address: the stack, or the DDR5 channel. -/
def State.memUnit (s : State) (a : Nat) : Nat × Nat :=
  if a < hbmTop then (2, a / stackBytes) else (3, (s.ddrPlace a).1)

/-- A package fault MEM_UNCORRECTABLE at an address (R310). -/
def State.memFault (s : State) (a : Nat) : State :=
  (s.memErr a (memSource a) false).raise cMemUncorrectable (s.memUnit a).1 (s.memUnit a).2

/-- Recompute the noseprint of each held working-copy shard that a write of `n` bytes at `a` touched. -/
def State.reprint (s : State) (a n : Nat) : State :=
  match s.job with
  | none => s
  | some j =>
    j.tensors.foldl (fun s t =>
      if t.kind ≠ kWorking then s
      else (j.heldShards t).foldl (fun s sh =>
        (List.range (j.slotsOf t)).foldl (fun s v =>
          match j.addr? t v sh.first with
          | some (b, _) =>
            if a < b + t.bytesOf sh.first sh.count ∧ b < a + n then
              (s.notePrint sh.index s.stp.step (s.shardPrint j sh v)).bindScale t v
            else s
          | none => s) s) s) s

/-- A PLACE flit writes its 224 bytes at the context's address plus 224 times its SEQ, whichever version slot lies there (R474; log
entry 111). -/
def State.placeArrive (s : State) (h : Held) (c : Stream) : State :=
  let a := c.dstAddr + 224 * h.seq
  match s.storeParts a (pad224 h.payload) with
  | (some b, s) => s.memFault b
  | (none, s) => s.reprint a 224

/-! ### REDUCE_APPLY (R278 to R283, R288) -/

/-- Does `h` come before `k` in the order of R281: delivery slot, stream context index, SEQ? -/
def Held.before (h k : Held) : Bool :=
  h.due < k.due || h.due == k.due && (h.stream < k.stream || h.stream == k.stream && h.seq < k.seq)

/-- The first contribution due at a unit. -/
def State.nextReduce (s : State) (stack : Nat) : Option Held :=
  (s.fab.held.filter (fun h => h.kind == .reduce stack)).foldl (fun (m : Option Held) h => match m with
      | none => some h
      | some b => if h.before b then some h else m) none

/-- Contribution i of a payload, as a pair (R278, R280). -/
def contribAt (pair : Bool) (p : List Byte) (i : Nat) : AccElem :=
  if pair then pairOf (slice p (8 * i) 8) else (BitVec.ofNat 32 (fieldLe p (4 * i) 4), pz32)

/-- An element's slots after one contribution: pairadd in RBC, insertion in RBT. -/
def reduceElem (r : RedRange) (ns lv : Nat) (old : List Byte) (x : AccElem) : List Byte :=
  if ns = 0 then pairBytes (pairadd (pairOf old) x)
  else
    let e := (List.range ns).map (fun i => pairOf (slice old (8 * i) 8))
    (rbtInsert r.top r.lmap (r.top + 1) e lv x).flatMap pairBytes

/-- Apply a flit's contributions to one stack, in payload order. -/
def State.reduceFlit (s : State) (c : Stream) (h : Held) (stack : Nat) : State :=
  match s.redTarget c with
  | none => s
  | some (_, r, t) =>
    ((s.redElems c h.seq).filter (fun p => p.2 / stackBytes == stack)).foldl (fun s p =>
      match s.badIn p.2 (elemSize .rbuf t.ns) with
      | some b => s.memFault b
      | none => match s.storeParts p.2 (reduceElem r t.ns c.level (s.load p.2 (elemSize .rbuf t.ns))
          (contribAt (bitsOf c.flags 0 1 == 1) h.payload p.1)) with
        | (some b, s) => s.memFault b
        | (none, s) => s) s

def State.reduceApply (s : State) (stack : Nat) : State :=
  match s.nextReduce stack with
  | none => s
  | some h =>
    let s := s.advanceTo (s.packOf h.due)
    let s' := { s with fab := { s.fab with held := s.fab.held.erase h } }
    match s.stream? h.stream with
    | some c => s'.reduceFlit c h stack
    | none => s'

/-- R282: a read or a clear of reduction buffer elements waits until every contribution due by now has been applied. -/
def State.settleReduce (s : State) : State :=
  (List.range 8).foldl (fun s st =>
    (List.range s.fab.held.length).foldl (fun s _ =>
      match s.nextReduce st with
      | some h => if s.packOf h.due ≤ s.now then s.reduceApply st else s
      | none => s) s) s

/-- The first block of this package's gradients that reads uncorrectable. -/
def State.badGradBlock (s : State) (j : Job) : Option Nat :=
  j.ownLayers.findSome? (fun l => (j.gradParts.filter (fun p => p.1 == l && p.2.1 == j.position)).findSome? (fun (_, _, x, f, n) =>
    (j.tensor? x).bind (fun t => (List.range n).findSome? (fun i =>
      (j.addr? t (s.gradSlot j t) (f + i)).bind (fun a => s.badIn a.1 8)))))

/-- Before the norm pass reads the reduction buffers for an instance, every contribution due by now is applied; a block that reads
uncorrectable is a package fault (R210, R282, R283, R310). -/
def State.normPass (s : State) (i : CollInst) : State :=
  if s.collUse i = .norm then
    let s := s.settleReduce
    match s.job.bind s.badGradBlock with
    | some b => s.memFault b
    | none => s
  else s

/-! ### Scheduled sends (R254, R255) -/

/-- The flit due on a port at slot `q` of its send table, and the state without the buffered data: a forwarded flit, an
engine's values for a COLLECTIVE stream, else what the send buffer holds. -/
def State.takeSend (s : State) (p q : Nat) (r : Run) (seq : Nat) : Option Flit × State :=
  if 0x8000 ≤ r.ctx then
    match s.forwardHeld (r.ctx - 0x8000) p q with
    | some h =>
      (some (s.dataFlit h.stream h.seq (h.hop + 1) q h.last h.payload),
       { s with fab := { s.fab with held := s.fab.held.erase h } })
    | none => (none, s)
  else
    match s.stream? r.ctx with
    | none => (none, s)
    | some c =>
      let last := seq + 1 == s.flitsOf c
      if c.kind = 4 then
        let s := match s.inst? c.dst with
          | some i => s.normPass i
          | none => s
        ((s.collPayload c seq).map (fun b => s.dataFlit r.ctx seq 0 q last b), s)
      else match s.fab.sendBuf.find? (fun d => d.stream == r.ctx && d.seq == seq) with
        | some d =>
          (some (s.dataFlit r.ctx seq 0 q last d.payload),
           { s with fab := { s.fab with sendBuf := s.fab.sendBuf.erase d } })
        | none => (none, s)

/-- Serve the next scheduled send slot of a port (R254, R255). -/
def State.nextSlotSend (s : State) (p : Nat) : State :=
  match s.nextSend p (max (s.port p).lastSend s.stp.origin) with
  | none => s
  | some q =>
    match s.tableAt p false q with
    | none => s
    | some (r, seq) =>
      let s := (s.advanceTo (s.packOf q)).served p q
      let (f, s) := s.takeSend p q r seq
      if s.issuing then s.sendSlot p q f else s

/-! ### Collectives at their slots (R291 to R294) -/

/-- COLLECTIVE_LAST_SEND_SLOT (R292): the package's own bits are taken; a missing contribution is SLOT_MISSED. -/
def State.lastSend (s : State) (i : CollInst) : State :=
  let s := (s.advanceTo (s.packOf (s.stp.origin + i.lastSend))).normPass i
  let s := s.contributeVals i.id none (s.ownStatus i)
  let s := if s.collUse i = .status ∧ i.kind = 1 then
      { s with stp := { s.stp with widenSent := s.stp.localWiden && !s.stp.wide } } else s
  if s.missing i.id then s.slotMissed 4 (s.engineDie i.id) else s

/-- The fold of R293 over the partials in increasing order of unit index, for element k of the vectors. -/
def csumFold (vs : List CVal) (k : Nat) : AccElem :=
  (sortUnits vs).foldl (fun acc v => match v with
    | .csum _ _ xs => match xs[k]? with
      | some p => pairadd acc (p, pz32)
      | none => acc
    | _ => acc) (pz32, pz32)

def csumLen (vs : List CVal) : Nat :=
  vs.foldl (fun n v => match v with | .csum _ _ xs => max n xs.length | _ => n) 0

def orOf (vs : List CVal) : Nat := vs.foldl (fun n v => match v with | .orBits x => n ||| x | _ => n) 0
def minOf (vs : List CVal) : Nat := vs.foldl (fun n v => match v with | .minKey x => min n x | _ => n) (2 ^ 96 - 1)
def maxsOf (vs : List CVal) : List W32 := vs.foldl (fun n v => match v with | .maxMag x => maxMags n x | _ => n) []
def maxOf (vs : List CVal) : W32 := (maxsOf vs).headD pz32

/-- Waiting requests that name the next step complete: their snapshot will be taken (R195, Table 12.8). -/
def State.answerSnap (s : State) : State :=
  let due := s.hl.snapReqs.filter (fun r => r.2.2 == s.stp.step + 1)
  let s := { s with hl := { s.hl with snapReqs := s.hl.snapReqs.filter (fun r => r.2.2 != s.stp.step + 1) } }
  due.foldl (fun s r => s.decideDesc r.1 r.2.1 0 0 false) s

/-- The status collective (R115, R195, R208): a step widens on STEP_WIDEN, which overrides all else; a wide step
never widens again (R118). -/
def State.statusResult (s : State) (kind : Nat) (vs : List CVal) : State :=
  if kind = 1 then
    let bits := orOf vs
    let widen := bitsOf bits 0 1 == 1 && !s.stp.wide
    let s := if bitsOf bits 2 1 = 1 then s.answerSnap else s
    { s with stp := { s.stp with nfT := bitsOf bits 1 1 == 1 && !widen, widened := s.stp.widened || widen
                                 snapReq := s.stp.snapReq || bitsOf bits 2 1 == 1 } }
  else if kind = 2 then { s with stp := { s.stp with minKey := minOf vs } }
  else s

/-- The norm collective (R210, R212). -/
def State.normResult (s : State) (kind : Nat) (vs : List CVal) : State :=
  if kind = 1 then { s with stp := { s.stp with nfG := bitsOf (orOf vs) 0 1 == 1 } }
  else if kind = 2 then { s with stp := { s.stp with gMin := minOf vs } }
  else if kind = 4 then
    let r := csumFold vs 0
    { s with stp := { s.stp with normM := r.1, normE := r.2 } }
  else s

/-- A tensor's combined maximum (R53, R106, R220); a master's gives its layer's fallback scale. Where no update pass has run in
the step, what it measures stays as it was. -/
def State.maximaResult (s : State) (tensor : Nat) (v : W32) : State :=
  match s.job.bind (fun j => (j.tensor? tensor).map (fun t => (j, t))) with
  | some (j, t) =>
    if (t.kind = kMaster ∨ t.kind = kWorking ∨ t.kind = kEma) ∧ !s.passRuns j t then s
    else if t.kind = kMaster then
      { s with stp := { s.stp with masterMax := setAssoc s.stp.masterMax tensor v
                                   sfbDue := setAssoc s.stp.sfbDue tensor (fallbackScale (valT32 v)) } }
    else { s with stp := { s.stp with amax := setAssoc s.stp.amax tensor (valT32 v) } }
  | none => s

/-- Record the first mismatch and stop the herd (R297, Table 10.6). -/
def State.diverge (s : State) (shard ref step die : Nat) (mine theirs : W64) : State :=
  let s := if s.fld rPfDiverge 48 1 = 1 then s
    else
      let s := s.setReg rPfDiverge (shard % 2 ^ 32 + 2 ^ 32 * (ref % 2 ^ 11) + 2 ^ 48)
      let s := s.setReg rPfDivStep step
      (s.setReg rPfDivLocal mine.toNat).setReg rPfDivRef theirs.toNat
  s.raise cWeightDivergence 4 die

/-- Compare the prints delivered with this holder's own (R297, R298). The replica-0 owner is the reference. -/
def State.printResult (s : State) (die : Nat) (vs : List CVal) : State :=
  match s.job with
  | none => s
  | some j =>
    vs.foldl (fun s v => match v with
      | .print k ref =>
        match j.shards.find? (fun sh => sh.index == k) with
        | some sh =>
          if !j.holds sh || (j.owns sh && j.replica == 0) then s
          else
            let s := s.addFld rPfRedStat 0 32 1
            let mine := s.printOf k
            let step := match s.stp.prints.find? (fun e => e.1 == k) with
              | some e => e.2.2
              | none => 0
            if mine = ref then
              { s with stp := { s.stp with compared := s.stp.compared ++ [(k, step)] } }
            else s.diverge k sh.owner step die mine ref
        | none => s
      | _ => s) s

/-- COLLECTIVE_DELIVERY (R291 to R294): every participant takes the result in the delivery slot; in an armed run, where a contribution
may be absent without SLOT_MISSED, an incomplete one delivers nothing (R431). -/
def State.collDeliver (s : State) (i : CollInst) : State :=
  let s := s.advanceTo (s.packOf (s.stp.origin + i.delivery))
  if s.armed && (s.missing i.id || s.lacks i.id (s.incomingOf i.id)) then s
  else
    let vs := (s.coll i.id).vals
    let res := (List.range (csumLen vs)).map (csumFold vs)
    let use := s.collUse i
    let die := s.engineDie i.id
    let s := s.setColl { id := i.id, vals := [], streams := [], result := res }
    match use with
    | .status => s.statusResult i.kind vs
    | .norm => s.normResult i.kind vs
    | .layer => { s with stp := { s.stp with lred := (s.stp.lred.filter (fun e => e.1 != i.id))
        ++ [(i.id, if i.kind = 3 then [(0, maxsOf vs)] else csumUnits vs)] } }
    | .maxima => s.maximaResult i.key (maxOf vs)
    | .print => s.printResult die vs
    | .other => s

end Sys2Proof.Machine
end

