-- ==== Sys2Proof/Machine/Hostlink.lean ====
section
/-! DEFINITION. Hostlink (Chapter 12): the link layer, the line table, queues, descriptors, completion and event
records, wakes, and the host's accesses to device memory through windows. The data a descriptor reads from the host is
an operand of the descriptor's row. -/

namespace Sys2Proof.Machine
open Sys2Proof

/-! ### Link layer (R326 to R328) -/

/-- Credit returns of Table 12.1, added to the credits held for SNP, SRSP, REQ and RSP. -/
def addCredits (cs : List Nat) (c : Nat) : List Nat :=
  (List.range 4).map (fun i => cs.getD i 0 + bitsOf c (8 * i) 8)

/-- Drop what an ACK covers: every unacknowledged flit up to and including that LSEQ. -/
def ackUpTo (u : List HlTx) (a : Nat) : List HlTx :=
  if u.any (fun e => e.lseq == a) then (u.dropWhile (fun e => e.lseq != a)).drop 1 else u

/-- A good Hostlink flit: its ACK, NAK and CREDIT fields apply, and a MSG flit is accepted only in LSEQ order (R327). The units that
its messages take of each channel come back as credit (R328); what a message does is a row of its own. -/
def PortSt.takeHl (v : PortSt) (f : HlFlit) : PortSt :=
  let v := { v with silence := 0, credits := addCredits v.credits f.credit, nakSeen := f.nak
                    unacked := if f.ackValid then ackUpTo v.unacked (f.ackSeq % 4096) else v.unacked }
  if f.type ≠ 1 then v
  else if f.lseq % 4096 = v.rxNext then
    { v with rxNext := (v.rxNext + 1) % 4096, rxNak := false, rxAny := true
             owed := List.zipWith (· + ·) v.owed (unitsTaken (f.msgs.getD [])) }
  else { v with rxNak := true }

/-- The flits that follow a received one: those of the messages that may now go out; where there are none and the ACK, NAK or
CREDIT fields have news, an IDLE flit with them. Further IDLE flits say nothing new and are not listed (log entry 20). -/
def State.answerHl (s : State) (p : Nat) (news : Bool) : State :=
  let t := s.pump p
  if news && t.outbox.length == s.outbox.length then t.sendHl p ((t.port p).flitWith 0 0 []) else t

/-- The Hostlink flit that arrives. -/
def hlReceived (type lseq : Nat) (ack : Nat × Bool) (nak : Bool) (credit : Nat) (b : HlBody) : HlFlit :=
  { type, lseq, ackSeq := ack.1, ackValid := ack.2, nak, credit, crc := b.crc, payload := b.payload }

/-- HOSTLINK_FLIT_RECEIVE (R326 to R329): a failed flit is counted and discarded. -/
def execHostlinkFlitReceive (p type lseq : Nat) (ack : Nat × Bool) (nak : Bool) (credit : Nat) (b : HlBody) (s : State) : Res :=
  s.whenLive (fun s =>
    if !(s.portUp p && s.mode p == 2) then s
    else
      let f := hlReceived type lseq ack nak credit b
      let s := if fecCorrects b.errs then s.addFld (rPortErr p) 0 16 1 else s
      if fecOk b.errs && f.good then (s.setPort p ((s.port p).takeHl f)).answerHl p (f.type == 1)
      else ((s.setPort p { s.port p with rxNak := true }).addFld (rPortErr p) 32 16 1).answerHl p true)

/-- REPLAY (R327): on NAK every unacknowledged MSG flit goes out again, with the same messages and LSEQ and the current ACK, NAK and
CREDIT fields; one sent 8 times takes the port DOWN. -/
def execReplay (p : Nat) (s : State) : Res :=
  s.whenLive (fun s =>
    if !(s.portUp p && s.mode p == 2 && (s.port p).nakSeen) then s
    else
      let v := s.port p
      if v.unacked.any (fun e => decide (8 ≤ e.sends)) then s.portDown p
      else
        let s := s.setPort p { v with unacked := v.unacked.map (fun e => { e with sends := e.sends + 1 }), nakSeen := false }
        let s := v.unacked.foldl (fun s e => s.sendHl p ((s.port p).hlFlit e)) s
        s.addFld (rPortErr p) 16 16 v.unacked.length)

/-! ### The line table (R330 to R334) -/

def PortSt.line? (v : PortSt) (a : Nat) : Option Line := v.lines.find? (fun l => l.addr == a)

/-- A line request outstanding for an address. -/
def lineReq (r : Req) (a : Nat) : Bool := r.addr == a && (r.op == opRdShared || r.op == opRdHeld)

/-- Lines held in both tables (HL_SNP_STAT.LINES). -/
def State.showLines (s : State) : State :=
  s.setFld rHlSnpStat 36 10 (s.hlPorts.foldl (fun n p => n + (s.port p).lines.length) 0)

def State.dropLine (s : State) (p a : Nat) : State :=
  (s.setPort p { s.port p with lines := (s.port p).lines.filter (fun l => l.addr != a) }).showLines

def State.putLine (s : State) (p : Nat) (l : Line) : State :=
  (s.setPort p { s.port p with lines := ((s.port p).lines.filter (fun x => x.addr != l.addr)) ++ [l] }).showLines

/-- Read a control line for a copy (RD_SHARED or RD_HELD), unless that request is outstanding. -/
def State.readLine (s : State) (p op a : Nat) (u : LineUse) : State :=
  if (s.port p).reqs.any (fun r => lineReq r a) then s else s.request p op a 0 (.line u) []

/-- A snoop response. -/
def State.respond (s : State) (p op tag a : Nat) (data : List Byte) : State :=
  s.hlSend p { op, tag, addr := a, status := 0, param := 0, data }

/-- Slots that one flit and its FEC block take on a Hostlink port (R324): 4 / w at a width of w lanes. -/
def State.flitSlots (s : State) (p : Nat) : Nat :=
  match s.fld (rPortStat p) 6 4 with
  | 15 => 1
  | 3 => 2
  | _ => 4

/-- Count an answered snoop; its response time is within the bound of R332 and otherwise open (log entry 10). -/
def State.snooped (s : State) (p : Nat) : State :=
  let bound := 2 * s.flitSlots p
  let (x, s) := s.draw
  let t := x.toNat % (bound + 1)
  (s.addFld rHlSnpStat 0 32 1).setFld rHlSnpStat 32 4 (max (s.fld rHlSnpStat 32 4) t)

/-- Mark the requests for a line stale (Table 12.5). -/
def State.markStale (s : State) (p a : Nat) : State :=
  s.setPort p { s.port p with reqs := (s.port p).reqs.map (fun r => if lineReq r a then { r with stale := true } else r) }

/-- Is a line use a doorbell or a head line, whose snoop is a ring (R334, R339)? -/
def LineUse.rings : LineUse → Bool
  | .report _ => false
  | _ => true

/-- The engine has asked to give up the line. -/
def PortSt.givesUp (v : PortSt) (a : Nat) : Bool := v.reqs.any (fun r => (match r.use with
  | .giveUp _ => true
  | _ => false) && r.addr == a)

/-- SNP_INV (Table 12.5). A snoop of a doorbell or head line is a ring, but for a line being given up, whose queue is off. -/
def State.snpInv (s : State) (p tag a : Nat) : State :=
  match (s.port p).line? a with
  | none => ((s.snooped p).markStale p a).respond p opRspI tag a []
  | some l =>
    let s := (s.snooped p).dropLine p a
    let s := if l.held then s.respond p opRspID tag a l.data else s.respond p opRspI tag a []
    if l.use.rings && !(s.port p).givesUp a then s.readLine p opRdShared a l.use else s

def execSnpInv (p tag a : Nat) (s : State) : Res :=
  s.whenLive (fun s => if s.portUp p && s.mode p == 2 then s.snpInv p tag a else s)

/-- SNP_DATA (Table 12.5). -/
def State.snpData (s : State) (p tag a : Nat) : State :=
  match (s.port p).line? a with
  | none => ((s.snooped p).markStale p a).respond p opRspI tag a []
  | some l =>
    if l.held then (((s.snooped p).putLine p { l with held := false })).respond p opRspSD tag a l.data
    else (s.snooped p).respond p opRspS tag a []

def execSnpData (p tag a : Nat) (s : State) : Res :=
  s.whenLive (fun s => if s.portUp p && s.mode p == 2 then s.snpData p tag a else s)

/-! ### Queue registers -/

def State.sqOn (s : State) (q : Nat) : Bool := s.fld (rHlSqCfg q) 0 1 == 1
def State.cqOn (s : State) (q : Nat) : Bool := s.fld (rHlCqCfg q) 0 1 == 1
def State.sqSize (s : State) (q : Nat) : Nat := 2 ^ s.fld (rHlSqCfg q) 1 4
def State.cqSize (s : State) (q : Nat) : Nat := 2 ^ s.fld (rHlCqCfg q) 1 4
def State.sqPort (s : State) (q : Nat) : Option Nat := s.hlPort (s.fld (rHlSqCfg q) 5 1)
def State.cqPort (s : State) (q : Nat) : Option Nat := s.hlPort (s.fld (rHlCqCfg q) 5 1)
def State.cqOf (s : State) (q : Nat) : Nat := s.fld (rHlSqCfg q) 6 6

/-- Contents of a report line: FETCHED, RETIRED and zeros (R338). -/
def State.reportBytes (s : State) (q : Nat) : List Byte :=
  leBytes 4 (s.sq q).fetched ++ leBytes 4 (s.sq q).retired ++ List.replicate 56 0#8

/-- Ask for a control line that the table does not hold; one that is being given up is asked for after its H_ACK. -/
def State.armLine (s : State) (p op a : Nat) (u : LineUse) : State :=
  if ((s.port p).line? a).isSome || (s.port p).givesUp a then s else s.readLine p op a u

/-- Drop a control line: EVICT, or WR_BACK of a Held one; it is Absent after the H_ACK (Table 12.5). -/
def State.evict (s : State) (p a : Nat) : State :=
  match (s.port p).line? a with
  | some l =>
    if (s.port p).givesUp a then s
    else s.request p (if l.held then opWrBack else opEvict) a 0 (.giveUp l.use) (if l.held then l.data else [])
  | none => s

/-- Every descriptor fetched has completed. -/
def SqSt.idle (v : SqSt) : Bool := v.descs.isEmpty && v.pend.isEmpty

/-- The report line of an SQ that is off is given up once every fetched descriptor has completed (R330, R337). -/
def State.restReport (s : State) (q : Nat) : State :=
  match s.sqPort q with
  | some p => if !s.sqOn q && (s.sq q).idle then s.evict p (s.reg (rHlSqRpt q)) else s
  | none => s

/-- Write the report line of an SQ: in place when Held, after RD_HELD otherwise (Table 12.5); one being given up after its H_ACK. -/
def State.report (s : State) (q : Nat) : State :=
  match s.sqPort q with
  | none => s
  | some p =>
    let a := s.reg (rHlSqRpt q)
    if (s.port p).givesUp a then s
    else
      let s := match (s.port p).line? a with
        | some l =>
          if l.held then s.putLine p { l with data := s.reportBytes q }
          else (s.dropLine p a).readLine p opRdHeld a (.report q)
        | none => s.readLine p opRdHeld a (.report q)
      s.restReport q

/-- A free-running 32-bit count grows to the value read. -/
def growTo (old v : Nat) : Nat := old + (v + 2 ^ 32 - old % 2 ^ 32) % 2 ^ 32

/-! ### CQ records, STEP records and WAKE (R339, R343, R344, R348) -/

/-- Send WAKE when a trigger holds and every record so far has its H_ACK. -/
def State.wake (s : State) (c : Nat) : State :=
  let v := s.cq c
  let count := s.fld (rHlCqWake c) 16 16
  if v.since ≠ 0 ∧ v.unacked = 0 ∧ (v.wakeDue ∨ (count ≠ 0 ∧ count ≤ v.since)) then
    match s.cqPort c with
    | some p => (s.setCq c { v with since := 0, oldest := none, wakeDue := false }).request p opWake
        (s.fld (rHlCqWake c) 0 16) 0 (.wake c) []
    | none => s
  else s

/-- Write record P of a CQ with one WR_FULL, PHASE by its pass (R339). -/
def State.writeRecord (s : State) (c : Nat) (use : ReqUse) (wakeNow : Bool) (r : List Byte) : State :=
  match s.cqPort c with
  | none => s
  | some p =>
    let v := s.cq c
    let n := s.fld (rHlCqCfg c) 1 4
    let a := 2 ^ 12 * s.fld (rHlCqBase c) 12 40 + 64 * (v.written % 2 ^ n)
    let s := s.setCq c { v with written := v.written + 1, since := v.since + 1, unacked := v.unacked + 1
                                oldest := v.oldest.orElse (fun _ => some s.beat)
                                wakeDue := v.wakeDue || wakeNow }
    s.request p opWrFull a 1 use (withPhase r v.written n)

/-- Room for one record beyond those reserved. -/
def State.cqRoom (s : State) (c : Nat) : Bool :=
  s.cqOn c && decide ((s.cq c).written + (s.cq c).reserved - (s.cq c).head < s.cqSize c)

/-- Post waiting STEP records while STEP_EN is set and the STEP CQ has space (R344, Table 12.12). -/
def State.postSteps (s : State) : State :=
  let c := s.fld rHlCtrl 0 6
  if s.fld rHlCtrl 6 1 = 0 then s
  else s.hl.stepQ.foldl (fun s _ =>
    match s.hl.stepQ with
    | r :: t =>
      if s.cqRoom c then
        ({ s with hl := { s.hl with stepQ := t } }).writeRecord c (.stepRec c (fieldLe r 16 8)) false r
      else s
    | [] => s) s

/-- Queue a STEP record; a 257th waiting one is CQ_OVERRUN (R344). With STEP_EN = 0 none is made (Table 12.12; log entry 139). -/
def State.queueStep (s : State) (r : List Byte) : State :=
  if s.fld rHlCtrl 6 1 = 0 then s
  else
  let s := ({ s with hl := { s.hl with stepQ := s.hl.stepQ ++ [r] } }).postSteps
  if 256 < s.hl.stepQ.length then
    ({ s with hl := { s.hl with stepQ := s.hl.stepQ.take 256 } }).raise cCqOverrun 6 (portHalf (s.hlPorts.headD 0))
  else s

/-- The INPUT descriptors of a step complete once its STEP record has its H_ACK (R345). -/
def State.stepAcked (s : State) (step : Nat) : State :=
  let mine := s.hl.inputs.filter (fun r => r.step == step)
  let s := { s with hl := { s.hl with inputs := s.hl.inputs.filter (fun r => r.step != step) } }
  mine.foldl (fun s r => r.descs.foldl (fun s d => s.decideDesc d.1 d.2.1 0 d.2.2.1 d.2.2.2) s) s

/-! ### Host answers (R331, R333) -/

/-- A descriptor has been read: it waits in its queue, FETCHED advances. -/
def State.descArrives (s : State) (q i status : Nat) (data : List Byte) : State :=
  let v := s.sq q
  let d : Desc := { i, bytes := slice data 0 64, started := false, posted := false, fetchAt := s.now
                    done := if status ≠ 0 then some (cHostError, 0, false)
                            else if 8 ≤ fieldLe data 0 1 then some (cDescMalformed, 0, false) else none }
  (s.setSq q { v with descs := v.descs ++ [d], pend := v.pend.filter (· != i), fetched := v.fetched + 1 }).report q

/-- The count a control line brings: a doorbell's TAIL, or a HEAD. -/
def State.lineCount (s : State) (u : LineUse) (data : List Byte) : State :=
  let c := fieldLe data 0 4
  match u with
  | .doorbell q => s.setSq q { s.sq q with tail := growTo (s.sq q).tail c }
  | .head q => (s.setCq q { s.cq q with head := growTo (s.cq q).head c }).postSteps
  | .evHead => { s with hl := { s.hl with evHead := growTo s.hl.evHead c } }
  | .report _ => s

/-- Line data for a request (Table 12.5, R333). A line read for nothing is Absent. -/
def State.lineArrives (s : State) (p : Nat) (r : Req) (u : LineUse) (param : Nat) (data : List Byte) : State :=
  let s := s.lineCount u data
  if r.stale then s.readLine p (if u.rings then opRdShared else opRdHeld) r.addr u
  else if param = 1 then s.putLine p { addr := r.addr, held := false, use := u, data }
  else if param = 2 then
    let s := s.putLine p { addr := r.addr, held := true, use := u
                           data := match u with
                             | .report q => s.reportBytes q
                             | _ => data }
    match u with
    | .report q => s.restReport q
    | _ => s
  else s

/-- A line that has been given up is read again where its queue has been enabled since, or an SQ that is off has descriptors to
report. -/
def State.rearm (s : State) (p a : Nat) (u : LineUse) : State :=
  match u with
  | .doorbell q => if s.sqOn q && s.sqPort q == some p && s.reg (rHlSqDb q) == a then s.readLine p opRdShared a u else s
  | .report q =>
    if (s.sqOn q || !(s.sq q).idle) && s.sqPort q == some p && s.reg (rHlSqRpt q) == a then s.readLine p opRdHeld a u else s
  | .head q => if s.cqOn q && s.cqPort q == some p && s.reg (rHlCqHead q) == a then s.readLine p opRdShared a u else s
  | .evHead =>
    if s.fld rHlEvqCfg 0 1 == 1 && s.hlPort (s.fld rHlEvqCfg 5 1) == some p && s.reg rHlEvqHead == a
    then s.readLine p opRdShared a u else s

/-- H_DATA (R331, R333). -/
def execHData (p tag param status : Nat) (data : List Byte) (s : State) : Res :=
  s.whenLive (fun s =>
    if !(s.portUp p && s.mode p == 2) then s
    else match (s.port p).reqs.find? (fun r => r.tag == tag) with
      | none => s
      | some r =>
        let s := s.setPort p { s.port p with reqs := (s.port p).reqs.erase r }
        match r.use with
        | .line u => s.lineArrives p r u param data
        | .desc q i => s.descArrives q i status data
        | _ => s)

/-! ### Queue configuration (R337) -/

/-- The fields of a CFG write other than ENABLE. -/
def State.cfgFields (s : State) (a w v : Nat) : State :=
  let s := if bitsOf v 12 1 = 1 then s.setFld a 12 1 0 else s
  s.setFld a 1 (w - 1) (bitsOf v 1 (w - 1))

/-- LOG2_SIZE from 6 to 16, on an UP HOSTLINK port. -/
def State.cfgValid (s : State) (a base : Nat) (lines : List Nat) : Bool :=
  let n := s.fld a 1 4
  decide (6 ≤ n) && s.reg base != 0 && lines.all (fun l => s.reg l != 0)
    && match s.hlPort (s.fld a 5 1) with
      | some p => s.portUp p
      | none => false

/-- HL_SQ_CFG: a write that sets ENABLE on a valid queue reads its control lines and starts its counts at 0, but for descriptors
fetched before that have still to complete: then the queue keeps its counts and them (R337, log entry 80). A write that clears
ENABLE gives up the doorbell line, and the report line once nothing fetched is left. -/
def State.sqCfg (s : State) (q v : Nat) : State :=
  let a := rHlSqCfg q
  if s.sqOn q then
    if bitsOf v 0 1 = 1 then s
    else
      let p := s.sqPort q
      let s := (s.cfgFields a 12 v).setFld a 0 1 0
      match p with
      | some p => (s.evict p (s.reg (rHlSqDb q))).restReport q
      | none => s
  else
    let s := s.cfgFields a 12 v
    if bitsOf v 0 1 = 0 then s
    else if s.cfgValid a (rHlSqBase q) [rHlSqDb q, rHlSqRpt q] && s.cqOn (s.cqOf q) then
      let s := (s.setFld a 0 1 1).setSq q (if (s.sq q).idle then SqSt.reset else s.sq q)
      match s.sqPort q with
      | some p => (s.armLine p opRdShared (s.reg (rHlSqDb q)) (.doorbell q)).report q
      | none => s
    else s.setFld a 12 1 1

def execHlSqCfgWrite (q : Nat) (v : W64) (s : State) : Res :=
  s.whenLive (fun s => if q < 64 then s.sqCfg q v.toNat else s)

/-- HL_CQ_CFG. -/
def State.cqCfg (s : State) (q v : Nat) : State :=
  let a := rHlCqCfg q
  if s.cqOn q then
    if bitsOf v 0 1 = 1 then s
    else
      let p := s.cqPort q
      let s := (s.cfgFields a 6 v).setFld a 0 1 0
      match p with
      | some p => s.evict p (s.reg (rHlCqHead q))
      | none => s
  else
    let s := s.cfgFields a 6 v
    if bitsOf v 0 1 = 0 then s
    else if s.cfgValid a (rHlCqBase q) [rHlCqHead q] then
      let s := (s.setFld a 0 1 1).setCq q CqSt.reset
      match s.cqPort q with
      | some p => (s.armLine p opRdShared (s.reg (rHlCqHead q)) (.head q)).postSteps
      | none => s
    else s.setFld a 12 1 1

def execHlCqCfgWrite (q : Nat) (v : W64) (s : State) : Res :=
  s.whenLive (fun s => if q < 64 then s.cqCfg q v.toNat else s)

/-- HL_EVQ_CFG. -/
def State.evqCfg (s : State) (v : Nat) : State :=
  let a := rHlEvqCfg
  if s.fld a 0 1 = 1 then
    if bitsOf v 0 1 = 1 then s
    else
      let p := s.hlPort (s.fld a 5 1)
      let s := (s.cfgFields a 6 v).setFld a 0 1 0
      match p with
      | some p => s.evict p (s.reg rHlEvqHead)
      | none => s
  else
    let s := s.cfgFields a 6 v
    if bitsOf v 0 1 = 0 then s
    else if s.cfgValid a rHlEvqBase [rHlEvqHead] then
      let s := s.setFld a 0 1 1
      let s := { s with hl := { s.hl with evHead := 0, evWritten := 0 } }
      match s.hlPort (s.fld a 5 1) with
      | some p => s.armLine p opRdShared (s.reg rHlEvqHead) .evHead
      | none => s
    else s.setFld a 12 1 1

def execHlEvqCfgWrite (v : W64) (s : State) : Res := s.whenLive (fun s => s.evqCfg v.toNat)

/-! ### Descriptors (R338, R340 to R343) -/

/-- DESC_FETCH (R338, R339). -/
def execDescFetch (q : Nat) (s : State) : Res :=
  s.whenLive (fun s =>
    let v := s.sq q
    let i := v.fetched + v.pend.length
    let c := s.cqOf q
    match s.sqPort q with
    | some p =>
      if s.sqOn q && decide (i < v.tail) && decide (i - v.retired < s.sqSize q) && s.cqRoom c then
        let s := s.setSq q { v with pend := v.pend ++ [i] }
        let s := s.setCq c { s.cq c with reserved := (s.cq c).reserved + 1 }
        s.request p opRdOnce (2 ^ 12 * s.fld (rHlSqBase q) 12 40 + 64 * (i % s.sqSize q)) 1 (.desc q i) []
      else s
    | none => s)

/-- A type field of Table 12.8. -/
def Desc.f (d : Desc) (o n : Nat) : Nat := fieldLe d.bytes o n
/-- The deadline slot; INPUT and SNAP_REQ have none, a non-zero field makes them malformed (R341). -/
def Desc.deadline (d : Desc) : Nat := if d.f 0 1 = 1 ∨ d.f 0 1 = 4 then 0 else d.f 8 8
def Desc.flag (d : Desc) (n : Nat) : Bool := bitsOf (fieldLe d.bytes 1 1) n 1 == 1

/-- A descriptor of type `ty` that may start: fetched, not started (or an INPUT whose fetch has waited since, R345), every earlier one
started, and with FENCE every earlier one completed (R342, Table 12.7). -/
def State.startable? (s : State) (q i ty : Nat) : Option Desc :=
  match s.desc? q i with
  | none => none
  | some d =>
    let v := s.sq q
    if d.f 0 1 = ty && (!d.started || s.hl.waitIn.contains (q, i)) && d.done.isNone && !v.pend.any (· < i)
        && v.descs.all (fun e => i ≤ e.i || e.started || e.done.isSome)
        && (!d.flag 0 || decide (i ≤ v.retired)) then some d else none

/-- Complete a descriptor with its own outcome; ARRIVED_AT_DEADLINE when its last effect lands in the deadline slot
(R346). -/
def State.finish (s : State) (q i code bytes : Nat) : State :=
  match s.desc? q i with
  | some d => (s.startDesc q i).decideDesc q i code bytes (d.deadline != 0 && d.deadline == s.now)
  | none => s

/-- Its deadline passed before it was fetched or could start (Table 12.11). -/
def State.tooLate (s : State) (d : Desc) : Bool := d.deadline != 0 && (decide (d.deadline < d.fetchAt) || decide (d.deadline < s.now))

/-- A descriptor that waited for an event lands with it: DESC_TIMEOUT when its deadline slot has passed (Table 12.11). -/
def State.landDesc (s : State) (q i bytes : Nat) : State :=
  match s.desc? q i with
  | some d => s.finish q i (if s.tooLate d then cDescTimeout else 0) bytes
  | none => s

/-- Requests to the host for a COPY_OUT that have no H_ACK yet. -/
def State.copyLeft (s : State) (q i : Nat) : Bool := s.hlPorts.any (fun p => (s.port p).reqs.any (fun r => decide (r.use = .copyOut q i)))

/-- A WR_FULL of a COPY_OUT has its H_ACK: an error ends the descriptor, and the last one completes it (R341). -/
def State.copyAcked (s : State) (q i status : Nat) : State :=
  match s.desc? q i with
  | none => s
  | some d =>
    if d.done.isSome then s
    else if status ≠ 0 then s.finish q i cHostError 0
    else if s.copyLeft q i then s
    else s.landDesc q i (d.f 32 8)

/-- H_ACK (R331): a record accepted lets WAKE and the INPUT completions proceed, a write accepted the COPY_OUT. -/
def execHAck (p tag status : Nat) (s : State) : Res :=
  s.whenLive (fun s =>
    if !(s.portUp p && s.mode p == 2) then s
    else match (s.port p).reqs.find? (fun r => r.tag == tag) with
      | none => s
      | some r =>
        let s := s.setPort p { s.port p with reqs := (s.port p).reqs.erase r }
        match r.use with
        | .record c => (s.setCq c { s.cq c with unacked := (s.cq c).unacked - 1 }).wake c
        | .giveUp u => (s.dropLine p r.addr).rearm p r.addr u
        | .copyOut q i => s.copyAcked q i status
        | .stepRec c step => ((s.setCq c { s.cq c with unacked := (s.cq c).unacked - 1 }).wake c).stepAcked step
        | _ => s)

/-- Start a descriptor of a type and run `k` on it; DESC_TIMEOUT when it is too late. -/
def State.withDesc (s : State) (q i ty : Nat) (k : Desc → State → State) : State :=
  match s.startable? q i ty with
  | none => s
  | some d => if s.tooLate d then s.finish q i cDescTimeout 0 else k d s

/-- NOP (Table 12.8). -/
def execNop (q i : Nat) (s : State) : Res :=
  s.whenLive (fun s => s.withDesc q i 0 (fun _ s => s.finish q i 0 0))

/-! #### INPUT (R345) -/

/-- An input range overlaps one already named. -/
def overlaps (rs : List (Nat × Nat)) (o n : Nat) : Bool := rs.any (fun r => decide (o < r.1 + r.2) && decide (r.1 < o + n))

def State.inputSt (s : State) (step ix : Nat) : InputSt :=
  (s.hl.inputs.find? (fun r => r.step == step && r.index == ix)).getD { step, index := ix, ranges := [], filled := [], descs := [] }

def State.setInput (s : State) (r : InputSt) : State :=
  { s with hl := { s.hl with inputs := (s.hl.inputs.filter (fun x => !(x.step == r.step && x.index == r.index))) ++ [r] } }

/-- The pack time of an input index's deadline in the current step (R347). -/
def State.inputDue (s : State) (d : InputDecl) : Nat := s.packOf (s.stp.origin + d.deadline)

/-- An INPUT's fields break R341, whatever the job declares. -/
def inputForm (d : Desc) : Bool := d.f 8 8 != 0 || d.f 32 8 % 64 != 0 || d.f 48 8 % 64 != 0 || d.f 40 8 == 0

/-- An INPUT's fields break R341 or R345. -/
def State.inputBad (s : State) (d : Desc) (decl : InputDecl) : Bool :=
  let step := d.f 16 8
  let o := d.f 48 8
  let n := d.f 40 8
  inputForm d || (n % 64 != 0 && o + n != decl.bytes)
    || decide (decl.bytes < o + n) || decide (step < s.stp.lastRange) || overlaps (s.inputSt step (d.f 24 4)).ranges o n

/-- Where step `st`'s bytes of an input index are staged: buffer st mod N_in of the declared tensor (log entry 19). -/
def State.stageAddr (s : State) (decl : InputDecl) (step : Nat) : Option Nat :=
  s.job.bind (fun j => (j.tensor? decl.base).bind (fun t =>
    (j.addr? t 0 0).map (fun a => a.1 + step % max 1 decl.nIn * decl.bytes)))

/-- Read host memory by RD_ONCE: up to 3 lines a message, none crossing 4 KiB (R329, R330). The answers are an operand of the row that
reads (log entry 82). `fuel` bounds the messages. -/
def State.readMsgs (s : State) (p : Nat) : (fuel : Nat) → (a lines : Nat) → State
  | 0, _, _ => s
  | k + 1, a, lines =>
    if lines = 0 then s
    else
      let n := min (min 3 ((4096 - a % 4096) / 64)) lines
      let v := s.port p
      let s := s.setPort p { v with tagNext := (v.tagNext + 1) % 2 ^ 16 }
      (s.hlSend p { op := opRdOnce, tag := v.tagNext, addr := a, status := 0, param := n, data := [] }).readMsgs p k
        (a + 64 * n) (lines - n)

/-- The reads of `n` bytes at host address `a` for a descriptor of queue `q`. -/
def State.readHost (s : State) (q a n : Nat) : State :=
  match s.sqPort q with
  | some p => s.readMsgs p (ceilDiv n 64) (a % 2 ^ 52) (ceilDiv n 64)
  | none => s

/-- Buffer `step` mod N_in still holds the input of step `step` − N_in (R345). -/
def State.bufferHeld (s : State) (decl : InputDecl) (ix step : Nat) : Bool :=
  decide (decl.nIn ≤ step) && s.hl.inputs.any (fun r => r.index == ix && r.step + decl.nIn == step)

/-- A started INPUT reads its data into its buffer; a failed read ends it and leaves its range to another descriptor (R351). -/
def State.fillInput (s : State) (q i : Nat) (d : Desc) (decl : InputDecl) (data : Option (List Byte)) : State :=
  let ix := d.f 24 4
  let step := d.f 16 8
  let n := d.f 40 8
  let o := d.f 48 8
  let s := { s with hl := { s.hl with waitIn := s.hl.waitIn.filter (· != (q, i)) } }
  let s := s.readHost q (d.f 32 8) n
  let r := s.inputSt step ix
  match data, s.stageAddr decl step with
  | some bs, some a =>
    let late := step == s.stp.step && s.now == s.inputDue decl
    match s.storeParts (a + o) (slice bs 0 n) with
    | (some b, s) => (s.setInput { r with descs := r.descs ++ [(q, i, n, late)] }).memFault b
    | (none, s) => s.setInput { r with filled := r.filled ++ [(o, n)], descs := r.descs ++ [(q, i, n, late)] }
  | _, _ => (s.setInput { r with ranges := r.ranges.erase (o, n) }).finish q i cHostError 0

/-- An INPUT names its range and starts; its fetch waits while its buffer is held, and the row then comes again (R342, R345). -/
def State.takeInput (s : State) (q i : Nat) (d : Desc) (data : Option (List Byte)) : State :=
  let ix := d.f 24 4
  let step := d.f 16 8
  let fetch (decl : InputDecl) (s : State) : State :=
    if s.bufferHeld decl ix step then
      if s.hl.waitIn.contains (q, i) then s else { s with hl := { s.hl with waitIn := s.hl.waitIn ++ [(q, i)] } }
    else s.fillInput q i d decl data
  if inputForm d then s.finish q i cDescMalformed 0
  else match s.running, s.job.bind (fun j => j.inputs[ix]?) with
  | false, _ => s.finish q i cDescNoJob 0
  | true, none => s.finish q i cDescMalformed 0
  | true, some decl =>
    if s.hl.waitIn.contains (q, i) then fetch decl s
    else if s.inputBad d decl then s.finish q i cDescMalformed 0
    else
      let r := s.inputSt step ix
      fetch decl ((s.startDesc q i).setInput { r with ranges := r.ranges ++ [(d.f 48 8, d.f 40 8)] })

/-- INPUT (R345). -/
def execInput (q i : Nat) (data : MetData) (s : State) : Res :=
  s.whenLive (fun s => s.withDesc q i 1 (fun d s => s.meet data.mem (fun s => s.takeInput q i d data.bytes)))

/-- INPUT_DEADLINE (R347): at the end of the deadline slot every declared byte must be there. -/
def State.inputCheck (s : State) (ix : Nat) (decl : InputDecl) (all : List InputDecl) : State :=
  let s := s.advanceTo (s.inputDue decl)
  let got := (s.inputSt s.stp.step ix).filled.foldl (fun n r => n + r.2) 0
  let s := if all.all (fun e => e.deadline ≤ decl.deadline) then
      { s with stp := { s.stp with lastRange := max s.stp.lastRange (s.stp.step + 1) } } else s
  if got < decl.bytes then s.raise cInputLate 6 (portHalf (s.hlPorts.headD 0)) else s

/-! #### COPY_IN and COPY_OUT (R341, R372) -/

/-- The MEM_ block answers (Table 14.2). -/
def State.memReady (s : State) : Bool := s.pkg.hbmUp && s.bu != stWhelp

/-- Outcome of a copy's device range: 0 when it may be used. HL_UNAVAILABLE is for HBM (R372); what a copy of installed DDR5 gets
while the MEM_ block is down no rule says (the same, DESIGN CHOICE, log entry 140). -/
def State.copyCode (s : State) (dev n : Nat) : Nat :=
  if !slowTier && decide (ddrBase < dev + n) then cEngineAbsent
  else if s.memReady then (if s.mappedRange dev n then 0 else cMemRange)
  else if dev < hbmTop ∨ s.mappedRange dev n then cUnavailable else cMemRange

/-- A COPY's fields break R341. -/
def copyBad (host dev n : Nat) : Bool := host % 64 != 0 || dev % 64 != 0 || n % 64 != 0 || n == 0

/-- 64 free bytes. -/
def State.drawBlock (s : State) : List Byte × State :=
  (List.range 8).foldl (fun x _ => let (w, s) := x.2.draw; (x.1 ++ leBytes 8 w.toNat, s)) ([], s)

/-- A COPY_IN ends without its data: each 64 B block of its range holds its old contents or the new ones, which are the host's and
free here, in no stated pattern (Table 12.11; log entry 83). -/
def State.brokenCopy (s : State) (dev n : Nat) : State :=
  (blocksOf dev n).foldl (fun s b =>
    let (x, s) := s.draw
    if x.toNat % 2 = 0 then s
    else
      let (bs, s) := s.drawBlock
      s.store b bs) s

/-- COPY_IN writes device memory with the host's data; a write that fails its retry ends it (R311, R341). -/
def State.copyIn (s : State) (q i : Nat) (d : Desc) (data : Option (List Byte)) : State :=
  let dev := d.f 24 8
  let n := d.f 32 8
  if copyBad (d.f 16 8) dev n then s.finish q i cDescMalformed 0
  else if s.copyCode dev n ≠ 0 then s.finish q i (s.copyCode dev n) 0
  else
    let s := s.readHost q (d.f 16 8) n
    match data with
    | none => (s.brokenCopy dev n).finish q i cHostError 0
    | some bs => match s.storeParts dev (slice bs 0 n) with
      | (none, s) => s.finish q i 0 n
      | (some b, s) => (s.memFault b).finish q i cMemUncorrectable 0

/-- COPY_IN (R341). -/
def execCopyIn (q i : Nat) (data : MetData) (s : State) : Res :=
  s.whenLive (fun s => s.withDesc q i 2 (fun d s => s.meet data.mem (fun s => s.copyIn q i d data.bytes)))

/-- Send bytes to host memory by WR_FULL: up to 3 lines a message, none crossing 4 KiB (R329). `fuel` bounds the
messages. -/
def State.sendData' (s : State) (p : Nat) (use : ReqUse) : (fuel : Nat) → (a : Nat) → List Byte → State
  | 0, _, _ => s
  | k + 1, a, bs =>
    if bs.isEmpty then s
    else
      let n := min (min 192 (4096 - a % 4096)) (ceilDiv bs.length 64 * 64)
      (s.request p opWrFull a (n / 64) use (slice bs 0 n)).sendData' p use k (a + n) (bs.drop n)

/-- COPY_OUT sends its bytes; it completes with the last H_ACK, or here where the host has answered a write with an error (R341). -/
def State.copyOut (s : State) (q i : Nat) (d : Desc) (hostOk : Bool) : State :=
  let dev := d.f 24 8
  let n := d.f 32 8
  let host := d.f 16 8 % 2 ^ 52
  if copyBad host dev n then s.finish q i cDescMalformed 0
  else if s.copyCode dev n ≠ 0 then s.finish q i (s.copyCode dev n) 0
  else match s.badIn dev n, s.sqPort q with
    | some b, _ => (s.memFault b).finish q i cMemUncorrectable 0
    | none, none => s.finish q i cHostError 0
    | none, some p =>
      let s := (s.startDesc q i).sendData' p (.copyOut q i) (n / 64) host (s.load dev n)
      if hostOk then s else s.finish q i cHostError 0

/-- COPY_OUT (R341). -/
def execCopyOut (q i : Nat) (hostOk : Bool) (mem : MemMeet) (s : State) : Res :=
  s.whenLive (fun s => s.withDesc q i 3 (fun d s => s.meet mem (fun s => s.copyOut q i d hostOk)))

/-! #### SNAP_REQ and CTX_SAVE (R195, R435) -/

/-- The status collective of the current step has passed its last send slot. -/
def State.statusSent (s : State) : Bool :=
  match s.job.bind (fun j => j.colls.find? (fun i => s.collUse i == .status && i.kind == 1)) with
  | some i => s.lastSendPast i
  | none => decide (s.packOf (s.stp.origin + s.statusSlot) ≤ s.now)

def State.snapReq (s : State) (q i : Nat) (d : Desc) : State :=
  let b := d.f 16 8
  if b = 0 ∨ d.f 8 8 ≠ 0 then s.finish q i cDescMalformed 0
  else if !s.running then s.finish q i cDescNoJob 0
  else if b ≤ s.stp.step ∨ (b = s.stp.step + 1 ∧ s.issuing = true ∧ s.statusSent = true) then s.finish q i cSnapLate 0
  else
    let s := s.startDesc q i
    { s with hl := { s.hl with snapReqs := s.hl.snapReqs ++ [(q, i, b)] } }

/-- SNAP_REQ (R195). -/
def execSnapReq (q i : Nat) (s : State) : Res :=
  s.whenLive (fun s => s.withDesc q i 4 (fun d s => s.snapReq q i d))

def State.ctxSaveReq (s : State) (q i : Nat) (d : Desc) : State :=
  let b := d.f 16 8
  let n := d.f 24 2
  if !s.running then s.finish q i cDescNoJob 0
  else if (n ≠ 0xFFFF ∧ numCores ≤ n) ∨ b < s.stp.step ∨ (b = s.stp.step ∧ s.stp.started) then s.finish q i cCmdBadOperand 0
  else
    let s := s.startDesc q i
    { s with hl := { s.hl with ctxReqs := s.hl.ctxReqs ++ [(q, i, b, n)] } }

/-- CTX_SAVE (R435). -/
def execCtxSave (q i : Nat) (s : State) : Res :=
  s.whenLive (fun s => s.withDesc q i 5 (fun d s => s.ctxSaveReq q i d))

/-! #### Completion and deadlines (R343, R346, R348) -/

/-- The DESC record of a decided descriptor (Table 12.9). -/
def State.descRecord (s : State) (q : Nat) (d : Desc) (o : Nat × Nat × Bool) : List Byte :=
  recordBytes 1 (2 * b2n o.2.2) o.1 (d.f 4 4) q 0 d.i s.now o.2.1 []

/-- RETIRED advances over every completed descriptor (R338). -/
def retireDone : (fuel : Nat) → Nat → List Nat → Nat × List Nat
  | 0, r, ds => (r, ds)
  | k + 1, r, ds => if ds.contains r then retireDone k (r + 1) (ds.filter (· != r)) else (r, ds)

/-- Post a decided descriptor's record and retire it. A record for a disabled CQ is dropped (R337). -/
def State.descPost (s : State) (q : Nat) (d : Desc) (o : Nat × Nat × Bool) : State :=
  let c := s.cqOf q
  let s := s.setCq c { s.cq c with reserved := (s.cq c).reserved - 1 }
  let s := if s.cqOn c then s.writeRecord c (.record c) (d.flag 1) (s.descRecord q d o) else s
  let v := s.sq q
  let (r, ds) := retireDone (v.doneSet.length + 1) v.retired (v.doneSet ++ [d.i])
  (s.setSq q { v with descs := v.descs.filter (fun e => e.i != d.i), retired := r, doneSet := ds }).report q

/-- DESC_COMPLETE (R343): the record follows every write that the device has issued for the descriptor (R341, Table 12.11). -/
def execDescComplete (q i : Nat) (s : State) : Res :=
  s.whenLive (fun s =>
    match s.desc? q i with
    | some d => match d.done with
      | some o => if s.copyLeft q i then s else s.descPost q d o
      | none => s
    | none => s)

/-- Take back the writes of a COPY_OUT that still wait on a port: none is issued after its deadline (Table 12.11). -/
def PortSt.cutCopy (v : PortSt) (q i : Nat) : PortSt :=
  let cut (r : Req) : Bool := decide (r.use = .copyOut q i) && v.txq.any (fun m => m.tag == r.tag && m.op == r.op)
  { v with reqs := v.reqs.filter (fun r => !cut r)
           txq := v.txq.filter (fun m => !v.reqs.any (fun r => cut r && m.tag == r.tag && m.op == r.op)) }

/-- Forget what a timed-out descriptor was waiting for. -/
def State.dropWaits (s : State) (q i : Nat) : State :=
  let s := s.hlPorts.foldl (fun s p => s.setPort p ((s.port p).cutCopy q i)) s
  { s with hl := { s.hl with ctxReqs := s.hl.ctxReqs.filter (fun r => !(r.1 == q && r.2.1 == i)) } }

/-- WAKE_TIMER (R348). -/
def execWakeTimer (c : Nat) (s : State) : Res :=
  s.whenLive (fun s =>
    let t := s.fld (rHlCqWake c) 32 16
    match (s.cq c).oldest with
    | some b => if t ≠ 0 ∧ b + t ≤ s.beat then (s.setCq c { s.cq c with wakeDue := true }).wake c else s
    | none => s)

/-! ### Host access to device memory (R336, R313) -/

/-- An enabled window permits a line: bit 0 READ, bit 1 WRITE. -/
def State.windowOk (s : State) (bit a : Nat) : Bool :=
  (List.range 8).any (fun w => bitsOf (s.reg (rHlWinAttr w)) bit 1 == 1 && decide (s.reg (rHlWinBase w) ≤ a)
    && decide (a ≤ s.reg (rHlWinLimit w)))

/-- An access of `n` lines is well placed, permitted and mapped. -/
def State.memOk (s : State) (bit a n : Nat) : Bool :=
  decide (1 ≤ n) && decide (n ≤ 3) && a % 64 == 0 && decide (a % 4096 + 64 * n ≤ 4096)
    && (List.range n).all (fun k => s.windowOk bit (a + 64 * k) && s.mapped (a + 64 * k))

/-- An answer to a host request; one on a port that has gone DOWN is lost (R390). -/
def State.answer (s : State) (p op tag a status : Nat) (data : List Byte) : State :=
  if s.portUp p then s.hlSend p { op, tag, addr := a, status, param := 0, data } else s

def State.memRead (s : State) (p tag a n : Nat) : State :=
  let zeros : List Byte := List.replicate (64 * max 1 (min 3 n)) 0#8
  if s.memOk 0 a n && !s.memReady then s.answer p opDData tag a cUnavailable zeros
  else if !s.memOk 0 a n then s.answer p opDData tag a cWindowFault zeros
  else match s.badIn a (64 * n) with
    | some b => (s.memFault b).answer p opDData tag a cMemUncorrectable zeros
    | none => s.answer p opDData tag a 0 (s.load a (64 * n))

/-- MEM_RD (R336). -/
def execMemRd (p tag a : Nat) (n : MetNat) (s : State) : Res :=
  s.whenLive (fun s => if s.portUp p && s.mode p == 2 then s.meet n.mem (fun s => s.memRead p tag a n.n) else s)

def State.memWrite (s : State) (p tag a : Nat) (data : List Byte) : State :=
  let n := data.length / 64
  if s.memOk 1 a n && !s.memReady then s.answer p opDAck tag a cUnavailable []
  else if !s.memOk 1 a n ∨ data.length % 64 ≠ 0 then s.answer p opDAck tag a cWindowFault []
  else match s.storeParts a data with
    | (none, s) => s.answer p opDAck tag a 0 []
    | (some b, s) => (s.memFault b).answer p opDAck tag a cMemUncorrectable []

/-- MEM_WR (R336). -/
def execMemWr (p tag a : Nat) (data : MetData) (s : State) : Res :=
  s.whenLive (fun s => if s.portUp p && s.mode p == 2 then s.meet data.mem (fun s => s.memWrite p tag a (data.bytes.getD [])) else s)

end Sys2Proof.Machine
end

