-- ==== Sys2Proof/Machine/JobImage.lean ====
section
/-! DEFINITION. Job images (Chapter 13): the container, its sections, and the reading of an image into a Job. Multi-byte
fields are little-endian (R352). -/

namespace Sys2Proof.Machine
open Sys2Proof

/-! ### Container (R352, R353, Tables 13.1 to 13.3) -/

/-- A directory entry with its index. -/
structure DirEnt where
  idx    : Nat
  ty     : Nat
  herd   : Nat
  step   : Nat
  item   : Nat
  off    : Nat
  len    : Nat
  digest : Digest
  deriving DecidableEq, Repr

def sJob : Nat := 0x01
def sManifest : Nat := 0x02
def sRecipes : Nat := 0x03
def sLadders : Nat := 0x04
def sSeeds : Nat := 0x05
def sInputs : Nat := 0x06
def sResource : Nat := 0x10
def sPlacement : Nat := 0x11
def sStreams : Nat := 0x12
def sSlots : Nat := 0x13
def sProgMap : Nat := 0x14
def sRanges : Nat := 0x15
def sProgram : Nat := 0x20
def sInit : Nat := 0x30
def sSignature : Nat := 0xFF
def shared : Nat := 0xFFFF
def noIndex : Nat := 0xFFFF_FFFF

def dirCount (img : List Byte) : Nat := fieldLe img 0x0C 4

def dirEntry (img : List Byte) (k : Nat) : DirEnt :=
  let b := slice img (0x100 + 96 * k) 96
  { idx := k, ty := fieldLe b 0 2, herd := fieldLe b 2 2, step := fieldLe b 4 2, item := fieldLe b 8 4
    off := fieldLe b 16 8, len := fieldLe b 24 8, digest := BitVec.ofNat 512 (fieldLe b 32 64) }

def directory (img : List Byte) : List DirEnt := (List.range (dirCount img)).map (dirEntry img)

/-- The image digest of R354: over the header and the directory as stored. -/
def imageDigest (img : List Byte) : Digest := sha3_512 (slice img 0 (0x100 + 96 * dirCount img))

/-- The sort key of R353, as one number. -/
def DirEnt.key (e : DirEnt) : Nat := ((e.ty * 2 ^ 16 + e.herd) * 2 ^ 16 + e.step) * 2 ^ 32 + e.item

def DirEnt.overlaps (a b : DirEnt) : Bool := decide (a.off < b.off + b.len) && decide (b.off < a.off + a.len)

/-- The fields of Table 13.2: a type of Table 13.3, 0xFFFF for a shared section's herd index, a stepping for a PROGRAM only,
an item ID for a PROGRAM or an INIT only, and no digest for the SIGNATURE. -/
def DirEnt.fieldsOk (e : DirEnt) : Bool :=
  (e.ty == sProgram
    || ((decide (sJob ≤ e.ty) && decide (e.ty ≤ sInputs) || e.ty == sInit || e.ty == sSignature) && e.herd == shared
      || decide (sResource ≤ e.ty) && decide (e.ty ≤ sRanges) && e.herd != shared) && e.step == 0)
    && (e.ty == sProgram || e.ty == sInit || e.item == 0) && (e.ty != sSignature || e.digest == 0)

/-- Why an image is refused: check, code, section, entry, logical core (R363, Table 13.13). -/
structure Refuse where
  check : Nat
  code  : Nat
  sec   : Nat
  entry : Nat
  core  : Option Nat
  deriving DecidableEq, Repr

/-- Check 2: the header and the directory. `len` is the descriptor's length. -/
def containerFault (img : List Byte) (len : Nat) : Option Refuse :=
  let bad (sec : Nat) : Option Refuse := some ⟨2, cJobFormat, sec, noIndex, none⟩
  let n := dirCount img
  let es := directory img
  let dirEnd := 0x100 + 96 * n
  if slice img 0 8 ≠ ascii "TCHKJOB2" ∨ fieldLe img 8 2 ≠ 1 ∨ fieldLe img 0x10 8 ≠ len ∨ fieldLe img 0x18 8 ≠ 0x100
      ∨ n = 0 ∨ len < dirEnd then bad 0xFFFF
  else
    match es.find? (fun e => !e.fieldsOk || e.off % 64 != 0 || decide (e.off < dirEnd) || decide (len < e.off + e.len)
        || (match es[e.idx + 1]? with
          | some f => decide (f.key ≤ e.key)
          | none => false)
        || es.any (fun f => decide (f.idx < e.idx) && e.overlaps f)
        || (e.ty == sSignature) != (e.idx + 1 == n)
        || (e.ty == sSignature && e.off + e.len != len)) with
    | some e => bad e.idx
    | none =>
      let has (t h : Nat) := es.any (fun e => e.ty == t && e.herd == h)
      let herds := (es.filter (fun e => decide (sResource ≤ e.ty) && decide (e.ty ≤ sRanges))).map (·.herd)
      if has sJob shared ∧ has sManifest shared
          ∧ herds.all (fun h => [sResource, sPlacement, sStreams, sSlots, sProgMap].all (fun t => has t h))
      then none else bad 0xFFFF

/-- The bytes of a section; empty where the image has none. -/
def findSec? (es : List DirEnt) (ty herd : Nat) : Option DirEnt := es.find? (fun e => e.ty == ty && e.herd == herd)
def program? (es : List DirEnt) (stepping id : Nat) : Option DirEnt :=
  es.find? (fun e => e.ty == sProgram && e.step == stepping && e.item == id)
def DirEnt.bytes (e : DirEnt) (img : List Byte) : List Byte := slice img e.off e.len
def secBytes (img : List Byte) (es : List DirEnt) (ty herd : Nat) : List Byte :=
  match findSec? es ty herd with
  | some e => e.bytes img
  | none => []

/-! ### Sections (Tables 13.3 to 13.9, 13.15) -/

/-- Fixed-size records of a section. -/
def records (n : Nat) (bs : List Byte) : List (List Byte) := chunksOf n bs.length bs

def parseHdr (b : List Byte) : JobHdr :=
  { herd := fieldLe b 0 2, replicas := fieldLe b 2 2, freq := fieldLe b 4 2, flags := fieldLe b 6 1
    subnormal := fieldLe b 7 1, delayD := fieldLe b 8 1, depth := fieldLe b 9 1, ns := fieldLe b 10 1
    diameter := fieldLe b 11 1, lambdaMax := fieldLe b 12 2, snapEvery := fieldLe b 0x10 4, tauC := w32At b 0x14
    tauA := w32At b 0x18, stepLen := fieldLe b 0x1C 4, statusDel := fieldLe b 0x20 4, eN := fieldLe b 0x24 4
    eW := fieldLe b 0x28 4, lW := fieldLe b 0x2C 4
    updates := (List.range (fieldLe b 0x34 4)).map (fun i => fieldLe b (fieldLe b 0x30 4 + 4 * i) 4) }

def parseTensor (b : List Byte) : Tensor :=
  { index := fieldLe b 0 4, fmt := fieldLe b 4 1, cls := fieldLe b 5 1, kind := fieldLe b 6 1, flags := fieldLe b 7 1
    rank := fieldLe b 8 1, margin := fieldLe b 9 1, ns := fieldLe b 10 1, stage := fieldLe b 11 1, scale := w32At b 12
    dims := (List.range (fieldLe b 8 1)).map (fun i => fieldLe b (16 + 8 * i) 8)
    unused := (List.range (4 - fieldLe b 8 1)).map (fun i => fieldLe b (16 + 8 * (fieldLe b 8 1 + i)) 8)
    status := fieldLe b 48 4, layer := fieldLe b 52 4 }

/-- The MANIFEST's first 16 B: offset and count of the tensor entries, then of the shard entries (log entry 23). -/
def parseTensors (b : List Byte) : List Tensor :=
  (List.range (fieldLe b 4 4)).map (fun i => parseTensor (slice b (fieldLe b 0 4 + 64 * i) 64))

def parseShard (m b : List Byte) : Shard :=
  { index := fieldLe b 0 4, tensor := fieldLe b 4 4, first := fieldLe b 8 8, count := fieldLe b 16 8
    owner := fieldLe b 24 2
    holders := (List.range (fieldLe b 26 2)).map (fun i => fieldLe m (fieldLe b 28 4 + 2 * i) 2) }

def parseShards (b : List Byte) : List Shard :=
  (List.range (fieldLe b 12 4)).map (fun i => parseShard b (slice b (fieldLe b 8 4 + 32 * i) 32))

/-- Recipe records, each with its own length; `fuel` bounds their number. -/
def parseRecipes : (fuel : Nat) → List Byte → List RecipeBytes
  | 0, _ => []
  | k + 1, b =>
    let n := fieldLe b 0 2
    if b.isEmpty ∨ n = 0 then [] else slice b 0 n :: parseRecipes k (b.drop n)

def parseLadder (b : List Byte) : Ladder :=
  { top := fieldLe b 0 1, satThr := fieldLe b 2 2, flushThr := fieldLe b 4 2, budget := fieldLe b 8 4
    wBudget := fieldLe b 12 4 }

def parseSite (b : List Byte) : DropSite :=
  { index := fieldLe b 0 2, draw := fieldLe b 2 1, t := fieldLe b 4 2, c := w32At b 8, shape := fieldLe b 12 4 }

def parseInput (b : List Byte) : InputDecl :=
  { nIn := fieldLe b 0 4, bytes := fieldLe b 4 8, deadline := fieldLe b 12 4, base := fieldLe b 16 4 }

def parseResource (b : List Byte) : Resource :=
  { cores := fieldLe b 0 2, streams := fieldLe b 2 2, sram := fieldLe b 4 4, acc := fieldLe b 8 4, runs := fieldLe b 12 4
    hbm := (List.range 8).map (fun i => fieldLe b (0x10 + 8 * i) 8), ddr := [fieldLe b 0x50 8, fieldLe b 0x58 8]
    cmdAddr := fieldLe b 0x60 8, cmdLen := fieldLe b 0x68 8, engines := fieldLe b 0x70 8 }

def parsePlace (b : List Byte) : Place := { tensor := fieldLe b 0 4, first := fieldLe b 8 8, addr := fieldLe b 16 8 }

def parseStream (b : List Byte) : Stream :=
  { kind := fieldLe b 0 1, flags := fieldLe b 1 1, owner := fieldLe b 2 2, dstHerd := fieldLe b 4 2
    links := fieldLe b 6 1, level := fieldLe b 7 1, dst := fieldLe b 8 4, dstAddr := fieldLe b 16 8
    route := (List.range 8).map (fun i => fieldLe b (24 + i) 1)
    deltas := (List.range 8).map (fun i => fieldLe b (32 + 2 * i) 2), flits := fieldLe b 48 8, wflits := fieldLe b 56 8 }

def parseRun (b : List Byte) : Run :=
  { port := fieldLe b 0 1, recv := bitsOf (fieldLe b 1 1) 0 1 == 1, wide := bitsOf (fieldLe b 1 1) 1 1 == 1
    ctx := fieldLe b 2 2, first := fieldLe b 4 4, count := fieldLe b 8 4, seq := fieldLe b 12 4 }

def parseColl (b : List Byte) : CollInst :=
  { id := fieldLe b 0 2, kind := fieldLe b 2 1, group := fieldLe b 3 1, key := fieldLe b 4 4, lastSend := fieldLe b 8 4
    delivery := fieldLe b 12 4 }

def parseMapEntry (b : List Byte) : Nat × Nat := (fieldLe b 0 4, fieldLe b 4 2)

def parseRange (b : List Byte) : RedRange :=
  { tensor := fieldLe b 0 4, top := fieldLe b 4 1, first := fieldLe b 8 8, count := fieldLe b 16 8, lmap := fieldLe b 24 8 }

/-- Program IDs a program map names, in increasing order. -/
def progIds (pm : List (Nat × Nat)) : List Nat :=
  (sortKeys (((pm.map (·.1)).filter (· != noIndex)).eraseDups.map (fun i => (i, ())))).map (·.1)

/-- The programs a package copies into its command area (R366 step 3), in increasing program ID, one after another at
64 B boundaries (log entry 26, DESIGN CHOICE). -/
def placePrograms (img : List Byte) (es : List DirEnt) (ids : List Nat) (base : Nat) : List Prog :=
  (ids.foldl (fun (acc : Nat × List Prog) id =>
    match program? es Config.stepping id with
    | none => acc
    | some e =>
      let b := e.bytes img
      (acc.1 + slotStride b.length,
       acc.2 ++ [{ id, base := acc.1, bytes := b, info := Config.programInfo Config.stepping b }]))
    (base, [])).2

/-- Read the sections that package `h` needs into a Job. -/
def parseJob (img : List Byte) (h : Nat) : Job :=
  let es := directory img
  let sec (t : Nat) := secBytes img es t shared
  let part (t : Nat) := secBytes img es t h
  let man := sec sManifest
  let seeds := sec sSeeds
  let key (i : Nat) : BitVec 128 := BitVec.ofNat 128 (fieldLe seeds (16 * i) 16)
  let res := parseResource (part sResource)
  let slots := part sSlots
  let nRuns := Config.slotRunCount slots
  let pm := (records 8 (part sProgMap)).map parseMapEntry
  { digest := imageDigest img, herdIdx := h, hdr := parseHdr (sec sJob)
    tensors := parseTensors man, shards := parseShards man
    places := (records 24 (part sPlacement)).map parsePlace
    recipes := parseRecipes (sec sRecipes).length (sec sRecipes)
    ladders := (records 16 (sec sLadders)).map parseLadder
    dropKey := key 0, srKey := key 1, userKey := key 2
    sites := (records 16 (seeds.drop 48)).map parseSite
    inputs := (records 24 (sec sInputs)).map parseInput
    res := res
    streams := (records 64 (part sStreams)).map parseStream
    runs := ((records 16 slots).take nRuns).map parseRun
    colls := ((records 16 slots).drop nRuns).map parseColl
    progMap := pm
    ranges := (records 32 (part sRanges)).map parseRange
    progs := placePrograms img es (progIds pm) res.cmdAddr
    inits := (es.filter (fun e => e.ty == sInit)).map (fun e => (e.item, e.bytes img))
    masks := (parseTensors man).filterMap (fun t => (Config.trainMask man t.index).map (fun m => (t.index, m)))
    ladderOf := (List.range (records 16 (sec sLadders)).length).map (Config.ladderMaster man) }

/-- What the device reads from a used core's program. -/
def Job.progInfo (j : Job) (n : Nat) : Config.ProgInfo :=
  match j.progs.find? (fun p => p.id == (j.progMap.getD n (noIndex, 0)).1) with
  | some p => p.info
  | none => { segments := [], engines := 0, undefAt := none, noLadder := false, counters := [], ladder := none, sends := [] }

end Sys2Proof.Machine
end

