-- ==== Sys2Proof/Machine/Admission.lean ====
section
/-! DEFINITION. Admission of a job image in the order of Table 13.12 (R362 to R365) and its installation (R366). -/

namespace Sys2Proof.Machine
open Sys2Proof

/-- The first entry of a list, with its index, that satisfies `p`. -/
def firstIdx {α : Type} (p : Nat → α → Bool) (l : List α) : Option Nat :=
  (List.range l.length).find? (fun i => match l[i]? with
    | some x => p i x
    | none => false)

/-- A failure in a section at an entry. -/
def failAt (check code : Nat) (e : Option DirEnt) (entry : Option Nat) : Option Refuse :=
  some ⟨check, code, (e.map (·.idx)).getD 0xFFFF, entry.getD noIndex, none⟩

/-- Refuse when an entry of a list breaks a rule. -/
def refuseIf {α : Type} (check code : Nat) (e : Option DirEnt) (l : List α) (p : Nat → α → Bool) : Option Refuse :=
  match firstIdx p l with
  | some i => failAt check code e (some i)
  | none => none

def Option.orTry {α : Type} (a b : Option α) : Option α := a.orElse (fun _ => b)

/-! ### Checks 3 to 6 -/

def ctxJob : List Byte := ascii "TCHKJOB2"

/-- Check 3 (R360, R446). -/
def State.sigFault (s : State) (img : List Byte) : Option Refuse :=
  let es := directory img
  match findSec? es sSignature shared with
  | none => failAt 3 cSignatureFail none none
  | some e =>
    let b := e.bytes img
    let k := s.nv.keys.getD (fieldLe b 0 1) ⟨0, []⟩
    if k.state = 1 ∧ fieldLe b 4 4 = 4627 ∧ e.len = 4640 ∧ fieldLe b 0 1 < 8
        ∧ s.sigs.contains ⟨k.key, ctxJob, imageDigest img, slice b 8 4627⟩ then none
    else failAt 3 cSignatureFail (some e) none

/-- Sections that package `h` reads: the shared ones, its part, and the programs its map names. -/
def sectionsRead (img : List Byte) (h : Nat) : List DirEnt :=
  let es := directory img
  let ids := progIds ((records 8 (secBytes img es sProgMap h)).map parseMapEntry)
  es.filter (fun e =>
    if e.ty = sSignature then false
    else if e.ty = sProgram then e.step == Config.stepping && ids.contains e.item
    else e.herd == shared || e.herd == h)

/-- Check 4. -/
def digestFault (img : List Byte) (h : Nat) : Option Refuse :=
  match (sectionsRead img h).find? (fun e => sha3_512 (e.bytes img) != e.digest) with
  | some e => failAt 4 cSignatureFail (some e) none
  | none => none

/-- Check 5. -/
def State.herdFault (s : State) (img : List Byte) : Option Refuse :=
  let es := directory img
  if (findSec? es sResource s.herdIndex).isNone then failAt 5 cRouteInvalid none none
  else if fieldLe (secBytes img es sJob shared) 0 2 ≠ s.fld rPfHerd 16 12 then
    failAt 5 cRouteInvalid (findSec? es sJob shared) none
  else none

/-- Check 6. -/
def programFault (img : List Byte) (h : Nat) : Option Refuse :=
  let es := directory img
  let pm := (records 8 (secBytes img es sProgMap h)).map parseMapEntry
  match firstIdx (fun _ e => e.1 != noIndex && (program? es Config.stepping e.1).isNone) pm with
  | some n => some ⟨6, cJobStepping, ((findSec? es sProgMap h).map (·.idx)).getD 0xFFFF, n, some n⟩
  | none => none

/-! ### Check 7: field ranges -/

/-- The ranges of Table 13.4. D_h is the diameter of a connected herd: from 1 to the herd size less 1, 0 for one package (R264;
log entry 116, DEDUCED). -/
def hdrOk (j : Job) : Bool :=
  let h := j.hdr
  decide (1 ≤ h.herd) && decide (h.herd ≤ 2048) && decide (1 ≤ h.replicas) && h.herd % h.replicas == 0
    && h.freq % 25 == 0 && decide (1450 ≤ h.freq) && decide (h.freq ≤ 2050) && decide (h.delayD ≤ 3)
    && (decide (0 < h.delayD) == j.tensors.any Tensor.slow) && decide (1 ≤ h.depth) && decide (h.depth ≤ 5)
    && (h.ns == 1 || h.ns == 2) && decide (h.diameter < h.herd) && (h.herd == 1 || decide (1 ≤ h.diameter))
    && h.updates.all (fun l => j.tensors.any (fun t => t.kind == kMaster && t.layer == l))

/-- Table 6.10 for a train mask, and JOB flag bit 1: ROW and BLOCK32 masks only. -/
def maskFits (j : Job) (t : Tensor) : Bool :=
  (getAssoc j.masks t.index).all (fun m => maskOk m t && (bitsOf j.hdr.flags 1 1 == 0 || decide (m.gran ≤ 1)))

def tensorOk (j : Job) (i : Nat) (t : Tensor) : Bool :=
  t.index == i && (fmtOfCode t.fmt).isSome && decide (t.cls ≤ 2) && decide (1 ≤ t.kind) && decide (t.kind ≤ 14)
    && decide (1 ≤ t.rank) && decide (t.rank ≤ 4) && t.dims.all (fun d => decide (1 ≤ d)) && t.unused.all (· == 1)
    && decide (t.margin ≤ 3)
    && decide (t.ns ≤ 12) && (t.ns == 0 || t.kind == kReduce) && decide (t.stage ≤ 4)
    && (!scaled t.format || scaleOk t.scale)
    && (t.status == noIndex || (j.tensor? t.status).any (fun u => u.kind == 11 && u.fmt == 0x22))
    && ((t.fmt == 0x22) == (t.kind == 11)) && ((t.fmt == 0x21) == (t.kind == 3)) && ((t.fmt == 0x20) == (t.kind == kReduce))
    && (!(t.sr || t.kind == kM1 && bitsOf (recipeOf (j.recipes.getD t.layer [])).flags 0 1 == 1) || decide (t.index ≤ 0xFFFF))
    && (!(decide (kMaster ≤ t.kind) && decide (t.kind ≤ kState)) || decide (t.layer < j.recipes.length)) && maskFits j t

def rising (l : List Nat) : Bool := (l.zip (l.drop 1)).all (fun p => decide (p.1 < p.2))

def shardOk (j : Job) (i : Nat) (sh : Shard) : Bool :=
  sh.index == i && (j.tensor? sh.tensor).any (fun t => decide (sh.first + sh.count ≤ t.numel))
    && decide (sh.owner < j.perReplica) && rising sh.holders && sh.holders.all (fun h => decide (h < j.perReplica))

def recipeFieldsOk (i : Nat) (b : RecipeBytes) : Bool :=
  let r := recipeOf b
  r.index == i && r.len == 0x160 + 8 * r.nOps && decide (1 ≤ r.nOps) && decide (r.nOps ≤ 64) && decide (1 ≤ r.slots)
    && decide (r.slots ≤ 16) && decide (r.nConst ≤ 32) && decide (r.nPts ≤ 16)
    && r.bind.all (fun x => x == 0xFF || decide (x < r.slots)) && r.bind.getD 1 0 == 0xFF

/-- The fields of Table 13.8: no links to a destination on the source's own package, and only there; a tree level on a REDUCE stream
alone, and 0 into an RBC range; 0xFF in the unused places of the route. -/
def streamOk (j : Job) (k : Nat) (c : Stream) : Bool :=
  decide (1 ≤ c.kind) && decide (c.kind ≤ 4) && decide (c.owner < 2048) && decide (c.dstHerd < 2048) && decide (c.links ≤ 8)
    && (if c.links = 0 then c.dstHerd == j.herdIdx else c.dstHerd != j.herdIdx || j.received k)
    && decide (c.level ≤ 11) && (c.level == 0 || c.kind == 3 && (c.dstHerd != j.herdIdx
      || ((j.ranges[c.dst]?).bind (fun r => j.tensor? r.tensor)).any (fun t => t.ns != 0)))
    && (c.route.take c.links).all (fun p => decide (p < 18)) && (c.route.drop c.links).all (· == 0xFF)
    && decide (c.flits ≤ 2 ^ 32) && decide (c.wflits ≤ 2 ^ 32)

def runOk (j : Job) (r : Run) : Bool :=
  decide (r.port < 18) && (if 0x8000 ≤ r.ctx then decide (r.ctx < 0x8000 + 18) else decide (r.ctx < j.streams.length))

/-- The placed parts of this package hold every element from `e` up to `last`; each part is used at most once. -/
def Job.placed (j : Job) (t : Tensor) (last : Nat) : Nat → Nat → Bool
  | 0, e => decide (last ≤ e)
  | fuel + 1, e =>
    if last ≤ e then true
    else match j.part? t e with
      | some (p, n) => j.placed t last fuel (p.first + n)
      | none => false

/-- R475: the range lies within one reduction buffer, in elements that this package holds, and overlaps no earlier one. -/
def rangeOk (j : Job) (i : Nat) (r : RedRange) : Bool :=
  match j.tensor? r.tensor with
  | none => false
  | some t =>
    t.kind == kReduce && decide (1 ≤ r.count) && decide (r.first + r.count ≤ t.numel)
      && j.placed t (r.first + r.count) j.places.length r.first
      && (if t.ns = 0 then r.top == 0 && r.lmap == 0
          else decide (1 ≤ r.top) && decide (r.top ≤ 11) && decide (r.lmap < 2 ^ (4 * r.top))
            && (List.range r.top).all (fun l => decide (bitsOf r.lmap (4 * l) 4 < t.ns)))
      && !((j.ranges.take i).any (fun q => q.tensor == r.tensor && decide (q.first < r.first + r.count)
        && decide (r.first < q.first + q.count)))

/-- A used core's program: its entry segment, a wide-entry segment (R116), ladder sources (R98), counter tensors
(R161). -/
def coreProgOk (j : Job) (n : Nat) : Bool :=
  let p := j.progInfo n
  p.segments.any (fun g => g.id == (j.progMap.getD n (0, 0)).2) && p.segments.any (·.wide) && !p.noLadder
    && p.counters.all (fun c => decide (c ≤ 0xFFFF))

/-- Check 7 over the sections in directory order. -/
def fieldFault (img : List Byte) (j : Job) : Option Refuse :=
  let es := directory img
  let sh (t : Nat) := findSec? es t shared
  let pt (t : Nat) := findSec? es t j.herdIdx
  let bad {α : Type} (e : Option DirEnt) (l : List α) (ok : Nat → α → Bool) : Option Refuse :=
    refuseIf 7 cJobFormat e l (fun i x => !ok i x)
  [if hdrOk j then none else failAt 7 cJobFormat (sh sJob) none,
   bad (sh sManifest) j.tensors (tensorOk j),
   bad (sh sManifest) j.shards (shardOk j),
   bad (sh sRecipes) j.recipes recipeFieldsOk,
   bad (sh sLadders) j.ladders (fun _ l => decide (l.top ≤ 4)),
   bad (sh sSeeds) j.sites (fun _ d => decide (1 ≤ d.t) && scaleOk d.c && (j.tensor? d.shape).isSome),
   bad (sh sInputs) j.inputs (fun _ d => decide (1 ≤ d.nIn) && (j.tensor? d.base).any (fun t => t.kind == kInput)),
   if j.res.cores ≤ 2048 ∧ j.res.streams ≤ 8192 then none else failAt 7 cJobFormat (pt sResource) none,
   bad (pt sPlacement) j.places (fun _ p => (j.tensor? p.tensor).any (fun t => decide (p.first < t.numel))),
   bad (pt sStreams) j.streams (streamOk j),
   bad (pt sSlots) j.runs (fun _ r => runOk j r),
   bad (pt sSlots) j.colls (fun _ c => decide (1 ≤ c.kind) && decide (c.kind ≤ 5) && decide (c.group ≤ 4)),
   match (usedCores j).find? (fun n => !coreProgOk j n) with
    | some n => some ⟨7, cJobFormat, ((pt sProgMap).map (·.idx)).getD 0xFFFF, n, some n⟩
    | none => none,
   bad (pt sRanges) j.ranges (rangeOk j)].findSome? id

/-! ### Checks 8 to 13: cores, engines, frequency, memory -/

def coreFault (check code : Nat) (e : Option DirEnt) (entry : Bool) (j : Job) (bad : Nat → Bool) : Option Refuse :=
  match (usedCores j).find? bad with
  | some n => some ⟨check, code, (e.map (·.idx)).getD 0xFFFF, if entry then n else noIndex, some n⟩
  | none => none

/-- Engine bits the grade lacks (R361). -/
def absentEngines : Nat := if slowTier then 0 else 2 ^ 7 + 2 ^ 8

/-- Bytes of a placed part with all its version slots. -/
def Job.extent (j : Job) (t : Tensor) (p : Place) : Nat :=
  let n := t.bytesOf p.first (j.partCount t p.first)
  if j.slotsOf t ≤ 1 then n else j.slotsOf t * slotStride n

/-- A range's place: its stack, or 8 and 9 for the DDR5 halves; none where no region holds all of it. -/
def State.region (s : State) (a n : Nat) : Option (Nat × Nat) :=
  if a < hbmTop then
    if a % stackBytes + n ≤ stackReserved then some (a / stackBytes, a % stackBytes) else none
  else if ddrBase ≤ a ∧ 0 < s.ddrC then
    let h := (a - ddrBase) / (6 * s.ddrC)
    if h < 2 ∧ (a - ddrBase) % (6 * s.ddrC) + n ≤ 6 * s.ddrC then some (8 + h, (a - ddrBase) % (6 * s.ddrC)) else none
  else none

def Job.declared (j : Job) (r : Nat) : Nat := if r < 8 then j.res.hbm.getD r 0 else j.res.ddr.getD (r - 8) 0

/-- A range lies within the first declared bytes of its region (log entry 27); one outside every region is left to
check 13. -/
def State.withinUse (s : State) (j : Job) (a n : Nat) : Bool :=
  match s.region a n with
  | some (r, o) => decide (o + n ≤ j.declared r)
  | none => true

/-- Check 12. -/
def State.sizeFault (s : State) (img : List Byte) (j : Job) : Option Refuse :=
  let es := directory img
  let r := findSec? es sResource j.herdIdx
  if 0x10_0000 < j.res.sram ∨ 0x2_0000 < j.res.acc ∨ j.res.hbm.any (fun x => decide (stackReserved < x))
      ∨ j.res.ddr.any (fun x => decide (6 * s.ddrC < x)) ∨ s.withinUse j j.res.cmdAddr j.res.cmdLen = false then
    failAt 12 cResourceExceeded r none
  else
    refuseIf 12 cResourceExceeded (findSec? es sPlacement j.herdIdx) j.places (fun _ p =>
      match j.tensor? p.tensor with
      | some t => !s.withinUse j p.addr (j.extent t p)
      | none => false)

/-- Table 11.2: data of this tensor lies in DDR5. -/
def Tensor.inSlowTier (t : Tensor) : Bool :=
  (t.slow && (t.kind == kMaster || t.kind == kM1 || t.kind == kM2)) || (t.kind == kChry && slowTier)

/-- Check 13 (R303, R304): a slow-tier part that ends beyond the installed capacity exceeds it; one that lies in no one half breaks the
tier rule. -/
def State.tierFault (s : State) (img : List Byte) (j : Job) : Option Refuse :=
  let es := directory img
  let e := findSec? es sPlacement j.herdIdx
  let place (i : Nat) (p : Place) : Option Refuse :=
    match j.tensor? p.tensor with
    | none => none
    | some t =>
      match s.region p.addr (j.extent t p) with
      | some (r, _) => if t.inSlowTier == decide (8 ≤ r) then none else failAt 13 cMemTier e (some i)
      | none =>
        if t.inSlowTier && decide (ddrBase ≤ p.addr) && decide (ddrBase + 12 * s.ddrC < p.addr + j.extent t p) then
          failAt 13 cResourceExceeded e (some i)
        else failAt 13 cMemTier e (some i)
  let cmd : Option Refuse := failAt 13 cMemTier (findSec? es sResource j.herdIdx) none
  Option.orTry
    (match s.region j.res.cmdAddr j.res.cmdLen with
      | some (r, _) => if r < 8 ∨ j.res.cmdLen = 0 then none else cmd
      | none => if j.res.cmdLen = 0 then none else cmd)
    ((List.range j.places.length).findSome? (fun i => (j.places[i]?).bind (place i)))

/-! ### Checks 14 and 15: state and update declarations (R179, R213, R222, R226) -/

def stateBad (j : Job) (t : Tensor) : Bool :=
  (t.kind == kEma && decide (1 < j.hdr.depth)) || (t.slow && t.stage != 0)
    || (t.kind == kM1 && t.format != .m8bs) || (t.kind == kM2 && t.format != .m8bu)
    || (t.kind == kMaster && decide (16 < (recipeOf (j.recipes.getD t.layer [])).nQ))

def limitOk (w : W32) : Bool := scaleOk w || w == 0x7F80_0000#32

/-- The formats a recipe binds are those of its layer's state tensors. -/
def bindingsOk (j : Job) (r : Recipe) : Bool :=
  j.tensors.all (fun t =>
    if t.kind ≠ kMaster ∨ t.layer ≠ r.index then true
    else
      let has (k : Nat) := j.tensors.any (fun u => u.kind == k && u.layer == r.index)
      t.format == .t32 && r.binds 2 == has kM1 && r.binds 3 == has kM2 && r.binds 4 == has kEma
        && j.tensors.all (fun u => u.kind != kEma || u.layer != r.index
          || u.format == (if bitsOf r.flags 1 1 = 1 then .t16 else .t32)))

/-- Footprint of R222 in bytes on one core that stages `n` elements and `rows` rows. -/
def Recipe.footprint (r : Recipe) (n rows : Nat) : Nat := 4 * r.slots * n + 4 * r.rowRegs * rows

/-- The shards of a layer's masters that this package owns, with their tensors: the owner's layer shard of Table 8.4. -/
def Job.layerShards (j : Job) (l : Nat) : List (Tensor × Shard) :=
  (j.shards.filter j.owns).filterMap (fun sh => match j.tensor? sh.tensor with
    | some t => if t.kind = kMaster ∧ t.layer = l then some (t, sh) else none
    | none => none)

/-- An owned shard breaks Table 8.4: with the rest of its layer's it is staged at once, across the used cores. -/
def stagingBad (j : Job) (sh : Shard) : Bool :=
  match j.tensor? sh.tensor with
  | none => false
  | some t =>
    let r := recipeOf (j.recipes.getD t.layer [])
    let nc := max 1 (usedCores j).length
    if t.kind ≠ kMaster ∨ !j.owns sh ∨ !(r.hasRed 0x20 || r.hasRed 0x21 || r.hasRed 0x22) then false
    else
      let all := j.layerShards t.layer
      decide (983040 < r.footprint (ceilDiv (all.map (fun x => x.2.count)).sum nc)
          (ceilDiv (all.map (fun x => ceilDiv x.2.count x.1.rowLen)).sum nc))
        || (r.hasRed 0x20 && (sh.first % t.rowLen != 0 || sh.count % t.rowLen != 0))
        || (r.hasRed 0x21 && decide (8192 < t.rowLen))

def updFault (img : List Byte) (j : Job) : Option Refuse :=
  let es := directory img
  if !limitOk j.hdr.tauC ∨ !limitOk j.hdr.tauA ∨ j.hdr.tauA.toNat < j.hdr.tauC.toNat then
    failAt 15 cUpdDecl (findSec? es sJob shared) none
  else
    Option.orTry (refuseIf 15 cUpdDecl (findSec? es sManifest shared) j.shards (fun _ sh => stagingBad j sh))
      (refuseIf 15 cUpdDecl (findSec? es sRecipes shared) j.recipes (fun _ b =>
        !((recipeOf b).admitted j.hdr.depth && bindingsOk j (recipeOf b))))

/-! ### Check 16: reductions (R277, R283, R289, R290) -/

/-- One REDUCE flit that reaches this package's units in a step: stream, SEQ, delivery slot. -/
structure Arrive where
  ctx : Nat
  seq : Nat
  due : Nat
  deriving DecidableEq, Repr

/-- The flits a schedule delivers here: by the receive tables for streams with links, by the owner's SENDs for local ones
(R474). A stream that this package only forwards ends elsewhere. -/
def Job.arrivals (j : Job) (wide : Bool) : List Arrive :=
  (List.range j.streams.length).flatMap (fun k =>
    match j.streams[k]? with
    | none => []
    | some c =>
      if c.kind ≠ 3 ∨ c.dstHerd ≠ j.herdIdx then []
      else if c.links = 0 then
        ((j.progInfo c.owner).sends.filter (fun x => x.stream == k && x.wide == wide)).map (fun x => ⟨k, x.seq, x.slot + 30⟩)
      else
        (j.runs.filter (fun r => r.recv && r.wide == wide && r.ctx == k)).flatMap (fun r =>
          (List.range r.count).map (fun i =>
            ⟨k, r.seq + i, plainNth r.first i + c.deltas.getD (c.links - 1) 0 + 30⟩)))

def Arrive.before (a b : Arrive) : Bool :=
  decide (a.due < b.due) || a.due == b.due && (decide (a.ctx < b.ctx) || a.ctx == b.ctx && decide (a.seq ≤ b.seq))

def insArrive (a : Arrive) : List Arrive → List Arrive
  | [] => [a]
  | b :: t => if a.before b then a :: b :: t else b :: insArrive a t

/-- The range an arrival goes to, its tensor, its first element and its count. -/
def Job.target (j : Job) (a : Arrive) : Option (Nat × RedRange × Nat × Nat) :=
  (j.streams[a.ctx]?).bind (fun c => (j.ranges[c.dst]?).map (fun r =>
    (c.dst, r, c.dstAddr + a.seq * contribPer c, contribPer c)))

def Job.covers (j : Job) (ri e : Nat) (a : Arrive) : Bool :=
  match j.target a with
  | some (i, r, f, n) => i == ri && decide (f ≤ e) && decide (e < f + n) && decide (e < r.first + r.count)
  | none => false

/-- Contributions one element of a range receives, in key order (R281). -/
def Job.inOrder (j : Job) (arrs : List Arrive) (ri e : Nat) : List Arrive :=
  (arrs.filter (j.covers ri e)).foldl (fun acc a => insArrive a acc) []

/-- A node of the reduction tree (R286): its level, and its index in that level. -/
abbrev RNode := Nat × Nat

/-- The node that an arrival's flit carries: its stream's level; the index is free (log entry 28). -/
def Job.nodeOf (j : Job) (a : Arrive) : RNode :=
  let l := ((j.streams[a.ctx]?).map (·.level)).getD 0
  (l, Config.nodeIndex j.digest j.herdIdx a.ctx a.seq % 2 ^ (11 - l))

/-- Two nodes that have one parent. -/
def RNode.sibling (x y : RNode) : Bool := x.1 == y.1 && x.2 / 2 == y.2 / 2 && x.2 != y.2

/-- What the insertion of nodes leaves: the nodes in an element's slots, the slots visited, and the nodes computed on the way. -/
structure RbtSim where
  occ    : List (Option RNode)
  visits : Nat
  made   : List RNode

/-- Insert node `x` as R288 does; none where R289 refuses. -/
def rbtLevels (top lmap : Nat) : (fuel : Nat) → RbtSim → (x : RNode) → Option RbtSim
  | 0, _, _ => none
  | k + 1, m, x =>
    if x.1 = top then
      if (m.occ.getD 0 none).isSome then none else some { m with occ := m.occ.set 0 (some x), visits := m.visits + 1 }
    else
      let i := bitsOf lmap (4 * x.1) 4
      match m.occ.getD i none with
      | none => some { m with occ := m.occ.set i (some x), visits := m.visits + 1 }
      | some y =>
        let z : RNode := (x.1 + 1, x.2 / 2)
        if RNode.sibling x y then
          rbtLevels top lmap k { occ := m.occ.set i none, visits := m.visits + 1, made := m.made ++ [z] } z
        else none

/-- Simulate one element of an RBT range over a step: the slots visited by each arrival and the nodes computed, or none. -/
def Job.simElem (j : Job) (r : RedRange) (ns : Nat) (arrs : List Arrive) : Option (List (Arrive × Nat) × List RNode) :=
  let go := arrs.foldl (fun (st : Option (RbtSim × List (Arrive × Nat))) a =>
    st.bind (fun (m, out) =>
      let x := j.nodeOf a
      if r.top ≤ x.1 then none
      else (rbtLevels r.top r.lmap (r.top + 1) { m with visits := 0 } x).map (fun m => (m, out ++ [(a, m.visits)]))))
    (some ({ occ := List.replicate ns none, visits := 0, made := [] }, []))
  go.bind (fun (m, out) => if (m.occ.getD 0 none).any (fun x => x.1 == r.top) then some (out, m.made) else none)

/-- The nodes that a range computes of element `e` in the schedule whose arrivals are `arrs`. -/
def Job.nodesMade (j : Job) (arrs : List Arrive) (ri : Nat) (r : RedRange) (e : Nat) : List RNode :=
  match (j.tensor? r.tensor).map (·.ns) with
  | some 0 => []
  | some ns => ((j.simElem r ns (j.inOrder arrs ri e)).map (·.2)).getD []
  | none => []

/-- Range `ri` of this package computes a node of an element that a range of another package of the image computes too; the ranges of
one package do not overlap (R289, R475). -/
def Job.nodeTwice (j : Job) (others : List Job) (wide : Bool) (ri : Nat) (r : RedRange) : Bool :=
  (List.range r.count).any (fun k =>
    let e := r.first + k
    let mine := j.nodesMade (j.arrivals wide) ri r e
    !mine.isEmpty && others.any (fun o => o.ranges.zipIdx.any (fun q =>
      q.1.tensor == r.tensor && decide (q.1.first ≤ e) && decide (e < q.1.first + q.1.count)
        && (o.nodesMade (o.arrivals wide) q.2 q.1 e).any mine.contains)))

/-- The other packages' parts of an image. -/
def otherParts (img : List Byte) (h : Nat) : List Job :=
  ((((directory img).filter (fun e => e.ty == sRanges && e.herd != h)).map (·.herd)).eraseDups).map (parseJob img)

/-- The stack that holds an element of a reduction buffer; the version slots of a part lie in one region (check 13). -/
def Job.elemStack (j : Job) (t : Tensor) (e : Nat) : Nat := ((j.addr? t 0 e).map (fun x => x.1 / stackBytes)).getD 8

/-- Accesses of R283 in one schedule, as (stack, delivery slot, accesses): one for each contribution to an element of an RBC
range, one for each slot visited in an RBT range; none where R289 refuses. -/
def Job.accesses (j : Job) (wide : Bool) : Option (List (Nat × Nat × Nat)) :=
  let arrs := j.arrivals wide
  (List.range j.ranges.length).foldl (fun acc ri =>
    match acc, j.ranges[ri]? with
    | some out, some r =>
      match j.tensor? r.tensor with
      | none => some out
      | some t =>
        (List.range r.count).foldl (fun acc k =>
          acc.bind (fun out =>
            let e := r.first + k
            let mine := j.inOrder arrs ri e
            let visits := if t.ns = 0 then some (mine.map (fun a => (a, 1))) else (j.simElem r t.ns mine).map (·.1)
            visits.map (fun l => out ++ l.map (fun (a, n) => (j.elemStack t e, a.due, n))))) (some out)
    | _, _ => none) (some [])

/-- R277: an RBC element takes at most 2^16 contributions. -/
def Job.tooMany (j : Job) (arrs : List Arrive) (ri : Nat) (r : RedRange) : Bool :=
  ((j.tensor? r.tensor).map (·.ns)).getD 0 == 0 && (List.range r.count).any (fun k =>
    decide (2 ^ 16 < (arrs.filter (j.covers ri (r.first + k))).length))

/-- R289 refuses an RBT range in the schedule whose arrivals are `arrs`. -/
def Job.badOrder (j : Job) (arrs : List Arrive) (ri : Nat) (r : RedRange) : Bool :=
  let ns := ((j.tensor? r.tensor).map (·.ns)).getD 0
  ns != 0 && (List.range r.count).any (fun k => (j.simElem r ns (j.inOrder arrs ri (r.first + k))).isNone)

def isPow2 (n : Nat) : Bool := (List.range 12).any (fun k => n == 2 ^ k)

/-- R290: every norm range of every gradient tensor lies within one shard of it, and each shard is a union of whole norm
ranges. A range that lies in no shard, or across a shard's edge, is refused. -/
def normRangesOk (j : Job) (t : Tensor) : Bool :=
  t.kind != kReduce ||
    (let n := max 1 (ceilDiv t.numel 2048)
     let shs := j.shards.filter (fun sh => sh.tensor == t.index)
     (List.range (ceilDiv t.numel n)).all (fun i =>
          shs.any (fun sh => decide (sh.first ≤ i * n) && decide (min ((i + 1) * n) t.numel ≤ sh.first + sh.count)))
        && shs.all (fun sh => sh.first % n == 0
          && ((sh.first + sh.count) % n == 0 || sh.first + sh.count == t.numel)))

/-- R283: more than 4,096 accesses to one unit in some 32 consecutive slots. -/
def overloaded (acc : List (Nat × Nat × Nat)) : Bool :=
  acc.any (fun p => decide (4096 < ((acc.filter (fun q => q.1 == p.1 && decide (p.2.1 ≤ q.2.1)
    && decide (q.2.1 < p.2.1 + 32))).map (·.2.2)).sum))

/-- Check 16: R277 and R290, then R289, then R283. -/
def reduceFault (img : List Byte) (j : Job) : Option Refuse :=
  let es := directory img
  let e := findSec? es sRanges j.herdIdx
  let ci := bitsOf j.hdr.flags 0 1 == 1
  let an := j.arrivals false
  let aw := j.arrivals true
  [if ci ∧ isPow2 j.hdr.replicas = false then failAt 16 cReduceDecl (findSec? es sJob shared) none else none,
   if ci then refuseIf 16 cReduceDecl (findSec? es sManifest shared) j.tensors (fun _ t => !normRangesOk j t) else none,
   refuseIf 16 cReduceDecl e j.ranges (fun i r => j.tooMany an i r || j.tooMany aw i r),
   refuseIf 16 cReduceOrder e j.ranges (fun i r => j.badOrder an i r || j.badOrder aw i r
     || j.nodeTwice (otherParts img j.herdIdx) false i r || j.nodeTwice (otherParts img j.herdIdx) true i r),
   match j.accesses false, j.accesses true with
    | some a, some b =>
      if overloaded a || overloaded b then failAt 16 cResourceExceeded (findSec? es sSlots j.herdIdx) none else none
    | _, _ => none].findSome? id

/-! ### Checks 17 and 18 (Table 9.11, R325) -/

/-- This package is the source of stream `k`: it ends elsewhere, and no receive run brings it in. -/
def Job.outgoing (j : Job) (k : Nat) (c : Stream) : Bool := decide (1 ≤ c.links) && c.dstHerd != j.herdIdx && !j.received k
def Job.incoming (j : Job) (c : Stream) : Bool := decide (1 ≤ c.links) && c.dstHerd == j.herdIdx

/-- The link of its route by which a stream that this package forwards arrives in run `r`: the one whose delivery slots plus 12
meet a forward run from the in-port (R260), else the first whose next port has such a run (log entry 21). -/
def Job.hopOf (j : Job) (r : Run) (c : Stream) : Option Nat :=
  let fwd (i : Nat) (meets : Run → Bool) : Bool :=
    j.runs.any (fun f => !f.recv && f.wide == r.wide && f.ctx == 0x8000 + r.port && f.port == c.route.getD (i + 1) 0xFF
      && meets f)
  let inner := List.range (c.links - 1)
  (inner.find? (fun i => fwd i (fun f => (List.range r.count).any (fun k =>
    (runIndex f.first f.count (plainNth r.first k + c.deltas.getD i 0 + 12)).isSome)))).orElse (fun _ =>
      inner.find? (fun i => fwd i (fun _ => true)))

/-- A run by which a stream comes in, with the stream and the link of its route: the last one where the stream ends here. -/
def Job.inLink (j : Job) (r : Run) : Option (Stream × Nat) :=
  if !r.recv then none
  else (j.streams[r.ctx]?).bind (fun c =>
    if j.incoming c then some (c, c.links - 1)
    else if decide (1 ≤ c.links) && j.hopOf r c != none then (j.hopOf r c).map (fun i => (c, i)) else none)

/-- What the image says of a link of this package: its port, the declared Δ, and the peer's herd index and port where it gives
them. A link in names the port that the sender's route gives; a link out to the destination names its herd index (log
entry 21). -/
structure LinkDecl where
  port  : Nat
  delta : Nat
  peer  : Option Nat
  pport : Option Nat
  deriving DecidableEq, Repr

/-- Link `i` of a stream's route, as its sender: the peer is the destination where the link is the last. -/
def Stream.outLink (c : Stream) (i : Nat) : LinkDecl :=
  ⟨c.route.getD i 0xFF, c.deltas.getD i 0, if i + 1 = c.links then some c.dstHerd else none, none⟩

/-- The link by which a stream leaves its source. -/
def Job.streamLinks (j : Job) (k : Nat) (c : Stream) : List LinkDecl := if j.outgoing k c then [c.outLink 0] else []

/-- The link by which a run brings its stream in, and the one by which the stream goes on. -/
def Job.runLinks (j : Job) (r : Run) : List LinkDecl :=
  match j.inLink r with
  | none => []
  | some (c, i) => ⟨r.port, c.deltas.getD i 0, none, some (c.route.getD i 0xFF)⟩
      :: (if i + 1 < c.links then [c.outLink (i + 1)] else [])

def Job.usedLinks (j : Job) : List LinkDecl := j.streams.zipIdx.flatMap (fun p => j.streamLinks p.2 p.1) ++ j.runs.flatMap j.runLinks

/-- PORT_PEER differs from what the image expects: this package's own HERD_ID, and the index and port it gives. -/
def State.peerBad (s : State) (j : Job) (p : Nat) : Bool :=
  s.fld (rPortPeer p) 16 32 != s.fld rPfHerd 32 32 || s.fld (rPortPeer p) 48 1 != 1
    || j.usedLinks.any (fun l => l.port == p && (l.peer.any (fun i => s.fld (rPortPeer p) 0 11 != i)
        || l.pport.any (fun q => s.fld (rPortPeer p) 11 5 != q)))

/-- λ exceeds λ_max, or the declared Δ is too short for it (R256). -/
def State.linkSlow (s : State) (j : Job) (l : LinkDecl) : Bool :=
  decide (j.hdr.lambdaMax < s.lambda l.port) || decide (l.delta < 3 * s.lambda l.port + 35)

/-- A slot of a forward run is 12 after the delivery slot of a flit that its in-port brings and that goes on by its port (R260, R359). -/
def Job.slotFed (j : Job) (f : Run) (q : Nat) : Bool :=
  j.runs.any (fun r => r.recv && r.wide == f.wide && 0x8000 + r.port == f.ctx && (j.streams[r.ctx]?).any (fun c =>
    c.dstHerd != j.herdIdx && (List.range (c.links - 1)).any (fun i => c.route.getD (i + 1) 0xFF == f.port
      && (List.range r.count).any (fun k => plainNth r.first k + c.deltas.getD i 0 + 12 == q))))

/-- A forward run of this package sends in slot `q`, on `port`, what arrives on `inPort`. -/
def Job.slotForwards (j : Job) (wide : Bool) (inPort port q : Nat) : Bool :=
  j.runs.any (fun f => !f.recv && f.wide == wide && f.ctx == 0x8000 + inPort && f.port == port
    && (runIndex f.first f.count q).isSome)

/-- A run breaks Table 9.11: it starts in a spare; it forwards across the port dies, by the port of arrival, or in a slot that is not 12
after the delivery of a flit to be forwarded (R260); or it brings in a flit to be forwarded whose slot 12 after delivery is a spare or
in no forward run (R260, R261). Positions are counted as if the step origin lay on a multiple of 16 (log entry 137, DESIGN
CHOICE). -/
def Job.runBad (j : Job) (r : Run) : Bool :=
  isSpare r.first
    || (decide (0x8000 ≤ r.ctx) && (portHalf (r.ctx - 0x8000) != portHalf r.port || r.ctx == 0x8000 + r.port
      || !(List.range r.count).all (fun k => j.slotFed r (plainNth r.first k))))
    || (match j.inLink r with
      | some (c, i) =>
        decide (i + 1 < c.links) && (portHalf (c.route.getD (i + 1) 0) != portHalf r.port
          || (List.range r.count).any (fun k =>
            let q := plainNth r.first k + c.deltas.getD i 0 + 12
            isSpare q || !j.slotForwards r.wide r.port (c.route.getD (i + 1) 0xFF) q))
      | none => false)

/-- A FABRIC port that the image uses fails: the first stream that leaves by such a port, else the first run on one. -/
def Job.portFault (j : Job) (st sl : Option DirEnt) (code : Nat) (bad : Nat → Bool) : Option Refuse :=
  Option.orTry (refuseIf 17 code st j.streams (fun k c => j.outgoing k c && bad (c.route.getD 0 0xFF)))
    (refuseIf 17 code sl j.runs (fun _ r => bad r.port))

/-- Check 17 (Table 9.11, R256, R261). -/
def State.fabricFault (s : State) (img : List Byte) (j : Job) : Option Refuse :=
  let es := directory img
  let st := findSec? es sStreams j.herdIdx
  let sl := findSec? es sSlots j.herdIdx
  if s.fld rPfSyncStat 0 1 = 0 ∧ s.fld rPfSyncCtrl 0 1 = 0 then failAt 17 cPacktimeSkew none none
  else if s.herdIndex ≠ j.herdIdx ∨ s.fld rPfHerd 16 12 ≠ j.hdr.herd then failAt 17 cRouteInvalid none none
  else
    [j.portFault st sl cLinkDown (fun p => s.mode p != 1 || !s.portUp p),
     j.portFault st sl cPeerMismatch (s.peerBad j),
     refuseIf 17 cLatencyExceeded st j.streams (fun k c => (j.streamLinks k c).any (s.linkSlow j)),
     refuseIf 17 cLatencyExceeded sl j.runs (fun _ r => (j.runLinks r).any (s.linkSlow j)
       || decide (j.hdr.lambdaMax < s.lambda r.port)),
     refuseIf 17 cRouteInvalid st j.streams (fun _ c => decide (8 < c.links)),
     refuseIf 17 cRouteInvalid sl j.runs (fun _ r => j.runBad r),
     if 8192 < j.streams.length then failAt 17 cResourceExceeded st none else none,
     if allPorts.any (fun p => [true, false].any (fun w => [true, false].any (fun d =>
         decide (65536 < (j.runs.filter (fun r => r.port == p && r.wide == w && r.recv == d)).length)))) then
       failAt 17 cResourceExceeded sl none else none].findSome? id

def State.hostlinkFault (s : State) : Option Refuse :=
  if s.hlPorts.any (fun p => !(s.portUp p && s.fld (rPortStat p) 6 4 == 15)) ∨ s.fld rHlCtrl 6 1 = 0
      ∨ s.cqOn (s.fld rHlCtrl 0 6) = false then failAt 18 cLinkDown none none
  else none

/-- Checks 2 to 18, in order. -/
def State.imageRefusal (s : State) (img : List Byte) (len : Nat) : Option Refuse :=
  let h := s.herdIndex
  let j := parseJob img h
  let es := directory img
  let pm := findSec? es sProgMap h
  [containerFault img len,
   s.sigFault img,
   digestFault img h,
   s.herdFault img,
   programFault img h,
   fieldFault img j,
   coreFault 8 cResourceExceeded pm true j (fun n => decide (numCores ≤ n) || !s.mapped? n),
   if j.res.engines &&& absentEngines = 0 then none else failAt 9 cEngineAbsent (findSec? es sResource h) none,
   coreFault 9 cEngineAbsent pm true j (fun n => (j.progInfo n).engines &&& absentEngines != 0),
   coreFault 10 cJobDecl pm true j (fun n => (j.progInfo n).undefAt.isSome
     || (j.progInfo n).engines ||| j.res.engines != j.res.engines),
   coreFault 11 cFreqBelow none false j (fun n => decide (currentMax s.nv (s.mapEntry n) < j.hdr.freq)),
   s.sizeFault img j,
   s.tierFault img j,
   refuseIf 14 cStateDecl (findSec? es sManifest shared) j.tensors (fun _ t => stateBad j t),
   updFault img j,
   reduceFault img j,
   s.fabricFault img j,
   s.hostlinkFault].findSome? id

/-! ### Discard, refusal and installation (R362, R364, R366) -/

/-- Every instruction bank EMPTY, no job. -/
def State.discardJob (s : State) : State :=
  let s := s.dropRegs (fun a => rBuJobStat ≤ a ∧ a ≤ rBuJobDigest 7)
  let s := (List.range numCores).foldl (fun s n =>
    (s.setReg (rCore n oBank) 0).setCore n { s.core n with bank0 := [], bank1 := [], load0 := none, load1 := none, entry := none }) s
  let s := s.setFld rPwrFloor 32 12 0
  ({ s with job := none, stp := StepSt.reset, hl := { s.hl with restored := none }
            pwr := { s.pwr with fsched := 0 } }).setBu stLoad

/-- Record a refusal (Table 13.13). -/
def State.refuseJob (s : State) (r : Refuse) : State :=
  let s := s.setReg rBuJobStat (3 + 2 ^ 8 * r.check + 2 ^ 16 * r.code)
  s.setReg rBuJobDetail (r.entry % 2 ^ 32 + 2 ^ 32 * (r.sec % 2 ^ 16) + match r.core with
    | some n => 2 ^ 48 * (n % 2 ^ 11) + 2 ^ 59
    | none => 0)

/-- An address lies in the HBM or DDR5 use an image declares (Table 13.5). -/
def State.declares (s : State) (j : Job) (a : Nat) : Bool :=
  if a < hbmTop then decide (a % stackBytes < j.declared (a / stackBytes))
  else
    let h := (a - ddrBase) / (6 * s.ddrC)
    decide (ddrBase ≤ a) && decide (h < 2) && decide ((a - ddrBase) % (6 * s.ddrC) < j.declared (8 + h))

/-- The contents of the ranges these jobs declare are unspecified after a refusal (R364). -/
def State.loosen (s : State) (js : List Job) : State := s.scramble (fun a => js.any (fun j => s.declares j a))

/-- Zero a range of device memory. -/
def State.zero (s : State) (a n : Nat) : State :=
  { s with mem := mapDrop (fun k => decide (a ≤ k) && decide (k < a + n)) s.mem
           bad := s.bad.filter (fun b => !coversBlock a n b) }

/-- Write a tensor part's bytes in every version slot from a list of one slot's bytes. -/
def State.fillPart (s : State) (j : Job) (t : Tensor) (p : Place) (slots : List Nat) (bs : List Byte) : State :=
  slots.foldl (fun s v => s.store (p.addr + v * slotStride (t.bytesOf p.first (j.partCount t p.first))) bs) s

/-- The contents a held part has after the load, where they are not zeros: an INIT section's bytes (version 0), a recipe's
initial state (R232), scent lines with bits 0 (R155), an empty RBT buffer (R276). -/
def State.initPart (s : State) (j : Job) (p : Place) : State :=
  match j.tensor? p.tensor with
  | none => s
  | some t =>
    let n := j.partCount t p.first
    let all := List.range (j.slotsOf t)
    match j.inits.find? (fun e => e.1 == t.index) with
    | some e => s.fillPart j t p [0] (slice e.2 (t.offset p.first) (t.bytesOf p.first n))
    | none =>
      if t.kind = kState then
        let r := recipeOf (j.recipes.getD t.layer [])
        s.fillPart j t p [0] ((r.q.take (min r.nQ n)).flatMap (fun w => leBytes 4 w.toNat))
      else if t.kind = 3 then
        s.fillPart j t p all ((List.range (t.bytesOf p.first n / 64)).flatMap (fun _ => scentLine (List.replicate 448 0)))
      else if t.kind = kReduce ∧ 0 < t.ns then
        s.fillPart j t p all ((List.range n).flatMap (fun _ => zeroElem t.ns))
      else s

/-- A power of two as s_fb before any update pass has measured the masters: the spec gives none, so its exponent is a
free value (log entry 29). -/
def State.freeScales (s : State) (j : Job) : State :=
  { s with stp := { s.stp with sfb := (j.tensors.filter (fun t => t.kind == kMaster)).map (fun t =>
      (t.index, t32Pow2 ((Config.fallbackExponent j.digest t.index % 254 : Nat) - 126))) } }

/-- Tensors whose codes an update pass writes with a scale: working copies and the EMA (R180, R183). -/
def Tensor.passCodes (t : Tensor) : Bool := (t.kind == kWorking || t.kind == kEma) && scaled t.format

/-- Version 0 of the copies with a scale is bound to the manifest's (R53, R184). -/
def State.bindInitial (s : State) (j : Job) : State :=
  { s with stp := { s.stp with bound := (j.tensors.filter Tensor.passCodes).map (fun t => (16 * t.index, t.scale)) } }

/-- Bank 0 of a used core holds the entry segment and becomes ACTIVE at its first offset; command counts start anew (R126),
and so do the groups and MIN_MARGIN (Table 5.6). -/
def State.installCore (s : State) (j : Job) (n : Nat) : State :=
  let e := j.progMap.getD n (noIndex, 0)
  let seg := (j.progInfo n).segments.find? (fun g => g.id == e.2)
  let bytes := ((j.progs.find? (fun p => p.id == e.1)).map (·.bytes)).getD []
  let s := ((s.setReg (rCore n oCount) 0).setReg (rCore n oLast) 0).setCfld n oHeel 0 16 0xFFFF
  let s := s.setReg (rCore n oBank) (3 + 2 ^ 16 * (e.2 % 2 ^ 16))
  let s := s.setReg (rCore n oNwThresh) (match (j.progInfo n).ladder.bind (fun l => j.ladders[l]?) with
    | some l => l.satThr + 2 ^ 16 * l.flushThr
    | none => 0xFFFF_FFFF)
  s.setCore n { s.core n with
    bank0 := match seg with
      | some g => slice bytes g.off g.len
      | none => []
    bank1 := [], load0 := none, load1 := none, entry := some e.2, resume := 0, window := [], stream := []
    ending := none, asOf := 0, groups := [], feeds := [] }

/-- The registers that the admission of a job returns to reset (Table 18.13). -/
def admitResets : List Nat :=
  [rPfStopCause, rPfStopTime, rPfFault, rPfFaultTime, rPfWidenStat, rPfWidenCause, rPfStepStat, rPfStepNorm, rPfNfTensor,
   rPfNfElem, rPfUpdStat, rPfDiverge, rPfDivStep, rPfDivLocal, rPfDivRef, rPfRedStat, rMemChryStat]

/-- R366, steps 1 to 6. -/
def State.install (s : State) (j : Job) : State :=
  let s := s.dropRegs (fun a => admitResets.contains a)
  let s := { s with job := some j, stp := StepSt.reset
                    fab := { s.fab with colls := [], sendBuf := [], held := [], stopOut := false, originsFwd := [],
                                        issueStopped := false, haltedAt := none }
                    pwr := { s.pwr with fsched := j.hdr.freq }
                    hl := { s.hl with restored := none, inputs := [], waitIn := [] } }
  let s := s.setReg rPfNormLimits (j.hdr.tauC.toNat + 2 ^ 32 * j.hdr.tauA.toNat)
  let s := s.setFld rPwrFloor 32 12 j.hdr.freq
  -- step 4's zeros come before step 3's copies, so that the command area keeps its programs
  let s := (List.range 8).foldl (fun s h => s.zero (h * stackBytes) (j.res.hbm.getD h 0)) s
  let s := (List.range 2).foldl (fun s h => s.zero (ddrBase + h * (6 * s.ddrC)) (j.res.ddr.getD h 0)) s
  let s := j.progs.foldl (fun s p => s.store p.base (p.bytes.take (j.res.cmdAddr + j.res.cmdLen - p.base))) s
  let s := j.places.foldl (fun s p => s.initPart j p) s
  let s := (usedCores j).foldl (fun s n => s.installCore j n) s
  let s := (s.freeScales j).bindInitial j
  let s := (List.range 8).foldl (fun s i => s.setReg (rBuJobDigest i) (bitsOf j.digest.toNat (64 * i) 64)) s
  let s := s.setReg rBuJobStat 2
  (s.setReg rBuJobDetail 0).setBu stReady

/-- JOB_LOAD (Table 12.8, R362 to R366). An image whose container is invalid declares nothing. -/
def State.jobLoad (s : State) (q i : Nat) (d : Desc) (image : Option (List Byte)) : State :=
  if d.f 16 8 % 64 ≠ 0 ∨ d.f 24 8 = 0 then s.finish q i cDescMalformed 0
  else if s.bu ≠ stLoad ∧ s.bu ≠ stReady then s.finish q i cJobBusy 0
  else
    let old := s.job.toList
    let s := if s.bu = stReady then s.discardJob else s
    let t := s.readHost q (d.f 16 8) (d.f 24 8)
    match image with
    | none => (t.loosen old).finish q i cHostError 0
    | some bs =>
      let img := slice bs 0 (d.f 24 8)
      match s.imageRefusal img (d.f 24 8) with
      | some r =>
        let new := if r.check = 2 then [] else [parseJob img s.herdIndex]
        ((t.loosen (old ++ new)).refuseJob r).finish q i r.code 0
      | none => (t.install (parseJob img s.herdIndex)).finish q i 0 0

/-- JOB_LOAD. -/
def execJobLoad (q i : Nat) (image : Option (List Byte)) (s : State) : Res :=
  s.whenLive (fun s => s.withDesc q i 6 (fun d s => s.jobLoad q i d image))

end Sys2Proof.Machine
end

