-- ==== Sys2Proof/Machine/Restore.lean ====
section
/-! DEFINITION. Chrysalis slots: the sections of a package (R196, R197), the slot's bytes (R202, R203, Tables 7.5 to
7.7), and RESTORE (R205, R206). -/

namespace Sys2Proof.Machine
open Sys2Proof

/-- A section: its table fields (Table 7.6), and the version slot of its tensor that it holds. -/
structure Section where
  tensor : Nat
  kind   : Nat
  fmt    : Nat
  age    : Nat
  first  : Nat
  count  : Nat
  slot   : Nat
  deriving DecidableEq, Repr

/-- The counters a snapshot is taken at: step, v, n, and the pending steps, oldest first. -/
structure SnapAt where
  b    : Nat
  v    : Nat
  n    : Nat
  pend : List Nat

/-- Section kind of a state tensor that its owner writes; 0 for other kinds. -/
def ownerKind (k : Nat) : Nat :=
  if k = kMaster then 1 else if k = kM1 then 2 else if k = kM2 then 3 else if k = kEma then 4
  else if k = kState then 7 else 0

/-- Values of a recipe state section: 16 for each layer (Table 7.7). -/
def stateValues : Nat := 16

/-- The sections of one tensor (R196, R197): owner state of owned parts; of a working copy every held part's current version,
and the version max(v − k, 0) that step b reads at stage k where that is another one (R184). Among sections of equal keys the
pending gradients stand oldest first (log entry 30, DESIGN CHOICE). -/
def Job.sectionsOf (j : Job) (a : SnapAt) (t : Tensor) : List Section :=
  let mk (kind age slot : Nat) (p : Place) : Section :=
    { tensor := t.index, kind, fmt := t.fmt, age, first := p.first, count := j.partCount t p.first, slot }
  let parts := j.partsOf t
  let gen := if t.slow then a.n % 2 else 0
  if t.kind = kState then (parts.filter j.ownsPart).map (fun p => { mk 7 0 gen p with count := stateValues })
  else if ownerKind t.kind ≠ 0 then (parts.filter j.ownsPart).map (mk (ownerKind t.kind) 0 gen)
  else if t.kind = kWorking then
    let age := min t.stage a.v
    parts.map (mk 5 0 (if t.slow then gen else a.v % (t.stage + 1)))
      ++ (if age = 0 then [] else parts.map (mk 6 age ((a.v - age) % (t.stage + 1))))
  else if t.kind = kReduce ∧ t.slow then
    (parts.filter j.ownsPart).flatMap (fun p => a.pend.map (fun st => { mk 8 0 (st % (j.hdr.delayD + 1)) p with fmt := 0x20 }))
  else []

/-- Entries of the scale table: every tensor with a scale, then every narrow layer (Table 7.7). -/
def Job.scaleCount (j : Job) : Nat := (j.tensors.filter (fun t => scaled t.format)).length + j.ladders.length

/-- Every section of this package, in the order of R203. The records and the scale table carry index 0xFFFF_FFFF, format code 0
and their number of records or entries (log entry 30, DESIGN CHOICE). -/
def Job.sections (j : Job) (a : SnapAt) : List Section :=
  (sortKeys (j.tensors.map (fun t => (t.index, t)))).flatMap (fun t => j.sectionsOf a t.2)
    ++ (if j.hasSlow then
          [{ tensor := noIndex, kind := 9, fmt := 0, age := 0, first := 0, count := a.pend.length, slot := 0 }] else [])
    ++ [{ tensor := noIndex, kind := 10, fmt := 0, age := 0, first := 0, count := j.scaleCount, slot := 0 }]

def Job.sectionLen (j : Job) (c : Section) : Nat :=
  if c.kind = 7 then 4 * c.count else if c.kind = 8 then 8 * c.count else if c.kind = 9 then 16 * c.count else if c.kind = 10 then 8 * c.count
  else match j.tensor? c.tensor with
    | some t => t.bytesOf c.first c.count
    | none => 0

/-- Where section data starts: the first 4 KiB multiple after the table. -/
def dataStart (n : Nat) : Nat := ceilDiv (0x1000 + 32 * n) 4096 * 4096

/-- Sections with the offset of their data, each at a multiple of 64 B. -/
def Job.laidOut (j : Job) (cs : List Section) : List (Section × Nat) :=
  (cs.foldl (fun (acc : Nat × List (Section × Nat)) c =>
    (acc.1 + ceilDiv (j.sectionLen c) 64 * 64, acc.2 ++ [(c, acc.1)])) (dataStart cs.length, [])).2

def Section.entry (c : Section) (off : Nat) : List Byte :=
  leBytes 4 c.tensor ++ leBytes 1 c.kind ++ leBytes 1 c.fmt ++ leBytes 1 c.age ++ [0#8] ++ leBytes 8 c.first
    ++ leBytes 8 c.count ++ leBytes 8 off

/-! ### Writing a slot (R196, R202) -/

def State.scaleTable (s : State) (j : Job) : List Byte :=
  (j.tensors.filter (fun t => scaled t.format)).flatMap (fun t =>
      leBytes 4 t.index ++ leBytes 4 (s.scaleOf t).toNat)
    ++ (List.range j.ladders.length).flatMap (fun l =>
      leBytes 4 l ++ leBytes 4 (s.fallback (j.ladderOf.getD l noIndex)).toNat)

/-- The pending slots' records, oldest first. -/
def State.pendRecs (s : State) (j : Job) : List SlowRec := (s.stp.slowRecs.take j.hdr.delayD).reverse

def SlowRec.bytes (r : SlowRec) : List Byte :=
  leBytes 8 r.step ++ leBytes 4 r.clip.toNat ++ leBytes 4 (b2n r.skip)

/-- The bytes of a section as memory holds them. -/
def State.sectionBytes (s : State) (j : Job) (c : Section) : List Byte :=
  if c.kind = 9 then (s.pendRecs j).flatMap SlowRec.bytes
  else if c.kind = 10 then s.scaleTable j
  else match j.tensor? c.tensor with
    | none => []
    | some t =>
      match j.addr? t c.slot c.first with
      | none => []
      | some (a, _) =>
        if c.kind = 7 then
          let n := min (recipeOf (j.recipes.getD t.layer [])).nQ (min c.count t.numel)
          s.load a (4 * n) ++ List.replicate (4 * (c.count - n)) 0#8
        else if c.kind = 8 then (List.range c.count).flatMap (fun i => s.load (a + elemSize t.format t.ns * i) 8)
        else s.load a (j.sectionLen c)

def pad64 (bs : List Byte) : List Byte := bs ++ List.replicate (ceilDiv bs.length 64 * 64 - bs.length) 0#8

def State.snapAt (s : State) (j : Job) : SnapAt :=
  { b := s.stp.step, v := s.stp.v, n := s.stp.n, pend := (s.pendRecs j).map (·.step) }

/-- The slot header without its body digest. -/
def State.slotHeader (s : State) (j : Job) (count : Nat) : List Byte :=
  ascii "TCHKCHRY" ++ leBytes 2 1 ++ leBytes 2 (bitsOf j.hdr.flags 0 1) ++ leBytes 4 count ++ leBytes 8 s.stp.step
    ++ leBytes 8 s.stp.v ++ leBytes 4 j.position ++ leBytes 4 j.perReplica ++ leBytes 4 j.hdr.herd
    ++ leBytes 1 (if j.hasSlow then j.hdr.delayD else 0) ++ leBytes 1 j.hdr.depth ++ leBytes 1 (min 255 s.stp.wideRun)
    ++ [0#8] ++ leBytes 8 (if j.hasSlow then s.stp.n else 0) ++ leBytes 8 0 ++ digestBytes j.digest

/-- The bytes of the slot that the current state makes. The body ends with the last section's last byte. -/
def State.slotBytes (s : State) (j : Job) : List Byte :=
  let cs := j.laidOut (j.sections (s.snapAt j))
  let table := cs.flatMap (fun p => p.1.entry p.2)
  let gap := List.replicate (dataStart cs.length - 0x1000 - table.length) 0#8
  let datas := cs.map (fun p => s.sectionBytes j p.1)
  let body := table ++ gap ++ datas.dropLast.flatMap pad64 ++ (datas.getLast?.getD [])
  let head := s.slotHeader j cs.length ++ digestBytes (sha3_512 body)
  head ++ List.replicate (0x1000 - head.length) 0#8 ++ pad64 body

/-! ### Restoring (R205, R206) -/

/-- A section that a slot holds, with its offset; `slot` numbers the sections of equal tensor, kind and first element, which
only pending gradients have more than one of. -/
def slotSections (bs : List Byte) : List (Section × Nat) :=
  let es := (List.range (fieldLe bs 0x00C 4)).map (fun i => slice bs (0x1000 + 32 * i) 32)
  es.zipIdx.map (fun (e, i) =>
    ({ tensor := fieldLe e 0 4, kind := fieldLe e 4 1, fmt := fieldLe e 5 1, age := fieldLe e 6 1, first := fieldLe e 8 8
       count := fieldLe e 16 8, slot := ((es.take i).filter (fun f => slice f 0 5 == slice e 0 5 && slice f 8 8 == slice e 8 8)).length },
     fieldLe e 24 8))

/-- Runs of elements joined where one begins at the other's end, and whether some overlap. -/
def joinRuns : List (Nat × Nat) → List (Nat × Nat) × Bool
  | [] => ([], false)
  | (f, n) :: rest => match joinRuns rest with
    | ((g, m) :: t, b) => if g = f + n then ((f, n + m) :: t, b) else ((f, n) :: (g, m) :: t, b || decide (g < f + n))
    | ([], b) => ([(f, n)], b)

/-- The runs of elements that sections of one tensor, kind, age, format and number cover, joined. -/
def coverage (cs : List Section) (k : Section) : List (Nat × Nat) × Bool :=
  joinRuns (sortKeys ((cs.filter (fun c => c.tensor == k.tensor && c.kind == k.kind && c.age == k.age && c.fmt == k.fmt
    && c.slot == k.slot)).map (fun c => (c.first, c.count))))

/-- The sections a package needs, numbered as a slot's are. -/
def Job.needed (j : Job) (a : SnapAt) : List Section :=
  (j.sections a).map (fun c => { c with slot := if c.kind = 8 then a.pend.findIdx (fun st => st % (j.hdr.delayD + 1) == c.slot) else 0 })

/-- A slot's sections cover exactly what is needed, in the declared formats, each from the start of a line (R205). -/
def Job.covered (j : Job) (need got : List Section) : Bool :=
  (need ++ got).all (fun k => let x := coverage need k; let y := coverage got k; x == y && !x.2)
    && got.all (fun c => match j.tensor? c.tensor with
      | some t => !isPacked t.format || c.first % t.rowLen % codesPerLine t.format == 0
      | none => true)

/-- The counters a slot names. -/
def Job.slotAt (j : Job) (bs : List Byte) : SnapAt :=
  let b := fieldLe bs 0x010 8
  let d := if j.hasSlow then min j.hdr.delayD b else 0
  { b, v := fieldLe bs 0x018 8, n := fieldLe bs 0x030 8, pend := (List.range d).map (fun i => b - d + i) }

/-- Where a slot's last section ends. -/
def Job.slotEnd (j : Job) (cs : List (Section × Nat)) : Nat := cs.foldl (fun m p => max m (p.2 + j.sectionLen p.1)) 0x1000

/-- Table 7.8, in order, on the slot's bytes; 0 when every check passes. -/
def Job.slotCode (j : Job) (bs : List Byte) : Nat :=
  let cs := slotSections bs
  let stop := j.slotEnd cs
  let free := bitsOf (fieldLe bs 0x00A 2) 0 1 = 1 ∧ bitsOf j.hdr.flags 0 1 = 1
  if slice bs 0 8 ≠ ascii "TCHKCHRY" ∨ fieldLe bs 8 2 ≠ 1 then cSnapCorrupt
  else if bs.length < stop ∨ sha3_512 (slice bs 0x1000 (stop - 0x1000)) ≠ BitVec.ofNat 512 (fieldLe bs 0x080 64) then
    cSnapCorrupt
  else if BitVec.ofNat 512 (fieldLe bs 0x040 64) ≠ j.digest then cSnapMismatch
  else if fieldLe bs 0x028 4 ≠ j.hdr.herd ∧ ¬ free then cSnapMismatch
  else if !j.covered (j.needed (j.slotAt bs)) (cs.map (·.1)) then cSnapMismatch
  else 0

/-- The version slot a section of a slot goes to. -/
def Job.sectionSlot (j : Job) (a : SnapAt) (t : Tensor) (c : Section) : Nat :=
  if c.kind = 8 then a.pend.getD c.slot 0 % (j.hdr.delayD + 1)
  else if t.slow then a.n % 2
  else if t.kind = kWorking then (a.v - c.age) % (t.stage + 1) else 0

/-- The held parts that a section's elements lie in: first element and count in each. -/
def Job.pieces (j : Job) (t : Tensor) (c : Section) : List (Nat × Nat) :=
  (j.partsOf t).filterMap (fun p =>
    let lo := max p.first c.first
    let hi := min (p.first + j.partCount t p.first) (c.first + c.count)
    if lo < hi then some (lo, hi - lo) else none)

/-- Write one section back (R276 for a pending slow gradient: slot 0, the others empty). -/
def State.putSection (s : State) (j : Job) (a : SnapAt) (c : Section) (bs : List Byte) : State :=
  match j.tensor? c.tensor with
  | none => s
  | some t =>
    let v := j.sectionSlot a t c
    if c.kind = 7 then match j.addr? t v 0 with
      | some (x, _) => s.store x (bs.take (4 * t.numel))
      | none => s
    else (j.pieces t c).foldl (fun s (f, n) => match j.addr? t v f with
      | none => s
      | some (x, _) =>
        if c.kind = 8 then
          s.store x ((List.range n).flatMap (fun i =>
            slice bs (8 * (f - c.first + i)) 8 ++ (List.range (t.ns - 1)).flatMap (fun _ => pairBytes emptySlot)))
        else s.store x (slice bs (t.offset f - t.offset c.first) (t.bytesOf f n))) s

/-- Clear the fast reduction buffers (R206). -/
def State.clearBuffers (s : State) (j : Job) : State :=
  j.places.foldl (fun s p => match j.tensor? p.tensor with
    | some t =>
      if t.kind = kReduce ∧ !t.slow then
        s.store p.addr ((List.range (j.partCount t p.first)).flatMap (fun _ => zeroElem t.ns))
      else s
    | none => s) s

/-- s_fb of a layer without a row in the scale table: as its masters give it where this package owns them all, else a free
value (log entry 29). -/
def State.fallbackAfter (s : State) (j : Job) (body : Digest) (t : Tensor) : W32 :=
  if j.ownedElems t = t.numel then
    let words := (j.partsOf t).flatMap (fun p => match j.addr? t (s.newestSlot t) p.first with
      | some (a, _) => records 4 (s.load a (4 * j.partCount t p.first))
      | none => [])
    fallbackScale (valT32 (words.foldl (fun m w => maxMag m (absW (w32At w 0))) pz32))
  else t32Pow2 ((Config.restoredExponent body t.index % 254 : Nat) - 126)

/-- The scales bound to the version slots of a restored package, where what stood behind the snapshot is not known: the manifest's for a
scale that has not changed, else a free power of two (log entry 49). -/
def State.boundAfter (s : State) (j : Job) (body : Digest) : List (Nat × W32) :=
  (j.tensors.filter Tensor.passCodes).flatMap (fun t => (List.range (j.slotsOf t)).map (fun v =>
    let k := 16 * t.index + v
    (k, if t.pow2 || s.scaleOf t != t.scale then t32Pow2 ((Config.restoredBound body k % 254 : Nat) - 126) else t.scale)))

/-- What stood behind the snapshot with this body, if this package has taken it (log entry 49). -/
def State.kept? (s : State) (body : Digest) : Option ChryKeep := (s.hl.chryKeep.find? (fun e => e.1 == body)).map (·.2)

/-- Load a slot that passed its checks (R206). The job then runs on as the uninterrupted one: what a slot does not hold is as it stood
behind the snapshot where this package has taken it, else free (R9; log entries 29, 31, 49). -/
def State.loadSlot (s : State) (j : Job) (bs : List Byte) : State :=
  let a := j.slotAt bs
  let cs := slotSections bs
  let data (p : Section × Nat) := slice bs p.2 (j.sectionLen p.1)
  let rows (kind n : Nat) : List (List Byte) := (cs.filter (fun p => p.1.kind == kind)).flatMap (fun p => records n (data p))
  let recs : List SlowRec := (rows 9 16).map (fun r =>
    { step := fieldLe r 0 8, clip := w32At r 8, skip := bitsOf (fieldLe r 12 4) 0 1 == 1 })
  let tab := (rows 10 8).map (fun r => (fieldLe r 0 4, w32At r 4))
  let ns := (j.tensors.filter (fun t => scaled t.format)).length
  let body := BitVec.ofNat 512 (fieldLe bs 0x080 64)
  let s := cs.foldl (fun s p => if p.1.kind ≤ 8 then s.putSection j a p.1 (data p) else s) (s.clearBuffers j)
  let s := { s with stp := { s.stp with step := a.b, v := a.v, n := a.n, wideRun := fieldLe bs 0x02E 1 } }
  let narrow := (tab.drop ns).map (fun e => (j.ladderOf.getD e.1 noIndex, e.2))
  let other := (j.tensors.filter (fun t => t.kind == kMaster && (getAssoc narrow t.index).isNone)).map (fun t =>
    (t.index, s.fallbackAfter j body t))
  let s := { s with stp := { s.stp with
    slowRecs := recs.reverse, scales := tab.take ns, sfb := narrow ++ other, bindDue := [], qBase := [], staged := []
    norms := recs.map (fun (r : SlowRec) => (r.step, Config.restoredNorm body r.step)), snapCount := 0, prints := [], compared := [], amax := [], lastRange := a.b
    masterMax := [], sfbDue := [], rescales := [] } }
  let s := { s with stp := { s.stp with bound := s.boundAfter j body } }
  let s : State := match s.kept? body with
    | some k =>
      let s := { s with stp := { s.stp with norms := k.norms, bound := k.bound, sfb := k.sfb } }
      k.slots.foldl (fun (s : State) e => s.store e.1 e.2) s
    | none => s
  { s.setFld rPfWidenStat 32 8 (min 255 s.stp.wideRun) with hl := { s.hl with restored := some a.b } }

/-- RESTORE (Table 12.8): accepted in READY. -/
def State.restore (s : State) (q i : Nat) (d : Desc) (slot : Option (List Byte)) : State :=
  if d.f 16 8 % 64 ≠ 0 ∨ d.f 24 8 = 0 then s.finish q i cDescMalformed 0
  else match s.bu == stReady, s.job with
    | true, some j =>
      let s := s.readHost q (d.f 16 8) (d.f 24 8)
      match slot with
      | none => s.finish q i cHostError 0
      | some bs =>
        let bs := slice bs 0 (d.f 24 8)
        let c := j.slotCode bs
        if c ≠ 0 then s.finish q i c 0 else (s.loadSlot j bs).finish q i 0 (d.f 24 8)
    | _, _ => s.finish q i cJobBusy 0

/-- RESTORE (R205). -/
def execRestore (q i : Nat) (slot : Option (List Byte)) (s : State) : Res :=
  s.whenLive (fun s => s.withDesc q i 7 (fun d s => s.restore q i d slot))

/-! ### Taking a snapshot (R195, R200, R201) -/

/-- SLOT0 or SLOT1 of MEM_CHRY_STAT: 0 FREE, 1 WRITING, 2 READY. -/
def State.slotState (s : State) (k : Nat) : Nat := s.fld rMemChryStat (2 * k) 2

/-- Step `s.stp.step` starts with a snapshot due (R195). -/
def State.snapDue (s : State) (j : Job) : Bool :=
  (decide (0 < s.stp.step) && j.hdr.snapEvery != 0 && s.stp.step % j.hdr.snapEvery == 0) || s.stp.snapReq

/-- The staging tensor's address of a slot. -/
def Job.stagingAddr (j : Job) (k : Nat) : Option Nat :=
  (j.tensors.find? (fun t => t.kind == kChry)).bind (fun t => (j.addr? t k 0).map (·.1))

/-- The version slots of deeper stages that no section of a snapshot holds (log entry 31). -/
def State.otherSlots (s : State) (j : Job) (a : SnapAt) : List (Nat × List Byte) :=
  j.tensors.flatMap (fun t =>
    if t.kind ≠ kWorking ∨ t.slow ∨ t.stage < 2 then []
    else (j.partsOf t).flatMap (fun p => ((List.range (t.stage + 1)).filter (fun v =>
        !(j.sectionsOf a t).any (fun c => c.slot == v))).filterMap (fun v => (j.addr? t v p.first).map (fun x =>
          (x.1, s.load x.1 (t.bytesOf p.first (j.partCount t p.first)))))))

/-- What stands behind the snapshot whose slot is `bs` (log entry 49). -/
def State.noteKeep (s : State) (j : Job) (bs : List Byte) : State :=
  let body := BitVec.ofNat 512 (fieldLe bs 0x080 64)
  let k : ChryKeep := { norms := s.stp.norms, bound := s.stp.bound, sfb := s.stp.sfb, slots := s.otherSlots j (s.snapAt j) }
  { s with hl := { s.hl with chryKeep := (s.hl.chryKeep.filter (fun e => e.1 != body)) ++ [(body, k)] } }

/-- The versions of the working copies that a snapshot holds and this package compares with their reference (R297, R298): the newest of
each held shard, with the step that wrote it. The older versions have been the newest of earlier steps. -/
def State.versionsHeld (s : State) (j : Job) : List (Nat × Nat) :=
  (j.tensors.filter (fun t => t.kind == kWorking)).flatMap (fun t => ((j.heldShards t).filter (fun sh =>
    !(j.owns sh && j.replica == 0))).map (fun sh =>
      (sh.index, ((s.stp.prints.find? (fun e => e.1 == sh.index)).map (fun e => e.2.2)).getD 0)))

/-- Write the slot of the snapshot due (R196 to R200); a slot that is not FREE halts with CHRYSALIS_NOT_DRAINED. Only
replica 0 writes sections, and only its slots change state. -/
def State.takeSnap (s : State) (j : Job) : State :=
  let k := s.stp.snapCount % max 1 j.hdr.ns
  if j.replica ≠ 0 then { s with stp := { s.stp with snapCount := s.stp.snapCount + 1, snapNow := true } }
  else if s.slotState k ≠ 0 then s.raise cNotDrained 7 (if s.leader = .east then 1 else 0)
  else
    let s := s.settleReduce
    let bs := s.slotBytes j
    let s := (match j.stagingAddr k with
      | some a => s.store a bs
      | none => s).noteKeep j bs
    let s := (s.setFld rMemChryStat (2 * k) 2 1).setFld rMemChryStat 4 1 k
    let s := s.setFld rMemChryStat 32 32 s.stp.step
    { s with stp := { s.stp with snapCount := s.stp.snapCount + 1, snapSlot := k, snapNow := true
                                 chryStep := setAssoc s.stp.chryStep k s.stp.step
                                 chryNeed := setAssoc s.stp.chryNeed k (s.versionsHeld j) } }

/-- Every version the slot holds has been compared without a mismatch (R298). -/
def State.versionsAgree (s : State) (k : Nat) : Bool :=
  s.fld rPfDiverge 48 1 == 0 && ((getAssoc s.stp.chryNeed k).getD []).all s.stp.compared.contains

/-- A slot that is being written becomes READY (R201, R298), while the job runs: after a stop it keeps its state (R427). -/
def State.chryReady (s : State) (k : Nat) : State :=
  if k < 2 ∧ s.running ∧ s.slotState k = 1 ∧ s.versionsAgree k then
    let s := s.setFld rMemChryStat (2 * k) 2 2
    s.event 3 0 0xFFFF ((getAssoc s.stp.chryStep k).getD 0) k
  else s

/-- CHRYSALIS_READY (R201). -/
def execChrysalisReady (k : Nat) (s : State) : Res := s.whenLive (fun s => s.chryReady k)

/-- MEM_CHRY_REL (R201, Table 7.4). -/
def State.chryRel (s : State) (v : Nat) : State :=
  [0, 1].foldl (fun s k => if bitsOf v k 1 = 1 ∧ s.slotState k = 2 then s.setFld rMemChryStat (2 * k) 2 0 else s) s

def execMemChryRel (v : W64) (s : State) : Res := s.whenLive (fun s => if s.memReady then s.chryRel v.toNat else s)

end Sys2Proof.Machine
end

