-- ==== Sys2Proof/Machine/Context.lean ====
section
/-! DEFINITION. Context save images (R94, R145, Table 5.13), freezes in an armed run or at a step boundary (R429 to R435)
and the context restore (R436, R437, Table 16.8). The group and tile tables are private to the stepping: their bytes are
free, and State keeps the groups they stand for by the image's CRC (log entry 13). -/

namespace Sys2Proof.Machine
open Sys2Proof

/-! ### Groups -/

def Group.cls (g : Group) : DotClass := (pairClass g.o.strict g.o.fa g.o.fb).getD .narrow

/-- Chunks of a group so far (R69, R90). -/
def Group.chunks (g : Group) : Nat := ceilDiv g.k (chunkLen g.cls g.o.fb)

/-- A tile status record (Table 3.7). -/
def statusRec (prescale rung : Nat) (nf flushed long : Bool) (sat flush first chunks : Nat) : List Byte :=
  leBytes 16 (prescale % 16 + 2 ^ 4 * (rung % 8) + 2 ^ 7 * b2n nf + 2 ^ 8 * b2n flushed + 2 ^ 9 * b2n long
    + 2 ^ 16 * min 65535 sat + 2 ^ 32 * min 65535 flush + 2 ^ 64 * (first % 2 ^ 40) + 2 ^ 104 * (chunks % 2 ^ 24))

def noFirst : Nat := 2 ^ 40 - 1

/-- A compiled attempt's operand or preload reads flushed a subnormal. -/
def Tile.readFlushed (t : Tile) : Bool := t.preFl || t.hist.any (fun h => decide (0 < h.flA) || decide (0 < h.flB))

/-- Canonical index in the output of tile element `i`. -/
def tileIndex (t : TileArg) (rowLen i : Nat) : Nat := (t.m0 + i / t.cols) * rowLen + t.n0 + i % t.cols

/-- The record of an open tile with the counts so far (R91, R94), with rung 7 in a wide step (R117); `rowLen` is the row length
of the output (R93). -/
def Group.tileStatus (g : Group) (wide : Bool) (rowLen : Nat) (t : Tile) : List Byte :=
  let nfs := (t.elems.zipIdx.filter (fun p => !fin32 p.1.1)).map (fun p => tileIndex t.arg rowLen p.2)
  statusRec t.q (if wide then 7 else 0) (!nfs.isEmpty) t.readFlushed (decide (65536 < g.chunks)) 0 0 (nfs.foldl min noFirst) g.chunks

/-- Bytes of an accumulator element (R94). -/
def Group.elemBytes (g : Group) : Nat := if g.o.a32c = 1 then 8 else 4

/-- A row of a tile's accumulators: N elements of the N_c that Table 3.4 gives a row; the rest is 0 (log
entry 13). -/
def Group.rowBytes (g : Group) (es : List AccElem) : List Byte :=
  let bs := es.flatMap (fun e => if g.o.a32c = 1 then leBytes 4 e.1.toNat ++ leBytes 4 e.2.toNat else leBytes 4 e.1.toNat)
  bs ++ List.replicate (g.elemBytes * tileWidth g.cls - bs.length) 0#8

/-- The accumulator bytes of a tile, row by row (R79, R94). -/
def Group.tileBytes (g : Group) (t : Tile) : List Byte :=
  (chunksOf t.arg.cols t.elems.length t.elems).flatMap g.rowBytes

/-- The elements of a tile in an accumulator store (R94). -/
def Group.readTile (g : Group) (store : List Byte) (t : Tile) : List AccElem :=
  let z := g.elemBytes
  (List.range (t.arg.rows * t.arg.cols)).map (fun i =>
    let a := t.arg.acc + z * (i / t.arg.cols * tileWidth g.cls + i % t.arg.cols)
    (BitVec.ofNat 32 (fieldLe store a 4), if z = 8 then BitVec.ofNat 32 (fieldLe store (a + 4) 4) else pz32))

/-- The 128 KiB accumulator store of a core: open tiles at their regions, zeros elsewhere (Table 5.13). -/
def CoreSt.accStore (c : CoreSt) : List (Nat × Byte) :=
  c.groups.foldl (fun m e => e.2.tiles.foldl (fun m t => mapSetRun memDefault m t.arg.acc (e.2.tileBytes t)) m) []

/-! ### Images -/

/-- The save region of a logical core: the kind-13 tensor whose layer field is the core (log entry 38). -/
def Job.ctxAddr (j : Job) (n : Nat) : Option Nat :=
  (j.tensors.find? (fun t => t.kind == kCtx && t.layer == n)).bind (fun t => (j.addr? t 0 0).map (·.1))

def imageLen : Nat := 0x12_1000

/-- An image without its CRC: bytes 0x000 to 0xFF7, and the rest from 0x1000. Open tiles take the tile entries from 0 on, in
the order of the open groups: the spec leaves the allocation open (log entry 13, DESIGN CHOICE). -/
def State.imageParts (s : State) (j : Job) (n cause : Nat) : List Byte × List Byte :=
  let c := s.core n
  let priv (o k : Nat) := (List.range k).map (fun i => Config.privateTableByte Config.stepping c.groups (o + i))
  let recs := (c.groups.flatMap (fun e =>
    e.2.tiles.map (e.2.tileStatus s.stp.wide (((j.tensor? e.2.o.out).map (·.rowLen)).getD 1)))).take 32
  let recs := recs.flatMap id
  (leBytes 2 1 ++ leBytes 2 Config.stepping ++ leBytes 2 n ++ leBytes 2 cause ++ leBytes 8 (s.reg (rCore n oCount) + 1)
    ++ leBytes 8 s.stp.step ++ leBytes 8 s.now ++ leBytes 8 (s.reg (rCore n oBank)) ++ leBytes 4 c.resume ++ leBytes 4 0
    ++ leBytes 8 (s.reg (rCore n oNwSlack)) ++ leBytes 8 0 ++ digestBytes j.digest ++ List.replicate 128 0#8
    ++ priv 0x100 512 ++ List.replicate 256 0#8 ++ priv 0x400 1024 ++ slice recs 0 512 ++ List.replicate 1528 0#8,
   mapGetRun memDefault c.accStore 0 0x2_0000 ++ mapGetRun memDefault c.sram 0 0x10_0000)

/-- Write a core's image into its region (R145) and set CORE_DBG_STAT.IMAGE. -/
def State.writeImage (s : State) (n cause : Nat) : State :=
  match s.job.bind (fun j => (j.ctxAddr n).map (fun a => (j, a))) with
  | none => s
  | some (j, a) =>
    let (h, t) := s.imageParts j n cause
    let crc := crc64 (h ++ t)
    let s := s.store a (h ++ leBytes 8 crc ++ t)
    let keep := (s.hl.ctxKeep.filter (fun e => e.1 != crc)) ++ [(crc, (s.core n).groups)]
    { s with hl := { s.hl with ctxKeep := keep } }.setCfld n oDbg 3 1 1

/-! ### Freezes (R430, R431, R435) -/

/-- PF_DBG_STAT.FROZEN counts the cores in BREAK. -/
def State.showFrozen (s : State) : State :=
  s.setFld rPfDbgStat 16 12 ((s.used.filter (fun n => s.cstate n == csBreak)).length)

/-- The package enters HALTED when every used core is IDLE, in BREAK or HALTED (R432, Table 14.1). -/
def State.endIfDone (s : State) : State :=
  if s.running && s.used.all (fun n => s.cstate n == csIdle || s.cstate n == csBreak || s.cstate n == csHalted) then
    s.enterHalted
  else s

/-- Offset in the active bank of a command at `off` of the core's command section. -/
def State.bankOffset (s : State) (n off : Nat) : Nat :=
  match s.job.bind (fun j => (j.progInfo n).segments.find? (fun g => g.id == s.activeSeg n)) with
  | some g => off - g.off
  | none => off

/-- A core freezes before command `a`, every issued command having completed: halt record, KIND, the image in state SAVING
(R145), then BREAK. Its banks keep their roles (R140). At a step boundary the package ends with all its cores: `State.saveEnd`. -/
def State.freeze (s : State) (a : Attr) (code cause kind : Nat) (own image : Bool) : State :=
  let n := a.core
  let s := s.haltRecord n code own false a
  let s := s.setCfld n oDbg 0 3 kind
  let s := if kind ≤ 3 ∧ s.fld rPfDbgStat 3 1 = 0 then (s.setFld rPfDbgStat 3 1 1).setFld rPfDbgStat 4 11 n else s
  let s := s.setCore n { s.core n with resume := s.bankOffset n a.offset }
  let s := s.setCstate n csSaving
  let s := if image then s.writeImage n cause else s
  let s := ((s.dropWindow n).setCstate n csBreak).showFrozen
  if kind = 5 then s else s.endIfDone

/-- The first target of R430 that a command about to enter the window matches: code, cause and KIND. -/
def State.target? (s : State) (a : Attr) : Option (Nat × Nat × Nat) :=
  let count := s.reg (rCore a.core oCount) + (s.core a.core).window.length + 1
  let bc := s.reg (rCore a.core oBrkCount)
  let tagHit := s.cfld a.core oBrkTag 16 1 == 1 && s.cfld a.core oBrkTag 0 16 == a.tag
  if bc ≠ 0 ∧ bc = count then some (cBreakCount, 2, 1)
  else if tagHit && s.cfld a.core oBrkTag 32 32 == 0 then some (cBreakTag, 3, 2)
  else if s.reg rPfRtc ≠ 0 ∧ s.reg rPfRtc = count then some (cRunToCount, 4, 3)
  else none

/-- A matching tag that is skipped counts SKIP down. -/
def State.skipTag (s : State) (a : Attr) : State :=
  if s.cfld a.core oBrkTag 16 1 = 1 ∧ s.cfld a.core oBrkTag 0 16 = a.tag ∧ 0 < s.cfld a.core oBrkTag 32 32 then
    s.setCfld a.core oBrkTag 32 32 (s.cfld a.core oBrkTag 32 32 - 1)
  else s

/-! ### Restore (R436, R437, Table 16.8) -/

/-- Table 16.8 on one image; 0 when it passes. -/
def State.imageCode (s : State) (j : Job) (n b : Nat) : Nat :=
  match j.ctxAddr n with
  | none => cCtxCorrupt
  | some a =>
    let bs := s.load a imageLen
    if (s.badIn a imageLen).isSome ∨ crc64 (slice bs 0 0xFF8 ++ bs.drop 0x1000) ≠ fieldLe bs 0xFF8 8 then cCtxCorrupt
    else if fieldLe bs 0 2 ≠ 1 ∨ BitVec.ofNat 512 (fieldLe bs 0x40 64) ≠ j.digest ∨ fieldLe bs 2 2 ≠ Config.stepping
        ∨ fieldLe bs 4 2 ≠ n then cCtxMismatch
    else if fieldLe bs 6 2 ≠ 1 ∨ fieldLe bs 0x10 8 ≠ b then cCtxMismatch
    else 0

/-- A segment's bytes in the program a core runs. -/
def Job.segBytes (j : Job) (n seg : Nat) : List Byte :=
  match (j.progInfo n).segments.find? (fun g => g.id == seg),
        j.progs.find? (fun p => p.id == (j.progMap.getD n (noIndex, 0)).1) with
  | some g, some p => slice p.bytes g.off g.len
  | _, _ => []

/-- The open groups of an image (R94, R146): those behind the private tables of an image this package wrote, else those that
the tables stand for (log entry 13), in both cases with the accumulators that the image holds. -/
def State.imageGroups (s : State) (bs : List Byte) : List (Nat × Group) :=
  match getAssoc s.hl.ctxKeep (fieldLe bs 0xFF8 8) with
  | some gs => gs
  | none => (Config.privateGroups Config.stepping (slice bs 0x100 512 ++ slice bs 0x400 1024)).map (fun e =>
      (e.1, { e.2 with tiles := e.2.tiles.map (fun t =>
        { t with elems := e.2.readTile (slice bs 0x1000 0x2_0000) t }) }))

/-- Command-area address and length of a segment of the program that a core runs (R141). -/
def Job.segRange (j : Job) (n : Nat) (g : Config.Segment) : Nat × Nat :=
  (((j.progs.find? (fun p => p.id == (j.progMap.getD n (noIndex, 0)).1)).map (·.base)).getD 0 + g.off, g.len)

/-- Load a core from its image: counts, banks by segment ID, SRAM, accumulators and slack. -/
def State.loadImage (s : State) (j : Job) (n : Nat) : State :=
  match j.ctxAddr n with
  | none => s
  | some a =>
    let bs := s.load a imageLen
    let bank := fieldLe bs 0x20 8
    let bytes (lo seg : Nat) := if bitsOf bank lo 2 < 2 then [] else j.segBytes n (bitsOf bank seg 16)
    -- a bank saved while it was LOADING loads its segment from the job image again (R146)
    let load (lo seg : Nat) := if bitsOf bank lo 2 ≠ 1 then none
      else ((j.progInfo n).segments.find? (fun g => g.id == bitsOf bank seg 16)).map (j.segRange n)
    let s := s.setReg (rCore n oCount) (fieldLe bs 8 8 - 1)
    let s := (s.setReg (rCore n oBank) bank).setReg (rCore n oNwSlack) (fieldLe bs 0x30 8)
    (s.showBank n).setCore n { s.core n with
      resume := fieldLe bs 0x28 4, bank0 := bytes 0 16, bank1 := bytes 2 32
      load0 := load 0 16, load1 := load 2 32, window := [], stream := [], ending := none, feeds := []
      step := fieldLe bs 0x10 8, groups := s.imageGroups bs
      sram := mapSetRun memDefault [] 0 (bs.drop 0x2_1000) }

/-- PF_DBG_CTRL.CMD = 1 in READY after a RESTORE: every used core checks its image; all load or none does. -/
def State.contextRestore (s : State) : State :=
  match s.bu == stReady, s.job, s.hl.restored with
  | true, some j, some b =>
    let codes := s.used.map (fun n => (n, s.imageCode j n b))
    let s := codes.foldl (fun s e => s.setCfld e.1 oDbg 16 16 e.2) s
    if codes.all (fun e => e.2 == 0) then
      (s.used.foldl (fun s n => s.loadImage j n) s).setFld rPfDbgStat 1 1 1
    else s.setFld rPfDbgStat 2 1 1
  | _, _, _ => s

/-- CONTEXT_RESTORE (R436). -/
def execContextRestore (s : State) : Res := s.whenLive State.contextRestore

end Sys2Proof.Machine
end

