-- ==== Sys2Proof/Machine/Power.lean ====
section
/-! DEFINITION. Power following, capping and clocks (Chapter 15): the estimator, the governor, the stretch advice, the
trips, the margin and droop monitors, and the memory temperatures and patrol scrub of Chapter 11. Power is counted in W,
energy in nJ or μJ; the reported values are rounded down (log entry 32, DESIGN CHOICE). -/

namespace Sys2Proof.Machine
open Sys2Proof

/-! ### The estimator (R402 to R404) -/

def loadBin (raw : Nat) : Nat := min 7 (raw / 300)
def tempBin (t : Nat) : Nat := min 7 ((t - 30) / 10)
def cellOf (raw t : Nat) : Nat := 8 * tempBin t + loadBin raw

def State.tMax (s : State) : Nat := s.fld rPwrTherm 0 8
def State.covered (s : State) (n : Nat) : Bool := bitsOf (s.reg rPwrEstMap) n 1 == 1
def State.gain (s : State) (n : Nat) : Nat := s.fld (rPwrGain n) 0 16

def absDiff (a b : Nat) : Nat := max a b - min a b

/-- Distance of R403 between cells, and the tie order: nearer, then higher L, then higher T. -/
def cellDist (a b : Nat) : Nat := absDiff (a % 8) (b % 8) + absDiff (a / 8) (b / 8)
def cellBetter (c a b : Nat) : Bool :=
  decide (cellDist c a < cellDist c b) || (cellDist c a == cellDist c b
    && (decide (b % 8 < a % 8) || (a % 8 == b % 8 && decide (b / 8 < a / 8))))

/-- The nearest covered cell; the cell itself when none is covered. -/
def State.nearCell (s : State) (c : Nat) : Nat :=
  (((List.range 64).filter s.covered).foldl (fun (m : Option Nat) n => match m with
    | some b => if cellBetter c n b then some n else m
    | none => some n) none).getD c

/-- `x` W of raw estimate times the gain in use. -/
def State.scaleRaw (s : State) (c x : Nat) : Nat :=
  if s.covered c then x * s.gain c / 32768 else x * s.gain (s.nearCell c) * 108 / (32768 * 100)

/-- Counts times the coefficients fused per die, mW. -/
def countsMw (part : Nat) (half : Nat → Nat) (cs : List ActCount) : Nat :=
  (cs.map (fun c => c.count * Config.activityMw part (half c.unit) c.event)).sum

/-- The static term of one part, mW. -/
def railsMw (part : Nat) (rs : List RailRead) : Nat :=
  ((rs.filter (fun r => r.part == part)).map (fun r => Config.staticMw part r.half r.mv r.temp)).sum

/-- P_raw of a beat in W, split into links, memory and compute (R402). -/
def rawParts (a : Activity) : Nat × Nat × Nat :=
  ((countsMw 0 portHalf a.ports + railsMw 0 a.rails) / 1000, (countsMw 1 stackHalf a.hbm + railsMw 1 a.rails) / 1000,
    (countsMw 2 coreHalf a.cores + railsMw 2 a.rails) / 1000)

/-- mW by which RAMP lets the estimated input change in a number of slots, at 48 V (R412). -/
def State.rampMw (s : State) (slots : Nat) : Nat := s.fld rPwrPant 16 16 * (4 * slots) * 48 / 1000

/-- Pack time at which the activity of panting cores must be back: that of the first waiting heel's start slot, or of B₀ (R412). -/
def State.riseAt (s : State) : Option Nat :=
  if s.running && !s.stp.started then some (s.beatTime s.stp.b0)
  else (s.used.filterMap (fun n => match (s.core n).window with
    | x :: _ => match x.cmd with
      | .heel _ h _ _ => if (s.core n).panting && s.cstate n == csHeel then some (s.packOf h) else none
      | _ => none
    | [] => none)).foldl (fun m t => match m with
      | some u => some (min t u)
      | none => some t) none

/-- The estimated input power, mW, of a beat that begins `slots` after the last one, from its estimate without panting: after a power-up
of the compute dies it rises by no more than RAMP (R396); while cores pant, their activity fills it up, so that it falls by no more
than RAMP and is back at the running level in time (R412; log entry 78). -/
def State.shape (s : State) (slots base : Nat) : State :=
  let pants := s.used.any (fun n => (s.core n).panting)
  let up := match s.riseAt with
    | some t => s.pwr.runLevel - s.rampMw (t - s.now)
    | none => 0
  let level := if s.pwr.rising then min base (s.pwr.level + s.rampMw slots)
    else if pants then max base (max (s.pwr.level - s.rampMw slots) up) else base
  { s with pwr := { s.pwr with level, runLevel := if pants then s.pwr.runLevel else level
                               rising := s.pwr.rising && decide (level < base) } }

/-- The estimate of one beat (R402, R403, PWR_EST, PWR_SHARE), panting included. -/
def State.estimate (s : State) (slots : Nat) (raw3 : Nat × Nat × Nat) : State :=
  let (links, mem, compute) := raw3
  let raw := links + mem + compute
  let c := cellOf raw s.tMax
  let ex := b2n (!s.covered c)
  let est := s.scaleRaw c raw
  let s := { s with pwr := { s.pwr with rawSum := s.pwr.rawSum + raw, rawBeats := s.pwr.rawBeats + 1 } }
  let s := s.shape slots (1000 * est)
  let pant := s.pwr.level / 1000 - est
  let s := s.setReg rPwrShare (min 65535 (s.scaleRaw c links) + 2 ^ 16 * min 65535 (s.scaleRaw c mem)
    + 2 ^ 32 * min 65535 (s.scaleRaw c compute + pant))
  s.setReg rPwrEst (min 65535 (s.pwr.level / 1000) + 2 ^ 16 * min 65535 raw + 2 ^ 32 * c + 2 ^ 38 * ex
    + 2 ^ 39 * max ex (s.fld rPwrEst 39 1))

/-- Recalibrate every cell with at least 4,096 pairs (R404): the new gains. A cell whose raw sum is zero has no stated
quotient: its gain is a free value (log entry 10). -/
def State.recalibrate (s : State) : State :=
  s.pwr.cells.foldl (fun s e =>
    let (n, pairs, meas, raw) := (e.1, s.fld (rPwrGain e.1) 16 16, e.2.1, e.2.2)
    if pairs < 4096 then s
    else
      let (g, s) : Nat × State := if raw = 0 then (let (x, s) := s.draw; (x.toNat % 65536, s))
        else (min 65535 (meas * 32768 / raw), s)
      let s := s.setFld (rPwrGain n) 16 16 0
      { s with pwr := { s.pwr with cells := s.pwr.cells.filter (fun f => f.1 != n)
                                   gainsDue := (s.pwr.gainsDue.filter (fun f => f.1 != n)) ++ [(n, g)] } }) s

/-- Recalibrated gains take effect, their cells become covered. -/
def State.applyGains (s : State) : State :=
  let s := s.pwr.gainsDue.foldl (fun s e =>
    (s.setFld (rPwrGain e.1) 0 16 e.2).setFld rPwrEstMap e.1 1 1) s
  { s with pwr := { s.pwr with gainsDue := [] } }

/-- ESTIMATOR_RECALIBRATION (R404): in RUN the changes wait for the step origin. -/
def execEstimatorRecalibration (s : State) : Res :=
  s.whenLive (fun s =>
    if s.running then s.recalibrate
    else if s.pwr.lastCal + 65536 ≤ s.beat then
      let s := { s with pwr := { s.pwr with lastCal := s.beat } }
      s.recalibrate.applyGains
    else s)

/-! ### The cap (R405 to R407) -/

/-- PWR_CAP write (R405). -/
def State.capWrite (s : State) (v : Nat) : State :=
  let c := bitsOf v 0 12
  let w := bitsOf v 12 4
  let s := if bitsOf v 16 1 = 1 then s.setFld rPwrCap 16 1 0 else s
  if 600 ≤ c ∧ c ≤ 2100 ∧ 1 ≤ w ∧ w ≤ 10 then
    let s := (s.setFld rPwrCap 0 12 c).setFld rPwrCap 12 4 w
    { s with pwr := { s.pwr with capNext := some c } }
  else s.setFld rPwrCap 16 1 1

def execPwrCapWrite (v : W64) (s : State) : Res := s.whenLive (fun s => s.capWrite v.toNat)

/-- PWR_CAP_SCHED write (R405). -/
def State.capSched (s : State) (v : Nat) : State :=
  let b := bitsOf v 0 48
  let c := bitsOf v 48 12
  if s.beat < b ∧ 600 ≤ c ∧ c ≤ 2100 then s.setReg rPwrCapSched (b + 2 ^ 48 * c) else s.setFld rPwrCap 16 1 1

def execPwrCapSchedWrite (v : W64) (s : State) : Res := s.whenLive (fun s => s.capSched v.toNat)

/-- A scheduled cap takes effect at the start of its beat. -/
def State.capDue (s : State) : State :=
  let b := s.fld rPwrCapSched 0 48
  if b ≠ 0 ∧ b ≤ s.beat then
    let c := s.fld rPwrCapSched 48 12
    let s := (s.setFld rPwrCap 0 12 c).setReg rPwrCapSched 0
    { s with pwr := { s.pwr with capNext := some c } }
  else s


/-- 1 ms intervals of the window before the current one. -/
def State.windowPast (s : State) : Nat := 1000 * s.fld rPwrCap 12 4 - 1

/-- E_tr of R406, μJ: intervals before power-on count as no energy. -/
def State.ePast (s : State) : Nat := (s.pwr.past.take s.windowPast).foldl (· + ·) 0

/-- A_i of R406, μJ; the cap before power-on counts as the reset cap (log entry 32). -/
def State.aCap (s : State) : Nat :=
  let cs := s.pwr.caps.take s.windowPast
  1000 * (s.pwr.capNow + cs.foldl (· + ·) 0 + 1600 * (s.windowPast - cs.length))

/-- Lowest frequency targets fall to: f_sched, or 1.45 GHz where no job sets it. -/
def State.floorFreq (s : State) : Nat := if s.running then max 1450 s.pwr.fsched else 1450

def State.setTargets (s : State) (w e : Nat) : State := (s.setReg rPwrFreq (w % 2 ^ 12 + 2 ^ 16 * (e % 2 ^ 12))).showFreq

/-- MEM_RATE: 0 reads as 16. -/
def State.memRate (s : State) : Nat := if s.fld rPwrAvg 33 4 = 0 then 16 else s.fld rPwrAvg 33 4

/-- `x` sixteenths in the 4-bit field: 16 is stored as 0. -/
def State.setMemRate (s : State) (x : Nat) : State := s.setFld rPwrAvg 33 4 x

/-- The input power limit of Table 15.3, W. -/
def State.inputLimit (s : State) : Nat :=
  if s.bu = stWhelp then 60
  else if s.bu = stInspect ∨ s.bu = stMap then min 1200 s.pwr.capNow
  else s.pwr.capNow

/-- The governor of R406 at one sample, within the input limit of the package state (R396). -/
def State.govern (s : State) : State :=
  let left := max 1 ((s.pwr.interval + 1) * intervalSlots - s.now)
  let flr := s.fld rPwrFloor 0 16
  let budget := 1000 * s.aCap - 1000 * s.ePast
  let e := 1000 * s.pwr.e
  let q := 24_000_000
  if budget < e + flr * (4 * left) + q then
    let s := (s.setFld rPwrAvg 32 1 1).setMemRate 8
    s.setTargets s.floorFreq s.floorFreq
  else
    let lim := min 2400 ((budget - e - q) / (4 * left)) * s.pwr.factor / 100
    let lim := if s.bu < stLoad then min lim s.inputLimit else lim
    let s := (s.setFld rPwrAvg 32 1 0).setFld rPwrAvg 16 16 lim
    { s with pwr := { s.pwr with limit := lim } }

/-- The pair of a sample joins the cell of its mean raw estimate (R404): the mean over the beats begun since the last
sample, or the device's own where none has begun. -/
def State.pairSample (s : State) (m : PowerMeas) : State :=
  let mean := if s.pwr.rawBeats = 0 then m.pRaw else s.pwr.rawSum / s.pwr.rawBeats
  let c := cellOf mean s.tMax
  let (a, b) := (((s.pwr.cells.find? (fun e => e.1 == c)).map (fun e => (e.2.1, e.2.2))).getD (0, 0))
  let s := s.addFld (rPwrGain c) 16 16 1
  { s with pwr := { s.pwr with rawSum := 0, rawBeats := 0
                               cells := (s.pwr.cells.filter (fun e => e.1 != c)) ++ [(c, a + m.pin, b + mean)] } }

/-- POWER_SAMPLE (R401, R404, R406, R407, R417, R469). -/
def State.sample (s : State) (m : PowerMeas) : State :=
  let s := s.setReg rPwrIn (min 65535 m.vin + 2 ^ 16 * min 65535 m.pin)
  let uj := s.pwr.mj + 10 * m.pin
  let s := s.setReg rPwrEnergy (s.reg rPwrEnergy + uj / 1000)
  let s := { s with pwr := { s.pwr with mj := uj % 1000, e := s.pwr.e + 10 * m.pin } }
  let s := s.setFld rPwrTherm 0 8 (min 255 m.tMax)
  let thr := s.fld rPwrTherm 8 8
  let hot := decide (thr ≤ m.tMax)
  let s := { s with pkg := { s.pkg with thermWarn := hot }
                    pwr := { s.pwr with factor := if hot then max 50 (100 - 2 * (m.tMax - thr + 1)) else 100 } }
  let s := s.setFld rPwrAvg 38 1 (b2n hot)
  let s := s.pairSample m
  let fl := s.pwr.floors.filter (fun f => s.now ≤ f.1 + 25_000_000)
  let fl := if s.fld rPwrAvg 32 1 = 1 then fl ++ [(s.now, m.pin)] else fl
  let s := { s with pwr := { s.pwr with floors := fl } }
  let flr := max (fl.foldl (fun x f => max x f.2) 0) (ceilDiv (m.estFloor * 108) 100)
  let s := (s.setFld rPwrFloor 0 16 (min 65535 flr)).setFld rPwrFloor 16 16 (min 65535 m.pHold)
  let s := s.setFld rPwrAvg 0 16 (min 65535 ((s.ePast + s.pwr.e) / (1_000_000 * max 1 (s.fld rPwrCap 12 4))))
  s.govern

def execPowerSample (m : PowerMeas) (s : State) : Res := s.whenLive (fun s => s.sample m)

/-- POWER_INTERVAL_END (R405, R407): pack time reaches the interval's end, the window is judged, and the cap of the next
interval comes into force. -/
def State.intervalEnd (s : State) : State :=
  let s := s.advanceTo ((s.pwr.interval + 1) * intervalSlots)
  let past := decide (s.aCap < s.ePast + s.pwr.e)
  let s := if past then s.setFld rPwrAvg 37 1 1 else s
  let s := { s with pwr := { s.pwr with
    past := (s.pwr.e :: s.pwr.past).take 9999, caps := (s.pwr.capNow :: s.pwr.caps).take 9999, e := 0
    interval := s.pwr.interval + 1, capNow := s.pwr.capNext.getD s.pwr.capNow, capNext := none } }
  if past && s.running then s.raise cCapUnreachable 5 0 else s

/-! ### Beats (R246, R269, R408, R409, R410, R413) -/

/-- cap_low of R409. -/
def State.capLow (s : State) : Nat :=
  let c := min s.pwr.capNow (s.fld rPwrCap 0 12)
  let b := s.fld rPwrCapSched 0 48
  if b ≠ 0 ∧ b ≤ s.beat + 8192 then min c (s.fld rPwrCapSched 48 12) else c

/-- ADVICE of R409, in units of 0.1 mW. -/
def State.adviceOf (s : State) : Nat :=
  let pt := 97 * min (100 * s.capLow) (s.pwr.capNow * s.pwr.factor)
  let flr := 10000 * s.fld rPwrFloor 0 16
  let hold := 10000 * s.fld rPwrFloor 16 16
  if flr ≤ pt then 0 else if pt ≤ hold then 3840 else min 3840 (ceilDiv (256 * (flr - pt)) (pt - hold))

/-- One 25 MHz step of a target toward a goal (R413). -/
def stepTo (cur goal : Nat) : Nat := if cur < goal then min goal (cur + 25) else max goal (cur - 25)

/-- One governor step of a beat (R408, R413): over the limit, the targets fall by 25 MHz toward f_sched, then the memory rate by 1/16;
under it, the memory rate rises first (log entry 33, DESIGN CHOICE for the way up). Outside RUN the targets go to 1.45 GHz. FLOOR
sets the targets at once. -/
def State.governBeat (s : State) : State :=
  let w := s.fld rPwrFreq 0 12
  let e := s.fld rPwrFreq 16 12
  let lo := s.floorFreq
  if s.fld rPwrAvg 32 1 = 1 then s.setTargets lo lo
  else if s.pwr.limit < s.fld rPwrEst 0 16 then
    if w ≠ lo ∨ e ≠ lo then s.setTargets (stepTo w lo) (stepTo e lo) else s.setMemRate (max 8 (s.memRate - 1))
  else if s.memRate < 16 then s.setMemRate (s.memRate + 1)
  else
    let hi := if s.running then Config.fusedMax else 1450
    s.setTargets (stepTo w hi) (stepTo e hi)

/-- Entries that a later, current B_E has ended retire (R269). -/
def State.retireStretch (s : State) : State :=
  let cur := (s.fab.table.filter (fun e => e.1 ≤ s.beat)).foldl (fun m e => max m e.1) 0
  let old := s.fab.table.filter (fun e => decide (e.1 < cur))
  { s with fab := { s.fab with table := s.fab.table.filter (fun e => !decide (e.1 < cur)), past := s.fab.past ++ old } }

/-- BEAT_START: the next beat begins (R246). -/
def State.beatStarts (s : State) (a : Activity) : State :=
  let b := s.beat + 1
  let t := s.beatTime b
  let s := s.advanceTo t
  let sv := stretchAt s.stretchTable b
  let slots := t - s.fab.beatStart
  let s := { s with fab := { s.fab with beatStart := t } }
  let s := s.setReg rPfBeat (b % 2 ^ 48 + 2 ^ 48 * (sv % 2 ^ 12))
  let s := s.retireStretch.showStretch
  let s := s.oweTime
  let s := (s.capDue).estimate slots (rawParts a)
  let s := s.setFld rPwrStretch 16 12 s.adviceOf
  s.governBeat

/-- STRETCH_AUTO_EVAL (R410). -/
def State.autoEval (s : State) : State :=
  let be := s.beat + 2560
  if s.fld rPwrStretch 0 1 = 1 ∧ s.running ∧ be % 4096 = 0 ∧ !s.pwr.autoSent.contains be then
    let adv := s.fld rPwrStretch 16 12
    if 0 < adv ∨ 0 < stretchAt s.stretchTable be then
      ({ s with pwr := { s.pwr with autoSent := be :: s.pwr.autoSent.filter (fun b => s.beat < b) } }).stretchReq be adv
    else s
  else s

def execStretchAutoEval (s : State) : Res := s.whenLive State.autoEval

/-! ### Rails and input power (R395, R396, Tables 15.1 and 15.3) -/

/-- The internal rails of Table 15.1. -/
inductive Rail where
  | v4p8 | vmc | vport | vser | vddqDdr | vmesh | vsram | visl | vhbm
  deriving DecidableEq, Repr

/-- Nominal level in mV, where the table gives one number: VISL follows the core's table, VHBM the HBM4 standard. -/
def Rail.level : Rail → Option Nat
  | .v4p8 => some 4800
  | .vmc => some 800
  | .vport => some 750
  | .vser => some 900
  | .vddqDdr => some 1100
  | .vmesh => some 750
  | .vsram => some 800
  | .visl => none
  | .vhbm => none

/-- Is a rail powered? V4P8 and the port-die rails with valid 48 V and no hard trip latched; VDDQ_DDR from step 4 of
INSPECT on; the compute-die rails while the compute dies are on; VHBM also while a stack holds its contents in self-refresh
(R395, R398; log entry 124, DEDUCED for VHBM and for VDDQ_DDR after step 4). -/
def State.railOn (s : State) (r : Rail) : Bool :=
  let base := s.pkg.vin && !s.pkg.latched
  match r with
  | .v4p8 => base
  | .vmc => base
  | .vport => base
  | .vser => base
  | .vddqDdr => base && s.pkg.ddrOn
  | .vmesh => base && s.pkg.computeOn
  | .vsram => base && s.pkg.computeOn
  | .visl => base && s.pkg.computeOn
  | .vhbm => base && (s.pkg.computeOn || s.pkg.selfRef)

/-! ### Trips (R397 to R400, Table 15.2) -/

/-- Record a trip in the power stage's own register. -/
def State.tripRecord (s : State) (src : Nat) (hard : Bool) : State :=
  { s with nv := { s.nv with trip := some (src, hard, s.nv.powerOn) } }

/-- A hard trip (R399): for the 2 µs (500 slots) that the port dies are held up, STOP on every UP FABRIC port; then the logic side
is unpowered until 48 V goes and returns. -/
def State.hardTrip (s : State) (src code : Nat) : State :=
  let s := ((s.tripRecord src true).sendStop s.fabricUp s.herdIndex code s.now).passSlots (s.now + 501)
  { s with pkg := { s.pkg with latched := true, thermTrip := false, thermWarn := false } }

/-- HBM4 contents are not guaranteed across a trip (R400). -/
def State.scrambleHbm (s : State) : State := s.scramble (fun a => decide (a < hbmTop))

/-- The compute dies go off and the HBM4 stacks into self-refresh (R398 step 2). -/
def State.computeOff (s : State) : State :=
  let s := s.scrambleHbm
  { s with pkg := { s.pkg with computeOn := false, selfRef := true, softTrip := true } }

/-- A trip ends panting at once (R412). -/
def State.endPanting (s : State) : State :=
  s.used.foldl (fun s n => s.setCore n { s.core n with panting := false }) s

/-- A soft trip (R398): the fault and STOP, the compute dies off, HALTED from RUN. In MAP, LOAD and READY the state stays, since Table
14.1 has no way from them to HALTED (R371), but nothing issues until the reset; in INSPECT bring-up stops with the code; in WHELP
nothing but the record happens, since the compute dies are off (log entry 35). PWR_TRIP keeps a record that the host has not yet
cleared (R455). -/
def State.softTrip (s : State) (src code unit index : Nat) : State :=
  let s := s.tripRecord src false
  let s := if s.fld rPwrTrip 9 1 = 1 then s else s.setReg rPwrTrip (src + 2 ^ 9 + 2 ^ 32 * (s.nv.powerOn % 2 ^ 32))
  let s := if code = cThermalTrip then { s with pkg := { s.pkg with thermTrip := true } } else s
  let s := s.raise code unit index
  if s.bu = stWhelp then s
  else if s.bu = stInspect then
    let s := { s.computeOff with pkg := { s.computeOff.pkg with buOp := none } }
    (s.setFld rBuState 4 1 0).setFld rBuState 16 16 code
  else
    ({ s.computeOff with fab := { s.computeOff.fab with issueStopped := true } }).endPanting

def execInputOvervoltage (s : State) : Res := s.whenLive (fun s => s.hardTrip 1 cElectricalTrip)
def execInputOvercurrent (_die : Nat) (s : State) : Res := s.whenLive (fun s => s.hardTrip 2 cElectricalTrip)
def execSustainedInputPower (s : State) : Res := s.whenLive (fun s => s.softTrip 3 cElectricalTrip 5 0)
def execIntermediatePlane (_half : Nat) (s : State) : Res := s.whenLive (fun s => s.hardTrip 4 cElectricalTrip)
/-- Power stage dies PS0 and PS1 feed the west half, PS2 and PS3 the east (R395); the record names the first. -/
def execRegulator (half : Nat) (s : State) : Res := s.whenLive (fun s => s.softTrip 5 cElectricalTrip 5 (2 * half))
def execPowerStageDieTemperature (_die : Nat) (s : State) : Res := s.whenLive (fun s => s.hardTrip 6 cThermalTrip)
def execDieJunction (half : Nat) (s : State) : Res := s.whenLive (fun s => s.softTrip 7 cThermalTrip 5 (2 * half))
def execHbm4StackTemperature (stack : Nat) (s : State) : Res := s.whenLive (fun s => s.softTrip 8 cThermalTrip 2 stack)

/-! ### Islands (R415, R416) -/

/-- A command to name in a halt that no command causes: the one the core waits at or would take next. -/
def State.haltNext (s : State) (n code : Nat) : State :=
  let (a, s) := s.nextAttr n
  s.coreHalt { a with core := n } code false

/-- MARGIN_MONITOR (R415). -/
def State.margin (s : State) (n : Nat) : State :=
  if s.running && (s.used.contains n || s.mapped? n) && s.cstate n != csHalted then
    let cur := s.islandFreq n
    if cur ≤ s.pwr.fsched then s.haltNext n cMarginLost
    else
      let s := s.setCore n { s.core n with limit := cur - 25 }
      s.setCfld n oFreq 0 12 (s.islandFreq n)
  else s

def execMarginMonitor (n : Nat) (s : State) : Res := s.whenLive (fun s => s.margin n)

/-- The per-core windows answer (Table 14.2). -/
def State.windowsUp (s : State) : Bool := decide (stLoad ≤ s.bu)

/-- DROOP (R416). -/
def execDroop (n periods : Nat) (s : State) : Res :=
  s.whenLive (fun s => if s.windowsUp && s.mapped? n then s.addCfld n oFreq 48 16 periods else s)

/-! ### Memory temperatures and patrol scrub (R305, R308, R312) -/

def bitMask (n : Nat) (p : Nat → Bool) : Nat := (List.range n).foldl (fun m i => if p i then m + 2 ^ i else m) 0

/-- HBM_TEMPERATURE_READOUT (R305): HOT above 85 °C, and the hottest stack. -/
def execHbmTemperatureReadout (temps : List Nat) (s : State) : Res :=
  s.whenLive (fun s =>
    if s.memReady then
      let s := s.setFld rMemHbm 16 8 (bitMask 8 (fun h => decide (85 < temps.getD h 0)))
      s.setFld rPwrTherm 24 8 (min 255 ((temps.take 8).foldl max 0))
    else s)

/-- DDR5_MODULE_TEMPERATURE (R308): the channel's HOT bit, above 85 °C. -/
def execDdr5ModuleTemperature (m : ModTemp) (s : State) : Res :=
  s.whenLive (fun s => if s.memReady && decide (0 < s.ddrC) && decide (m.channel < 12) then
      s.setFld rMemDdr (20 + m.channel) 1 (b2n (decide (85 < m.temp)))
    else s)

/-- An uncorrectable block: it reads uncorrectable until it is written whole. -/
def State.markBad (s : State) (a : Nat) : State :=
  let b := a / 64 * 64
  if s.bad.contains b then s else { s with bad := b :: s.bad }

/-- PATROL_SCRUB (R312): corrected lines are counted, uncorrectable ones recorded; never a fault. -/
def State.scrub (s : State) (corrected : Nat) (unc : List Nat) : State :=
  if s.memReady && decide (0 < s.ddrC) && s.fld rMemScrub 0 1 == 1 then
    (unc.filter s.inDdr).foldl (fun s a => (s.markBad a).memErr a 1 true) (s.addFld rMemEcc 32 24 corrected)
  else s

def execPatrolScrub (corrected : Nat) (uncorrectable : List Nat) (s : State) : Res :=
  s.whenLive (fun s => s.scrub corrected uncorrectable)

end Sys2Proof.Machine
end

