-- ==== Sys2Proof/Machine/Security.lean ====
section
/-! DEFINITION. Security operations (Chapter 17): attestation, the identity certificate, firmware writes, SVN_COMMIT,
job keys, debug unlock and owner enrolment. An operation starts with a write of SEC_OP and ends with its row, which
carries what the host's memory gave; the row alone is the write and the end together (log entry 36). -/

namespace Sys2Proof.Machine
open Sys2Proof

/-- End the operation with a RESULT and the bytes written. -/
def State.secEnd (s : State) (r out : Nat) : State :=
  let s := s.setReg rSecOpStat (2 + 2 ^ 2 * r + 2 ^ 5 * s.fld rSecOpStat 5 1 + 2 ^ 8 * (out % 2 ^ 24))
  { s with sec := { s.sec with op := 0 } }

/-- Table 17.6, "Accepted in". A JOB_LOAD is one command of this model, so none is in progress between commands. -/
def State.secAllowed (s : State) (op : Nat) : Bool :=
  if op = 1 then true
  else if s.anyConflict then false
  else if op = 6 then !s.running
  else if op = 7 then s.bu == stWhelp && s.nv.owner.isNone
  else true

/-- The nonce registers' bytes. -/
def State.nonceBytes (s : State) : List Byte := (List.range 8).flatMap (fun i => leBytes 8 (s.reg (rSecNonce i)))

/-- A write of SEC_OP: an operation not allowed in this state completes with RESULT 4; a write while BUSY sets REJ. -/
def State.secStart (s : State) (m : Mc) (op : Nat) : State :=
  if op = 0 then s
  else if s.fld rSecOpStat 0 1 = 1 then s.setFld rSecOpStat 5 1 1
  else if !s.secAllowed op then s.secEnd 4 0
  else { s with sec := { op, nonce := s.nonceBytes, mc := m } }.setFld rSecOpStat 0 1 1

/-- Run an operation's row: the operation that was started, or the write and the end together. -/
def State.secRun (s : State) (m : Mc) (op : Nat) (k : State → State) : State :=
  if s.fld rSecOpStat 0 1 = 1 then (if s.sec.op = op then k s else s.setFld rSecOpStat 5 1 1)
  else
    let s := s.secStart m op
    if s.fld rSecOpStat 0 1 = 1 then k s else s

/-- An UP HOSTLINK port for the operation's data. -/
def State.secPort (s : State) : Option Nat := s.hlPorts.find? s.portUp

/-- Write bytes to SEC_OP_ADDR. -/
def State.secOut (s : State) (hostOk : Bool) (bs : List Byte) : State :=
  match s.secPort with
  | none => s.secEnd 3 0
  | some p =>
    let s := s.sendData' p .data (ceilDiv bs.length 64) (s.reg rSecOpAddr) bs
    if hostOk then s.secEnd 0 bs.length else s.secEnd 3 0

/-! ### ATTEST and CERT_OUT (R439, R448) -/

/-- The identity seed (R439). -/
def Nv.seed (nv : Nv) : BitVec 256 :=
  BitVec.ofNat 256 (sha3_512 (leBytes 32 nv.uds.toNat ++ ascii "TCHK-IDKEY")).toNat

def KeySlot.digest (k : KeySlot) : List Byte :=
  if k.state = 0 then List.replicate 64 0#8 else digestBytes (sha3_512 k.key)

def optDigest (d : Option Digest) : List Byte := match d with
  | some d => digestBytes d
  | none => List.replicate 64 0#8

/-- The controller that signs: in LEADER_CONFLICT the one that receives the operation, else the leader, which executes
what a follower forwards (R448, R449). -/
def State.signer (s : State) (m : Mc) : Mc := if s.anyConflict then m else s.leader

/-- The MC firmware a controller runs. -/
def State.runningFw (s : State) (m : Mc) : Option FwInfo :=
  match m with
  | .west => s.pkg.fwW
  | .east => s.pkg.fwE

/-- Bytes 0x000 to 0x1FF of the report (Table 17.5), for the signing controller `m`. -/
def State.reportHead (s : State) (m : Mc) : List Byte :=
  let nv := s.nv
  let fw := s.runningFw m
  let svn := match fw with
    | some i => i.svn
    | none => s.fld rSecBootStat 2 6
  let slot := match fw with
    | some i => i.slot
    | none => s.fld rSecBootStat 30 2
  let flags := s.fld rSecBootStat 34 1 + 2 * b2n nv.owner.isSome + 4 * s.fld rSecBootStat 33 1 + 8 * s.lfld m 5 1
    + 16 * s.lfld m 4 1
  ascii "TCHKATST" ++ leBytes 2 1 ++ leBytes 2 flags ++ leBytes 1 Config.grade ++ leBytes 1 s.bu
    ++ leBytes 2 Config.stepping ++ leBytes 16 nv.serial.toNat ++ leBytes 4 nv.powerOn
    ++ leBytes 1 svn ++ leBytes 1 (s.fld rSecBootStat 8 6) ++ leBytes 1 nv.mcCtr ++ leBytes 1 nv.coreCtr
    ++ leBytes 4 (nv.revoked % 16 + 2 ^ 4 * slot + 2 ^ 8 * s.fld rSecJobKey 0 8
        + 2 ^ 16 * s.fld rSecJobKey 8 8)
    ++ List.replicate 20 0#8 ++ s.sec.nonce ++ optDigest (fw.map (·.digest)) ++ optDigest (s.pkg.coreFw.map (·.digest))
    ++ optDigest nv.owner
    ++ digestBytes (sha3_512 ((List.range 8).flatMap (fun n => (nv.keys.getD n ⟨0, []⟩).digest)))
    ++ (List.range 8).flatMap (fun i => leBytes 8 (s.reg (rBuJobDigest i)))
    ++ digestBytes (sha3_512 (leBytes 2592 (Config.identityPublicKey nv.seed).toNat))

/-- The whole report; the signature counts the draws, since signing may be hedged (log entry 11). -/
def State.attest (s : State) (hostOk : Bool) : State :=
  let head := s.reportHead (s.signer s.sec.mc)
  let sig := Config.identitySign s.nv.seed (ascii "TCHK-ATT") (sha3_512 head) s.free
  { s with free := s.free + 1 }.secOut hostOk (head ++ leBytes 4627 sig.toNat ++ List.replicate 45 0#8)

def execAttest (hostOk : Bool) (m : Mc) (s : State) : Res := s.whenLive (fun s => s.secRun m 1 (fun s => s.attest hostOk))

/-- CERT_OUT: RESULT 5 if SEC_OP_LEN is shorter than the certificate. -/
def State.certOut (s : State) (hostOk : Bool) : State :=
  if s.reg rSecOpLen < s.nv.cert.length then s.secEnd 5 0 else s.secOut hostOk s.nv.cert

def execCertOut (hostOk : Bool) (s : State) : Res :=
  s.whenLive (fun s => s.secRun s.leader 2 (fun s => s.certOut hostOk))

/-! ### Firmware (R440 to R443) -/

def fwResult : FwCheck → Nat
  | .ok _ => 0
  | .bad => 1
  | .rollback => 2

/-- A region's check: both images under R441. -/
def State.regionResult (s : State) (r : List Byte) : Nat :=
  let a := fwResult (fwCheck s.nv s.sigs 1 r)
  if a ≠ 0 then a else fwResult (fwCheck s.nv s.sigs 2 (coreImageOf r))

/-- Bytes of one boot flash region. -/
def regionBytes : Nat := 0x80_0000

def State.setRegion (s : State) (r : Nat) (bs : List Byte) : State :=
  if r = 0 then { s with nv := { s.nv with regionA := bs } } else { s with nv := { s.nv with regionB := bs } }

/-- FW_WRITE: programs the region the leader did not boot from. A failed read-back leaves free bytes there. -/
def State.fwWrite (s : State) (region : Option (List Byte)) (readBackOk : Bool) : State :=
  let n := s.reg rSecOpLen
  match region with
  | none => s.secEnd 3 0
  | some bs =>
    if n = 0 ∨ regionBytes < n then s.secEnd 5 0
    else
      let bs := slice bs 0 n
      let r := s.regionResult bs
      let other := 1 - (s.mc s.leader).region
      if r ≠ 0 then s.secEnd r 0
      else if !s.pkg.sb33 then s.secEnd 3 0
      else if readBackOk then (s.setRegion other bs).secEnd 0 0
      else
        let junk := (List.range n).map (fun i => (BitVec.ofNat 8 (Config.freeWord (s.free + i)).toNat : Byte))
        ({ s with free := s.free + n }.setRegion other junk).secEnd 1 0

def execFwWrite (region : Option (List Byte)) (readBackOk : Bool) (s : State) : Res :=
  s.whenLive (fun s => s.secRun s.leader 3 (fun s => s.fwWrite region readBackOk))

/-- SVN_COMMIT (R443). -/
def State.svnCommit (s : State) : State :=
  let nv := s.nv
  let mc := match s.pkg.mcFw with
    | some i => max nv.mcCtr i.svn
    | none => nv.mcCtr
  let co := match s.pkg.coreFw with
    | some i => max nv.coreCtr i.svn
    | none => nv.coreCtr
  let rv := match s.pkg.mcFw with
    | some i => nv.revoked ||| (i.revoke - 2 ^ i.slot * bitsOf i.revoke i.slot 1)
    | none => nv.revoked
  let s := { s with nv := { nv with mcCtr := mc, coreCtr := co, revoked := rv } }
  (((s.setFld rSecBootStat 14 6 mc).setFld rSecBootStat 20 6 co).setFld rSecBootStat 26 4 rv).secEnd 0 0

def execSvnCommit (s : State) : Res := s.whenLive (fun s => s.secRun s.leader 4 State.svnCommit)

/-! ### Keys, unlock and owner (R444 to R447) -/

/-- A signature verifies under the owner key: under some key with the fused digest. -/
def State.ownerSigned (s : State) (ctx : List Byte) (dig : Digest) (sig : List Byte) : Bool :=
  match s.nv.owner with
  | some o => s.sigs.any (fun f => sha3_512 f.key == o && f.ctx == ctx && f.dig == dig && f.sig == sig)
  | none => false

/-- SERIAL field: zero or this package's. -/
def State.serialOk (s : State) (zero : Bool) (v : Nat) : Bool := v == s.nv.serial.toNat || (zero && v == 0)

def State.showKeys (s : State) : State :=
  let m (k : Nat) := (List.range 8).foldl (fun m n => if (s.nv.keys.getD n ⟨0, []⟩).state = k then m + 2 ^ n else m) 0
  s.setReg rSecJobKey (m 1 + 2 ^ 8 * m 2 + 2 ^ 16 * (s.nv.keySeq % 2 ^ 32))

/-- JOBKEY (R444, R445). Refusals without a code of their own give RESULT 4 (log entry 37, DEDUCED). -/
def State.jobkey (s : State) (record : Option (List Byte)) : State :=
  match record with
  | none => s.secEnd 3 0
  | some bs =>
    let b := slice bs 0 7296
    let act := fieldLe b 0x00A 1
    let slot := fieldLe b 0x00B 1
    let seq := fieldLe b 0x00C 4
    let k := s.nv.keys.getD slot ⟨0, []⟩
    if s.reg rSecOpLen < 7296 ∨ slice b 0 8 ≠ ascii "TCHKJKEY" ∨ fieldLe b 8 2 ≠ 1 ∨ (act ≠ 1 ∧ act ≠ 2) ∨ 8 ≤ slot then
      s.secEnd 5 0
    else if s.nv.owner.isNone then s.secEnd 4 0
    else if !s.ownerSigned (ascii "TCHK-JKEY") (sha3_512 (slice b 0 0xA40)) (slice b 0xA40 4627) then s.secEnd 1 0
    else if !s.serialOk true (fieldLe b 0x010 16) ∨ seq ≤ s.nv.keySeq ∨ k.state + 1 ≠ act then s.secEnd 4 0
    else
      let v : KeySlot := if act = 1 then { state := 1, key := slice b 0x020 2592 } else { k with state := 2 }
      let s := { s with nv := { s.nv with keys := s.nv.keys.set slot v, keySeq := seq } }
      s.showKeys.secEnd 0 0

def execJobkey (record : Option (List Byte)) (s : State) : Res :=
  s.whenLive (fun s => s.secRun s.leader 5 (fun s => s.jobkey record))

/-- DEBUG_UNLOCK (R447). -/
def State.debugUnlock (s : State) (token : Option (List Byte)) : State :=
  match token with
  | none => s.secEnd 3 0
  | some bs =>
    let b := slice bs 0 4736
    if s.reg rSecOpLen < 4736 ∨ slice b 0 8 ≠ ascii "TCHKDBGU" ∨ fieldLe b 8 2 ≠ 1 then s.secEnd 5 0
    else if s.nv.owner.isNone then s.secEnd 4 0
    else if !s.ownerSigned (ascii "TCHK-DBG") (sha3_512 (slice b 0 0x60)) (slice b 0x060 4627) then s.secEnd 1 0
    else if !s.serialOk false (fieldLe b 0x010 16) ∨ slice b 0x020 64 ≠ s.sec.nonce then s.secEnd 4 0
    else (s.setFld rSecBootStat 34 1 1).secEnd 0 0

def execDebugUnlock (token : Option (List Byte)) (s : State) : Res :=
  s.whenLive (fun s => s.secRun s.leader 6 (fun s => s.debugUnlock token))

/-- OWNER_ENROL (R446). -/
def State.ownerEnrol (s : State) (key : Option (List Byte)) : State :=
  match key with
  | none => s.secEnd 3 0
  | some bs =>
    if s.reg rSecOpLen < 2592 then s.secEnd 5 0
    else
      let s := { s with nv := { s.nv with owner := some (sha3_512 (slice bs 0 2592)) } }
      (s.setFld rSecBootStat 32 1 1).secEnd 0 0

def execOwnerEnrol (key : Option (List Byte)) (s : State) : Res :=
  s.whenLive (fun s => s.secRun s.leader 7 (fun s => s.ownerEnrol key))

end Sys2Proof.Machine
end

