-- ==== Sys2Proof/Machine/Registers.lean ====
section
/-! DEFINITION. Register accesses (Chapter 18, R335, R372, R452): which controller serves them, which blocks answer, the
fields' access codes, and the registers whose writes do something. -/

namespace Sys2Proof.Machine
open Sys2Proof

/-! ### Who answers (R372, R373, R452) -/

/-- A controller can serve a block: its own MC_ block always; the others as leader, or as a follower that reaches the
leader. -/
def State.serves (s : State) (m : Mc) (b : Block) : Bool :=
  b == .mc || s.role m == 1 || (s.role m == 2 && s.pkg.channel && s.role (mcOther m) == 1)

/-- Table 14.2. -/
def State.blockUp (s : State) (b : Block) : Bool :=
  match b with
  | .mem => s.memReady
  | .core => s.windowsUp
  | _ => true

/-- Where a register's value is kept: each controller's own copy for the MC_ block. -/
def regKey (m : Mc) (b : Block) (a : Nat) : Nat := if b = .mc then mcKey m + a else a

/-- Logical core and offset of a window address. -/
def coreOf (a : Nat) : Nat := (a - coreBase) / 0x2000
def coreOff (a : Nat) : Nat := (a - coreBase) % 0x2000

/-- A window of no logical core (R453). -/
def State.unmapped (s : State) (b : Block) (a : Nat) : Bool := b == .core && !s.mapped? (coreOf a)

/-- The outcome code of an access to an address (Table 12.6); 0 when it is served. -/
def State.accessCode (s : State) (m : Mc) (a : Nat) : Nat :=
  match blockOf a, regFields a with
  | some b, some _ => if s.serves m b && s.blockUp b then 0 else cUnavailable
  | _, _ => cMemRange

/-! ### Reads (R451, R453) -/

/-- A register read: status, value, and the state with its RC fields cleared. -/
def State.regRead (s : State) (m : Mc) (a : Nat) : Nat × Nat × State :=
  match blockOf a, regFields a with
  | some b, some fs =>
    if s.accessCode m a ≠ 0 then (s.accessCode m a, 0, s)
    else if s.unmapped b a then (0, if coreOff a = oState then csUnmapped else (regDefault a).toNat, s)
    else
      let k := regKey m b a
      let (v, keep) := regReadVal fs (s.reg k)
      (0, v, s.setReg k keep)
  | _, _ => (cMemRange, 0, s)

/-! ### Writes -/

/-- A write by the fields' access codes (R13, R451); an RWL register locks. -/
def State.plainWrite (s : State) (k : Nat) (fs : List FieldDef) (v : Nat) : State :=
  let s' := s.setReg k (regWriteVal fs (s.flocks.contains k) (s.reg k) v)
  if fs.any (fun f => f.acc == .rwl) && !s.flocks.contains k then { s' with flocks := k :: s'.flocks } else s'

/-- SEC_ writes: ignored with REJ while an operation runs (R449). -/
def State.secWrite (s : State) (m : Mc) (a : Nat) (fs : List FieldDef) (v : Nat) : State :=
  if a = rSecOp then s.secStart m (bitsOf v 0 3)
  else if a ≠ rSecOpStat ∧ rSecNonce 0 ≤ a ∧ s.fld rSecOpStat 0 1 = 1 then s.setFld rSecOpStat 5 1 1
  else s.plainWrite a fs v

/-- PWR_ writes (R405, R411, Table 15.4): RAMP outside 4 to 2,000 and T_THR outside 70 to 100 keep their value. -/
def State.pwrWrite (s : State) (a : Nat) (fs : List FieldDef) (v : Nat) : State :=
  if a = rPwrCap then s.capWrite v
  else if a = rPwrCapSched then s.capSched v
  else if a = rPwrPant then
    if s.running then s
    else
      let r := s.fld rPwrPant 16 16
      let s := s.plainWrite a fs v
      let s := if 4 ≤ bitsOf v 16 16 ∧ bitsOf v 16 16 ≤ 2000 then s else s.setFld rPwrPant 16 16 r
      if s.bu = stHalted ∧ s.pkg.computeOn = true then
        s.used.foldl (fun s n => s.setCore n { s.core n with panting := s.fld rPwrPant 0 1 == 1 }) s
      else s
  else if a = rPwrTherm then
    if 70 ≤ bitsOf v 8 8 ∧ bitsOf v 8 8 ≤ 100 then s.plainWrite a fs v else s
  else s.plainWrite a fs v

/-- BU_ writes: commands, and the map in MAP only (R378, R389). -/
def State.buWrite (s : State) (a : Nat) (fs : List FieldDef) (v : Nat) : State :=
  if a = rBuCtrl then s.buCtrl v
  else if rBuMap 0 ≤ a ∧ a ≤ rBuMap 511 then (if s.bu = stMap then s.plainWrite a fs v else s)
  else s.plainWrite a fs v

/-- HL_ writes: a queue's registers are ignored while it is enabled, except a CFG write (R337). -/
def State.hlWrite (s : State) (a : Nat) (fs : List FieldDef) (v : Nat) : State :=
  let q := (a - 0x4_0000) / 0x20
  let o := a % 0x20
  if a = rHlEvqCfg then s.evqCfg v
  else if a = rHlEvqBase ∨ a = rHlEvqHead then (if s.fld rHlEvqCfg 0 1 = 1 then s else s.plainWrite a fs v)
  else if 0x80 ≤ q ∧ q < 0xC0 then
    if o = 8 then s.sqCfg (q - 0x80) v else if s.sqOn (q - 0x80) then s else s.plainWrite a fs v
  else if 0xC0 ≤ q then
    if o = 8 then s.cqCfg (q - 0xC0) v else if s.cqOn (q - 0xC0) then s else s.plainWrite a fs v
  else s.plainWrite a fs v

/-- PF_ writes: a stretch request starts an announcement; PF_DBG_CTRL and PF_RTC only in READY (Table 16.7). -/
def State.pfWrite (s : State) (a : Nat) (fs : List FieldDef) (v : Nat) : State :=
  if a = rPfStretchReq then s.stretchReq (bitsOf v 0 48) (bitsOf v 48 12)
  else if a = rPfDbgCtrl then
    if s.bu = stReady then
      let s := s.plainWrite a fs v
      if bitsOf v 1 2 = 1 then s.contextRestore else s
    else s
  else if a = rPfRtc then (if s.bu = stReady then s.plainWrite a fs v else s)
  else s.plainWrite a fs v

/-- GO of CORE_FLT_CTRL (R166): Flutter on the test key and counter. -/
def State.flutterTest (s : State) (n : Nat) : State :=
  let q (lo hi : Nat) : Quad :=
    let a := s.reg (rCore n lo)
    let b := s.reg (rCore n hi)
    { w0 := BitVec.ofNat 32 a, w1 := BitVec.ofNat 32 (a / 2 ^ 32), w2 := BitVec.ofNat 32 b, w3 := BitVec.ofNat 32 (b / 2 ^ 32) }
  let r := flutter (q oFltKeyLo oFltKeyHi) (q oFltCtrLo oFltCtrHi)
  let s := s.setReg (rCore n oFltOutLo) (r.w0.toNat + 2 ^ 32 * r.w1.toNat)
  let s := s.setReg (rCore n oFltOutHi) (r.w2.toNat + 2 ^ 32 * r.w3.toNat)
  s.setCfld n oFltCtrl 1 1 1

/-- Core window writes (R144, R453). -/
def State.coreWrite (s : State) (a : Nat) (fs : List FieldDef) (v : Nat) : State :=
  let n := coreOf a
  if !s.mapped? n then s
  else if s.running then (if coreOff a = oImemErr then s.plainWrite a fs v else s)
  else if coreOff a = oFltCtrl then (if bitsOf v 0 1 = 1 then s.flutterTest n else s)
  else s.plainWrite a fs v

/-- The effect of a write that is served. -/
def State.regEffect (s : State) (m : Mc) (b : Block) (a : Nat) (fs : List FieldDef) (v : Nat) : State :=
  match b with
  | .mc => if a = rMcLeadForce then s.leadForce m v else s.plainWrite (mcKey m + a) fs v
  | .sec => s.secWrite m a fs v
  | .pwr => s.pwrWrite a fs v
  | .bu => s.buWrite a fs v
  | .hl => s.hlWrite a fs v
  | .pf => s.pfWrite a fs v
  | .port => if a % 0x1000 = 0 then s.portModeWrite ((a - 0x8_0000) / 0x1000) v else s.plainWrite a fs v
  | .mem => if a = rMemChryRel then s.chryRel v else s.plainWrite a fs v
  | .core => s.coreWrite a fs v

/-- A register write: status and state (Table 12.6). -/
def State.regWrite (s : State) (m : Mc) (a v : Nat) : Nat × State :=
  match blockOf a, regFields a with
  | some b, some fs => if s.accessCode m a ≠ 0 then (s.accessCode m a, s) else (0, s.regEffect m b a fs v)
  | _, _ => (cMemRange, s)

/-! ### Commands -/

/-- The controller on whose port die a port lies. -/
def portMc (p : Nat) : Mc := if portHalf p = 0 then .west else .east

/-- REG_RD (R335). -/
def execRegRd (p tag a : Nat) (s : State) : Res :=
  s.whenLive (fun s =>
    if s.portUp p && s.mode p == 2 then
      let (st, v, s) := s.regRead (portMc p) a
      s.answer p opDData tag a st (leBytes 16 v)
    else s)

/-- REG_WR (R335). -/
def execRegWr (p tag a : Nat) (v : W64) (s : State) : Res :=
  s.whenLive (fun s =>
    if s.portUp p && s.mode p == 2 then
      let (st, s) := s.regWrite (portMc p) a v.toNat
      s.answer p opDAck tag a st []
    else s)

/-- REGISTER_WRITE (R451): a write as the controller `m` receives it, without its answer. -/
def execRegisterWrite (m : Mc) (a : Nat) (v : W64) (s : State) : Res :=
  s.whenLive (fun s => (s.regWrite m a v.toNat).2)

/-- FLUTTER_TEST_GO (R166). -/
def execFlutterTestGo (n : Nat) (s : State) : Res :=
  s.whenLive (fun s => if s.windowsUp && s.mapped? n && !s.running then s.flutterTest n else s)

end Sys2Proof.Machine
end

