-- ==== Sys2Proof/Machine/I3c.lean ====
section
/-! DEFINITION. The I3C targets of the management controllers (R463, R466 to R468). Without SB33 they do not answer. The
contents of the identity and status answers are stated nowhere: they are free values (log entry 10). -/

namespace Sys2Proof.Machine
open Sys2Proof

/-- I3C answers while SB33 is valid. -/
def State.onI3c (s : State) (k : State → State) : Res := s.whenLive (fun s => if s.pkg.sb33 then k s else s)

/-- A private write (R467): 4 B set the pointer, 12 B set it and write; any other length is ignored. -/
def State.privateWrite (s : State) (m : Mc) (bs : List Byte) : State :=
  if bs.length = 4 then s.setMc m { s.mc m with ptr := fieldLe bs 0 4 }
  else if bs.length = 12 then
    let s := s.setMc m { s.mc m with ptr := fieldLe bs 0 4 }
    let (st, s) := s.regWrite m (fieldLe bs 0 4) (fieldLe bs 4 8)
    s.setMc m { s.mc m with lastWr := st }
  else s.setMc m { s.mc m with lastWr := 0xFFFF }

def execI3cPointerWrite (m : Mc) (bs : List Byte) (s : State) : Res := s.onI3c (fun s => s.privateWrite m bs)
def execI3cRegisterWrite (m : Mc) (bs : List Byte) (s : State) : Res := s.onI3c (fun s => s.privateWrite m bs)

/-- A private read (R467): value, this read's status, the last write's status. -/
def State.privateRead (s : State) (m : Mc) : State :=
  let (st, v, s) := s.regRead m (s.mc m).ptr
  s.emit (.i3c m (leBytes 8 v ++ leBytes 2 st ++ leBytes 2 (s.mc m).lastWr))

def execI3cPrivateRead (m : Mc) (s : State) : Res := s.onI3c (fun s => s.privateRead m)

/-- Static addresses of R466. -/
def State.staticAddr (s : State) (m : Mc) : Nat := (if m = .west then 0x50 else 0x51) + 2 * s.pkg.i3cA

/-- SETDASA: a target without a dynamic address takes one by its static address. -/
def execSetdasa (m : Mc) (static dyn : Nat) (s : State) : Res :=
  s.onI3c (fun s => if static = s.staticAddr m ∧ (s.mc m).dyn.isNone then s.setMc m { s.mc m with dyn := some dyn } else s)

/-- ENTDAA: a target without a dynamic address takes the one assigned. -/
def execEntdaa (m : Mc) (dyn : Nat) (s : State) : Res :=
  s.onI3c (fun s => if (s.mc m).dyn.isNone then s.setMc m { s.mc m with dyn := some dyn } else s)

def execRstdaa (m : Mc) (s : State) : Res := s.onI3c (fun s => s.setMc m { s.mc m with dyn := none })

/-- ENEC: interrupts enabled; a held event goes out (R468). -/
def execEnec (m : Mc) (s : State) : Res :=
  s.onI3c (fun s =>
    let held := (s.mc m).ibiHeld
    let s := s.setMc m { s.mc m with ibiOn := true, ibiHeld := none }
    match held with
    | some c => s.emit (.ibi m c)
    | none => s)

/-- DISEC: later events are held (R468). -/
def execDisec (m : Mc) (s : State) : Res := s.onI3c (fun s => s.setMc m { s.mc m with ibiOn := false })

/-- An answer of `n` bytes that the spec does not state. -/
def State.freeAnswer (s : State) (m : Mc) (n : Nat) : State :=
  let (x, s) := s.draw
  s.emit (.i3c m (leBytes n x.toNat))

/-- GETPID answers 6 B, GETBCR and GETDCR 1 B, GETSTATUS, GETMWL and GETMRL 2 B (log entry 39, PRESUMED lengths). -/
def execGetpid (m : Mc) (s : State) : Res := s.onI3c (fun s => s.freeAnswer m 6)
def execGetbcr (m : Mc) (s : State) : Res := s.onI3c (fun s => s.freeAnswer m 1)
def execGetdcr (m : Mc) (s : State) : Res := s.onI3c (fun s => s.freeAnswer m 1)
def execGetstatus (m : Mc) (s : State) : Res := s.onI3c (fun s => s.freeAnswer m 2)
def execGetmwl (m : Mc) (s : State) : Res := s.onI3c (fun s => s.freeAnswer m 2)
def execGetmrl (m : Mc) (s : State) : Res := s.onI3c (fun s => s.freeAnswer m 2)

end Sys2Proof.Machine
end

