-- ==== Sys2Proof/Machine/Control.lean ====
section
/-! DEFINITION. Core command streams: the checks common to every command (Table 5.3), heels and what the decision heels
bring with them (R116, R138, R139, R208, R214), control commands, instruction banks (R140 to R143), freezes (R430, R435),
and the step origin (R190). The scheduler of `Scheduler.lean` decides when each command has its effect. -/

namespace Sys2Proof.Machine
open Sys2Proof

/-! ### The step decision (R214, Table 8.2) -/

structure Decision where
  skip    : Bool
  nonfin  : Bool
  clipped : Bool
  clip    : W32
  deriving DecidableEq, Repr

/-- Table 8.2 on a non-finite flag, N_g, τ_c and τ_a. -/
def decideStep (nf : Bool) (norm tauC tauA : W32) : Decision :=
  if nf then { skip := true, nonfin := true, clipped := false, clip := t32One }
  else if xLt (valT32 tauA) (valT32 norm) || norm == inf32 false then
    { skip := true, nonfin := false, clipped := false, clip := t32One }
  else if xLt (valT32 tauC) (valT32 norm) then
    { skip := false, nonfin := false, clipped := true, clip := rne32s (xDiv (valT32 tauC) (valT32 norm)) }
  else { skip := false, nonfin := false, clipped := false, clip := t32One }

/-- N_g = RNE32(√NS) (R212). -/
def State.norm (s : State) : W32 := sqrt32 (xAdd (valT32 s.stp.normM) (valT32 s.stp.normE))

def State.decision (s : State) (j : Job) : Decision :=
  decideStep (s.stp.nfT || s.stp.nfG) s.norm j.hdr.tauC j.hdr.tauA

/-- Update-list layers that this package still has to update in this step. -/
def State.layersLeft (s : State) (j : Job) : List Nat :=
  j.hdr.updates.filter (fun l => (j.ownedMasters l).any (fun t =>
    s.passRuns j t && decide ((getAssoc s.stp.updDone t.index).getD 0 < j.ownedElems t)))

/-- The STEP record (R344, Table 12.9). -/
def State.stepRecord (s : State) (j : Job) : List Byte :=
  let d := s.decision j
  let code := if s.stp.skip then (if s.stp.nonfin then cSkipNonfinite else cSkipNorm)
    else if s.stp.wide then cStepWidened else 0
  let flags := 2 ^ 2 * b2n s.stp.wide + 2 ^ 3 * b2n s.stp.skip + 2 ^ 4 * b2n s.stp.nonfin
    + 2 ^ 5 * b2n (d.clipped && !s.stp.skip) + 2 ^ 6 * b2n s.stp.snapNow
  recordBytes 2 flags code 0 0 0 0 s.stp.step (s.stp.v + b2n (!s.stp.skip))
    (leBytes 4 s.norm.toNat ++ leBytes 4 s.stp.clip.toNat ++ leBytes 4 (s.stp.minKey / 2 ^ 64)
      ++ leBytes 8 (s.stp.minKey % 2 ^ 64))

/-- Post the STEP record once every update of the step is done. -/
def State.stepDone (s : State) (j : Job) : State :=
  if s.stp.decided && (s.layersLeft j).isEmpty then s.queueStep (s.stepRecord j) else s

/-- Telemetry of the decision (Tables 8.10 to 8.14). -/
def State.noteDecision (s : State) (d : Decision) : State :=
  let s := if d.skip then (if d.nonfin then s.addFld rPfStepStat 32 16 1 else s.addFld rPfStepStat 48 16 1)
    else s.addFld rPfStepStat 0 32 1
  let s := s.setReg rPfStepNorm (s.norm.toNat + 2 ^ 32 * d.clip.toNat)
  let s := if s.stp.nfG then
      (s.setReg rPfNfTensor (s.stp.gMin / 2 ^ 64 % 2 ^ 32)).setReg rPfNfElem (s.stp.gMin % 2 ^ 64)
    else s
  let s := if d.clipped then s.addFld rPfUpdStat 0 32 1 else s
  ((s.setFld rPfUpdStat 48 1 (b2n d.skip)).setFld rPfUpdStat 49 1 (b2n d.nonfin)).setFld rPfUpdStat 50 1 (b2n d.clipped)

/-- Take the step decision, once, at the first skip heel (R208, R214); write the slow slot's record (R189). -/
def State.takeDecision (s : State) (j : Job) : State :=
  if s.stp.decided then s
  else
    let d := s.decision j
    let s := s.noteDecision d
    let rec_ : SlowRec := { step := s.stp.step, clip := d.clip, skip := d.skip }
    let recs := if j.hasSlow then rec_ :: s.stp.slowRecs.filter (fun r => r.step != s.stp.step) else s.stp.slowRecs
    let s := { s with stp := { s.stp with decided := true, skip := d.skip, nonfin := d.nonfin, clip := d.clip
                                          slowRecs := recs, norms := setAssoc s.stp.norms s.stp.step s.norm } }
    s.stepDone j

/-- The wide schedule of the step begins (R116): what the normal schedule decided is discarded (R115). -/
def State.enterWide (s : State) : State :=
  { s with stp := { s.stp with wide := true, nfT := false, nfG := false, minKey := 2 ^ 96 - 1, gMin := 2 ^ 96 - 1
                               normM := 0, normE := 0, decided := false, skip := false, nonfin := false, clip := t32One
                               localNfT := false, localMin := 2 ^ 96 - 1, charged := [], updDone := [], lred := [], amax := []
                               masterMax := [], sfbDue := [], rescales := [], staged := [], qBase := [], heeled := false
                               slowZero := [], bindDue := [] } }

/-- First schedule slot of the schedule in force: the step origin, or W = C + E_w in a wide step (R116). -/
def State.schedStart (s : State) : Nat :=
  match s.job with
  | some j => if s.stp.wide then s.stp.origin + j.hdr.statusDel + j.hdr.eW else s.stp.origin
  | none => s.stp.origin

/-- The decision heel of the step as finally run has retired: the slow gradients read so far are written back as zero, and
later reads zero what they read (R190). -/
def State.clearSlow (s : State) (j : Job) : State :=
  let s' := s.stp.slowZero.foldl (fun s e => match j.tensor? e.1 with
    | some g => match j.range? g e.2.1 e.2.2.1 e.2.2.2 with
      | some a => s.store a ((List.range e.2.2.2).flatMap (fun _ => zeroElem g.ns))
      | none => s
    | none => s) s
  { s' with stp := { s'.stp with slowZero := [], heeled := true } }

/-! ### Instruction banks (R140, R141) -/

/-- A segment of the program a core runs. -/
def State.segment? (s : State) (n seg : Nat) : Option Config.Segment :=
  s.job.bind (fun j => (j.progInfo n).segments.find? (fun g => g.id == seg))

def State.segLen (s : State) (n seg : Nat) : Nat := ((s.segment? n seg).map (·.len)).getD 0

/-- State and segment of bank `b` of a core. -/
def State.bankState (s : State) (n b : Nat) : Nat := s.cfld n oBank (2 * b) 2
def State.bankSeg (s : State) (n b : Nat) : Nat := s.cfld n oBank (16 + 16 * b) 16
def State.activeBank (s : State) (n : Nat) : Nat := if s.bankState n 1 = 3 then 1 else 0

/-- A load of a segment into a bank that is not ACTIVE starts (R141): the bank is LOADING from the command area. -/
def State.startLoad (s : State) (n b : Nat) (g : Config.Segment) : State :=
  let ld := s.job.map (fun j => j.segRange n g)
  let c := s.core n
  let s := s.setCore n (if b = 0 then { c with load0 := ld } else { c with load1 := ld })
  (s.setCfld n oBank (2 * b) 2 1).setCfld n oBank (16 + 16 * b) 16 g.id

/-- The wide step's load (R116, Table 4.8): the first segment of the wide command section goes into the core's inactive bank. -/
def State.wideLoad (s : State) (n : Nat) : State :=
  match s.job.bind (fun j => (j.progInfo n).segments.find? (·.wide)) with
  | some g => s.startLoad n (1 - s.activeBank n) g
  | none => s

/-- What a core reads at a heel with start slot `h`: the decision heel C + 1 shows WIDEN and starts the wide step's load, the skip heel
N + 1 shows the decision, the wide entry heel W begins the wide schedule. -/
def State.heelEffects (s : State) (n h : Nat) : State :=
  match s.job with
  | none => s
  | some j =>
    let c := s.stp.origin + s.statusSlot
    let w := s.stp.widened && !s.stp.wide
    let s := if c + 1 ≤ h then
        let s := if w && !(s.core n).widen then s.wideLoad n else s
        s.setCore n { s.core n with widen := w }
      else s
    let s := if c + 1 ≤ h ∧ (!s.stp.widened ∨ s.stp.wide) ∧ !s.stp.heeled then s.clearSlow j else s
    let s := if s.stp.widened && !s.stp.wide && decide (s.stp.origin + j.hdr.statusDel + j.hdr.eW ≤ h) then
        (s.enterWide).setCore n { s.core n with widen := false, skip := false, nonfin := false, clip := t32One }
      else s
    if s.stp.origin + s.normSlot + 1 ≤ h ∧ (!s.stp.widened ∨ s.stp.wide) then
      let s := s.takeDecision j
      s.setCore n { s.core n with skip := s.stp.skip, nonfin := s.stp.nonfin, clip := s.stp.clip }
    else s

/-! ### Heels (R138, R139, Tables 5.5 and 5.6) -/

/-- The present delivery of an awaited flit of the schedule in force. -/
def State.awaited? (s : State) (n : Nat) (w : Nat × Nat) : Option Delivery :=
  (s.core n).dlv.find? (fun d => d.stream == w.1 && d.seq == w.2 && decide (s.schedStart ≤ d.slot))

/-- Pack time at which a heel that entered the window at `since` retires, if every awaited delivery is present and it does
so by the end of slot d; arrivals latched in slot d count as present, by their delivery slot (R32, R138). -/
def State.heelTime (s : State) (n h d : Nat) (waits : List (Nat × Nat)) (since : Nat) : Option Nat :=
  if waits.all (fun w => (s.awaited? n w).isSome) then
    let slots := waits.filterMap (fun w => (s.awaited? n w).map (·.slot))
    let t := max since (slots.foldl (fun m q => max m (s.packOf q)) (s.packOf h))
    if t ≤ s.packOf d then some t else none
  else none

/-- A heel retires at pack time `t` (R138): CORE_HEEL_STAT, then what the heel brings. -/
def State.retireHeel (s : State) (a : Attr) (h d : Nat) (waits : List (Nat × Nat)) (t : Nat) : State :=
  let n := a.core
  let slots := waits.filterMap (fun x => (s.awaited? n x).map (·.slot))
  let s := s.setCfld n oHeel 0 16 (min (s.cfld n oHeel 0 16) (s.packOf d - t))
  let s := if slots.contains d then s.addCfld n oHeel 16 16 1 else s
  let s := s.addCfld n oHeel 32 32 1
  let s := s.setCore n { s.core n with panting := false }
  let s := (s.setCstate n csRun).followed n t
  (s.retire a).heelEffects n h

/-- Commands that let no younger command into the window until they retire (R133). -/
def serialises : Instr → Bool
  | .heel _ _ _ _ | .fence _ | .branch _ _ | .decide _ _ _ | .swap _ _ _ | .endStream _ => true
  | _ => false

/-- A core ends before the last command of its window, once the older ones have completed (R130, R430, R431). -/
def State.endBefore (s : State) (n : Nat) (e : Ending) : State :=
  s.setCore n { s.core n with window := (s.core n).window.dropLast, ending := some e }

/-- The heel of core `n` has not retired at the end of slot d (Table 5.5, R431): it is the last command of the core's window, or alone.
`late`: an older command was late. -/
def State.heelFails (s : State) (a : Attr) (late : Bool) : State :=
  let code := if late then cSlotMissed else cHeelTimeout
  if (s.core a.core).window.isEmpty then
    if s.armed then s.freeze a cRunToCount 4 4 false true else s.coreHaltNow a code false
  else s.endBefore a.core (if s.armed then .freeze a cRunToCount 4 4 false true else .halt a code false s.now)

/-! ### Entering a command (R128, R430, Table 5.3) -/

/-- SRAM ranges lie inside 1 MiB and start at a multiple of 64 B. -/
def sramOk (rs : List (Nat × Nat)) : Bool := rs.all (fun r => r.1 % 64 == 0 && decide (r.1 + r.2 ≤ 0x10_0000))

/-- SOURCE of MEM_ERR_ADDR for a core's own memory (Table 11.11). -/
def coreSource : CoreMem → Nat
  | .dataSram => 2
  | .accStore => 3
  | .instrBank => 4

/-- Run an effect with the memory errors that command `a` meets (R309 to R311). A two-bit error in the core's own memory delivers
nothing: it is recorded with the byte offset and the core, which halts (R310). -/
def State.meetCore (s : State) (a : Attr) (k : State → State) : State :=
  match a.mem.unit with
  | none => s.meet a.mem k
  | some (u, off) =>
    ((s.meeting { a.mem with writes := [] }).memErr (off % 2 ^ 21 + 2 ^ 32 * (a.core % 2 ^ 11)) (coreSource u) false).coreHalt a
      cMemUncorrectable false

/-- The checks of class All, in order, then the command's own effect. -/
def State.checked (s : State) (a : Attr) (rs : List (Nat × Nat)) (k : State → State) : State :=
  if !a.defined then s.checkFail a cCmdIllegal
  else if a.engines &&& absentEngines ≠ 0 then s.checkFail a cEngineAbsent
  else if !sramOk rs then s.checkFail a cCmdBadOperand
  else s.meetCore a k

/-- A core fetches its stream: the job issues, the core is used and runs or waits at a heel. -/
def State.fetching (s : State) (n : Nat) : Bool := s.issuing && s.used.contains n && s.coreLive n

/-! ### Control commands -/

/-- A wait set is legal: TRANSFER streams to this core, SEQ within the step's flits. -/
def State.waitsOk (s : State) (n : Nat) (waits : List (Nat × Nat)) : Bool :=
  waits.all (fun w => match s.stream? w.1 with
    | some c => c.kind == 1 && c.dst == n && c.dstHerd == s.herdIndex && decide (w.2 < s.flitsOf c)
    | none => false)

/-- The core waits at a heel, panting if the wait is long enough (R138, R409). -/
def State.waitAtHeel (s : State) (n h : Nat) : State :=
  let pant := s.fld rPwrPant 0 1 == 1 && decide (s.now + s.fld rPwrPant 32 16 ≤ s.packOf h)
  (s.setCore n { s.core n with panting := (s.core n).panting || pant }).setCstate n csHeel

/-! ### The boundary of a CTX_SAVE (R435) -/

/-- Origin of the step after the current one (R116, R190). -/
def State.nextOrigin (s : State) (j : Job) : Nat :=
  if s.stp.widened then s.stp.origin + j.hdr.statusDel + j.hdr.eW + j.hdr.lW else s.stp.origin + j.hdr.stepLen

/-- The request for boundary `b`, if one waits. -/
def State.ctxDue (s : State) : Option (Nat × Nat × Nat × Nat) :=
  s.hl.ctxReqs.find? (fun r => r.2.2.1 == if s.stp.begun then s.stp.step + 1 else s.stp.step)

/-- Origin of the boundary step of a CTX_SAVE. -/
def State.saveOrigin (s : State) : Nat :=
  match s.job with
  | some j => if s.stp.begun then s.nextOrigin j else s.stp.origin
  | none => s.stp.origin

/-- A heel with start slot `h` is one before which a CTX_SAVE freezes its core: that at the origin of the boundary step. -/
def State.savesAt (s : State) (h : Nat) : Bool := s.ctxDue.isSome && decide (s.saveOrigin ≤ h)

/-- A core's freeze at the boundary, before command `a`. The spec states no code for KIND 5: it is a free choice among the codes of
Table 16.4 (R425, log entry 41). -/
def State.saveEnding (s : State) (a : Attr) : Ending × State :=
  let (x, s) := s.draw
  (.freeze a (tableCodes.getD (x.toNat % tableCodes.length) cBreakCount) 1 5 true true, s)

/-- The core of a heel at the boundary stops before it. -/
def State.saveBefore (s : State) (a : Attr) : State :=
  let (e, s) := s.saveEnding a
  s.endBefore a.core e

/-- A HEEL that is the oldest unretired command, `since` the pack time by which it had entered the window and every older command had
completed: it is the one at a boundary to be saved, fails its check, retires, fails at the end of slot d, or waits. Older commands that
completed after slot d come first (Table 5.5). `go`: pack time moves forward to the heel's retirement (log entry 8). -/
def State.heel (s : State) (a : Attr) (h d : Nat) (waits : List (Nat × Nat)) (since : Nat) (go : Bool) : Option State :=
  if s.savesAt h then some (s.saveBefore a)
  else if d < h ∨ 65535 < d - h ∨ !s.waitsOk a.core waits then some (s.checkFail a cCmdBadOperand)
  else if s.packOf d < since then some (s.heelFails a true)
  else match s.heelTime a.core h d waits since with
    | some t =>
      if t ≤ s.now then some (s.retireHeel a h d waits t)
      else if go then some ((s.advanceTo t).retireHeel a h d waits t) else none
    | none => if s.packOf d < s.now then some (s.heelFails a false) else none

/-- Fetch continues at an offset in the active bank. -/
def State.jump (s : State) (n off : Nat) : State := s.setCore n { s.core n with resume := off }

/-- BRANCH. -/
def State.branch (s : State) (a : Attr) (target : Nat) : State :=
  if s.segLen a.core (s.activeSeg a.core) ≤ target then s.checkFail a cCmdBadOperand
  else (s.jump a.core target).retire a

/-- The decision bits of a core: WIDEN, SKIP, NONFINITE from bit 0 (the order is the model's: log entry 40). -/
def CoreSt.bits (c : CoreSt) : Nat := b2n c.widen + 2 * b2n c.skip + 4 * b2n c.nonfin

/-- DECIDE: the branch is taken when every bit that the mask names is set (log entry 40). -/
def State.decideBranch (s : State) (a : Attr) (mask target : Nat) : State :=
  if s.segLen a.core (s.activeSeg a.core) ≤ target ∨ 8 ≤ mask then s.checkFail a cCmdBadOperand
  else if (s.core a.core).bits &&& mask = mask then (s.jump a.core target).retire a
  else s.retire a

/-- The load of a bank ends (R141): its bytes come from the command area and it becomes READY. -/
def State.bankLoaded (s : State) (n b : Nat) : State :=
  let c := s.core n
  match (if b = 0 then c.load0 else c.load1) with
  | none => s
  | some (addr, len) =>
    let bytes := s.load addr len
    let s := s.setCore n (if b = 0 then { c with bank0 := bytes, load0 := none } else { c with bank1 := bytes, load1 := none })
    s.setCfld n oBank (2 * b) 2 2

/-- SWAP (R142): it waits while the inactive bank is LOADING the segment it names. -/
def State.swap (s : State) (a : Attr) (seg entry : Nat) : Option State :=
  let n := a.core
  let b := 1 - s.activeBank n
  let st := s.bankState n b
  if (st ≠ 1 ∧ st ≠ 2) ∨ s.bankSeg n b ≠ seg then some (s.checkFail a cSegMismatch)
  else if s.segLen n seg ≤ entry then some (s.checkFail a cCmdBadOperand)
  else if st = 1 then none
  else
    let s := (s.setCfld n oBank (2 * (1 - b)) 2 2).setCfld n oBank (2 * b) 2 3
    some (((s.showBank n).jump n entry).retire a)

/-- END: the core enters IDLE (R140, R411, R432). -/
def State.endCore (s : State) (a : Attr) : State :=
  let n := a.core
  let s := (s.retire a).dropWindow n
  let s := s.setCore n { s.core n with panting := s.fld rPwrPant 0 1 == 1 }
  ((s.bankRest n).setCstate n csIdle).endIfDone

/-- IMEM_LOAD (R141): a load aimed at the ACTIVE bank is discarded and reported. -/
def State.imemLoad (s : State) (a : Attr) (seg bank : Nat) : State :=
  let n := a.core
  match s.segment? n seg with
  | none => s.checkFail a cCmdBadOperand
  | some g =>
    if 2 ≤ bank ∨ 0x1_0000 < g.len then s.checkFail a cCmdBadOperand
    else if s.bankState n bank = 3 then
      let s := (s.addCfld n oImemErr 0 16 1).setCfld n oImemErr 16 1 1
      s.event 2 cImemActiveWrite n s.stp.step seg
    else s.startLoad n bank g

/-! ### The step origin (R53, R111, R120, R183 to R201, R404) -/

/-- What takes effect at the origin of the step that starts: scales (R53), gains (R404), a snapshot that is due (R195). -/
def State.originWork (s : State) (j : Job) : State :=
  let scales := j.tensors.foldl (fun l t =>
    if t.pow2 then match getAssoc s.stp.amax t.index with
      | some m => setAssoc l t.index (pow2Delayed t.format t.margin (s.scaleOf t) m)
      | none => l
    else match getAssoc s.stp.rescales t.index with
      | some w => setAssoc l t.index w
      | none => l) s.stp.scales
  let sfb := s.stp.sfbDue.foldl (fun l e => setAssoc l e.1 e.2) s.stp.sfb
  let s := { s with stp := { s.stp with scales, sfb, rescales := [], sfbDue := [], amax := [], masterMax := [], begun := true
                                        snapNow := false } }
  let s := s.applyGains
  let s := if s.snapDue j then s.takeSnap j else s
  { s with stp := { s.stp with snapReq := false } }

/-- Widen telemetry at the end of a step (R120, Table 4.9). -/
def State.noteWiden (s : State) : State :=
  if s.stp.widened then
    let run := s.stp.wideRun + 1
    let s := { s with stp := { s.stp with wideRun := run } }
    let s := ((s.addFld rPfWidenStat 0 32 1).setFld rPfWidenStat 32 8 (min 255 run)).setFld rPfWidenStat 41 1
      (b2n s.stp.widenSent)
    if run % 8 = 0 then (s.event 1 cPersistentWiden 0xFFFF s.stp.step run).setFld rPfWidenStat 40 1 1 else s
  else ({ s with stp := { s.stp with wideRun := 0 } }).setFld rPfWidenStat 32 8 0

/-- Slack accounting restarts at a step origin: EXHAUSTED and the charge clear (Table 4.6). LAYER, of which the spec says nothing
between the origin and the step's first narrow OPEN, shows 0 there (log entry 125, DESIGN CHOICE). -/
def State.clearSlack (s : State) : State := s.used.foldl (fun s n => s.setReg (rCore n oNwSlack) 0) s

/-- Slow layers whose pass this package has not completed. -/
def State.slowLeft (s : State) (j : Job) : Bool :=
  (s.layersLeft j).any (fun l => (j.ownedMasters l).any Tensor.slow)

/-- The step ends: counters advance, generations flip (R185, R188, R190, R191), the next origin is reached, with every contribution
due by then applied to the ended step's buffers (R282). -/
def State.advanceStep (s : State) (j : Job) : State :=
  let s := s.clearSlow j
  let slow := match s.slowDue j with
    | some r => b2n (!r.skip)
    | none => 0
  let v := s.stp.v + b2n (!s.stp.skip)
  let origin := s.nextOrigin j
  let s := s.noteWiden
  let s := (s.advanceTo (s.packOf origin)).settleReduce
  let bound := s.stp.bindDue.foldl (fun l e => setAssoc l e.1 e.2) s.stp.bound
  let s := { s with stp := { s.stp with
    bound, bindDue := [], origin, prevOrigin := some (s.stp.origin, s.stp.wide), slowRecs := s.stp.slowRecs.take j.hdr.delayD
    norms := s.stp.norms.filter (fun e => decide (s.stp.step < e.1 + j.hdr.delayD)), step := s.stp.step + 1, v, n := s.stp.n + slow, wide := false, widened := false, nfT := false, nfG := false
    minKey := 2 ^ 96 - 1, gMin := 2 ^ 96 - 1, normM := 0, normE := 0, decided := false, skip := false, nonfin := false
    clip := t32One, localWiden := false, widenSent := false, localNfT := false, localMin := 2 ^ 96 - 1, charged := [], updDone := []
    lred := [], staged := [], qBase := [], heeled := false, begun := false } }
  let s := s.used.foldl (fun s n => s.setCore n { s.core n with
    step := s.stp.step, widen := false, skip := false, nonfin := false, clip := t32One }) s
  s.clearSlack

/-- The flip of a step's end waits on the heel of the next origin: a slow pass that has not completed by then halts the core with
SLOT_MISSED (R194), the lowest running one, since no rule names it (log entry 115); in an armed run it freezes that core
(R431). -/
def State.slowLate (s : State) : State :=
  match s.used.find? s.coreLive with
  | some n =>
    let (a, s) := s.nextAttr n
    if s.armed then s.freeze { a with core := n } cRunToCount 4 4 false true
    else s.coreHaltNow { a with core := n } cSlotMissed false
  | none => s

/-- A step origin: the step before ends, decided by then, and the new one begins unless that halted the package; while a slow pass is
late, neither happens. -/
def State.stepOrigin (s : State) (j : Job) : State :=
  if !s.stp.begun then s.originWork j
  else
    let s := s.takeDecision j
    if s.slowLeft j then s.slowLate
    else
      let s := s.advanceStep j
      if s.running then s.originWork j else s

/-! ### CTX_SAVE (R435) -/

/-- Core `n` stands before the boundary's heel with nothing left to complete, or has ended its stream. -/
def State.atSave (s : State) (n : Nat) : Bool :=
  !s.coreLive n || ((s.core n).window.isEmpty && match (s.core n).ending with
    | some (.freeze _ _ _ kind _ _) => kind == 5
    | _ => false)

/-- A used core at the boundary: it freezes before its heel; one that is IDLE after END has no heel, and records KIND 5 and its image
(log entry 102). -/
def State.saveCore (s : State) (n : Nat) (image : Bool) : State :=
  if s.cstate n = csIdle then
    let s := (s.setCfld n oDbg 0 3 5).setCstate n csSaving
    (if image then s.writeImage n 1 else s).setCstate n csIdle
  else if s.coreLive n then
    match (s.core n).ending with
    | some (.freeze a code cause kind own _) => s.freeze { a with core := n } code cause kind own image
    | _ => s
  else s

/-- The boundary is reached on every used core: its origin's work is done, a snapshot that is due included, the cores freeze, those that
a descriptor names write their images, each descriptor of the boundary completes, and the package enters HALTED. -/
def State.saveNow (s : State) (j : Job) (b : Nat) : State :=
  let s := s.stepOrigin j
  if s.running && s.stp.step == b then
    let mine := s.hl.ctxReqs.filter (fun x => x.2.2.1 == b)
    let s := { s with hl := { s.hl with ctxReqs := s.hl.ctxReqs.filter (fun x => x.2.2.1 != b) } }
    let s := s.used.foldl (fun s n => s.saveCore n (mine.any (fun x => x.2.2.2 == 0xFFFF || x.2.2.2 == n))) s
    (mine.foldl (fun s x => s.landDesc x.1 x.2.1 0) s).enterHalted
  else s

/-- The package's freeze at a boundary, once no used core has anything left before it. -/
def State.saveEnd (s : State) : State :=
  match s.job, s.ctxDue with
  | some j, some r => if s.issuing && s.used.any s.coreLive && s.used.all s.atSave then s.saveNow j r.2.2.1 else s
  | _, _ => s

/-- A core whose next command is not a heel it already waits at stops before that command at the boundary. -/
def State.saveMark (s : State) (n : Nat) : State :=
  let c := s.core n
  if !s.coreLive n || c.ending.isSome || c.window.any (fun x => serialises x.cmd) then s
  else
    let (a, s) := s.firstAttr n c.stream
    let (e, s) := s.saveEnding { a with core := n }
    s.setCore n { s.core n with ending := some e }

end Sys2Proof.Machine
end

