-- ==== Sys2Proof/Machine/Operands.lean ====
section
/-! DEFINITION. Operand forms of core commands: values read from data SRAM and from tensors (R37, R45, R54, R67), and the
conversion a command carries (R57, R60, R61, R156 to R161, R167 to R169, R473). -/

namespace Sys2Proof.Machine
open Sys2Proof

/-! ### Values of the conversion step 1 -/

def quadOf (k : BitVec 128) : Quad :=
  { w0 := BitVec.ofNat 32 (bitsOf k.toNat 0 32), w1 := BitVec.ofNat 32 (bitsOf k.toNat 32 32)
    w2 := BitVec.ofNat 32 (bitsOf k.toNat 64 32), w3 := BitVec.ofNat 32 (bitsOf k.toNat 96 32) }

def xOne : Xv := .fin false 1 1

/-- f(u) and the scent bit (Table 6.3, R157); `u'` is MAX2's second input. -/
def actValue (r : ActRec) (u u' : Xv) : Xv × Nat :=
  let pos := xLt xZero u
  match r.kind with
  | .relu => (if xIsNan u then .nan else if pos then u else xZero, b2n pos)
  | .leaky => (if xIsNan u then .nan else if pos then u else xMul (valT32 r.alpha) u, b2n pos)
  | .abs => (xAbs u, if xIsNan u then 1 else b2n (!xSign u))
  | .clamp =>
    let lo := valT32 r.lo
    let hi := valT32 r.hi
    (if xIsNan u then .nan else if xLe u lo then lo else if xLe hi u then hi else u, b2n (xLt lo u && xLt u hi))
  | .max2 =>
    (if xIsNan u || xIsNan u' then .nan else if xLe u' u then u else u', b2n (xLe u' u))
  | .other => (u, 0)

/-- φ of Table 6.3 for a scent bit. -/
def backFactor (b : BackRec) (bit : Nat) : Xv :=
  match b.kind with
  | .relu | .clamp => if bit = 1 then xOne else xZero
  | .leaky => if bit = 1 then xOne else valT32 b.alpha
  | .abs => if bit = 1 then xOne else xNeg xOne
  | .max2 => if (bit = 1) ≠ b.side then xOne else xZero
  | .other => xOne

/-- Formats whose conversions may round stochastically (R61). -/
def mayRoundSr (f : Fmt) : Bool := f == .t8f || f == .t8g || f == .t16 || f == .i8 || f == .m8bs

/-- Rounding of element `e` of counter tensor `id` (R60, R61, R161). -/
def State.rndOf (s : State) (j : Job) (f : Fmt) (sr : Bool) (draw id e : Nat) : Rnd :=
  if sr && mayRoundSr f then .sr (fltValue (quadOf j.srKey) id s.stp.step domSround draw e) else .rne

/-- The dropout factor d of element `e` (R167, R168). -/
def State.dropFactor (s : State) (j : Job) (d : Option Nat) (e : Nat) : Xv :=
  match d.bind (fun i => j.sites.find? (fun x => x.index == i)) with
  | some x =>
    if fltValue (quadOf j.dropKey) x.index s.stp.step domDropout x.draw e < x.t then valT32 x.c else xZero
  | none => xOne

/-! ### Tensor lines and elements -/

/-- What a read of tensor elements gives: the address of a read that ends uncorrectable and its source, a code to halt
with, or the values before their scale and the number of subnormals flushed. -/
inductive Fetch where
  | fault (addr source : Nat)
  | bad (code : Nat)
  | ok (vals : List Xv) (flushed : Nat)
  deriving DecidableEq, Repr

/-- The packed lines that hold elements: line number and codes with their SCALE. -/
def State.readLines (s : State) (t : Tensor) (base line0 : Nat) : List Nat → Fetch ⊕ List (Nat × PackedLine)
  | [] => .inr []
  | l :: rest =>
    let a := base + 64 * (l - line0)
    if s.bad.contains (a / 64 * 64) then .inl (.fault a (memSource a))
    else match Sys2Proof.Machine.readLine t.format (s.load a 64) with
      | .badCheck => .inl (.fault a 5)
      | .badFormat => .inl (.bad cFormatMismatch)
      | .ok x => match s.readLines t base line0 rest with
        | .inl f => .inl f
        | .inr r => .inr ((l, x) :: r)

/-- The value of element `e` of a packed tensor, from its lines. -/
def packedVal (t : Tensor) (ls : List (Nat × PackedLine)) (e : Nat) : Xv :=
  match getAssoc ls (lineOf t.format t.rowLen e) with
  | some x => lineElem t.format x.scale (x.codes.getD (e % t.rowLen % codesPerLine t.format) 0)
  | none => .nan

/-- Elements `first` to `first + n − 1` of a tensor in version slot `v`, before its scale; reduction buffer elements as
g (R276). The range must lie in one placed part. -/
def State.readElems (s : State) (j : Job) (t : Tensor) (v first n : Nat) : Fetch :=
  if n = 0 then .ok [] 0
  else match j.range? t v first n with
  | none => .bad cMemRange
  | some a =>
    if isPacked t.format then
      let l0 := lineOf t.format t.rowLen first
      let ls := (List.range (lineOf t.format t.rowLen (first + n - 1) - l0 + 1)).map (l0 + ·)
      match s.readLines t a l0 ls with
      | .inl f => f
      | .inr ls => .ok ((List.range n).map (fun i => packedVal t ls (first + i))) 0
    else
      let z := elemSize t.format t.ns
      match s.badIn a (z * n) with
      | some b => .fault b (memSource b)
      | none =>
        let flush := j.flush t.cls
        let rs := (List.range n).map (fun i =>
          if t.format = .rbuf then (pairValue t.ns (pairOf (s.load (a + z * i) 8)), false)
          else readElem t.format flush (ofLe (s.load (a + z * i) z)))
        .ok (rs.map (·.1)) (rs.filter (·.2)).length

/-- Codes of `n` elements of an unpacked format in a core's data SRAM. -/
def State.sramCodes (s : State) (core off : Nat) (f : Fmt) (n : Nat) : List Nat :=
  let z := elemSize f 1
  (List.range n).map (fun i => ofLe (s.sramRead core (off + z * i) z))

/-- Bytes that `n` elements take in data SRAM, a packed row in whole lines. -/
def sramBytes (f : Fmt) (ns row n : Nat) : Nat :=
  if isPacked f then 64 * (ceilDiv n (max 1 row) * linesPerRow f (max 1 row)) else elemSize f ns * n

/-! ### Scent tensors (R155, R156, R158) -/

/-- The scent bit of element `e`, as its line holds it. -/
def State.scentBit (s : State) (j : Job) (tensor e : Nat) : Nat :=
  match j.tensor? tensor with
  | none => 0
  | some t => match s.readElems j t (s.readSlot j t) e 1 with
    | .ok _ _ => match j.addr? t (s.readSlot j t) e with
      | some (a, _) =>
        (unpackCodes 1 (slice (s.load a 64) 8 56)).getD (e % t.rowLen % 448) 0
      | none => 0
    | _ => 0

/-- The fault or code that reading scent elements meets, if any. -/
def State.scentFault (s : State) (j : Job) (tensor first n : Nat) : Option Fetch :=
  match j.tensor? tensor with
  | none => some (.bad cShapeMismatch)
  | some t => match s.readElems j t (s.readSlot j t) first n with
    | .ok _ _ => none
    | f => some f

/-- Write the bits that fall on one scent line, at address `a`: a line whose every element is written is formed anew; a part is
changed by a checked read-modify-write, which a line that reads uncorrectable or fails its CHECK ends as an uncorrectable read
and one whose TAG is of another format as a format mismatch (R45, R155). -/
def State.putScentLine (s : State) (t : Tensor) (a line : Nat) (bits : List (Nat × Nat)) : Option Fetch × State :=
  let (e0, n) := lineElems .scent t.rowLen line
  let new (old : List Nat) : List Nat := (List.range 448).map (fun i =>
    ((bits.filter (fun b => b.1 == e0 + i)).getLast?.map (·.2)).getD (old.getD i 0))
  let put (old : List Nat) : Option Fetch × State :=
    let (r, s) := s.storeParts a (scentLine (new old))
    (r.map (fun b => .fault b (memSource b)), s)
  let bs := s.load a 64
  if (List.range n).all (fun i => bits.any (fun b => b.1 == e0 + i)) then put []
  else if s.bad.contains (a / 64 * 64) then (some (.fault (a / 64 * 64) (memSource a)), s)
  else if !lineCheckOk bs then (some (.fault a 5), s)
  else if fieldLe bs 6 1 != lineTag .scent then (some (.bad cFormatMismatch), s)
  else put (unpackCodes 1 (slice bs 8 56))

/-- Write scent bits line by line; the first line that fails is reported and is not written. -/
def State.putScents (s : State) (j : Job) (tensor : Nat) (bits : List (Nat × Nat)) : Option Fetch × State :=
  match j.tensor? tensor with
  | none => (none, s)
  | some t =>
    let lines := (bits.map (fun b => lineOf .scent t.rowLen b.1)).eraseDups
    lines.foldl (fun (acc : Option Fetch × State) l =>
      let mine := bits.filter (fun b => lineOf .scent t.rowLen b.1 == l)
      match j.addr? t (acc.2.readSlot j t) (lineElems .scent t.rowLen l).1 with
      | none => acc
      | some (a, _) =>
        let (r, s) := acc.2.putScentLine t a l mine
        (acc.1.orElse (fun _ => r), s)) (none, s)

/-! ### Checks of a conversion (Table 5.3, R157, R158, R161, R168, R473) -/

def fin? (w : W32) : Bool := fin32 w

/-- A scale that a command gives a conversion into an unscaled format is not used (R52). -/
def dstScale (f : Fmt) (w : W32) : W32 :=
  match f with
  | .t8f | .t8g | .t16 | .i8 => w
  | _ => t32One

/-- Kinds and parameters (CMD_BAD_OPERAND). -/
def actOk (isVop : Bool) (r : ActRec) : Bool :=
  match r.kind with
  | .other => false
  | .max2 => isVop
  | .leaky => fin? r.alpha
  | .clamp => fin? r.lo && fin? r.hi && xLt (valT32 r.lo) (valT32 r.hi)
  | _ => true

def backOk (b : BackRec) : Bool :=
  match b.kind with
  | .other => false
  | .leaky => fin? b.alpha
  | _ => true

def convOperandsOk (c : Conv) (j : Job) (isVop : Bool) : Bool :=
  c.rescale.all scaleOk &&
  c.act.all (actOk isVop) && c.back.all backOk
    && c.dropout.all (fun d => j.sites.any (fun x => x.index == d))
    && (match c.act.bind (·.scent), c.back with
      | some x, some b => x != b.scent
      | _, _ => true)

/-- The tensor `x` is a scent tensor with the shape of `t`. -/
def Job.scentLike (j : Job) (t : Option Tensor) (x : Nat) : Bool :=
  match j.tensor? x, t with
  | some u, some t => u.format == .scent && u.dims == t.dims
  | _, _ => false

/-- Shapes (CMD_SHAPE_MISMATCH): `t` is the conversion's tensor, `first` and `n` its elements converted; `g` is the gradient tensor
of a backward factor and `gIn` tells whether the elements lie in it, for a RETRIEVE the tensor it reads (R158). -/
def convShapesOk (c : Conv) (j : Job) (t : Option Tensor) (first n : Nat) (g : Option Tensor) (gIn : Bool) : Bool :=
  let inside := t.any (fun t => decide (first + n ≤ t.numel))
  c.dropout.all (fun d => inside && match j.sites.find? (fun x => x.index == d), t with
      | some x, some t => (j.tensor? x.shape).any (fun u => u.dims == t.dims)
      | _, _ => false)
    && (!t.any (fun t => t.sr && mayRoundSr c.dst) || inside)
    && ((c.act.bind (·.scent)).all (fun x => inside && j.scentLike t x))
    && c.back.all (fun b => gIn && j.scentLike g b.scent)

/-- The scales that a command supplies for its source and destination formats are positive, finite and normal (R52). -/
def convScalesOk (sfmt : Fmt) (c : Conv) : Bool := scaleOk (dstScale sfmt c.sSrc) && scaleOk (dstScale c.dst c.sDst)

/-- The first check of a conversion from format `sfmt` that fails; 0 when all pass. The gradient tensor of a backward factor is
`g`, with `gIn` as above. -/
def convCodeOf (sfmt : Fmt) (c : Conv) (j : Job) (isVop : Bool) (t : Option Tensor) (first n : Nat) (g : Option Tensor)
    (gIn : Bool) : Nat :=
  if !convOperandsOk c j isVop || !convScalesOk sfmt c then cCmdBadOperand
  else if !convShapesOk c j t first n g gIn then cShapeMismatch else 0

/-- The same where the conversion's tensor is the gradient tensor: in a CLOSE, DEPOSIT, VCONVERT or VOP. -/
def convCode (sfmt : Fmt) (c : Conv) (j : Job) (isVop : Bool) (t : Option Tensor) (first n : Nat) : Nat :=
  convCodeOf sfmt c j isVop t first n t (t.any (fun t => decide (first + n ≤ t.numel)))

/-- A tensor's current scale where a command names the tensor of an operand, else the command's (R52, R53). In a wide step an
operand in T16 has the scale of its compiled tensor, and a master s_fb (R117). -/
def State.operandScale (s : State) (j : Job) (t : Option Nat) (f : Fmt) (w : W32) : W32 :=
  match t.bind j.tensor? with
  | some x =>
    if x.kind = kMaster then (if s.stp.wide then s.fallback x.index else w)
    else if x.format = f ∨ (s.stp.wide ∧ f = .t16 ∧ scaled x.format) then s.scaleAt j x else w
  | none => w

/-! ### Running a conversion -/

/-- One converted element: its exact value times s_dst (f(u·φ)·d), and the scent bit decided on the way. -/
structure Exact where
  v   : Xv
  bit : Nat

/-- Step 1 of R57 without the division by s_dst: `u` is the decoded source times s_src; φ is read at index `i` of the gradient
tensor, and the dropout factor is that of index `e` (R156, R158, R168, R473). -/
def State.exactAt (s : State) (j : Job) (c : Conv) (i e : Nat) (u u' : Xv) : Exact :=
  let w := match c.back with
    | some b => xMul u (backFactor b (s.scentBit j b.scent i))
    | none => u
  let r := match c.act with
    | some a => actValue a w u'
    | none => (w, 0)
  { v := match c.dropout with
      | some _ => xMul r.1 (s.dropFactor j c.dropout e)
      | none => r.1
    bit := r.2 }

/-- The same where the conversion's tensor is the gradient tensor. -/
def State.exactVal (s : State) (j : Job) (c : Conv) (e : Nat) (u u' : Xv) : Exact := s.exactAt j c e e u u'

/-- The smallest T32 value that is not below `x`; the largest finite one for a finite value above it. -/
def ceil32 (x : Xv) : W32 :=
  let w := rne32s x
  if xIsFinite x && !fin32 w then 0x7F7F_FFFF else if xLt (valT32 w) x then w + 1 else w

/-- The larger of two exact magnitudes; NaN if either is. -/
def xMaxMag (a b : Xv) : Xv := if xIsNan a || xIsNan b then .nan else if xLt a b then b else a

/-- The larger of two measured magnitudes; NaN if either is. -/
def magMax (a b : W32) : W32 := if xIsNan (valT32 a) || xIsNan (valT32 b) then nan32 else if a.toNat < b.toNat then b else a

/-- The largest magnitude of exact values, before rounding (R53). -/
def largest (vs : List Xv) : Xv := vs.foldl (fun m v => xMaxMag m (xAbs v)) xZero

/-- Note a measured maximum of a tensor. -/
def State.noteMax (s : State) (tensor : Nat) (m : Xv) : State :=
  { s with stp := { s.stp with amax := setAssoc s.stp.amax tensor (xMaxMag ((getAssoc s.stp.amax tensor).getD xZero) m) } }

/-- A command of the job replaces the FIXED scale of a tensor at the next step boundary (R53, R153). -/
def State.rescale (s : State) (t : Option Tensor) (c : Conv) : State :=
  match t, c.rescale with
  | some t, some w => if t.pow2 then s
      else { s with stp := { s.stp with rescales := setAssoc s.stp.rescales t.index w } }
  | _, _ => s

/-- The record of a conversion (R55, R58, Table 2.12): `reads` subnormals flushed on the read, and the conversions with
their element indices. -/
def convStat (reads : Nat) (cs : List (Nat × Cvt)) : ConvStat :=
  let nfs := (cs.filter (fun p => p.2.nonfin)).map (·.1)
  let fl := (cs.filter (fun p => p.2.flushed)).length
  { nonfinite := !nfs.isEmpty, flushed := decide (0 < reads) || decide (0 < fl)
    sat := min 65535 (cs.filter (fun p => p.2.sat)).length, flushes := min 65535 fl
    first := nfs.foldl min (2 ^ 40 - 1) }

/-- Steps 2 to 4 of R57 for element formats: element `e` of counter tensor `id`, rounded stochastically if `sr`. -/
def State.convOne (s : State) (j : Job) (c : Conv) (sr : Bool) (id e : Nat) (sDst : W32) (flush : Bool) (v : Xv) : Cvt :=
  convElem c.dst (s.rndOf j c.dst sr c.draw id e) flush (xDiv v (valT32 sDst))

/-- Bytes of converted elements of an unpacked format. -/
def cvtBytes (f : Fmt) (cs : List Cvt) : List Byte := cs.flatMap (fun c => leBytes (elemSize f 1) c.code)

/-- The value a stored code denotes is non-finite, or it was stored under the non-finite column of Table 2.12. -/
def Cvt.isNf (c : Cvt) : Bool := c.nonfin

/-- Element-format pairs of Table 11.7, element by element. -/
def isElemFmt (f : Fmt) : Bool := f == .t8f || f == .t8g || f == .t16 || f == .t32 || f == .i8

end Sys2Proof.Machine
end

