-- ==== Sys2Proof/Machine/Transfer.lean ====
section
/-! DEFINITION. Transfer commands: RETRIEVE and DEPOSIT (R151, R314 to R321, R472), SEND, ACCEPT and CONTRIBUTE
(Table 5.3, R28, R254, R280, R292, R474). -/

namespace Sys2Proof.Machine
open Sys2Proof

/-- A command's own transfer or line read ends uncorrectable: the core halts (R310). -/
def State.coreMemFault (s : State) (a : Attr) (addr source : Nat) : State :=
  (s.memErr addr source false).coreHalt a cMemUncorrectable false

def State.fetchFails (s : State) (a : Attr) (f : Fetch) : State :=
  match f with
  | .fault addr src => s.coreMemFault a addr src
  | .bad code => s.coreHalt a code false
  | .ok _ _ => s

/-- Elements that begin and end at whole lines of their rows (R46, R316, R472). -/
def wholeLines (f : Fmt) (row first n : Nat) : Bool :=
  let e := first + n
  n != 0 && first % row % codesPerLine f == 0 && (e % row == 0 || e % row % codesPerLine f == 0)

/-! ### RETRIEVE -/

/-- Pairs of the RETRIEVE rows of Table 11.7; none is a copy. -/
def retrievePair (src : Fmt) (dst : Option Fmt) : Bool :=
  match dst with
  | none => src != .status
  | some d =>
    if isElemFmt src then isElemFmt d
    else if src == .rbuf then d == .t32
    else src != .scent && src != .status && d == .t32

/-- The runs of source elements a RETRIEVE reads, in destination order: plain, the rows of a transposed window, or the
gathered rows. -/
def State.retrieveRuns (s : State) (core : Nat) (t : Tensor) (o : RetArg) : List (Nat × Nat) :=
  match o.transp, o.gather with
  | some (r, c), _ => (List.range r).map (fun i => (o.first + i * t.rowLen, c))
  | none, some (off, n) =>
    (List.range n).map (fun i => (ofLe (s.sramRead core (off + 4 * i) 4) * t.rowLen, t.rowLen))
  | none, none => [(o.first, o.count)]

/-- Elements a RETRIEVE writes. -/
def retrieveCount (t : Tensor) (o : RetArg) : Nat :=
  match o.transp, o.gather with
  | some (r, c), _ => r * c
  | none, some (_, n) => n * t.rowLen
  | none, none => o.count

/-- Format of the data in SRAM, and its bytes. -/
def retrieveFmt (t : Tensor) (o : RetArg) : Fmt := (o.conv.map (·.dst)).getD t.format

def retrieveBytes (t : Tensor) (o : RetArg) : Nat :=
  let f := retrieveFmt t o
  if isPacked f then
    match o.gather with
    | some (_, n) => n * 64 * linesPerRow f t.rowLen
    | none => t.bytesOf o.first o.count
  else elemSize f t.ns * retrieveCount t o

/-- Transpose and gather shapes and whole lines (Table 6.2, R151, R319, R472). -/
def retrieveShape (t : Tensor) (o : RetArg) : Bool :=
  let f := retrieveFmt t o
  (match o.transp with
    | some (r, c) => r % 32 == 0 && c % 32 == 0 && r != 0 && c != 0 && o.gather.isNone && decide (elemSize f t.ns ≤ 4)
        && decide (o.first % t.rowLen + c ≤ t.rowLen)
    | none => true)
    && (match o.gather with
      | some (_, n) => decide (1 ≤ n ∧ n ≤ 4096)
          && (isPacked t.format || elemSize t.format t.ns * t.rowLen % 64 == 0)
          && (isPacked f || elemSize f t.ns * t.rowLen % 64 == 0)
      | none => o.transp.isSome || o.conv.isSome || !isPacked t.format || wholeLines t.format t.rowLen o.first o.count)

/-- Span of counter indices a conversion uses: transposed windows keep the counter tensor's row length. -/
def retrieveSpan (ct : Option Tensor) (t : Tensor) (o : RetArg) : Nat :=
  match o.transp with
  | some (r, c) => (r - 1) * ((ct.map (·.rowLen)).getD t.rowLen) + c
  | none => retrieveCount t o

/-- The runs lie inside the tensor, in one placed part each, at mapped addresses. -/
def State.runsIn (s : State) (j : Job) (t : Tensor) (v : Nat) (rs : List (Nat × Nat)) : Bool :=
  rs.all (fun r => decide (r.1 + r.2 ≤ t.numel) && match j.range? t v r.1 r.2 with
    | some a => s.mappedRange a (t.bytesOf r.1 r.2)
    | none => false)

/-- Read every run; values per run. -/
def State.readRuns (s : State) (j : Job) (t : Tensor) (v : Nat) : List (Nat × Nat) → Fetch ⊕ List (List Xv)
  | [] => .inr []
  | r :: rest => match s.readElems j t v r.1 r.2 with
    | .ok vs _ => match s.readRuns j t v rest with
      | .inl f => .inl f
      | .inr m => .inr (vs :: m)
    | f => .inl f

/-- Columns first: element (i, c) of the window goes to place c · rows + i. -/
def transposeRows {α : Type} (rows : List (List α)) (c : Nat) : List α :=
  (List.range c).flatMap (fun k => rows.filterMap (·[k]?))

/-- Order the runs' elements as the destination holds them. -/
def arrange {α : Type} (o : RetArg) (rows : List (List α)) : List α :=
  match o.transp with
  | some (_, c) => transposeRows rows c
  | none => rows.flatMap id

/-- Counter indices of the elements, run by run. -/
def counterRows (ct : Option Tensor) (t : Tensor) (o : RetArg) (c0 : Nat) (rs : List (Nat × Nat)) : List (List Nat) :=
  let row := match o.transp with
    | some _ => (ct.map (·.rowLen)).getD t.rowLen
    | none => (rs.headD (0, 0)).2
  (List.range rs.length).map (fun i => (List.range (rs.getD i (0, 0)).2).map (fun k => c0 + i * row + k))

/-- What a transfer brings into data SRAM: its bytes, the conversions with their element indices, the exact values with
their scent bits, and the subnormals flushed on the read. -/
structure RetData where
  bytes : List Byte
  cvts  : List (Nat × Cvt)
  xs    : List (Nat × Exact)
  reads : Nat

/-- Read every run and count the subnormals flushed. -/
def State.runFlushes (s : State) (j : Job) (t : Tensor) (v : Nat) (rs : List (Nat × Nat)) : Nat :=
  (rs.map (fun r => match s.readElems j t v r.1 r.2 with
    | .ok _ n => n
    | _ => 0)).sum

/-- Write what a RETRIEVE brings into data SRAM and note the transfer as the range's last writer, for a repeat (R87). -/
def State.sramFill (s : State) (core : Nat) (o : RetArg) (rs : List (Nat × Nat)) (d : RetData) : State :=
  let c := s.core core
  s.setCore core ({ c with sram := mapSetRun memDefault c.sram o.dst d.bytes }.noteFeed
    { off := o.dst, len := d.bytes.length, ret := some o, runs := rs, marks := d.cvts.map (fun (p : Nat × Cvt) => (p.2.sat, p.2.flushed)) })

/-- Copy without conversion: the stored bytes, packed lines with their CHECK verified (R317). -/
def State.copyData (s : State) (j : Job) (t : Tensor) (v : Nat) (o : RetArg) (rs : List (Nat × Nat)) : Fetch ⊕ RetData :=
  match s.readRuns j t v rs with
  | .inl f => .inl f
  | .inr _ =>
    let z := elemSize t.format t.ns
    let bytes (r : Nat × Nat) : List Byte := match j.range? t v r.1 r.2 with
      | some x => s.load x (t.bytesOf r.1 r.2)
      | none => []
    .inr { cvts := [], xs := [], reads := 0
           bytes := match o.transp with
             | some (_, c) => (transposeRows (rs.map (fun r => chunksOf z (bytes r).length (bytes r))) c).flatMap id
             | none => rs.flatMap bytes }

/-- Rounding selection of a RETRIEVE's conversion: the manifest's for the counter tensor (R61), but to nearest even in a wide
step (R98). -/
def State.retrieveSr (s : State) (ct : Option Tensor) : Bool := !s.stp.wide && ct.any (·.sr)

/-- The exact values that a conversion reads, with their counter indices, and the subnormals flushed on the read (R57, R315, R321).
The conversion's tensor of a dropout site and the counter tensor are one, the tensor that `counter` names (log entry 42); the
gradient tensor of a backward factor is the one that is read (R158). -/
def State.convRead (s : State) (j : Job) (t : Tensor) (v : Nat) (o : RetArg) (c : Conv) (rs : List (Nat × Nat)) :
    Fetch ⊕ (List (Nat × Exact) × Nat) :=
  let idx := counterRows (c.counter.bind j.tensor?) t o c.first rs
  match s.readRuns j t v rs, c.back.bind (fun b => rs.findSome? (fun r => s.scentFault j b.scent r.1 r.2)) with
  | .inl f, _ => .inl f
  | _, some f => .inl f
  | .inr rows, none =>
    let src := rs.map (fun r => (List.range r.2).map (fun k => r.1 + k))
    let sSrc := if t.format = .rbuf then xOne else valT32 (s.scaleIn t v)
    let fac := if t.format = .rbuf then valT32 o.factor else xOne
    let xs := ((arrange o idx).zip ((arrange o src).zip (arrange o rows))).map (fun p =>
      (p.1, s.exactAt j c p.2.1 p.1 (xMul (xMul p.2.2 sSrc) fac) .nan))
    .inr (xs, s.runFlushes j t v rs)

/-- Subnormal mode of a RETRIEVE's conversion: none for a reduction buffer, whose T32 values are formed with no flush (R57, R321);
the forward class's for a wide step's master (R106, R117); else that of the counter tensor's class, or of the source's where
the conversion names no counter tensor (R54; log entry 42). -/
def State.convFlush (s : State) (j : Job) (t : Tensor) (c : Conv) : Bool :=
  if t.format = .rbuf then false
  else if s.stp.wide ∧ t.kind = kMaster ∧ c.dst = .t16 then j.flush 0
  else j.flush ((c.counter.bind j.tensor?).getD t).cls

/-- Convert what is read (R57, R315, R321). -/
def State.convData (s : State) (j : Job) (t : Tensor) (v : Nat) (o : RetArg) (c : Conv) (rs : List (Nat × Nat)) :
    Fetch ⊕ RetData :=
  let ct := c.counter.bind j.tensor?
  match s.convRead j t v o c rs with
  | .inl f => .inl f
  | .inr (xs, reads) =>
    let sDst := dstScale c.dst (if s.stp.wide ∧ t.kind = kMaster ∧ c.dst = .t16 then s.fallback t.index
      else s.operandScale j c.counter c.dst c.sDst)
    let out := xs.map (fun p =>
      (p.1, s.convOne j c (s.retrieveSr ct) (c.counter.getD 0) p.1 sDst (s.convFlush j t c) p.2.v))
    .inr { bytes := cvtBytes c.dst (out.map (·.2)), cvts := out, xs, reads }

/-- What a RETRIEVE brings from the runs `rs`. -/
def State.retrieveData (s : State) (j : Job) (t : Tensor) (v : Nat) (o : RetArg) (rs : List (Nat × Nat)) : Fetch ⊕ RetData :=
  match o.conv with
  | none => s.copyData j t v o rs
  | some c => s.convData j t v o c rs

/-- The faults of scent lines: a line that fails its CHECK or reads uncorrectable, or one of another format (R45, R155). -/
def State.scentFails (s : State) (a : Attr) (r : Option Fetch) : State :=
  match r with
  | some f => s.fetchFails a f
  | none => s

/-- The status record of a transfer (R55, R58). -/
def RetData.stat (d : RetData) (c : Option Conv) : ConvStat := if c.isNone then ConvStat.fresh else convStat d.reads d.cvts

/-- The status of a core's last retriever transfer. -/
def State.setXfer (s : State) (n : Nat) (x : ConvStat) : State := s.setCore n { s.core n with xferStat := x }

/-- Bring data into SRAM: the transfer's status, the maximum of the tensor converted into (R53), scent bits. -/
def State.retrieveInto (s : State) (a : Attr) (j : Job) (o : RetArg) (rs : List (Nat × Nat)) (d : RetData) : State :=
  let s := (s.sramFill a.core o rs d).setXfer a.core (d.stat o.conv)
  match o.conv with
  | none => s
  | some c =>
    let s := match c.counter with
      | some k => (s.noteMax k (largest (d.xs.map (fun (p : Nat × Exact) => p.2.v)))).rescale (j.tensor? k) c
      | none => s
    match c.act.bind (·.scent) with
    | some k =>
      let (r, s) := s.putScents j k (d.xs.map (fun (p : Nat × Exact) => (p.1, p.2.bit)))
      s.scentFails a r
    | none => s

/-- RETRIEVE: the checks of Table 5.3 in order, then the transfer. -/
def State.retrieve (s : State) (a : Attr) (j : Job) (o : RetArg) : State :=
  let idx := match o.gather with
    | some (off, n) => [(off, 4 * n)]
    | none => []
  match j.tensor? o.tensor with
  | none => s.checkFail a (if sramOk ((o.dst, 0) :: idx) then cMemRange else cCmdBadOperand)
  | some t =>
    let v := s.readSlot j t
    let ct := (o.conv.bind (·.counter)).bind j.tensor?
    let c0 := match o.conv with
      | some c => if retrievePair t.format (some c.dst)
          then convCodeOf .t32 c j false ct c.first (retrieveSpan ct t o) (some t) true else 0
      | none => 0
    if !sramOk ((o.dst, retrieveBytes t o) :: idx) then s.checkFail a cCmdBadOperand
    else
      let rs := s.retrieveRuns a.core t o
      if o.gather.isNone ∧ !s.runsIn j t v rs then s.checkFail a cMemRange
      else if !retrievePair t.format (o.conv.map (·.dst)) ∨ (o.transp.isSome ∧ isPacked t.format) then
        s.checkFail a cFormatMismatch
      else if !retrieveShape t o then s.checkFail a cShapeMismatch
      else if c0 ≠ 0 then s.checkFail a c0
      else if !s.runsIn j t v rs then s.checkFail a cMemRange
      else
        let s := if t.format = .rbuf then s.settleReduce else s
        match s.retrieveData j t v o rs with
        | .inl f => s.fetchFails a f
        | .inr d => s.retrieveInto a j o rs d

/-! ### DEPOSIT -/

/-- Pairs of the DEPOSIT rows of Table 11.7; a copy keeps the format. -/
def depositPair (src dst : Fmt) (copy : Bool) : Bool :=
  if copy then src == dst && dst != .status && dst != .rbuf
  else if isElemFmt dst then isElemFmt src
  else src == .t32 && (dst == .w2 || dst == .w1 || dst == .m8bs || dst == .m8bu)

/-- The version slot a DEPOSIT writes. Of a slow reduction buffer, the clear pass of a widened step empties the step's own slot
(R187, R192), any other zero write the slot whose pass is due (R190; log entry 112). -/
def State.depositSlot (s : State) (j : Job) (t : Tensor) : Nat :=
  if t.kind = kReduce then
    (if !t.slow then 0
     else if s.stp.widened && !s.stp.wide then s.stp.step % (j.hdr.delayD + 1) else (s.stp.step + 1) % (j.hdr.delayD + 1))
  else if t.kind = kChry then s.stp.snapSlot else s.writeSlot j t

/-- After a store: a fault, or the noseprints of the shards it touched and the end of the command. -/
def State.stored (s : State) (a : Attr) (addr len : Nat) (r : Option Nat) : State :=
  match r with
  | some b => s.coreMemFault a b (memSource b)
  | none => s.reprint addr len

/-- Lines of a copy into a packed tensor whose CHECK fails in SRAM are not written; which of the others are is not
specified, a free value per line (R317). -/
def State.copyLines (s : State) (addr : Nat) : List (List Byte) → State
  | [] => s
  | l :: rest =>
    let (x, s) := s.draw
    let s := if lineCheckOk l && bitsOf x.toNat 0 1 == 1 then (s.storeParts addr l).2 else s
    s.copyLines (addr + 64) rest

/-- Bytes of a conversion into tensor elements `first` on, with its measured values and scent bits (R57, R62, R63). -/
structure Converted where
  bytes : List Byte
  xs    : List Exact
  stat  : ConvStat

/-- Convert exact sources (decoded × s_src) into elements `first` on of tensor `t`, with the rounding that the manifest selects
for it (R61). -/
def State.convertInto (s : State) (j : Job) (t : Tensor) (c : Conv) (first : Nat) (us : List Xv) : Converted :=
  let xs := (List.range us.length).map (fun i => s.exactVal j c (first + i) (us.getD i .nan) .nan)
  if isPacked t.format then
    let f := t.format
    let row := t.rowLen
    let l0 := lineOf f row first
    let nl := if us.isEmpty then 0 else lineOf f row (first + us.length - 1) - l0 + 1
    let ws := xs.map (fun x => rne32s x.v)
    let ls := (List.range nl).map (fun k =>
      let (e0, n) := lineElems f row (l0 + k)
      (e0, deriveLine f (t.sr && decide (f = Fmt.m8bs)) ((List.range n).map (fun i => s.rndOf j f t.sr c.draw t.index (e0 + i)))
        ((ws.drop (e0 - first)).take n)))
    let nfs := (ls.filter (fun p => p.2.nonfin)).map (·.1)
    { xs, bytes := ls.flatMap (fun p => lineBytes f p.2.line)
      stat := { nonfinite := !nfs.isEmpty, flushed := false, sat := min 65535 ((ls.map (fun p => p.2.satCount)).sum)
                flushes := 0, first := nfs.foldl min (2 ^ 40 - 1) } }
  else
    let cs := (List.range xs.length).map (fun i => (first + i,
      s.convOne j c t.sr t.index (first + i) (s.scaleOf t) (j.flush t.cls) ((xs.getD i { v := .nan, bit := 0 }).v)))
    { xs, bytes := cvtBytes t.format (cs.map (·.2)), stat := convStat 0 cs }

/-- DEPOSIT with a conversion. -/
def State.depositConv (s : State) (a : Attr) (j : Job) (t : Tensor) (addr : Nat) (o : DepArg) (c : Conv) : State :=
  match c.back.bind (fun b => s.scentFault j b.scent o.first o.count) with
  | some f => s.fetchFails a f
  | none =>
    let us := (s.sramCodes a.core o.src o.sfmt o.count).map (fun k => xMul (decodeElem o.sfmt k)
      (valT32 (dstScale o.sfmt c.sSrc)))
    let r := s.convertInto j t { c with dst := t.format } o.first us
    let s := (s.noteMax t.index (largest (r.xs.map (·.v)))).rescale (some t) c
    let s := s.setXfer a.core r.stat
    let (f, s) := s.storeParts addr r.bytes
    match c.act.bind (·.scent) with
    | some k =>
      let (g, s) := s.putScents j k ((List.range r.xs.length).map (fun i =>
        (o.first + i, (r.xs.getD i { v := .nan, bit := 0 }).bit)))
      match g with
      | some x => s.fetchFails a x
      | none => s.stored a addr r.bytes.length f
    | none => s.stored a addr r.bytes.length f

/-- DEPOSIT without a conversion (R317 for packed lines: the CHECK alone is verified; a line with a good CHECK but another TAG or a
reserved code is written, DESIGN CHOICE, log entry 134). -/
def State.depositCopy (s : State) (a : Attr) (t : Tensor) (addr : Nat) (o : DepArg) : State :=
  let bs := s.sramRead a.core o.src (t.bytesOf o.first o.count)
  let ls := chunksOf 64 bs.length bs
  match isPacked t.format, (List.range ls.length).find? (fun i => !lineCheckOk (ls.getD i [])) with
  | true, some i => (s.copyLines addr ls).coreMemFault a (addr + 64 * i) 5
  | _, _ =>
    let (f, s) := s.storeParts addr bs
    s.stored a addr bs.length f

/-- The zero write (R187, R216, R276). -/
def State.depositZero (s : State) (a : Attr) (t : Tensor) (addr : Nat) (o : DepArg) : State :=
  let s := s.settleReduce
  let (f, s) := s.storeParts addr ((List.range o.count).flatMap (fun _ => zeroElem t.ns))
  match f with
  | some b => s.coreMemFault a b (memSource b)
  | none => s

/-- DEPOSIT: the checks of Table 5.3 in order, then the transfer. -/
def State.deposit (s : State) (a : Attr) (j : Job) (o : DepArg) : State :=
  match j.tensor? o.tensor with
  | none => s.checkFail a (if o.zero || sramOk [(o.src, 0)] then cMemRange else cCmdBadOperand)
  | some t =>
    let v := s.depositSlot j t
    let bytes := if o.conv.isSome then sramBytes o.sfmt t.ns t.rowLen o.count else t.bytesOf o.first o.count
    if !o.zero ∧ !sramOk [(o.src, bytes)] then s.checkFail a cCmdBadOperand
    else if !s.runsIn j t v [(o.first, o.count)] then s.checkFail a cMemRange
    else if o.zero ≠ (t.format == .rbuf) then s.checkFail a cCmdBadOperand
    else match j.range? t v o.first o.count with
    | none => s.checkFail a cMemRange
    | some addr =>
      if o.zero then s.depositZero a t addr o
      else if !depositPair o.sfmt t.format o.conv.isNone then s.checkFail a cFormatMismatch
      else if isPacked t.format ∧ !wholeLines t.format t.rowLen o.first o.count then s.checkFail a cShapeMismatch
      else match o.conv with
        | none => s.depositCopy a t addr o
        | some c =>
          let k := convCode o.sfmt { c with dst := t.format } j false (some t) o.first o.count
          if k ≠ 0 then s.checkFail a k else s.depositConv a j t addr o c

/-! ### SEND, ACCEPT, CONTRIBUTE -/

/-- The send slot table of a stream's first port holds a run of that stream at schedule slot `q`; a stream without a
fabric link has no table. -/
def State.slotHolds (s : State) (c : Stream) (ctx q : Nat) : Bool :=
  c.links == 0 || match s.tableAt (c.route.getD 0 0xFF) false q with
    | some (r, _) => r.ctx == ctx
    | none => false

/-- A local core destination has V = 1 (R28); other packages translate with their own maps. -/
def State.destMapped (s : State) (c : Stream) : Bool := c.kind != 1 || c.dstHerd != s.herdIndex || s.mapped? c.dst

/-- The send slot of data held for an endpoint of this package. -/
def Held.sentAt (h : Held) (c : Stream) : Nat :=
  match h.kind with
  | .onPkg => h.due - edgeBound (coreHalf c.owner) (coreHalf c.dst)
  | _ => h.due - 30

/-- The NI send buffer of core `n` holds data of this stream and slot until its send slot has passed. -/
def State.sendUse (s : State) (n : Nat) : Nat :=
  let own (x : Nat) : Option Stream := (s.stream? x).filter (fun c => c.owner == n)
  224 * ((s.fab.sendBuf.filter (fun d => (own d.stream).isSome)).length
    + ((s.fab.held.filter (fun h => (own h.stream).any (fun c => c.links == 0 && decide (s.now ≤ s.packOf (h.sentAt c))))).map
        (fun h => (h.stream, h.seq))).eraseDups.length)

/-- The NI send buffer of 64 KiB has room for one SEND's data (Table 5.1, R134). -/
def State.sendRoom (s : State) (n : Nat) : Bool := decide (s.sendUse n + 224 ≤ 0x1_0000)

def State.send (s : State) (a : Attr) (stream seq src slot : Nat) (pairForm : Bool) : State :=
  match s.stream? stream with
  | none => s.checkFail a cCmdBadOperand
  | some c =>
    if c.owner ≠ a.core ∨ c.kind = 0 ∨ 3 < c.kind ∨ !s.slotHolds c stream slot then s.checkFail a cCmdBadOperand
    else if c.kind = 3 ∧ pairForm ≠ (bitsOf c.flags 0 1 == 1) then s.checkFail a cFormatMismatch
    else if !s.destMapped c then s.checkFail a cCmdBadOperand
    else
      let payload := s.sramRead a.core src 224
      if c.links ≠ 0 then
        { s with fab := { s.fab with sendBuf := s.fab.sendBuf ++ [{ stream, seq, slot, payload }] } }
      else
        let due := if c.kind = 1 then slot + edgeBound (coreHalf c.owner) (coreHalf c.dst) else slot + 30
        let h : Held := { due, kind := if c.kind = 1 then .onPkg else .place, stream, seq, hop := 0
                          last := seq + 1 == s.flitsOf c, payload }
        if c.kind = 3 then s.holdReduce h c else { s with fab := { s.fab with held := s.fab.held ++ [h] } }

/-- The delivery slot at core `n` of an awaited flit of the schedule in force: that of its delivery, or of the flit held for
it, or the one its receive slot table gives it (R256, R261). A stream without a fabric link has no table: its flit has a
slot once its SEND has named one. -/
def State.acceptSlot (s : State) (n stream seq : Nat) : Option Nat :=
  match s.awaited? n (stream, seq), s.stream? stream with
  | some d, _ => some d.slot
  | none, none => none
  | none, some c =>
    let edge (p due : Nat) : Nat := due + edgeBound (portHalf p) (coreHalf c.dst)
    match s.fab.held.find? (fun h => h.stream == stream && h.seq == seq && h.atEndpoint) with
    | some h => match h.kind with
      | .link p _ => some (edge p h.due)
      | _ => some h.due
    | none => s.runs.findSome? (fun r =>
        if r.recv && r.ctx == stream && r.wide == s.stp.wide && decide (r.seq ≤ seq) && decide (seq < r.seq + r.count) then
          some (edge r.port (plainNth (s.stp.origin + r.first) (seq - r.seq) + c.deltas.getD (c.links - 1) 0))
        else none)

/-- ACCEPT may issue: its delivery slot has ended (R134), or no slot of this package's tables brings the flit. -/
def State.acceptReady (s : State) (n stream seq : Nat) : Bool :=
  match s.acceptSlot n stream seq, s.stream? stream with
  | some q, _ => decide (s.packOf q < s.now)
  | none, some c => c.links != 0
  | none, none => true

/-- ACCEPT, after the end of the delivery slot: it halts if the flit is absent. -/
def State.accept (s : State) (a : Attr) (stream seq dst : Nat) : State :=
  match s.awaited? a.core (stream, seq) with
  | none => s.checkFail a cCmdBadOperand
  | some d =>
    let c := s.core a.core
    let s := s.setCore a.core { c with dlv := c.dlv.erase d }
    s.sramWrite a.core dst d.payload

/-- Bytes of a contribution in SRAM. -/
def contribBytes (kind count : Nat) : Nat :=
  if kind = 1 ∨ kind = 3 then 4 else if kind = 2 then 12 else if kind = 4 then 4 * count else 0

/-- What the package measured itself for a maxima collective (R53, R220). -/
def State.ownMax (s : State) (i : CollInst) : W32 :=
  if s.collUse i = .maxima then
    magMax (ceil32 ((getAssoc s.stp.amax i.key).getD xZero)) ((getAssoc s.stp.masterMax i.key).getD pz32)
  else pz32

/-- The values of a contribution. A norm unit's partial is the one its norm pass forms (R211; log entry 113), and a shard's reference print is that of its replica-0 owner (R297). -/
def State.contribVals (s : State) (j : Job) (i : CollInst) (core src count unit : Nat) : List CVal :=
  let bs := s.sramRead core src (contribBytes i.kind count)
  if s.collUse i = .norm ∧ i.kind = 4 then (s.ownNorm i).filter (fun v => unitOf v == unit)
  else if i.kind = 1 then [.orBits (fieldLe bs 0 4)]
  else if i.kind = 2 then [.minKey (fieldLe bs 0 4 * 2 ^ 64 + fieldLe bs 4 8)]
  else if i.kind = 3 then [.maxMag [maxMag (BitVec.ofNat 32 (fieldLe bs 0 4)) (s.ownMax i)]]
  else if i.kind = 4 then
    [.csum unit none ((List.range count).map (fun k => BitVec.ofNat 32 (fieldLe bs (4 * k) 4)))]
  else if j.replica = 0 ∧ j.shards.any (fun sh => sh.index == unit && j.owns sh) then [.print unit (s.printOf unit)]
  else []

def State.contribute (s : State) (a : Attr) (j : Job) (stream src count unit slot : Nat) : State :=
  match s.stream? stream with
  | none => s.checkFail a cCmdBadOperand
  | some c =>
    match s.inst? c.dst with
    | none => s.checkFail a cCmdBadOperand
    | some i =>
      if !sramOk [(src, contribBytes i.kind count)] ∨ c.owner ≠ a.core ∨ c.kind ≠ 4 ∨ !s.slotHolds c stream slot
          ∨ !s.destMapped c then
        s.checkFail a cCmdBadOperand
      else
        if s.lastSendPast i then s
        else
          let s := s.normPass i
          if s.issuing then s.contributeVals i.id (some stream) (s.contribVals j i a.core src count unit) else s

end Sys2Proof.Machine
end

