-- ==== Sys2Proof/Machine/Flags.lean ====
section
/-! DEFINITION. Tile passes, prescale search and repair charges (R69, R84 to R90, R110, R111), trouble monitors (R100),
and the tile status record of a stored tile (R91 to R93). -/

namespace Sys2Proof.Machine
open Sys2Proof

/-! ### Passes (R69, R87) -/

/-- What one attempt of a tile multiplies: class, chunk length, tile scale, and operand values: `a m` for row m and `b n`
for column n, over the K taken; `live i` is false for an element that a train mask leaves out (R171). -/
structure TileIn where
  cls    : DotClass
  fb     : Fmt
  c      : Bool
  s      : W32
  rows   : Nat
  cols   : Nat
  a      : Nat → List W32
  b      : Nat → List W32
  p      : Nat → Xv
  zero   : Bool
  live   : Nat → Bool

/-- One element of a pass at prescale `kp`. -/
def TileIn.elem (t : TileIn) (kp i : Nat) : ElemRun :=
  let m := i / t.cols
  let n := i % t.cols
  if t.cls = .strict then { m := strictAcc t.s (t.p i) t.zero (t.a m) (t.b n), e := 0, ovf := false }
  else elemRun t.c (chunkLen t.cls t.fb) kp t.s (t.p i) (t.a m) (t.b n)

/-- One element taken on from what it has accumulated at prescale `kp` over `n0` chunks (R69, R94). -/
def TileIn.moreElem (t : TileIn) (kp n0 : Nat) (e : AccElem) (i : Nat) : ElemRun :=
  let m := i / t.cols
  let n := i % t.cols
  if t.cls = .strict then { m := strictFrom e.1 (t.a m) (t.b n), e := 0, ovf := false }
  else
    let ps := (t.a m).zip (t.b n)
    addChunks t.c kp n0 { m := e.1, e := e.2, ovf := false } (chunksOf (chunkLen t.cls t.fb) ps.length ps)

/-- Every element taken on over the K that `t` holds. -/
def TileIn.more (t : TileIn) (kp n0 : Nat) (es : List AccElem) : List ElemRun :=
  es.zipIdx.map (fun p => t.moreElem kp n0 p.1 p.2)

/-- A pass over every element, row by row. -/
def TileIn.pass (t : TileIn) (kp : Nat) : List ElemRun := (List.range (t.rows * t.cols)).map (t.elem kp)

/-- An element that no train mask leaves out overflowed. -/
def TileIn.overflows (t : TileIn) (rs : List ElemRun) : Bool := rs.zipIdx.any (fun p => t.live p.2 && p.1.ovf)

def passElems (rs : List ElemRun) : List AccElem := rs.map (fun r => (r.m, r.e))

/-- The elements of a tile that is given up: canonical NaNs (R86, R111). -/
def nanElems (rs : List ElemRun) : List AccElem := rs.map (fun _ => (nan32, pz32))

/-- Results of a tile that ends at prescale `q`: canonical NaNs at 9 (R86). -/
def tileResults (strict : Bool) (s : W32) (q : Nat) (es : List AccElem) : List W32 :=
  if q = 9 then es.map (fun _ => nan32)
  else if strict then es.map (fun e => strictOut s e.1)
  else es.map (elemOut s q)

/-! ### Slack (R110, R111, Tables 4.5 to 4.7, 4.10) -/

def slackKey (core leaf layer : Nat) : Nat := 2 ^ 32 * core + 2 ^ 16 * leaf + layer

/-- Charges of a core's layer in this step, all leaves together. -/
def State.layerUsed (s : State) (core layer : Nat) : Nat :=
  (s.stp.charged.filter (fun e => e.1 / 2 ^ 32 == core && e.1 % 2 ^ 16 == layer)).foldl (fun n e => n + e.2) 0

/-- Show a core's current layer in CORE_NW_SLACK. -/
def State.showSlack (s : State) (core layer : Nat) : State :=
  (s.setCfld core oNwSlack 0 32 (s.layerUsed core layer)).setCfld core oNwSlack 32 16 layer

/-- The package's widen bit is set, and PF_WIDEN_CAUSE keeps the cause of the lowest layer, then core, then the first. -/
def State.raiseWiden (s : State) (core layer rung kind : Nat) : State :=
  let held := s.fld rPfWidenCause 0 16 * 2 ^ 11 + s.fld rPfWidenCause 16 11
  let s := if !s.stp.localWiden || decide (layer * 2 ^ 11 + core < held) then
      s.setReg rPfWidenCause (layer % 2 ^ 16 + 2 ^ 16 * (core % 2 ^ 11) + 2 ^ 27 * (rung % 8) + 2 ^ 30 * (kind % 4)
        + 2 ^ 32 * (s.stp.step % 2 ^ 32))
    else s
  { s with stp := { s.stp with localWiden := true } }

/-- Charge a repair of `cost` cycles to a narrow layer (R111), to its wide budget in a wide step (R117); false when it is
refused. A refused repair of the normal schedule bars every later one. -/
def State.charge (s : State) (core : Nat) (l : Ladder) (layer leaf rung cost : Nat) : Bool × State :=
  let key := slackKey core leaf layer
  let used := (getAssoc s.stp.charged key).getD 0
  let barred := !s.stp.wide && s.cfld core oNwSlack 48 1 == 1
  let budget := if s.stp.wide then l.wBudget else l.budget
  if !barred && decide (used + cost ≤ budget) then
    (true, ({ s with stp := { s.stp with charged := setAssoc s.stp.charged key (used + cost) } }).showSlack core layer)
  else
    let s := s.setCfld core oNwSlack 48 1 1
    (false, if s.stp.wide then s else s.raiseWiden core layer rung 0)

/-- Who pays for a tile's repeats: the core, its ladder record and its leaf; none for a layer that is not narrow. -/
structure Payer where
  core  : Nat
  rec_  : Ladder
  layer : Nat
  leaf  : Nat

/-- Cost of a pass of a tile over K products at a rung (Table 4.5). -/
def TileIn.cost (t : TileIn) (k : Nat) (master : Bool) : Nat := repairCost t.cls t.rows t.cols k master

/-- The end of a prescale search: the prescale, the elements, whether a repeat ran, and the state with its charges. -/
structure Found where
  q     : Nat
  elems : List AccElem
  ran   : Bool
  st    : State

/-- The prescale search from `q` on (R85 to R87): `rs` is the pass at `q`, and each repeat takes its operands from `t`, what it
reads anew. Each repeat of a narrow tile is charged before it runs. -/
def State.search (s : State) (pay : Option Payer) (t : TileIn) (k rung : Nat) (master ran : Bool) :
    (fuel q : Nat) → List ElemRun → Found
  | 0, _, rs => { q := 9, elems := nanElems rs, ran, st := s }
  | f + 1, q, rs =>
    if !t.overflows rs then { q, elems := passElems rs, ran, st := s }
    else if 8 ≤ q then { q := 9, elems := nanElems rs, ran, st := s }
    else match pay with
      | none => s.search pay t k rung master true f (q + 1) (t.pass (q + 1))
      | some p =>
        let (ok, s) := s.charge p.core p.rec_ p.layer p.leaf rung (t.cost k master)
        if ok then (s.addCfld p.core oNwCount 0 16 1).search pay t k rung master true f (q + 1) (t.pass (q + 1))
        else { q := 9, elems := nanElems rs, ran, st := s }

/-! ### Monitors (R100) -/

/-- Counts the monitors watch: saturations of the activation operand and flushes of the gradient operand, each with the
number of elements it is over. -/
structure Watch where
  sat    : Nat
  satE   : Nat
  flush  : Nat
  flushE : Nat
  deriving DecidableEq, Repr

def Watch.zero : Watch := { sat := 0, satE := 0, flush := 0, flushE := 0 }

/-- Table 4.2. A threshold of 0xFFFF disables its monitor (R101). The thresholds are those of the ladder record of the tile's own layer,
also where the core holds several narrow layers and CORE_NW_THRESH shows the first (DEDUCED, log entry 85). -/
def inTrouble (l : Ladder) (w : Watch) (nf finite : Bool) (q : Nat) : Bool :=
  (l.satThr != 0xFFFF && decide (l.satThr * w.satE < 65536 * w.sat))
    || (l.flushThr != 0xFFFF && decide (l.flushThr * w.flushE < 65536 * w.flush))
    || (nf && finite) || q == 9

/-! ### Stored tiles (R74, R91 to R93, R171) -/

/-- A stored tile: the bytes of each row, its status record and its first non-finite element, scent bits and the
values measured. -/
structure Stored where
  rows   : List (List Byte)
  nf     : Bool
  record : List Byte
  first  : Nat
  bits   : List (Nat × Nat)
  max    : Xv

/-- A group computes a weight gradient: the command says so of a narrow layer's product; of any other, its operand B is read ROW,
where a backward-data product reads it COL (Table 6.1). -/
def isWeightGrad (o : OpenArg) : Bool :=
  match o.narrow with
  | some n => n.kind == .weightGrad
  | none => o.orient == 0

/-- Element `e` of a group's output takes part: a mask leaves out elements of weight-gradient tiles only, never of a
backward-data product or of a tensor outside the gradient class (R171, R173). -/
def Job.outLive (j : Job) (o : OpenArg) (out : Tensor) (e : Nat) : Bool :=
  out.cls != 1 || !isWeightGrad o || j.trainedAt out e

/-- The same by tile element. -/
def Job.tileLive (j : Job) (o : OpenArg) (t : TileArg) (i : Nat) : Bool :=
  (j.tensor? o.out).all (fun out => j.outLive o out (tileIndex t out.rowLen i))

end Sys2Proof.Machine
end

