-- ==== Sys2Proof/Machine/Lattice.lean ====
section
/-! DEFINITION. The lattice commands OPEN and ACCUMULATE (chapters "Dot Products and Accumulators" and "The Backward
Pass", Table 3.6, R64 to R90, R148, R152). -/

namespace Sys2Proof.Machine
open Sys2Proof

/-- The tile scale (R68). -/
def tileScale (fa fb : Fmt) (sA sB : W32) : W32 := rne32s (xMul (valT32 (dstScale fa sA)) (valT32 (dstScale fb sB)))

/-- Scale of the preload source (Table 3.5). -/
def preloadScale : Preload → W32
  | .zero => t32One
  | .bias f w _ _ => dstScale f w
  | .residual f w _ => dstScale f w
  | .undefinedKind _ => t32One

def isZeroPreload : Preload → Bool
  | .zero => true
  | _ => false

/-! ### The operands of an open group -/

/-- Row m of a tile's operand A over the K taken. -/
def Tile.rowA (t : Tile) (m : Nat) : List W32 := t.hist.flatMap (fun h => (h.a.drop (m * h.arg.kLen)).take h.arg.kLen)

/-- Column n of a tile's operand B over the K taken. -/
def Tile.colB (t : Tile) (n : Nat) : List W32 := t.hist.flatMap (fun h => (h.b.drop (n * h.arg.kLen)).take h.arg.kLen)

/-- The preload value p of tile element `k` (R69, R80). -/
def Group.preVal (g : Group) (t : Tile) (k : Nat) : Xv := xMul (valT32 (t.pre.getD k 0)) (valT32 (preloadScale g.o.preload))

/-- A tile of a group as compiled (rung 0). -/
def Group.tileIn (g : Group) (j : Job) (t : Tile) : TileIn :=
  { cls := g.cls, fb := g.o.fb, c := g.o.a32c == 1, s := tileScale g.o.fa g.o.fb g.o.sA g.o.sB, rows := t.arg.rows
    cols := t.arg.cols, a := t.rowA, b := t.colB, p := g.preVal t, zero := isZeroPreload g.o.preload
    live := j.tileLive g.o t.arg }

/-- Who pays for the repeats of a group's tiles (R96, R111). -/
def State.payer (s : State) (core : Nat) (g : Group) : Option Payer :=
  g.o.narrow.bind (fun n => (s.job.bind (fun j => j.ladders[n.layer]?)).map (fun l =>
    { core, rec_ := l, layer := n.layer, leaf := n.leaf }))


/-- The preload values of a tile, row by row, and whether one was flushed (Table 3.5). A source range outside its tensor or not
placed ends as MEM_OUT_OF_RANGE, an unknown tensor as CMD_BAD_OPERAND: the spec names no code (DESIGN CHOICE, log entry 134). -/
def State.readPreload (s : State) (j : Job) (o : OpenArg) (t : TileArg) : Fetch :=
  let rows (x : Nat) (start : Nat → Nat) : Fetch := match j.tensor? x with
    | none => .bad cCmdBadOperand
    | some u => (List.range t.rows).foldl (fun acc m => match acc with
        | .ok vs n => match s.readElems j u (s.readSlot j u) (start m) t.cols with
          | .ok ws k => .ok (vs ++ ws) (n + k)
          | f => f
        | f => f) (.ok [] 0)
  match o.preload with
  | .bias _ _ x first => rows x (fun _ => first + t.n0)
  | .residual _ _ x => match j.tensor? x with
    | some u => rows x (fun m => (t.m0 + m) * u.rowLen + t.n0)
    | none => .bad cCmdBadOperand
  | _ => .ok (List.replicate (t.rows * t.cols) xZero) 0

/-! ### Operands in data SRAM -/

/-- Element (r, c) of a matrix in data SRAM with `row` columns, rows one after another (packed rows in whole lines); as a
T32 pattern, and whether a subnormal was flushed. -/
def State.sramElem (s : State) (core off : Nat) (f : Fmt) (row r c : Nat) (flush : Bool) : W32 × Bool :=
  if isPacked f then
    let l := s.sramRead core (off + 64 * (r * linesPerRow f row + c / codesPerLine f)) 64
    let code := (unpackCodes (codeBits f) (slice l 8 56)).getD (c % codesPerLine f) 0
    (rne32s (lineElem f (BitVec.ofNat 32 (fieldLe l 0 4)) code), false)
  else
    let z := elemSize f 1
    let v := readElem f flush (ofLe (s.sramRead core (off + z * (r * row + c)) z))
    (rne32s v.1, v.2)

/-- The subnormal mode of an operand: that of its tensor's class (R54, R67); KEEP for one that names no tensor (DESIGN CHOICE, log
entry 134). -/
def Job.operandFlush (j : Job) (t : Option Nat) : Bool := (t.bind j.tensor?).any (fun x => j.flush x.cls)

/-- Operand A: rows × kLen values, row by row. -/
def State.readA (s : State) (core : Nat) (j : Job) (g : Group) (o : AccArg) : List (W32 × Bool) :=
  let fl := j.operandFlush g.o.ta
  (List.range o.rows).flatMap (fun m => (List.range o.kLen).map (fun k =>
    s.sramElem core o.aOff o.fa o.kLen m k fl))

/-- Operand B of a tile of `n` columns: column by column. ROW: kLen stored rows of n; COL: n stored rows of kLen (R148). -/
def State.readB (s : State) (core : Nat) (j : Job) (g : Group) (o : AccArg) (off n : Nat) : List (W32 × Bool) :=
  let fl := j.operandFlush g.o.tb
  (List.range n).flatMap (fun c => (List.range o.kLen).map (fun k =>
    if g.o.orient = 0 then s.sramElem core off o.fb n k c fl else s.sramElem core off o.fb o.kLen c k fl))

/-- SRAM bytes of operand B of a tile. -/
def bBytes (f : Fmt) (orient n kLen : Nat) : Nat :=
  if orient = 0 then sramBytes f 1 n (kLen * n) else sramBytes f 1 kLen (n * kLen)

/-- Data SRAM ranges that an ACCUMULATE reads: operand A, then each tile's operand B. -/
def accRanges (orient : Nat) (o : AccArg) : List (Nat × Nat) :=
  (o.aOff, sramBytes o.fa 1 o.kLen (o.rows * o.kLen))
    :: (o.bOff.zip o.cols).map (fun p => (p.1, bBytes o.fb orient p.2 o.kLen))

/-- The weight of a product is an instar of a past version (R104, R184): its tensor's stage tells, or the command where it names
none. -/
def State.pastWeight (s : State) (j : Job) (o : OpenArg) (n : NarrowArg) : Bool :=
  match o.tb.bind j.tensor? with
  | some t => decide (0 < min t.stage s.stp.v) && t.kind == kWorking
  | none => n.instar

/-! ### Repeats (R80, R87) -/

/-- The parts of kept byte ranges that lie in a range. -/
def keptIn (bytes : List (Nat × List Byte)) (off len : Nat) : List (Nat × List Byte) :=
  bytes.filterMap (fun p =>
    let lo := max off p.1
    let hi := min (off + len) (p.1 + p.2.length)
    if lo < hi then some (lo, (p.2.drop (lo - p.1)).take (hi - lo)) else none)

/-- Bytes written straight into data SRAM, in order. -/
def State.putBytes (s : State) (core : Nat) (ps : List (Nat × List Byte)) : State :=
  ps.foldl (fun s p => s.setCore core { s.core core with sram := mapSetRun memDefault (s.core core).sram p.1 p.2 }) s

/-- Re-issue the transfers that fed an ACCUMULATE, on a copy of the state: data SRAM starts as the command read it, each
transfer brings what its source holds now, and what another command wrote over it is put back. -/
def State.reissue (s : State) (core : Nat) (j : Job) (h : AccFeed) : Fetch ⊕ State :=
  h.feeds.foldl (fun (acc : Fetch ⊕ State) f => match acc with
    | .inl x => .inl x
    | .inr s => match f.ret with
      | none => .inr (s.putBytes core (keptIn h.bytes f.off f.len))
      | some o => match j.tensor? o.tensor with
        | none => .inr s
        | some t => match s.retrieveData j t (s.readSlot j t) o f.runs with
          | .inl x => .inl x
          | .inr d => .inr ((s.putBytes core [(o.dst, d.bytes)]).setXfer core (d.stat o.conv))) (.inr (s.putBytes core h.bytes))

/-- What tile `i` of a group takes from an ACCUMULATE, as data SRAM holds it. -/
def State.tileAcc (s : State) (core : Nat) (j : Job) (g : Group) (i : Nat) (o : AccArg) : TileAcc :=
  let av := s.readA core j g o
  let bv := s.readB core j g o (o.bOff.getD i 0) (o.cols.getD i 0)
  { arg := o, a := av.map (·.1), b := bv.map (·.1), flA := (av.filter (·.2)).length, flB := (bv.filter (·.2)).length }

/-- A tile read anew, and the status of the last transfer re-issued for it (R55). -/
structure Reread where
  tile : Tile
  stat : ConvStat

/-- What a tile has taken, read anew from its sources, each ACCUMULATE in turn; `x` is the status of the transfers before. -/
def State.rereadHist (s : State) (core : Nat) (j : Job) (g : Group) (i : Nat) (x : ConvStat) :
    List AccFeed → Fetch ⊕ (List TileAcc × ConvStat)
  | [] => .inr ([], x)
  | h :: rest => match (s.setXfer core x).reissue core j h with
    | .inl x => .inl x
    | .inr u => match s.rereadHist core j g i (u.core core).xferStat rest with
      | .inl x => .inl x
      | .inr (hs, x) => .inr (u.tileAcc core j g i h.arg :: hs, x)

/-- A tile with its preload and its operands read anew, as every repeat and every rung reads them (R80, R87, R103). -/
def State.reread (s : State) (core : Nat) (j : Job) (g : Group) (i : Nat) (t : Tile) : Fetch ⊕ Reread :=
  match s.readPreload j g.o t.arg, s.rereadHist core j g i (s.core core).xferStat g.hist with
  | .ok vs n, .inr (hist, x) => .inr { tile := { t with pre := vs.map rne32s, preFl := decide (0 < n), hist }, stat := x }
  | .ok _ _, .inl f => .inl f
  | f, _ => .inl f

/-- A wide pass of a narrow layer reads the master, unless its weight is an instar (R117). -/
def State.readsMaster (s : State) (j : Job) (g : Group) : Bool :=
  s.stp.wide && g.o.narrow.any (fun n => n.master.isSome && !s.pastWeight j g.o n)

/-- The first attempt of a tile at its prescale: from its preload at OPEN, then one ACCUMULATE at a time on top of what it has
accumulated, so that a restored tile goes on from the values its image holds (R94). -/
def Group.attempt (g : Group) (j : Job) (t : Tile) : List ElemRun :=
  match t.elems, t.hist.getLast? with
  | _ :: _, some h =>
    (g.tileIn j { t with hist := [h] }).more t.q (ceilDiv (g.k - h.arg.kLen) (chunkLen g.cls g.o.fb)) t.elems
  | _, _ => (g.tileIn j t).pass t.q

/-- Bring a tile up to date: an overflowing tile repeats from OPEN with the next prescale, before the next command (R87); a
tile that was given up stays so (R111). A repeat whose sources read uncorrectable ends the command. -/
def State.settleTile (s : State) (core : Nat) (j : Job) (g : Group) (i : Nat) (t : Tile) : Option Fetch × Tile × State :=
  if t.q = 9 then (none, t, s)
  else
    let rung := if s.stp.wide then 7 else 0
    let new := s.reread core j g i t
    let t' := match new with
      | .inr x => x.tile
      | .inl _ => t
    let r := s.search (s.payer core g) (g.tileIn j t') g.k rung (s.readsMaster j g) false 9 t.q (g.attempt j t)
    match r.ran, new with
    | true, .inl f => (some f, { t' with q := r.q, elems := r.elems }, r.st)
    | true, .inr x => (none, { t' with q := r.q, elems := r.elems }, r.st.setXfer core x.stat)
    | false, _ => (none, { t with q := r.q, elems := r.elems }, r.st)

/-- Every tile of a group in turn; the first fault that a repeat meets. -/
def State.settleTiles (s : State) (core : Nat) (j : Job) (g : Group) : Option Fetch × List Tile × State :=
  (List.range g.tiles.length).foldl (fun (acc : Option Fetch × List Tile × State) i =>
    match g.tiles[i]? with
    | some t =>
      let (f, t, s) := acc.2.2.settleTile core j g i t
      (acc.1.orElse (fun _ => f), acc.2.1 ++ [t], s)
    | none => acc) (none, [], s)

def State.putGroup (s : State) (core n : Nat) (g : Group) : State :=
  let c := s.core core
  s.setCore core { c with groups := setAssoc c.groups n g }

def State.group? (s : State) (core n : Nat) : Option Group := getAssoc (s.core core).groups n

/-! ### OPEN -/

/-- Bytes of a tile's accumulator region (R79). -/
def accRegion (cls : DotClass) (c : Bool) (rows : Nat) : Nat := rows * tileWidth cls * (if c then 8 else 4)

/-- Regions of every open tile of a core. -/
def CoreSt.regions (c : CoreSt) : List (Nat × Nat) :=
  c.groups.flatMap (fun e => e.2.tiles.map (fun t => (t.arg.acc, accRegion e.2.cls (e.2.o.a32c == 1) t.arg.rows)))

/-- R79 for the tiles of an OPEN, `used` being the regions taken before. -/
def regionsOk (cls : DotClass) (c : Bool) : List (Nat × Nat) → List TileArg → Bool
  | _, [] => true
  | used, t :: rest =>
    let n := accRegion cls c t.rows
    decide (1 ≤ t.cols) && decide (t.cols ≤ tileWidth cls) && decide (1 ≤ t.rows) && decide (t.rows ≤ maxRows cls c)
      && t.acc % 256 == 0 && decide (t.acc + n ≤ 0x2_0000) && used.all (fun u => !overlap t.acc n u.1 u.2)
      && regionsOk cls c ((t.acc, n) :: used) rest

/-- The tile lies in its output (seen as rows of the last dimension), and its record in the status array (R82, R91). -/
def Job.tileInside (j : Job) (out : Tensor) (t : TileArg) : Bool :=
  decide (t.n0 + t.cols ≤ out.rowLen) && decide (t.m0 + t.rows ≤ out.numel / out.rowLen)
    && (match j.tensor? out.status with
      | some st => decide (t.recIdx < st.numel)
      | none => true)

/-- A packed output is covered in whole lines (R74). -/
def tileWhole (out : Tensor) (t : TileArg) : Bool :=
  !isPacked out.format || wholeLines out.format out.rowLen t.n0 t.cols

/-- An operand tensor that must not be a lattice operand: scent (R155), or gradient-class in another format than T8G, T16
or T32 (R152). -/
def Job.operandBad (j : Job) (t : Option Nat) (f : Fmt) : Bool :=
  match t.bind j.tensor? with
  | some x => x.format == .scent || x.kind == 3 || (x.cls == 1 && !(f == .t8g || f == .t16 || f == .t32))
  | none => false

/-- An output has an element format or a packed data format, and a gradient-class one is in T8G, T16 or T32 (R74, R152). -/
def gradientOk (t : Tensor) : Bool :=
  (isElemFmt t.format || t.format == .w2 || t.format == .w1 || t.format == .m8bs || t.format == .m8bu)
    && (t.cls != 1 || t.format == .t8g || t.format == .t16 || t.format == .t32)

/-- The preload source has a format that Table 3.5 lists: the one its command names and the one its tensor has. Table 3.6 names no
code for a preload kind that Table 3.5 does not define: the model takes it as a format mismatch (DESIGN CHOICE, log entry 134). -/
def Job.preloadFmtOk (j : Job) (p : Preload) : Bool :=
  let same (f : Fmt) (x : Nat) : Bool := (j.tensor? x).all (fun u => u.format == f)
  match p with
  | .zero => true
  | .bias f _ x _ => (f == .t16 || f == .t32) && same f x
  | .residual f _ x => (f == .t8f || f == .t8g || f == .t16 || f == .t32) && same f x
  | .undefinedKind _ => false

/-- The operand scales and the preload scale are positive, finite and normal (R52). -/
def openScalesOk (o : OpenArg) : Bool :=
  scaleOk (dstScale o.fa o.sA) && scaleOk (dstScale o.fb o.sB) && scaleOk (preloadScale o.preload)

/-- The preload with its source's current scale. -/
def State.resolvePreload (s : State) (j : Job) (p : Preload) : Preload :=
  match p with
  | .bias f w t n => .bias f (s.operandScale j (some t) f w) t n
  | .residual f w t => .residual f (s.operandScale j (some t) f w) t
  | p => p

/-- The OPEN with the scales in force: in a wide step a weight read from its master has s_fb (R117). -/
def State.resolveOpen (s : State) (j : Job) (o : OpenArg) : OpenArg :=
  let sB := match s.stp.wide, o.narrow with
    | true, some n => match n.master with
      | some m => if n.kind != .weightGrad && !s.pastWeight j o n then s.fallback m else s.operandScale j o.tb o.fb o.sB
      | none => s.operandScale j o.tb o.fb o.sB
    | _, _ => s.operandScale j o.tb o.fb o.sB
  { o with sA := s.operandScale j o.ta o.fa o.sA, sB, preload := s.resolvePreload j o.preload }

/-- The first check of OPEN that fails, in the order of Table 3.6; 0 when all pass. The scales that the command supplies and those
in force are both checked (R52), and the tile scale of those in force (R68). -/
def State.openCode (s : State) (core : Nat) (j : Job) (o : OpenArg) : Nat :=
  let c := s.core core
  let r := s.resolveOpen j o
  match pairClass o.strict o.fa o.fb, j.tensor? o.out with
  | cls?, out? =>
    let cls := cls?.getD .c8
    if 8 ≤ c.groups.length ∨ 32 < (c.groups.flatMap (fun e => e.2.tiles)).length + o.tiles.length then cGroupLimit
    else if cls?.isNone || j.operandBad o.ta o.fa || j.operandBad o.tb o.fb || !out?.all gradientOk then cFormatMismatch
    else if !regionsOk cls (o.a32c == 1) c.regions o.tiles || !openScalesOk o || !openScalesOk r
        || !scaleOk (tileScale r.fa r.fb r.sA r.sB) then cCmdBadOperand
    else if o.strict && o.a32c != 0 then cCmdBadOperand
    else if !j.preloadFmtOk o.preload then cFormatMismatch
    else if (s.group? core o.group).isSome || o.tiles.isEmpty || decide (8 ≤ o.group) || decide (1 < o.orient)
        || decide (1 < o.a32c) then cCmdBadOperand
    else match out? with
      | none => cCmdBadOperand
      | some out =>
        if !o.tiles.all (j.tileInside out) then cCmdBadOperand
        else if !o.tiles.all (tileWhole out) then cShapeMismatch else 0

/-- Open the tiles one by one, reading each preload; the fetch that fails, if any. -/
def State.openTiles (s : State) (j : Job) (o : OpenArg) : List TileArg → Fetch ⊕ List Tile
  | [] => .inr []
  | t :: rest => match s.readPreload j o t with
    | .ok vs n => match s.openTiles j o rest with
      | .inl f => .inl f
      | .inr ts => .inr ({ arg := t, pre := vs.map rne32s, preFl := decide (0 < n), q := 0, elems := [], hist := [] } :: ts)
    | f => .inl f

/-- OPEN. -/
def State.openGroup (s : State) (a : Attr) (j : Job) (o : OpenArg) : State :=
  let code := s.openCode a.core j o
  let o := s.resolveOpen j o
  if code ≠ 0 then s.checkFail a code
  else match s.openTiles j o o.tiles with
    | .inl f => s.fetchFails a f
    | .inr ts =>
      let g : Group := { o, tiles := ts, k := 0, ended := false, hist := [] }
      let s := match o.narrow with
        | some n => s.showSlack a.core n.layer
        | none => s
      let (f, ts, s) := s.settleTiles a.core j g
      match f with
      | some f => s.fetchFails a f
      | none => s.putGroup a.core o.group { g with tiles := ts }

/-! ### ACCUMULATE -/

/-- The first check of ACCUMULATE that fails, in the order of Table 3.6; 0 when all pass. -/
def accCode (g : Group) (o : AccArg) : Nat :=
  let L := chunkLen g.cls g.o.fb
  if o.fa ≠ g.o.fa ∨ o.fb ≠ g.o.fb then cFormatMismatch
  else if !g.tiles.all (fun t => t.arg.rows == o.rows) ∨ o.cols ≠ g.tiles.map (·.arg.cols) ∨ o.bOff.length ≠ o.cols.length
      ∨ (g.cls = .narrowBlock ∧ !(g.o.alongB && g.o.orient == 1)) then cShapeMismatch
  else if o.k ≠ g.o.k0 + g.k ∨ g.ended then cKOrder
  else if 2 ^ 22 < ceilDiv (g.k + o.kLen) L then cCmdBadOperand else 0

/-- A group that has taken one ACCUMULATE more: the K length, whether K has ended (R81), and what each tile reads. -/
def State.takes (s : State) (n : Nat) (j : Job) (g : Group) (o : AccArg) : Group :=
  let rs := accRanges g.o.orient o
  let h : AccFeed := { arg := o, bytes := rs.map (fun r => (r.1, s.sramRead n r.1 r.2))
                       feeds := (s.core n).feeds.filter (fun f => rs.any (fun r => overlap r.1 r.2 f.off f.len)) }
  let k := g.k + o.kLen
  { g with k, ended := k % chunkLen g.cls g.o.fb != 0, hist := g.hist ++ [h]
           tiles := (List.range g.tiles.length).filterMap (fun i => (g.tiles[i]?).map (fun t =>
             { t with hist := t.hist ++ [s.tileAcc n j g i o] })) }

/-- ACCUMULATE; a K length of 0 is accepted by any open group and has no effect on it (R81). -/
def State.accumulate (s : State) (a : Attr) (j : Job) (o : AccArg) : State :=
  let n := a.core
  let orient := match s.group? n o.group with
    | some g => g.o.orient
    | none => 0
  let rs := accRanges orient o
  if !sramOk rs then s.checkFail a cCmdBadOperand
  else match s.group? n o.group with
    | none => s.checkFail a cGroupNotOpen
    | some g =>
      let code := accCode g o
      if o.kLen = 0 then s
      else if code ≠ 0 then s.checkFail a code
      else
        let g := s.takes n j g o
        let (f, ts, s) := s.settleTiles n j g
        match f with
        | some f => s.fetchFails a f
        | none => s.putGroup n o.group { g with tiles := ts }

end Sys2Proof.Machine
end

