-- ==== Sys2Proof/Machine/Ladder.lean ====
section
/-! DEFINITION. CLOSE: the ladder of a narrow layer's tile (R98 to R112), the store path and the status record (R74, R91 to
R93, R171, R209). -/

namespace Sys2Proof.Machine
open Sys2Proof

/-! ### Roles, rungs and the ladder top (Table 4.4, R103, R104) -/

/-- A compiled operand tensor is gradient-class. -/
def Job.isGrad (j : Job) (t : Option Nat) : Bool := (t.bind j.tensor?).any (fun x => x.cls == 1)

/-- Operand A, operand B is the gradient operand; operand B is the weight. -/
def Job.gradA (j : Job) (o : OpenArg) (n : NarrowArg) : Bool :=
  n.kind == .backData || (n.kind == .weightGrad && j.isGrad o.ta)
def Job.gradB (j : Job) (o : OpenArg) (n : NarrowArg) : Bool := n.kind == .weightGrad && !j.gradA o n
def weightB (n : NarrowArg) : Bool := n.kind != .weightGrad

/-- The compiled format of the activation operand, where there is one. -/
def Job.actFmt (j : Job) (o : OpenArg) (n : NarrowArg) : Option Fmt :=
  match n.kind with
  | .forward => some o.fa
  | .backData => none
  | .weightGrad => some (if j.gradA o n then o.fb else o.fa)

/-- The package holds the master that the product names. -/
def Job.masterHeld (j : Job) (n : NarrowArg) : Bool := n.master.any (fun m => j.places.any (fun p => p.tensor == m))

/-- Rungs 3 and 4 read the master of a weight that is no instar of a past version (R104). -/
def State.masterReadable (s : State) (j : Job) (o : OpenArg) (n : NarrowArg) : Bool :=
  weightB n && !s.pastWeight j o n && j.masterHeld n

def State.rungExists (s : State) (j : Job) (o : OpenArg) (n : NarrowArg) (r : Nat) : Bool :=
  if r = 1 then j.actFmt o n == some .i8
  else if r = 3 ∨ r = 4 then s.masterReadable j o n else decide (r ≤ 4)

/-- The ladder top of a product (R104). -/
def State.ladderTop (s : State) (j : Job) (l : Ladder) (o : OpenArg) (n : NarrowArg) : Nat :=
  if s.masterReadable j o n then l.top else min l.top 2

/-- The next rung above `r`, none at the top. -/
def State.nextRung (s : State) (j : Job) (l : Ladder) (o : OpenArg) (n : NarrowArg) (r : Nat) : Option Nat :=
  ((List.range 5).filter (fun x => decide (r < x) && decide (x ≤ s.ladderTop j l o n) && s.rungExists j o n x)).head?

/-- Format of an activation or gradient operand at a rung. -/
def rungFmt (r : Nat) (grad : Bool) (compiled : Fmt) : Fmt :=
  if 2 ≤ r then .t16 else if r = 1 ∧ !grad then .t8f else compiled

/-! ### Operands of a rung (R98, R103, R106) -/

/-- Operand values of one ACCUMULATE at a rung: the saturations and flushes of their conversion, the subnormals flushed where the
codes are read as operands, and the record of the transfer that brought them, if one was re-issued. -/
structure Rungs where
  vals   : List W32
  sat    : Nat
  flush  : Nat
  readFl : Nat
  stat   : Option ConvStat

/-- Read elements of a tensor, times its scale, with the number of subnormals flushed. -/
def State.srcFetch (s : State) (j : Job) (t : Tensor) : List Nat → Fetch ⊕ (List Xv × Nat)
  | [] => .inr ([], 0)
  | e :: rest => match s.readElems j t (s.readSlot j t) e 1 with
    | .ok vs n => match s.srcFetch j t rest with
      | .inl f => .inl f
      | .inr (xs, m) => .inr (xMul (vs.headD .nan) (valT32 (s.scaleAt j t)) :: xs, n + m)
    | f => .inl f

/-- Operand values of converted codes, with the counts of the conversions, of the read of the codes as operands, and the record of
the transfer. -/
def rungsOf (f : Fmt) (opFlush : Bool) (cs : List Cvt) (stat : ConvStat) : Rungs :=
  let vs := cs.map (fun c => readElem f opFlush c.code)
  { vals := vs.map (fun v => rne32s v.1), sat := (cs.filter (·.sat)).length, flush := (cs.filter (·.flushed)).length
    readFl := (vs.filter (·.2)).length, stat := some stat }

/-- Convert source elements into a rung's format with a scale; `rnd` gives each element's rounding. -/
def State.rungConv (s : State) (j : Job) (src : Nat) (es : List Nat) (f : Fmt) (scale : W32) (flush : Bool)
    (rnd : Nat → Rnd) : Fetch ⊕ Rungs :=
  match j.tensor? src with
  | none => .inl (.bad cMemRange)
  | some t => match s.srcFetch j t es with
    | .inl x => .inl x
    | .inr (xs, reads) =>
      let cs := (es.zip xs).map (fun (p : Nat × Xv) =>
        (p.1, convElem f (rnd p.1) flush (xDiv p.2 (valT32 (dstScale f scale)))))
      .inr (rungsOf f flush (cs.map (·.2)) (convStat reads cs))

/-! ### The transfers that feed an operand (R98, R103) -/

/-- Places in data SRAM of the elements of operand A, row by row. -/
def placesA (o : AccArg) : List Nat :=
  (List.range o.rows).flatMap (fun m => (List.range o.kLen).map (fun k => o.aOff + elemSize o.fa 1 * (m * o.kLen + k)))

/-- Places of the elements of operand B of a tile of `n` columns at `off`, column by column (R148). -/
def placesB (orient : Nat) (o : AccArg) (off n : Nat) : List Nat :=
  (List.range n).flatMap (fun c => (List.range o.kLen).map (fun k =>
    off + elemSize o.fb 1 * (if orient = 0 then k * n + c else c * o.kLen + k)))

/-- The transfer that converted the element of format `f` at place `p`, by its number among `fs`, and the element's number in it; none
where the place's last writer is no such transfer. -/
def feedAt (f : Fmt) (fs : List Feed) (p : Nat) : Option (Nat × Nat) :=
  ((fs.zipIdx.filter (fun x => decide (x.1.off ≤ p) && decide (p < x.1.off + x.1.len))).getLast?).bind (fun x =>
    if x.1.ret.any (fun o => o.conv.any (fun c => c.dst == f)) then some (x.2, (p - x.1.off) / elemSize f 1) else none)

/-- Where the transfers of an ACCUMULATE bring each element from; none unless they bring every one. -/
def feedsAt (f : Fmt) (h : AccFeed) (ps : List Nat) : Option (List (Nat × Nat)) :=
  let xs := ps.filterMap (feedAt f h.feeds)
  if xs.length = ps.length then some xs else none

/-- Re-issue one transfer with its target format changed to `f` and its scale to `scale`, rounding to nearest even (R98). -/
def State.feedConv (s : State) (j : Job) (x : Feed) (f : Fmt) (scale : W32) : Fetch ⊕ (List Cvt × ConvStat) :=
  match x.ret.bind (fun o => o.conv.map (fun c => (o, c))) with
  | none => .inr ([], ConvStat.fresh)
  | some (o, c) => match j.tensor? o.tensor with
    | none => .inl (.bad cMemRange)
    | some t => match s.convRead j t (s.readSlot j t) o c x.runs with
      | .inl e => .inl e
      | .inr (xs, reads) =>
        let cs := xs.map (fun (p : Nat × Exact) => (p.1, s.convOne j { c with dst := f } false 0 p.1 (dstScale f scale) (s.convFlush j t c) p.2.v))
        .inr (cs.map (·.2), convStat reads cs)

/-- The same for every transfer of a list that `need` names. -/
def State.feedConvs (s : State) (j : Job) (f : Fmt) (scale : W32) (need : List Nat) :
    List (Feed × Nat) → Fetch ⊕ (List (List Cvt) × ConvStat)
  | [] => .inr ([], ConvStat.fresh)
  | x :: rest =>
    if !need.contains x.2 then
      match s.feedConvs j f scale need rest with
      | .inl e => .inl e
      | .inr (cs, st) => .inr ([] :: cs, st)
    else match s.feedConv j x.1 f scale with
      | .inl e => .inl e
      | .inr (c, st) => match s.feedConvs j f scale need rest with
        | .inl e => .inl e
        | .inr (cs, st') => .inr (c :: cs, if rest.any (fun y => need.contains y.2) then st' else st)

/-- Source indices of operand A, accumulate by accumulate: (m, k) at first + m·stride + k. -/
def srcIdxA (h : TileAcc) : List Nat :=
  (List.range h.arg.rows).flatMap (fun m => (List.range h.arg.kLen).map (fun k => h.arg.srcA.1 + m * h.arg.srcA.2 + k))

/-- Source indices of operand B of a tile, column by column: `at` = (first, stride), columns counted in the output. -/
def srcIdxB (orient : Nat) (src : Nat × Nat) (t : TileArg) (kLen : Nat) : List Nat :=
  (List.range t.cols).flatMap (fun n => (List.range kLen).map (fun k =>
    if orient = 0 then src.1 + k * src.2 + (t.n0 + n) else src.1 + (t.n0 + n) * src.2 + k))

/-- An operand that comes from a ladder source: the source and compiled tensors, the compiled format and the rung's, the tensor
scale, the subnormal mode, the DRAW of its compiled conversion. -/
structure RungOp where
  src   : Option Nat
  t     : Option Nat
  fmt   : Fmt
  dst   : Fmt
  scale : W32
  flush : Bool
  draw  : Nat

/-- Rounding of the compiled conversion (rung 0) of an operand tensor; to nearest even at every higher rung, also of the gradient
operand that rung 1 leaves as compiled (R98, R103; DEDUCED, log entry 135). -/
def State.rungRnd (s : State) (j : Job) (r : Nat) (q : RungOp) (e : Nat) : Rnd :=
  match r, q.t.bind j.tensor? with
  | 0, some x => s.rndOf j q.dst x.sr q.draw x.index e
  | _, _ => .rne

/-- One operand of one ACCUMULATE at rung `r`, `ps` being its places in data SRAM, `es` its source indices and `keep` the values
read. At rung 0 the counts are those of the transfers that fed it; at a higher rung those transfers are re-issued in the rung's
format. An operand that they do not bring whole is converted from its ladder source, by index (log entry 135). -/
def State.rungOne (s : State) (j : Job) (r : Nat) (q : RungOp) (h : AccFeed) (ps es : List Nat) (keep : List W32) : Fetch ⊕ Rungs :=
  match feedsAt q.fmt h ps, q.src with
  | some xs, _ =>
    if r = 0 then
      let ms := xs.map (fun x => ((h.feeds[x.1]?).bind (fun f => f.marks[x.2]?)).getD (false, false))
      .inr { vals := keep, sat := (ms.filter (·.1)).length, flush := (ms.filter (·.2)).length, readFl := 0, stat := none }
    else match s.feedConvs j q.dst q.scale (xs.map (·.1)).eraseDups h.feeds.zipIdx with
      | .inl e => .inl e
      | .inr (cs, st) =>
        .inr (rungsOf q.dst q.flush (xs.map (fun x => (cs.getD x.1 []).getD x.2 { code := 0 })) st)
  | none, some src => match s.rungConv j src es q.dst q.scale q.flush (s.rungRnd j r q) with
    | .inl e => .inl e
    | .inr x => .inr (if r = 0 then { x with vals := keep, readFl := 0, stat := none } else x)
  | none, none => .inr { vals := keep, sat := 0, flush := 0, readFl := 0, stat := none }

/-- An operand over every ACCUMULATE: the values of each, the counts together, the record of the last transfer. -/
structure RungAll where
  vals   : List (List W32)
  sat    : Nat
  flush  : Nat
  readFl : Nat
  stat   : Option ConvStat

/-- An operand of every ACCUMULATE in turn. -/
def rungAll : List (Fetch ⊕ Rungs) → Fetch ⊕ RungAll
  | [] => .inr { vals := [], sat := 0, flush := 0, readFl := 0, stat := none }
  | .inl e :: _ => .inl e
  | .inr x :: rest => match rungAll rest with
    | .inl e => .inl e
    | .inr y => .inr { vals := x.vals :: y.vals, sat := x.sat + y.sat, flush := x.flush + y.flush
                       readFl := x.readFl + y.readFl, stat := y.stat.orElse (fun _ => x.stat) }

/-- An operand that keeps the values read. -/
def rungKept (vs : List (List W32)) : RungAll := { vals := vs, sat := 0, flush := 0, readFl := 0, stat := none }

/-- The values an accumulate list gives row or column `i`, `kLen` at a time. -/
def pickRow (hs : List TileAcc) (vs : List (List W32)) (i : Nat) : List W32 :=
  (hs.zip vs).flatMap (fun p => (p.2.drop (i * p.1.arg.kLen)).take p.1.arg.kLen)

/-- What a rung multiplies, what its monitors watch, whether a read of its operands or its preload flushed a subnormal, and the
record of the last transfer it re-issued. -/
structure RungIn where
  ti      : TileIn
  watch   : Watch
  finite  : Bool
  flushed : Bool
  stat    : Option ConvStat

/-- Every value is finite. -/
def allFin (xs : List W32) : Bool := xs.all fin32

/-- Operand formats of a rung (Table 4.4). -/
def Job.rungFmts (j : Job) (o : OpenArg) (n : NarrowArg) (r : Nat) : Fmt × Fmt :=
  (rungFmt r (j.gradA o n) o.fa,
   if weightB n then (if r = 3 then .t8f else if r = 4 then .t16 else o.fb) else rungFmt r (j.gradB o n) o.fb)

/-- The class of a rung: the compiled one at rung 0, else that of its formats (R103). -/
def Job.rungClass (j : Job) (g : Group) (n : NarrowArg) (r : Nat) : DotClass :=
  let f := j.rungFmts g.o n r
  if r = 0 then g.cls else (pairClass false f.1 f.2).getD .t16

/-- Operand A of a tile at rung `r`, and operand B of tile `i`, where they come from ladder sources (R98). -/
def State.rungA (s : State) (j : Job) (g : Group) (t : Tile) (n : NarrowArg) (r : Nat) : Fetch ⊕ RungAll :=
  let q : RungOp := { src := n.srcA, t := g.o.ta, fmt := g.o.fa, dst := (j.rungFmts g.o n r).1, scale := g.o.sA
                      flush := j.operandFlush g.o.ta, draw := n.drawA }
  rungAll ((t.hist.zip g.hist).map (fun p => s.rungOne j r q p.2 (placesA p.1.arg) (srcIdxA p.1) p.1.a))
def State.rungB (s : State) (j : Job) (g : Group) (i : Nat) (t : Tile) (n : NarrowArg) (r : Nat) : Fetch ⊕ RungAll :=
  let q : RungOp := { src := n.srcB, t := g.o.tb, fmt := g.o.fb, dst := (j.rungFmts g.o n r).2, scale := g.o.sB
                      flush := j.operandFlush g.o.tb, draw := n.drawB }
  rungAll ((t.hist.zip g.hist).map (fun p => s.rungOne j r q p.2
    (placesB g.o.orient p.1.arg (p.1.arg.bOff.getD i 0) t.arg.cols) (srcIdxB g.o.orient p.1.arg.srcB t.arg p.1.arg.kLen) p.1.b))

/-- The master as the weight operand of rungs 3 and 4, with the forward class's subnormal mode (R106). -/
def State.rungMaster (s : State) (j : Job) (g : Group) (t : Tile) (m : Nat) (f : Fmt) : Fetch ⊕ RungAll :=
  rungAll (t.hist.map (fun h => s.rungConv j m (srcIdxB g.o.orient h.arg.wSrc t.arg h.arg.kLen) f (s.fallback m) (j.flush 0)
    (fun _ => .rne)))

/-- Saturations of an activation operand B over every tile of the group: the SAT monitor reads the group's counts (R100). -/
def State.groupSat (s : State) (j : Job) (g : Group) (n : NarrowArg) (r : Nat) : Fetch ⊕ Nat :=
  (List.range g.tiles.length).foldl (fun (acc : Fetch ⊕ Nat) i => match acc, g.tiles[i]? with
    | .inr k, some u => match s.rungB j g i u n r with
      | .inl e => .inl e
      | .inr x => .inr (k + x.sat)
    | acc, _ => acc) (.inr 0)

/-- The operands of tile `i` at rung `r`, each converted from its source (R98, R103); rung 0 keeps the values the accumulates
read and takes the counts of their conversions only. -/
def State.rungIn (s : State) (j : Job) (g : Group) (i : Nat) (t : Tile) (n : NarrowArg) (r : Nat) : Fetch ⊕ RungIn :=
  let o := g.o
  let gA := j.gradA o n
  let gB := j.gradB o n
  let f := j.rungFmts o n r
  let sfb := (n.master.map s.fallback).getD t32One
  let cb := if weightB n then
      (match decide (3 ≤ r), n.master with
        | true, some m => s.rungMaster j g t m f.2
        | _, _ => .inr (rungKept (t.hist.map (·.b))))
    else s.rungB j g i t n r
  let cg := if !weightB n && !gB then s.groupSat j g n r else .inr 0
  match s.rungA j g t n r, cb, cg with
  | .inl e, _, _ => .inl e
  | _, .inl e, _ => .inl e
  | _, _, .inl e => .inl e
  | .inr a, .inr b, .inr gb =>
    let sB := if weightB n ∧ 3 ≤ r then sfb else o.sB
    let flA := if r = 0 then (t.hist.map (·.flA)).sum else a.readFl
    let flB := if r = 0 then (t.hist.map (·.flB)).sum else b.readFl
    let onA := n.kind == .forward || (n.kind == .weightGrad && gB)
    let w : Watch :=
      { sat := if onA then a.sat else gb
        satE := if onA then t.arg.rows * g.k else (g.tiles.map (fun u => u.arg.cols * g.k)).sum
        flush := if gA then a.flush + flA else if gB then b.flush + flB else 0
        flushE := if gA then t.arg.rows * g.k else t.arg.cols * g.k }
    .inr { ti := { cls := j.rungClass g n r, fb := f.2, c := o.a32c == 1, s := tileScale f.1 f.2 o.sA sB, rows := t.arg.rows
                   cols := t.arg.cols, a := pickRow t.hist a.vals, b := pickRow t.hist b.vals, p := g.preVal t
                   zero := isZeroPreload o.preload, live := j.tileLive o t.arg }
           watch := w
           finite := a.vals.all allFin && b.vals.all allFin
             && (List.range t.pre.length).all (fun k => xIsFinite (g.preVal t k))
           flushed := t.preFl || decide (0 < flA + flB)
           stat := b.stat.orElse (fun _ => a.stat) }

/-! ### The store path (R74, R91 to R93, R171) -/

/-- One converted output element. -/
structure OutElem where
  idx   : Nat
  keep  : Bool
  out   : W32
  x     : Exact

/-- Convert a row of outputs into a packed line format; each line is non-finite as a whole. -/
def State.storeLines (s : State) (j : Job) (t : Tensor) (c : Conv) (es : List OutElem) : List (List Byte × LineOut × List OutElem) :=
  (chunksOf (codesPerLine t.format) es.length es).map (fun part =>
    let rnds := part.map (fun e => s.rndOf j t.format t.sr c.draw t.index e.idx)
    let l := deriveLine t.format (t.sr && t.format == .m8bs) rnds (part.map (fun e => rne32s e.x.v))
    (lineBytes t.format l.line, l, part))

/-- The scale of a CLOSE's output: in a wide step an output in T16 has the scale of its compiled tensor, which the conversion
names as its counter tensor (R117). -/
def State.outScale (s : State) (j : Job) (out : Tensor) (c : Conv) : W32 :=
  if s.stp.wide ∧ out.format = .t16 then s.operandScale j c.counter .t16 (s.scaleOf out) else s.scaleOf out

/-- The store path of a tile that ended at prescale `q` and rung `rung`, `readFl` telling whether its operand or preload reads
flushed: masked elements are stored as +0 and take no part in the record (R171). -/
def State.tileStore (s : State) (j : Job) (out : Tensor) (c : Conv) (g : Group) (t : Tile) (ti : TileIn) (readFl : Bool)
    (rung q : Nat) (es : List AccElem) : Stored :=
  let outs := tileResults g.o.strict ti.s q es
  let all : List OutElem := (List.range outs.length).map (fun k =>
    let e := tileIndex t.arg out.rowLen k
    let keep := j.outLive g.o out e
    let w := if keep then outs.getD k 0 else pz32
    { idx := e, keep, out := w, x := if keep then s.exactVal j c e (valT32 w) .nan else { v := xZero, bit := 0 } })
  let rows := chunksOf t.arg.cols all.length all
  let n := ceilDiv g.k (chunkLen ti.cls ti.fb)
  let mk (bytes : List (List Byte)) (nfs : List Nat) (sat fl : Nat) : Stored :=
    let first := nfs.foldl min noFirst
    { rows := bytes, nf := !nfs.isEmpty
      record := statusRec q rung (!nfs.isEmpty) (readFl || decide (0 < fl))
        (decide (65536 < n)) sat fl first n
      first, bits := (all.filter (·.keep)).map (fun e => (e.idx, e.x.bit)), max := largest (all.map (fun e => e.x.v)) }
  if isPacked out.format then
    let ls := rows.map (s.storeLines j out c)
    let flat := ls.flatMap id
    mk (ls.map (fun r => r.flatMap (·.1)))
      (flat.flatMap (fun l => (l.2.2.filter (fun e => e.keep && (l.2.1.nonfin || !fin32 e.out))).map (·.idx)))
      ((flat.map (fun l => l.2.1.satCount)).sum) 0
  else
    let cs := all.map (fun e => (e, s.convOne j { c with dst := out.format } out.sr out.index e.idx (s.outScale j out c)
      (j.flush out.cls) e.x.v))
    let live := cs.filter (fun p => p.1.keep)
    mk ((chunksOf t.arg.cols cs.length cs).map (fun r => cvtBytes out.format (r.map (·.2))))
      ((live.filter (fun p => p.2.nonfin || !fin32 p.1.out)).map (fun p => p.1.idx))
      (live.filter (fun p => p.2.sat)).length (live.filter (fun p => p.2.flushed)).length

/-! ### The ladder (R108 to R112) -/

/-- A tile's defined result. -/
structure Result where
  rung : Nat
  st   : Stored

/-- Climb from rung `r`, whose attempt ended at prescale `q` with elements `es`, `t` being the tile that the attempt read (R108). A
rung's repair is charged first; only then are its transfers re-issued and its preload read anew (R103, R111). -/
def State.climb (s : State) (core : Nat) (j : Job) (out : Tensor) (c : Conv) (g : Group) (i : Nat)
    (n : NarrowArg) (p : Payer) : (fuel : Nat) → (r q : Nat) → List AccElem → Tile → RungIn → Fetch ⊕ (Result × State)
  | 0, r, q, es, t, x => .inr ({ rung := r, st := s.tileStore j out c g t x.ti x.flushed r q es }, s)
  | fuel + 1, r, q, es, t, x =>
    let st := s.tileStore j out c g t x.ti x.flushed r q es
    if !inTrouble p.rec_ x.watch st.nf x.finite q then .inr ({ rung := r, st }, s)
    else match s.nextRung j p.rec_ g.o n r with
      | none => .inr ({ rung := r, st }, (s.addCfld core oNwCount 32 16 1).raiseWiden core n.layer r 1)
      | some nr =>
        let master := decide (3 ≤ nr)
        let (ok, s) := s.charge core p.rec_ p.layer p.leaf nr (repairCost (j.rungClass g n nr) t.arg.rows t.arg.cols g.k master)
        if !ok then .inr ({ rung := r, st }, s)
        else match s.reread core j g i t with
          | .inl e => .inl e
          | .inr u => match s.rungIn j g i u.tile n nr with
            | .inl e => .inl e
            | .inr y =>
              let s := (s.addCfld core oNwCount 16 16 1).setXfer core (y.stat.getD u.stat)
              let f := s.search (some p) y.ti g.k nr master false 9 0 (y.ti.pass 0)
              f.st.climb core j out c g i n p fuel nr f.q f.elems u.tile y

/-- The defined result of a tile at CLOSE. -/
def State.closeTile (s : State) (core : Nat) (j : Job) (out : Tensor) (c : Conv) (g : Group) (i : Nat) (t : Tile) :
    Fetch ⊕ (Result × State) :=
  let plain (r : Nat) : Result :=
    { rung := r, st := s.tileStore j out c g t (g.tileIn j t) t.readFlushed r t.q t.elems }
  if s.stp.wide then .inr (plain 7, s)
  else match g.o.narrow, s.payer core g with
    | some n, some p => match s.rungIn j g i t n 0 with
      | .inl f => .inl f
      | .inr x => s.climb core j out c g i n p 5 0 t.q t.elems t x
    | _, _ => .inr (plain 0, s)

/-! ### Storing a tile -/

/-- Store rows to the output tensor; the address of a block that fails or a row that is not placed. -/
def State.storeRows (s : State) (j : Job) (out : Tensor) (t : TileArg) (rows : List (List Byte)) : Option Fetch × State :=
  (List.range rows.length).foldl (fun (acc : Option Fetch × State) m =>
    let e := (t.m0 + m) * out.rowLen + t.n0
    match j.range? out (acc.2.writeSlot j out) e t.cols with
    | none => (acc.1.orElse (fun _ => some (.bad cMemRange)), acc.2)
    | some a =>
      let (r, s) := acc.2.storeParts a (rows.getD m [])
      (acc.1.orElse (fun _ => r.map (fun b => .fault b (memSource b))), s)) (none, s)

/-- Write a status record (R91). -/
def State.storeRecord (s : State) (j : Job) (out : Tensor) (t : TileArg) (r : List Byte) : Option Fetch × State :=
  match j.tensor? out.status with
  | none => (none, s)
  | some st => match j.addr? st 0 t.recIdx with
    | none => (some (.bad cMemRange), s)
    | some (a, _) =>
      let (f, s) := s.storeParts a r
      (f.map (fun b => .fault b (memSource b)), s)

/-- The step's own bits: NF_T and the lowest position of a gradient-class output's record (R93, R209). -/
def State.noteNf (s : State) (out : Tensor) (st : Stored) : State :=
  if out.cls = 1 ∧ st.nf then
    { s with stp := { s.stp with localNfT := true, localMin := min s.stp.localMin (out.index * 2 ^ 64 + st.first) } }
  else s

/-- Write a tile's result where CLOSE stores it; `off` is the tile's place in data SRAM. Its maximum is noted for the tensor written: in
a wide step whose CLOSE writes a T16 counterpart, the compiled tensor keeps its scale (R117 names no maximum for it; DESIGN
CHOICE, log entry 134). -/
def State.writeTile (s : State) (core : Nat) (j : Job) (out : Tensor) (c : Conv) (t : TileArg) (dest : StoreDest)
    (off : Nat) (st : Stored) : Option Fetch × State :=
  let s := ((s.noteNf out st).noteMax out.index st.max).rescale (some out) c
  let (f, s) := match dest with
    | .tensor => s.storeRows j out t st.rows
    | .sram _ => (none, s.sramWrite core off (st.rows.flatMap id))
  let (g, s) := s.storeRecord j out t st.record
  let (h, s) := match c.act.bind (·.scent) with
    | some k =>
      let (r, s) := s.putScents j k st.bits
      (r, s)
    | none => (none, s)
  ((f.orElse (fun _ => g)).orElse (fun _ => h), s)

/-- Bytes of a tile in data SRAM, and where each tile of a group starts: one after another, each from the next 64-byte boundary. The
spec gives no layout (DESIGN CHOICE, log entry 134). -/
def tileBytes (f : Fmt) (t : TileArg) : Nat := sramBytes f 1 t.cols (t.rows * t.cols)
def tileStarts (f : Fmt) : Nat → List TileArg → List Nat
  | _, [] => []
  | o, t :: rest => o :: tileStarts f (o + ceilDiv (tileBytes f t) 64 * 64) rest

/-- Finish every tile in turn. -/
def State.closeTiles (s : State) (core : Nat) (j : Job) (out : Tensor) (c : Conv) (g : Group) (dest : StoreDest) :
    List (Nat × Tile × Nat) → Option Fetch × State
  | [] => (none, s)
  | (i, t, off) :: rest => match s.closeTile core j out c g i t with
    | .inl f => (some f, s)
    | .inr (r, s) =>
      let (f, s) := s.writeTile core j out c t.arg dest off r.st
      match f with
      | some f => (some f, s)
      | none => s.closeTiles core j out c g dest rest

/-- CLOSE. -/
def State.close (s : State) (a : Attr) (j : Job) (group : Nat) (dest : StoreDest) (conv : Conv) : State :=
  let at0 := match dest with
    | .tensor => []
    | .sram off => [(off, 0)]
  match s.group? a.core group with
  | none => s.checkFail a (if sramOk at0 then cGroupNotOpen else cCmdBadOperand)
  | some g =>
    match j.tensor? g.o.out with
    | none => s.checkFail a cCmdBadOperand
    | some out =>
      let c := { conv with dst := out.format }
      let base := match dest with
        | .tensor => 0
        | .sram off => off
      let starts := tileStarts out.format base (g.tiles.map (·.arg))
      let rs := match dest with
        | .tensor => []
        | .sram _ => (starts.zip g.tiles).map (fun (p : Nat × Tile) => (p.1, tileBytes out.format p.2.arg))
      let code := convCode .t32 { c with sSrc := t32One } j false (some out) 0 0
      if !sramOk rs then s.checkFail a cCmdBadOperand
      else if code ≠ 0 then s.checkFail a code
      else
        let bad := c.back.bind (fun b => g.tiles.findSome? (fun t => (List.range t.arg.rows).findSome? (fun m =>
          s.scentFault j b.scent ((t.arg.m0 + m) * out.rowLen + t.arg.n0) t.arg.cols)))
        match bad with
        | some f => s.fetchFails a f
        | none =>
          let ts := (List.range g.tiles.length).filterMap (fun i =>
            (g.tiles[i]?).map (fun t => (i, t, starts.getD i 0)))
          let (f, s) := s.closeTiles a.core j out c g dest ts
          match f with
          | some f => s.fetchFails a f
          | none =>
            let k := s.core a.core
            s.setCore a.core { k with groups := k.groups.filter (fun e => e.1 != group) }

end Sys2Proof.Machine
end

