-- ==== Sys2Proof/Machine/Vector.lean ====
section
/-! DEFINITION. Vector commands: VOP and VCONVERT (Tables 5.3, 8.9, 11.7, R57, R156, R227 to R229) and FLUTTER (R165,
Table 6.7). -/

namespace Sys2Proof.Machine
open Sys2Proof

/-! ### Conversion into data SRAM -/

/-- Convert exact sources (decoded × s_src) into data SRAM at `off`: scale, rounding selection and subnormal mode are those of
the counter tensor where the command names one (the scale if it has the destination's format), else the named scale, to
nearest even and KEEP; the gradient tensor of a backward factor and the conversion's tensor of a dropout site are the
counter tensor too (log entry 42). `us'` are MAX2's second inputs. -/
def State.convertSram (s : State) (a : Attr) (j : Job) (c : Conv) (off : Nat) (us us' : List Xv) : State :=
  let ct := c.counter.bind j.tensor?
  match c.back.bind (fun b => s.scentFault j b.scent c.first us.length) with
  | some f => s.fetchFails a f
  | none =>
    let xs : List (Nat × Exact) := (List.range us.length).map (fun i =>
      (c.first + i, s.exactVal j c (c.first + i) (us.getD i .nan) (us'.getD i .nan)))
    let sDst := dstScale c.dst (s.operandScale j c.counter c.dst c.sDst)
    let flush := ct.any (fun t => j.flush t.cls)
    let out := xs.map (fun (p : Nat × Exact) =>
      (p.1, s.convOne j c (ct.any (·.sr)) (c.counter.getD 0) p.1 sDst flush p.2.v))
    let s := match c.counter with
      | some k => (s.noteMax k (largest (xs.map (fun (p : Nat × Exact) => p.2.v)))).rescale ct c
      | none => s
    let s := s.setCore a.core { s.core a.core with vecStat := convStat 0 out }
    let s := s.sramWrite a.core off (cvtBytes c.dst (out.map (·.2)))
    match c.act.bind (·.scent) with
    | some k =>
      let (r, s) := s.putScents j k (xs.map (fun (p : Nat × Exact) => (p.1, p.2.bit)))
      s.scentFails a r
    | none => s

/-! ### VOP -/

/-- Operations that VOP may name (the VOP column of Table 8.9). -/
def vopListed (op : Nat) : Bool := opArity op != 0 && op != 0x13 && op != 0x14 && op != 0x21

/-- T32 values in data SRAM. -/
def State.sramT32 (s : State) (core off n : Nat) : List W32 :=
  (s.sramCodes core off .t32 n).map (fun k => BitVec.ofNat 32 k)

/-- Values that a VOP writes. -/
def vopCount (o : VopArg) : Nat := if o.op = 0x20 then o.n / max 1 o.row else if o.op = 0x22 then 1 else o.n

/-- Counts agree: every source that the operation, or MAX2, reads has n elements; rows are whole. -/
def vopShape (o : VopArg) : Bool :=
  let max2 := o.conv.act.any (fun r => r.kind == .max2)
  (decide (opArity o.op < 2) && !max2 || (o.b.isSome && o.nB == o.n))
    && (decide (opArity o.op < 3) || (o.c.isSome && o.nC == o.n))
    && (o.op != 0x20 || (o.row != 0 && o.n % o.row == 0))

/-- Results of a VOP in T32 (R227 to R229). -/
def vopResults (o : VopArg) (xa xb xc : List W32) : List W32 :=
  if o.op = 0x20 then (chunksOf o.row xa.length xa).map (reduceKind o.arg.toNat)
  else if o.op = 0x22 then [reduceKind o.arg.toNat xa]
  else (List.range o.n).map (fun i => vecOp o.op o.arg (xa.getD i 0) (xb.getD i 0) (xc.getD i 0))

def State.vop (s : State) (a : Attr) (j : Job) (o : VopArg) : State :=
  if !vopListed o.op then s.checkFail a cCmdIllegal
  else if isReduction o.op && decide (2 < o.arg) then s.checkFail a cCmdIllegal
  else if !vopShape o then s.checkFail a cShapeMismatch
  else if !o.srcT32 ∨ !isElemFmt o.conv.dst ∨ (isReduction o.op ∧ o.conv.dst ≠ .t32) then s.checkFail a cFormatMismatch
  else
    let code := convCode .t32 o.conv j true (o.conv.counter.bind j.tensor?) o.conv.first (vopCount o)
    if code ≠ 0 then s.checkFail a code
    else
      let xa := s.sramT32 a.core o.a o.n
      let src (p : Option Nat) (n : Nat) := match p with
        | some off => s.sramT32 a.core off n
        | none => []
      let xb := src o.b o.nB
      let r := vopResults o xa xb (src o.c o.nC)
      s.convertSram a j o.conv o.dst (r.map valT32) (xb.map valT32)

/-! ### VCONVERT -/

def State.vconvert (s : State) (a : Attr) (j : Job) (src dst n : Nat) (sfmt : Fmt) (conv : Conv) : State :=
  if !isElemFmt sfmt || !isElemFmt conv.dst then s.checkFail a cFormatMismatch
  else
    let code := convCode sfmt conv j false (conv.counter.bind j.tensor?) conv.first n
    if code ≠ 0 then s.checkFail a code
    else
      let us := (s.sramCodes a.core src sfmt n).map (fun k => xMul (decodeElem sfmt k) (valT32 (dstScale sfmt conv.sSrc)))
      s.convertSram a j conv dst us []

/-! ### FLUTTER -/

/-- Bytes that FLUTTER writes. -/
def flutterBytes (mode : FltMode) (n : Nat) : Nat :=
  match mode with
  | .raw => 2 * n
  | .uniform => 4 * n
  | .mask => ceilDiv n 8

/-- The result bytes for lane values; bits of the last byte beyond the mask keep what `old` holds. -/
def flutterOut (mode : FltMode) (thr : Nat) (lanes : List Nat) (old : List Byte) : List Byte :=
  match mode with
  | .raw => lanes.flatMap (leBytes 2)
  | .uniform => lanes.flatMap (fun l => leBytes 4 (rne32s (.fin false l 65536)).toNat)
  | .mask => (List.range (ceilDiv lanes.length 8)).map (fun k =>
      let bits := (List.range 8).map (fun i => match lanes[8 * k + i]? with
        | some l => b2n (decide (l < thr))
        | none => bitsOf (old.getD k 0).toNat i 1)
      BitVec.ofNat 8 ((List.range 8).foldl (fun m i => m + 2 ^ i * bits.getD i 0) 0))

/-- Key, ID, DRAW and threshold of a FLUTTER command (R165, Table 6.5); none for a domain or site it may not name. -/
def Job.flutterUse (j : Job) (dom id draw thr : Nat) : Option (BitVec 128 × Nat × Nat × Nat) :=
  if dom = domDropout then (j.sites.find? (fun x => x.index == id)).map (fun x => (j.dropKey, id, x.draw, x.t))
  else if dom = domUser then some (j.userKey, id, draw, thr) else none

def State.flutterCmd (s : State) (a : Attr) (j : Job) (dom id draw e0 n : Nat) (mode : FltMode) (thr dst : Nat) : State :=
  match j.flutterUse dom id draw thr with
  | none => s.checkFail a cCmdBadOperand
  | some (key, id, draw, thr) =>
    if mode = .mask ∧ thr = 0 then s.checkFail a cCmdBadOperand
    else
      let lanes := (List.range n).map (fun i => fltValue (quadOf key) id s.stp.step dom draw (e0 + i))
      let old := s.sramRead a.core dst (flutterBytes mode n)
      s.sramWrite a.core dst (flutterOut mode thr lanes old)

end Sys2Proof.Machine
end

