-- ==== Sys2Proof/Machine/Update.lean ====
section
/-! DEFINITION. UPDATE: the update pass of a layer's shard (R172, R180 to R191, R215 to R222, R224 to R232). -/

namespace Sys2Proof.Machine
open Sys2Proof

/-! ### What a pass uses -/

/-- The gradient's step, its clip factor, N_g, UPD_INDEX, the gradient's version slot, and whether the recipe runs (R190, R191,
R216). -/
structure PassUse where
  step  : Nat
  clip  : W32
  norm  : W32
  index : W32
  runs  : Bool
  slot  : Nat

def natT32 (n : Nat) : W32 := rne32s (xOfNat n)

/-- The pass of a layer in the current step; none for a slow layer without a pending slot, in the first D steps (R190). -/
def State.passUse (s : State) (j : Job) (t : Tensor) : Option PassUse :=
  if t.slow then
    (s.slowDue j).map (fun r =>
      { step := r.step, clip := r.clip, norm := (getAssoc s.stp.norms r.step).getD 0
        index := natT32 (s.stp.n + 1), runs := !r.skip, slot := r.step % (j.hdr.delayD + 1) })
  else some { step := s.stp.step, clip := s.stp.clip, norm := s.norm, index := natT32 (s.stp.v + 1), runs := !s.stp.skip
              slot := 0 }

/-! ### Checks (Table 5.3, R222, R226) -/

/-- Whole rows, columns and bytes of Table 8.4. -/
def updateFits (r : Recipe) (t : Tensor) (o : UpdArg) : Bool :=
  if !(r.hasRed 0x20 || r.hasRed 0x21 || r.hasRed 0x22) then true
  else
    decide (r.footprint o.count (ceilDiv o.count t.rowLen) ≤ 983040)
      && (!r.hasRed 0x20 || (o.first % t.rowLen == 0 && o.count % t.rowLen == 0))
      && (!r.hasRed 0x21 || decide (t.rowLen ≤ 8192))

/-- The UPDATEs of a layer that stage on one core at once fit its update window together (Table 8.4, R222). -/
def State.stagedFits (s : State) (j : Job) (r : Recipe) (a : Attr) (o : UpdArg) : Bool :=
  let all := o :: (s.stp.staged.filter (fun e => e.1.core == a.core && e.2.layer == o.layer)).map (·.2)
  let rows := all.map (fun u => ceilDiv u.count (((j.tensor? u.master).map (·.rowLen)).getD 1))
  r.layerReds == 0 || decide (r.footprint (all.map (·.count)).sum rows.sum ≤ 983040)

/-- A bound state tensor has the format of its binding; an unbound one is absent (R179, R223). -/
def Job.stateFmt (j : Job) (bound : Bool) (x : Option Nat) (f : Fmt) : Bool :=
  match bound, x with
  | true, some i => (j.tensor? i).any (fun t => t.format == f)
  | false, none => true
  | _, _ => false

def updateFmts (j : Job) (r : Recipe) (o : UpdArg) : Bool :=
  j.stateFmt true (some o.master) .t32 && j.stateFmt (r.binds 2) o.m1 .m8bs && j.stateFmt (r.binds 3) o.m2 .m8bu
    && j.stateFmt (r.binds 4) o.ema (if bitsOf r.flags 1 1 = 1 then .t16 else .t32)
    && j.stateFmt true (some o.grad) .rbuf
    && (j.tensor? o.work).any (fun t => t.kind == kWorking)

/-! ### Staging (R215, R217 phase 1) -/

/-- A state tensor's elements as T32 values, from its current version. -/
def State.stage (s : State) (j : Job) (t : Tensor) (v first n : Nat) : Fetch :=
  match s.readElems j t v first n with
  | .ok vs k => .ok (vs.map (fun x => valT32 (rne32s (xMul x (valT32 (s.scaleIn t v)))))) k
  | f => f

/-- Stage the bound tensors in turn: (slot code, tensor, version). The slots, and the subnormals that the reads flushed (R55). -/
def State.stageAll (s : State) (j : Job) (first n : Nat) : List (Nat × Tensor × Nat) → Fetch ⊕ (Nat × List (Nat × List W32))
  | [] => .inr (0, [])
  | (code, t, v) :: rest => match s.stage j t v first n with
    | .ok vs k => match s.stageAll j first n rest with
      | .inl f => .inl f
      | .inr m => .inr (k + m.1, (code, vs.map rne32s) :: m.2)
    | f => .inl f

/-- Scalars at the start of a pass (Table 8.8); temporaries are +0. -/
def passScalars (r : Recipe) (u : PassUse) (q : List W32) : List (Nat × W32) :=
  (List.range r.nConst).map (fun i => (0x40 + i, r.k.getD i 0)) ++ (List.range r.nQ).map (fun i => (0x60 + i, q.getD i 0))
    ++ [(0x80, u.clip), (0x81, u.norm), (0x82, u.index)]

/-- Stage one command's elements (R217 phase 1): the subnormals flushed on the reads, and its part of the layer's pass. -/
def State.stagePart (s : State) (j : Job) (r : Recipe) (o : UpdArg) (mt g : Tensor) (u : PassUse) : Fetch ⊕ (Nat × RPart) :=
  let opt (i : Nat) (x : Option Nat) : List (Nat × Tensor × Nat) := match x.bind j.tensor? with
    | some t => [(r.inSlot i, t, s.readSlot j t)]
    | none => []
  let binds := [(r.inSlot 1, mt, s.readSlot j mt)] ++ opt 2 o.m1 ++ opt 3 o.m2 ++ opt 4 o.ema
  match s.readElems j g u.slot o.first o.count, s.stageAll j o.first o.count binds with
  | .ok gs _, .inr el =>
    .inr (el.1, { n := o.count, first := o.first, rl := mt.rowLen
                  keep := (List.range o.count).map (fun i => j.trainedAt mt (o.first + i))
                  unit := j.unitBase g, unitLen := j.leafLen g, rows := []
                  el := (r.inSlot 0, gs.map (fun x => rne32s (xMul x (valT32 u.clip)))) :: el.2 })
  | .ok _ _, .inl f => .inl f
  | f, _ => .inl f

/-- The recipe state that a layer's pass starts from: every command of the pass reads the same one (R225). -/
def State.passState (s : State) (j : Job) (r : Recipe) (o : UpdArg) : Fetch ⊕ List W32 :=
  match getAssoc s.stp.qBase o.layer, j.tensor? o.state with
  | some q, _ => .inr q
  | none, some t => match s.stage j t (s.readSlot j t) 0 r.nQ with
    | .ok qs _ => .inr (qs.map rne32s)
    | f => .inl f
  | none, none => .inr (r.q.take r.nQ)

/-! ### Deposits (R172, R180, R185, R219) -/

/-- Rounding of element `e` in the update pass of gradient step `st`. -/
def Job.updRnd (j : Job) (sr : Bool) (id st e : Nat) : Rnd :=
  if sr then .sr (fltValue (quadOf j.srKey) id st domSround Config.updateDraw e) else .rne

/-- One M8B line with some trained element (R219): wholly trained, derived afresh; mixed, encoded against its stored SCALE. The
line, the codes saturated. -/
def momentLine (f : Fmt) (sr : Bool) (old : PackedLine) (keep : List Bool) (rnds : List Rnd) (ws : List W32) :
    PackedLine × Nat :=
  if keep.all id then
    let l := deriveM8 f sr rnds ws
    (l.line, l.satCount)
  else
    let cs := m8Codes f old.scale rnds ws
    let codes := (List.range ws.length).map (fun i =>
      if keep.getD i true then (cs.getD i (0, false)).1 else old.codes.getD i 0)
    let n := ((List.range ws.length).filter (fun i => keep.getD i true && (cs.getD i (0, false)).2)).length
    ({ old with sat := old.sat || decide (0 < n), sr, codes }, n)

/-- Bytes of a moment's lines for elements `first` on, and the codes saturated; `base` is where its old lines stand. A wholly
masked line keeps its bytes (R172). -/
def State.momentBytes (s : State) (j : Job) (t : Tensor) (base : Nat) (sr : Bool) (st first : Nat) (keep : List Bool)
    (ws : List W32) : List Byte × Nat :=
  let f := t.format
  let l0 := lineOf f t.rowLen first
  let nl := if ws.isEmpty then 0 else lineOf f t.rowLen (first + ws.length - 1) - l0 + 1
  (List.range nl).foldl (fun (acc : List Byte × Nat) k =>
    let (e0, n) := lineElems f t.rowLen (l0 + k)
    let stored := s.load (base + 64 * k) 64
    let live := (keep.drop (e0 - first)).take n
    match live.any id, Sys2Proof.Machine.readLine f stored with
    | true, .ok old =>
      let (l, c) := momentLine f (sr && f == .m8bs) old live
        ((List.range n).map (fun i => j.updRnd (sr && f == .m8bs) t.index st (e0 + i))) ((ws.drop (e0 - first)).take n)
      (acc.1 ++ lineBytes f l, acc.2 + c)
    | _, _ => (acc.1 ++ stored, acc.2)) ([], 0)

/-- Values of a state tensor converted to its element format, with its scale, its rounding and its class's subnormal mode (R57,
R61, R180, R183). -/
def State.elemCvts (s : State) (j : Job) (t : Tensor) (st first : Nat) (ws : List W32) : List (Nat × Cvt) :=
  (List.range ws.length).map (fun i => (first + i,
    convElem t.format (j.updRnd (t.sr && mayRoundSr t.format) t.index st (first + i))
      (j.flush t.cls) (xDiv (valT32 (ws.getD i 0)) (valT32 (s.scaleOf t)))))

/-- Lines of a packed working copy derived from masters: first element and line (R62). -/
def workLines (t : Tensor) (first : Nat) (ws : List W32) : List (Nat × LineOut) :=
  let f := t.format
  let l0 := lineOf f t.rowLen first
  let nl := if ws.isEmpty then 0 else lineOf f t.rowLen (first + ws.length - 1) - l0 + 1
  (List.range nl).map (fun k =>
    let (e0, n) := lineElems f t.rowLen (l0 + k)
    (e0, deriveLine f false [] ((ws.drop (e0 - first)).take n)))

/-- The working copy derived from masters: its bytes, and its conversions for the record, of a packed line one at its first element
(R180, R57, R62). -/
def State.workOut (s : State) (j : Job) (t : Tensor) (st first : Nat) (ws : List W32) : List Byte × List (Nat × Cvt) :=
  if isPacked t.format then
    let ls := workLines t first ws
    (ls.flatMap (fun p => lineBytes t.format p.2.line),
      ls.map (fun p => (p.1, { code := 0, nonfin := p.2.nonfin, sat := decide (0 < p.2.satCount) })))
  else
    let cs := s.elemCvts j t st first ws
    (cvtBytes t.format (cs.map (·.2)), cs)

/-- The conversions of the trained elements alone: nothing is deposited for a masked one (R219). -/
def keptCvts (keep : List Bool) (cs : List (Nat × Cvt)) : List (Nat × Cvt) :=
  (cs.zip keep).filterMap (fun p => if p.2 then some p.1 else none)

/-- Old bytes where an element is masked, new ones where it is trained (R172). -/
def keptBytes (keep : List Bool) (size : Nat) (old new : List Byte) : List Byte :=
  (List.range keep.length).flatMap (fun i => slice (if keep.getD i true then new else old) (size * i) size)

/-- The stored bytes of an element-format tensor's current version. -/
def State.storedOf (s : State) (j : Job) (t : Tensor) (first n : Nat) : List Byte :=
  match j.range? t (s.readSlot j t) first n with
  | some a => s.load a (elemSize t.format 1 * n)
  | none => []

/-- Element `i` of stored T32 bytes. -/
def ofStored (bs : List Byte) (i : Nat) : W32 := BitVec.ofNat 32 (ofLe (slice bs (4 * i) 4))

/-- Write the bytes of a bound tensor's elements at its slot `v`. -/
def State.putState (s : State) (j : Job) (t : Tensor) (v first n : Nat) (bs : List Byte) : Option Fetch × State :=
  match j.range? t v first n with
  | none => (some (.bad cMemRange), s)
  | some a =>
    let (r, s) := s.storeParts a bs
    (r.map (fun b => Fetch.fault b (memSource b)), s)

/-- The staged window of data SRAM holds nothing that the spec defines afterwards: free bytes, the same on every run for a layer's
pass of a step (R7, R222, log entry 50). -/
def State.scrambleSram (s : State) (core layer off len : Nat) : State :=
  s.sramWrite core off ((List.range len).map (fun i => Config.stagedByte s.stp.step layer (off + i)))

/-- Staging leaves the update window, and the column vectors, undefined. -/
def State.afterStaging (s : State) (core : Nat) (r : Recipe) (t : Tensor) (n : Nat) : State :=
  let s := s.scrambleSram core t.layer 0 (min 983040 (ceilDiv (r.footprint n (ceilDiv n t.rowLen)) 64 * 64))
  if r.hasRed 0x21 then s.scrambleSram core t.layer 0xF_0000 (min 0x1_0000 (8 * t.rowLen)) else s

/-- What the pass measured (R220): largest |master| and largest |working-copy value|, combined by the maxima collectives;
a master that no collective serves gives its layer's fallback scale at once. -/
def State.noteMasters (s : State) (j : Job) (mt wt : Tensor) (ws : List W32) : State :=
  let m := ws.foldl (fun m w => magMax m (absW w)) pz32
  let s := s.noteMax wt.index (valT32 m)
  let all := magMax ((getAssoc s.stp.masterMax mt.index).getD pz32) m
  let s := { s with stp := { s.stp with
    masterMax := setAssoc s.stp.masterMax mt.index all } }
  if j.colls.any (fun i => i.group == 3 && i.key == mt.index) then s else s.maximaResult mt.index all

/-! ### Layer reductions (R217 phase 2, R229, R230) -/

/-- The values of every unit for a layer reduction: this package's own where it is the layer's one owner, else what the
collective has delivered. -/
def State.gatherUnits (s : State) (j : Job) (r : Recipe) (l k : Nat) (mine : List (Nat × List W32)) :
    Option (List (Nat × List W32)) :=
  if (j.layerOwners l).length ≤ 1 then some mine
  else match s.layerInst j r l k with
    | some i => getAssoc s.stp.lred i.id
    | none => some mine

/-- This package contributes its units' values, once, for every local stream of the instance. -/
def State.sendUnits (s : State) (j : Job) (r : Recipe) (l k : Nat) (mine : List (Nat × List W32)) : State :=
  match s.layerInst j r l k with
  | none => s
  | some i =>
    let vals : List CVal :=
      if i.kind = 3 then [.maxMag (mine.foldl (fun m p => maxMags m p.2) [])] else mine.map (fun p => .csum p.1 none p.2)
    if s.lastSendPast i then s
    else
      let s := s.contributeVals i.id none vals
      s.setColl { s.coll i.id with streams := ((s.coll i.id).streams ++ s.expected i.id).eraseDups }

/-! ### Committing (R217 phases 3 and 4) -/

/-- Zero gradient elements of a version slot (R276). -/
def State.zeroElems (s : State) (j : Job) (g : Tensor) (slot first n : Nat) : Option Fetch × State :=
  s.putState j g slot first n ((List.range n).flatMap (fun _ => zeroElem g.ns))

/-- Zero the gradient of the pass (R187, R216); a slow layer's slot not before the decision heel of the step as finally run
(R190). -/
def State.zeroGrad (s : State) (j : Job) (g : Tensor) (u : PassUse) (o : UpdArg) : Option Fetch × State :=
  if g.slow ∧ !s.stp.heeled then
    (none, { s with stp := { s.stp with slowZero := s.stp.slowZero ++ [(g.index, u.slot, o.first, o.count)] } })
  else s.zeroElems j g u.slot o.first o.count

/-- Fold deposits in order, stopping at the first that fails. -/
def State.deposits (s : State) : List (State → Option Fetch × State) → Option Fetch × State
  | [] => (none, s)
  | d :: rest => match d s with
    | (some f, s) => (some f, s)
    | (none, s) => s.deposits rest

/-- End of an UPDATE: the elements are counted, and the last one of the step posts the STEP record (R344). -/
def State.updateDone (s : State) (j : Job) (t : Tensor) (n : Nat) : State :=
  let before := (s.layersLeft j).isEmpty
  let s := { s with stp := { s.stp with
    updDone := setAssoc s.stp.updDone t.index ((getAssoc s.stp.updDone t.index).getD 0 + n) } }
  if !before then s.stepDone j else s

/-- What a pass deposits for one command: values of bindings 1 to 4 as their out-slots hold them, the recipe state, which
elements are trained, and whether a non-finite value came from finite inputs (R218). -/
structure PassVals where
  out  : Nat → List W32
  q    : List W32
  keep : List Bool
  bad  : Bool

/-- Values of a finished run for part `k`; `t` is the run of `taintAlg`. -/
def passVals (r : Recipe) (v t : REnv) (k : Nat) : PassVals :=
  let part (e : REnv) := (e.parts[k]?).map (·.el)
  let out (e : REnv) (i : Nat) := assocGet [] ((part e).getD []) (r.outSlot i)
  let keep := ((v.parts[k]?).map (·.keep)).getD []
  let sc (e : REnv) (i : Nat) : W32 := assocGet 0 e.sc (0x60 + i)
  let wrong (w x : W32) : Bool := !fin32 w && x == 0
  { out := out v, q := (List.range r.nQ).map (sc v), keep
    bad := ([1, 2, 3, 4].filter (fun i => r.outSlot i != 0xFF)).any (fun i => (List.range keep.length).any (fun e =>
        keep.getD e true && wrong ((out v i).getD e 0) ((out t i).getD e 0)))
      || (List.range r.nQ).any (fun i => wrong (sc v i) (sc t i)) }

/-- The tensors an UPDATE names. -/
structure UpdTensors where
  mt : Tensor
  g  : Tensor
  wt : Tensor

/-- The scale of a written EMA slot binds with the next step: until then the slot's other elements are read with the one they were
written with (R153, R183). -/
def State.bindLater (s : State) (t : Tensor) (v : Nat) : State :=
  if scaled t.format then
    { s with stp := { s.stp with bindDue := setAssoc s.stp.bindDue (16 * t.index + v) (s.scaleOf t) } }
  else s

/-- What a pass writes into an element-format tensor: old bits where an element is masked (R172, R219). -/
def State.floatBytes (s : State) (j : Job) (t : Tensor) (first n : Nat) (keep : List Bool) (cs : List (Nat × Cvt)) : List Byte :=
  keptBytes keep (elemSize t.format 1) (s.storedOf j t first n) (cvtBytes t.format (cs.map (·.2)))

/-- The masters after a pass: a masked element's stays (R172). -/
def State.newMasters (s : State) (j : Job) (o : UpdArg) (mt : Tensor) (v : PassVals) : List W32 :=
  (List.range o.count).map (fun i => if v.keep.getD i true then (v.out 1).getD i 0 else
    ofStored (s.storedOf j mt o.first o.count) i)

/-- The deposits of a pass in order (R217 phase 4): master, moments, EMA, recipe state, working copy, and the zeroed gradient; a
binding without out-slot deposits nothing. -/
def passDeposits (j : Job) (r : Recipe) (o : UpdArg) (x : UpdTensors) (u : PassUse) (v : PassVals)
    (mc ec : List (Nat × Cvt)) (wb : List Byte) : List (State → Option Fetch × State) :=
  let float (t : Tensor) (cs : List (Nat × Cvt)) (s : State) : Option Fetch × State :=
    s.putState j t (s.writeSlot j t) o.first o.count (s.floatBytes j t o.first o.count v.keep cs)
  let moment (i : Nat) (y : Option Nat) (s : State) : Option Fetch × State := match y.bind j.tensor? with
    | some t => match j.range? t (s.readSlot j t) o.first o.count with
      | some base =>
        let (bs, n) := s.momentBytes j t base (bitsOf r.flags 0 1 == 1 && i == 2) u.step o.first v.keep (v.out i)
        (s.addFld rPfUpdStat 32 16 n).putState j t (s.writeSlot j t) o.first o.count bs
      | none => (some (.bad cMemRange), s)
    | none => (none, s)
  let ema (s : State) : Option Fetch × State := match o.ema.bind j.tensor?, r.outSlot 4 != 0xFF with
    | some t, true =>
      let vs := ((List.range (v.out 4).length).filter (fun i => v.keep.getD i true)).map (fun i => valT32 ((v.out 4).getD i 0))
      float t ec ((s.noteMax t.index (largest vs)).bindLater t (s.writeSlot j t))
    | _, _ => (none, s)
  let recipeState (s : State) : Option Fetch × State := match j.tensor? o.state with
    | some t => s.putState j t (s.writeSlot j t) 0 (min 16 t.numel)
        ((List.range (min 16 t.numel)).flatMap (fun i => leBytes 4 (v.q.getD i 0).toNat))
    | none => (none, s)
  let work (s : State) : Option Fetch × State :=
    match j.range? x.wt (s.writeSlot j x.wt) o.first o.count with
    | some y =>
      let (f, s) := (s.bindScale x.wt (s.writeSlot j x.wt)).putState j x.wt (s.writeSlot j x.wt) o.first o.count wb
      (f, s.reprint y wb.length)
    | none => (some (.bad cMemRange), s)
  [float x.mt mc, moment 2 o.m1, moment 3 o.m2, ema, recipeState, work, fun s => s.zeroGrad j x.g u o]

/-- Write what a pass has computed. Masked elements keep the bits of their current version (R172, R188). Its conversions form one record,
in CORE_XFER (R55, R57, R58; log entry 138, DESIGN CHOICE); blocks that `a` names fail their writes (R311). -/
def State.commitPass (s : State) (a : Attr) (j : Job) (r : Recipe) (o : UpdArg) (x : UpdTensors) (reads : Nat) (u : PassUse)
    (v : PassVals) : State :=
  let masters := s.newMasters j o x.mt v
  let mc := s.elemCvts j x.mt u.step o.first (v.out 1)
  let ec := match o.ema.bind j.tensor?, r.outSlot 4 != 0xFF with
    | some t, true => s.elemCvts j t u.step o.first (v.out 4)
    | _, _ => []
  let w := s.workOut j x.wt u.step o.first masters
  let s := s.setXfer a.core (convStat reads (keptCvts v.keep mc ++ keptCvts v.keep ec ++ w.2))
  let was := s.failing
  let (f, s) := ({ s with failing := failedBlocks a.mem }).deposits (passDeposits j r o x u v mc ec w.1)
  let s := { s with failing := was }
  match f with
  | some f => s.fetchFails a f
  | none => ((s.noteMasters j x.mt x.wt masters).afterStaging a.core r x.mt o.count).updateDone j x.mt o.count

/-! ### A layer's pass -/

/-- One UPDATE of a pass with its tensors, the subnormals that its reads flushed, and its staged part. -/
structure Staged where
  a : Attr
  o : UpdArg
  x : UpdTensors
  k : Nat
  p : RPart

def Job.updTensors (j : Job) (o : UpdArg) : Option UpdTensors :=
  match j.tensor? o.master, j.tensor? o.grad, j.tensor? o.work with
  | some mt, some g, some wt => some { mt, g, wt }
  | _, _, _ => none

/-- Stage the commands of a pass, in increasing manifest and canonical index. -/
def State.stageList (s : State) (j : Job) (r : Recipe) (u : PassUse) : List (Attr × UpdArg) → (Attr × Fetch) ⊕ List Staged
  | [] => .inr []
  | (a, o) :: rest => match j.updTensors o with
    | none => .inl (a, .bad cCmdBadOperand)
    | some x => match s.stagePart j r o x.mt x.g u, s.stageList j r u rest with
      | .inl f, _ => .inl (a, f)
      | .inr _, .inl e => .inl e
      | .inr p, .inr ps => .inr ({ a, o, x, k := p.1, p := p.2 } :: ps)

def sortUpd (l : List (Attr × UpdArg)) : List (Attr × UpdArg) :=
  (sortKeys (l.map (fun e => (e.2.master * 2 ^ 64 + e.2.first, e)))).map (·.2)

/-- An UPDATE's status in its core's window. -/
def State.markUpd (s : State) (a : Attr) (o : UpdArg) (st : CmdStatus) : State :=
  s.setCore a.core { s.core a.core with window := (s.core a.core).window.map (fun w =>
    if w.cmd == .update a o && w.status != .waiting && w.status != .held then { w with status := st } else w) }

/-- The environment a pass starts in. -/
def passEnv (r : Recipe) (u : PassUse) (q : List W32) (ps : List RPart) : REnv :=
  { parts := ps, sc := passScalars r u q, cols := [] }

/-- The same environment with 0 for every finite value and 1 for every other: its run by `taintAlg` tells which results rest on
finite inputs alone (R218). -/
def taintEnv (r : Recipe) (q : List W32) (ps : List RPart) : REnv :=
  let mark (w : W32) : W32 := if fin32 w then 0 else 1
  { parts := ps.map (fun p => { p with el := p.el.map (fun e => (e.1, e.2.map mark)) })
    sc := (List.range r.nQ).map (fun i => (0x60 + i, mark (q.getD i 0))), cols := [] }

/-- Run a layer's recipe over the commands `us` of its pass, and commit them, halt before anything is deposited (R218), or
leave them staged while a layer reduction waits for the other owners. -/
def State.runPass (s : State) (j : Job) (r : Recipe) (l : Nat) (u : PassUse) (us : List (Attr × UpdArg)) : State :=
  let us := sortUpd us
  match s.stageList j r u us, us.head?.map (fun e => s.passState j r e.2) with
  | .inl (a, f), _ => s.fetchFails a f
  | .inr ps, some (.inl f) => match ps with
    | p :: _ => s.fetchFails p.a f
    | [] => s
  | .inr ps, some (.inr q) =>
    let s := { s with stp := { s.stp with qBase := setAssoc s.stp.qBase l q } }
    match (passEnv r u q (ps.map (·.p))).run (valueAlg pairadd) r.pts (s.gatherUnits j r l) 0 r.ops,
        (taintEnv r q (ps.map (·.p))).run taintAlg r.pts (fun _ mine => some mine) 0 r.ops with
    | .waits k mine, _ => s.sendUnits j r l k mine
    | .done v, .done t =>
      let vals := ps.zipIdx.map (fun p => (p.1, passVals r v t p.2))
      let s := { s with stp := { s.stp with staged := s.stp.staged.filter (fun e => e.2.layer != l) } }
      match vals.find? (fun p => p.2.bad) with
      | some p => (s.markUpd p.1.a p.1.o .issuing).coreHalt p.1.a cUpdNonfinite false
      | none => vals.foldl (fun s p =>
          if s.coreLive p.1.a.core then
            (((s.markUpd p.1.a p.1.o .issuing).commitPass p.1.a j r p.1.o p.1.x p.1.k u p.2).markUpd p.1.a p.1.o (.done s.now))
          else s) s
    | .done _, .waits _ _ => s
  | .inr _, none => s

/-- Elements of a layer's masters that this package owns. -/
def Job.layerElems (j : Job) (l : Nat) : Nat := ((j.ownedMasters l).map j.ownedElems).sum

/-- Run a staged layer's pass once every element this package owns of the layer is staged (Table 8.4). -/
def State.tryPass (s : State) (j : Job) (l : Nat) : State :=
  let us := s.stp.staged.filter (fun e => e.2.layer == l)
  match us, j.recipes[l]? with
  | e :: _, some rb =>
    match (j.tensor? e.2.master).bind (fun t => s.passUse j t) with
    | some u =>
      if (us.map (fun e => e.2.count)).sum < j.layerElems l then s else s.runPass j (recipeOf rb) l u us
    | none => s
  | _, _ => s

/-- Every staged layer whose reductions have come in goes on. -/
def State.resumePasses (s : State) : State :=
  match s.job with
  | some j => ((s.stp.staged.map (fun e => e.2.layer)).eraseDups).foldl (fun s l => s.tryPass j l) s
  | none => s

/-- UPDATE: a pass that does not run only clears its gradient (R191, R216). A layer reduction takes the layer's whole part on
this package at once, so its commands stage and wait for one another (Table 8.4). -/
def State.update (s : State) (a : Attr) (j : Job) (o : UpdArg) : State :=
  match j.recipes[o.layer]?, j.updTensors o with
  | some rb, some x =>
    let r := recipeOf rb
    if !updateFits r x.mt o || !s.stagedFits j r a o then s.checkFail a cCmdBadOperand
    else if !updateFmts j r o then s.checkFail a cFormatMismatch
    else
      let s := s.settleReduce
      match s.passUse j x.mt with
      | none => s
      | some u =>
        if !u.runs then
          let (f, s) := s.zeroGrad j x.g u o
          match f with
          | some f => s.fetchFails a f
          | none => s
        else if r.layerReds = 0 then s.runPass j r o.layer u [(a, o)]
        else ({ s with stp := { s.stp with staged := s.stp.staged ++ [(a, o)] } }).tryPass j o.layer
  | _, _ => s.checkFail a cCmdBadOperand

end Sys2Proof.Machine
end

