-- ==== Sys2Proof/Machine/Scheduler.lean ====
section
/-! DEFINITION. The sheepdog scheduler (R132 to R137): footprints and conflicts, the window, when a command is ready, which
ready command an engine takes, and retirement in stream order. A command that issues completes in the same cycle, since
cycle counts are left out (log entry 105). -/

namespace Sys2Proof.Machine
open Sys2Proof

/-! ### Footprints (R132) -/

/-- A resource of a footprint, within one core: a data SRAM range, the staging area of a layer's update pass, which is all of
data SRAM and which the layer's UPDATEs share (R222), a group with its accumulator regions and tile entries, an entry of the
NI send or delivery buffer, a stream context, an instruction bank, or a range of device memory. -/
inductive Claim where
  | sram (off len : Nat)
  | staging (layer : Nat)
  | group (g : Nat)
  | sendBuf (stream seq : Nat)
  | dlvBuf (stream seq : Nat)
  | context (stream : Nat)
  | bank (b : Nat)
  | mem (addr len : Nat)
  deriving DecidableEq, Repr

/-- The two claims name a common resource. -/
def Claim.meets : Claim → Claim → Bool
  | .sram a n, .sram b m => overlap a n b m
  | .mem a n, .mem b m => overlap a n b m
  | .staging x, .staging y => decide (x ≠ y)
  | .staging _, .sram _ _ => true
  | .sram _ _, .staging _ => true
  | x, y => decide (x = y)

/-- A command's read set and write set. -/
structure Footprint where
  reads  : List Claim
  writes : List Claim
  deriving DecidableEq, Repr

def anyMeets (xs ys : List Claim) : Bool := xs.any (fun x => ys.any x.meets)

/-- Two commands conflict if one of them writes a resource that the other reads or writes. -/
def Footprint.conflicts (f g : Footprint) : Bool :=
  anyMeets f.writes (g.reads ++ g.writes) || anyMeets g.writes f.reads

/-- The device memory of elements `first` on of a tensor's version slot `v`. -/
def Job.memClaim (j : Job) (t : Tensor) (v first n : Nat) : List Claim :=
  (j.range? t v first n).toList.map (fun a => .mem a (t.bytesOf first n))

/-- The rows of a tile in a tensor laid out like the group's output. -/
def Job.tileClaims (j : Job) (t : Tensor) (v : Nat) (a : TileArg) : List Claim :=
  (List.range a.rows).flatMap (fun m => j.memClaim t v ((a.m0 + m) * t.rowLen + a.n0) a.cols)

/-- The scent tensors that a conversion reads and writes, whole. -/
def State.scentClaims (s : State) (j : Job) (c : Conv) : List Claim × List Claim :=
  let whole (x : Nat) : List Claim := match j.tensor? x with
    | some t => (j.places.filter (fun p => p.tensor == x)).flatMap (fun p => j.memClaim t (s.readSlot j t) p.first (j.partCount t p.first))
    | none => []
  ((c.back.map (fun b => whole b.scent)).getD [], ((c.act.bind (·.scent)).map whole).getD [])

/-- Footprint of RETRIEVE and DEPOSIT. -/
def State.retrieveFoot (s : State) (core : Nat) (j : Job) (o : RetArg) : Footprint :=
  match j.tensor? o.tensor with
  | none => { reads := [], writes := [] }
  | some t =>
    let v := s.readSlot j t
    let sc := (o.conv.map (s.scentClaims j)).getD ([], [])
    { reads := (s.retrieveRuns core t o).flatMap (fun r => j.memClaim t v r.1 r.2) ++ sc.1
        ++ (o.gather.map (fun g => Claim.sram g.1 (4 * g.2))).toList
      writes := .sram o.dst (retrieveBytes t o) :: sc.2 }

def State.depositFoot (s : State) (j : Job) (o : DepArg) : Footprint :=
  match j.tensor? o.tensor with
  | none => { reads := [], writes := [] }
  | some t =>
    let sc := (o.conv.map (s.scentClaims j)).getD ([], [])
    let bytes := if o.conv.isSome then sramBytes o.sfmt t.ns t.rowLen o.count else t.bytesOf o.first o.count
    { reads := (if o.zero then [] else [.sram o.src bytes]) ++ sc.1
      writes := j.memClaim t (s.depositSlot j t) o.first o.count ++ sc.2 }

/-- Footprint of OPEN: it takes its group and reads its preload. -/
def State.openFoot (s : State) (j : Job) (o : OpenArg) : Footprint :=
  { writes := [.group o.group]
    reads := match o.preload with
      | .bias _ _ x first => (j.tensor? x).toList.flatMap (fun t => o.tiles.flatMap (fun a =>
          j.memClaim t (s.readSlot j t) (first + a.n0) a.cols))
      | .residual _ _ x => (j.tensor? x).toList.flatMap (fun t => o.tiles.flatMap (j.tileClaims t (s.readSlot j t)))
      | _ => [] }

/-- The OPEN, and the tiles, of the group that a command of core `n` uses: the last OPEN of that group among the older commands `older`
of the window that have not completed, else the group that is open. -/
def State.groupPlan (s : State) (n group : Nat) (older : List WinCmd) : Option (OpenArg × List TileArg) :=
  let opens := older.filterMap (fun w => match w.cmd, w.status with
    | _, .done _ => none
    | .openGroup _ o, _ => if o.group = group then some (o, o.tiles) else none
    | _, _ => none)
  (opens.getLast?).orElse (fun _ => (s.group? n group).map (fun g => (g.o, g.tiles.map (·.arg))))

/-- The status records of a group's tiles (R91). -/
def Job.recordClaims (j : Job) (out : Tensor) (ts : List TileArg) : List Claim :=
  match j.tensor? out.status with
  | some st => ts.filterMap (fun t => (j.addr? st 0 t.recIdx).map (fun a => .mem a.1 16))
  | none => []

/-- Footprint of CLOSE: it ends its group and stores the tiles and their records. -/
def State.closeFoot (s : State) (core : Nat) (j : Job) (older : List WinCmd) (group : Nat) (dest : StoreDest) (c : Conv) : Footprint :=
  let sc := s.scentClaims j c
  let out' := match s.groupPlan core group older with
    | none => []
    | some (o, ts) => match j.tensor? o.out with
      | none => []
      | some out => j.recordClaims out ts ++ match dest with
        | .tensor => ts.flatMap (j.tileClaims out (s.writeSlot j out))
        | .sram off => ((tileStarts out.format off ts).zip ts).map (fun p =>
            Claim.sram p.1 (Sys2Proof.Machine.tileBytes out.format p.2))
  { reads := sc.1, writes := .group group :: out' ++ sc.2 }

/-- Footprint of UPDATE: it stages in data SRAM and owns the shard's tensors. -/
def State.updateFoot (s : State) (j : Job) (o : UpdArg) : Footprint :=
  let part (x : Nat) : List Claim := (j.tensor? x).toList.flatMap (fun t =>
    j.memClaim t (s.readSlot j t) o.first o.count ++ j.memClaim t (s.writeSlot j t) o.first o.count)
  { reads := [], writes := .staging o.layer ::
      ([o.master, o.grad, o.work] ++ o.m1.toList ++ o.m2.toList ++ o.ema.toList).flatMap part }

/-- The footprint that the device derives from a command's operands; `older`: the commands before it in the window. -/
def State.footprint (s : State) (j : Job) (older : List WinCmd) (c : Instr) : Footprint :=
  match c with
  | .openGroup _ o => s.openFoot j o
  | .accumulate a o =>
    let orient := ((s.groupPlan a.core o.group older).map (·.1.orient)).getD 0
    { reads := (accRanges orient o).map (fun r => .sram r.1 r.2), writes := [.group o.group] }
  | .close a g dest conv => s.closeFoot a.core j older g dest conv
  | .vop _ o =>
    let sc := s.scentClaims j o.conv
    { reads := .sram o.a (4 * o.n) :: (o.b.map (fun x => Claim.sram x (4 * o.nB))).toList
        ++ (o.c.map (fun x => Claim.sram x (4 * o.nC))).toList ++ sc.1
      writes := .sram o.dst (elemSize o.conv.dst 1 * vopCount o) :: sc.2 }
  | .vconvert _ src dst n f conv =>
    let sc := s.scentClaims j conv
    { reads := .sram src (elemSize f 1 * n) :: sc.1, writes := .sram dst (elemSize conv.dst 1 * n) :: sc.2 }
  | .flutter _ _ _ _ _ n mode _ dst => { reads := [], writes := [.sram dst (flutterBytes mode n)] }
  | .update _ o => s.updateFoot j o
  | .retrieve a o => s.retrieveFoot a.core j o
  | .deposit _ o => s.depositFoot j o
  | .send _ stream seq src _ _ => { reads := [.sram src 224], writes := [.sendBuf stream seq, .context stream] }
  | .accept _ stream seq dst => { reads := [], writes := [.dlvBuf stream seq, .sram dst 224] }
  | .contribute _ stream src count _ _ => { reads := [.sram src (max 12 (4 * count))], writes := [.context stream] }
  | .imemLoad _ _ bank => { reads := [], writes := [.bank bank] }
  | _ => { reads := [], writes := [] }

/-! ### Engines and effects (R135) -/

/-- The engines that take commands of the window, in the order the model serves them in a cycle: no rule orders engines, and no result
depends on it (R137; log entry 7). -/
inductive Engine where
  | lattice | vector | retriever | niSend | niAccept
  deriving DecidableEq, Repr

def engines : List Engine := [.lattice, .vector, .retriever, .niSend, .niAccept]

/-- The engine of a command; control commands have none. UPDATE uses the vector engine. -/
def engineOf : Instr → Option Engine
  | .openGroup _ _ | .accumulate _ _ | .close _ _ _ _ => some .lattice
  | .vop _ _ | .vconvert _ _ _ _ _ _ | .flutter _ _ _ _ _ _ _ _ _ | .update _ _ => some .vector
  | .retrieve _ _ | .deposit _ _ | .imemLoad _ _ _ => some .retriever
  | .send _ _ _ _ _ _ | .contribute _ _ _ _ _ _ => some .niSend
  | .accept _ _ _ _ => some .niAccept
  | _ => none

/-- The checks and the effect of a command that issues to an engine (R128, Table 5.3). -/
def State.perform (s : State) (j : Job) (c : Instr) : State :=
  match c with
  | .openGroup a o => s.checked a [] (fun s => s.openGroup a j o)
  | .accumulate a o => s.checked a [] (fun s => s.accumulate a j o)
  | .close a g dest conv => s.checked a [] (fun s => s.close a j g dest conv)
  | .vop a o =>
    s.checked a ([(o.a, 4 * o.n), (o.dst, elemSize o.conv.dst 1 * vopCount o)]
        ++ (o.b.map (fun x => (x, 4 * o.nB))).toList ++ (o.c.map (fun x => (x, 4 * o.nC))).toList)
      (fun s => s.vop a j o)
  | .vconvert a src dst n f conv =>
    s.checked a [(src, elemSize f 1 * n), (dst, elemSize conv.dst 1 * n)] (fun s => s.vconvert a j src dst n f conv)
  | .flutter a dom id draw e0 n mode thr dst =>
    s.checked a [(dst, flutterBytes mode n)] (fun s => s.flutterCmd a j dom id draw e0 n mode thr dst)
  | .update a o => s.checked a [] (fun s => s.update a j o)
  | .retrieve a o => s.checked a [] (fun s => s.retrieve a j o)
  | .deposit a o => s.checked a [] (fun s => s.deposit a j o)
  | .send a stream seq src slot pair => s.checked a [(src, 224)] (fun s => s.send a stream seq src slot pair)
  | .accept a stream seq dst => s.checked a [(dst, 224)] (fun s => s.accept a stream seq dst)
  | .contribute a stream src count unit slot => s.checked a [] (fun s => s.contribute a j stream src count unit slot)
  | .imemLoad a seg bank => s.checked a [] (fun s => s.imemLoad a seg bank)
  | _ => s

/-- A control command as the oldest unretired one: its checks, its effect and its retirement; none while it waits. -/
def State.control (s : State) (c : Instr) (since : Nat) (go : Bool) : Option State :=
  let guard (a : Attr) (k : State → Option State) : Option State :=
    if !a.defined || decide (a.engines &&& absentEngines ≠ 0) then some (s.checked a [] id)
    else if a.mem = { } then k s
    else if a.mem.unit.isSome then some (s.meetCore a id)
    else (k (s.meeting a.mem)).map (fun s => { s with failing := [] })
  match c with
  | .heel a h d waits => guard a (fun s => s.heel a h d waits since go)
  | .fence a => guard a (fun s => some (s.retire a))
  | .branch a target => guard a (fun s => some (s.branch a target))
  | .decide a mask target => guard a (fun s => some (s.decideBranch a mask target))
  | .swap a seg entry => guard a (fun s => s.swap a seg entry)
  | .endStream a => guard a (fun s => some (s.endCore a))
  | _ => some s

/-! ### Handing over what is due (R32, R256) -/

/-- Flits whose delivery slot has come are delivered, the earliest first. -/
def State.deliverDue (s : State) : State :=
  (s.fab.held.filter (fun h => h.atEndpoint && decide (s.packOf h.due ≤ s.now))).foldl (fun s h => s.handOver h) s

/-! ### The window (R133, R134) -/

def State.setWindow (s : State) (n : Nat) (w : List WinCmd) : State := s.setCore n { s.core n with window := w }

/-- What a command needs beside its engine and its place: room in the NI send buffer, or the end of its delivery slot. -/
def State.unblocked (s : State) (n : Nat) (c : Instr) : Bool :=
  match c with
  | .send _ _ _ _ _ _ => s.sendRoom n
  | .accept _ stream seq _ => s.acceptReady n stream seq
  | _ => true

/-- A command that has not been issued. -/
def WinCmd.waits (w : WinCmd) : Bool := w.status == .waiting || w.status == .held

def WinCmd.isDone (w : WinCmd) : Bool :=
  match w.status with
  | .done _ => true
  | _ => false

/-- Entry `i` of the window is ready (R134): no older command that has not completed conflicts with it. -/
def State.ready (s : State) (j : Job) (n i : Nat) : Bool :=
  let w := (s.core n).window
  match w[i]? with
  | some x =>
    x.waits && s.unblocked n x.cmd
      && (w.take i).zipIdx.all (fun y => y.1.isDone
        || !(s.footprint j (w.take y.2) y.1.cmd).conflicts (s.footprint j (w.take i) x.cmd))
  | none => false

/-- Rank of a kind among ready commands: XFER, BWD, FWD, UPD (R135). -/
def kindRank : Kind → Nat
  | .xfer => 0
  | .bwd => 1
  | .fwd => 2
  | .upd => 3
  | .ctrl => 4

/-- Rank of a command. -/
def cmdRank (c : Instr) : Nat := ((c.attr?).map (fun a => kindRank a.kind)).getD 4

/-- Cycles after which a ready command that was passed over goes first. -/
def agedAfter : Nat := 512

/-- The entry that an engine takes of its ready entries, listed oldest first (R135). -/
def pick (w : List WinCmd) (is : List Nat) : Option Nat :=
  (is.find? (fun i => (w[i]?).any (fun x => decide (agedAfter ≤ x.passed)))).orElse (fun _ =>
    (List.range 5).findSome? (fun r => is.find? (fun i => (w[i]?).any (fun x => cmdRank x.cmd == r))))

/-- Set the status of entry `i` of a window. -/
def setStatus (w : List WinCmd) (i : Nat) (st : CmdStatus) : List WinCmd := w.modify i (fun x => { x with status := st })

/-- The command is an UPDATE that has staged and waits for its layer's reduction. -/
def State.isStaged (s : State) (c : Instr) : Bool := s.stp.staged.any (fun e => c == .update e.1 e.2)

/-- Pack time at which a command of the window that issues now completes: that of its entry, or the slot after an ACCEPT's delivery
slot; now, if it has been waiting for room. -/
def State.doneTime (s : State) (n : Nat) (x : WinCmd) : Nat :=
  match x.cmd with
  | .accept _ stream seq _ => max x.since (((s.acceptSlot n stream seq).map (fun q => s.packOf q + 1)).getD 0)
  | _ => if x.status = .held then s.now else x.since

/-- After the effect of entry `i`: it has completed at pack time `t`, unless it has only staged, or the core halts (R130), which has left
the older commands alone in the window. -/
def State.afterIssue (s : State) (n i t : Nat) : State :=
  if !s.coreLive n || (s.core n).ending.isSome then s
  else
    let w := (s.core n).window
    s.setWindow n (setStatus w i (if (w[i]?).any (fun x => s.isStaged x.cmd) then .staged else .done t))

/-- One engine takes one ready command in this cycle. -/
def State.issueOne (s : State) (j : Job) (n : Nat) (e : Engine) : State :=
  if !s.coreLive n then s
  else
    let w := (s.core n).window
    let is := (List.range w.length).filter (fun i => (w[i]?).any (fun x => engineOf x.cmd == some e) && s.ready j n i)
    match pick w is with
    | none => s
    | some i =>
      let passed := w.zipIdx.map (fun p => if is.contains p.2 && p.2 != i then { p.1 with passed := p.1.passed + 1 } else p.1)
      match w[i]? with
      | some x => ((s.setWindow n (setStatus passed i .issuing)).perform j x.cmd).afterIssue n i (s.doneTime n x)
      | none => s

/-- The window closes behind a serialising command, and while the core is about to halt or freeze. -/
def CoreSt.closed (c : CoreSt) : Bool :=
  c.ending.isSome || decide (64 ≤ c.window.length) || c.window.any (fun x => serialises x.cmd)

/-- Commands of the stream enter the window in order, until it closes; a target freezes the core before its command (R430). -/
def State.takeIn (s : State) (n : Nat) : List Instr → State
  | [] => s.setCore n { s.core n with stream := [] }
  | c :: rest =>
    if (s.core n).closed then s.setCore n { s.core n with stream := c :: rest }
    else
      let a := (c.attr?).getD { core := n, offset := 0, tag := 0, kind := .ctrl, defined := false, engines := 0 }
      match (if s.armed then s.target? a else none) with
      | some (code, cause, kind) =>
        s.setCore n { s.core n with stream := c :: rest, ending := some (.freeze a code cause kind true true) }
      | none =>
        let s := if s.armed then s.skipTag a else s
        (s.setWindow n ((s.core n).window ++ [{ cmd := c, since := (s.core n).asOf, passed := 0, status := .waiting }])).takeIn n rest

/-- Commands retire in stream order (R136), each when it and all before it have completed. -/
def State.retireDone (s : State) (n : Nat) : List WinCmd → State
  | [] => s.setWindow n []
  | x :: rest => match x.status with
    | .done t =>
      let s := match x.cmd.attr? with
        | some a => (s.retire a).followed n t
        | none => s
      s.retireDone n rest
    | _ => s.setWindow n (x :: rest)

/-- A control command that is the oldest unretired one acts; it leaves the window unless it waits. -/
def State.frontControl (s : State) (n : Nat) (go : Bool) : State :=
  match (s.core n).window with
  | x :: rest =>
    if !s.coreLive n || (s.core n).ending.isSome || !serialises x.cmd then s
    else match s.control x.cmd (max x.since (s.core n).asOf) go with
      | some s =>
        if s.coreLive n then (s.setWindow n []).followed n (if x.status = .held then s.now else x.since) else s
      | none => match x.cmd with
        | .heel a h _ _ => s.waitAtHeel a.core h
        | _ => s.setWindow n ({ x with status := .held } :: rest)
  | [] => s

/-- With every older command complete, the halt or the freeze that waited for them happens (R130, R430). A freeze at a step boundary is
the package's: `State.saveEnd`. -/
def State.finishEnding (s : State) (n : Nat) : State :=
  let c := s.core n
  if c.window.isEmpty && s.coreLive n then
    match c.ending with
    | some (.halt _ _ _ _) => s.endHalts
    | some (.freeze a code cause kind own image) => if kind = 5 then s else s.freeze a code cause kind own image
    | none => s
  else s

/-- One cycle of a core: commands enter, each engine takes one, what is complete retires, a control command acts. -/
def State.cycle (s : State) (j : Job) (n : Nat) (go : Bool) : State :=
  let s := s.takeIn n (s.core n).stream
  let s := engines.foldl (fun s e => s.issueOne j n e) s
  let s := if s.coreLive n then s.retireDone n (s.core n).window else s
  s.frontControl n go

/-- A heel whose slot d has ended with older commands incomplete: the core's own lateness comes first (Table 5.5). -/
def State.lateHeel (s : State) (n : Nat) : State :=
  match (s.core n).window.getLast? with
  | some x => match x.cmd with
    | .heel a _ d _ =>
      if s.coreLive n && (s.core n).ending.isNone && decide (s.packOf d < s.now) then s.heelFails a true else s
    | _ => s
  | none => s

/-- SENDs that found no room are noted as waiting for it. -/
def State.noteHeld (s : State) (n : Nat) : State :=
  s.setWindow n ((s.core n).window.map (fun x => match x.cmd with
    | .send _ _ _ _ _ _ => if x.status = .waiting ∧ !s.sendRoom n then { x with status := .held } else x
    | _ => x))

/-- WINDOW of CORE_STATE shows the window's length. -/
def State.showWindow (s : State) (n : Nat) : State :=
  if s.coreLive n then s.setCfld n oState 4 7 ((s.core n).window.length) else s

/-- Cycles until nothing more can issue: each one but the last takes a command or retires one. -/
def State.runCore (s : State) (j : Job) (n : Nat) (go : Bool) : Nat → State
  | 0 => s
  | f + 1 =>
    let c := s.core n
    if !s.coreLive n || (c.window.isEmpty && (c.stream.isEmpty || c.ending.isSome)) then s
    else (s.cycle j n go).runCore j n go f

/-- Run a core until it waits (R137: the order of issue changes no result). -/
def State.runWindow (s : State) (n : Nat) (go : Bool) : State :=
  match s.job with
  | some j =>
    let c := s.core n
    (((s.runCore j n go (2 * (c.window.length + c.stream.length) + 4)).lateHeel n).noteHeld n).showWindow n
  | none => s

/-- Some core holds a command that waits, or is about to halt or to freeze. -/
def State.anyWaits (s : State) : Bool := s.used.any (fun n => !(s.core n).window.isEmpty || (s.core n).ending.isSome)

/-- What pack time's advance brings to the cores: deliveries that are due, then every core that holds a waiting command; at last what
halts or freezes with all its older commands complete, so that the faults of one slot meet (R424). -/
def State.settle (s : State) : State :=
  if s.issuing && s.anyWaits then
    let s := s.deliverDue
    let s := s.used.foldl (fun s n => if (s.core n).window.isEmpty then s else s.runWindow n false) s
    (s.used.foldl (fun s n => s.finishEnding n) s).saveEnd
  else s

/-! ### A command of a core's stream -/

/-- A command that finds the window empty, every older command having retired: a target freezes the core before it, else it
issues at once, or enters the window to wait. -/
def State.enterAlone (s : State) (j : Job) (a : Attr) (c : Instr) : State :=
  match (if s.armed then s.target? a else none) with
  | some (code, cause, kind) => s.freeze a code cause kind true true
  | none =>
    let s := if s.armed then s.skipTag a else s
    let wait (s : State) (st : CmdStatus) : State :=
      (s.setWindow a.core [{ cmd := c, since := s.now, passed := 0, status := st }]).showWindow a.core
    if serialises c then
      match s.control c s.now true with
      | some s => s
      | none => match c with
        | .heel _ h _ _ => wait (s.waitAtHeel a.core h) .waiting
        | _ => wait s .held
    else if s.unblocked a.core c then
      let s := s.perform j c
      if s.isStaged c then wait s .staged
      else if s.coreLive a.core then s.retire a else s
    else wait s (if engineOf c = some .niSend then .held else .waiting)

/-- The next command of a core's stream: one whose window is not empty reads the command behind it. -/
def State.submit (s : State) (j : Job) (a : Attr) (c : Instr) : State :=
  let s := s.deliverDue
  let n := a.core
  if (s.core n).window.isEmpty && (s.core n).stream.isEmpty && (s.core n).ending.isNone then s.enterAlone j a c
  else ((s.setCore n { s.core n with stream := (s.core n).stream ++ [c] }).followed n s.now).runWindow n true

/-- A core command: it joins its core's stream, unless its core does not fetch; pack time may move, and other cores with
it. -/
def coreCmd (a : Attr) (c : Instr) (s : State) : Res :=
  s.whenLive (fun s => match s.job with
    | some j => if s.fetching a.core then (s.submit j a c).settle else s
    | none => s)

end Sys2Proof.Machine
end

