-- ==== Sys2Proof/Machine/Cores.lean ====
section
/-! DEFINITION. The commands of a core's stream (Table 5.2): each joins its core's window; `Scheduler.lean` says when it has
its effect, the family's file what that effect is. -/

namespace Sys2Proof.Machine
open Sys2Proof

/-- HEEL (R138). Slots are schedule slots from the run's slot 0. -/
def execHeel (a : Attr) (h d : Nat) (waits : List (Nat × Nat)) (s : State) : Res := coreCmd a (.heel a h d waits) s

/-- FENCE (Table 5.2): every older command has completed. -/
def execFence (a : Attr) (s : State) : Res := coreCmd a (.fence a) s

/-- BRANCH (Table 5.2). -/
def execBranch (a : Attr) (target : Nat) (s : State) : Res := coreCmd a (.branch a target) s

/-- DECIDE (Table 5.2). -/
def execDecide (a : Attr) (mask target : Nat) (s : State) : Res := coreCmd a (.decide a mask target) s

/-- SWAP (R142). -/
def execSwap (a : Attr) (segment entry : Nat) (s : State) : Res := coreCmd a (.swap a segment entry) s

/-- END (R140, R432). -/
def execEndStream (a : Attr) (s : State) : Res := coreCmd a (.endStream a) s

/-- OPEN (R78 to R82). -/
def execOpenGroup (a : Attr) (o : OpenArg) (s : State) : Res := coreCmd a (.openGroup a o) s

/-- ACCUMULATE (R81, R87). -/
def execAccumulate (a : Attr) (o : AccArg) (s : State) : Res := coreCmd a (.accumulate a o) s

/-- CLOSE (R82, R108). -/
def execClose (a : Attr) (group : Nat) (dest : StoreDest) (conv : Conv) (s : State) : Res :=
  coreCmd a (.close a group dest conv) s

/-- VOP. MAX2 takes the operation's result as its first input and operand b as its second (log entry 47). -/
def execVop (a : Attr) (o : VopArg) (s : State) : Res := coreCmd a (.vop a o) s

/-- VCONVERT (R57). -/
def execVconvert (a : Attr) (src dst n : Nat) (sfmt : Fmt) (conv : Conv) (s : State) : Res :=
  coreCmd a (.vconvert a src dst n sfmt conv) s

/-- FLUTTER (R165). -/
def execFlutter (a : Attr) (dom id draw e0 n : Nat) (mode : FltMode) (thr dst : Nat) (s : State) : Res :=
  coreCmd a (.flutter a dom id draw e0 n mode thr dst) s

/-- UPDATE (R217). -/
def execUpdate (a : Attr) (o : UpdArg) (s : State) : Res := coreCmd a (.update a o) s

/-- RETRIEVE (R314). -/
def execRetrieve (a : Attr) (o : RetArg) (s : State) : Res := coreCmd a (.retrieve a o) s

/-- DEPOSIT (R314). -/
def execDeposit (a : Attr) (o : DepArg) (s : State) : Res := coreCmd a (.deposit a o) s

/-- SEND (R254, R474). -/
def execSend (a : Attr) (stream seq src slot : Nat) (pairForm : Bool) (s : State) : Res :=
  coreCmd a (.send a stream seq src slot pairForm) s

/-- ACCEPT (R134). -/
def execAccept (a : Attr) (stream seq dst : Nat) (s : State) : Res := coreCmd a (.accept a stream seq dst) s

/-- CONTRIBUTE (R292). A value that comes after the last send slot is not taken. -/
def execContribute (a : Attr) (stream src count unit slot : Nat) (s : State) : Res :=
  coreCmd a (.contribute a stream src count unit slot) s

/-- IMEM_LOAD (R141). -/
def execImemLoad (a : Attr) (segment bank : Nat) (s : State) : Res := coreCmd a (.imemLoad a segment bank) s

end Sys2Proof.Machine
end

