-- ==== Sys2Proof/Machine/Timed.lean ====
section
/-! DEFINITION. The commands that move pack time (log entry 8), other than those of the cores' streams: when one has had its
effect, what waits for the time it brought follows (`State.settle`). -/

namespace Sys2Proof.Machine
open Sys2Proof

/-- A command on a package that answers; then what waits in the cores follows. -/
def State.whenTimed (s : State) (f : State → State) : Res := s.whenLive (fun s => (f s).settle)

/-! ### Cores -/

/-- The end of a waiting heel's slot d (R139): what is due by then is delivered, and the heel retires or fails. -/
def State.heelDeadline (s : State) (n : Nat) : State :=
  match (s.core n).window.getLast? with
  | some x => match x.cmd with
    | .heel a _ d _ =>
      let s := ((s.advanceTo (s.packOf d)).deliverDue).runWindow n false
      if (s.core n).ending.isSome then s
      else match (s.core n).window with
        | [] => s
        | [_] => s.heelFails a false
        | _ => s.heelFails a true
    | _ => s
  | none => s

/-- HEEL_DEADLINE (R139). -/
def execHeelDeadline (n : Nat) (s : State) : Res :=
  s.whenTimed (fun s => if s.issuing && s.coreLive n then s.heelDeadline n else s)

/-- BREAK_FREEZE (R430): `a` is the command about to enter the window of an armed run. With commands of the window still to
complete, the freeze waits for them. -/
def State.breakFreeze (s : State) (a : Attr) : State :=
  if s.fetching a.core && s.armed then
    match s.target? a with
    | some (code, cause, kind) =>
      if (s.core a.core).window.isEmpty then s.freeze a code cause kind true true
      else s.setCore a.core { s.core a.core with ending := some (.freeze a code cause kind true true) }
    | none => s
  else s

/-- BREAK_FREEZE (R430). -/
def execBreakFreeze (a : Attr) (s : State) : Res := s.whenTimed (fun s => s.breakFreeze a)

/-- IMEM_BANK_LOAD_COMPLETE (R141): the last byte of a bank's load is written; a SWAP may wait for it (R142). -/
def execImemBankLoadComplete (n bank : Nat) (s : State) : Res :=
  s.whenTimed (fun s => if s.issuing ∧ bank < 2 ∧ s.bankState n bank = 1 then s.bankLoaded n bank else s)

/-- The boundary of a CTX_SAVE is reached (R435): pack time comes to the origin, the cores complete what is due by then, and each that
has not yet met its heel there stops before its next command. -/
def State.saveReached (s : State) (j : Job) : State :=
  match s.ctxDue with
  | none => s
  | some r =>
    let s := (s.advanceTo (s.packOf s.saveOrigin)).settle
    if s.issuing then
      let s := s.used.foldl (fun s n => s.saveMark n) s
      if s.used.any s.coreLive then s else s.saveNow j r.2.2.1
    else s

/-- STEP_ORIGIN (R190): the first one takes the origin of the run's first step; each later one ends a step. At the boundary of a
CTX_SAVE the run goes no further (R435). -/
def execStepOrigin (s : State) : Res :=
  s.whenTimed (fun s => match s.job with
    | some j => if s.issuing then (if s.ctxDue.isSome then s.saveReached j else s.stepOrigin j) else s
    | none => s)

/-- CTX_SAVE_FREEZE (R435). -/
def execCtxSaveFreeze (s : State) : Res :=
  s.whenTimed (fun s => match s.job with
    | some j => if s.issuing then s.saveReached j else s
    | none => s)

/-! ### The fabric -/

/-- SCHEDULED_SEND_SLOT (R245, R255). -/
def execScheduledSendSlot (p : Nat) (s : State) : Res :=
  s.whenTimed (fun s => if s.issuing then s.nextSlotSend p else s)

/-- FORWARD_SEND (R260). -/
def execForwardSend (p : Nat) (s : State) : Res :=
  s.whenTimed (fun s => if s.issuing then s.forwardNext p else s)

/-- RESEND_SPARE (R259): the failed flit goes out in its spare with RESEND = 1 and its original stamp. -/
def execResendSpare (p : Nat) (s : State) : Res :=
  s.whenTimed (fun s =>
    match s.resends p with
    | (sp, x) :: _ =>
      let s := (s.advanceTo (s.packOf sp)).txDone p x.slot
      if s.issuing && s.portUp p && (s.port p).stops.isEmpty then
        (s.addFld (rPortErr p) 16 16 1).resendIn p sp x
      else s
    | [] => s)

/-- RETRY_OVERRUN (R258). -/
def execRetryOverrun (p : Nat) (s : State) : Res :=
  s.whenTimed (fun s =>
    match s.overruns p with
    | (sp, q) :: _ => ((s.advanceTo (s.packOf sp)).txDone p q).raise cRetryOverrun 1 p
    | [] => s)

/-- RETRY_EXHAUSTED (R259): what the receiver found in the earliest re-send spare it waits for. -/
def execRetryExhausted (p : Nat) (found : Option Flit) (s : State) : Res :=
  s.whenTimed (fun s =>
    match s.expects p with
    | (sp, q) :: _ =>
      let s := s.advanceTo (s.packOf sp)
      let good := match found with
        | some f => f.good && f.resend && f.sendStamp % 2 ^ 24 == s.packOf q % 2 ^ 24
        | none => false
      if good then s else s.retryFails p q
    | [] => s)

/-- FLIT_DELIVERY (R256, R261). -/
def execFlitDelivery (stream seq : Nat) (s : State) : Res :=
  s.whenTimed (fun s => if s.issuing then s.flitDeliver stream seq else s)

/-- PLACE_DELIVERY (R474, R297). -/
def execPlaceDelivery (stream : Nat) (seq : MetNat) (s : State) : Res :=
  s.whenTimed (fun s =>
    match s.fab.held.find? (fun h => h.kind == .place && h.stream == stream && h.seq == seq.n), s.stream? stream with
    | some h, some c =>
      let s := s.advanceTo (s.packOf h.due)
      s.meet seq.mem (fun s => ({ s with fab := { s.fab with held := s.fab.held.erase h } }).placeArrive h c)
    | _, _ => s)

/-- REDUCE_APPLY (R281). -/
def execReduceApply (stack : MetNat) (s : State) : Res :=
  s.whenTimed (fun s => s.meet stack.mem (fun s => s.reduceApply stack.n))

/-- COLLECTIVE_LAST_SEND_SLOT (R294). -/
def execCollectiveLastSendSlot (id : Nat) (s : State) : Res :=
  s.whenTimed (fun s =>
    match s.inst? id with
    | some i => if s.issuing then s.lastSend i else s
    | none => s)

/-- COLLECTIVE_DELIVERY (R294). -/
def execCollectiveDelivery (id : Nat) (s : State) : Res :=
  s.whenTimed (fun s =>
    match s.inst? id with
    | some i => if s.issuing then (s.collDeliver i).resumePasses else s
    | none => s)

/-! ### Hostlink and power -/

/-- INPUT_DEADLINE (R345). -/
def execInputDeadline (ix : Nat) (s : State) : Res :=
  s.whenTimed (fun s =>
    match s.issuing, s.job with
    | true, some j => match j.inputs[ix]? with
      | some decl => s.inputCheck ix decl j.inputs
      | none => s
    | _, _ => s)

/-- DESC_DEADLINE (R346): the end of the deadline slot; a descriptor still incomplete ends with DESC_TIMEOUT. -/
def execDescDeadline (q i : Nat) (s : State) : Res :=
  s.whenTimed (fun s =>
    match s.desc? q i with
    | some d =>
      if d.deadline ≠ 0 ∧ d.done.isNone then
        let dev := d.f 24 8
        let n := d.f 32 8
        let s := if d.f 0 1 = 2 ∧ d.fetchAt ≤ d.deadline ∧ copyBad (d.f 16 8) dev n = false ∧ s.copyCode dev n = 0 then
            s.brokenCopy dev n
          else if d.f 0 1 = 6 ∧ d.fetchAt ≤ d.deadline ∧ s.bu = stReady ∧ d.f 16 8 % 64 = 0 ∧ d.f 24 8 ≠ 0
              ∧ (s.startable? q i 6).isSome then
            s.discardJob.loosen s.job.toList
          else s
        (((s.advanceTo d.deadline).startDesc q i).decideDesc q i cDescTimeout 0 false).dropWaits q i
      else s
    | none => s)

/-- POWER_INTERVAL_END (R406). -/
def execPowerIntervalEnd (s : State) : Res := s.whenTimed State.intervalEnd

/-- BEAT_START (R246). -/
def execBeatStart (a : Activity) (s : State) : Res := s.whenTimed (fun s => s.beatStarts a)

end Sys2Proof.Machine
end

