-- ==== Sys2Proof/Machine/Tick.lean ====
section
/-! DEFINITION. One slot of time with no command: what the step does on an empty queue (log entry 51, DESIGN CHOICE). -/

namespace Sys2Proof.Machine
open Sys2Proof

/-- Pack time moves on by one slot, and what waits for it takes effect; a package without power stands still. -/
def State.tick (s : State) : State :=
  if s.dark then s
  else
    (s.advanceTo (s.now + 1)).settle

end Sys2Proof.Machine
end

