-- ==== Sys2Proof/Machine/Dispatch.lean ====
section
/-! DEFINITION. One arm per command: each a direct call of its meaning. -/

namespace Sys2Proof.Machine
open Sys2Proof

def exec (i : Instr) (s : State) : Host.Outcome State Fault Refusal :=
  match i with
  | .vin48Valid leadSel i3cA1 i3cA0 flash1v8 => Sys2Proof.Machine.execVin48Valid leadSel i3cA1 i3cA0 flash1v8 s
  | .vin48Loss => Sys2Proof.Machine.execVin48Loss s
  | .sb33Loss => Sys2Proof.Machine.execSb33Loss s
  | .sb33Return => Sys2Proof.Machine.execSb33Return s
  | .mcSelfCheckDone mc romOk sramOk => Sys2Proof.Machine.execMcSelfCheckDone mc romOk sramOk s
  | .leaderHandshakeSignal mc sig => Sys2Proof.Machine.execLeaderHandshakeSignal mc sig s
  | .candidateTimeout mc => Sys2Proof.Machine.execCandidateTimeout mc s
  | .leaderConfirmTimeout mc => Sys2Proof.Machine.execLeaderConfirmTimeout mc s
  | .aliveToggle mc => Sys2Proof.Machine.execAliveToggle mc s
  | .aliveTimeout mc => Sys2Proof.Machine.execAliveTimeout mc s
  | .mcLeadForce mc value => Sys2Proof.Machine.execMcLeadForce mc value s
  | .inspect f => Sys2Proof.Machine.execInspect f s
  | .commit => Sys2Proof.Machine.execCommit s
  | .run => Sys2Proof.Machine.execRun s
  | .jobStart => Sys2Proof.Machine.execJobStart s
  | .stop => Sys2Proof.Machine.execStop s
  | .reset full f => Sys2Proof.Machine.execReset full f s
  | .heel a h d waits => Sys2Proof.Machine.execHeel a h d waits s
  | .heelDeadline core => Sys2Proof.Machine.execHeelDeadline core s
  | .fence a => Sys2Proof.Machine.execFence a s
  | .branch a target => Sys2Proof.Machine.execBranch a target s
  | .decide a mask target => Sys2Proof.Machine.execDecide a mask target s
  | .swap a segment entry => Sys2Proof.Machine.execSwap a segment entry s
  | .endStream a => Sys2Proof.Machine.execEndStream a s
  | .openGroup a o => Sys2Proof.Machine.execOpenGroup a o s
  | .accumulate a o => Sys2Proof.Machine.execAccumulate a o s
  | .close a group dest conv => Sys2Proof.Machine.execClose a group dest conv s
  | .vop a o => Sys2Proof.Machine.execVop a o s
  | .vconvert a src dst n sfmt conv => Sys2Proof.Machine.execVconvert a src dst n sfmt conv s
  | .flutter a dom id draw e0 n mode thr dst => Sys2Proof.Machine.execFlutter a dom id draw e0 n mode thr dst s
  | .update a o => Sys2Proof.Machine.execUpdate a o s
  | .retrieve a o => Sys2Proof.Machine.execRetrieve a o s
  | .deposit a o => Sys2Proof.Machine.execDeposit a o s
  | .send a stream seq src slot pairForm => Sys2Proof.Machine.execSend a stream seq src slot pairForm s
  | .accept a stream seq dst => Sys2Proof.Machine.execAccept a stream seq dst s
  | .contribute a stream src count unit slot => Sys2Proof.Machine.execContribute a stream src count unit slot s
  | .imemLoad a segment bank => Sys2Proof.Machine.execImemLoad a segment bank s
  | .imemBankLoadComplete core bank => Sys2Proof.Machine.execImemBankLoadComplete core bank s
  | .breakFreeze a => Sys2Proof.Machine.execBreakFreeze a s
  | .ctxSaveFreeze => Sys2Proof.Machine.execCtxSaveFreeze s
  | .stepOrigin => Sys2Proof.Machine.execStepOrigin s
  | .chrysalisReady slot => Sys2Proof.Machine.execChrysalisReady slot s
  | .memChryRel value => Sys2Proof.Machine.execMemChryRel value s
  | .portModeWrite port value => Sys2Proof.Machine.execPortModeWrite port value s
  | .train port => Sys2Proof.Machine.execTrain port s
  | .trainingStateComplete port info => Sys2Proof.Machine.execTrainingStateComplete port info s
  | .trainingTimeout port => Sys2Proof.Machine.execTrainingTimeout port s
  | .fecLockLoss port lane => Sys2Proof.Machine.execFecLockLoss port lane s
  | .linkSilence port => Sys2Proof.Machine.execLinkSilence port s
  | .scheduledSendSlot port => Sys2Proof.Machine.execScheduledSendSlot port s
  | .dataFlitReceive port slot f => Sys2Proof.Machine.execDataFlitReceive port slot f s
  | .failedFlitReceive port slot => Sys2Proof.Machine.execFailedFlitReceive port slot s
  | .nakReceive port stamp => Sys2Proof.Machine.execNakReceive port stamp s
  | .resendSpare port => Sys2Proof.Machine.execResendSpare port s
  | .retryOverrun port => Sys2Proof.Machine.execRetryOverrun port s
  | .retryExhausted port found => Sys2Proof.Machine.execRetryExhausted port found s
  | .flitDelivery stream seq => Sys2Proof.Machine.execFlitDelivery stream seq s
  | .forwardSend port => Sys2Proof.Machine.execForwardSend port s
  | .placeDelivery stream seq => Sys2Proof.Machine.execPlaceDelivery stream seq s
  | .reduceApply stack => Sys2Proof.Machine.execReduceApply stack s
  | .stopFlitReceive port slot f stop => Sys2Proof.Machine.execStopFlitReceive port slot f stop s
  | .idleHoldReceive port f => Sys2Proof.Machine.execIdleHoldReceive port f s
  | .announceFlitReceive port f => Sys2Proof.Machine.execAnnounceFlitReceive port f s
  | .packtimeLock phase => Sys2Proof.Machine.execPacktimeLock phase s
  | .packtimeLockLost phase => Sys2Proof.Machine.execPacktimeLockLost phase s
  | .pfStretchReq value => Sys2Proof.Machine.execPfStretchReq value s
  | .beatStart act => Sys2Proof.Machine.execBeatStart act s
  | .stretchAutoEval => Sys2Proof.Machine.execStretchAutoEval s
  | .collectiveLastSendSlot id => Sys2Proof.Machine.execCollectiveLastSendSlot id s
  | .collectiveDelivery id => Sys2Proof.Machine.execCollectiveDelivery id s
  | .hostlinkFlitReceive port type lseq ack nak credit body => Sys2Proof.Machine.execHostlinkFlitReceive port type lseq ack nak credit body s
  | .replay port => Sys2Proof.Machine.execReplay port s
  | .snpInv port tag addr => Sys2Proof.Machine.execSnpInv port tag addr s
  | .snpData port tag addr => Sys2Proof.Machine.execSnpData port tag addr s
  | .hData port tag param status data => Sys2Proof.Machine.execHData port tag param status data s
  | .hAck port tag status => Sys2Proof.Machine.execHAck port tag status s
  | .regRd port tag addr => Sys2Proof.Machine.execRegRd port tag addr s
  | .regWr port tag addr value => Sys2Proof.Machine.execRegWr port tag addr value s
  | .memRd port tag addr lines => Sys2Proof.Machine.execMemRd port tag addr lines s
  | .memWr port tag addr data => Sys2Proof.Machine.execMemWr port tag addr data s
  | .descFetch sq => Sys2Proof.Machine.execDescFetch sq s
  | .nop sq ix => Sys2Proof.Machine.execNop sq ix s
  | .input sq ix data => Sys2Proof.Machine.execInput sq ix data s
  | .copyIn sq ix data => Sys2Proof.Machine.execCopyIn sq ix data s
  | .copyOut sq ix hostOk ecc => Sys2Proof.Machine.execCopyOut sq ix hostOk ecc s
  | .snapReq sq ix => Sys2Proof.Machine.execSnapReq sq ix s
  | .ctxSave sq ix => Sys2Proof.Machine.execCtxSave sq ix s
  | .jobLoad sq ix image => Sys2Proof.Machine.execJobLoad sq ix image s
  | .restore sq ix slot => Sys2Proof.Machine.execRestore sq ix slot s
  | .descComplete sq ix => Sys2Proof.Machine.execDescComplete sq ix s
  | .descDeadline sq ix => Sys2Proof.Machine.execDescDeadline sq ix s
  | .inputDeadline index => Sys2Proof.Machine.execInputDeadline index s
  | .wakeTimer cq => Sys2Proof.Machine.execWakeTimer cq s
  | .hlSqCfgWrite q value => Sys2Proof.Machine.execHlSqCfgWrite q value s
  | .hlCqCfgWrite q value => Sys2Proof.Machine.execHlCqCfgWrite q value s
  | .hlEvqCfgWrite value => Sys2Proof.Machine.execHlEvqCfgWrite value s
  | .contextRestore => Sys2Proof.Machine.execContextRestore s
  | .flutterTestGo core => Sys2Proof.Machine.execFlutterTestGo core s
  | .pwrCapWrite value => Sys2Proof.Machine.execPwrCapWrite value s
  | .pwrCapSchedWrite value => Sys2Proof.Machine.execPwrCapSchedWrite value s
  | .powerSample m => Sys2Proof.Machine.execPowerSample m s
  | .powerIntervalEnd => Sys2Proof.Machine.execPowerIntervalEnd s
  | .estimatorRecalibration => Sys2Proof.Machine.execEstimatorRecalibration s
  | .inputOvervoltage => Sys2Proof.Machine.execInputOvervoltage s
  | .inputOvercurrent die => Sys2Proof.Machine.execInputOvercurrent die s
  | .sustainedInputPower => Sys2Proof.Machine.execSustainedInputPower s
  | .intermediatePlane half => Sys2Proof.Machine.execIntermediatePlane half s
  | .regulator half => Sys2Proof.Machine.execRegulator half s
  | .powerStageDieTemperature die => Sys2Proof.Machine.execPowerStageDieTemperature die s
  | .dieJunction half => Sys2Proof.Machine.execDieJunction half s
  | .hbm4StackTemperature stack => Sys2Proof.Machine.execHbm4StackTemperature stack s
  | .marginMonitor core => Sys2Proof.Machine.execMarginMonitor core s
  | .droop core periods => Sys2Proof.Machine.execDroop core periods s
  | .hbmTemperatureReadout temps => Sys2Proof.Machine.execHbmTemperatureReadout temps s
  | .patrolScrub corrected uncorrectable => Sys2Proof.Machine.execPatrolScrub corrected uncorrectable s
  | .attest hostOk mc => Sys2Proof.Machine.execAttest hostOk mc s
  | .certOut hostOk => Sys2Proof.Machine.execCertOut hostOk s
  | .fwWrite region readBackOk => Sys2Proof.Machine.execFwWrite region readBackOk s
  | .svnCommit => Sys2Proof.Machine.execSvnCommit s
  | .jobkey record => Sys2Proof.Machine.execJobkey record s
  | .debugUnlock token => Sys2Proof.Machine.execDebugUnlock token s
  | .ownerEnrol key => Sys2Proof.Machine.execOwnerEnrol key s
  | .i3cPointerWrite mc bytes => Sys2Proof.Machine.execI3cPointerWrite mc bytes s
  | .i3cRegisterWrite mc bytes => Sys2Proof.Machine.execI3cRegisterWrite mc bytes s
  | .i3cPrivateRead mc => Sys2Proof.Machine.execI3cPrivateRead mc s
  | .setdasa mc static dyn => Sys2Proof.Machine.execSetdasa mc static dyn s
  | .entdaa mc dyn => Sys2Proof.Machine.execEntdaa mc dyn s
  | .rstdaa mc => Sys2Proof.Machine.execRstdaa mc s
  | .enec mc => Sys2Proof.Machine.execEnec mc s
  | .disec mc => Sys2Proof.Machine.execDisec mc s
  | .getpid mc => Sys2Proof.Machine.execGetpid mc s
  | .getbcr mc => Sys2Proof.Machine.execGetbcr mc s
  | .getdcr mc => Sys2Proof.Machine.execGetdcr mc s
  | .getstatus mc => Sys2Proof.Machine.execGetstatus mc s
  | .getmwl mc => Sys2Proof.Machine.execGetmwl mc s
  | .getmrl mc => Sys2Proof.Machine.execGetmrl mc s
  | .registerWrite mc addr value => Sys2Proof.Machine.execRegisterWrite mc addr value s
  | .idleFlitReceive port slot f => Sys2Proof.Machine.execIdleFlitReceive port slot f s
  | .refclkFabStop half => Sys2Proof.Machine.execRefclkFabStop half s
  | .ddr5ModuleTemperature channel => Sys2Proof.Machine.execDdr5ModuleTemperature channel s
  | .bringUpChannelLoss => Sys2Proof.Machine.execBringUpChannelLoss s

end Sys2Proof.Machine
end

