-- ==== Sys2Proof/WellFormed.lean ====
section
/-! DEFINITION. Well-formed commands: every operand lies in the range of the field or unit that it names (Tables 1.2, 9.6,
12.2, 12.7, 13.11, 14.10, R124, R127). The machine's meanings do not rely on it: they check what the spec checks. -/

namespace Sys2Proof

/-- Core commands: 2,048 logical cores, a 32-bit offset, a 16-bit tag, engine bits of Table 13.11. -/
def Attr.wf (a : Attr) : Bool :=
  decide (a.core < 2048) && decide (a.offset < 2 ^ 32) && decide (a.tag < 2 ^ 16) && decide (a.engines < 2 ^ 16)

/-- 18 ports of which each die has nine. -/
def portWf (p : Nat) : Bool := decide (p < 18)

/-- 64 submission queues, 64 completion queues; descriptor counts are 32-bit. -/
def queueWf (q : Nat) : Bool := decide (q < 64)
def countWf (i : Nat) : Bool := decide (i < 2 ^ 32)

/-- A Hostlink tag has 16 bits, a host or device address 52. -/
def tagWf (t : Nat) : Bool := decide (t < 2 ^ 16)
def addrWf (a : Nat) : Bool := decide (a < 2 ^ 52)

/-- A site of the two dies (Table 1.4). -/
def Site.wf (s : Site) : Bool := decide (s.die < 2) && decide (s.x < 36) && decide (s.y < 32)
def LaneRef.wf (l : LaneRef) : Bool := decide (l.die < 2) && decide (l.x < 36) && decide (l.y < 32) && decide (l.link < 4) && decide (l.dir < 2)

/-- A flit header (Table 9.6) with its 224 B payload. -/
def Flit.wf (f : Flit) : Bool :=
  decide (f.type < 16) && decide (f.stream < 2 ^ 13) && decide (f.hop < 8) && decide (f.sendStamp < 2 ^ 24)
    && decide (f.nakStamp < 2 ^ 12) && decide (f.seq < 2 ^ 32) && f.payload.length == 224

/-- A line block has 256 bytes. -/
def Arrival.wf (x : Arrival) : Bool := x.errs.all (fun k => decide (k < 256))
def Rx.wf (f : Rx) : Bool := f.flit.wf && f.how.wf

/-- A Hostlink flit header (Table 12.1) with its 224 B payload. -/
def HlFlit.wf (f : HlFlit) : Bool :=
  decide (f.type < 16) && decide (f.lseq < 4096) && decide (f.ackSeq < 4096) && decide (f.credit < 2 ^ 32)
    && f.payload.length == 224

def Findings.wf (f : Findings) : Bool :=
  f.badLanes.all LaneRef.wf && f.badRouters.all Site.wf && f.badSites.all Site.wf && f.hbmFail.all (fun h => decide (h < 8)) && f.hbmAbsent.all (fun h => decide (h < 8))
    && f.ddr.length == 12 && f.polls.all (fun p => p.1.wf) && f.selfTestFail.all Site.wf && f.aged.all Site.wf

/-- Some host data, in whole 64 B lines. -/
def linesWf (d : List Byte) : Bool := d.length % 64 == 0

/-- Range of a measured junction temperature in °C. -/
def tempWf (t : Nat) : Bool := decide (t < 256)

/-- Every operand of the command is in range. -/
def wellFormed (i : Instr) : Bool :=
  match i with
  | .vin48Valid _ _ _ _ => true
  | .vin48Loss => true
  | .sb33Loss => true
  | .sb33Return => true
  | .mcSelfCheckDone _ _ _ => true
  | .leaderHandshakeSignal _ _ => true
  | .candidateTimeout _ => true
  | .leaderConfirmTimeout _ => true
  | .aliveToggle _ => true
  | .aliveTimeout _ => true
  | .mcLeadForce _ _ => true
  | .inspect f => f.wf
  | .commit => true
  | .run => true
  | .jobStart => true
  | .stop => true
  | .reset _ f => f.wf
  | .heel a _ _ _ => a.wf
  | .heelDeadline core => decide (core < 2048)
  | .fence a => a.wf
  | .branch a target => a.wf && decide (target < 2 ^ 16)
  | .decide a mask target => a.wf && decide (mask < 2 ^ 16) && decide (target < 2 ^ 16)
  | .swap a segment entry => a.wf && decide (segment < 2 ^ 16) && decide (entry < 2 ^ 16)
  | .endStream a => a.wf
  | .openGroup a _ => a.wf
  | .accumulate a o => a.wf && decide (o.aOff < 2 ^ 20) && o.bOff.all (fun b => decide (b < 2 ^ 20))
  | .close a _ _ _ => a.wf
  | .vop a o => a.wf && decide (o.a < 2 ^ 20) && decide (o.dst < 2 ^ 20) && decide (o.op < 2 ^ 8)
  | .vconvert a src dst _ _ _ => a.wf && decide (src < 2 ^ 20) && decide (dst < 2 ^ 20)
  | .flutter a dom id draw _ _ _ _ dst =>
    a.wf && decide (dom < 2 ^ 8) && decide (id < 2 ^ 16) && decide (draw < 2 ^ 8) && decide (dst < 2 ^ 20)
  | .update a _ => a.wf
  | .retrieve a o => a.wf && decide (o.dst < 2 ^ 20)
  | .deposit a o => a.wf && decide (o.src < 2 ^ 20)
  | .send a stream _ src _ _ => a.wf && decide (stream < 2 ^ 13) && decide (src < 2 ^ 20)
  | .accept a stream _ dst => a.wf && decide (stream < 2 ^ 13) && decide (dst < 2 ^ 20)
  | .contribute a stream src _ _ _ => a.wf && decide (stream < 2 ^ 13) && decide (src < 2 ^ 20)
  | .imemLoad a segment _ => a.wf && decide (segment < 2 ^ 16)
  | .imemBankLoadComplete core bank => decide (core < 2048) && decide (bank < 2)
  | .breakFreeze a => a.wf
  | .ctxSaveFreeze => true
  | .stepOrigin => true
  | .chrysalisReady slot => decide (slot < 2)
  | .memChryRel _ => true
  | .portModeWrite port _ => portWf port
  | .train port => portWf port
  | .trainingStateComplete port i => portWf port && decide (i.lanes < 16) && decide (i.rtt < 2 ^ 16)
  | .trainingTimeout port => portWf port
  | .fecLockLoss port lane => portWf port && decide (lane < 4)
  | .linkSilence port => portWf port
  | .scheduledSendSlot port => portWf port
  | .dataFlitReceive port _ f => portWf port && f.wf
  | .failedFlitReceive port _ => portWf port
  | .nakReceive port stamp => portWf port && decide (stamp < 2 ^ 12)
  | .resendSpare port => portWf port
  | .retryOverrun port => portWf port
  | .retryExhausted port found => portWf port && found.all Flit.wf
  | .flitDelivery stream _ => decide (stream < 2 ^ 13)
  | .forwardSend port => portWf port
  | .placeDelivery stream _ => decide (stream < 2 ^ 13)
  | .reduceApply stack => decide (stack.n < 8)
  | .stopFlitReceive port _ f m =>
    portWf port && f.wf && decide (m.origin < 2048) && decide (m.reason < 2 ^ 16) && decide (m.time < 2 ^ 64)
  | .idleHoldReceive port f => portWf port && f.rx.wf
  | .announceFlitReceive port f => portWf port && f.rx.wf
  | .packtimeLock _ => true
  | .packtimeLockLost _ => true
  | .pfStretchReq _ => true
  | .beatStart _ => true
  | .stretchAutoEval => true
  | .collectiveLastSendSlot id => decide (id < 2 ^ 16)
  | .collectiveDelivery id => decide (id < 2 ^ 16)
  | .hostlinkFlitReceive port type lseq ack nak credit b =>
    portWf port && HlFlit.wf { type, lseq, ackSeq := ack.1, ackValid := ack.2, nak, credit, payload := b.payload }
      && b.errs.all (fun k => decide (k < 256))
  | .replay port => portWf port
  | .snpInv port tag addr => portWf port && tagWf tag && addrWf addr
  | .snpData port tag addr => portWf port && tagWf tag && addrWf addr
  | .hData port tag _ _ data => portWf port && tagWf tag && linesWf data
  | .hAck port tag _ => portWf port && tagWf tag
  | .regRd port tag addr => portWf port && tagWf tag && decide (addr < 2 ^ 32)
  | .regWr port tag addr _ => portWf port && tagWf tag && decide (addr < 2 ^ 32)
  | .memRd port tag addr lines => portWf port && tagWf tag && addrWf addr && decide (1 ≤ lines.n ∧ lines.n ≤ 3)
  | .memWr port tag addr data => portWf port && tagWf tag && addrWf addr && data.bytes.any linesWf
  | .descFetch sq => queueWf sq
  | .nop sq i => queueWf sq && countWf i
  | .input sq i data => queueWf sq && countWf i && data.bytes.all linesWf
  | .copyIn sq i data => queueWf sq && countWf i && data.bytes.all linesWf
  | .copyOut sq i _ _ => queueWf sq && countWf i
  | .snapReq sq i => queueWf sq && countWf i
  | .ctxSave sq i => queueWf sq && countWf i
  | .jobLoad sq i _ => queueWf sq && countWf i
  | .restore sq i _ => queueWf sq && countWf i
  | .descComplete sq i => queueWf sq && countWf i
  | .descDeadline sq i => queueWf sq && countWf i
  | .inputDeadline index => decide (index < 2 ^ 16)
  | .wakeTimer cq => queueWf cq
  | .hlSqCfgWrite q _ => queueWf q
  | .hlCqCfgWrite q _ => queueWf q
  | .hlEvqCfgWrite _ => true
  | .contextRestore => true
  | .flutterTestGo core => decide (core < 2048)
  | .pwrCapWrite _ => true
  | .pwrCapSchedWrite _ => true
  | .powerSample m => tempWf m.tMax && decide (m.vin < 2 ^ 16)
  | .powerIntervalEnd => true
  | .estimatorRecalibration => true
  | .inputOvervoltage => true
  | .inputOvercurrent die => decide (die < 4)
  | .sustainedInputPower => true
  | .intermediatePlane half => decide (half < 2)
  | .regulator half => decide (half < 2)
  | .powerStageDieTemperature die => decide (die < 4)
  | .dieJunction half => decide (half < 2)
  | .hbm4StackTemperature stack => decide (stack < 8)
  | .marginMonitor core => decide (core < 2048)
  | .droop core _ => decide (core < 2048)
  | .hbmTemperatureReadout temps => temps.length == 8 && temps.all tempWf
  | .patrolScrub _ _ => true
  | .attest _ _ => true
  | .certOut _ => true
  | .fwWrite _ _ => true
  | .svnCommit => true
  | .jobkey _ => true
  | .debugUnlock _ => true
  | .ownerEnrol _ => true
  | .i3cPointerWrite _ bytes => bytes.length == 4
  | .i3cRegisterWrite _ bytes => bytes.length == 12
  | .i3cPrivateRead _ => true
  | .setdasa _ static dyn => decide (static < 2 ^ 7) && decide (dyn < 2 ^ 7)
  | .entdaa _ dyn => decide (dyn < 2 ^ 7)
  | .rstdaa _ => true
  | .enec _ => true
  | .disec _ => true
  | .getpid _ => true
  | .getbcr _ => true
  | .getdcr _ => true
  | .getstatus _ => true
  | .getmwl _ => true
  | .getmrl _ => true
  | .registerWrite _ addr _ => decide (addr < 2 ^ 32)
  | .idleFlitReceive port _ f => portWf port && f.wf
  | .refclkFabStop half => decide (half < 2)
  | .ddr5ModuleTemperature m => decide (m.channel < 12)
  | .bringUpChannelLoss => true

end Sys2Proof
end

