-- ==== Sys2Proof/Safety.lean ====
section
/-! DEFINITION. What a well-formed state, a safe state and a safe run are, in the terms the statements use. -/

namespace Sys2Proof.Machine
open Sys2Proof

/-- The canonical form of device memory: addresses strictly rising, no entry equal to what an unlisted address reads as. -/
abbrev Memory.wf (m : List Host.Cell) : Prop := mapWf memDefault m

/-- Every sparse map of the state is in its canonical form. -/
structure State.Wf (s : State) : Prop where
  regs  : mapWf regDefault s.regs
  mem   : Memory.wf s.mem
  ports : mapWf portDefault s.ports
  cores : mapWf coreDefault s.cores
  sram  : ∀ e ∈ s.cores, mapWf memDefault e.2.sram
  sqs   : mapWf (fun _ => SqSt.reset) s.hl.sqs
  cqs   : mapWf (fun _ => CqSt.reset) s.hl.cqs

/-- Fused records that only ever move one way: the identity and the root key digests stay, the firmware version counters
do not fall, a revoked root slot stays revoked (R5, R438, R439, R443). -/
structure Nv.Le (a b : Nv) : Prop where
  serial : b.serial = a.serial
  uds    : b.uds = a.uds
  roots  : b.roots = a.roots
  mcCtr  : a.mcCtr ≤ b.mcCtr
  coreCtr : a.coreCtr ≤ b.coreCtr
  revoked : ∀ n, a.revoked.testBit n → b.revoked.testBit n

/-- `t` is `s` but for registers, and of those only the registers of `R` may differ: memory, cores, ports, fuses, the job
and everything else are as before. -/
def regsOnly (s t : State) (R : List Nat) : Prop := t = { s with regs := t.regs } ∧ ∀ r, r ∉ R → t.reg r = s.reg r

/-- `t` is `s` but for registers and cores: of the registers only those of `R` may differ, and every core but `n` is as
before. -/
def coreOnly (s t : State) (n : Nat) (R : List Nat) : Prop :=
  t = { s with regs := t.regs, cores := t.cores } ∧ (∀ r, r ∉ R → t.reg r = s.reg r) ∧ ∀ k, k ≠ n → t.core k = s.core k

/-- The command is counted as retired and its offset and tag are the last of its core (R126, R136). -/
def retired (s t : State) (a : Attr) : Prop :=
  t.reg (rCore a.core oCount) = (s.reg (rCore a.core oCount) + 1) % 2 ^ 64
    ∧ t.reg (rCore a.core oLast) = a.offset % 2 ^ 32 + 2 ^ 32 * (a.tag % 2 ^ 16)

/-- COUNT and LAST of a core. -/
def retireRegs (n : Nat) : List Nat := [rCore n oCount, rCore n oLast]

/-- A command of core `n` has written `bs` at offset `off` of its data SRAM and retired; every other byte of SRAM, every other
part of the core but the note of SRAM's last writers and the records of its last vector operation and transfer (R55, R87),
every other core, device memory, fuses and every other register are as before. -/
def sramResult (s t : State) (a : Attr) (off : Nat) (bs : List Byte) : Prop :=
  retired s t a ∧ coreOnly s t a.core (retireRegs a.core)
    ∧ t.core a.core = { s.core a.core with
        sram := (t.core a.core).sram, feeds := (t.core a.core).feeds
        vecStat := (t.core a.core).vecStat, xferStat := (t.core a.core).xferStat }
    ∧ t.sramRead a.core off bs.length = bs
    ∧ ∀ k, k < off ∨ off + bs.length ≤ k →
        mapGet memDefault (t.core a.core).sram k = mapGet memDefault (s.core a.core).sram k

/-- A command has written `bs` at address `x` of device memory and retired: every other byte of memory is as before, and so
are cores, fuses and the job. -/
def memResult (s t : State) (a : Attr) (x : Nat) (bs : List Byte) : Prop :=
  retired s t a ∧ t.cores = s.cores ∧ t.nv = s.nv ∧ t.job = s.job
    ∧ (∀ r, r ∉ retireRegs a.core → t.reg r = s.reg r)
    ∧ t.load x bs.length = bs ∧ ∀ k, k < x ∨ x + bs.length ≤ k → t.byte k = s.byte k

/-- A conversion with no activation, backward factor, dropout, counter or new scale. -/
def plainConv (c : Sys2Proof.Conv) : Prop :=
  c.act = none ∧ c.back = none ∧ c.dropout = none ∧ c.counter = none ∧ c.rescale = none

/-- A good flit `f` that arrives at port `p` shows no loss of lock: the package does not measure it, or holds no lock, or the phase is
within 32/64 slot (R249, R251). -/
def State.keepsLock (s : State) (p : Nat) (f : Flit) (x : Arrival) : Prop :=
  s.follows = true → p = s.fld rPfSyncCtrl 1 5 → f.resend = false → s.fld rPfSyncStat 0 1 = 1 →
    -32 ≤ s.phaseOf p f x ∧ s.phaseOf p f x ≤ 32

/-- The fabric of `t` is `g` but for what measuring the parent's flits keeps. -/
def measured (t : State) (g : Fab) : Prop := t.fab = { g with steady := t.fab.steady, stepNext := t.fab.stepNext }

/-- What leaves port `p` when the message `m` goes out in a MSG flit of its own (R329, Table 12.2). -/
def State.sends (s : State) (p : Nat) (m : HlMsg) : List Out :=
  [.hostlink p m.op m.tag m.addr m.status m.param m.data, .hlFlit p ((s.port p).flitWith 1 (s.port p).txNext [m]).image]

/-- The attributes of a command that a core's stream holds; none for the commands that come from elsewhere. -/
def streamAttr : Instr → Option Attr
  | .heel a _ _ _ => some a
  | .fence a => some a
  | .branch a _ => some a
  | .decide a _ _ => some a
  | .swap a _ _ => some a
  | .endStream a => some a
  | .openGroup a _ => some a
  | .accumulate a _ => some a
  | .close a _ _ _ => some a
  | .vop a _ => some a
  | .vconvert a _ _ _ _ _ => some a
  | .flutter a _ _ _ _ _ _ _ _ => some a
  | .update a _ => some a
  | .retrieve a _ => some a
  | .deposit a _ => some a
  | .send a _ _ _ _ _ => some a
  | .accept a _ _ _ => some a
  | .contribute a _ _ _ _ _ => some a
  | .imemLoad a _ _ => some a
  | _ => none

/-- Nothing waits for pack time: no delivery is due, no used core's window holds a command, none is about to halt or to freeze, no
UPDATE has only staged. -/
structure State.Settled (s : State) : Prop where
  nothingDue : ∀ h ∈ s.fab.held, h.atEndpoint = true → s.now < s.packOf h.due
  noneWaits  : ∀ n ∈ s.used, (s.core n).window = []
  noneEnds   : ∀ n ∈ s.used, (s.core n).ending = none
  unstaged   : s.stp.staged = []

/-- Command `a` of a core's stream is about to be issued with every older command retired, and nothing in Table 5.3's class
All, no break and no memory error stands in its way. -/
structure State.Ready (s : State) (a : Attr) : Prop where
  live     : s.dark = false
  fetching : s.fetching a.core = true
  alone    : (s.core a.core).stream = [] ∧ (s.core a.core).ending = none
  settled  : s.Settled
  unarmed  : s.armed = false
  defined  : a.defined = true
  engines  : a.engines &&& absentEngines = 0
  errorFree : a.mem = { } ∧ s.failing = []
  followed : (s.core a.core).asOf ≤ s.now

/-- The core of `a` halted with its own code and its command stored nothing, where it held no halt record yet (R130, R422): HALTED, the
record names the command, with NO_EFFECT for a failed operand check, and its package has stopped. -/
def haltedBefore (s t : State) (a : Attr) (code : Nat) (noEff : Bool) : Prop :=
  t.cstate a.core = 5 ∧ t.mem = s.mem ∧ t.nv = s.nv ∧ t.job = s.job
    ∧ (s.cfld a.core oHaltInfo 16 1 = 0 →
        t.cfld a.core oHaltInfo 0 16 = code ∧ t.cfld a.core oHaltInfo 16 1 = 1 ∧ t.cfld a.core oHaltInfo 17 1 = 1
          ∧ t.cfld a.core oHaltInfo 18 1 = b2n noEff ∧ t.cfld a.core oHaltInfo 32 32 = a.offset % 2 ^ 32
          ∧ t.cfld a.core oHaltTag 0 16 = a.tag % 2 ^ 16)
    ∧ (s.fld rPfFault 16 1 = 0 → t.bu = 7 ∧ t.fld rPfFault 0 16 = code ∧ t.fld rPfFault 20 11 = a.core % 2 ^ 11)

/-- No package fault is recorded and no core has a halt record. -/
def State.clean (s : State) : Bool :=
  s.fld rPfFault 16 1 == 0 && s.used.all (fun n => s.cfld n oHaltInfo 16 1 == 0)

/-- A safe run: every one of `k` steps answers a next state and leaves it clean. -/
def safeRun : Nat → State → Bool
  | 0, s => s.clean
  | k + 1, s => s.clean && match step s with
    | .next t => safeRun k t
    | _ => false

end Sys2Proof.Machine
end

