-- ==== Sys2Proof/Certificates/Slice0/Obligations.lean ====
section
/-! DEFINITION. The statements: what the block does, family by family, from the numbered rules of the spec. -/

open Sys2Proof
open Sys2Proof.Machine

/-! ### The block: its step, its queue, its invariants -/

/-- A step takes the command at the front of the queue and runs it with the queue's rest. -/
def Obligations.FrontCommandRuns : Prop :=
  ∀ (c : Instr) (q : List Instr) (s : State), step { s with pending := c :: q } = exec c { s with pending := q }

/-- On an empty queue one slot of time passes (log entry 51, the model's choice): nothing happens without power; with power
and no job issuing, pack time counts one slot, every UP port counts one more slot of silence, every UP FABRIC port's slot is
filled with what waits on it, and nothing else changes. A port on which no STOP, no ANNOUNCE and no NAK waits sends IDLE, and
IDLE_HOLD from a compute-part reset to the next RUN. -/
def Obligations.EmptyQueuePassesOneSlot : Prop :=
  ∀ s : State, s.pending = [] →
    (s.dark = true → step s = .next s) ∧
    (s.dark = false → s.issuing = false → s.Wf →
      ∃ t, step s = .next t ∧ t = { s with regs := t.regs, ports := t.ports, outbox := t.outbox }
        ∧ (∀ r, r ≠ rPfPackTime → t.reg r = s.reg r) ∧ t.now = (s.now + 1) % 2 ^ 64 ∧ s.outbox <+: t.outbox
        ∧ (∀ p, ¬(p < 18 ∧ s.portUp p = true) → t.port p = s.port p)
        ∧ (∀ p < 18, s.portUp p = true → s.mode p ≠ 1 → t.port p = { s.port p with silence := (s.port p).silence + 1 })
        ∧ (∀ p ∈ s.fabricUp, t.port p = { s.port p with
              silence := (s.port p).silence + 1, carried := max (s.port p).carried (s.now + 1)
              naks := (t.port p).naks, stops := (t.port p).stops, annOut := (t.port p).annOut, annSent := (t.port p).annSent
              timeDue := (t.port p).timeDue })
        ∧ ((∀ p ∈ s.fabricUp, (s.port p).naks = [] ∧ (s.port p).stops = [] ∧ (s.port p).annOut = []
              ∧ (s.port p).timeDue = false ∧ (s.port p).carried = s.now) →
            t.outbox = s.outbox ++ s.fabricUp.map (fun p => .idle p s.now 1 s.fab.idleHold none)))

/-- Every command is answered with a next state: no command ends in a fault or a refusal. A package without valid 48 V, or with
a latched hard trip, does nothing on any command but those of the two inputs 48 V and SB33. -/
def Obligations.EveryCommandIsAnswered : Prop :=
  (∀ (c : Instr) (s : State), ∃ t, exec c s = .next t)
  ∧ (∀ (c : Instr) (s : State), s.dark = true →
      (∀ l a b f, c ≠ .vin48Valid l a b f) → c ≠ .vin48Loss → c ≠ .sb33Loss → c ≠ .sb33Return → exec c s = .next s)

/-- The machine right after reset: WHELP, no job, nothing in memory, and the reset values of chapter 18; every map of it is in
canonical form. -/
def Obligations.ResetState : Prop :=
  (State.reset.bu = 1 ∧ State.reset.job = none ∧ State.reset.pending = [] ∧ (∀ a, State.reset.byte a = 0)
      ∧ State.reset.reg rPwrCap = 0x4640 ∧ State.reset.reg rPwrFreq = 0x05AA_05AA ∧ State.reset.reg rPfPackTime = 0
      ∧ State.reset.fld (rPortMode 0) 0 2 = 2 ∧ State.reset.fld (rPortMode 9) 0 2 = 2 ∧ State.reset.fld (rPortMode 1) 0 2 = 1
      ∧ State.reset.reg rPfNormLimits = 0x7F80_0000_7F80_0000 ∧ (∀ p < 18, State.reset.portState p = 0)
      ∧ (∀ n < 2048, State.reset.cstate n = 0 ∧ State.reset.cfld n oHeel 0 16 = 0xFFFF))
  ∧ (State.reset.Wf)

/-- Every step keeps device memory, the register file, the ports, the cores and the queues in canonical form, and leaves no block of
memory marked as one whose write fails: that mark lasts for the command that meets the error. -/
def Obligations.StepKeepsCanonicalForm : Prop :=
  ∀ s t : State, s.Wf → step s = .next t → t.Wf ∧ (s.failing = [] → t.failing = [])

/-- No command touches the queue of waiting commands, none takes back a message already sent, and none changes what
signatures verify. -/
def Obligations.CommandsKeepQueueAndMessages : Prop :=
  ∀ (c : Instr) (s t : State), exec c s = .next t → t.pending = s.pending ∧ s.outbox <+: t.outbox ∧ t.sigs = s.sigs

/-- Fused counters and revocations: no command lowers a counter or takes back a revocation, no command but SVN_COMMIT
changes any of them, and the fused identity never changes. -/
def Obligations.FusedRecordsOnlyAdvance : Prop :=
  ∀ (c : Instr) (s t : State), exec c s = .next t →
    Nv.Le s.nv t.nv ∧ (c ≠ .svnCommit → t.nv.mcCtr = s.nv.mcCtr ∧ t.nv.coreCtr = s.nv.coreCtr ∧ t.nv.revoked = s.nv.revoked)

/-! ### Power inputs and leadership -/

/-- VIN48_VALID on a package in OFF: WHELP, the power-on count up by one and shown by both controllers, the straps sampled,
nothing of memory, cores, map or job left, every register not loaded from fuses or flash at its reset value; on a package
that has 48 V nothing happens. VIN48_LOSS: the package answers nothing any more, memory and cores are lost, a latched trip
and both thermal outputs release; a package that ran records a brownout as its latest trip, and no other fused record or
flash content changes; without 48 V nothing happens. Without SB33 an unfinished self-check fails, which ends it: the HOSTLINK
ports of its half that were DOWN start training; a FW_WRITE in progress
leaves the region it wrote blank and ends; memory, cores and the job are not touched. With SB33 back, an interrupt held at a
controller that has them enabled is sent (log entry 22, the model's choice) and nothing else happens. -/
def Obligations.PowerInputs : Prop :=
  ((∀ (lead a1 a0 low : Bool) (s : State),
        (s.pkg.vin = true → exec (.vin48Valid lead a1 a0 low) s = .next s) ∧
        (s.pkg.vin = false → ∃ t, exec (.vin48Valid lead a1 a0 low) s = .next t ∧ t.pkg.vin = true ∧ t.bu = 1
          ∧ t.reg rMcPowerOn = (s.nv.powerOn + 1) % 2 ^ 32 ∧ t.reg (mceBase + rMcPowerOn) = (s.nv.powerOn + 1) % 2 ^ 32
          ∧ t.lfld .west 3 1 = b2n lead ∧ t.lfld .east 3 1 = b2n lead ∧ t.pkg.i3cA = 2 * b2n a1 + b2n a0
          ∧ t.pkg.lowVoltage = low ∧ t.mem = [] ∧ t.cores = [] ∧ t.ports = [] ∧ t.job = none ∧ t.pkg.niMap = []
          ∧ t.reg rPwrCap = 0x4640 ∧ t.reg rPfFault = 0 ∧ t.reg rPwrEnergy = 0 ∧ t.reg rPfPackTime = 0
          ∧ t.nv = { s.nv with powerOn := (s.nv.powerOn + 1) % 2 ^ 32 } ∧ t.pending = s.pending))
    ∧ (∀ s : State, (s.pkg.vin = false → exec .vin48Loss s = .next s) ∧ (s.pkg.vin = true →
        ∃ t, exec .vin48Loss s = .next t ∧ t.dark = true ∧ t.mem = [] ∧ t.cores = [] ∧ t.job = none
          ∧ t.pkg.latched = false ∧ t.pkg.thermTrip = false ∧ t.pkg.thermWarn = false ∧ t.regs = s.regs ∧ t.ports = s.ports
          ∧ t.nv = (if s.running = true ∧ s.pkg.latched = false then { s.nv with trip := some (9, false, s.nv.powerOn) }
              else s.nv))))
  ∧ (∀ s : State, s.Wf →
      (∃ t, exec .sb33Loss s = .next t ∧ t.pkg = { s.pkg with sb33 := false } ∧ t.mem = s.mem ∧ t.cores = s.cores
        ∧ t.job = s.job ∧ t.ports = s.ports
        ∧ (s.dark = false → (∀ m, (s.mc m).checked = false → t.role m = 3 ∧ (t.mc m).failSig = true)
            ∧ (∀ m, (s.mc m).checked = true → t.mc m = s.mc m)
            ∧ (∀ m p, (s.mc m).checked = false → (if m = .west then p < 9 else 9 ≤ p ∧ p < 18) → s.mode p = 2 → s.portState p = 0 →
                t.portState p = 1)
            ∧ (s.fld rSecOpStat 0 1 = 1 → s.sec.op = 3 → t.fld rSecOpStat 0 1 = 0 ∧ t.fld rSecOpStat 1 1 = 1
                ∧ ((s.mc s.leader).region = 0 → t.nv.regionB = []) ∧ ((s.mc s.leader).region ≠ 0 → t.nv.regionA = []))))
      ∧ (∃ t, exec .sb33Return s = .next t ∧ t.pkg = { s.pkg with sb33 := true } ∧ t.mem = s.mem ∧ t.regs = s.regs
        ∧ t.cores = s.cores ∧ t.job = s.job ∧ t.ports = s.ports ∧ t.nv = s.nv
        ∧ (s.dark = false → ∀ m c, (s.mc m).ibiHeld = some c → (s.mc m).ibiOn = true →
            .ibi m c ∈ t.outbox ∧ (t.mc m).ibiHeld = none)))

/-- MC_SELF_CHECK_DONE. A controller whose ROM or SRAM fails, or with no valid image, has role 3 and asserts FAIL. A
controller that finds a valid image boots the region that the ROM chooses and, as candidate, asserts LEAD; one that is not
the candidate follows where it has already seen LEAD, asserts LEAD where it has seen FAIL, and else asserts nothing yet.
HOSTLINK ports of its half that were DOWN start training. A second MC_SELF_CHECK_DONE changes nothing. -/
def Obligations.SelfCheckDecidesLead : Prop :=
  ∀ (m : Mc) (rom sram : Bool) (s : State), s.Wf → s.dark = false →
    ((s.mc m).checked = true → exec (.mcSelfCheckDone m rom sram) s = .next s)
    ∧ ((s.mc m).checked = false →
    ∃ t, exec (.mcSelfCheckDone m rom sram) s = .next t ∧ (t.mc m).checked = true ∧ t.mc (mcOther m) = s.mc (mcOther m)
      ∧ t.mem = s.mem ∧ t.cores = s.cores ∧ t.nv = s.nv
      ∧ ((rom && sram && s.pkg.sb33) = false ∨ romBoot s.nv s.sigs = none →
          t.role m = 3 ∧ (t.mc m).failSig = true ∧ (t.mc m).lead = false)
      ∧ (∀ r i, (rom && sram && s.pkg.sb33) = true → romBoot s.nv s.sigs = some (r, i) →
          (t.mc m).region = r
          ∧ (s.candidate = m → (t.mc m).lead = true ∧ t.role m = s.role m)
          ∧ (s.candidate ≠ m → (s.mc m).sawLead = false → (s.mc m).sawFail = false → (t.mc m).lead = false ∧ t.role m = s.role m)
          ∧ (s.candidate ≠ m → s.role m ≠ 3 → (s.mc m).follow = false → s.forced m = false → s.conflict m = false →
              ((s.mc m).sawLead = true → (t.mc m).follow = true ∧ t.role m = 2 ∧ (t.mc m).lead = false)
              ∧ ((s.mc m).sawLead = false → (s.mc m).sawFail = true → (t.mc m).lead = true ∧ t.role m = s.role m)))
      ∧ (∀ p, (if m = .west then p < 9 else 9 ≤ p ∧ p < 18) → s.mode p = 2 → s.portState p = 0 → t.portState p = 1))

/-- The handshake. A checked controller that neither leads nor follows and sees LEAD follows; one that has seen FAIL and no LEAD
asserts LEAD; one whose role is settled only remembers what it has seen. One that asserts LEAD and sees FOLLOW becomes leader,
and BU_STATE.LEADER names it. After 5 ms without a signal the controller that is not candidate asserts LEAD. A toggle of the
other controller's ALIVE line shows at this one. Over a lost bring-up channel nothing is seen. -/
def Obligations.HandshakeSettlesLeadership : Prop :=
  ∀ (m : Mc) (s : State), s.Wf → s.dark = false → (s.mc m).checked = true →
    let undecided := s.role m ≠ 3 ∧ (s.mc m).lead = false ∧ (s.mc m).follow = false ∧ s.forced m = false ∧ s.conflict m = false
    (s.pkg.channel = true →
      ((s.mc (mcOther m)).lead = true → undecided →
        ∃ t, exec (.leaderHandshakeSignal m .lead) s = .next t ∧ (t.mc m).follow = true ∧ t.role m = 2
          ∧ t.mc (mcOther m) = s.mc (mcOther m) ∧ (∀ r, r ≠ mcKey m + rMcLeadStat → t.reg r = s.reg r) ∧ t.mem = s.mem)
      ∧ ((s.mc (mcOther m)).failSig = true → undecided → (s.mc m).sawLead = false →
        exec (.leaderHandshakeSignal m .fail) s = .next (s.setMc m { s.mc m with sawFail := true, lead := true }))
      ∧ (¬undecided →
        ((s.mc (mcOther m)).lead = true →
          exec (.leaderHandshakeSignal m .lead) s = .next (s.setMc m { s.mc m with sawLead := true }))
        ∧ ((s.mc (mcOther m)).failSig = true →
          exec (.leaderHandshakeSignal m .fail) s = .next (s.setMc m { s.mc m with sawFail := true })))
      ∧ ((s.mc (mcOther m)).follow = true → (s.mc m).lead = true → s.role m = 0 → s.forced m = false → s.conflict m = false →
        ∃ t, exec (.leaderHandshakeSignal m .follow) s = .next t ∧ t.role m = 1 ∧ t.leader = m ∧ t.mem = s.mem)
      ∧ (∃ t, exec (.aliveToggle m) s = .next t ∧ regsOnly s t [mcKey (mcOther m) + rMcLeadStat] ∧ t.lfld (mcOther m) 8 1 = 1))
    ∧ (s.pkg.channel = false → exec (.aliveToggle m) s = .next s ∧ ∀ sig, exec (.leaderHandshakeSignal m sig) s = .next s)
    ∧ (undecided → s.candidate ≠ m → (s.mc m).sawLead = false → (s.mc m).sawFail = false →
        exec (.candidateTimeout m) s = .next (s.setMc m { s.mc m with lead := true }))
    ∧ exec .bringUpChannelLoss s = .next { s with pkg := { s.pkg with channel := false } }

/-- A controller that asserts LEAD without confirmation for 5 ms, one whose confirmation has ended because the other asserts FOLLOW no
more, or a confirmed controller that loses the other's toggle, becomes unconfirmed: LEADER_CONFLICT is set at it, it leads, and the package is in WHELP with CODE = LEADER_CONFLICT; from
any state past WHELP the compute part is lost: no job, no cores, no map. MC_LEAD_FORCE at a controller in conflict with the
key 0x4C44 forces its role, to leader where LEAD names its side and to follower where it names the other; with every controller in
conflict forced the conflict ends and CODE clears, and before that it does not (that a lone one in conflict can end it is the model's
reading: log entry 141); any other write sets REJ and changes nothing else. -/
def Obligations.ConflictAndForcedLead : Prop :=
  (∀ (m : Mc) (s : State), s.Wf → s.dark = false →
      let conflicted (t : State) : Prop :=
        t.conflict m = true ∧ t.role m = 1 ∧ t.bu = 1 ∧ t.fld rBuState 16 16 = 0x0B01 ∧ t.fld rBuState 4 1 = 0 ∧ t.nv = s.nv
          ∧ t.mem = s.mem ∧ (s.bu ≠ 1 → t.job = none ∧ t.cores = [] ∧ t.pkg.niMap = [])
      (s.conflict m = false → s.forced m = false → (s.mc m).lead = true → s.role m = 0 →
        ∃ t, exec (.leaderConfirmTimeout m) s = .next t ∧ conflicted t)
      ∧ (s.conflict m = false → s.forced m = false → (s.mc m).lead = true → s.role m = 1 → (s.mc (mcOther m)).follow = false →
        ∃ t, exec (.leaderConfirmTimeout m) s = .next t ∧ conflicted t)
      ∧ (s.conflict m = false → s.forced m = false → s.role m = 1 ∨ s.role m = 2 →
        ∃ t, exec (.aliveTimeout m) s = .next t ∧ conflicted t)
      ∧ (s.role m ≠ 1 → s.role m ≠ 2 →
        ∃ t, exec (.aliveTimeout m) s = .next t ∧ regsOnly s t [mcKey m + rMcLeadStat] ∧ t.lfld m 8 1 = 0))
  ∧ (∀ (m : Mc) (v : W64) (s : State), s.Wf → s.dark = false →
      (s.conflict m = true → bitsOf v.toNat 16 16 = 0x4C44 → bitsOf v.toNat 0 2 = 1 ∨ bitsOf v.toNat 0 2 = 2 →
        ∃ t, exec (.mcLeadForce m v) s = .next t ∧ t.forced m = true ∧ t.lfld m 5 1 = 1 ∧ t.mem = s.mem ∧ t.nv = s.nv
          ∧ t.role m = (if bitsOf v.toNat 0 2 = (if m = .west then 1 else 2) then 1 else 2)
          ∧ ((s.conflict (mcOther m) = true → s.forced (mcOther m) = true) →
              t.conflict m = false ∧ t.conflict (mcOther m) = false ∧ t.fld rBuState 16 16 = 0)
          ∧ (s.conflict (mcOther m) = true → s.forced (mcOther m) = false →
              t.conflict m = true ∧ t.fld rBuState 16 16 = s.fld rBuState 16 16))
      ∧ (s.conflict m = false ∨ bitsOf v.toNat 16 16 ≠ 0x4C44 ∨ bitsOf v.toNat 0 2 = 0 ∨ bitsOf v.toNat 0 2 = 3 →
        ∃ t, exec (.mcLeadForce m v) s = .next t ∧ regsOnly s t [mcKey m + rMcLeadStat] ∧ t.lfld m 6 1 = 1))

/-! ### Bring-up commands -/

/-- INSPECT in WHELP with a leader and without conflict, or once BU_CTRL has started it, and RESET in a state that takes it. The
INSPECT ends in MAP, with at least 28 span rows and every site of the grade good, or in INSPECT with a code that names why;
BUSY is clear and the registers of the sites and the log hold what it found. With power, every stack there and trained, SB33, a valid
core image, 28 span rows, no dead y-link and enough good sites on both dies it ends in MAP. A RESET first loses the compute part: no
job, no cores, no map. A command that is not taken sets CMD_REJ and changes nothing else. -/
def Obligations.InspectEndsInMapOrWithCode : Prop :=
  ∀ (full : Bool) (f : Findings) (s : State), s.Wf → s.dark = false →
    ((s.pkg.buOp = none ∧ s.inspectOk = true) ∨ (∃ b, s.pkg.buOp = some (1, b)) →
      ∃ t, exec (.inspect f) s = .next t ∧ t.fld rBuState 4 1 = 0 ∧ t.fld rBuState 7 1 = 0
        ∧ t.mem = s.mem
        ∧ (f.powerOk = false → t.bu = 2 ∧ t.fld rBuState 16 16 = 0x0801)
        ∧ (f.powerOk = true → (∃ h ∈ f.hbmFail ++ f.hbmAbsent, h < 8) → t.bu = 2 ∧ t.fld rBuState 16 16 = 0x0B07)
        ∧ (f.powerOk = true → (∀ h ∈ f.hbmFail ++ f.hbmAbsent, 8 ≤ h) → s.pkg.sb33 = false →
            t.bu = 2 ∧ t.fld rBuState 16 16 = 0x0901)
        ∧ (∀ i, f.powerOk = true → (∀ h ∈ f.hbmFail ++ f.hbmAbsent, 8 ≤ h) → s.pkg.sb33 = true →
            fwCheck s.nv s.sigs 2 (coreImageOf (if (s.mc s.leader).region = 0 then s.nv.regionA else s.nv.regionB)) = .ok i →
            let r := s.judgeSites f i (ageAll s.nv.age f.aged)
            28 ≤ popCount r.span → r.ydead = false → perDie ≤ goodCount r.good 0 → perDie ≤ goodCount r.good 1 →
            t.bu = 3 ∧ t.fld rBuState 16 16 = 0 ∧ t.pkg.coreFw = some i
              ∧ ∀ k < 72, t.reg (rBuSiteGood k) = r.good k % 2 ^ 64 ∧ t.reg (rBuSiteTest k) = r.test k % 2 ^ 64)
        ∧ ((t.bu = 3 ∧ t.fld rBuState 16 16 = 0 ∧ 28 ≤ popCount (t.reg rBuSpan))
            ∨ (t.bu = 2 ∧ t.fld rBuState 16 16 ∈ [0x0801, 0x0B07, 0x0901, 0x0902, 0x0B02, 0x0B03, 0x0B04])))
    ∧ ((s.pkg.buOp = none ∧ s.inspectOk = false) ∨ (∃ c b, s.pkg.buOp = some (c, b) ∧ c ≠ 1) →
      ∃ t, exec (.inspect f) s = .next t ∧ regsOnly s t [rBuState] ∧ t.fld rBuState 5 1 = 1 ∧ t.bu = s.bu)
    ∧ ((s.pkg.buOp = none ∧ s.resetOk = true) ∨ s.pkg.buOp = some (5, full) → (s.pkg.softTrip && f.tripHolds) = false →
        ∃ t, exec (.reset full f) s = .next t ∧ t.fld rBuState 4 1 = 0 ∧ t.job = none ∧ t.cores = [] ∧ t.pkg.niMap = []
          ∧ t.fab.idleHold = true ∧ t.fld rBuState 7 1 = b2n (!(full || s.pkg.softTrip)) ∧ (t.bu = 3 ∨ t.bu = 2) ∧ t.mem = s.mem)
    ∧ (s.pkg.buOp = none → s.resetOk = false ∨ (s.pkg.softTrip && f.tripHolds) = true →
        ∃ t, exec (.reset full f) s = .next t ∧ regsOnly s t [rBuState] ∧ t.fld rBuState 5 1 = 1 ∧ t.bu = s.bu)

/-- COMMIT in MAP. With no fault in any entry the map is committed: LOAD, every logical core of the grade IDLE. Otherwise
BU_MAP_ERR names the first faulty entry and its kind, and the package stays in MAP. In any other state, or while BUSY, the
command is discarded with CMD_REJ. Which kind an entry with several faults has is the model's choice (log entry 122). -/
def Obligations.CommitChecksTheMap : Prop :=
  ∀ s : State, s.Wf → s.dark = false →
    let all := (List.range 2048).map s.mapWord
    let bad (n : Nat) := mapFault (fun k => s.reg (rBuSiteGood k)) all n
    (s.bu = 3 → s.fld rBuState 4 1 = 0 → (∀ n < 2048, bad n = 0) →
      ∃ t, exec .commit s = .next t ∧ t.bu = 4 ∧ (∀ n < numCores, t.cstate n = 1)
        ∧ (∀ n < 2048, t.mapEntry n = all.getD n 0 % 2 ^ 12 + 2 ^ 15 * bitsOf (all.getD n 0) 15 1)
        ∧ t.mem = s.mem ∧ t.job = s.job ∧ t.nv = s.nv)
    ∧ (∀ n < 2048, s.bu = 3 → s.fld rBuState 4 1 = 0 → bad n ≠ 0 → (∀ k < n, bad k = 0) →
        ∃ t, exec .commit s = .next t ∧ regsOnly s t [rBuMapErr] ∧ t.reg rBuMapErr = n + 2 ^ 11 * bad n)
    ∧ (s.bu ≠ 3 ∨ s.fld rBuState 4 1 = 1 →
        ∃ t, exec .commit s = .next t ∧ regsOnly s t [rBuState] ∧ t.fld rBuState 5 1 = 1 ∧ t.bu = s.bu)

/-- RUN in READY, not BUSY, with PF_START above the current beat enters RUN with B₀ = PF_START, and the ports send IDLE_HOLD no
more; otherwise the command is discarded with CMD_REJ. When B₀ has come JOB_START sets every used core that has an ACTIVE bank running (a
core restored as IDLE has none, and stays IDLE); nothing else but island frequencies changes; before B₀, in a run that has started, or outside RUN it does nothing. STOP in RUN is the fault
HOST_STOP of the leader's side; in any other state the command is discarded with CMD_REJ. -/
def Obligations.RunStartAndStop : Prop :=
  (∀ s : State, s.Wf → s.dark = false →
      (s.bu = 5 → s.fld rBuState 4 1 = 0 → s.beat < s.fld rPfStart 0 48 →
        ∃ t, exec .run s = .next t ∧ t.bu = 6 ∧ t.stp.b0 = s.fld rPfStart 0 48 ∧ t.stp.started = false
          ∧ t.fab = { s.fab with idleHold := false, haltedAt := none }
          ∧ t.fld rPfDbgStat 0 1 = s.fld rPfDbgCtrl 0 1 ∧ t.mem = s.mem ∧ t.job = s.job ∧ t.nv = s.nv
          ∧ ∀ r, r ≠ rBuState → r ≠ rPfDbgStat → t.reg r = s.reg r)
      ∧ (s.bu ≠ 5 ∨ s.fld rBuState 4 1 = 1 ∨ s.fld rPfStart 0 48 ≤ s.beat →
        ∃ t, exec .run s = .next t ∧ regsOnly s t [rBuState] ∧ t.fld rBuState 5 1 = 1 ∧ t.bu = s.bu)
      ∧ (s.running = true → s.stp.started = false → s.stp.b0 ≤ s.beat →
        ∃ t, exec .jobStart s = .next t ∧ t.issuing = true
          ∧ (∀ n ∈ s.used, s.hasActive n = true → t.cstate n = 2 ∧ (t.core n).panting = false)
          ∧ (∀ n, ¬(n ∈ s.used ∧ s.hasActive n = true) → t.cstate n = s.cstate n ∧ t.core n = s.core n)
          ∧ t = { s with regs := t.regs, cores := t.cores, stp := { s.stp with started := true } }
          ∧ ∀ r, (∀ n ∈ s.used, s.hasActive n = true → r ≠ rCore n oState) → (∀ n ∈ s.mappedCores, r ≠ rCore n oFreq) →
              t.reg r = s.reg r)
      ∧ (s.running = false ∨ s.stp.started = true ∨ s.beat < s.stp.b0 → exec .jobStart s = .next s))
  ∧ (∀ s : State, s.Wf → s.dark = false →
      (s.running = true → exec .stop s = .next (s.raise 0x0B06 7 (if s.leader = .east then 1 else 0)))
      ∧ (s.running = false → ∃ t, exec .stop s = .next t ∧ regsOnly s t [rBuState] ∧ t.fld rBuState 5 1 = 1 ∧ t.bu = s.bu))

/-- Where the nine commands of the supplies and of bring-up complete, with their main effect: VIN48_VALID in OFF ends in WHELP;
VIN48_LOSS leaves the package dark; SB33_LOSS and SB33_RETURN set the sideband supply; INSPECT in WHELP with a leader, no
conflict and no command pending leaves WHELP with BUSY clear; RUN in READY ends in RUN; JOB_START at B₀ has the cores issuing;
STOP in RUN ends in HALTED with HOST_STOP; RESET in HALTED with no soft trip leaves HALTED without a job. -/
def Obligations.SupplyAndBringUpComplete : Prop :=
  ∀ s : State, s.Wf →
    (∀ lead a1 a0 low, s.pkg.vin = false → ∃ t, exec (.vin48Valid lead a1 a0 low) s = .next t ∧ t.dark = false ∧ t.bu = 1)
    ∧ (s.pkg.vin = true → ∃ t, exec .vin48Loss s = .next t ∧ t.pkg.vin = false ∧ t.dark = true)
    ∧ (∃ t, exec .sb33Loss s = .next t ∧ t.pkg.sb33 = false)
    ∧ (∃ t, exec .sb33Return s = .next t ∧ t.pkg.sb33 = true)
    ∧ (∀ f, s.dark = false → s.inspectOk = true → s.pkg.buOp = none →
        ∃ t, exec (.inspect f) s = .next t ∧ (t.bu = 2 ∨ t.bu = 3) ∧ t.fld rBuState 4 1 = 0)
    ∧ (s.dark = false → s.bu = 5 → s.fld rBuState 4 1 = 0 → s.beat < s.fld rPfStart 0 48 →
        ∃ t, exec .run s = .next t ∧ t.running = true ∧ t.stp.b0 = s.fld rPfStart 0 48)
    ∧ (s.dark = false → s.running = true → s.stp.started = false → s.stp.b0 ≤ s.beat →
        ∃ t, exec .jobStart s = .next t ∧ t.issuing = true ∧ ∀ n ∈ s.used, s.hasActive n = true → t.cstate n = 2)
    ∧ (s.dark = false → s.running = true →
        ∃ t, exec .stop s = .next t ∧ t.bu = 7
          ∧ (s.fld rPfFault 16 1 = 0 → s.ownHalts = [] → t.fld rPfFault 0 17 = 0x0B06 + 2 ^ 16))
    ∧ (∀ full f, s.dark = false → s.bu = 7 → s.pkg.buOp = none → s.pkg.softTrip = false →
        ∃ t, exec (.reset full f) s = .next t ∧ t.job = none ∧ t.cores = [] ∧ (t.bu = 2 ∨ t.bu = 3) ∧ t.fld rBuState 4 1 = 0)

/-- The package's own fault in RUN, the first since LOAD: PF_FAULT holds reason, unit, index and pack time, PF_STOP_CAUSE names this package
as origin, a STOP leaves on every FABRIC port that is UP, every used core that ran or waited is halted, the package is
HALTED, and memory, fuses and job stay as they are. A core's halt that still waits for older commands is a fault of before: PF_FAULT,
PF_STOP_CAUSE and the STOPs then name the one detected first. -/
def Obligations.PackageFaultStopsTheHerd : Prop :=
  ∀ (s : State) (reason unit index : Nat), s.Wf → s.running = true → s.fld rPfFault 16 1 = 0 →
    s.fld rPfStopCause 32 1 = 0 → reason < 2 ^ 16 → unit < 8 → index < 2 ^ 11 →
    let t := s.raise reason unit index
    t.bu = 7 ∧ t.fld rPfFault 16 1 = 1 ∧ t.reg rPfFaultTime ≤ s.now ∧ t.fld rPfStopCause 0 11 = s.herdIndex
      ∧ t.fld rPfStopCause 16 16 = t.fld rPfFault 0 16 ∧ t.reg rPfStopTime = t.reg rPfFaultTime
      ∧ (∀ p ∈ s.fabricUp, .stop p s.herdIndex (t.fld rPfFault 0 16) (t.reg rPfFaultTime) ∈ t.outbox)
      ∧ (s.ownHalts = [] → t.fld rPfFault 0 17 = reason + 2 ^ 16 ∧ t.fld rPfFault 17 3 = unit ∧ t.fld rPfFault 20 11 = index
          ∧ t.reg rPfFaultTime = s.now)
      ∧ (∀ n ∈ s.used, s.coreLive n = true → t.cstate n = 5) ∧ t.fab.issueStopped = true
      ∧ t.mem = s.mem ∧ t.nv = s.nv ∧ t.job = s.job

/-! ### Core streams: checks, control, heels, banks, breaks, steps -/

/-- A failed check halts the core before the command, with NO_EFFECT, and stops its package: at once where the command is alone; where it
issues from the window, the older commands complete and retire first, and until then the core only keeps the halt that is to come,
with its pack time, and takes in no younger command. -/
def Obligations.FailedCheckHaltsTheCore : Prop :=
  ∀ (s : State) (a : Attr) (code : Nat), s.Wf → s.fetching a.core = true → code < 2 ^ 16 →
    ((s.core a.core).issues = false → (∀ n ∈ s.used, (s.core n).ending = none) →
      haltedBefore s (s.checkFail a code) a code true ∧ (s.checkFail a code).reg (rCore a.core oCount) = s.reg (rCore a.core oCount))
    ∧ ((s.core a.core).issues = true →
      s.checkFail a code = s.setCore a.core { s.core a.core with
        window := (s.core a.core).window.takeWhile (fun w => w.status != .issuing), ending := some (.halt a code true s.now) })

/-- The checks of class All come first, for every command of a core's stream with nothing older in its way: a command the
stepping does not define halts with CMD_ILLEGAL, one that needs an engine that is absent with ENGINE_ABSENT. A control command that meets
a two-bit error of the core's own memory halts it with MEM_UNCORRECTABLE, and MEM_ERR_ADDR, where it holds no earlier error, names the
memory, the byte offset and the core. A core that does not fetch takes no command. -/
def Obligations.StreamChecksComeFirst : Prop :=
  ∀ (c : Instr) (a : Attr) (s : State), s.Wf → streamAttr c = some a → s.dark = false →
    (s.fetching a.core = false → exec c s = .next s)
    ∧ (s.fetching a.core = true → s.Settled → (s.core a.core).stream = [] → (s.core a.core).ending = none → s.armed = false →
        s.unblocked a.core c = true →
      (a.defined = false → exec c s = .next (s.checkFail a 0x0101))
      ∧ (a.defined = true → a.engines &&& absentEngines ≠ 0 → exec c s = .next (s.checkFail a 0x0301))
      ∧ (a.defined = true → a.engines &&& absentEngines = 0 → serialises c = true → ∀ u off, a.mem.unit = some (u, off) →
          ∃ t, exec c s = .next t ∧ haltedBefore s t a 0x0401 false
            ∧ (s.fld rMemErr 48 1 = 0 → t.fld rMemErr 48 1 = 1 ∧ t.fld rMemErr 50 3 = coreSource u
                ∧ t.fld rMemErr 0 21 = off % 2 ^ 21 ∧ t.fld rMemErr 32 11 = a.core % 2 ^ 11)))

/-- FENCE, BRANCH and DECIDE. FENCE only retires. BRANCH continues at its target inside the segment; DECIDE does so exactly
when every decision bit its mask names is set (log entry 40). A target outside the segment, or a mask that names more than the
three bits, is CMD_BAD_OPERAND. -/
def Obligations.ControlCommands : Prop :=
  ∀ (a : Attr) (s : State), s.Wf → s.Ready a →
    let len := s.segLen a.core (s.activeSeg a.core)
    let bits := b2n (s.core a.core).widen + 2 * b2n (s.core a.core).skip + 4 * b2n (s.core a.core).nonfin
    (∃ t, exec (.fence a) s = .next t ∧ regsOnly s t (retireRegs a.core) ∧ retired s t a)
    ∧ (∀ target, target < len → ∃ t, exec (.branch a target) s = .next t ∧ coreOnly s t a.core (retireRegs a.core)
        ∧ retired s t a ∧ t.core a.core = { s.core a.core with resume := target })
    ∧ (∀ target, len ≤ target → exec (.branch a target) s = .next (s.checkFail a 0x0102))
    ∧ (∀ mask target, mask < 8 → target < len → bits &&& mask = mask →
        ∃ t, exec (.decide a mask target) s = .next t ∧ coreOnly s t a.core (retireRegs a.core) ∧ retired s t a
          ∧ t.core a.core = { s.core a.core with resume := target })
    ∧ (∀ mask target, mask < 8 → target < len → bits &&& mask ≠ mask →
        ∃ t, exec (.decide a mask target) s = .next t ∧ regsOnly s t (retireRegs a.core) ∧ retired s t a)
    ∧ (∀ mask target, len ≤ target ∨ 8 ≤ mask → exec (.decide a mask target) s = .next (s.checkFail a 0x0102))

/-- END: the core is IDLE and its active bank READY. While another used core runs or waits, the package stays in RUN and
nothing else changes; once every used core is IDLE, in BREAK or HALTED, the package is HALTED. -/
def Obligations.EndOfStream : Prop :=
  ∀ (a : Attr) (s : State), s.Wf → s.Ready a →
    ∃ t, exec (.endStream a) s = .next t ∧ t.cstate a.core = 1 ∧ retired s t a ∧ t.mem = s.mem ∧ t.nv = s.nv ∧ t.job = s.job
      ∧ (∀ b < 2, t.bankState a.core b = if s.bankState a.core b = 3 then 2 else s.bankState a.core b)
      ∧ ((∃ k ∈ s.used, k ≠ a.core ∧ s.coreLive k = true) →
          t.bu = 6 ∧ coreOnly s t a.core (rCore a.core oState :: rCore a.core oBank :: retireRegs a.core))
      ∧ ((∀ k ∈ s.used, k ≠ a.core → s.cstate k = 1 ∨ s.cstate k = 4 ∨ s.cstate k = 5) → t.bu = 7)

/-- HEEL with a legal window and wait set, at or before the end of slot d. If every awaited flit is there in time, the heel
retires at the latest of now, slot h and the slots of those flits; HEEL_COUNT rises. If one is missing, the core
waits in HEEL with the command in its window. Here for a heel that lies before the step's decision heels and is not the one at a
boundary to be saved. A window or wait set
that is not legal is CMD_BAD_OPERAND. At the end of slot d of a waiting heel a flit that neither has come nor is held here for a
slot up to d is HEEL_TIMEOUT, and the core halts with it; a core that waits at no heel is left alone. -/
def Obligations.HeelWaitsForItsFlits : Prop :=
  (∀ (a : Attr) (h d : Nat) (waits : List (Nat × Nat)) (s : State), s.Wf → s.Ready a → s.savesAt h = false →
      (d < h ∨ 65535 < d - h ∨ s.waitsOk a.core waits = false → exec (.heel a h d waits) s = .next (s.checkFail a 0x0102))
      ∧ (h ≤ d → d - h ≤ 65535 → s.waitsOk a.core waits = true → s.now ≤ s.packOf d → s.stp.widened = false →
          h ≤ s.stp.origin + s.statusSlot → h ≤ s.stp.origin + s.normSlot →
        (∀ tm, s.heelTime a.core h d waits s.now = some tm →
          s.now ≤ tm ∧ s.packOf h ≤ tm ∧ tm ≤ s.packOf d
          ∧ (∀ w ∈ waits, ∃ x, s.awaited? a.core w = some x ∧ s.packOf x.slot ≤ tm)
          ∧ (tm < 2 ^ 64 → ∃ t, exec (.heel a h d waits) s = .next t ∧ t.now = tm ∧ t.cstate a.core = 2
            ∧ (t.core a.core).window = [] ∧ retired s t a
            ∧ coreOnly { s with ports := t.ports, outbox := t.outbox } t a.core
                (rPfPackTime :: rCore a.core oHeel :: rCore a.core oState :: retireRegs a.core)
            ∧ t.cfld a.core oHeel 32 32 = min (2 ^ 32 - 1) (s.cfld a.core oHeel 32 32 + 1)))
        ∧ (s.heelTime a.core h d waits s.now = none →
          ∃ t, exec (.heel a h d waits) s = .next t ∧ t.cstate a.core = 3 ∧ coreOnly s t a.core [rCore a.core oState]
            ∧ (t.core a.core).window = [⟨.heel a h d waits, s.now, 0, .waiting⟩])))
  ∧ (∀ (n : Nat) (s : State), s.Wf → s.dark = false →
      ((s.core n).window = [] → s.anyWaits = false → exec (.heelDeadline n) s = .next s)
      ∧ (∀ a h d waits since k, s.issuing = true → n ∈ s.used → s.cstate n = 3 → s.armed = false →
          (s.core n).window = [⟨.heel a h d waits, since, k, .waiting⟩] → (s.core n).stream = [] →
          (∀ m ∈ s.used, (s.core m).ending = none ∧ (m ≠ n → (s.core m).window = [])) →
          a.core = n → a.defined = true → a.engines &&& absentEngines = 0 → a.mem = { } → s.savesAt h = false → h ≤ d →
          d - h ≤ 65535 → s.waitsOk n waits = true → max since (s.core n).asOf ≤ s.packOf d → s.now ≤ s.packOf d →
          s.packOf d < 2 ^ 64 → (∀ x ∈ s.fab.held, x.atEndpoint = true → s.packOf d < s.packOf x.due) →
          s.heelTime n h d waits (max since (s.core n).asOf) = none →
        ∃ t, exec (.heelDeadline n) s = .next t ∧ t.cstate n = 5 ∧ (t.core n).window = [] ∧ t.mem = s.mem ∧ t.nv = s.nv
          ∧ (s.cfld n oHaltInfo 16 1 = 0 → t.cfld n oHaltInfo 0 16 = 0x0503 ∧ t.cfld n oHaltInfo 17 1 = 1
              ∧ t.cfld n oHaltInfo 18 1 = 0)
          ∧ (s.fld rPfFault 16 1 = 0 → t.bu = 7 ∧ t.fld rPfFault 0 16 = 0x0503)))

/-- Instruction banks. IMEM_LOAD of a known segment into a bank that is not ACTIVE sets it LOADING with the segment's ID;
into the ACTIVE bank it is discarded, counted and flagged; of a segment the program does not have, or into a third bank, it is
CMD_BAD_OPERAND. When the last byte is written the bank is READY with the segment's bytes. SWAP to a READY bank with its segment
and an entry inside it makes that bank ACTIVE and the other READY; while that segment is LOADING there it waits; any other bank
state or segment is SEG_MISMATCH, and an entry outside the segment is CMD_BAD_OPERAND. -/
def Obligations.InstructionBanks : Prop :=
  ∀ (a : Attr) (seg bank entry : Nat) (s : State), s.Wf → s.Ready a →
    let n := a.core
    let other := 1 - s.activeBank n
    (∀ g, s.segment? n seg = some g → g.len ≤ 0x1_0000 → seg < 2 ^ 16 → bank < 2 → s.bankState n bank ≠ 3 →
      ∃ t, exec (.imemLoad a seg bank) s = .next t ∧ t.bankState n bank = 1 ∧ t.bankSeg n bank = seg ∧ retired s t a
        ∧ t.bankState n (1 - bank) = s.bankState n (1 - bank) ∧ coreOnly s t n (rCore n oBank :: retireRegs n))
    ∧ (∀ g, s.segment? n seg = some g → g.len ≤ 0x1_0000 → bank < 2 → s.bankState n bank = 3 →
      ∃ t, exec (.imemLoad a seg bank) s = .next t ∧ t.reg (rCore n oBank) = s.reg (rCore n oBank) ∧ t.cores = s.cores
        ∧ t.cfld n oImemErr 0 16 = min (2 ^ 16 - 1) (s.cfld n oImemErr 0 16 + 1) ∧ t.cfld n oImemErr 16 1 = 1
        ∧ retired s t a ∧ t.mem = s.mem)
    ∧ (s.segment? n seg = none ∨ 2 ≤ bank → exec (.imemLoad a seg bank) s = .next (s.checkFail a 0x0102))
    ∧ (∀ addr len, bank < 2 → s.bankState n bank = 1 →
        (if bank = 0 then (s.core n).load0 else (s.core n).load1) = some (addr, len) →
      ∃ t, exec (.imemBankLoadComplete n bank) s = .next t ∧ t.bankState n bank = 2 ∧ coreOnly s t n [rCore n oBank]
        ∧ (if bank = 0 then (t.core n).bank0 else (t.core n).bank1) = s.load addr len)
    ∧ (s.bankState n other = 2 → s.bankSeg n other = seg → entry < s.segLen n seg →
      ∃ t, exec (.swap a seg entry) s = .next t ∧ t.bankState n other = 3 ∧ t.bankState n (1 - other) = 2
        ∧ (t.core n).resume = entry ∧ t.cfld n oState 3 1 = other ∧ retired s t a
        ∧ coreOnly s t n (rCore n oBank :: rCore n oState :: retireRegs n))
    ∧ (s.bankState n other = 1 → s.bankSeg n other = seg → entry < s.segLen n seg →
      ∃ t, exec (.swap a seg entry) s = .next t ∧ coreOnly s t n [rCore n oState]
        ∧ (t.core n).window = [⟨.swap a seg entry, s.now, 0, .held⟩])
    ∧ (s.bankState n other = 0 ∨ s.bankState n other = 3 ∨ s.bankSeg n other ≠ seg →
      exec (.swap a seg entry) s = .next (s.checkFail a 0x0103))
    ∧ (s.bankState n other = 1 ∨ s.bankState n other = 2 → s.bankSeg n other = seg → s.segLen n seg ≤ entry →
      exec (.swap a seg entry) s = .next (s.checkFail a 0x0102))

/-- In an armed run a command that meets a target does not enter: its core freezes in BREAK before it, with the target's KIND
and code, COUNT and the command's data untouched; no STOP leaves and PF_STOP_CAUSE stays, and the package is HALTED once
every used core is IDLE, in BREAK or HALTED. With commands of the window still to complete, the freeze waits for them. A
command that meets none is not stopped. -/
def Obligations.BreaksFreezeBeforeTheCommand : Prop :=
  ∀ (a : Attr) (s : State), s.Wf → s.dark = false → s.fetching a.core = true → s.armed = true →
    (s.anyWaits = false → ∀ code cause kind, s.target? a = some (code, cause, kind) →
      ∃ t, exec (.breakFreeze a) s = .next t ∧ t.cstate a.core = 4 ∧ t.cfld a.core oDbg 0 3 = kind
        ∧ t.reg (rCore a.core oCount) = s.reg (rCore a.core oCount) ∧ (t.core a.core).sram = (s.core a.core).sram
        ∧ (t.core a.core).groups = (s.core a.core).groups ∧ t.nv = s.nv ∧ t.job = s.job
        ∧ (s.cfld a.core oHaltInfo 16 1 = 0 → t.cfld a.core oHaltInfo 0 16 = code ∧ t.cfld a.core oHaltInfo 17 1 = 1)
        ∧ t.outbox = s.outbox ∧ t.reg rPfStopCause = s.reg rPfStopCause
        ∧ ((∀ k ∈ s.used, k = a.core ∨ s.cstate k = 1 ∨ s.cstate k = 4 ∨ s.cstate k = 5) → t.bu = 7)
        ∧ ((∃ k ∈ s.used, k ≠ a.core ∧ s.coreLive k = true) → t.bu = 6))
    ∧ ((s.core a.core).window ≠ [] → ∀ code cause kind, s.target? a = some (code, cause, kind) →
        exec (.breakFreeze a) s
          = .next (s.setCore a.core { s.core a.core with ending := some (.freeze a code cause kind true true) }).settle)
    ∧ (s.anyWaits = false → s.target? a = none → exec (.breakFreeze a) s = .next s)
    ∧ (s.reg (rCore a.core oBrkCount) ≠ 0 →
        s.reg (rCore a.core oBrkCount) = s.reg (rCore a.core oCount) + (s.core a.core).window.length + 1 →
        s.target? a = some (0x0A01, 2, 1))

/-- A CTX_SAVE whose boundary has come, with nothing left for the cores to complete: no used core runs or waits any more, every request
for that boundary is taken from the queue of requests, and the package has left RUN. A HEEL at the boundary's origin does not retire:
its core stops before it, with KIND 5, and while another core has commands to come it keeps that freeze and nothing else changes; the
code of that freeze is a free value (log entry 41). -/
def Obligations.ContextSaveAtTheBoundary : Prop :=
  (∀ (s : State) (r : Nat × Nat × Nat × Nat), s.Wf → s.dark = false → s.issuing = true → s.ctxDue = some r → s.armed = false →
      (∃ n ∈ s.used, s.coreLive n = true) →
      (∀ n ∈ s.used, (s.core n).window = [] ∧ (s.core n).stream = [] ∧ (s.core n).ending = none) →
      (∀ x ∈ s.fab.held, x.atEndpoint = true → s.now < s.packOf x.due ∧ s.packOf s.saveOrigin < s.packOf x.due) →
    ∃ t, exec .ctxSaveFreeze s = .next t ∧ t.bu = 7 ∧ (∀ n ∈ s.used, t.coreLive n = false) ∧ t.job = s.job ∧ t.nv = s.nv
      ∧ ∀ x ∈ t.hl.ctxReqs, x.2.2.1 ≠ r.2.2.1)
  ∧ (∀ (a : Attr) (h d : Nat) (waits : List (Nat × Nat)) (s : State), s.Wf → s.Ready a → s.savesAt h = true →
      (∃ k ∈ s.used, k ≠ a.core ∧ s.coreLive k = true) →
    ∃ t code, exec (.heel a h d waits) s = .next t ∧ t = { s with cores := t.cores, free := s.free + 1 }
      ∧ t.core a.core = { s.core a.core with ending := some (.freeze a code 1 5 true true) }
      ∧ ∀ k, k ≠ a.core → t.core k = s.core k)

/-- STEP_ORIGIN, where no core holds a waiting command, no CTX_SAVE's boundary has come and no flit is held. The first takes the origin of the run's first step. Each later one ends
the step, decided by then at the latest: the step count rises by one, the update count unless the step skipped, the origin
moves by the step's length (in a widened step to the end of the wide schedule), and pack time has reached it. Where a slow
layer's pass has not completed, the generation may not flip: the package stops with SLOT_MISSED (R194; on a core of the model's
choice, log entry 115), and in an armed run that core freezes with KIND 4 instead (R431). -/
def Obligations.StepOriginEndsTheStep : Prop :=
  ∀ (j : Job) (s : State), s.Wf → s.dark = false → s.issuing = true → s.job = some j → s.anyWaits = false →
      s.ctxDue = none → s.fab.held = [] →
    let u := s.takeDecision j
    (s.stp.begun = false → ∃ t, exec .stepOrigin s = .next t ∧ t.stp.begun = true ∧ t.stp.step = s.stp.step
        ∧ t.stp.v = s.stp.v ∧ t.stp.origin = s.stp.origin ∧ t.stp.amax = [] ∧ t.stp.snapReq = false
        ∧ (s.snapDue j = false → t.mem = s.mem))
    ∧ (s.stp.begun = true → u.slowLeft j = false →
        ∃ t, exec .stepOrigin s = .next t ∧ t.stp.begun = true ∧ t.stp.step = s.stp.step + 1
          ∧ t.stp.v = s.stp.v + (if u.stp.skip = true then 0 else 1)
          ∧ t.stp.origin = (if s.stp.widened = true then s.stp.origin + j.hdr.statusDel + j.hdr.eW + j.hdr.lW
              else s.stp.origin + j.hdr.stepLen)
          ∧ t.stp.decided = false ∧ t.stp.wide = false ∧ t.stp.widened = false ∧ t.stp.skip = false
          ∧ (s.packOf t.stp.origin < 2 ^ 64 → s.packOf t.stp.origin ≤ t.now))
    ∧ (s.stp.begun = true → u.slowLeft j = true → s.armed = false → (∃ n ∈ s.used, s.coreLive n = true) →
        s.fld rPfFault 16 1 = 0 →
        ∃ t, exec .stepOrigin s = .next t ∧ t.bu = 7 ∧ t.fld rPfFault 0 16 = 0x0501 ∧ t.stp.step = s.stp.step)
    ∧ (s.stp.begun = true → u.slowLeft j = true → s.armed = true → (∃ n ∈ s.used, s.coreLive n = true) →
        ∃ t, exec .stepOrigin s = .next t ∧ t.stp.step = s.stp.step ∧ t.nv = s.nv
          ∧ ∃ n ∈ s.used, s.coreLive n = true ∧ t.cstate n = 4 ∧ t.cfld n oDbg 0 3 = 4)

/-! ### Lattice, vector and transfer commands -/

/-- OPEN of a group with a ZERO preload that passes every check: the group is open with nothing accumulated and one tile, at
prescale 0, for each tile named. A ninth group is GROUP_LIMIT; no other core, no memory and no register but COUNT and LAST
changes. -/
def Obligations.OpenStartsAGroup : Prop :=
  ∀ (a : Attr) (o : OpenArg) (j : Job) (s : State), s.Wf → s.Ready a → s.job = some j →
    (s.openCode a.core j o = 0 → o.preload = .zero → o.narrow = none →
      ∃ t g, exec (.openGroup a o) s = .next t ∧ coreOnly s t a.core (retireRegs a.core) ∧ retired s t a
        ∧ t.group? a.core o.group = some g ∧ g.o = s.resolveOpen j o ∧ g.k = 0 ∧ g.hist = []
        ∧ g.tiles.map (·.arg) = o.tiles ∧ (∀ x ∈ g.tiles, x.q = 0 ∧ x.elems.length = x.arg.rows * x.arg.cols)
        ∧ (∀ k, k ≠ o.group → t.group? a.core k = s.group? a.core k)
        ∧ (t.core a.core).sram = (s.core a.core).sram)
    ∧ (8 ≤ (s.core a.core).groups.length → exec (.openGroup a o) s = .next (s.checkFail a 0x0205))

/-- ACCUMULATE that passes every check, on a group of a layer that is not narrow, whose operands' sources still hold what was
read from them: the K taken rises by the length; each tile that was not given up ends at the least prescale, from its own up to 8, at
which no rounding overflows in an element that takes part, at its own prescale going on from what it has accumulated and at a higher
one with the pass over all the K taken, and is given up (9) where none is; given-up tiles stay so. No group is GROUP_NOT_OPEN; a length of 0 is accepted by any open group and only retires. -/
def Obligations.AccumulateFindsThePrescale : Prop :=
  ∀ (a : Attr) (o : AccArg) (j : Job) (s : State), s.Wf → s.Ready a → s.job = some j →
    (∀ g, s.group? a.core o.group = some g → g.o.narrow = none → o.kLen ≠ 0 → accCode g o = 0 →
      sramOk (accRanges g.o.orient o) = true →
      let g1 := s.takes a.core j g o
      (∀ i x, g1.tiles[i]? = some x → ∃ st, s.reread a.core j g1 i x = .inr ⟨x, st⟩) →
      ∃ (t : State) (g' : Group), exec (.accumulate a o) s = .next t ∧ coreOnly s t a.core (retireRegs a.core) ∧ retired s t a
        ∧ t.group? a.core o.group = some g' ∧ g'.k = g.k + o.kLen ∧ g'.o = g.o ∧ g'.tiles.length = g.tiles.length
        ∧ (t.core a.core).sram = (s.core a.core).sram
        ∧ ∀ (i : Nat) (x : Tile), g1.tiles[i]? = some x →
          let try_ (q : Nat) : List ElemRun := if q = x.q then g1.attempt j x else (g1.tileIn j x).pass q
          ∃ y, g'.tiles[i]? = some y ∧ y.arg = x.arg ∧ y.hist = x.hist
          ∧ (x.q = 9 → y = x)
          ∧ (x.q ≤ 8 → x.q ≤ y.q ∧ y.q ≤ 9
              ∧ (∀ q, x.q ≤ q → q < y.q → (g1.tileIn j x).overflows (try_ q) = true)
              ∧ (y.q ≤ 8 → (g1.tileIn j x).overflows (try_ y.q) = false ∧ y.elems = passElems (try_ y.q))))
    ∧ (s.group? a.core o.group = none → sramOk (accRanges 0 o) = true →
      exec (.accumulate a o) s = .next (s.checkFail a 0x0203))
    ∧ (∀ g, s.group? a.core o.group = some g → o.kLen = 0 → sramOk (accRanges g.o.orient o) = true →
      exec (.accumulate a o) s = .next (s.retire a))

/-- CLOSE of a one-tile group of a layer that is not narrow, plain conversion, no status array, outside a wide schedule. Into data
SRAM it stores the tile's results converted to the output's format; into its output tensor it stores them at the address of
the tile's row; nothing else of memory or SRAM changes and the group is closed. A group that is not open is GROUP_NOT_OPEN. -/
def Obligations.CloseStoresTheTile : Prop :=
  ∀ (a : Attr) (grp off : Nat) (conv : Conv) (j : Job) (s : State), s.Wf → s.Ready a → s.job = some j →
    (∀ g x out, s.group? a.core grp = some g → g.tiles = [x] → g.o.narrow = none → s.stp.wide = false → plainConv conv →
      j.tensor? g.o.out = some out → j.tensor? out.status = none → out.cls ≠ 1 →
      let c := { conv with dst := out.format }
      convCode .t32 { c with sSrc := t32One } j false (some out) 0 0 = 0 →
      let st := s.tileStore j out c g x (g.tileIn j x) x.readFlushed 0 x.q x.elems
      (sramOk [(off, tileBytes out.format x.arg)] = true →
        ∃ t, exec (.close a grp (.sram off) conv) s = .next t ∧ retired s t a ∧ t.mem = s.mem ∧ t.group? a.core grp = none
          ∧ t.sramRead a.core off (st.rows.flatMap id).length = st.rows.flatMap id
          ∧ (∀ k, k ≠ grp → t.group? a.core k = s.group? a.core k)
          ∧ (∀ r, r ∉ retireRegs a.core → t.reg r = s.reg r) ∧ t.nv = s.nv
          ∧ ∀ k, k < off ∨ off + (st.rows.flatMap id).length ≤ k →
              mapGet memDefault (t.core a.core).sram k = mapGet memDefault (s.core a.core).sram k)
      ∧ (∀ addr row, j.range? out (s.writeSlot j out) (x.arg.m0 * out.rowLen + x.arg.n0) x.arg.cols = some addr →
          st.rows = [row] → s.badPart addr row.length = none →
        ∃ t, exec (.close a grp .tensor conv) s = .next t ∧ retired s t a ∧ t.group? a.core grp = none
          ∧ t.load addr row.length = row ∧ (t.core a.core).sram = (s.core a.core).sram
          ∧ (∀ r, r ∉ retireRegs a.core → t.reg r = s.reg r) ∧ t.nv = s.nv
          ∧ ∀ k, k < addr ∨ addr + row.length ≤ k → t.byte k = s.byte k))
    ∧ (∀ d, s.group? a.core grp = none → (∀ o, d = .sram o → sramOk [(o, 0)] = true) →
      exec (.close a grp d conv) s = .next (s.checkFail a 0x0203))

/-- VOP and VCONVERT with a plain conversion, once their checks pass: the results (VOP: of the operation on the T32 sources;
VCONVERT: the sources' values times their scale), each divided by the destination's scale and rounded to its format, stand
at the destination, and nothing else changes. A VOP of an operation that Table 8.9 does not list for it is CMD_ILLEGAL. -/
def Obligations.VectorResults : Prop :=
  ∀ (a : Attr) (j : Job) (s : State), s.Wf → s.Ready a → s.job = some j →
    (∀ o : VopArg, vopListed o.op = true → (isReduction o.op = true → o.arg ≤ 2) → vopShape o = true → o.srcT32 = true →
      isElemFmt o.conv.dst = true → (isReduction o.op = true → o.conv.dst = .t32) → plainConv o.conv →
      convCode .t32 o.conv j true none o.conv.first (vopCount o) = 0 →
      sramOk ([(o.a, 4 * o.n), (o.dst, elemSize o.conv.dst 1 * vopCount o)]
        ++ (o.b.map (fun x => (x, 4 * o.nB))).toList ++ (o.c.map (fun x => (x, 4 * o.nC))).toList) = true →
      let src (p : Option Nat) (n : Nat) : List W32 := (p.map (fun x => s.sramT32 a.core x n)).getD []
      let r := vopResults o (s.sramT32 a.core o.a o.n) (src o.b o.nB) (src o.c o.nC)
      ∃ t, exec (.vop a o) s = .next t ∧ sramResult s t a o.dst (cvtBytes o.conv.dst ((List.range r.length).map (fun i =>
        s.convOne j o.conv false 0 (o.conv.first + i) (dstScale o.conv.dst o.conv.sDst) false (valT32 (r.getD i 0))))))
    ∧ (∀ o : VopArg, vopListed o.op = false → sramOk ([(o.a, 4 * o.n), (o.dst, elemSize o.conv.dst 1 * vopCount o)]
        ++ (o.b.map (fun x => (x, 4 * o.nB))).toList ++ (o.c.map (fun x => (x, 4 * o.nC))).toList) = true →
      exec (.vop a o) s = .next (s.checkFail a 0x0101))
    ∧ (∀ (src dst n : Nat) (f : Fmt) (c : Conv), isElemFmt f = true → isElemFmt c.dst = true → plainConv c →
      convCode f c j false none c.first n = 0 → sramOk [(src, elemSize f 1 * n), (dst, elemSize c.dst 1 * n)] = true →
      ∃ t, exec (.vconvert a src dst n f c) s = .next t ∧ sramResult s t a dst (cvtBytes c.dst ((List.range n).map (fun i =>
        s.convOne j c false 0 (c.first + i) (dstScale c.dst c.sDst) false
          (xMul (decodeElem f ((s.sramCodes a.core src f n).getD i 0)) (valT32 (dstScale f c.sSrc)))))))

/-- FLUTTER. Lane i is the generator's value for step and element e0 + i: in the user domain for the user key and the ID and DRAW
named, in DROPOUT for the dropout key, the site named and its DRAW and threshold. RAW stores its 16 bits, UNIFORM the
value / 65,536 in T32, MASK one bit for value < threshold. Any other domain, a site that does not exist and a threshold of
0 are CMD_BAD_OPERAND. -/
def Obligations.FlutterWritesItsLanes : Prop :=
  ∀ (a : Attr) (dom id draw e0 n thr dst : Nat) (mode : FltMode) (j : Job) (s : State), s.Wf → s.Ready a → s.job = some j →
    sramOk [(dst, flutterBytes mode n)] = true →
    (∀ (key : BitVec 128) (dr th : Nat),
      (dom = domUser ∧ key = j.userKey ∧ dr = draw ∧ th = thr)
        ∨ (dom = domDropout ∧ key = j.dropKey ∧ ∃ x, j.sites.find? (fun x => x.index == id) = some x ∧ dr = x.draw ∧ th = x.t) →
      let lane (i : Nat) : Nat := fltValue (quadOf key) id s.stp.step dom dr (e0 + i)
      (mode = .raw → ∃ t, exec (.flutter a dom id draw e0 n mode thr dst) s = .next t
          ∧ sramResult s t a dst ((List.range n).flatMap (fun i => leBytes 2 (lane i))))
      ∧ (mode = .uniform → ∃ t, exec (.flutter a dom id draw e0 n mode thr dst) s = .next t
          ∧ sramResult s t a dst ((List.range n).flatMap (fun i => leBytes 4 (rne32s (.fin false (lane i) 65536)).toNat)))
      ∧ (mode = .mask → 0 < th → ∃ t, exec (.flutter a dom id draw e0 n mode thr dst) s = .next t ∧ retired s t a
          ∧ coreOnly s t a.core (retireRegs a.core)
          ∧ (∀ i < n, bitsOf (mapGet memDefault (t.core a.core).sram (dst + i / 8)).toNat (i % 8) 1 = b2n (decide (lane i < th)))
          ∧ ∀ k, k < dst ∨ dst + flutterBytes .mask n ≤ k →
              mapGet memDefault (t.core a.core).sram k = mapGet memDefault (s.core a.core).sram k)
      ∧ (mode = .mask → th = 0 → exec (.flutter a dom id draw e0 n mode thr dst) s = .next (s.checkFail a 0x0102)))
    ∧ ((dom ≠ domDropout ∧ dom ≠ domUser) ∨ (dom = domDropout ∧ j.sites.find? (fun x => x.index == id) = none) →
        exec (.flutter a dom id draw e0 n mode thr dst) s = .next (s.checkFail a 0x0102))

/-- UPDATE. A pass that does not run, because its step skips, only zeroes its gradient. A pass of a fast layer that runs
computes every new value before it writes any: where finite inputs give a non-finite value in a trained element the core halts
with UPD_NONFINITE, no operand check having failed, and no byte of memory changes; else the trained masters become what the recipe gives, the others keep their
bytes, the working copy follows the masters, the gradient is zeroed, in memory ranges that do not meet, and the elements count
as updated. Here for a recipe without a layer reduction. -/
def Obligations.UpdateCommitsOrHalts : Prop :=
  ∀ (a : Attr) (o : UpdArg) (j : Job) (rb : List Byte) (mt g wt : Tensor) (s : State), s.Wf → s.Ready a → s.job = some j →
    j.recipes[o.layer]? = some rb → j.tensor? o.master = some mt → j.tensor? o.grad = some g → j.tensor? o.work = some wt →
    updateFits (recipeOf rb) mt o = true → updateFmts j (recipeOf rb) o = true → mt.slow = false → g.slow = false →
    (recipeOf rb).layerReds = 0 → s.fab.held = [] → s.bad = [] →
    ∀ u, s.passUse j mt = some u →
    let r := recipeOf rb
    let zeros := (List.range o.count).flatMap (fun _ => zeroElem g.ns)
    (∀ x, s.stp.skip = true → j.range? g u.slot o.first o.count = some x →
      ∃ t, exec (.update a o) s = .next t ∧ memResult s t a x zeros)
    ∧ (∀ k p q v w, s.stp.skip = false → s.stagePart j r o mt g u = .inr (k, p) → s.passState j r o = .inr q →
      (passEnv r u q [p]).run (valueAlg pairadd) r.pts (s.gatherUnits j r o.layer) 0 r.ops = .done v →
      (taintEnv r q [p]).run taintAlg r.pts (fun _ mine => some mine) 0 r.ops = .done w →
      let new := passVals r v w 0
      (new.bad = true → ∃ t, exec (.update a o) s = .next t ∧ haltedBefore s t a 0x0E03 false)
      ∧ (∀ xm xw xg, new.bad = false → o.m1 = none → o.m2 = none → o.ema = none → j.tensor? o.state = none →
        j.range? mt (s.writeSlot j mt) o.first o.count = some xm → j.range? wt (s.writeSlot j wt) o.first o.count = some xw →
        j.range? g u.slot o.first o.count = some xg →
        let ms := s.floatBytes j mt o.first o.count new.keep (s.elemCvts j mt u.step o.first (new.out 1))
        let ws := (s.workOut j wt u.step o.first (s.newMasters j o mt new)).1
        (xm + ms.length ≤ xw ∨ xw + ws.length ≤ xm) → (xm + ms.length ≤ xg ∨ xg + zeros.length ≤ xm) →
        (xw + ws.length ≤ xg ∨ xg + zeros.length ≤ xw) →
        ∃ t, exec (.update a o) s = .next t ∧ retired s t a ∧ t.load xm ms.length = ms ∧ t.load xw ws.length = ws
          ∧ t.load xg zeros.length = zeros ∧ t.nv = s.nv ∧ t.job = s.job
          ∧ (getAssoc t.stp.updDone mt.index).getD 0 = (getAssoc s.stp.updDone mt.index).getD 0 + o.count
          ∧ ∀ k, (k < xm ∨ xm + ms.length ≤ k) → (k < xw ∨ xw + ws.length ≤ k) → (k < xg ∨ xg + zeros.length ≤ k) →
              t.byte k = s.byte k))

/-- RETRIEVE and DEPOSIT as plain copies of an unpacked tensor, once their checks pass and no block reads uncorrectable: the
bytes of the elements go from memory to data SRAM, or from data SRAM to memory, and nothing else there changes. A DEPOSIT
that zeroes a reduction buffer writes its zero elements. A tensor the job does not hold is MEM_RANGE. -/
def Obligations.TransfersCopyBytes : Prop :=
  ∀ (a : Attr) (j : Job) (s : State), s.Wf → s.Ready a → s.job = some j →
    (∀ (o : RetArg) (u : Tensor) (x : Nat), j.tensor? o.tensor = some u → isPacked u.format = false →
      retrievePair u.format none = true → u.format ≠ .rbuf → o.conv = none → o.transp = none → o.gather = none →
      o.count ≠ 0 → sramOk [(o.dst, u.bytesOf o.first o.count)] = true →
      s.runsIn j u (s.readSlot j u) [(o.first, o.count)] = true → j.range? u (s.readSlot j u) o.first o.count = some x →
      s.badIn x (u.bytesOf o.first o.count) = none →
      ∃ t, exec (.retrieve a o) s = .next t ∧ sramResult s t a o.dst (s.load x (u.bytesOf o.first o.count)))
    ∧ (∀ o : RetArg, j.tensor? o.tensor = none → o.gather = none → sramOk [(o.dst, 0)] = true →
      exec (.retrieve a o) s = .next (s.checkFail a 0x0402))
    ∧ (∀ (o : DepArg) (u : Tensor) (x : Nat), j.tensor? o.tensor = some u → isPacked u.format = false →
      depositPair o.sfmt u.format true = true → o.conv = none → o.zero = false →
      sramOk [(o.src, u.bytesOf o.first o.count)] = true → s.runsIn j u (s.depositSlot j u) [(o.first, o.count)] = true →
      j.range? u (s.depositSlot j u) o.first o.count = some x → s.badPart x (u.bytesOf o.first o.count) = none →
      ∃ t, exec (.deposit a o) s = .next t ∧ memResult s t a x (s.sramRead a.core o.src (u.bytesOf o.first o.count)))
    ∧ (∀ (o : DepArg) (u : Tensor) (x : Nat), j.tensor? o.tensor = some u → u.format = .rbuf → o.zero = true →
      s.fab.held = [] → s.runsIn j u (s.depositSlot j u) [(o.first, o.count)] = true →
      j.range? u (s.depositSlot j u) o.first o.count = some x → s.badPart x (o.count * (zeroElem u.ns).length) = none →
      ∃ t, exec (.deposit a o) s = .next t ∧ memResult s t a x ((List.range o.count).flatMap (fun _ => zeroElem u.ns)))
    ∧ (∀ o : DepArg, j.tensor? o.tensor = none → (o.zero = true ∨ sramOk [(o.src, 0)] = true) →
      exec (.deposit a o) s = .next (s.checkFail a 0x0402))

/-- SEND, ACCEPT and CONTRIBUTE. A SEND by the stream's owner at a slot of its table, with room in the NI send buffer, puts the
224 bytes of data SRAM into the send buffer under its stream, SEQ and slot, or on a stream without a fabric link holds them for
their endpoint; without room it waits. An ACCEPT of a delivered flit whose delivery slot has ended writes its payload into data
SRAM and frees the delivery; before that it waits; an absent flit is CMD_BAD_OPERAND. A CONTRIBUTE before the last send slot
adds its value to its collective, here where no contribution to a gradient and no uncorrectable block stands in the way of a norm
instance's read of them; after it, it only retires. A stream the command may not name is CMD_BAD_OPERAND. -/
def Obligations.StreamCommands : Prop :=
  ∀ (a : Attr) (k seq off : Nat) (j : Job) (s : State), s.Wf → s.Ready a → s.job = some j →
    let waits (c : Instr) (st : CmdStatus) (t : State) : Prop :=
      coreOnly s t a.core [rCore a.core oState] ∧ (t.core a.core).window = [⟨c, s.now, 0, st⟩]
    (∀ (c : Stream) (slot : Nat) (pf : Bool), s.stream? k = some c → c.owner = a.core → 1 ≤ c.kind → c.kind ≤ 3 →
      (c.kind = 3 → pf = (bitsOf c.flags 0 1 == 1)) → s.slotHolds c k slot = true → s.destMapped c = true →
      sramOk [(off, 224)] = true →
      (s.sendRoom a.core = true → c.links ≠ 0 →
        ∃ t, exec (.send a k seq off slot pf) s = .next t ∧ retired s t a ∧ t.mem = s.mem ∧ t.cores = s.cores
          ∧ (∀ r, r ∉ retireRegs a.core → t.reg r = s.reg r)
          ∧ t.fab = { s.fab with sendBuf := s.fab.sendBuf ++ [⟨k, seq, slot, s.sramRead a.core off 224⟩] })
      ∧ (s.sendRoom a.core = true → c.links = 0 →
        let h : Held :=
          { due := if c.kind = 1 then slot + edgeBound (coreHalf c.owner) (coreHalf c.dst) else slot + 30
            kind := if c.kind = 1 then .onPkg else .place, stream := k, seq := seq, hop := 0
            last := seq + 1 == s.flitsOf c, payload := s.sramRead a.core off 224 }
        ∃ t, exec (.send a k seq off slot pf) s = .next t ∧ retired s t a ∧ t.mem = s.mem ∧ t.cores = s.cores
          ∧ (∀ r, r ∉ retireRegs a.core → t.reg r = s.reg r)
          ∧ (c.kind ≠ 3 → t.fab = { s.fab with held := s.fab.held ++ [h] })
          ∧ (c.kind = 3 → t = { s.holdReduce h c with regs := t.regs }))
      ∧ (s.sendRoom a.core = false →
        ∃ t, exec (.send a k seq off slot pf) s = .next t ∧ waits (.send a k seq off slot pf) .held t))
    ∧ (∀ (slot : Nat) (pf : Bool), s.stream? k = none → sramOk [(off, 224)] = true → s.sendRoom a.core = true →
        exec (.send a k seq off slot pf) s = .next (s.checkFail a 0x0102))
    ∧ (∀ d, s.awaited? a.core (k, seq) = some d → sramOk [(off, 224)] = true → d.payload.length = 224 →
      (s.packOf d.slot < s.now →
        ∃ t, exec (.accept a k seq off) s = .next t ∧ retired s t a ∧ t.sramRead a.core off 224 = d.payload
          ∧ (t.core a.core).dlv = (s.core a.core).dlv.erase d ∧ coreOnly s t a.core (retireRegs a.core)
          ∧ ∀ x, x < off ∨ off + 224 ≤ x →
              mapGet memDefault (t.core a.core).sram x = mapGet memDefault (s.core a.core).sram x)
      ∧ (s.now ≤ s.packOf d.slot → ∃ t, exec (.accept a k seq off) s = .next t ∧ waits (.accept a k seq off) .waiting t))
    ∧ (s.awaited? a.core (k, seq) = none → s.acceptReady a.core k seq = true → sramOk [(off, 224)] = true →
        exec (.accept a k seq off) s = .next (s.checkFail a 0x0102))
    ∧ (∀ (c : Stream) (i : CollInst) (count unit slot : Nat), s.stream? k = some c → s.inst? c.dst = some i →
      sramOk [(off, contribBytes i.kind count)] = true → c.owner = a.core → c.kind = 4 → s.slotHolds c k slot = true →
      (s.lastSendPast i = false → s.collUse i ≠ .norm ∨ (s.fab.held = [] ∧ s.bad = []) →
        ∃ t, exec (.contribute a k off count unit slot) s = .next t ∧ retired s t a ∧ t.mem = s.mem ∧ t.cores = s.cores
          ∧ t = { s.contributeVals i.id (some k) (s.contribVals j i a.core off count unit) with regs := t.regs }
          ∧ (∀ r, r ∉ retireRegs a.core → t.reg r = s.reg r))
      ∧ (s.lastSendPast i = true → exec (.contribute a k off count unit slot) s = .next (s.retire a)))

/-! ### Ports, pack time and the fabric -/

/-- A write of PORT_MODE. Writing 1 to MODE_REJ clears it. An unlocked port takes a legal MODE that leaves one or two HOSTLINK ports,
and MODE locks, a port that is not DOWN going DOWN first; MODE 3, or one that leaves no HOSTLINK port or more than two, is refused:
the whole write is ignored, MODE stays and stays unlocked, and MODE_REJ is set. A locked port keeps its MODE. TRAIN starts
training at DETECT, except on a port that is OFF, or FABRIC in WHELP, where it has no effect. -/
def Obligations.PortModeAndTrain : Prop :=
  ∀ (p : Nat) (v : W64) (s : State), s.Wf → s.dark = false → p < 18 →
    let m := bitsOf v.toNat 0 2
    let legal := m ≤ 2 ∧ (s.hlAfter p m = 1 ∨ s.hlAfter p m = 2)
    let rej := if bitsOf v.toNat 3 1 = 1 then 0 else s.fld (rPortMode p) 3 1
    (s.modeLocked p = false →
      (m = 3 ∨ s.hlAfter p m = 0 ∨ 2 < s.hlAfter p m →
        ∃ t, exec (.portModeWrite p v) s = .next t ∧ regsOnly s t [rPortMode p] ∧ t.mode p = s.mode p
          ∧ t.modeLocked p = false ∧ t.fld (rPortMode p) 3 1 = 1)
      ∧ (legal → s.portState p = 0 → bitsOf v.toNat 2 1 = 0 ∨ m = 0 ∨ (m = 1 ∧ s.bu = 1) →
        ∃ t, exec (.portModeWrite p v) s = .next t ∧ t.mode p = m ∧ t.modeLocked p = true ∧ t.fld (rPortMode p) 3 1 = rej
          ∧ t = { s with regs := t.regs, flocks := t.flocks } ∧ ∀ r, r ≠ rPortMode p → t.reg r = s.reg r)
      ∧ (legal → s.portState p = 0 → bitsOf v.toNat 2 1 = 1 → m = 2 ∨ (m = 1 ∧ s.bu ≠ 1) →
        ∃ t, exec (.portModeWrite p v) s = .next t ∧ t.mode p = m ∧ t.modeLocked p = true ∧ t.portState p = 1
          ∧ t = { s with regs := t.regs, flocks := t.flocks, ports := t.ports }
          ∧ ∀ r, r ∉ [rPortMode p, rPortStat p] → t.reg r = s.reg r)
      ∧ (legal → s.portState p ≠ 0 → bitsOf v.toNat 2 1 = 0 →
        ∃ t, exec (.portModeWrite p v) s = .next t ∧ t.mode p = m ∧ t.modeLocked p = true ∧ t.portState p = 0
          ∧ t.mem = s.mem ∧ t.nv = s.nv))
    ∧ (s.modeLocked p = true →
      (bitsOf v.toNat 2 1 = 0 → ∃ t, exec (.portModeWrite p v) s = .next t ∧ regsOnly s t [rPortMode p]
          ∧ t.mode p = s.mode p ∧ t.fld (rPortMode p) 3 1 = rej)
      ∧ (bitsOf v.toNat 2 1 = 1 → bitsOf v.toNat 3 1 = 0 → exec (.portModeWrite p v) s = exec (.train p) s))
    ∧ (s.mode p ≠ 0 → (s.mode p ≠ 1 ∨ s.bu ≠ 1) →
      (s.portState p = 0 → ∃ t, exec (.train p) s = .next t ∧ t.portState p = 1
          ∧ t = { s with regs := t.regs, ports := t.ports } ∧ (∀ r, r ≠ rPortStat p → t.reg r = s.reg r)
          ∧ (∀ q, q ≠ p → t.port q = s.port q)
          ∧ t.port p = { s.port p with trained := true, full := s.bu != 1 })
      ∧ (s.portState p ≠ 0 → ∃ t, exec (.train p) s = .next t ∧ t.portState p = 1 ∧ (t.port p).trained = true
          ∧ t.mem = s.mem ∧ t.nv = s.nv))
    ∧ (s.mode p = 0 ∨ (s.mode p = 1 ∧ s.bu = 1) → exec (.train p) s = .next s)

/-- Training of a port. A FABRIC port passes DETECT, EQUALIZE, FEC_LOCK, RTT and PEER in turn and is then UP, with the peer's
identity; FEC_LOCK needs all four lanes; in RTT it sends 64 markers, and the state gives the mean round trip and λ = ⌈RTT/128⌉ + 1;
in PEER it sends its own PF_HERD. A HOSTLINK port goes from FEC_LOCK to PEER on lanes 0–3, 0–1 or 0, skipping EQUALIZE where it
trains on lane 0 alone, sends version 1 with its own credits there, and is UP with the host's of each channel, with nothing accepted,
nothing owed and no NAK seen. A state that times out, or finds too
few lanes, leaves the port DOWN with that state in FAIL. -/
def Obligations.TrainingOfAPort : Prop :=
  ∀ (p : Nat) (i : TrainInfo) (s : State), s.Wf → s.dark = false → p < 18 →
    let sends (o : Out) : State := { s with outbox := s.outbox ++ [o] }
    (∀ st, s.portState p = st → 1 ≤ st → st ≤ 5 →
      ∃ t, exec (.trainingTimeout p) s = .next t ∧ regsOnly s t [rPortStat p] ∧ t.portState p = 0
        ∧ t.fld (rPortStat p) 3 3 = st)
    ∧ (s.portState p = 1 → s.mode p = 1 ∨ (s.mode p = 2 ∧ (s.port p).full = true) →
      ∃ t, exec (.trainingStateComplete p i) s = .next t ∧ regsOnly s t [rPortStat p] ∧ t.portState p = 2)
    ∧ (s.mode p ≠ 0 → s.portState p = 2 ∨ (s.portState p = 1 ∧ s.mode p = 2 ∧ (s.port p).full = false) →
      ∃ t, exec (.trainingStateComplete p i) s = .next t ∧ regsOnly s t [rPortStat p] ∧ t.portState p = 3)
    ∧ (s.mode p = 1 → s.portState p = 3 →
      (i.lanes % 16 = 15 → ∃ t, exec (.trainingStateComplete p i) s = .next t
        ∧ regsOnly (sends (.markers p 64)) t [rPortStat p] ∧ t.portState p = 4 ∧ t.fld (rPortStat p) 6 4 = 15)
      ∧ (i.lanes % 16 ≠ 15 → ∃ t, exec (.trainingStateComplete p i) s = .next t ∧ regsOnly s t [rPortStat p]
        ∧ t.portState p = 0 ∧ t.fld (rPortStat p) 3 3 = 3))
    ∧ (s.mode p = 1 → s.portState p = 4 → i.rtt < 2 ^ 16 →
      ∃ t, exec (.trainingStateComplete p i) s = .next t
        ∧ regsOnly (sends (.identify p (BitVec.ofNat 64 (s.reg rPfHerd)))) t [rPortStat p, rPortLink p] ∧ t.portState p = 5
        ∧ t.fld (rPortLink p) 0 16 = i.rtt ∧ t.fld (rPortLink p) 16 16 = (i.rtt + 127) / 128 + 1)
    ∧ (s.mode p = 1 → s.portState p = 5 → s.pkg.whelp = true →
      ∃ t, exec (.trainingStateComplete p i) s = .next t ∧ t.portState p = 6 ∧ t.fld (rPortPeer p) 48 1 = 1
        ∧ t.fld (rPortPeer p) 0 11 = bitsOf i.peerHerd 0 11 ∧ t.fld (rPortPeer p) 11 5 = i.peerPort % 32
        ∧ (t.port p).silence = 0 ∧ t.mem = s.mem ∧ t.cores = s.cores)
    ∧ (s.mode p = 2 → s.portState p = 3 →
      (hlLanes i.lanes (s.port p).full ≠ 0 → ∃ t, exec (.trainingStateComplete p i) s = .next t
        ∧ regsOnly (sends (.hello p 1 ownCredits)) t [rPortStat p] ∧ t.portState p = 5
        ∧ t.fld (rPortStat p) 6 4 = hlLanes i.lanes (s.port p).full)
      ∧ (hlLanes i.lanes (s.port p).full = 0 → ∃ t, exec (.trainingStateComplete p i) s = .next t
        ∧ regsOnly s t [rPortStat p] ∧ t.portState p = 0 ∧ t.fld (rPortStat p) 3 3 = 3))
    ∧ (s.mode p = 2 → s.portState p = 5 → s.pkg.whelp = true → (s.port p).txq = [] →
      ∃ t, exec (.trainingStateComplete p i) s = .next t ∧ regsOnly { s with ports := t.ports } t [rPortStat p]
        ∧ t.portState p = 6 ∧ (t.port p).credits = [32, 0, i.reqCredit, i.rspCredit] ∧ (t.port p).txNext = 0
        ∧ (t.port p).rxNext = 0 ∧ (t.port p).rxAny = false ∧ (t.port p).nakSeen = false ∧ (t.port p).owed = [0, 0, 0, 0]
        ∧ (t.port p).unacked = [] ∧ ∀ q, q ≠ p → t.port q = s.port q)

/-- The ways a port goes DOWN: a lane in use loses FEC lock, 256 slots pass with no good CRC and no peer in idle-hold, or the
half's port die loses its reference clock. The port is DOWN with no lanes; in a running package that is the fault
LINK_DOWN, where no core's halt of before is still to be reported, and the package is HALTED. -/
def Obligations.LinkLossTakesThePortDown : Prop :=
  ∀ (p lane half : Nat) (s : State), s.Wf → s.dark = false → p < 18 → s.portUp p = true → s.fld rPfFault 16 1 = 0 →
    let lost (t : State) : Prop := t.portState p = 0 ∧ t.fld (rPortStat p) 6 4 = 0 ∧ t.mem = s.mem ∧ t.nv = s.nv
      ∧ (s.running = true → t.bu = 7
          ∧ (s.ownHalts = [] → t.fld rPfFault 0 16 = 0x0602 ∧ t.fld rPfFault 17 3 = 1 ∧ t.fld rPfFault 20 11 = p))
    (bitsOf (s.fld (rPortStat p) 6 4) lane 1 = 1 → ∃ t, exec (.fecLockLoss p lane) s = .next t ∧ lost t)
    ∧ (bitsOf (s.fld (rPortStat p) 6 4) lane 1 = 0 → exec (.fecLockLoss p lane) s = .next s)
    ∧ (s.fld (rPortStat p) 10 1 = 0 → 256 ≤ (s.port p).silence → ∃ t, exec (.linkSilence p) s = .next t ∧ lost t)
    ∧ ((s.port p).silence < 256 → exec (.linkSilence p) s = .next s)
    ∧ (half = portHalf p → ∃ t, exec (.refclkFabStop half) s = .next t ∧ t.portState p = 0 ∧ t.mem = s.mem ∧ t.nv = s.nv
        ∧ (∀ q < 18, portHalf q = half → t.portState q = 0) ∧ (s.running = true → t.bu = 7 ∧ (s.ownHalts = [] → t.fld rPfFault 0 16 = 0x0602)))

/-- A scheduled send slot of a FABRIC port that is UP and sends no STOP. Data in the send buffer, or a value of the stream's
collective engine, goes out in that slot as a DATA flit with the stream's next SEQ, the slot's pack time as stamp, the NAK that is due
in it and its CRC, and is kept for a re-send; absent data is SLOT_MISSED in a run that is not armed. A held flit that this package
forwards goes out, with the hop count one higher, in the slot twelve after its delivery slot that a forward run from its in-port names;
where none does it goes out in no slot. A norm instance's engine reads the gradients first: here where no contribution to them and no
uncorrectable block is in its way. On a port that is DOWN a scheduled send is
LINK_DOWN. -/
def Obligations.ScheduledSends : Prop :=
  ∀ (p q : Nat) (s : State), s.Wf → s.dark = false → s.issuing = true → s.anyWaits = false →
    let sent (q : Nat) (f : Flit) : Out := .flit p q (Flit.sealed { f with
      nakValid := ((s.port p).nakAt (s.packOf q)).isSome, nakStamp := ((s.port p).nakAt (s.packOf q)).getD 0 })
    let kept (q : Nat) (t : State) : Prop := s.outbox <+: t.outbox ∧ (t.port p).lastSend = q + 1
      ∧ ((t.port p).sent.getLast?).map (fun x => (x.slot, x.time)) = some (q, s.packOf q)
      ∧ t = { s with regs := t.regs, ports := t.ports, fab := t.fab, outbox := t.outbox }
      ∧ (∀ r, r ≠ rPfPackTime → t.reg r = s.reg r)
    (∀ r seq, s.nextSend p (max (s.port p).lastSend s.stp.origin) = some q → s.tableAt p false q = some (r, seq) →
      (∀ c d, s.portUp p = true → (s.port p).stops = [] → r.ctx < 0x8000 → s.stream? r.ctx = some c → c.kind ≠ 4 →
        s.fab.sendBuf.find? (fun x => x.stream == r.ctx && x.seq == seq) = some d →
        ∃ t, exec (.scheduledSendSlot p) s = .next t ∧ kept q t
          ∧ t.outbox.getLast? = some (sent q
              { type := 1, resend := false, last := seq + 1 == s.flitsOf c, stream := r.ctx, hop := 0
                sendStamp := s.packOf q % 2 ^ 24, nakValid := false, nakStamp := 0, seq, payload := pad224 d.payload })
          ∧ t.fab = { s.fab with sendBuf := s.fab.sendBuf.erase d })
      ∧ (∀ c b, s.portUp p = true → (s.port p).stops = [] → r.ctx < 0x8000 → s.stream? r.ctx = some c → c.kind = 4 →
        (∀ i, s.inst? c.dst = some i → s.collUse i ≠ .norm ∨ (s.fab.held = [] ∧ s.bad = [])) →
        (s.advanceTo (s.packOf q)).collPayload c seq = some b →
        ∃ t, exec (.scheduledSendSlot p) s = .next t ∧ kept q t ∧ t.fab = s.fab
          ∧ t.outbox.getLast? = some (sent q
              { type := 1, resend := false, last := seq + 1 == s.flitsOf c, stream := r.ctx, hop := 0
                sendStamp := s.packOf q % 2 ^ 24, nakValid := false, nakStamp := 0, seq, payload := pad224 b }))
      ∧ (∀ h, s.portUp p = true → (s.port p).stops = [] → 0x8000 ≤ r.ctx → s.forwardHeld (r.ctx - 0x8000) p q = some h →
        ∃ t, exec (.scheduledSendSlot p) s = .next t ∧ kept q t ∧ t.fab = { s.fab with held := s.fab.held.erase h }
          ∧ t.outbox.getLast? = some (sent q
              { type := 1, resend := false, last := h.last, stream := h.stream, hop := h.hop + 1
                sendStamp := s.packOf q % 2 ^ 24, nakValid := false, nakStamp := 0, seq := h.seq
                payload := pad224 h.payload }))
      ∧ (∀ c, s.portUp p = true → (s.port p).stops = [] → r.ctx < 0x8000 → s.stream? r.ctx = some c → c.kind ≠ 4 →
        s.fab.sendBuf.find? (fun x => x.stream == r.ctx && x.seq == seq) = none → s.armed = false → s.fld rPfFault 16 1 = 0 →
        ∃ t, exec (.scheduledSendSlot p) s = .next t ∧ t.bu = 7 ∧ t.fld rPfFault 0 16 = 0x0501 ∧ t.fld rPfFault 20 11 = p % 2 ^ 11)
      ∧ (s.portUp p = false → (s.port p).downRaised = false → s.fld rPfFault 16 1 = 0 →
        ∃ t, exec (.scheduledSendSlot p) s = .next t ∧ t.bu = 7 ∧ t.fld rPfFault 0 16 = 0x0602 ∧ t.fld rPfFault 20 11 = p % 2 ^ 11))
    ∧ (∀ h : Held, s.fab.held.filter (Held.forwardOn p) = [h] → s.forwardNamed p (h.due + 12) h = false →
      ∃ t, exec (.forwardSend p) s = .next t ∧ t = { s with regs := t.regs, ports := t.ports, fab := t.fab, outbox := t.outbox }
        ∧ t.fab = { s.fab with held := s.fab.held.erase h } ∧ s.outbox <+: t.outbox ∧ (t.port p).lastSend = h.due + 13
        ∧ ∀ o k f, .flit o k f ∈ t.outbox → .flit o k f ∈ s.outbox)
    ∧ (∀ h : Held, s.portUp p = true → (s.port p).stops = [] → s.fab.held.filter (Held.forwardOn p) = [h] →
      s.forwardNamed p (h.due + 12) h = true →
      ∃ t, exec (.forwardSend p) s = .next t ∧ kept (h.due + 12) t ∧ t.fab = { s.fab with held := s.fab.held.erase h }
        ∧ t.outbox.getLast? = some (sent (h.due + 12)
            { type := 1, resend := false, last := h.last, stream := h.stream, hop := h.hop + 1
              sendStamp := s.packOf (h.due + 12) % 2 ^ 24, nakValid := false, nakStamp := 0, seq := h.seq
              payload := pad224 h.payload }))

/-- What arrives at an UP FABRIC port. The FEC of a line block corrects four byte errors in each of its two codewords and counts the
block; more errors, a bad CRC or a reserved TYPE make a failed flit. A good DATA flit in a slot its receive table covers is held until
its delivery slot if its stamp is the slot's pack time and a COLLECTIVE payload names its instance; a wrong stamp is
PACKTIME_SKEW; in the spare of an awaited re-send it stands for the failed flit. A failed flit is counted and NAKed in the
two flits after the slot in which it was checked, with its slot's pack time, and whatever it was its re-send is awaited in the spare of
R258. A good IDLE or
IDLE_HOLD flit where no data is due only restarts the silence count; where data is due it is SLOT_MISSED, unless the run is armed.
IDLE_HOLD shows in PEER_HOLD. -/
def Obligations.ReceivedFlits : Prop :=
  ∀ (p q : Nat) (f : Flit) (x : Arrival) (s : State), s.Wf → s.dark = false → p < 18 → s.portUp p = true → s.mode p = 1 →
    let good := f.good = true ∧ fecOk x.errs = true ∧ f.nakValid = false ∧ s.keepsLock p f x
    let arrived (hold : Nat) (t : State) : Prop := t = { s with regs := t.regs, ports := t.ports, fab := t.fab }
      ∧ (∀ r, r ∉ [rPortStat p, rPortErr p, rPfSyncStat] → t.reg r = s.reg r) ∧ t.fld (rPortStat p) 10 1 = hold
      ∧ t.fld (rPortErr p) 0 16 = min 65535 (s.fld (rPortErr p) 0 16 + b2n (fecCorrects x.errs))
      ∧ (∀ o, o ≠ p → t.port o = s.port o)
    (good → f.type = 1 → s.issuing = true → ∀ r seq c, s.stream? (r.ctx % 0x8000) = some c → s.collectiveOk c f.payload = true →
      ((s.expects p).find? (fun e => e.1 == q) = none → s.tableAt p true q = some (r, seq) →
        (f.sendStamp % 2 ^ 24 = s.packOf q % 2 ^ 24 → ∃ t, exec (.dataFlitReceive p q ⟨f, x⟩) s = .next t ∧ arrived 0 t
          ∧ measured t { s.fab with held := s.fab.held ++ [s.heldFor c (r.ctx % 0x8000) p q f seq] }
          ∧ t.port p = { s.port p with silence := 0 })
        ∧ (f.sendStamp % 2 ^ 24 ≠ s.packOf q % 2 ^ 24 → s.fld rPfFault 16 1 = 0 → s.ownHalts = [] →
          ∃ t, exec (.dataFlitReceive p q ⟨f, x⟩) s = .next t ∧ t.bu = 7 ∧ t.fld rPfFault 0 16 = 0x0505 ∧ t.mem = s.mem))
      ∧ (∀ q₀, (s.expects p).find? (fun e => e.1 == q) = some (q, q₀) → s.tableAt p true q₀ = some (r, seq) →
        f.resend = true → f.sendStamp % 2 ^ 24 = s.packOf q₀ % 2 ^ 24 →
        ∃ t, exec (.dataFlitReceive p q ⟨f, x⟩) s = .next t ∧ arrived 0 t
          ∧ measured t { s.fab with held := s.fab.held ++ [s.heldFor c (r.ctx % 0x8000) p q₀ f seq] }
          ∧ (t.port p).failedRx = (s.port p).failedRx.map (fun e => if e.1 = q₀ then (q₀, true) else e)))
    ∧ (fecOk x.errs = false ∨ (x.errs = [] ∧ f.good = false) →
      exec (.dataFlitReceive p q ⟨f, x⟩) s = exec (.failedFlitReceive p q) s
        ∧ exec (.idleFlitReceive p q ⟨f, x⟩) s = exec (.failedFlitReceive p q) s
        ∧ exec (.idleHoldReceive p ⟨q, f, x⟩) s = exec (.failedFlitReceive p q) s)
    ∧ (s.issuing = true → (s.port p).failedRx = [] →
      ∃ t, exec (.failedFlitReceive p q) s = .next t ∧ regsOnly { s with ports := t.ports } t [rPortErr p]
        ∧ t.fld (rPortErr p) 32 16 = min (2 ^ 16 - 1) (s.fld (rPortErr p) 32 16 + 1)
        ∧ (t.port p).naks = (s.port p).naks ++ [(s.packOf q + s.lambda p + 1, s.packOf q % 2 ^ 12),
            (s.packOf q + s.lambda p + 2, s.packOf q % 2 ^ 12)]
        ∧ t.expects p = [(spareFrom (q + 2 * s.lambda p + 3), q)])
    ∧ (good → (s.port p).failedRx = [] →
      (s.tableAt p true q = none →
        (∃ t, exec (.idleFlitReceive p q ⟨f, x⟩) s = .next t ∧ arrived 0 t ∧ measured t s.fab
          ∧ t.port p = { s.port p with silence := 0 })
        ∧ (∃ t, exec (.idleHoldReceive p ⟨q, f, x⟩) s = .next t ∧ arrived 1 t ∧ measured t s.fab
          ∧ t.port p = { s.port p with silence := 0 }))
      ∧ ((s.tableAt p true q).isSome = true → s.issuing = true → s.armed = false → s.fld rPfFault 16 1 = 0 → s.ownHalts = [] →
        (∃ t, exec (.idleFlitReceive p q ⟨f, x⟩) s = .next t ∧ t.bu = 7 ∧ t.fld rPfFault 0 16 = 0x0501 ∧ t.mem = s.mem)
        ∧ (∃ t, exec (.idleHoldReceive p ⟨q, f, x⟩) s = .next t ∧ t.bu = 7 ∧ t.fld rPfFault 0 16 = 0x0501 ∧ t.mem = s.mem)))

/-- Retry. A NAK names the flit sent lately with its stamp, DATA, ANNOUNCE or the IDLE of a slot with nothing else in it, unless its
eligible point has passed or it has failed before; that flit
takes the earliest spare at or after q + 2λ + 3 that no flit sent earlier takes, or the one 16 slots later; with neither it is left to
RETRY_OVERRUN, a package fault. In its spare the flit goes out again with RESEND and its own stamp. A receiver that does not find its
re-send in the spare reports RETRY_EXHAUSTED; one that does goes on. -/
def Obligations.RetryAssignsSpares : Prop :=
  ∀ (p : Nat) (s : State), s.Wf → s.dark = false → s.issuing = true → s.portUp p = true →
    (∀ x stamp, (s.port p).sent = [x] → x.time % 2 ^ 12 = stamp % 2 ^ 12 →
      (s.nakable p x = true → (s.port p).failedTx = [] →
        ∃ t sp, exec (.nakReceive p stamp) s = .next t ∧ t.port p = { s.port p with failedTx := [(x.slot, x, false)] }
          ∧ t.resends p = [(sp, x)] ∧ x.slot + 2 * s.lambda p + 3 ≤ sp ∧ sp < x.slot + 2 * s.lambda p + 3 + 16
          ∧ isSpare sp = true ∧ t = { s with ports := t.ports })
      ∧ (s.nakable p x = true → (s.port p).failedTx.any (fun e => e.1 == x.slot) = true →
        exec (.nakReceive p stamp) s = .next s)
      ∧ (s.nakable p x = false → s.stampTime stamp = x.time → s.slotOf x.time = some x.slot →
        exec (.nakReceive p stamp) s = .next s))
    ∧ (∀ q stamp, (s.port p).sent = [] → (s.port p).failedTx = [] → (s.port p).stops = [] → s.stampTime stamp < (s.port p).carried →
      s.slotOf (s.stampTime stamp) = some q → s.now < s.packOf (q + 2 * s.lambda p + 3) →
      ∃ t x, exec (.nakReceive p stamp) s = .next t ∧ t = { s with ports := t.ports }
        ∧ t.port p = { s.port p with failedTx := [(q, x, false)] } ∧ x.slot = q ∧ x.time = s.stampTime stamp
        ∧ x.ann = ((s.port p).annSent.find? (fun e => e.1 == s.stampTime stamp)).map (·.2)
        ∧ x.flit.type = (if x.ann.isSome = true then 4 else if s.fab.idleHold = true then 3 else 0))
    ∧ (∀ sp x rest, s.resends p = (sp, x) :: rest → (s.port p).stops = [] → s.anyWaits = false →
      ∃ t, exec (.resendSpare p) s = .next t ∧ s.outbox <+: t.outbox
        ∧ (x.ann = none → t.outbox.getLast? = some (.flit p sp (Flit.sealed { x.flit with
            resend := true, nakValid := ((s.port p).nakAt (s.packOf sp)).isSome
            nakStamp := ((s.port p).nakAt (s.packOf sp)).getD 0 })))
        ∧ (∀ a, x.ann = some a → t.outbox.getLast?
            = some (.annAgain p (s.packOf sp) (x.time % 2 ^ 24) ((s.port p).nakAt (s.packOf sp)) a))
        ∧ (t.port p).failedTx = (s.port p).failedTx.map (fun e => if e.1 = x.slot then (e.1, e.2.1, true) else e)
        ∧ t.fld (rPortErr p) 16 16 = min (2 ^ 16 - 1) (s.fld (rPortErr p) 16 16 + 1)
        ∧ t.mem = s.mem ∧ t.cores = s.cores)
    ∧ (∀ sp q rest, s.overruns p = (sp, q) :: rest → s.fld rPfFault 16 1 = 0 → s.ownHalts = [] →
      ∃ t, exec (.retryOverrun p) s = .next t ∧ t.bu = 7 ∧ t.fld rPfFault 0 16 = 0x0504 ∧ t.mem = s.mem)
    ∧ (∀ sp q rest, s.expects p = (sp, q) :: rest →
      (s.fld rPfFault 16 1 = 0 → s.ownHalts = [] →
        ∃ t, exec (.retryExhausted p none) s = .next t ∧ t.bu = 7 ∧ t.fld rPfFault 0 16 = 0x0502 ∧ t.mem = s.mem)
      ∧ (∀ f : Flit, f.good = true → f.type = 1 → f.resend = true → f.sendStamp % 2 ^ 24 = s.packOf q % 2 ^ 24 →
        s.anyWaits = false →
        ∃ t, exec (.retryExhausted p (some f)) s = .next t ∧ t = { s with regs := t.regs, ports := t.ports, outbox := t.outbox }
          ∧ s.outbox <+: t.outbox ∧ ∀ r, r ≠ rPfPackTime → t.reg r = s.reg r))

/-- Delivery. A held TRANSFER flit reaches its core's delivery buffer, bound to the slot of Table 1.5, if the buffer has room (log entry
123, the model's choice, where it has none); PLACE data waits 30 slots more, and REDUCE data does in the unit of each stack that its
elements lie in; a COLLECTIVE flit's values, single ones or vectors as its instance's units have them, join their instance. A PLACE
flit's 224 bytes are written at the stream's address plus 224 times its SEQ, with no other byte of memory changed; and one flit of contributions is applied to a reduction unit: every element of the range it
reaches there becomes pairadd of what it held and the contribution, with no other byte changed. -/
def Obligations.DeliveryToEndpoints : Prop :=
  ∀ (k seq : Nat) (h : Held) (c : Stream) (s : State), s.Wf → s.dark = false → s.anyWaits = false → s.stream? k = some c →
    h.stream = k → h.seq = seq →
    let moved (t : State) : Prop := t = { s with regs := t.regs, ports := t.ports, fab := t.fab, outbox := t.outbox, cores := t.cores }
      ∧ s.outbox <+: t.outbox ∧ ∀ r, r ≠ rPfPackTime → r ≠ rPfRedStat → t.reg r = s.reg r
    (s.issuing = true → s.fab.held.find? (fun h => h.stream == k && h.seq == seq && h.atEndpoint) = some h →
      (∀ slot, c.kind = 1 → (h.kind = .onPkg ∧ slot = h.due)
          ∨ (∃ port linkNo, h.kind = .link port linkNo ∧ slot = h.due + edgeBound (portHalf port) (coreHalf c.dst)) →
        ∃ t, exec (.flitDelivery k seq) s = .next t ∧ moved t ∧ t.fab = { s.fab with held := s.fab.held.erase h }
          ∧ (∀ n, n ≠ c.dst → t.core n = s.core n)
          ∧ t.core c.dst = (if (s.core c.dst).dlvFull then s.core c.dst
              else { s.core c.dst with dlv := (s.core c.dst).dlv ++ [⟨k, seq, slot, h.payload⟩] }))
      ∧ (c.kind = 2 → ∃ t, exec (.flitDelivery k seq) s = .next t ∧ moved t ∧ t.cores = s.cores
          ∧ t.fab = { s.fab with held := s.fab.held.erase h ++ [{ h with due := h.due + 30, kind := .place }] })
      ∧ (c.kind = 3 → ∃ t, exec (.flitDelivery k seq) s = .next t ∧ moved t ∧ t.cores = s.cores
          ∧ ∀ u, { h with due := h.due + 30, kind := .reduce u } ∈ t.fab.held ↔
              (0 < s.redCount c seq u ∨ { h with due := h.due + 30, kind := .reduce u } ∈ s.fab.held))
      ∧ (∀ width, 4 ≤ c.kind → (∀ i j, s.inst? c.dst = some i → s.job = some j → width = j.collWidth i) →
          (s.inst? c.dst = none → width = 1) →
          ∃ t, exec (.flitDelivery k seq) s = .next t ∧ moved t ∧ t.cores = s.cores
          ∧ (t.coll c.dst).vals = (collParse width k seq h.payload).foldl mergeVal (s.coll c.dst).vals))
    ∧ (h.kind = .place → s.fab.held.find? (fun h => h.kind == .place && h.stream == k && h.seq == seq) = some h →
      let a := c.dstAddr + 224 * seq
      s.badPart a 224 = none →
      ∃ t, exec (.placeDelivery k ⟨seq, { }⟩) s = .next t ∧ t.fab.held = s.fab.held.erase h ∧ t.cores = s.cores
        ∧ t.load a 224 = pad224 h.payload
        ∧ ∀ y, y < a ∨ a + 224 ≤ y → t.byte y = s.byte y)
    ∧ (∀ stack j r u, s.nextReduce stack = some h → s.redTarget c = some (j, r, u) → u.ns = 0 → s.bad = [] → s.failing = [] →
      let es := (s.redElems c seq).filter (fun e => e.2 / stackBytes == stack)
      es.Pairwise (fun d e => d.2 + 8 ≤ e.2 ∨ e.2 + 8 ≤ d.2) →
      ∃ t, exec (.reduceApply ⟨stack, { }⟩) s = .next t ∧ t.fab.held = s.fab.held.erase h ∧ t.cores = s.cores
        ∧ (∀ e ∈ es, t.load e.2 8
            = pairBytes (pairadd (pairOf (s.load e.2 8)) (contribAt (bitsOf c.flags 0 1 == 1) h.payload e.1)))
        ∧ ∀ y, (∀ e ∈ es, y < e.2 ∨ e.2 + 8 ≤ y) → t.byte y = s.byte y)

/-- A STOP received on an UP FABRIC port, in a slot where the port's table names no DATA. A package that runs a job takes one from an
origin not seen before: it is sent on to every other UP FABRIC port, it is the recorded cause where none was, every used core that ran
or waited is halted with STOP_RECEIVED, and the package is HALTED; a core whose own halt still waits for older commands keeps its own
code (log entry 133). Once HALTED, a new origin's is sent on and counted in LATER; in the
slot of the halt itself one with an earlier detection time takes the cause's place. In a state without a job only
the port records it. -/
def Obligations.StopReceived : Prop :=
  ∀ (p q : Nat) (f : Flit) (x : Arrival) (origin reason time : Nat) (s : State), s.Wf → s.dark = false → p < 18 →
    s.portUp p = true → s.mode p = 1 → origin < 2 ^ 11 → reason < 2 ^ 16 → time < 2 ^ 64 →
    f.good = true → fecOk x.errs = true → f.nakValid = false → s.keepsLock p f x →
    (s.issuing = true → (s.port p).failedRx = [] ∧ s.tableAt p true q = none) →
    (s.running = true → s.fab.originsFwd = [] → s.fab.stopOut = false → s.fld rPfStopCause 32 1 = 0 →
      (∀ n ∈ s.used, (s.core n).ending = none) →
      ∃ t, exec (.stopFlitReceive p q ⟨f, x⟩ ⟨origin, reason, time⟩) s = .next t ∧ t.bu = 7
        ∧ t.fld rPfStopCause 0 11 = origin ∧ t.fld rPfStopCause 16 16 = reason ∧ t.reg rPfStopTime = time
        ∧ (∀ o ∈ s.fabricUp, o ≠ p → .stop o origin reason time ∈ t.outbox)
        ∧ (∀ n ∈ s.used, s.coreLive n = true → t.cstate n = 5
            ∧ (s.cfld n oHaltInfo 16 1 = 0 → t.cfld n oHaltInfo 0 16 = 0x0601 ∧ t.cfld n oHaltInfo 17 1 = 0))
        ∧ t.fld (rPortStat p) 11 1 = 1 ∧ t.mem = s.mem ∧ t.nv = s.nv ∧ t.job = s.job)
    ∧ (∀ n a code noEff tm, s.running = true → s.fab.originsFwd = [] → s.fab.stopOut = false → n ∈ s.used → s.coreLive n = true →
      (s.core n).ending = some (.halt a code noEff tm) → code < 2 ^ 16 → s.cfld n oHaltInfo 16 1 = 0 →
      ∃ t, exec (.stopFlitReceive p q ⟨f, x⟩ ⟨origin, reason, time⟩) s = .next t ∧ t.bu = 7 ∧ t.cstate n = 5
        ∧ t.cfld n oHaltInfo 0 16 = code ∧ t.cfld n oHaltInfo 17 1 = 1 ∧ t.mem = s.mem ∧ t.nv = s.nv)
    ∧ (s.bu = 7 → s.fab.originsFwd.contains origin = false → (s.fab.stopOut = true → origin ≠ s.herdIndex) →
      ∃ t, exec (.stopFlitReceive p q ⟨f, x⟩ ⟨origin, reason, time⟩) s = .next t ∧ t.bu = 7
        ∧ (∀ o ∈ s.fabricUp, o ≠ p → .stop o origin reason time ∈ t.outbox) ∧ t.mem = s.mem ∧ t.nv = s.nv
        ∧ t.fab.originsFwd = s.fab.originsFwd ++ [origin]
        ∧ (s.fab.haltedAt ≠ some s.now → t.reg rPfStopTime = s.reg rPfStopTime
            ∧ t.fld rPfStopCause 48 16 = min 65535 (s.fld rPfStopCause 48 16 + 1)
            ∧ t.fld rPfStopCause 0 32 = s.fld rPfStopCause 0 32)
        ∧ (s.fab.haltedAt = some s.now → time < s.reg rPfStopTime → t.reg rPfStopTime = time
            ∧ t.fld rPfStopCause 0 11 = origin ∧ t.fld rPfStopCause 16 16 = reason))
    ∧ (s.running = false → s.bu ≠ 7 →
      ∃ t, exec (.stopFlitReceive p q ⟨f, x⟩ ⟨origin, reason, time⟩) s = .next t
        ∧ regsOnly { s with ports := t.ports, fab := t.fab } t [rPortStat p, rPortErr p, rPfSyncStat] ∧ measured t s.fab
        ∧ t.fld (rPortStat p) 11 1 = 1)

/-- Stretch. A request at least 2,048 beats ahead, S at most 3,840 and room in the table, enters the table and waits to be announced on
every UP FABRIC port; else REJ; one already in the table changes nothing. A new announcement received at least 64 beats ahead with room
enters and is sent on; one that the table holds changes nothing but the port;
a later one, or one without room, is STRETCH_CONFLICT in a package that runs a job, else REJ. The automatic evaluation, on a beat whose B_E is a multiple of 4,096,
requests the advice. -/
def Obligations.StretchAnnouncements : Prop :=
  ∀ (v : W64) (s : State), s.Wf → s.dark = false →
    let be := bitsOf v.toNat 0 48
    let sv := bitsOf v.toNat 48 12
    let entered (t : State) : Prop := measured t { s.fab with table := s.fab.table ++ [(be, sv)] } ∧ t.outbox = s.outbox
      ∧ t.fld rPfStretchStat 0 3 = s.fab.table.length + 1 ∧ t.mem = s.mem ∧ t.cores = s.cores
      ∧ (∀ o ∈ s.fabricUp, (t.port o).annOut = (s.port o).annOut ++ [.stretch be sv])
      ∧ ∀ o, o ∉ s.fabricUp → (t.port o).annOut = (s.port o).annOut
    (s.beat + 2048 ≤ be → s.fab.table.length < 4 → sv ≤ 3840 →
      (s.fab.table.contains (be, sv) = false →
        ∃ t, exec (.pfStretchReq v) s = .next t ∧ entered t ∧ t = { s with regs := t.regs, ports := t.ports, fab := t.fab }
          ∧ ∀ r, r ≠ rPfStretchStat → r ≠ rPfStretchNext → t.reg r = s.reg r)
      ∧ (s.fab.table.contains (be, sv) = true → exec (.pfStretchReq v) s = .next s))
    ∧ (be < s.beat + 2048 ∨ 4 ≤ s.fab.table.length ∨ 3840 < sv →
      ∃ t, exec (.pfStretchReq v) s = .next t ∧ regsOnly s t [rPfStretchStat] ∧ t.fld rPfStretchStat 3 1 = 1)
    ∧ (∀ p q (f : Flit) (x : Arrival), p < 18 → s.portUp p = true → s.mode p = 1 → f.good = true → fecOk x.errs = true →
      f.nakValid = false → s.keepsLock p f x →
      (s.issuing = true → (s.port p).failedRx = [] ∧ s.tableAt p true q = none) →
      (s.fab.table.contains (be, sv) = false →
        (s.beat + 64 ≤ be → s.fab.table.length < 4 →
          ∃ t, exec (.announceFlitReceive p ⟨⟨q, f, x⟩, .stretch be sv⟩) s = .next t ∧ entered t)
        ∧ (be < s.beat + 64 ∨ 4 ≤ s.fab.table.length →
          (s.running = true → s.fld rPfFault 16 1 = 0 → s.ownHalts = [] →
            ∃ t, exec (.announceFlitReceive p ⟨⟨q, f, x⟩, .stretch be sv⟩) s = .next t ∧ t.bu = 7 ∧ t.fld rPfFault 0 16 = 0x0506
              ∧ t.fab.table = s.fab.table)
          ∧ (s.running = false → ∃ t, exec (.announceFlitReceive p ⟨⟨q, f, x⟩, .stretch be sv⟩) s = .next t
              ∧ t.fld rPfStretchStat 3 1 = 1 ∧ measured t s.fab
              ∧ regsOnly { s with ports := t.ports, fab := t.fab } t [rPortStat p, rPortErr p, rPfSyncStat, rPfStretchStat])))
      ∧ (s.fab.table.contains (be, sv) = true →
        ∃ t, exec (.announceFlitReceive p ⟨⟨q, f, x⟩, .stretch be sv⟩) s = .next t
          ∧ regsOnly { s with ports := t.ports, fab := t.fab } t [rPortStat p, rPortErr p, rPfSyncStat] ∧ measured t s.fab
          ∧ ∀ o, (t.port o).annOut = (s.port o).annOut))
    ∧ (s.fld rPwrStretch 0 1 = 1 → s.running = true → (s.beat + 2560) % 4096 = 0 → s.pwr.autoSent.contains (s.beat + 2560) = false →
      0 < s.fld rPwrStretch 16 12 → s.fld rPwrStretch 16 12 ≤ 3840 → s.fab.table.length < 4 →
      s.fab.table.contains (s.beat + 2560, s.fld rPwrStretch 16 12) = false →
      ∃ t, exec .stretchAutoEval s = .next t ∧ t.fab.table = s.fab.table ++ [(s.beat + 2560, s.fld rPwrStretch 16 12)])

/-- BEAT_START: the next beat begins 256 slots and the stretch of the current beat after the current one, beat 0 having begun at
pack time 0; PF_BEAT shows it and the stretch in force for it. The root of a synchronized herd then owes its pack time to every UP
FABRIC port. -/
def Obligations.BeatStart : Prop :=
  State.reset.beat = 0 ∧ State.reset.fab.beatStart = 0 ∧ State.reset.now = 0 ∧
  ∀ (act : Activity) (s : State), s.Wf → s.dark = false → s.beat + 1 < 2 ^ 48 → s.anyWaits = false →
    ∃ t, exec (.beatStart act) s = .next t ∧ t.beat = s.beat + 1
      ∧ t.fab.beatStart = s.fab.beatStart + 256 + stretchAt s.stretchTable s.beat
      ∧ t.fld rPfBeat 48 12 = stretchAt s.stretchTable (s.beat + 1) % 2 ^ 12
      ∧ (t.fab.beatStart < 2 ^ 64 → t.now = max s.now t.fab.beatStart)
      ∧ t.fld rPwrEst 16 16 = min 65535 ((rawParts act).1 + (rawParts act).2.1 + (rawParts act).2.2) ∧ t.mem = s.mem ∧ t.nv = s.nv ∧ t.job = s.job
      ∧ (s.fld rPfSyncCtrl 6 1 = 1 → s.fld rPfSyncCtrl 0 1 = 1 → ∀ p ∈ s.fabricUp, (t.port p).timeDue = true)

/-- Pack-time synchronization. A following package whose phase has stayed within 16/64 slot for 256 slots locks there. At its first
lock, and where it must step, it takes its parent's pack time, beat and pending stretches, as last announced to it; with no
announcement yet the lock waits for one. Any other lock leaves pack time alone. A locked package that drifts beyond 32/64 slot, as a
command reports or as a flit from its parent shows, loses lock, which LOST keeps, and in RUN is the fault PACKTIME_SKEW. -/
def Obligations.PackTimeLock : Prop :=
  ∀ (phase : Int) (s : State), s.Wf → s.dark = false →
    let parent (p q : Nat) (f : Flit) (x : Arrival) : Prop := p < 18 ∧ s.portUp p = true ∧ s.mode p = 1 ∧ f.good = true
      ∧ fecOk x.errs = true ∧ f.nakValid = false ∧ f.resend = false ∧ s.follows = true ∧ p = s.fld rPfSyncCtrl 1 5
      ∧ (s.issuing = true → (s.port p).failedRx = [] ∧ s.tableAt p true q = none)
    (s.follows = true → -16 ≤ phase → phase ≤ 16 →
      (∀ t₀, s.fab.steady = some t₀ → t₀ + 256 ≤ s.now →
        (s.fab.everLocked = true → s.fab.stepNext = false →
          ∃ t, exec (.packtimeLock phase) s = .next t ∧ t.fld rPfSyncStat 0 1 = 1
            ∧ t.fld rPfSyncStat 8 8 = phaseField phase
            ∧ regsOnly { s with fab := { s.fab with stepNext := false, parent := none, steady := none } } t [rPfSyncStat])
        ∧ (s.fab.everLocked = false ∨ s.fab.stepNext = true →
          (s.fab.parent = none → exec (.packtimeLock phase) s = .next s)
          ∧ ∀ at₀ tm b bs sv tbl, s.fab.parent = some (at₀, .time tm b bs sv tbl) → tm + (s.now - at₀) < 2 ^ 64 →
            ∃ t, exec (.packtimeLock phase) s = .next t ∧ t.fld rPfSyncStat 0 1 = 1 ∧ t.fld rPfSyncStat 8 8 = phaseField phase
              ∧ t.now = tm + (s.now - at₀) ∧ t.fab.table = tbl.take 4 ∧ t.fab.everLocked = true ∧ t.fab.stepNext = false
              ∧ t.fab.parent = none ∧ t.fab.steady = none ∧ t.pwr.interval = t.now / 250000
              ∧ (b < 2 ^ 48 → bs ≤ t.now → t.now < bs + 256 → t.beat = b ∧ t.fab.beatStart = bs)
              ∧ t.mem = s.mem ∧ t.cores = s.cores ∧ t.stp = s.stp))
      ∧ (s.fab.steady.all (fun t₀ => decide (s.now < t₀ + 256)) = true → exec (.packtimeLock phase) s = .next s))
    ∧ (s.fld rPfSyncStat 0 1 = 1 → phase < -32 ∨ 32 < phase → s.running = true → s.fld rPfFault 16 1 = 0 → s.ownHalts = [] →
      ∃ t, exec (.packtimeLockLost phase) s = .next t ∧ t.fld rPfSyncStat 0 1 = 0 ∧ t.fld rPfSyncStat 1 1 = 1 ∧ t.bu = 7
        ∧ t.fld rPfFault 0 16 = 0x0505)
    ∧ (s.fld rPfSyncStat 0 1 = 1 → phase < -32 ∨ 32 < phase → s.running = false →
      ∃ t, exec (.packtimeLockLost phase) s = .next t ∧ t.fld rPfSyncStat 0 1 = 0 ∧ t.fld rPfSyncStat 1 1 = 1
        ∧ regsOnly { s with fab := t.fab } t [rPfSyncStat])
    ∧ (∀ p q f x, parent p q f x → s.fld rPfSyncStat 0 1 = 1 →
      (-32 ≤ s.phaseOf p f x → s.phaseOf p f x ≤ 32 →
        ∃ t, exec (.idleFlitReceive p q ⟨f, x⟩) s = .next t ∧ t.fld rPfSyncStat 0 1 = 1
          ∧ t.fld rPfSyncStat 8 8 = phaseField (s.phaseOf p f x) ∧ t.fab = { s.fab with steady := t.fab.steady })
      ∧ (s.phaseOf p f x < -32 ∨ 32 < s.phaseOf p f x → s.running = true → s.fld rPfFault 16 1 = 0 →
        s.ownHalts = [] →
        ∃ t, exec (.idleFlitReceive p q ⟨f, x⟩) s = .next t ∧ t.fld rPfSyncStat 1 1 = 1 ∧ t.bu = 7 ∧ t.fld rPfFault 0 16 = 0x0505))
    ∧ (∀ p q f x tm b bs sv tbl, parent p q f x → s.fld rPfSyncStat 0 1 = 0 →
      ∃ t, exec (.announceFlitReceive p ⟨⟨q, f, x⟩, .time tm b bs sv tbl⟩) s = .next t
        ∧ t.fab.parent = some (s.now, .time tm b bs sv tbl) ∧ t.now = s.now ∧ t.beat = s.beat
        ∧ t.fab.beatStart = s.fab.beatStart ∧ t.fab.table = s.fab.table ∧ t.mem = s.mem ∧ t.cores = s.cores)

/-! ### Reductions, collectives and snapshots -/

/-- A collective at its slots. At its last send slot the engine takes the package's own status bits or norm pass; a used core's missing
CONTRIBUTE is SLOT_MISSED unless the run is armed. At its delivery slot, a layer statistic gives each unit's partials, or their
maximum; the status collective widens a step that STEP_WIDEN names, and not one in its wide schedule; the norm
collective gives the non-finite bit, the lowest position and the compensated sum over the units in increasing order. -/
def Obligations.CollectivesAtTheirSlots : Prop :=
  ∀ (id : Nat) (i : CollInst) (s : State), s.Wf → s.dark = false → s.issuing = true → s.inst? id = some i → i.id = id →
    s.anyWaits = false →
    (s.missing id = false →
      let u := s.advanceTo (s.packOf (s.stp.origin + i.lastSend))
      s.collUse i ≠ .norm ∨ (s.fab.held = [] ∧ s.bad = []) →
      exec (.collectiveLastSendSlot id) s = .next { u.contributeVals id none (u.ownStatus i) with
          stp := if s.collUse i = .status ∧ i.kind = 1 then { s.stp with widenSent := s.stp.localWiden && !s.stp.wide } else s.stp }
        ∧ (∀ r, r ≠ rPfPackTime → u.reg r = s.reg r))
    ∧ (s.missing id = true → s.armed = false → s.fld rPfFault 16 1 = 0 → s.collUse i ≠ .norm ∨ (s.fab.held = [] ∧ s.bad = []) →
      ∃ t, exec (.collectiveLastSendSlot id) s = .next t ∧ t.bu = 7 ∧ t.fld rPfFault 0 16 = 0x0501 ∧ t.fld rPfFault 17 3 = 4)
    ∧ (s.armed = false → s.stp.staged = [] →
      let vs := (s.coll id).vals
      let taken (t : State) : Prop := t.mem = s.mem ∧ t.cores = s.cores ∧ (∀ r, r ≠ rPfPackTime → t.reg r = s.reg r)
        ∧ (t.coll id).vals = [] ∧ (t.coll id).streams = []
      (s.collUse i = .layer → ∃ t, exec (.collectiveDelivery id) s = .next t ∧ taken t
          ∧ (id, if i.kind = 3 then [(0, maxsOf vs)] else csumUnits vs) ∈ t.stp.lred)
      ∧ (s.collUse i = .status → i.kind = 1 → ∃ t, exec (.collectiveDelivery id) s = .next t ∧ taken t
          ∧ t.stp.widened = (s.stp.widened || (bitsOf (orOf vs) 0 1 == 1 && !s.stp.wide))
          ∧ t.stp.nfT = (bitsOf (orOf vs) 1 1 == 1 && !(bitsOf (orOf vs) 0 1 == 1 && !s.stp.wide))
          ∧ t.stp.snapReq = (s.stp.snapReq || bitsOf (orOf vs) 2 1 == 1))
      ∧ (s.collUse i = .norm →
        (i.kind = 1 → ∃ t, exec (.collectiveDelivery id) s = .next t ∧ taken t
          ∧ t.stp = { s.stp with nfG := bitsOf (orOf vs) 0 1 == 1 })
        ∧ (i.kind = 2 → ∃ t, exec (.collectiveDelivery id) s = .next t ∧ taken t ∧ t.stp = { s.stp with gMin := minOf vs })
        ∧ (i.kind = 4 → ∃ t, exec (.collectiveDelivery id) s = .next t ∧ taken t
          ∧ t.stp = { s.stp with normM := (csumFold vs 0).1, normE := (csumFold vs 0).2 })))

/-- Chrysalis slots: a WRITING slot of a running job becomes READY once every version it holds has been compared, with no divergence
recorded, and not before; after a stop it keeps its state. A host
write of MEM_CHRY_REL frees exactly the READY slots it names. -/
def Obligations.ChrysalisSlots : Prop :=
  ∀ (k : Nat) (v : W64) (s : State), s.Wf → s.dark = false →
    (k < 2 → s.running = true → s.slotState k = 1 → s.fld rPfDiverge 48 1 = 0 →
      (∀ v ∈ (getAssoc s.stp.chryNeed k).getD [], v ∈ s.stp.compared) →
      ∃ t, exec (.chrysalisReady k) s = .next t ∧ t.slotState k = 2 ∧ t.slotState (1 - k) = s.slotState (1 - k)
        ∧ t.mem = s.mem ∧ t.cores = s.cores ∧ t.nv = s.nv)
    ∧ (s.running = false ∨ s.fld rPfDiverge 48 1 = 1 ∨ (∃ v ∈ (getAssoc s.stp.chryNeed k).getD [], v ∉ s.stp.compared) →
      exec (.chrysalisReady k) s = .next s)
    ∧ (s.memReady = true → ∃ t, exec (.memChryRel v) s = .next t ∧ regsOnly s t [rMemChryStat]
        ∧ ∀ i < 2, t.slotState i = if bitsOf v.toNat i 1 = 1 ∧ s.slotState i = 2 then 0 else s.slotState i)


/-! ### Hostlink: links, lines, registers, host memory, queues -/

/-- Hostlink links. A flit whose block the FEC cannot correct, or whose CRC, TYPE or an OP is bad, is counted, and NAK is set in what
goes out from then on. Of a good flit the credits are added, an ACK drops every flit it covers, and a MSG flit is accepted only if its
LSEQ is the one expected: then the next is expected, NAK ends and the units of its messages are owed as credit; else NAK is set. With no
message waiting, a MSG flit or a failed one is answered with an IDLE flit that carries ACK, NAK and the credit owed. After a NAK from the
host, REPLAY sends every unacknowledged MSG flit again and counts them; one already sent 8 times takes the port DOWN. -/
def Obligations.HostlinkFlits : Prop :=
  ∀ (p : Nat) (f : HlFlit) (errs : List Nat) (s : State), s.Wf → s.dark = false → s.portUp p = true → s.mode p = 2 → p < 18 →
    let counted (t : State) : Prop := t.fld (rPortErr p) 0 16 = min 65535 (s.fld (rPortErr p) 0 16 + b2n (fecCorrects errs))
      ∧ (∀ q, q ≠ p → t.port q = s.port q) ∧ regsOnly { s with ports := t.ports, outbox := t.outbox } t [rPortErr p]
    (f.good = false ∨ fecOk errs = false → (s.port p).txq = [] →
      let v := { s.port p with rxNak := true }
      ∃ t, exec (.hostlinkFlitReceive p f.type f.lseq (f.ackSeq, f.ackValid) f.nak f.credit ⟨f.crc, f.payload, errs⟩) s = .next t ∧ counted t ∧ t.port p = v.paid
        ∧ t.outbox = s.outbox ++ [.hlFlit p (v.flitWith 0 0 []).image]
        ∧ t.fld (rPortErr p) 32 16 = min (2 ^ 16 - 1) (s.fld (rPortErr p) 32 16 + 1))
    ∧ (f.good = true → fecOk errs = true → (s.port p).txq = [] →
      ∃ t, exec (.hostlinkFlitReceive p f.type f.lseq (f.ackSeq, f.ackValid) f.nak f.credit ⟨f.crc, f.payload, errs⟩) s = .next t ∧ counted t ∧ (t.port p).silence = 0
      ∧ (t.port p).nakSeen = f.nak
      ∧ (∀ i < 4, (t.port p).credits.getD i 0 = (s.port p).credits.getD i 0 + bitsOf f.credit (8 * i) 8)
      ∧ (f.ackValid = false ∨ (∀ e ∈ (s.port p).unacked, e.lseq ≠ f.ackSeq % 4096) → (t.port p).unacked = (s.port p).unacked)
      ∧ (∀ e pre post, f.ackValid = true → (s.port p).unacked = pre ++ e :: post → e.lseq = f.ackSeq % 4096 →
          (∀ x ∈ pre, x.lseq ≠ f.ackSeq % 4096) → (t.port p).unacked = post)
      ∧ (f.type ≠ 1 → t.outbox = s.outbox ∧ (t.port p).rxNext = (s.port p).rxNext ∧ (t.port p).rxNak = (s.port p).rxNak
          ∧ (t.port p).owed = (s.port p).owed)
      ∧ (f.type = 1 → t.outbox = s.outbox ++ [.hlFlit p ((((s.port p).takeHl f).flitWith 0 0 [])).image]
          ∧ (f.lseq % 4096 = (s.port p).rxNext → (t.port p).rxNext = ((s.port p).rxNext + 1) % 4096
            ∧ (t.port p).rxNak = false ∧ (t.port p).rxAny = true
            ∧ (t.port p).owed = (List.zipWith (· + ·) (s.port p).owed (unitsTaken (f.msgs.getD []))).map (fun n => n - 255))
          ∧ (f.lseq % 4096 ≠ (s.port p).rxNext → (t.port p).rxNext = (s.port p).rxNext ∧ (t.port p).rxNak = true
            ∧ (t.port p).owed = (s.port p).owed.map (fun n => n - 255))))
    ∧ ((s.port p).nakSeen = false → exec (.replay p) s = .next s)
    ∧ ((s.port p).nakSeen = true → (∀ e ∈ (s.port p).unacked, e.sends < 8) → ∃ t, exec (.replay p) s = .next t
      ∧ s.outbox <+: t.outbox ∧ t.outbox.length = s.outbox.length + (s.port p).unacked.length
      ∧ (∀ (k : Nat) (e : HlTx), (s.port p).unacked[k]? = some e → ∃ credit,
          t.outbox[s.outbox.length + k]? = some (.hlFlit p (HlFlit.sealed
            { type := 1, lseq := e.lseq, ackSeq := ((s.port p).rxNext + 4095) % 4096, ackValid := (s.port p).rxAny
              nak := (s.port p).rxNak, credit, payload := hlPayload e.msgs }).image))
      ∧ t.port p = { s.port p with unacked := (s.port p).unacked.map (fun e => { e with sends := e.sends + 1 })
                                   nakSeen := false, owed := (t.port p).owed }
      ∧ t.fld (rPortErr p) 16 16 = min (2 ^ 16 - 1) (s.fld (rPortErr p) 16 16 + (s.port p).unacked.length)
      ∧ regsOnly { s with ports := t.ports, outbox := t.outbox } t [rPortErr p])
    ∧ ((s.port p).nakSeen = true → (∃ e ∈ (s.port p).unacked, 8 ≤ e.sends) → ∃ t, exec (.replay p) s = .next t ∧ t.portState p = 0
      ∧ (t.port p).unacked = [] ∧ t.mem = s.mem ∧ t.nv = s.nv ∧ t.job = s.job)

/-- Snoops and answers. A snoop of a line the table does not hold is answered RSP_I and makes the requests for it stale. A
SNP_INV gives the line up, and of a doorbell or head line that the engine is not giving up itself it is a ring, read again; a SNP_DATA leaves it Shared; a Held line goes with its bytes. A doorbell read on an H_DATA with
PARAM 1 enters Shared and its TAIL counts on to the value read; a descriptor read raises FETCHED and waits with its bytes,
decided at once when the host failed or its type is above 7. An H_ACK of a record lowers the CQ's unacknowledged
records, that of an EVICT or WR_BACK ends the line, which a queue that has been enabled since reads again. -/
def Obligations.SnoopsAndAnswers : Prop :=
  ∀ (p tag a : Nat) (s : State), s.Wf → s.dark = false → s.portUp p = true → s.mode p = 2 →
    (∀ c ∈ [Instr.snpInv p tag a, Instr.snpData p tag a], (s.port p).txq = [] → (s.port p).unacked.length < 512 →
      ((s.port p).line? a = none → ∃ t, exec c s = .next t
        ∧ t.outbox = s.outbox ++ s.sends p { op := opRspI, tag := tag, addr := a, status := 0, param := 0, data := [] }
        ∧ (∀ r ∈ (t.port p).reqs, r.addr = a → r.op = opRdShared ∨ r.op = opRdHeld → r.stale = true)
        ∧ t.fld rHlSnpStat 0 32 = min (2 ^ 32 - 1) (s.fld rHlSnpStat 0 32 + 1)
        ∧ (∀ r, r ≠ rHlSnpStat → t.reg r = s.reg r) ∧ t.mem = s.mem ∧ t.cores = s.cores))
    ∧ (∀ l, (s.port p).line? a = some l → (s.port p).txq = [] → (s.port p).unacked.length < 512 →
      (l.use.rings = false ∨ (s.port p).givesUp a = true → ∃ t, exec (.snpInv p tag a) s = .next t ∧ (t.port p).line? a = none
        ∧ t.outbox = s.outbox ++ s.sends p
            { op := if l.held = true then opRspID else opRspI, tag := tag, addr := a, status := 0, param := 0, data := if l.held = true then l.data else [] } ∧ t.mem = s.mem ∧ t.cores = s.cores)
      ∧ (l.use.rings = true → (s.port p).givesUp a = false → (∀ r ∈ (s.port p).reqs, lineReq r a = false) →
          ∃ t, exec (.snpInv p tag a) s = .next t ∧ (t.port p).line? a = none ∧ t.mem = s.mem ∧ t.cores = s.cores
            ∧ ∃ r ∈ (t.port p).reqs, r.op = opRdShared ∧ r.addr = a ∧ r.use = .line l.use)
      ∧ (∃ t, exec (.snpData p tag a) s = .next t ∧ (t.port p).line? a = some { l with held := false }
        ∧ t.outbox = s.outbox ++ s.sends p
            { op := if l.held = true then opRspSD else opRspS, tag := tag, addr := a, status := 0, param := 0, data := if l.held = true then l.data else [] } ∧ t.mem = s.mem ∧ t.cores = s.cores))
    ∧ (∀ r data, (s.port p).reqs.find? (fun r => r.tag == tag) = some r →
      (∀ q, r.use = .line (.doorbell q) → r.stale = false → ∃ t, exec (.hData p tag 1 0 data) s = .next t
        ∧ (t.port p).line? r.addr = some { addr := r.addr, held := false, use := .doorbell q, data }
        ∧ (t.sq q).tail % 2 ^ 32 = fieldLe data 0 4 ∧ (s.sq q).tail ≤ (t.sq q).tail
        ∧ (t.port p).reqs = (s.port p).reqs.erase r ∧ (∀ x, x ≠ rHlSnpStat → t.reg x = s.reg x) ∧ t.mem = s.mem
        ∧ t.cores = s.cores)
      ∧ (∀ q i status, r.use = .desc q i → s.desc? q i = none → ∃ t d, exec (.hData p tag 0 status data) s = .next t
        ∧ t.desc? q i = some d ∧ d.bytes = slice data 0 64 ∧ (t.sq q).fetched = (s.sq q).fetched + 1
        ∧ (status = 0 → fieldLe data 0 1 < 8 → d.done = none) ∧ (status ≠ 0 → d.done = some (cHostError, 0, false))
        ∧ (status = 0 → 8 ≤ fieldLe data 0 1 → d.done = some (cDescMalformed, 0, false)) ∧ t.mem = s.mem ∧ t.cores = s.cores)
      ∧ (∀ status u, r.use = .giveUp u → ∃ t, exec (.hAck p tag status) s = .next t ∧ (t.port p).line? r.addr = none
        ∧ (s.port p).reqs.erase r <+: (t.port p).reqs ∧ t.mem = s.mem ∧ t.cores = s.cores
        ∧ (∀ q, u = .doorbell q → s.sqOn q = false → (t.port p).reqs = (s.port p).reqs.erase r)
        ∧ (∀ q, u = .doorbell q → s.sqOn q = true → s.sqPort q = some p → s.reg (rHlSqDb q) = r.addr →
            ∃ x ∈ (t.port p).reqs, lineReq x r.addr = true))
      ∧ (∀ c status, r.use = .record c → ∃ t, exec (.hAck p tag status) s = .next t
        ∧ (t.cq c).unacked = (s.cq c).unacked - 1 ∧ t.mem = s.mem ∧ t.cores = s.cores ∧ t.regs = s.regs))
    ∧ ((s.port p).reqs.find? (fun r => r.tag == tag) = none → ∀ param status data,
      exec (.hData p tag param status data) s = .next s ∧ exec (.hAck p tag status) s = .next s)

/-- Register accesses. An access that is not served is answered with its code of Table 12.6, a read with value 0, and changes
nothing. A read of a register answers its readable bits and clears its RC fields, nothing else. A write of HL_CTRL or of
a window register sets its RW fields; a 1 clears PF_DBG_STAT's W1C bit and its read-only fields stay. GO of
CORE_FLT_CTRL on a mapped core outside RUN puts the generator's value for the test key and counter into
CORE_FLT_OUT and sets DONE. -/
def Obligations.RegisterAccess : Prop :=
  ∀ (p tag a : Nat) (v : W64) (m : Mc) (s : State), s.Wf → s.dark = false →
    (s.portUp p = true → s.mode p = 2 → (s.port p).txq = [] → (s.port p).unacked.length < 512 →
      2 ≤ (s.port p).credits.getD 3 0 →
      let code := s.accessCode (portMc p) a
      (code ≠ 0 → (∃ t, exec (.regRd p tag a) s = .next t ∧ t = { s with ports := t.ports, outbox := t.outbox }
            ∧ t.outbox = s.outbox ++ s.sends p { op := opDData, tag := tag, addr := a, status := code, param := 0, data := leBytes 16 0 })
          ∧ (∃ t, exec (.regWr p tag a v) s = .next t ∧ t = { s with ports := t.ports, outbox := t.outbox }
            ∧ t.outbox = s.outbox ++ s.sends p { op := opDAck, tag := tag, addr := a, status := code, param := 0, data := [] }))
      ∧ (∀ b fs, code = 0 → blockOf a = some b → regFields a = some fs → s.unmapped b a = false →
          ∃ t, exec (.regRd p tag a) s = .next t
            ∧ t.outbox = s.outbox ++ s.sends p
                { op := opDData, tag := tag, addr := a, status := 0, param := 0, data := leBytes 16 (regReadVal fs (s.reg (regKey (portMc p) b a))).1 }
            ∧ t.reg (regKey (portMc p) b a) = (regReadVal fs (s.reg (regKey (portMc p) b a))).2
            ∧ regsOnly { s with ports := t.ports, outbox := t.outbox } t [regKey (portMc p) b a])
      ∧ (∀ fs, code = 0 → a = rHlCtrl → regFields a = some fs → ∃ t, exec (.regWr p tag a v) s = .next t
          ∧ t.outbox = s.outbox ++ s.sends p { op := opDAck, tag := tag, addr := a, status := 0, param := 0, data := [] } ∧ t.fld a 0 7 = bitsOf v.toNat 0 7
          ∧ regsOnly { s with ports := t.ports, outbox := t.outbox } t [a]))
    ∧ (s.accessCode m a ≠ 0 → exec (.registerWrite m a v) s = .next s)
    ∧ (s.accessCode m a = 0 → a = rHlCtrl ∨ (∃ w < 8, a = rHlWinBase w ∨ a = rHlWinLimit w ∨ a = rHlWinAttr w) →
      ∃ t, exec (.registerWrite m a v) s = .next t ∧ regsOnly s t [a]
        ∧ ∀ fs f, regFields a = some fs → f ∈ fs → f.acc = .rw → t.fld a f.lo f.w = bitsOf v.toNat f.lo f.w)
    ∧ (s.accessCode m rPfDbgStat = 0 → ∃ t, exec (.registerWrite m rPfDbgStat v) s = .next t ∧ regsOnly s t [rPfDbgStat]
        ∧ t.fld rPfDbgStat 0 2 = s.fld rPfDbgStat 0 2 ∧ t.fld rPfDbgStat 16 12 = s.fld rPfDbgStat 16 12
        ∧ t.fld rPfDbgStat 2 1 = if bitsOf v.toNat 2 1 = 1 then 0 else s.fld rPfDbgStat 2 1)
    ∧ (∀ n < 2048, s.windowsUp = true → s.mapped? n = true → s.running = false →
      let w (o k : Nat) : W32 := BitVec.ofNat 32 (s.reg (rCore n o) / 2 ^ (32 * k))
      let r := Sys2Proof.Machine.flutter ⟨w oFltKeyLo 0, w oFltKeyLo 1, w oFltKeyHi 0, w oFltKeyHi 1⟩
        ⟨w oFltCtrLo 0, w oFltCtrLo 1, w oFltCtrHi 0, w oFltCtrHi 1⟩
      ∃ t, exec (.flutterTestGo n) s = .next t ∧ regsOnly s t [rCore n oFltOutLo, rCore n oFltOutHi, rCore n oFltCtrl]
        ∧ t.reg (rCore n oFltOutLo) = r.w0.toNat + 2 ^ 32 * r.w1.toNat
        ∧ t.reg (rCore n oFltOutHi) = r.w2.toNat + 2 ^ 32 * r.w3.toNat ∧ t.cfld n oFltCtrl 1 1 = 1)

/-- The window of a logical core. A read of any of its registers changes nothing but that register's RC fields. In RUN a write of any
register but CORE_IMEM_ERR changes nothing, and a write of CORE_IMEM_ERR clears the W1C fields that it names and nothing
else. -/
def Obligations.CoreWindowInRun : Prop :=
  ∀ (p tag n o : Nat) (v : W64) (m : Mc) (fs : List FieldDef) (s : State), s.Wf → s.dark = false → n < 2048 → o < 0x2000 →
    regFields (rCore n o) = some fs →
    (s.portUp p = true → s.mode p = 2 →
      ∃ t, exec (.regRd p tag (rCore n o)) s = .next t ∧ regsOnly { s with ports := t.ports, outbox := t.outbox } t [rCore n o]
        ∧ ∀ f ∈ fs, f.acc ≠ .rc → t.fld (rCore n o) f.lo f.w = s.fld (rCore n o) f.lo f.w)
    ∧ (s.running = true → o ≠ oImemErr → exec (.registerWrite m (rCore n o) v) s = .next s)
    ∧ (s.running = true → s.mapped? n = true → s.accessCode m (rCore n oImemErr) = 0 → o = oImemErr →
      ∃ t, exec (.registerWrite m (rCore n o) v) s = .next t ∧ regsOnly s t [rCore n o]
        ∧ ∀ f ∈ fs, t.fld (rCore n o) f.lo f.w = if f.acc = .w1c ∧ bitsOf v.toNat f.lo f.w = 1 then 0 else s.fld (rCore n o) f.lo f.w)

/-- The I3C targets with SB33. A 4-byte write sets the pointer; a 12-byte write sets it and writes the register, keeping the
write's status; any other length only records 0xFFFF. A read answers value, its status and the last write's status.
Addresses are assigned and reset, events are enabled and disabled, a held event goes out when they are enabled. The bytes
that GETPID, GETBCR, GETDCR, GETSTATUS, GETMWL and GETMRL answer are free (log entries 10 and 39, the model's choice).
Without SB33 nothing happens. -/
def Obligations.I3cTargets : Prop :=
  ∀ (m : Mc) (bs : List Byte) (x y : Nat) (s : State), s.Wf → s.dark = false →
    let u := s.mc m
    let code := s.accessCode m (fieldLe bs 0 4)
    (s.pkg.sb33 = true →
      (bs.length = 4 → exec (.i3cPointerWrite m bs) s = .next (s.setMc m { u with ptr := fieldLe bs 0 4 }))
      ∧ (bs.length = 12 → code ≠ 0 → exec (.i3cRegisterWrite m bs) s
          = .next (s.setMc m { u with ptr := fieldLe bs 0 4, lastWr := code }))
      ∧ (bs.length = 12 → code = 0 → ∃ t,
          exec (.registerWrite m (fieldLe bs 0 4) (BitVec.ofNat 64 (fieldLe bs 4 8))) (s.setMc m { u with ptr := fieldLe bs 0 4 }) = .next t
          ∧ exec (.i3cRegisterWrite m bs) s = .next (t.setMc m { t.mc m with lastWr := 0 }))
      ∧ (bs.length ≠ 4 → bs.length ≠ 12 → ∀ c ∈ [Instr.i3cPointerWrite m bs, Instr.i3cRegisterWrite m bs],
          exec c s = .next (s.setMc m { u with lastWr := 0xFFFF }))
      ∧ (s.accessCode m u.ptr ≠ 0 → exec (.i3cPrivateRead m) s = .next { s with outbox := s.outbox
          ++ [.i3c m (leBytes 8 0 ++ leBytes 2 (s.accessCode m u.ptr) ++ leBytes 2 u.lastWr)] })
      ∧ (∀ b fs, s.accessCode m u.ptr = 0 → blockOf u.ptr = some b → regFields u.ptr = some fs → s.unmapped b u.ptr = false →
          ∃ t, exec (.i3cPrivateRead m) s = .next t ∧ t.outbox = s.outbox ++ [.i3c m
              (leBytes 8 (regReadVal fs (s.reg (regKey m b u.ptr))).1 ++ leBytes 2 0 ++ leBytes 2 u.lastWr)]
            ∧ regsOnly { s with outbox := t.outbox } t [regKey m b u.ptr])
      ∧ (u.dyn = none → x = s.staticAddr m → exec (.setdasa m x y) s = .next (s.setMc m { u with dyn := some y }))
      ∧ (u.dyn.isSome = true ∨ x ≠ s.staticAddr m → exec (.setdasa m x y) s = .next s)
      ∧ (u.dyn = none → exec (.entdaa m y) s = .next (s.setMc m { u with dyn := some y }))
      ∧ (u.dyn.isSome = true → exec (.entdaa m y) s = .next s)
      ∧ exec (.rstdaa m) s = .next (s.setMc m { u with dyn := none })
      ∧ exec (.disec m) s = .next (s.setMc m { u with ibiOn := false })
      ∧ (∃ t, exec (.enec m) s = .next t ∧ t.mc m = { u with ibiOn := true, ibiHeld := none }
          ∧ t.outbox = s.outbox ++ (u.ibiHeld.map (Out.ibi m)).toList ∧ t.regs = s.regs ∧ t.mem = s.mem)
      ∧ (∀ c n, (c, n) ∈ [(Instr.getpid m, 6), (.getbcr m, 1), (.getdcr m, 1), (.getstatus m, 2), (.getmwl m, 2), (.getmrl m, 2)] →
          ∃ a : List Byte, a.length = n ∧ exec c s = .next { s with outbox := s.outbox ++ [.i3c m a], free := s.free + 1 }))
    ∧ (s.pkg.sb33 = false → ∀ c ∈ [Instr.i3cPointerWrite m bs, .i3cRegisterWrite m bs, .i3cPrivateRead m, .setdasa m x y,
        .entdaa m y, .rstdaa m, .enec m, .disec m, .getpid m, .getbcr m, .getdcr m, .getstatus m, .getmwl m, .getmrl m],
      exec c s = .next s)

/-- The host's access to device memory. MEM_RD of mapped lines that a window opens for reading answers their bytes and
changes nothing; MEM_WR of such lines stores its bytes and no others. An access no window permits is WINDOW_FAULT. COPY_IN
reads host memory and stores what it held; COPY_OUT of one line sends it to the host address and completes with the host's
acknowledgement, or with the error it reports. A device range that is not mapped completes with its code, without effect. -/
def Obligations.HostMemoryAccess : Prop :=
  ∀ (p tag a n : Nat) (data : List Byte) (q i : Nat) (d : Desc) (s : State), s.Wf → s.dark = false →
    (s.portUp p = true → s.mode p = 2 → (s.port p).txq = [] → (s.port p).unacked.length < 512 →
      13 ≤ (s.port p).credits.getD 3 0 →
      (s.memOk 0 a n = true → s.memReady = true → s.badIn a (64 * n) = none →
        ∃ t, exec (.memRd p tag a ⟨n, {}⟩) s = .next t ∧ t = { s with ports := t.ports, outbox := t.outbox }
          ∧ t.outbox = s.outbox ++ s.sends p { op := opDData, tag := tag, addr := a, status := 0, param := 0, data := s.load a (64 * n) })
      ∧ (s.memOk 0 a n = false ∨ s.memReady = false → ∃ t, exec (.memRd p tag a ⟨n, {}⟩) s = .next t
          ∧ t = { s with ports := t.ports, outbox := t.outbox } ∧ t.outbox = s.outbox
            ++ s.sends p { op := opDData, tag := tag, addr := a, status := if s.memOk 0 a n then cUnavailable else cWindowFault
                           param := 0, data := List.replicate (64 * max 1 (min 3 n)) 0#8 })
      ∧ (s.memOk 1 a (data.length / 64) = true → data.length % 64 = 0 → s.memReady = true →
        ∃ t, exec (.memWr p tag a ⟨some data, {}⟩) s = .next t ∧ t.outbox = s.outbox ++ s.sends p { op := opDAck, tag := tag, addr := a, status := 0, param := 0, data := [] }
          ∧ t.load a data.length = data ∧ (∀ k, k < a ∨ a + data.length ≤ k → t.byte k = s.byte k) ∧ t.regs = s.regs
          ∧ t.cores = s.cores ∧ t.nv = s.nv)
      ∧ (s.memOk 1 a (data.length / 64) = false ∨ s.memReady = false → ∃ t, exec (.memWr p tag a ⟨some data, {}⟩) s = .next t
          ∧ t = { s with ports := t.ports, outbox := t.outbox }
          ∧ t.outbox = s.outbox ++ s.sends p
              { op := opDAck, tag := tag, addr := a, status := if s.memOk 1 a (data.length / 64) then cUnavailable else cWindowFault, param := 0, data := [] }))
    ∧ (let dev := d.f 24 8
       let len := d.f 32 8
       let atEnd := d.deadline != 0 && d.deadline == s.now
       let ends (t : State) (code moved : Nat) : Prop := ∃ e, t.desc? q i = some e ∧ e.done = some (code, moved, atEnd)
       s.tooLate d = false → copyBad (d.f 16 8) dev len = false →
      (s.startable? q i 2 = some d → s.copyCode dev len = 0 → data.length = len →
        ∃ t, exec (.copyIn q i ⟨some data, {}⟩) s = .next t ∧ ends t 0 len ∧ t.load dev len = data
          ∧ (∀ k, k < dev ∨ dev + len ≤ k → t.byte k = s.byte k) ∧ t.regs = s.regs ∧ t.cores = s.cores
          ∧ ∀ o, s.sqPort q = some o → len = 64 → s.portUp o = true → (s.port o).txq = [] → (s.port o).unacked.length < 512 →
            1 ≤ (s.port o).credits.getD 2 0 → t.outbox = s.outbox ++ s.sends o
              { op := opRdOnce, tag := (s.port o).tagNext, addr := d.f 16 8 % 2 ^ 52, status := 0, param := 1, data := [] })
      ∧ (s.startable? q i 2 = some d → s.copyCode dev len ≠ 0 → ∃ t, exec (.copyIn q i ⟨some data, {}⟩) s = .next t
          ∧ ends t (s.copyCode dev len) 0 ∧ t.mem = s.mem ∧ t.regs = s.regs ∧ t.cores = s.cores ∧ t.ports = s.ports)
      ∧ (∀ o, s.startable? q i 3 = some d → s.copyCode dev len = 0 → s.badIn dev len = none → s.sqPort q = some o → len = 64 →
        s.portUp o = true → (s.port o).txq = [] → (s.port o).unacked.length < 512 → 5 ≤ (s.port o).credits.getD 2 0 → ∀ ok : Bool,
        ∃ t, exec (.copyOut q i ok {}) s = .next t ∧ t.mem = s.mem ∧ t.regs = s.regs ∧ t.cores = s.cores
          ∧ (ok = false → ends t cHostError 0) ∧ (ok = true → ∃ e, t.desc? q i = some e ∧ e.done = none ∧ e.started = true)
          ∧ (∃ r ∈ (t.port o).reqs, r.use = .copyOut q i ∧ r.op = opWrFull ∧ r.tag = (s.port o).tagNext)
          ∧ t.outbox = s.outbox ++ s.sends o
            { op := opWrFull, tag := (s.port o).tagNext, addr := d.f 16 8 % 2 ^ 52, status := 0, param := 1, data := s.load dev 64 })
      ∧ (s.startable? q i 3 = some d → s.copyCode dev len ≠ 0 → ∃ t, exec (.copyOut q i true {}) s = .next t
          ∧ ends t (s.copyCode dev len) 0 ∧ t = { s with hl := t.hl })
      ∧ (∀ r status, s.portUp p = true → s.mode p = 2 → (s.port p).reqs.find? (fun r => r.tag == tag) = some r → r.use = .copyOut q i →
        s.desc? q i = some d → d.done = none →
        (s.setPort p { s.port p with reqs := (s.port p).reqs.erase r }).copyLeft q i = false →
        ∃ t, exec (.hAck p tag status) s = .next t ∧ (if status = 0 then ends t 0 len else ends t cHostError 0)
          ∧ t.mem = s.mem ∧ t.regs = s.regs ∧ t.cores = s.cores))

/-- Queues and descriptors. A CFG write with ENABLE on a valid disabled queue enables it, empty but for descriptors fetched before
that have still to complete; on an invalid one it sets ERR;
without ENABLE it sets the other fields, and on an enabled queue it disables it; on an enabled queue a write with ENABLE
changes nothing. A descriptor that the doorbell names and both rings have room for is read. A WAKE goes out at its timer
with every record acknowledged. NOP completes, or times out when its deadline has passed; the end of the deadline slot
decides an undecided descriptor, and a JOB_LOAD that it cuts short in READY has discarded the installed job; a decided one leaves
the queue, once the host has acknowledged what it sent, and RETIRED passes it. -/
def Obligations.QueuesAndDescriptors : Prop :=
  ∀ (q i : Nat) (v : W64) (s : State), s.Wf → s.dark = false → q < 64 →
    let en := bitsOf v.toNat 0 1
    let sqr := rHlSqCfg q
    let cqr := rHlCqCfg q
    (s.sqOn q = false → en = 0 → ∃ t, exec (.hlSqCfgWrite q v) s = .next t ∧ regsOnly s t [sqr] ∧ t.sqOn q = false
        ∧ t.fld sqr 1 11 = bitsOf v.toNat 1 11)
    ∧ (let u := s.cfgFields sqr 12 v.toNat
       let valid := u.cfgValid sqr (rHlSqBase q) [rHlSqDb q, rHlSqRpt q] && u.cqOn (u.cqOf q)
       s.sqOn q = false → en = 1 →
         (valid = true → ∃ t, exec (.hlSqCfgWrite q v) s = .next t ∧ t.sqOn q = true
             ∧ t.sq q = (if (s.sq q).descs = [] ∧ (s.sq q).pend = [] then SqSt.reset else s.sq q)
             ∧ t.fld sqr 1 11 = bitsOf v.toNat 1 11 ∧ t.mem = s.mem ∧ t.cores = s.cores)
         ∧ (valid = false → ∃ t, exec (.hlSqCfgWrite q v) s = .next t ∧ regsOnly s t [sqr] ∧ t.sqOn q = false
             ∧ t.fld sqr 12 1 = 1))
    ∧ (s.sqOn q = true → (en = 1 → exec (.hlSqCfgWrite q v) s = .next s)
        ∧ (en = 0 → ∃ t, exec (.hlSqCfgWrite q v) s = .next t ∧ t.sqOn q = false ∧ t.sq q = s.sq q ∧ t.mem = s.mem))
    ∧ (s.cqOn q = false → en = 0 → ∃ t, exec (.hlCqCfgWrite q v) s = .next t ∧ regsOnly s t [cqr] ∧ t.cqOn q = false
        ∧ t.fld cqr 1 5 = bitsOf v.toNat 1 5)
    ∧ (let u := s.cfgFields cqr 6 v.toNat
       let valid := u.cfgValid cqr (rHlCqBase q) [rHlCqHead q]
       s.cqOn q = false → en = 1 →
         (valid = true → ∃ t, exec (.hlCqCfgWrite q v) s = .next t ∧ t.cqOn q = true ∧ (t.cq q).head = 0
             ∧ t.fld cqr 1 5 = bitsOf v.toNat 1 5 ∧ t.mem = s.mem ∧ t.cores = s.cores)
         ∧ (valid = false → ∃ t, exec (.hlCqCfgWrite q v) s = .next t ∧ regsOnly s t [cqr] ∧ t.cqOn q = false
             ∧ t.fld cqr 12 1 = 1))
    ∧ (s.cqOn q = true → (en = 1 → exec (.hlCqCfgWrite q v) s = .next s)
        ∧ (en = 0 → ∃ t, exec (.hlCqCfgWrite q v) s = .next t ∧ t.cqOn q = false ∧ t.cq q = s.cq q ∧ t.mem = s.mem))
    ∧ (s.fld rHlEvqCfg 0 1 = 0 → en = 0 → ∃ t, exec (.hlEvqCfgWrite v) s = .next t ∧ regsOnly s t [rHlEvqCfg]
        ∧ t.fld rHlEvqCfg 0 1 = 0 ∧ t.fld rHlEvqCfg 1 5 = bitsOf v.toNat 1 5)
    ∧ (let u := s.cfgFields rHlEvqCfg 6 v.toNat
       let valid := u.cfgValid rHlEvqCfg rHlEvqBase [rHlEvqHead]
       s.fld rHlEvqCfg 0 1 = 0 → en = 1 →
         (valid = true → ∃ t, exec (.hlEvqCfgWrite v) s = .next t ∧ t.fld rHlEvqCfg 0 1 = 1 ∧ t.hl.evHead = 0 ∧ t.hl.evWritten = 0
             ∧ t.fld rHlEvqCfg 1 5 = bitsOf v.toNat 1 5 ∧ t.mem = s.mem ∧ t.cores = s.cores)
         ∧ (valid = false → ∃ t, exec (.hlEvqCfgWrite v) s = .next t ∧ regsOnly s t [rHlEvqCfg] ∧ t.fld rHlEvqCfg 0 1 = 0
             ∧ t.fld rHlEvqCfg 12 1 = 1))
    ∧ (s.fld rHlEvqCfg 0 1 = 1 → (en = 1 → exec (.hlEvqCfgWrite v) s = .next s)
        ∧ (en = 0 → ∃ t, exec (.hlEvqCfgWrite v) s = .next t ∧ t.fld rHlEvqCfg 0 1 = 0 ∧ t.mem = s.mem ∧ t.cores = s.cores))
    ∧ (let k := (s.sq q).fetched + (s.sq q).pend.length
       ∀ p, s.sqPort q = some p → s.sqOn q = true → k < (s.sq q).tail → k - (s.sq q).retired < s.sqSize q →
         s.cqRoom (s.cqOf q) = true →
       ∃ t, exec (.descFetch q) s = .next t ∧ (t.sq q).pend = (s.sq q).pend ++ [k]
         ∧ (t.cq (s.cqOf q)).reserved = (s.cq (s.cqOf q)).reserved + 1 ∧ t.regs = s.regs ∧ t.mem = s.mem
         ∧ ∃ r ∈ (t.port p).reqs, r.use = .desc q k ∧ r.op = opRdOnce
             ∧ r.addr = 2 ^ 12 * s.fld (rHlSqBase q) 12 40 + 64 * (k % s.sqSize q))
    ∧ (∀ b p, (s.cq q).oldest = some b → s.fld (rHlCqWake q) 32 16 ≠ 0 →
        (s.beat < b + s.fld (rHlCqWake q) 32 16 → exec (.wakeTimer q) s = .next s)
        ∧ (b + s.fld (rHlCqWake q) 32 16 ≤ s.beat → (s.cq q).since ≠ 0 → (s.cq q).unacked = 0 → s.cqPort q = some p →
            s.portUp p = true → (s.port p).txq = [] → (s.port p).unacked.length < 512 → 1 ≤ (s.port p).credits.getD 2 0 →
          ∃ t, exec (.wakeTimer q) s = .next t ∧ (t.cq q).since = 0 ∧ t.regs = s.regs ∧ t.mem = s.mem ∧ t.outbox = s.outbox
            ++ s.sends p { op := opWake, tag := (s.port p).tagNext, addr := s.fld (rHlCqWake q) 0 16, status := 0, param := 0, data := [] }))
    ∧ (∀ d, s.startable? q i 0 = some d → ∃ t e, exec (.nop q i) s = .next t ∧ t = { s with hl := t.hl }
        ∧ t.desc? q i = some e
        ∧ e.done = some (if s.tooLate d = true then cDescTimeout else 0, 0, d.deadline != 0 && d.deadline == s.now))
    ∧ (∀ d, s.desc? q i = some d → d.done = none → d.deadline ≠ 0 → s.anyWaits = false → ∃ t e, exec (.descDeadline q i) s = .next t
        ∧ t.desc? q i = some e ∧ e.done = some (cDescTimeout, 0, false) ∧ t.now = max s.now d.deadline
        ∧ (d.f 0 1 ≠ 6 ∨ s.bu ≠ 5 → (∀ r, r ≠ rPfPackTime → t.reg r = s.reg r) ∧ t.cores = s.cores
          ∧ (d.f 0 1 ≠ 2 → t.mem = s.mem) ∧ ∀ a, a < d.f 24 8 ∨ d.f 24 8 + d.f 32 8 ≤ a → t.byte a = s.byte a)
        ∧ (s.startable? q i 6 = some d → s.bu = 5 → d.fetchAt ≤ d.deadline → d.f 16 8 % 64 = 0 → d.f 24 8 ≠ 0 →
          t.bu = 4 ∧ t.job = none ∧ (∀ a, (∀ k ∈ s.job, s.declares k a = false) → t.byte a = s.byte a)))
    ∧ (∀ d o, s.desc? q i = some d → d.done = some o → s.copyLeft q i = false → ∃ t, exec (.descComplete q i) s = .next t ∧ t.desc? q i = none
        ∧ ((s.sq q).doneSet = [] → (t.sq q).retired = if i = (s.sq q).retired then i + 1 else (s.sq q).retired)
        ∧ (s.cqOn (s.cqOf q) = true → s.cqPort (s.cqOf q) ≠ none →
            (t.cq (s.cqOf q)).written = (s.cq (s.cqOf q)).written + 1)
        ∧ t.mem = s.mem ∧ t.cores = s.cores)

/-! ### Descriptors of a run, jobs and restores -/

/-- INPUT stores its bytes where its step's input is staged and waits for the step; while an earlier step's input holds the buffer it
waits, started; a failed host read ends it and leaves its range to another. The end of the deadline slot is
INPUT_LATE while declared bytes are missing. SNAP_REQ and CTX_SAVE wait for their boundary. Without a running job each
ends with DESC_NO_JOB, with bad fields or too late with its code, without effect. A context restore loads every used
core's image or none. -/
def Obligations.RunDescriptors : Prop :=
  ∀ (q i : Nat) (d : Desc) (s : State), s.Wf → s.dark = false →
    let atEnd := d.deadline != 0 && d.deadline == s.now
    let ends (t : State) (code : Nat) : Prop := t = { s with hl := t.hl } ∧ ∃ e, t.desc? q i = some e ∧ e.done = some (code, 0, atEnd)
    (s.tooLate d = true → s.startable? q i 5 = some d → ∃ t, exec (.ctxSave q i) s = .next t ∧ ends t cDescTimeout)
    ∧ (s.tooLate d = false →
    (∀ data, s.startable? q i 1 = some d → inputForm d = false → s.running = false →
      ∃ t, exec (.input q i ⟨data, {}⟩) s = .next t ∧ ends t cDescNoJob)
    ∧ (∀ data, s.startable? q i 1 = some d → inputForm d = true ∨ (s.running = true ∧ ∃ j, s.job = some j ∧
          (j.inputs[d.f 24 4]? = none ∨ ∃ decl, j.inputs[d.f 24 4]? = some decl ∧ (q, i) ∉ s.hl.waitIn ∧ s.inputBad d decl = true)) →
        ∃ t, exec (.input q i ⟨data, {}⟩) s = .next t ∧ ends t cDescMalformed)
    ∧ (∀ (j : Job) (decl : InputDecl) (bs : List Byte) (x : Nat), s.startable? q i 1 = some d → s.running = true → s.job = some j →
        j.inputs[d.f 24 4]? = some decl → s.inputBad d decl = false → (q, i) ∉ s.hl.waitIn →
        (s.bufferHeld decl (d.f 24 4) (d.f 16 8) = true → ∃ t, exec (.input q i ⟨some bs, {}⟩) s = .next t
          ∧ (q, i) ∈ t.hl.waitIn ∧ t = { s with hl := t.hl } ∧ ∃ e, t.desc? q i = some e ∧ e.started = true ∧ e.done = none)
        ∧ (s.bufferHeld decl (d.f 24 4) (d.f 16 8) = false →
          (s.stageAddr decl (d.f 16 8) = some x → bs.length = d.f 40 8 → s.badPart (x + d.f 48 8) bs.length = none →
            ∃ t, exec (.input q i ⟨some bs, {}⟩) s = .next t ∧ t.load (x + d.f 48 8) bs.length = bs
              ∧ (d.f 48 8, bs.length) ∈ (t.inputSt (d.f 16 8) (d.f 24 4)).filled
              ∧ (∀ k, k < x + d.f 48 8 ∨ x + d.f 48 8 + bs.length ≤ k → t.byte k = s.byte k)
              ∧ t.regs = s.regs ∧ t.cores = s.cores)
          ∧ ∃ t e, exec (.input q i ⟨none, {}⟩) s = .next t ∧ t.desc? q i = some e ∧ e.done = some (cHostError, 0, atEnd)
              ∧ (t.inputSt (d.f 16 8) (d.f 24 4)).ranges = (s.inputSt (d.f 16 8) (d.f 24 4)).ranges
              ∧ t.mem = s.mem ∧ t.regs = s.regs ∧ t.cores = s.cores))
    ∧ (∀ (j : Job) (ix : Nat) (decl : InputDecl), s.issuing = true → s.anyWaits = false → s.job = some j → j.inputs[ix]? = some decl →
        let got := ((s.inputSt s.stp.step ix).filled.map (·.2)).sum
        (decl.bytes ≤ got → ∃ t, exec (.inputDeadline ix) s = .next t ∧ s.outbox <+: t.outbox
            ∧ regsOnly { s with stp := t.stp, ports := t.ports, outbox := t.outbox } t [rPfPackTime]
            ∧ (s.inputDue decl < 2 ^ 64 → t.now = max s.now (s.inputDue decl)))
        ∧ (got < decl.bytes → s.fld rPfFault 16 1 = 0 →
            ∃ t, exec (.inputDeadline ix) s = .next t ∧ t.bu = 7 ∧ t.fld rPfFault 0 16 = cInputLate ∧ t.mem = s.mem))
    ∧ (s.startable? q i 4 = some d →
        let b := d.f 16 8
        (b = 0 ∨ d.f 8 8 ≠ 0 → ∃ t, exec (.snapReq q i) s = .next t ∧ ends t cDescMalformed)
        ∧ (b ≠ 0 → d.f 8 8 = 0 → s.running = false → ∃ t, exec (.snapReq q i) s = .next t ∧ ends t cDescNoJob)
        ∧ (b ≠ 0 → d.f 8 8 = 0 → s.running = true → b ≤ s.stp.step ∨ (b = s.stp.step + 1 ∧ s.issuing = true ∧ s.statusSent = true) →
            ∃ t, exec (.snapReq q i) s = .next t ∧ ends t cSnapLate)
        ∧ (d.f 8 8 = 0 → s.running = true → s.stp.step < b → b ≠ s.stp.step + 1 ∨ s.issuing = false ∨ s.statusSent = false → ∃ t, exec (.snapReq q i) s = .next t
            ∧ t.hl.snapReqs = s.hl.snapReqs ++ [(q, i, b)] ∧ t = { s with hl := t.hl }))
    ∧ (s.startable? q i 5 = some d →
        let b := d.f 16 8
        let n := d.f 24 2
        (s.running = false → ∃ t, exec (.ctxSave q i) s = .next t ∧ ends t cDescNoJob)
        ∧ (s.running = true → (n ≠ 0xFFFF ∧ numCores ≤ n) ∨ b < s.stp.step ∨ (b = s.stp.step ∧ s.stp.started = true) →
            ∃ t, exec (.ctxSave q i) s = .next t ∧ ends t cCmdBadOperand)
        ∧ (s.running = true → n = 0xFFFF ∨ n < numCores → s.stp.step < b ∨ (b = s.stp.step ∧ s.stp.started = false) → ∃ t, exec (.ctxSave q i) s = .next t
            ∧ t.hl.ctxReqs = s.hl.ctxReqs ++ [(q, i, b, n)] ∧ t = { s with hl := t.hl })))
    ∧ (∀ (j : Job) (b : Nat), s.bu = 5 → s.job = some j → s.hl.restored = some b → (∀ n ∈ s.used, n < 2048) →
        ((∀ n ∈ s.used, s.imageCode j n b = 0) → ∃ t, exec .contextRestore s = .next t ∧ t.fld rPfDbgStat 1 1 = 1
            ∧ t.mem = s.mem ∧ t.bu = 5 ∧ ∀ n ∈ s.used, (t.core n).window = [])
        ∧ ((∃ n ∈ s.used, s.imageCode j n b ≠ 0) → ∃ t, exec .contextRestore s = .next t ∧ t.fld rPfDbgStat 2 1 = 1
            ∧ t = { s with regs := t.regs } ∧ ∀ n ∈ s.used, t.cfld n oDbg 16 16 = s.imageCode j n b % 2 ^ 16))

/-- JOB_LOAD and RESTORE, each of which reads the host's memory. In LOAD or READY a JOB_LOAD first discards an installed job. An image that a check refuses leaves the
package in LOAD without a job, BU_JOB_STAT names check and code, and bytes that no image declared stay; one that passes
every check is installed: READY, its digest and norm limits in the registers, bank 0 of every used core ACTIVE. In any
other state it is JOB_BUSY. RESTORE in
READY of a slot that passes its checks sets step, v and n of the slot's header; of one that fails, or in any other state,
it has no effect but its completion with the code. -/
def Obligations.JobLoadAndRestore : Prop :=
  ∀ (q i : Nat) (d : Desc) (bs : List Byte) (s : State), s.Wf → s.dark = false → s.tooLate d = false → d.f 16 8 % 64 = 0 →
    d.f 24 8 ≠ 0 →
    let atEnd := d.deadline != 0 && d.deadline == s.now
    let ends (t : State) (code n : Nat) : Prop := ∃ e, t.desc? q i = some e ∧ e.done = some (code, n, atEnd)
    let img := slice bs 0 (d.f 24 8)
    let u := if s.bu = 5 then s.discardJob else s
    let j := parseJob img u.herdIndex
    (s.startable? q i 6 = some d → s.bu ≠ 4 → s.bu ≠ 5 → ∀ image, ∃ t, exec (.jobLoad q i image) s = .next t
        ∧ ends t cJobBusy 0 ∧ t = { s with hl := t.hl })
    ∧ (∀ r, s.startable? q i 6 = some d → s.bu = 4 ∨ s.bu = 5 → s.job = none ∨ s.bu = 5 → u.imageRefusal img (d.f 24 8) = some r →
        r.code < 2 ^ 16 → r.check < 2 ^ 5 →
        ∃ t, exec (.jobLoad q i (some bs)) s = .next t ∧ ends t r.code 0 ∧ t.bu = 4 ∧ t.job = none
          ∧ t.fld rBuJobStat 0 2 = 3 ∧ t.fld rBuJobStat 8 5 = r.check ∧ t.fld rBuJobStat 16 16 = r.code ∧ t.nv = s.nv
          ∧ (∀ a, s.declares j a = false → (∀ k ∈ s.job, s.declares k a = false) → t.byte a = s.byte a))
    ∧ (s.startable? q i 6 = some d → s.bu = 4 ∨ s.bu = 5 → u.imageRefusal img (d.f 24 8) = none →
        ∃ t, exec (.jobLoad q i (some bs)) s = .next t ∧ ends t 0 0 ∧ t.bu = 5 ∧ t.job = some j ∧ t.reg rBuJobStat = 2
          ∧ (∀ k < 8, t.reg (rBuJobDigest k) = bitsOf j.digest.toNat (64 * k) 64)
          ∧ t.fld rPfNormLimits 0 32 = j.hdr.tauC.toNat ∧ t.fld rPfNormLimits 32 32 = j.hdr.tauA.toNat
          ∧ (∀ n ∈ usedCores j, t.bankState n 0 = 3) ∧ t.nv = s.nv ∧ t.stp.step = 0 ∧ t.fab.held = [])
    ∧ (s.startable? q i 7 = some d →
        (∀ slot, s.bu ≠ 5 ∨ s.job = none → ∃ t, exec (.restore q i slot) s = .next t ∧ ends t cJobBusy 0 ∧ t = { s with hl := t.hl })
        ∧ (∀ k : Job, s.bu = 5 → s.job = some k → k.slotCode img ≠ 0 →
            ∃ t, exec (.restore q i (some bs)) s = .next t ∧ ends t (k.slotCode img) 0
              ∧ t = { s with hl := t.hl, ports := t.ports, outbox := t.outbox })
        ∧ (∀ k : Job, s.bu = 5 → s.job = some k → k.slotCode img = 0 →
            ∃ t, exec (.restore q i (some bs)) s = .next t ∧ ends t 0 (d.f 24 8) ∧ t.stp.step = fieldLe img 0x010 8
              ∧ t.stp.v = fieldLe img 0x018 8 ∧ t.stp.n = fieldLe img 0x030 8 ∧ t.hl.restored = some (fieldLe img 0x010 8)
              ∧ t.fld rPfWidenStat 32 8 = fieldLe img 0x02E 1 ∧ (∀ r, r ≠ rPfWidenStat → t.reg r = s.reg r) ∧ t.cores = s.cores
              ∧ t.nv = s.nv))

/-! ### Power, monitors and security -/

/-- The cap and the meter. PWR_CAP takes a cap of 600 to 2,100 W with a window of 1 to 10 s, in force from the next interval;
PWR_CAP_SCHED a beat ahead; anything else sets REJ and keeps the cap. A sample adds 10 μs of input power to the energy,
never loses a part of it, and shows temperature and warning. The interval's end brings the next cap into force, and energy
over the window's budget in RUN is CAP_UNREACHABLE. Recalibration outside RUN sets the gain of a cell with 4,096 pairs to
measured over raw. -/
def Obligations.PowerCapAndMeter : Prop :=
  ∀ (v : W64) (m : PowerMeas) (s : State), s.Wf → s.dark = false →
    (let c := bitsOf v.toNat 0 12
     let w := bitsOf v.toNat 12 4
     (600 ≤ c ∧ c ≤ 2100 ∧ 1 ≤ w ∧ w ≤ 10 → ∃ t, exec (.pwrCapWrite v) s = .next t ∧ t.fld rPwrCap 0 12 = c
         ∧ t.fld rPwrCap 12 4 = w ∧ t.pwr = { s.pwr with capNext := some c } ∧ regsOnly { s with pwr := t.pwr } t [rPwrCap])
     ∧ (¬(600 ≤ c ∧ c ≤ 2100 ∧ 1 ≤ w ∧ w ≤ 10) → ∃ t, exec (.pwrCapWrite v) s = .next t ∧ t.fld rPwrCap 16 1 = 1
         ∧ t.fld rPwrCap 0 16 = s.fld rPwrCap 0 16 ∧ regsOnly s t [rPwrCap]))
    ∧ (let b := bitsOf v.toNat 0 48
       let c := bitsOf v.toNat 48 12
       (s.beat < b → 600 ≤ c → c ≤ 2100 → ∃ t, exec (.pwrCapSchedWrite v) s = .next t ∧ t.fld rPwrCapSched 0 48 = b
           ∧ t.fld rPwrCapSched 48 12 = c ∧ regsOnly s t [rPwrCapSched])
       ∧ (¬(s.beat < b ∧ 600 ≤ c ∧ c ≤ 2100) → ∃ t, exec (.pwrCapSchedWrite v) s = .next t ∧ t.fld rPwrCap 16 1 = 1
           ∧ t.fld rPwrCap 0 16 = s.fld rPwrCap 0 16 ∧ regsOnly s t [rPwrCap]))
    ∧ (∃ t, exec (.powerSample m) s = .next t ∧ t.fld rPwrIn 0 16 = min 65535 m.vin ∧ t.fld rPwrIn 16 16 = min 65535 m.pin
        ∧ (s.reg rPwrEnergy + (s.pwr.mj + 10 * m.pin) / 1000 < 2 ^ 64 →
            1000 * t.reg rPwrEnergy + t.pwr.mj = 1000 * s.reg rPwrEnergy + s.pwr.mj + 10 * m.pin)
        ∧ t.pwr.e = s.pwr.e + 10 * m.pin ∧ t.fld rPwrTherm 0 8 = min 255 m.tMax
        ∧ t.pkg.thermWarn = decide (s.fld rPwrTherm 8 8 ≤ m.tMax) ∧ t.fld rPwrAvg 38 1 = b2n (decide (s.fld rPwrTherm 8 8 ≤ m.tMax))
        ∧ t.mem = s.mem ∧ t.cores = s.cores ∧ t.ports = s.ports ∧ t.nv = s.nv ∧ t.bu = s.bu)
    ∧ (let u := decide (s.aCap < s.ePast + s.pwr.e)
       s.anyWaits = false → ∃ t, exec .powerIntervalEnd s = .next t ∧ t.pwr.capNow = s.pwr.capNext.getD s.pwr.capNow ∧ t.pwr.capNext = none
         ∧ t.pwr.e = 0 ∧ t.pwr.interval = s.pwr.interval + 1 ∧ t.mem = s.mem ∧ t.nv = s.nv
         ∧ (u = false → s.outbox <+: t.outbox
             ∧ regsOnly { s with pwr := t.pwr, ports := t.ports, outbox := t.outbox } t [rPfPackTime])
         ∧ (u = true → t.fld rPwrAvg 37 1 = 1)
         ∧ (u = true → s.running = true → s.fld rPfFault 16 1 = 0 → t.bu = 7 ∧ t.fld rPfFault 0 16 = 0x0803))
    ∧ (∀ n meas raw, s.running = false → s.pwr.lastCal + 65536 ≤ s.beat → s.pwr.cells = [(n, meas, raw)] → s.pwr.gainsDue = [] →
        n < 64 → raw ≠ 0 →
        (4096 ≤ s.fld (rPwrGain n) 16 16 → ∃ t, exec .estimatorRecalibration s = .next t
            ∧ t.fld (rPwrGain n) 0 16 = min 65535 (meas * 32768 / raw) ∧ t.fld (rPwrGain n) 16 16 = 0
            ∧ t.fld rPwrEstMap n 1 = 1 ∧ regsOnly { s with pwr := t.pwr } t [rPwrGain n, rPwrEstMap])
        ∧ (s.fld (rPwrGain n) 16 16 < 4096 → ∃ t, exec .estimatorRecalibration s = .next t ∧ t = { s with pwr := t.pwr }
            ∧ t.pwr.cells = s.pwr.cells))

/-- Trips. A hard trip sends STOP on every UP FABRIC port for the 500 slots that the port dies stay up, a second STOP for 64 of them, records
its source and leaves the logic side unpowered: the package
is dark. A soft trip in RUN is the package fault of its code, halts the package, turns the compute dies off and puts the
HBM4 stacks in self-refresh; a thermal one asserts THERM_TRIP_N; DDR5 keeps its bytes. In MAP, LOAD and READY the package state stays,
the rest is the same (log entry 35, the model's choice). In WHELP a soft trip only records. A valid
PWR_TRIP record is kept. -/
def Obligations.Trips : Prop :=
  ∀ (die half stack : Nat) (s : State), s.Wf → s.dark = false → half < 2 → stack < 8 →
    (∀ c src code, (c, src, code) ∈ [(Instr.inputOvervoltage, 1, 0x0801), (.inputOvercurrent die, 2, 0x0801),
        (.intermediatePlane half, 4, 0x0801), (.powerStageDieTemperature die, 6, 0x0802)] →
      ∃ t, exec c s = .next t ∧ t.dark = true ∧ t.pkg.latched = true ∧ t.nv = { s.nv with trip := some (src, true, s.nv.powerOn) }
        ∧ (∀ p ∈ s.fabricUp, .stop p s.herdIndex code s.now ∈ t.outbox
          ∧ ((s.port p).carried ≤ s.now + 1 → (s.port p).naks = [] → (s.port p).stops = [] → (s.port p).annOut = [] →
            (s.port p).timeDue = false → .stopSlots p (s.now + 1) (if s.fab.originsFwd.isEmpty && !s.fab.stopOut then 500 else 64)
              none s.herdIndex code s.now ∈ t.outbox)) ∧ t.pkg.thermTrip = false ∧ t.pkg.thermWarn = false
        ∧ t.mem = s.mem ∧ t.regs = s.regs ∧ t.cores = s.cores)
    ∧ (∀ c src code unit index, (c, src, code, unit, index) ∈ [(Instr.sustainedInputPower, 3, 0x0801, 5, 0),
        (.regulator half, 5, 0x0801, 5, 2 * half), (.dieJunction half, 7, 0x0802, 5, 2 * half),
        (.hbm4StackTemperature stack, 8, 0x0802, 2, stack)] →
      (s.running = true → s.fld rPfFault 16 1 = 0 → s.ownHalts = [] → ∃ t, exec c s = .next t ∧ t.bu = 7 ∧ t.fld rPfFault 0 16 = code
        ∧ t.fld rPfFault 17 3 = unit ∧ t.fld rPfFault 20 11 = index
        ∧ t.reg rPwrTrip = (if s.fld rPwrTrip 9 1 = 1 then s.reg rPwrTrip else src + 2 ^ 9 + 2 ^ 32 * (s.nv.powerOn % 2 ^ 32))
        ∧ t.nv = { s.nv with trip := some (src, false, s.nv.powerOn) } ∧ t.pkg.computeOn = false ∧ t.pkg.selfRef = true
        ∧ t.pkg.softTrip = true ∧ t.pkg.thermTrip = (s.pkg.thermTrip || code == 0x0802) ∧ t.dark = false
        ∧ (∀ p ∈ s.fabricUp, .stop p s.herdIndex code s.now ∈ t.outbox)
        ∧ (∀ n ∈ s.used, s.coreLive n = true → t.cstate n = 5) ∧ ∀ a, hbmTop ≤ a → t.byte a = s.byte a)
      ∧ (s.bu = 3 ∨ s.bu = 4 ∨ s.bu = 5 → ∃ t, exec c s = .next t ∧ t.bu = s.bu ∧ t.nv = { s.nv with trip := some (src, false, s.nv.powerOn) }
        ∧ t.pkg.computeOn = false ∧ t.pkg.selfRef = true ∧ t.pkg.softTrip = true ∧ t.fab.issueStopped = true ∧ t.dark = false
        ∧ t.pkg.thermTrip = (s.pkg.thermTrip || code == 0x0802) ∧ ∀ a, hbmTop ≤ a → t.byte a = s.byte a)
      ∧ (s.bu = 1 → ∃ t, exec c s = .next t ∧ t.bu = 1 ∧ t.nv = { s.nv with trip := some (src, false, s.nv.powerOn) }
        ∧ t.reg rPwrTrip = (if s.fld rPwrTrip 9 1 = 1 then s.reg rPwrTrip else src + 2 ^ 9 + 2 ^ 32 * (s.nv.powerOn % 2 ^ 32))
        ∧ t.mem = s.mem ∧ t.cores = s.cores
        ∧ ∀ r, r ≠ rPwrTrip → t.reg r = s.reg r))

/-- Monitors. A lost margin lowers its island by 25 MHz, and at or below f_sched halts its core with MARGIN_LOST. A droop counts
its stretched periods. Temperatures above 85 °C show in HOT, of stacks and of DDR5 modules. A patrol pass counts corrected
lines and marks uncorrectable ones, without a fault; with scrub off nothing happens. -/
def Obligations.MonitorsAndScrub : Prop :=
  ∀ (n k : Nat) (temps unc : List Nat) (s : State), s.Wf → s.dark = false → n < 2048 →
    (s.running = true → n ∈ s.used ∨ s.mapped? n = true → s.cstate n ≠ 5 → 25 < s.islandFreq n → s.islandFreq n < 2 ^ 12 →
      (s.pwr.fsched < s.islandFreq n → ∃ t, exec (.marginMonitor n) s = .next t ∧ (t.core n).limit = s.islandFreq n - 25
          ∧ coreOnly s t n [rCore n oFreq])
      ∧ (s.islandFreq n ≤ s.pwr.fsched → (s.core n).issues = false → ∃ t, exec (.marginMonitor n) s = .next t ∧ t.cstate n = 5 ∧ t.mem = s.mem
          ∧ (s.cfld n oHaltInfo 16 1 = 0 → t.cfld n oHaltInfo 0 16 = 0x0804 ∧ t.cfld n oHaltInfo 17 1 = 1)
          ∧ (s.fld rPfFault 16 1 = 0 → (∀ m ∈ s.used, (s.core m).ending = none) →
            t.bu = 7 ∧ t.fld rPfFault 0 16 = 0x0804 ∧ t.fld rPfFault 20 11 = n)))
    ∧ (s.windowsUp = true → s.mapped? n = true → ∃ t, exec (.droop n k) s = .next t ∧ regsOnly s t [rCore n oFreq]
        ∧ t.cfld n oFreq 48 16 = min (2 ^ 16 - 1) (s.cfld n oFreq 48 16 + k) ∧ t.cfld n oFreq 0 48 = s.cfld n oFreq 0 48)
    ∧ (s.memReady = true → ∃ t, exec (.hbmTemperatureReadout temps) s = .next t ∧ regsOnly s t [rMemHbm, rPwrTherm]
        ∧ (∀ h < 8, t.fld rMemHbm (16 + h) 1 = b2n (decide (85 < temps.getD h 0)))
        ∧ (∀ h < 8, min 255 (temps.getD h 0) ≤ t.fld rPwrTherm 24 8) ∧ t.fld rMemHbm 0 16 = s.fld rMemHbm 0 16
        ∧ t.fld rPwrTherm 0 24 = s.fld rPwrTherm 0 24)
    ∧ (s.memReady = true → 0 < s.ddrC → n < 12 → ∃ t, exec (.ddr5ModuleTemperature ⟨n, k⟩) s = .next t ∧ regsOnly s t [rMemDdr]
        ∧ t.fld rMemDdr (20 + n) 1 = b2n (decide (85 < k)) ∧ ∀ f < 64, f ≠ 20 + n → t.fld rMemDdr f 1 = s.fld rMemDdr f 1)
    ∧ (s.memReady = true → 0 < s.ddrC → s.fld rMemScrub 0 1 = 1 → ∃ t, exec (.patrolScrub k unc) s = .next t
        ∧ t.fld rMemEcc 32 24 = min (2 ^ 24 - 1) (s.fld rMemEcc 32 24 + k) ∧ t.mem = s.mem ∧ t.bu = s.bu
        ∧ (∀ a ∈ unc, s.inDdr a = true → a / 64 * 64 ∈ t.bad)
        ∧ regsOnly { s with bad := t.bad } t [rMemEcc, rMemErr, rMemScrub])
    ∧ (s.fld rMemScrub 0 1 = 0 → exec (.patrolScrub k unc) s = .next s)

/-- Security operations, with none in progress. One that the state does not allow ends with RESULT 4 and has no effect.
SVN_COMMIT raises each counter to the version of the image that runs. ATTEST ends with the 5,184 bytes of its report written, CERT_OUT with
the certificate's length or RESULT 5 where it does not fit. FW_WRITE programs the region not booted from, if both images pass and SB33
powers the boot flash. JOBKEY enrols a key that
the owner signed, DEBUG_UNLOCK with the owner's token for this package and nonce unlocks, OWNER_ENROL fuses the digest
of the key. While another operation is in progress a row only sets REJ. -/
def Obligations.SecurityOperations : Prop :=
  ∀ (m : Mc) (ok : Bool) (region rec : Option (List Byte)) (bs : List Byte) (s : State), s.Wf → s.dark = false →
    let rej := 2 ^ 5 * s.fld rSecOpStat 5 1
    let ops : List (Instr × Nat) := [(.attest ok m, 1), (.certOut ok, 2), (.fwWrite region ok, 3), (.svnCommit, 4),
      (.jobkey rec, 5), (.debugUnlock rec, 6), (.ownerEnrol rec, 7)]
    (∀ c op, (c, op) ∈ ops → s.fld rSecOpStat 0 1 = 1 → s.sec.op ≠ op →
      ∃ t, exec c s = .next t ∧ regsOnly s t [rSecOpStat] ∧ t.fld rSecOpStat 5 1 = 1 ∧ t.fld rSecOpStat 0 5 = s.fld rSecOpStat 0 5)
    ∧ (∀ c op, (c, op) ∈ ops → s.fld rSecOpStat 0 1 = 0 → s.secAllowed op = false →
      ∃ t, exec c s = .next t ∧ t.reg rSecOpStat = 2 + 2 ^ 2 * 4 + rej ∧ regsOnly { s with sec := t.sec } t [rSecOpStat])
    ∧ (s.fld rSecOpStat 0 1 = 0 → s.secAllowed 4 = true → ∃ t, exec .svnCommit s = .next t ∧ t.reg rSecOpStat = 2 + rej
        ∧ (∀ f, s.pkg.mcFw = some f → t.nv.mcCtr = max s.nv.mcCtr f.svn) ∧ (∀ f, s.pkg.coreFw = some f → t.nv.coreCtr = max s.nv.coreCtr f.svn)
        ∧ (s.pkg.mcFw = none → t.nv.mcCtr = s.nv.mcCtr ∧ t.nv.revoked = s.nv.revoked)
        ∧ (s.pkg.coreFw = none → t.nv.coreCtr = s.nv.coreCtr)
        ∧ (∀ f, s.pkg.mcFw = some f → ∀ k, k ≠ f.slot → t.nv.revoked.testBit k = (s.nv.revoked.testBit k || f.revoke.testBit k))
        ∧ t.mem = s.mem ∧ t.cores = s.cores)
    ∧ (s.fld rSecOpStat 0 1 = 0 → ∀ p, s.secPort = some p →
        (∃ t, exec (.attest ok m) s = .next t ∧ t.reg rSecOpStat = (if ok = true then 2 + rej + 2 ^ 8 * 5184 else 2 + 2 ^ 2 * 3 + rej)
          ∧ t.mem = s.mem ∧ t.nv = s.nv ∧ t.cores = s.cores)
        ∧ (s.secAllowed 2 = true → s.nv.cert.length ≤ s.reg rSecOpLen → s.nv.cert.length < 2 ^ 24 → ∃ t, exec (.certOut true) s = .next t
          ∧ t.reg rSecOpStat = 2 + rej + 2 ^ 8 * s.nv.cert.length ∧ t.mem = s.mem ∧ t.nv = s.nv)
        ∧ (s.secAllowed 2 = true → s.reg rSecOpLen < s.nv.cert.length → ∃ t, exec (.certOut ok) s = .next t
          ∧ t.reg rSecOpStat = 2 + 2 ^ 2 * 5 + rej ∧ regsOnly { s with sec := t.sec } t [rSecOpStat]))
    ∧ (s.fld rSecOpStat 0 1 = 0 → s.secAllowed 3 = true → 0 < s.reg rSecOpLen → s.reg rSecOpLen ≤ regionBytes →
        let img := slice bs 0 (s.reg rSecOpLen)
        (s.regionResult img ≠ 0 → ∃ t, exec (.fwWrite (some bs) ok) s = .next t
          ∧ t.reg rSecOpStat = 2 + 2 ^ 2 * s.regionResult img + rej ∧ t.nv = s.nv ∧ t.mem = s.mem)
        ∧ (s.regionResult img = 0 → s.pkg.sb33 = false → ∃ t, exec (.fwWrite (some bs) ok) s = .next t
          ∧ t.reg rSecOpStat = 2 + 2 ^ 2 * 3 + rej ∧ t.nv = s.nv ∧ t.mem = s.mem)
        ∧ (s.regionResult img = 0 → s.pkg.sb33 = true → ∃ t, exec (.fwWrite (some bs) true) s = .next t ∧ t.reg rSecOpStat = 2 + rej ∧ t.mem = s.mem
          ∧ t.nv = (if (s.mc s.leader).region = 0 then { s.nv with regionB := img } else { s.nv with regionA := img }))
        ∧ s.regionResult img ≤ 2)
    ∧ (∀ o key sig, s.fld rSecOpStat 0 1 = 0 → s.secAllowed 5 = true → 7296 ≤ s.reg rSecOpLen → s.nv.owner = some o →
        ⟨key, ascii "TCHK-JKEY", sha3_512 (slice bs 0 0xA40), sig⟩ ∈ s.sigs → sha3_512 key = o → slice bs 0xA40 4627 = sig →
        bs.length = 7296 → slice bs 0 8 = ascii "TCHKJKEY" → fieldLe bs 8 2 = 1 → fieldLe bs 10 1 = 1 → fieldLe bs 11 1 < 8 →
        fieldLe bs 16 16 = s.nv.serial.toNat → s.nv.keySeq < fieldLe bs 12 4 → s.nv.keys.length = 8 →
        (s.nv.keys.getD (fieldLe bs 11 1) ⟨0, []⟩).state = 0 →
      ∃ t, exec (.jobkey (some bs)) s = .next t ∧ t.reg rSecOpStat = 2 + rej ∧ t.mem = s.mem ∧ t.cores = s.cores
        ∧ t.nv = { s.nv with keys := s.nv.keys.set (fieldLe bs 11 1) { state := 1, key := slice bs 0x20 2592 }, keySeq := fieldLe bs 12 4 }
        ∧ bitsOf (t.reg rSecJobKey) (fieldLe bs 11 1) 1 = 1)
    ∧ (∀ o key sig, s.fld rSecOpStat 0 1 = 0 → s.secAllowed 6 = true → 4736 ≤ s.reg rSecOpLen → s.nv.owner = some o →
        ⟨key, ascii "TCHK-DBG", sha3_512 (slice bs 0 0x60), sig⟩ ∈ s.sigs → sha3_512 key = o → slice bs 0x60 4627 = sig →
        bs.length = 4736 → slice bs 0 8 = ascii "TCHKDBGU" → fieldLe bs 8 2 = 1 → fieldLe bs 16 16 = s.nv.serial.toNat →
        (slice bs 0x20 64 = s.nonceBytes → ∃ t, exec (.debugUnlock (some bs)) s = .next t ∧ t.reg rSecOpStat = 2 + rej
          ∧ t.fld rSecBootStat 34 1 = 1 ∧ t.nv = s.nv ∧ t.mem = s.mem)
        ∧ (slice bs 0x20 64 ≠ s.nonceBytes → ∃ t, exec (.debugUnlock (some bs)) s = .next t
          ∧ t.fld rSecBootStat 34 1 = s.fld rSecBootStat 34 1 ∧ t.fld rSecOpStat 2 3 = 4 ∧ t.nv = s.nv ∧ t.mem = s.mem))
    ∧ (s.fld rSecOpStat 0 1 = 0 → s.secAllowed 7 = true → 2592 ≤ s.reg rSecOpLen → ∃ t, exec (.ownerEnrol (some bs)) s = .next t
        ∧ t.nv = { s.nv with owner := some (sha3_512 (slice bs 0 2592)) } ∧ t.fld rSecBootStat 32 1 = 1
        ∧ t.reg rSecOpStat = 2 + rej ∧ t.mem = s.mem)

/-! ### Number formats -/

/-- Element codes. An I8 code is its two's complement number, −128 included, and no conversion writes −128. A W2 code is 0, the
scale or minus the scale, a W1 code plus or minus the scale, an M8B-S code one rounding of scale × q / 127. The reserved
codes 0b10 of W2 and 0x80 of M8B-S are never written in a line, in one encoded against a kept SCALE neither, and a line that
holds one is not read. -/
def Obligations.NumberFormats : Prop :=
  (∀ q < 256, decodeElem .i8 q = if q < 128 then .fin false q 1 else .fin true (256 - q) 1)
  ∧ (∀ (r : Rnd) (flush : Bool) (v : Xv), (convElem .i8 r flush v).code < 256 ∧ (convElem .i8 r flush v).code ≠ 0x80)
  ∧ (∀ sc : W32, xIsFinite (valT32 sc) = true →
      lineElem .w2 sc 0 = .fin false 0 1 ∧ lineElem .w2 sc 1 = xMul (valT32 sc) (.fin false 1 1)
      ∧ lineElem .w2 sc 3 = xMul (valT32 sc) (.fin true 1 1) ∧ lineElem .w1 sc 0 = xMul (valT32 sc) (.fin false 1 1)
      ∧ lineElem .w1 sc 1 = xMul (valT32 sc) (.fin true 1 1)
      ∧ ∀ q < 256, lineElem .m8bs sc q
          = valT32 (rne32s (xDiv (xMul (valT32 sc) (decodeElem .i8 q)) (.fin false 127 1))))
  ∧ (∀ (sr : Bool) (rnds : List Rnd) (ws : List W32),
      (∀ c ∈ (deriveLine .w2 sr rnds ws).line.codes, c = 0 ∨ c = 1 ∨ c = 3)
      ∧ (∀ c ∈ (deriveLine .w1 sr rnds ws).line.codes, c = 0 ∨ c = 1)
      ∧ (∀ c ∈ (deriveLine .m8bs sr rnds ws).line.codes, c < 256 ∧ c ≠ 0x80)
      ∧ ∀ (sc : W32), ∀ c ∈ m8Codes .m8bs sc rnds ws, c.1 < 256 ∧ c.1 ≠ 0x80)
  ∧ (∀ bs : List Byte, lineCheckOk bs = true →
      (2 ∈ unpackCodes 2 (slice bs 8 56) → fieldLe bs 6 1 = lineTag .w2 → readLine .w2 bs = .badFormat)
      ∧ (0x80 ∈ unpackCodes 8 (slice bs 8 56) → fieldLe bs 6 1 = lineTag .m8bs → readLine .m8bs bs = .badFormat))
end

