-- ==== Sys2Proof/Laws/Bytes.lean ====
section
/-! SUPPORT. Laws of little-endian bytes and of pieces of a byte string: what is stored reads back. -/

namespace Sys2Proof.Machine

@[simp] theorem length_leBytes (n v : Nat) : (leBytes n v).length = n := by
  induction n generalizing v with
  | zero => rfl
  | succ n ih => rw [leBytes, List.length_cons, ih]

/-- Bytes of a number spell it, up to its width. -/
theorem ofLe_leBytes (n v : Nat) : ofLe (leBytes n v) = v % 256 ^ n := by
  induction n generalizing v with
  | zero => rw [leBytes, ofLe, Nat.pow_zero, Nat.mod_one]
  | succ n ih =>
    rw [leBytes, ofLe, ih, BitVec.toNat_ofNat, show 2 ^ 8 = 256 from rfl, Nat.pow_succ, Nat.mul_comm (256 ^ n), Nat.mod_mul]

/-- A piece of a byte string has the length asked for. -/
@[simp] theorem length_slice (l : List Byte) (o n : Nat) : (slice l o n).length = n := by
  simp only [slice, List.length_append, List.length_take, List.length_drop, List.length_replicate]; omega

theorem slice_all (l : List Byte) : slice l 0 l.length = l := by
  simp only [slice, List.drop_zero, List.take_length, Nat.sub_self, List.replicate_zero, List.append_nil]

theorem slice_zero (l : List Byte) (o : Nat) : slice l o 0 = [] := by
  rw [slice, List.take_zero]; rfl

/-- A piece that ends inside the first part. -/
theorem slice_append_left {a b : List Byte} {o n : Nat} (h : o + n ≤ a.length) : slice (a ++ b) o n = slice a o n := by
  simp only [slice, List.drop_append_of_le_length (by omega : o ≤ a.length)]
  rw [List.take_append_of_le_length (by simp; omega)]

/-- A piece that starts after the first part. -/
theorem slice_append_right {a b : List Byte} {o n : Nat} (h : a.length ≤ o) : slice (a ++ b) o n = slice b (o - a.length) n := by
  simp only [slice, List.drop_append, List.drop_eq_nil_of_le h, List.nil_append]

/-- A piece of zeros is zeros. -/
theorem slice_zeros (k o n : Nat) : slice (List.replicate k 0) o n = List.replicate n 0 := by
  simp only [slice, List.drop_replicate, List.take_replicate, List.length_replicate]
  rw [show (0#8 : Byte) = 0 from rfl, List.replicate_append_replicate]
  congr 1; omega

/-- A number stored between two parts reads back. -/
theorem fieldLe_mid {a b : List Byte} {o n v : Nat} (h : a.length = o) : fieldLe (a ++ (leBytes n v ++ b)) o n = v % 256 ^ n := by
  rw [fieldLe, slice_append_right (by omega), h, Nat.sub_self, slice_append_left (by simp)]
  have : slice (leBytes n v) 0 n = leBytes n v := by
    have := slice_all (leBytes n v); rwa [length_leBytes] at this
  rw [this, ofLe_leBytes]

end Sys2Proof.Machine
end

