-- ==== Sys2Proof/Laws/Map.lean ====
section
/-! SUPPORT. The laws of sparse maps: a read after a write gives the value written, a write leaves every other key
alone, and every operation keeps the canonical form. -/

namespace Sys2Proof.Machine

variable {α : Type} [DecidableEq α] {d : Nat → α}

theorem mem_mapSet {m : List (Nat × α)} {k : Nat} {v : α} {e : Nat × α} (h : e ∈ mapSet d m k v) :
    e ∈ m ∨ (e = (k, v) ∧ v ≠ d k) := by
  induction m with
  | nil =>
    simp only [mapSet] at h
    split at h <;> simp_all
  | cons x t ih =>
    obtain ⟨a, w⟩ := x
    simp only [mapSet] at h
    split at h
    · rcases List.mem_cons.1 h with h | h
      · exact .inl (by simp [h])
      · rcases ih h with h | h
        · exact .inl (by simp [h])
        · exact .inr h
    · split at h <;> split at h <;> simp_all <;> tauto

omit [DecidableEq α] in
theorem mapGet_of_lt {m : List (Nat × α)} {k : Nat} (h : ∀ e ∈ m, k < e.1) : mapGet d m k = d k := by
  induction m with
  | nil => rfl
  | cons x t ih =>
    have hx := h x (by simp)
    rw [mapGet, if_neg (by omega)]
    exact ih fun e he => h e (by simp [he])

/-- Read after write, on a map whose keys strictly rise. -/
theorem mapGet_mapSet {m : List (Nat × α)} (hm : m.Pairwise (fun p q => p.1 < q.1)) (k j : Nat) (v : α) :
    mapGet d (mapSet d m k v) j = if j = k then v else mapGet d m j := by
  induction m with
  | nil =>
    simp only [mapSet]
    split
    · split <;> simp_all [mapGet]
    · simp only [mapGet, eq_comm (a := k)]
  | cons x t ih =>
    obtain ⟨a, w⟩ := x
    obtain ⟨h1, h2⟩ := List.pairwise_cons.1 hm
    simp only [mapSet]
    split
    · simp only [mapGet, ih h2]
      split <;> split <;> first | rfl | omega
    · split
      · subst a
        split
        · by_cases hj : j = k
          · subst j
            simp [*, mapGet_of_lt (d := d) h1]
          · rw [if_neg hj, mapGet, if_neg (Ne.symm hj)]
        · simp only [mapGet, eq_comm (a := k)]
          split <;> rfl
      · split
        · by_cases hj : j = k
          · subst j
            rw [if_pos rfl, mapGet_of_lt]
            · exact Eq.symm ‹_›
            · intro e he
              rcases List.mem_cons.1 he with he | he
              · subst he; omega
              · have := h1 e he
                simp only at this
                omega
          · rw [if_neg hj]
        · simp only [mapGet, eq_comm (a := k)]

theorem mapSet_wf {m : List (Nat × α)} (hm : mapWf d m) (k : Nat) (v : α) : mapWf d (mapSet d m k v) := by
  obtain ⟨hs, hd⟩ := hm
  constructor
  · clear hd
    induction m with
    | nil => simp only [mapSet]; split <;> simp
    | cons x t ih =>
      obtain ⟨a, w⟩ := x
      obtain ⟨h1, h2⟩ := List.pairwise_cons.1 hs
      simp only [mapSet]
      split
      · refine List.pairwise_cons.2 ⟨fun e he => ?_, ih h2⟩
        rcases mem_mapSet he with he | ⟨he, -⟩
        · exact h1 e he
        · subst he; assumption
      · split
        · subst a
          split
          · exact h2
          · exact List.pairwise_cons.2 ⟨h1, h2⟩
        · split
          · exact hs
          · refine List.pairwise_cons.2 ⟨fun e he => ?_, hs⟩
            rcases List.mem_cons.1 he with he | he
            · subst he; simp only; omega
            · have := h1 e he; simp only at this ⊢; omega
  · intro e he
    rcases mem_mapSet he with he | ⟨he, hv⟩
    · exact hd e he
    · subst he; exact hv

theorem mapDrop_wf {m : List (Nat × α)} (hm : mapWf d m) (p : Nat → Bool) : mapWf d (mapDrop p m) :=
  ⟨hm.1.filter _, fun e he => hm.2 e (List.mem_filter.1 he).1⟩

theorem mapSetRun_wf {m : List (Nat × α)} (hm : mapWf d m) (k : Nat) (l : List α) : mapWf d (mapSetRun d m k l) := by
  induction l generalizing m k with
  | nil => exact hm
  | cons v t ih => exact ih (mapSet_wf hm k v) (k + 1)

/-- Read after a run of writes. -/
theorem mapGet_mapSetRun {m : List (Nat × α)} (hm : mapWf d m) (k j : Nat) (l : List α) :
    mapGet d (mapSetRun d m k l) j = if k ≤ j ∧ j < k + l.length then l.getD (j - k) (d j) else mapGet d m j := by
  induction l generalizing m k with
  | nil => simp [mapSetRun]
  | cons v t ih =>
    rw [mapSetRun, ih (mapSet_wf hm k v), mapGet_mapSet hm.1]
    simp only [List.length_cons]
    by_cases h : j = k
    · subst j; simp
    · by_cases h' : k + 1 ≤ j ∧ j < k + 1 + t.length
      · rw [if_pos h', if_pos (by omega), show j - k = (j - (k + 1)) + 1 by omega, List.getD_cons_succ]
      · rw [if_neg h', if_neg h, if_neg (by omega)]

omit [DecidableEq α] in
theorem mapGet_mapDrop (m : List (Nat × α)) (p : Nat → Bool) (k : Nat) :
    mapGet d (mapDrop p m) k = if p k then d k else mapGet d m k := by
  induction m with
  | nil => simp [mapDrop, mapGet]
  | cons x t ih =>
    obtain ⟨a, w⟩ := x
    unfold mapDrop at ih ⊢
    by_cases h : a = k
    · subst a
      by_cases hp : p k <;> simp_all [mapGet]
    · by_cases hp : p a <;> simp_all [mapGet]

/-- Two maps in canonical form that read alike everywhere are the same list. -/
theorem map_ext {m n : List (Nat × α)} (hm : mapWf d m) (hn : mapWf d n)
    (h : ∀ k, mapGet d m k = mapGet d n k) : m = n := by
  induction m generalizing n with
  | nil =>
    cases n with
    | nil => rfl
    | cons y u =>
      have := h y.1
      simp [mapGet] at this
      exact absurd this.symm (hn.2 y (by simp))
  | cons x t ih =>
    obtain ⟨hx, ht⟩ := List.pairwise_cons.1 hm.1
    cases n with
    | nil =>
      have := h x.1
      simp [mapGet] at this
      exact absurd this (hm.2 x (by simp))
    | cons y u =>
      obtain ⟨hy, hu⟩ := List.pairwise_cons.1 hn.1
      have key : x.1 = y.1 := by
        rcases Nat.lt_trichotomy x.1 y.1 with hl | hl | hl
        · have := h x.1
          rw [mapGet, if_pos rfl, mapGet_of_lt] at this
          · exact absurd this (hm.2 x (by simp))
          · intro e he
            rcases List.mem_cons.1 he with he | he
            · subst he; exact hl
            · exact lt_trans hl (hy e he)
        · exact hl
        · have := h y.1
          rw [mapGet_of_lt, mapGet, if_pos rfl] at this
          · exact absurd this.symm (hn.2 y (by simp))
          · intro e he
            rcases List.mem_cons.1 he with he | he
            · subst he; exact hl
            · exact lt_trans hl (hx e he)
      have val : x.2 = y.2 := by
        have := h x.1
        rw [mapGet, if_pos rfl, mapGet, if_pos key.symm] at this
        exact this
      have hxy : x = y := Prod.ext key val
      subst hxy
      congr 1
      refine ih ⟨ht, fun e he => hm.2 e (by simp [he])⟩ ⟨hu, fun e he => hn.2 e (by simp [he])⟩ fun k => ?_
      by_cases hk : k = x.1
      · subst hk
        rw [mapGet_of_lt hx, mapGet_of_lt hy]
      · have := h k
        rwa [mapGet, if_neg (Ne.symm hk), mapGet, if_neg (Ne.symm hk)] at this

end Sys2Proof.Machine
end

