-- ==== Sys2Proof/Laws/State.lean ====
section
/-! SUPPORT. What each elementary update leaves alone, field by field, and what the field it writes becomes. -/

namespace Sys2Proof.Machine
open Sys2Proof

@[simp] theorem State.setReg_mem (s : State) (a v : Nat) : (s.setReg a v).mem = s.mem := rfl
@[simp] theorem State.setReg_bad (s : State) (a v : Nat) : (s.setReg a v).bad = s.bad := rfl
@[simp] theorem State.setReg_failing (s : State) (a v : Nat) : (s.setReg a v).failing = s.failing := rfl
@[simp] theorem State.setReg_nv (s : State) (a v : Nat) : (s.setReg a v).nv = s.nv := rfl
@[simp] theorem State.setReg_sigs (s : State) (a v : Nat) : (s.setReg a v).sigs = s.sigs := rfl
@[simp] theorem State.setReg_pkg (s : State) (a v : Nat) : (s.setReg a v).pkg = s.pkg := rfl
@[simp] theorem State.setReg_mcw (s : State) (a v : Nat) : (s.setReg a v).mcw = s.mcw := rfl
@[simp] theorem State.setReg_mce (s : State) (a v : Nat) : (s.setReg a v).mce = s.mce := rfl
@[simp] theorem State.setReg_cores (s : State) (a v : Nat) : (s.setReg a v).cores = s.cores := rfl
@[simp] theorem State.setReg_ports (s : State) (a v : Nat) : (s.setReg a v).ports = s.ports := rfl
@[simp] theorem State.setReg_fab (s : State) (a v : Nat) : (s.setReg a v).fab = s.fab := rfl
@[simp] theorem State.setReg_job (s : State) (a v : Nat) : (s.setReg a v).job = s.job := rfl
@[simp] theorem State.setReg_stp (s : State) (a v : Nat) : (s.setReg a v).stp = s.stp := rfl
@[simp] theorem State.setReg_hl (s : State) (a v : Nat) : (s.setReg a v).hl = s.hl := rfl
@[simp] theorem State.setReg_pwr (s : State) (a v : Nat) : (s.setReg a v).pwr = s.pwr := rfl
@[simp] theorem State.setReg_sec (s : State) (a v : Nat) : (s.setReg a v).sec = s.sec := rfl
@[simp] theorem State.setReg_flocks (s : State) (a v : Nat) : (s.setReg a v).flocks = s.flocks := rfl
@[simp] theorem State.setReg_outbox (s : State) (a v : Nat) : (s.setReg a v).outbox = s.outbox := rfl
@[simp] theorem State.setReg_free (s : State) (a v : Nat) : (s.setReg a v).free = s.free := rfl
@[simp] theorem State.setReg_pending (s : State) (a v : Nat) : (s.setReg a v).pending = s.pending := rfl

@[simp] theorem State.setFld_mem (s : State) (a lo w x : Nat) : (s.setFld a lo w x).mem = s.mem := rfl
@[simp] theorem State.setFld_bad (s : State) (a lo w x : Nat) : (s.setFld a lo w x).bad = s.bad := rfl
@[simp] theorem State.setFld_failing (s : State) (a lo w x : Nat) : (s.setFld a lo w x).failing = s.failing := rfl
@[simp] theorem State.setFld_nv (s : State) (a lo w x : Nat) : (s.setFld a lo w x).nv = s.nv := rfl
@[simp] theorem State.setFld_sigs (s : State) (a lo w x : Nat) : (s.setFld a lo w x).sigs = s.sigs := rfl
@[simp] theorem State.setFld_pkg (s : State) (a lo w x : Nat) : (s.setFld a lo w x).pkg = s.pkg := rfl
@[simp] theorem State.setFld_mcw (s : State) (a lo w x : Nat) : (s.setFld a lo w x).mcw = s.mcw := rfl
@[simp] theorem State.setFld_mce (s : State) (a lo w x : Nat) : (s.setFld a lo w x).mce = s.mce := rfl
@[simp] theorem State.setFld_cores (s : State) (a lo w x : Nat) : (s.setFld a lo w x).cores = s.cores := rfl
@[simp] theorem State.setFld_ports (s : State) (a lo w x : Nat) : (s.setFld a lo w x).ports = s.ports := rfl
@[simp] theorem State.setFld_fab (s : State) (a lo w x : Nat) : (s.setFld a lo w x).fab = s.fab := rfl
@[simp] theorem State.setFld_job (s : State) (a lo w x : Nat) : (s.setFld a lo w x).job = s.job := rfl
@[simp] theorem State.setFld_stp (s : State) (a lo w x : Nat) : (s.setFld a lo w x).stp = s.stp := rfl
@[simp] theorem State.setFld_hl (s : State) (a lo w x : Nat) : (s.setFld a lo w x).hl = s.hl := rfl
@[simp] theorem State.setFld_pwr (s : State) (a lo w x : Nat) : (s.setFld a lo w x).pwr = s.pwr := rfl
@[simp] theorem State.setFld_sec (s : State) (a lo w x : Nat) : (s.setFld a lo w x).sec = s.sec := rfl
@[simp] theorem State.setFld_flocks (s : State) (a lo w x : Nat) : (s.setFld a lo w x).flocks = s.flocks := rfl
@[simp] theorem State.setFld_outbox (s : State) (a lo w x : Nat) : (s.setFld a lo w x).outbox = s.outbox := rfl
@[simp] theorem State.setFld_free (s : State) (a lo w x : Nat) : (s.setFld a lo w x).free = s.free := rfl
@[simp] theorem State.setFld_pending (s : State) (a lo w x : Nat) : (s.setFld a lo w x).pending = s.pending := rfl

@[simp] theorem State.setCfld_mem (s : State) (n o lo w x : Nat) : (s.setCfld n o lo w x).mem = s.mem := rfl
@[simp] theorem State.setCfld_bad (s : State) (n o lo w x : Nat) : (s.setCfld n o lo w x).bad = s.bad := rfl
@[simp] theorem State.setCfld_failing (s : State) (n o lo w x : Nat) : (s.setCfld n o lo w x).failing = s.failing := rfl
@[simp] theorem State.setCfld_nv (s : State) (n o lo w x : Nat) : (s.setCfld n o lo w x).nv = s.nv := rfl
@[simp] theorem State.setCfld_sigs (s : State) (n o lo w x : Nat) : (s.setCfld n o lo w x).sigs = s.sigs := rfl
@[simp] theorem State.setCfld_pkg (s : State) (n o lo w x : Nat) : (s.setCfld n o lo w x).pkg = s.pkg := rfl
@[simp] theorem State.setCfld_mcw (s : State) (n o lo w x : Nat) : (s.setCfld n o lo w x).mcw = s.mcw := rfl
@[simp] theorem State.setCfld_mce (s : State) (n o lo w x : Nat) : (s.setCfld n o lo w x).mce = s.mce := rfl
@[simp] theorem State.setCfld_cores (s : State) (n o lo w x : Nat) : (s.setCfld n o lo w x).cores = s.cores := rfl
@[simp] theorem State.setCfld_ports (s : State) (n o lo w x : Nat) : (s.setCfld n o lo w x).ports = s.ports := rfl
@[simp] theorem State.setCfld_fab (s : State) (n o lo w x : Nat) : (s.setCfld n o lo w x).fab = s.fab := rfl
@[simp] theorem State.setCfld_job (s : State) (n o lo w x : Nat) : (s.setCfld n o lo w x).job = s.job := rfl
@[simp] theorem State.setCfld_stp (s : State) (n o lo w x : Nat) : (s.setCfld n o lo w x).stp = s.stp := rfl
@[simp] theorem State.setCfld_hl (s : State) (n o lo w x : Nat) : (s.setCfld n o lo w x).hl = s.hl := rfl
@[simp] theorem State.setCfld_pwr (s : State) (n o lo w x : Nat) : (s.setCfld n o lo w x).pwr = s.pwr := rfl
@[simp] theorem State.setCfld_sec (s : State) (n o lo w x : Nat) : (s.setCfld n o lo w x).sec = s.sec := rfl
@[simp] theorem State.setCfld_flocks (s : State) (n o lo w x : Nat) : (s.setCfld n o lo w x).flocks = s.flocks := rfl
@[simp] theorem State.setCfld_outbox (s : State) (n o lo w x : Nat) : (s.setCfld n o lo w x).outbox = s.outbox := rfl
@[simp] theorem State.setCfld_free (s : State) (n o lo w x : Nat) : (s.setCfld n o lo w x).free = s.free := rfl
@[simp] theorem State.setCfld_pending (s : State) (n o lo w x : Nat) : (s.setCfld n o lo w x).pending = s.pending := rfl

@[simp] theorem State.setLfld_mem (s : State) (m : Mc) (lo w x : Nat) : (s.setLfld m lo w x).mem = s.mem := rfl
@[simp] theorem State.setLfld_bad (s : State) (m : Mc) (lo w x : Nat) : (s.setLfld m lo w x).bad = s.bad := rfl
@[simp] theorem State.setLfld_failing (s : State) (m : Mc) (lo w x : Nat) : (s.setLfld m lo w x).failing = s.failing := rfl
@[simp] theorem State.setLfld_nv (s : State) (m : Mc) (lo w x : Nat) : (s.setLfld m lo w x).nv = s.nv := rfl
@[simp] theorem State.setLfld_sigs (s : State) (m : Mc) (lo w x : Nat) : (s.setLfld m lo w x).sigs = s.sigs := rfl
@[simp] theorem State.setLfld_pkg (s : State) (m : Mc) (lo w x : Nat) : (s.setLfld m lo w x).pkg = s.pkg := rfl
@[simp] theorem State.setLfld_mcw (s : State) (m : Mc) (lo w x : Nat) : (s.setLfld m lo w x).mcw = s.mcw := rfl
@[simp] theorem State.setLfld_mce (s : State) (m : Mc) (lo w x : Nat) : (s.setLfld m lo w x).mce = s.mce := rfl
@[simp] theorem State.setLfld_cores (s : State) (m : Mc) (lo w x : Nat) : (s.setLfld m lo w x).cores = s.cores := rfl
@[simp] theorem State.setLfld_ports (s : State) (m : Mc) (lo w x : Nat) : (s.setLfld m lo w x).ports = s.ports := rfl
@[simp] theorem State.setLfld_fab (s : State) (m : Mc) (lo w x : Nat) : (s.setLfld m lo w x).fab = s.fab := rfl
@[simp] theorem State.setLfld_job (s : State) (m : Mc) (lo w x : Nat) : (s.setLfld m lo w x).job = s.job := rfl
@[simp] theorem State.setLfld_stp (s : State) (m : Mc) (lo w x : Nat) : (s.setLfld m lo w x).stp = s.stp := rfl
@[simp] theorem State.setLfld_hl (s : State) (m : Mc) (lo w x : Nat) : (s.setLfld m lo w x).hl = s.hl := rfl
@[simp] theorem State.setLfld_pwr (s : State) (m : Mc) (lo w x : Nat) : (s.setLfld m lo w x).pwr = s.pwr := rfl
@[simp] theorem State.setLfld_sec (s : State) (m : Mc) (lo w x : Nat) : (s.setLfld m lo w x).sec = s.sec := rfl
@[simp] theorem State.setLfld_flocks (s : State) (m : Mc) (lo w x : Nat) : (s.setLfld m lo w x).flocks = s.flocks := rfl
@[simp] theorem State.setLfld_outbox (s : State) (m : Mc) (lo w x : Nat) : (s.setLfld m lo w x).outbox = s.outbox := rfl
@[simp] theorem State.setLfld_free (s : State) (m : Mc) (lo w x : Nat) : (s.setLfld m lo w x).free = s.free := rfl
@[simp] theorem State.setLfld_pending (s : State) (m : Mc) (lo w x : Nat) : (s.setLfld m lo w x).pending = s.pending := rfl

@[simp] theorem State.setCstate_mem (s : State) (n v : Nat) : (s.setCstate n v).mem = s.mem := rfl
@[simp] theorem State.setCstate_bad (s : State) (n v : Nat) : (s.setCstate n v).bad = s.bad := rfl
@[simp] theorem State.setCstate_failing (s : State) (n v : Nat) : (s.setCstate n v).failing = s.failing := rfl
@[simp] theorem State.setCstate_nv (s : State) (n v : Nat) : (s.setCstate n v).nv = s.nv := rfl
@[simp] theorem State.setCstate_sigs (s : State) (n v : Nat) : (s.setCstate n v).sigs = s.sigs := rfl
@[simp] theorem State.setCstate_pkg (s : State) (n v : Nat) : (s.setCstate n v).pkg = s.pkg := rfl
@[simp] theorem State.setCstate_mcw (s : State) (n v : Nat) : (s.setCstate n v).mcw = s.mcw := rfl
@[simp] theorem State.setCstate_mce (s : State) (n v : Nat) : (s.setCstate n v).mce = s.mce := rfl
@[simp] theorem State.setCstate_cores (s : State) (n v : Nat) : (s.setCstate n v).cores = s.cores := rfl
@[simp] theorem State.setCstate_ports (s : State) (n v : Nat) : (s.setCstate n v).ports = s.ports := rfl
@[simp] theorem State.setCstate_fab (s : State) (n v : Nat) : (s.setCstate n v).fab = s.fab := rfl
@[simp] theorem State.setCstate_job (s : State) (n v : Nat) : (s.setCstate n v).job = s.job := rfl
@[simp] theorem State.setCstate_stp (s : State) (n v : Nat) : (s.setCstate n v).stp = s.stp := rfl
@[simp] theorem State.setCstate_hl (s : State) (n v : Nat) : (s.setCstate n v).hl = s.hl := rfl
@[simp] theorem State.setCstate_pwr (s : State) (n v : Nat) : (s.setCstate n v).pwr = s.pwr := rfl
@[simp] theorem State.setCstate_sec (s : State) (n v : Nat) : (s.setCstate n v).sec = s.sec := rfl
@[simp] theorem State.setCstate_flocks (s : State) (n v : Nat) : (s.setCstate n v).flocks = s.flocks := rfl
@[simp] theorem State.setCstate_outbox (s : State) (n v : Nat) : (s.setCstate n v).outbox = s.outbox := rfl
@[simp] theorem State.setCstate_free (s : State) (n v : Nat) : (s.setCstate n v).free = s.free := rfl
@[simp] theorem State.setCstate_pending (s : State) (n v : Nat) : (s.setCstate n v).pending = s.pending := rfl

@[simp] theorem State.setBu_mem (s : State) (v : Nat) : (s.setBu v).mem = s.mem := rfl
@[simp] theorem State.setBu_bad (s : State) (v : Nat) : (s.setBu v).bad = s.bad := rfl
@[simp] theorem State.setBu_failing (s : State) (v : Nat) : (s.setBu v).failing = s.failing := rfl
@[simp] theorem State.setBu_nv (s : State) (v : Nat) : (s.setBu v).nv = s.nv := rfl
@[simp] theorem State.setBu_sigs (s : State) (v : Nat) : (s.setBu v).sigs = s.sigs := rfl
@[simp] theorem State.setBu_pkg (s : State) (v : Nat) : (s.setBu v).pkg = s.pkg := rfl
@[simp] theorem State.setBu_mcw (s : State) (v : Nat) : (s.setBu v).mcw = s.mcw := rfl
@[simp] theorem State.setBu_mce (s : State) (v : Nat) : (s.setBu v).mce = s.mce := rfl
@[simp] theorem State.setBu_cores (s : State) (v : Nat) : (s.setBu v).cores = s.cores := rfl
@[simp] theorem State.setBu_ports (s : State) (v : Nat) : (s.setBu v).ports = s.ports := rfl
@[simp] theorem State.setBu_fab (s : State) (v : Nat) : (s.setBu v).fab = s.fab := rfl
@[simp] theorem State.setBu_job (s : State) (v : Nat) : (s.setBu v).job = s.job := rfl
@[simp] theorem State.setBu_stp (s : State) (v : Nat) : (s.setBu v).stp = s.stp := rfl
@[simp] theorem State.setBu_hl (s : State) (v : Nat) : (s.setBu v).hl = s.hl := rfl
@[simp] theorem State.setBu_pwr (s : State) (v : Nat) : (s.setBu v).pwr = s.pwr := rfl
@[simp] theorem State.setBu_sec (s : State) (v : Nat) : (s.setBu v).sec = s.sec := rfl
@[simp] theorem State.setBu_flocks (s : State) (v : Nat) : (s.setBu v).flocks = s.flocks := rfl
@[simp] theorem State.setBu_outbox (s : State) (v : Nat) : (s.setBu v).outbox = s.outbox := rfl
@[simp] theorem State.setBu_free (s : State) (v : Nat) : (s.setBu v).free = s.free := rfl
@[simp] theorem State.setBu_pending (s : State) (v : Nat) : (s.setBu v).pending = s.pending := rfl

@[simp] theorem State.addFld_mem (s : State) (a lo w n : Nat) : (s.addFld a lo w n).mem = s.mem := rfl
@[simp] theorem State.addFld_bad (s : State) (a lo w n : Nat) : (s.addFld a lo w n).bad = s.bad := rfl
@[simp] theorem State.addFld_failing (s : State) (a lo w n : Nat) : (s.addFld a lo w n).failing = s.failing := rfl
@[simp] theorem State.addFld_nv (s : State) (a lo w n : Nat) : (s.addFld a lo w n).nv = s.nv := rfl
@[simp] theorem State.addFld_sigs (s : State) (a lo w n : Nat) : (s.addFld a lo w n).sigs = s.sigs := rfl
@[simp] theorem State.addFld_pkg (s : State) (a lo w n : Nat) : (s.addFld a lo w n).pkg = s.pkg := rfl
@[simp] theorem State.addFld_mcw (s : State) (a lo w n : Nat) : (s.addFld a lo w n).mcw = s.mcw := rfl
@[simp] theorem State.addFld_mce (s : State) (a lo w n : Nat) : (s.addFld a lo w n).mce = s.mce := rfl
@[simp] theorem State.addFld_cores (s : State) (a lo w n : Nat) : (s.addFld a lo w n).cores = s.cores := rfl
@[simp] theorem State.addFld_ports (s : State) (a lo w n : Nat) : (s.addFld a lo w n).ports = s.ports := rfl
@[simp] theorem State.addFld_fab (s : State) (a lo w n : Nat) : (s.addFld a lo w n).fab = s.fab := rfl
@[simp] theorem State.addFld_job (s : State) (a lo w n : Nat) : (s.addFld a lo w n).job = s.job := rfl
@[simp] theorem State.addFld_stp (s : State) (a lo w n : Nat) : (s.addFld a lo w n).stp = s.stp := rfl
@[simp] theorem State.addFld_hl (s : State) (a lo w n : Nat) : (s.addFld a lo w n).hl = s.hl := rfl
@[simp] theorem State.addFld_pwr (s : State) (a lo w n : Nat) : (s.addFld a lo w n).pwr = s.pwr := rfl
@[simp] theorem State.addFld_sec (s : State) (a lo w n : Nat) : (s.addFld a lo w n).sec = s.sec := rfl
@[simp] theorem State.addFld_flocks (s : State) (a lo w n : Nat) : (s.addFld a lo w n).flocks = s.flocks := rfl
@[simp] theorem State.addFld_outbox (s : State) (a lo w n : Nat) : (s.addFld a lo w n).outbox = s.outbox := rfl
@[simp] theorem State.addFld_free (s : State) (a lo w n : Nat) : (s.addFld a lo w n).free = s.free := rfl
@[simp] theorem State.addFld_pending (s : State) (a lo w n : Nat) : (s.addFld a lo w n).pending = s.pending := rfl

@[simp] theorem State.addCfld_mem (s : State) (n o lo w x : Nat) : (s.addCfld n o lo w x).mem = s.mem := rfl
@[simp] theorem State.addCfld_bad (s : State) (n o lo w x : Nat) : (s.addCfld n o lo w x).bad = s.bad := rfl
@[simp] theorem State.addCfld_failing (s : State) (n o lo w x : Nat) : (s.addCfld n o lo w x).failing = s.failing := rfl
@[simp] theorem State.addCfld_nv (s : State) (n o lo w x : Nat) : (s.addCfld n o lo w x).nv = s.nv := rfl
@[simp] theorem State.addCfld_sigs (s : State) (n o lo w x : Nat) : (s.addCfld n o lo w x).sigs = s.sigs := rfl
@[simp] theorem State.addCfld_pkg (s : State) (n o lo w x : Nat) : (s.addCfld n o lo w x).pkg = s.pkg := rfl
@[simp] theorem State.addCfld_mcw (s : State) (n o lo w x : Nat) : (s.addCfld n o lo w x).mcw = s.mcw := rfl
@[simp] theorem State.addCfld_mce (s : State) (n o lo w x : Nat) : (s.addCfld n o lo w x).mce = s.mce := rfl
@[simp] theorem State.addCfld_cores (s : State) (n o lo w x : Nat) : (s.addCfld n o lo w x).cores = s.cores := rfl
@[simp] theorem State.addCfld_ports (s : State) (n o lo w x : Nat) : (s.addCfld n o lo w x).ports = s.ports := rfl
@[simp] theorem State.addCfld_fab (s : State) (n o lo w x : Nat) : (s.addCfld n o lo w x).fab = s.fab := rfl
@[simp] theorem State.addCfld_job (s : State) (n o lo w x : Nat) : (s.addCfld n o lo w x).job = s.job := rfl
@[simp] theorem State.addCfld_stp (s : State) (n o lo w x : Nat) : (s.addCfld n o lo w x).stp = s.stp := rfl
@[simp] theorem State.addCfld_hl (s : State) (n o lo w x : Nat) : (s.addCfld n o lo w x).hl = s.hl := rfl
@[simp] theorem State.addCfld_pwr (s : State) (n o lo w x : Nat) : (s.addCfld n o lo w x).pwr = s.pwr := rfl
@[simp] theorem State.addCfld_sec (s : State) (n o lo w x : Nat) : (s.addCfld n o lo w x).sec = s.sec := rfl
@[simp] theorem State.addCfld_flocks (s : State) (n o lo w x : Nat) : (s.addCfld n o lo w x).flocks = s.flocks := rfl
@[simp] theorem State.addCfld_outbox (s : State) (n o lo w x : Nat) : (s.addCfld n o lo w x).outbox = s.outbox := rfl
@[simp] theorem State.addCfld_free (s : State) (n o lo w x : Nat) : (s.addCfld n o lo w x).free = s.free := rfl
@[simp] theorem State.addCfld_pending (s : State) (n o lo w x : Nat) : (s.addCfld n o lo w x).pending = s.pending := rfl

@[simp] theorem State.dropRegs_mem (s : State) (p : Nat → Bool) : (s.dropRegs p).mem = s.mem := rfl
@[simp] theorem State.dropRegs_bad (s : State) (p : Nat → Bool) : (s.dropRegs p).bad = s.bad := rfl
@[simp] theorem State.dropRegs_failing (s : State) (p : Nat → Bool) : (s.dropRegs p).failing = s.failing := rfl
@[simp] theorem State.dropRegs_nv (s : State) (p : Nat → Bool) : (s.dropRegs p).nv = s.nv := rfl
@[simp] theorem State.dropRegs_sigs (s : State) (p : Nat → Bool) : (s.dropRegs p).sigs = s.sigs := rfl
@[simp] theorem State.dropRegs_pkg (s : State) (p : Nat → Bool) : (s.dropRegs p).pkg = s.pkg := rfl
@[simp] theorem State.dropRegs_mcw (s : State) (p : Nat → Bool) : (s.dropRegs p).mcw = s.mcw := rfl
@[simp] theorem State.dropRegs_mce (s : State) (p : Nat → Bool) : (s.dropRegs p).mce = s.mce := rfl
@[simp] theorem State.dropRegs_cores (s : State) (p : Nat → Bool) : (s.dropRegs p).cores = s.cores := rfl
@[simp] theorem State.dropRegs_ports (s : State) (p : Nat → Bool) : (s.dropRegs p).ports = s.ports := rfl
@[simp] theorem State.dropRegs_fab (s : State) (p : Nat → Bool) : (s.dropRegs p).fab = s.fab := rfl
@[simp] theorem State.dropRegs_job (s : State) (p : Nat → Bool) : (s.dropRegs p).job = s.job := rfl
@[simp] theorem State.dropRegs_stp (s : State) (p : Nat → Bool) : (s.dropRegs p).stp = s.stp := rfl
@[simp] theorem State.dropRegs_hl (s : State) (p : Nat → Bool) : (s.dropRegs p).hl = s.hl := rfl
@[simp] theorem State.dropRegs_pwr (s : State) (p : Nat → Bool) : (s.dropRegs p).pwr = s.pwr := rfl
@[simp] theorem State.dropRegs_sec (s : State) (p : Nat → Bool) : (s.dropRegs p).sec = s.sec := rfl
@[simp] theorem State.dropRegs_flocks (s : State) (p : Nat → Bool) : (s.dropRegs p).flocks = s.flocks := rfl
@[simp] theorem State.dropRegs_outbox (s : State) (p : Nat → Bool) : (s.dropRegs p).outbox = s.outbox := rfl
@[simp] theorem State.dropRegs_free (s : State) (p : Nat → Bool) : (s.dropRegs p).free = s.free := rfl
@[simp] theorem State.dropRegs_pending (s : State) (p : Nat → Bool) : (s.dropRegs p).pending = s.pending := rfl

@[simp] theorem State.retire_mem (s : State) (a : Attr) : (s.retire a).mem = s.mem := rfl
@[simp] theorem State.retire_bad (s : State) (a : Attr) : (s.retire a).bad = s.bad := rfl
@[simp] theorem State.retire_failing (s : State) (a : Attr) : (s.retire a).failing = s.failing := rfl
@[simp] theorem State.retire_nv (s : State) (a : Attr) : (s.retire a).nv = s.nv := rfl
@[simp] theorem State.retire_sigs (s : State) (a : Attr) : (s.retire a).sigs = s.sigs := rfl
@[simp] theorem State.retire_pkg (s : State) (a : Attr) : (s.retire a).pkg = s.pkg := rfl
@[simp] theorem State.retire_mcw (s : State) (a : Attr) : (s.retire a).mcw = s.mcw := rfl
@[simp] theorem State.retire_mce (s : State) (a : Attr) : (s.retire a).mce = s.mce := rfl
@[simp] theorem State.retire_cores (s : State) (a : Attr) : (s.retire a).cores = s.cores := rfl
@[simp] theorem State.retire_ports (s : State) (a : Attr) : (s.retire a).ports = s.ports := rfl
@[simp] theorem State.retire_fab (s : State) (a : Attr) : (s.retire a).fab = s.fab := rfl
@[simp] theorem State.retire_job (s : State) (a : Attr) : (s.retire a).job = s.job := rfl
@[simp] theorem State.retire_stp (s : State) (a : Attr) : (s.retire a).stp = s.stp := rfl
@[simp] theorem State.retire_hl (s : State) (a : Attr) : (s.retire a).hl = s.hl := rfl
@[simp] theorem State.retire_pwr (s : State) (a : Attr) : (s.retire a).pwr = s.pwr := rfl
@[simp] theorem State.retire_sec (s : State) (a : Attr) : (s.retire a).sec = s.sec := rfl
@[simp] theorem State.retire_flocks (s : State) (a : Attr) : (s.retire a).flocks = s.flocks := rfl
@[simp] theorem State.retire_outbox (s : State) (a : Attr) : (s.retire a).outbox = s.outbox := rfl
@[simp] theorem State.retire_free (s : State) (a : Attr) : (s.retire a).free = s.free := rfl
@[simp] theorem State.retire_pending (s : State) (a : Attr) : (s.retire a).pending = s.pending := rfl

@[simp] theorem State.emit_regs (s : State) (o : Out) : (s.emit o).regs = s.regs := rfl
@[simp] theorem State.emit_mem (s : State) (o : Out) : (s.emit o).mem = s.mem := rfl
@[simp] theorem State.emit_bad (s : State) (o : Out) : (s.emit o).bad = s.bad := rfl
@[simp] theorem State.emit_failing (s : State) (o : Out) : (s.emit o).failing = s.failing := rfl
@[simp] theorem State.emit_nv (s : State) (o : Out) : (s.emit o).nv = s.nv := rfl
@[simp] theorem State.emit_sigs (s : State) (o : Out) : (s.emit o).sigs = s.sigs := rfl
@[simp] theorem State.emit_pkg (s : State) (o : Out) : (s.emit o).pkg = s.pkg := rfl
@[simp] theorem State.emit_mcw (s : State) (o : Out) : (s.emit o).mcw = s.mcw := rfl
@[simp] theorem State.emit_mce (s : State) (o : Out) : (s.emit o).mce = s.mce := rfl
@[simp] theorem State.emit_cores (s : State) (o : Out) : (s.emit o).cores = s.cores := rfl
@[simp] theorem State.emit_ports (s : State) (o : Out) : (s.emit o).ports = s.ports := rfl
@[simp] theorem State.emit_fab (s : State) (o : Out) : (s.emit o).fab = s.fab := rfl
@[simp] theorem State.emit_job (s : State) (o : Out) : (s.emit o).job = s.job := rfl
@[simp] theorem State.emit_stp (s : State) (o : Out) : (s.emit o).stp = s.stp := rfl
@[simp] theorem State.emit_hl (s : State) (o : Out) : (s.emit o).hl = s.hl := rfl
@[simp] theorem State.emit_pwr (s : State) (o : Out) : (s.emit o).pwr = s.pwr := rfl
@[simp] theorem State.emit_sec (s : State) (o : Out) : (s.emit o).sec = s.sec := rfl
@[simp] theorem State.emit_flocks (s : State) (o : Out) : (s.emit o).flocks = s.flocks := rfl
@[simp] theorem State.emit_free (s : State) (o : Out) : (s.emit o).free = s.free := rfl
@[simp] theorem State.emit_pending (s : State) (o : Out) : (s.emit o).pending = s.pending := rfl

@[simp] theorem State.store_regs (s : State) (a : Nat) (bs : List Byte) : (s.store a bs).regs = s.regs := rfl
@[simp] theorem State.store_nv (s : State) (a : Nat) (bs : List Byte) : (s.store a bs).nv = s.nv := rfl
@[simp] theorem State.store_sigs (s : State) (a : Nat) (bs : List Byte) : (s.store a bs).sigs = s.sigs := rfl
@[simp] theorem State.store_pkg (s : State) (a : Nat) (bs : List Byte) : (s.store a bs).pkg = s.pkg := rfl
@[simp] theorem State.store_mcw (s : State) (a : Nat) (bs : List Byte) : (s.store a bs).mcw = s.mcw := rfl
@[simp] theorem State.store_mce (s : State) (a : Nat) (bs : List Byte) : (s.store a bs).mce = s.mce := rfl
@[simp] theorem State.store_cores (s : State) (a : Nat) (bs : List Byte) : (s.store a bs).cores = s.cores := rfl
@[simp] theorem State.store_ports (s : State) (a : Nat) (bs : List Byte) : (s.store a bs).ports = s.ports := rfl
@[simp] theorem State.store_fab (s : State) (a : Nat) (bs : List Byte) : (s.store a bs).fab = s.fab := rfl
@[simp] theorem State.store_job (s : State) (a : Nat) (bs : List Byte) : (s.store a bs).job = s.job := rfl
@[simp] theorem State.store_stp (s : State) (a : Nat) (bs : List Byte) : (s.store a bs).stp = s.stp := rfl
@[simp] theorem State.store_hl (s : State) (a : Nat) (bs : List Byte) : (s.store a bs).hl = s.hl := rfl
@[simp] theorem State.store_pwr (s : State) (a : Nat) (bs : List Byte) : (s.store a bs).pwr = s.pwr := rfl
@[simp] theorem State.store_sec (s : State) (a : Nat) (bs : List Byte) : (s.store a bs).sec = s.sec := rfl
@[simp] theorem State.store_flocks (s : State) (a : Nat) (bs : List Byte) : (s.store a bs).flocks = s.flocks := rfl
@[simp] theorem State.store_outbox (s : State) (a : Nat) (bs : List Byte) : (s.store a bs).outbox = s.outbox := rfl
@[simp] theorem State.store_free (s : State) (a : Nat) (bs : List Byte) : (s.store a bs).free = s.free := rfl
@[simp] theorem State.store_failing (s : State) (a : Nat) (bs : List Byte) : (s.store a bs).failing = s.failing := rfl
@[simp] theorem State.store_pending (s : State) (a : Nat) (bs : List Byte) : (s.store a bs).pending = s.pending := rfl

@[simp] theorem State.setPort_regs (s : State) (p : Nat) (v : PortSt) : (s.setPort p v).regs = s.regs := rfl
@[simp] theorem State.setPort_mem (s : State) (p : Nat) (v : PortSt) : (s.setPort p v).mem = s.mem := rfl
@[simp] theorem State.setPort_bad (s : State) (p : Nat) (v : PortSt) : (s.setPort p v).bad = s.bad := rfl
@[simp] theorem State.setPort_failing (s : State) (p : Nat) (v : PortSt) : (s.setPort p v).failing = s.failing := rfl
@[simp] theorem State.setPort_nv (s : State) (p : Nat) (v : PortSt) : (s.setPort p v).nv = s.nv := rfl
@[simp] theorem State.setPort_sigs (s : State) (p : Nat) (v : PortSt) : (s.setPort p v).sigs = s.sigs := rfl
@[simp] theorem State.setPort_pkg (s : State) (p : Nat) (v : PortSt) : (s.setPort p v).pkg = s.pkg := rfl
@[simp] theorem State.setPort_mcw (s : State) (p : Nat) (v : PortSt) : (s.setPort p v).mcw = s.mcw := rfl
@[simp] theorem State.setPort_mce (s : State) (p : Nat) (v : PortSt) : (s.setPort p v).mce = s.mce := rfl
@[simp] theorem State.setPort_cores (s : State) (p : Nat) (v : PortSt) : (s.setPort p v).cores = s.cores := rfl
@[simp] theorem State.setPort_fab (s : State) (p : Nat) (v : PortSt) : (s.setPort p v).fab = s.fab := rfl
@[simp] theorem State.setPort_job (s : State) (p : Nat) (v : PortSt) : (s.setPort p v).job = s.job := rfl
@[simp] theorem State.setPort_stp (s : State) (p : Nat) (v : PortSt) : (s.setPort p v).stp = s.stp := rfl
@[simp] theorem State.setPort_hl (s : State) (p : Nat) (v : PortSt) : (s.setPort p v).hl = s.hl := rfl
@[simp] theorem State.setPort_pwr (s : State) (p : Nat) (v : PortSt) : (s.setPort p v).pwr = s.pwr := rfl
@[simp] theorem State.setPort_sec (s : State) (p : Nat) (v : PortSt) : (s.setPort p v).sec = s.sec := rfl
@[simp] theorem State.setPort_flocks (s : State) (p : Nat) (v : PortSt) : (s.setPort p v).flocks = s.flocks := rfl
@[simp] theorem State.setPort_outbox (s : State) (p : Nat) (v : PortSt) : (s.setPort p v).outbox = s.outbox := rfl
@[simp] theorem State.setPort_free (s : State) (p : Nat) (v : PortSt) : (s.setPort p v).free = s.free := rfl
@[simp] theorem State.setPort_pending (s : State) (p : Nat) (v : PortSt) : (s.setPort p v).pending = s.pending := rfl

@[simp] theorem State.setCore_regs (s : State) (n : Nat) (c : CoreSt) : (s.setCore n c).regs = s.regs := rfl
@[simp] theorem State.setCore_mem (s : State) (n : Nat) (c : CoreSt) : (s.setCore n c).mem = s.mem := rfl
@[simp] theorem State.setCore_bad (s : State) (n : Nat) (c : CoreSt) : (s.setCore n c).bad = s.bad := rfl
@[simp] theorem State.setCore_failing (s : State) (n : Nat) (c : CoreSt) : (s.setCore n c).failing = s.failing := rfl
@[simp] theorem State.setCore_nv (s : State) (n : Nat) (c : CoreSt) : (s.setCore n c).nv = s.nv := rfl
@[simp] theorem State.setCore_sigs (s : State) (n : Nat) (c : CoreSt) : (s.setCore n c).sigs = s.sigs := rfl
@[simp] theorem State.setCore_pkg (s : State) (n : Nat) (c : CoreSt) : (s.setCore n c).pkg = s.pkg := rfl
@[simp] theorem State.setCore_mcw (s : State) (n : Nat) (c : CoreSt) : (s.setCore n c).mcw = s.mcw := rfl
@[simp] theorem State.setCore_mce (s : State) (n : Nat) (c : CoreSt) : (s.setCore n c).mce = s.mce := rfl
@[simp] theorem State.setCore_ports (s : State) (n : Nat) (c : CoreSt) : (s.setCore n c).ports = s.ports := rfl
@[simp] theorem State.setCore_fab (s : State) (n : Nat) (c : CoreSt) : (s.setCore n c).fab = s.fab := rfl
@[simp] theorem State.setCore_job (s : State) (n : Nat) (c : CoreSt) : (s.setCore n c).job = s.job := rfl
@[simp] theorem State.setCore_stp (s : State) (n : Nat) (c : CoreSt) : (s.setCore n c).stp = s.stp := rfl
@[simp] theorem State.setCore_hl (s : State) (n : Nat) (c : CoreSt) : (s.setCore n c).hl = s.hl := rfl
@[simp] theorem State.setCore_pwr (s : State) (n : Nat) (c : CoreSt) : (s.setCore n c).pwr = s.pwr := rfl
@[simp] theorem State.setCore_sec (s : State) (n : Nat) (c : CoreSt) : (s.setCore n c).sec = s.sec := rfl
@[simp] theorem State.setCore_flocks (s : State) (n : Nat) (c : CoreSt) : (s.setCore n c).flocks = s.flocks := rfl
@[simp] theorem State.setCore_outbox (s : State) (n : Nat) (c : CoreSt) : (s.setCore n c).outbox = s.outbox := rfl
@[simp] theorem State.setCore_free (s : State) (n : Nat) (c : CoreSt) : (s.setCore n c).free = s.free := rfl
@[simp] theorem State.setCore_pending (s : State) (n : Nat) (c : CoreSt) : (s.setCore n c).pending = s.pending := rfl

@[simp] theorem State.sramWrite_regs (s : State) (n off : Nat) (bs : List Byte) : (s.sramWrite n off bs).regs = s.regs := rfl
@[simp] theorem State.sramWrite_mem (s : State) (n off : Nat) (bs : List Byte) : (s.sramWrite n off bs).mem = s.mem := rfl
@[simp] theorem State.sramWrite_bad (s : State) (n off : Nat) (bs : List Byte) : (s.sramWrite n off bs).bad = s.bad := rfl
@[simp] theorem State.sramWrite_failing (s : State) (n off : Nat) (bs : List Byte) : (s.sramWrite n off bs).failing = s.failing := rfl
@[simp] theorem State.sramWrite_nv (s : State) (n off : Nat) (bs : List Byte) : (s.sramWrite n off bs).nv = s.nv := rfl
@[simp] theorem State.sramWrite_sigs (s : State) (n off : Nat) (bs : List Byte) : (s.sramWrite n off bs).sigs = s.sigs := rfl
@[simp] theorem State.sramWrite_pkg (s : State) (n off : Nat) (bs : List Byte) : (s.sramWrite n off bs).pkg = s.pkg := rfl
@[simp] theorem State.sramWrite_mcw (s : State) (n off : Nat) (bs : List Byte) : (s.sramWrite n off bs).mcw = s.mcw := rfl
@[simp] theorem State.sramWrite_mce (s : State) (n off : Nat) (bs : List Byte) : (s.sramWrite n off bs).mce = s.mce := rfl
@[simp] theorem State.sramWrite_ports (s : State) (n off : Nat) (bs : List Byte) : (s.sramWrite n off bs).ports = s.ports := rfl
@[simp] theorem State.sramWrite_fab (s : State) (n off : Nat) (bs : List Byte) : (s.sramWrite n off bs).fab = s.fab := rfl
@[simp] theorem State.sramWrite_job (s : State) (n off : Nat) (bs : List Byte) : (s.sramWrite n off bs).job = s.job := rfl
@[simp] theorem State.sramWrite_stp (s : State) (n off : Nat) (bs : List Byte) : (s.sramWrite n off bs).stp = s.stp := rfl
@[simp] theorem State.sramWrite_hl (s : State) (n off : Nat) (bs : List Byte) : (s.sramWrite n off bs).hl = s.hl := rfl
@[simp] theorem State.sramWrite_pwr (s : State) (n off : Nat) (bs : List Byte) : (s.sramWrite n off bs).pwr = s.pwr := rfl
@[simp] theorem State.sramWrite_sec (s : State) (n off : Nat) (bs : List Byte) : (s.sramWrite n off bs).sec = s.sec := rfl
@[simp] theorem State.sramWrite_flocks (s : State) (n off : Nat) (bs : List Byte) : (s.sramWrite n off bs).flocks = s.flocks := rfl
@[simp] theorem State.sramWrite_outbox (s : State) (n off : Nat) (bs : List Byte) : (s.sramWrite n off bs).outbox = s.outbox := rfl
@[simp] theorem State.sramWrite_free (s : State) (n off : Nat) (bs : List Byte) : (s.sramWrite n off bs).free = s.free := rfl
@[simp] theorem State.sramWrite_pending (s : State) (n off : Nat) (bs : List Byte) : (s.sramWrite n off bs).pending = s.pending := rfl

@[simp] theorem State.setSq_regs (s : State) (q : Nat) (v : SqSt) : (s.setSq q v).regs = s.regs := rfl
@[simp] theorem State.setSq_mem (s : State) (q : Nat) (v : SqSt) : (s.setSq q v).mem = s.mem := rfl
@[simp] theorem State.setSq_bad (s : State) (q : Nat) (v : SqSt) : (s.setSq q v).bad = s.bad := rfl
@[simp] theorem State.setSq_failing (s : State) (q : Nat) (v : SqSt) : (s.setSq q v).failing = s.failing := rfl
@[simp] theorem State.setSq_nv (s : State) (q : Nat) (v : SqSt) : (s.setSq q v).nv = s.nv := rfl
@[simp] theorem State.setSq_sigs (s : State) (q : Nat) (v : SqSt) : (s.setSq q v).sigs = s.sigs := rfl
@[simp] theorem State.setSq_pkg (s : State) (q : Nat) (v : SqSt) : (s.setSq q v).pkg = s.pkg := rfl
@[simp] theorem State.setSq_mcw (s : State) (q : Nat) (v : SqSt) : (s.setSq q v).mcw = s.mcw := rfl
@[simp] theorem State.setSq_mce (s : State) (q : Nat) (v : SqSt) : (s.setSq q v).mce = s.mce := rfl
@[simp] theorem State.setSq_cores (s : State) (q : Nat) (v : SqSt) : (s.setSq q v).cores = s.cores := rfl
@[simp] theorem State.setSq_ports (s : State) (q : Nat) (v : SqSt) : (s.setSq q v).ports = s.ports := rfl
@[simp] theorem State.setSq_fab (s : State) (q : Nat) (v : SqSt) : (s.setSq q v).fab = s.fab := rfl
@[simp] theorem State.setSq_job (s : State) (q : Nat) (v : SqSt) : (s.setSq q v).job = s.job := rfl
@[simp] theorem State.setSq_stp (s : State) (q : Nat) (v : SqSt) : (s.setSq q v).stp = s.stp := rfl
@[simp] theorem State.setSq_pwr (s : State) (q : Nat) (v : SqSt) : (s.setSq q v).pwr = s.pwr := rfl
@[simp] theorem State.setSq_sec (s : State) (q : Nat) (v : SqSt) : (s.setSq q v).sec = s.sec := rfl
@[simp] theorem State.setSq_flocks (s : State) (q : Nat) (v : SqSt) : (s.setSq q v).flocks = s.flocks := rfl
@[simp] theorem State.setSq_outbox (s : State) (q : Nat) (v : SqSt) : (s.setSq q v).outbox = s.outbox := rfl
@[simp] theorem State.setSq_free (s : State) (q : Nat) (v : SqSt) : (s.setSq q v).free = s.free := rfl
@[simp] theorem State.setSq_pending (s : State) (q : Nat) (v : SqSt) : (s.setSq q v).pending = s.pending := rfl

@[simp] theorem State.setCq_regs (s : State) (q : Nat) (v : CqSt) : (s.setCq q v).regs = s.regs := rfl
@[simp] theorem State.setCq_mem (s : State) (q : Nat) (v : CqSt) : (s.setCq q v).mem = s.mem := rfl
@[simp] theorem State.setCq_bad (s : State) (q : Nat) (v : CqSt) : (s.setCq q v).bad = s.bad := rfl
@[simp] theorem State.setCq_failing (s : State) (q : Nat) (v : CqSt) : (s.setCq q v).failing = s.failing := rfl
@[simp] theorem State.setCq_nv (s : State) (q : Nat) (v : CqSt) : (s.setCq q v).nv = s.nv := rfl
@[simp] theorem State.setCq_sigs (s : State) (q : Nat) (v : CqSt) : (s.setCq q v).sigs = s.sigs := rfl
@[simp] theorem State.setCq_pkg (s : State) (q : Nat) (v : CqSt) : (s.setCq q v).pkg = s.pkg := rfl
@[simp] theorem State.setCq_mcw (s : State) (q : Nat) (v : CqSt) : (s.setCq q v).mcw = s.mcw := rfl
@[simp] theorem State.setCq_mce (s : State) (q : Nat) (v : CqSt) : (s.setCq q v).mce = s.mce := rfl
@[simp] theorem State.setCq_cores (s : State) (q : Nat) (v : CqSt) : (s.setCq q v).cores = s.cores := rfl
@[simp] theorem State.setCq_ports (s : State) (q : Nat) (v : CqSt) : (s.setCq q v).ports = s.ports := rfl
@[simp] theorem State.setCq_fab (s : State) (q : Nat) (v : CqSt) : (s.setCq q v).fab = s.fab := rfl
@[simp] theorem State.setCq_job (s : State) (q : Nat) (v : CqSt) : (s.setCq q v).job = s.job := rfl
@[simp] theorem State.setCq_stp (s : State) (q : Nat) (v : CqSt) : (s.setCq q v).stp = s.stp := rfl
@[simp] theorem State.setCq_pwr (s : State) (q : Nat) (v : CqSt) : (s.setCq q v).pwr = s.pwr := rfl
@[simp] theorem State.setCq_sec (s : State) (q : Nat) (v : CqSt) : (s.setCq q v).sec = s.sec := rfl
@[simp] theorem State.setCq_flocks (s : State) (q : Nat) (v : CqSt) : (s.setCq q v).flocks = s.flocks := rfl
@[simp] theorem State.setCq_outbox (s : State) (q : Nat) (v : CqSt) : (s.setCq q v).outbox = s.outbox := rfl
@[simp] theorem State.setCq_free (s : State) (q : Nat) (v : CqSt) : (s.setCq q v).free = s.free := rfl
@[simp] theorem State.setCq_pending (s : State) (q : Nat) (v : CqSt) : (s.setCq q v).pending = s.pending := rfl

@[simp] theorem State.setMc_regs (s : State) (m : Mc) (v : McSt) : (s.setMc m v).regs = s.regs := by cases m <;> rfl
@[simp] theorem State.setMc_mem (s : State) (m : Mc) (v : McSt) : (s.setMc m v).mem = s.mem := by cases m <;> rfl
@[simp] theorem State.setMc_bad (s : State) (m : Mc) (v : McSt) : (s.setMc m v).bad = s.bad := by cases m <;> rfl
@[simp] theorem State.setMc_failing (s : State) (m : Mc) (v : McSt) : (s.setMc m v).failing = s.failing := by cases m <;> rfl
@[simp] theorem State.setMc_nv (s : State) (m : Mc) (v : McSt) : (s.setMc m v).nv = s.nv := by cases m <;> rfl
@[simp] theorem State.setMc_sigs (s : State) (m : Mc) (v : McSt) : (s.setMc m v).sigs = s.sigs := by cases m <;> rfl
@[simp] theorem State.setMc_pkg (s : State) (m : Mc) (v : McSt) : (s.setMc m v).pkg = s.pkg := by cases m <;> rfl
@[simp] theorem State.setMc_cores (s : State) (m : Mc) (v : McSt) : (s.setMc m v).cores = s.cores := by cases m <;> rfl
@[simp] theorem State.setMc_ports (s : State) (m : Mc) (v : McSt) : (s.setMc m v).ports = s.ports := by cases m <;> rfl
@[simp] theorem State.setMc_fab (s : State) (m : Mc) (v : McSt) : (s.setMc m v).fab = s.fab := by cases m <;> rfl
@[simp] theorem State.setMc_job (s : State) (m : Mc) (v : McSt) : (s.setMc m v).job = s.job := by cases m <;> rfl
@[simp] theorem State.setMc_stp (s : State) (m : Mc) (v : McSt) : (s.setMc m v).stp = s.stp := by cases m <;> rfl
@[simp] theorem State.setMc_hl (s : State) (m : Mc) (v : McSt) : (s.setMc m v).hl = s.hl := by cases m <;> rfl
@[simp] theorem State.setMc_pwr (s : State) (m : Mc) (v : McSt) : (s.setMc m v).pwr = s.pwr := by cases m <;> rfl
@[simp] theorem State.setMc_sec (s : State) (m : Mc) (v : McSt) : (s.setMc m v).sec = s.sec := by cases m <;> rfl
@[simp] theorem State.setMc_flocks (s : State) (m : Mc) (v : McSt) : (s.setMc m v).flocks = s.flocks := by cases m <;> rfl
@[simp] theorem State.setMc_outbox (s : State) (m : Mc) (v : McSt) : (s.setMc m v).outbox = s.outbox := by cases m <;> rfl
@[simp] theorem State.setMc_free (s : State) (m : Mc) (v : McSt) : (s.setMc m v).free = s.free := by cases m <;> rfl
@[simp] theorem State.setMc_pending (s : State) (m : Mc) (v : McSt) : (s.setMc m v).pending = s.pending := by cases m <;> rfl
@[simp] theorem State.mc_setMc (s : State) (m : Mc) (v : McSt) : (s.setMc m v).mc m = v := by cases m <;> rfl
@[simp] theorem State.mc_setMc_other (s : State) (m : Mc) (v : McSt) : (s.setMc m v).mc (mcOther m) = s.mc (mcOther m) := by
  cases m <;> rfl

@[simp] theorem State.setReg_regs (s : State) (a v : Nat) :
    (s.setReg a v).regs = mapSet regDefault s.regs a (BitVec.ofNat 64 v) := rfl
@[simp] theorem State.emit_outbox (s : State) (o : Out) : (s.emit o).outbox = s.outbox ++ [o] := rfl
@[simp] theorem State.store_mem (s : State) (a : Nat) (bs : List Byte) :
    (s.store a bs).mem = mapSetRun memDefault s.mem a bs := rfl

@[simp] theorem State.dropWindow_mem (s : State) (n : Nat) : (s.dropWindow n).mem = s.mem := rfl
@[simp] theorem State.dropWindow_bad (s : State) (n : Nat) : (s.dropWindow n).bad = s.bad := rfl
@[simp] theorem State.dropWindow_failing (s : State) (n : Nat) : (s.dropWindow n).failing = s.failing := rfl
@[simp] theorem State.dropWindow_nv (s : State) (n : Nat) : (s.dropWindow n).nv = s.nv := rfl
@[simp] theorem State.dropWindow_sigs (s : State) (n : Nat) : (s.dropWindow n).sigs = s.sigs := rfl
@[simp] theorem State.dropWindow_pkg (s : State) (n : Nat) : (s.dropWindow n).pkg = s.pkg := rfl
@[simp] theorem State.dropWindow_mcw (s : State) (n : Nat) : (s.dropWindow n).mcw = s.mcw := rfl
@[simp] theorem State.dropWindow_mce (s : State) (n : Nat) : (s.dropWindow n).mce = s.mce := rfl
@[simp] theorem State.dropWindow_ports (s : State) (n : Nat) : (s.dropWindow n).ports = s.ports := rfl
@[simp] theorem State.dropWindow_fab (s : State) (n : Nat) : (s.dropWindow n).fab = s.fab := rfl
@[simp] theorem State.dropWindow_job (s : State) (n : Nat) : (s.dropWindow n).job = s.job := rfl
@[simp] theorem State.dropWindow_stp (s : State) (n : Nat) : (s.dropWindow n).stp = s.stp := rfl
@[simp] theorem State.dropWindow_hl (s : State) (n : Nat) : (s.dropWindow n).hl = s.hl := rfl
@[simp] theorem State.dropWindow_pwr (s : State) (n : Nat) : (s.dropWindow n).pwr = s.pwr := rfl
@[simp] theorem State.dropWindow_sec (s : State) (n : Nat) : (s.dropWindow n).sec = s.sec := rfl
@[simp] theorem State.dropWindow_flocks (s : State) (n : Nat) : (s.dropWindow n).flocks = s.flocks := rfl
@[simp] theorem State.dropWindow_outbox (s : State) (n : Nat) : (s.dropWindow n).outbox = s.outbox := rfl
@[simp] theorem State.dropWindow_free (s : State) (n : Nat) : (s.dropWindow n).free = s.free := rfl
@[simp] theorem State.dropWindow_pending (s : State) (n : Nat) : (s.dropWindow n).pending = s.pending := rfl


end Sys2Proof.Machine
end

