-- ==== Sys2Proof/Laws/Regs.lean ====
section
/-! SUPPORT. Reading registers and their fields after a write: the laws every statement about a register rests on. -/

namespace Sys2Proof.Machine
open Sys2Proof

/-! ### Bit fields -/

theorem bitsOf_lt (v lo w : Nat) : bitsOf v lo w < 2 ^ w := Nat.mod_lt _ (by positivity)

theorem testBit_bitsOf (v lo w i : Nat) : (bitsOf v lo w).testBit i = (decide (i < w) && v.testBit (lo + i)) := by
  rw [bitsOf, Nat.testBit_mod_two_pow, Nat.testBit_div_two_pow, Nat.add_comm]

/-- A word split at a field. -/
theorem bits_split (v lo w : Nat) : v = 2 ^ (lo + w) * (v / 2 ^ (lo + w)) + 2 ^ lo * bitsOf v lo w + v % 2 ^ lo := by
  have h1 := Nat.div_add_mod v (2 ^ lo)
  have h2 := Nat.div_add_mod (v / 2 ^ lo) (2 ^ w)
  rw [Nat.div_div_eq_div_mul, ← pow_add] at h2
  calc v = 2 ^ lo * (v / 2 ^ lo) + v % 2 ^ lo := h1.symm
    _ = 2 ^ lo * (2 ^ w * (v / 2 ^ (lo + w)) + v / 2 ^ lo % 2 ^ w) + v % 2 ^ lo := by rw [h2]
    _ = _ := by rw [bitsOf, pow_add]; ring

theorem putBits_eq (v lo w x : Nat) :
    putBits v lo w x = 2 ^ (lo + w) * (v / 2 ^ (lo + w)) + 2 ^ lo * (x % 2 ^ w) + v % 2 ^ lo := by
  have h := bits_split v lo w
  unfold putBits
  omega

theorem bitsOf_sum {hi mid low lo w : Nat} (hm : mid < 2 ^ w) (hl : low < 2 ^ lo) :
    bitsOf (2 ^ (lo + w) * hi + 2 ^ lo * mid + low) lo w = mid := by
  have : 2 ^ (lo + w) * hi + 2 ^ lo * mid + low = low + 2 ^ lo * (2 ^ w * hi + mid) := by rw [pow_add]; ring
  rw [this, bitsOf, Nat.add_mul_div_left _ _ (by positivity), Nat.div_eq_of_lt hl, Nat.zero_add,
    Nat.mul_add_mod, Nat.mod_eq_of_lt hm]

@[simp] theorem bitsOf_putBits (v lo w x : Nat) : bitsOf (putBits v lo w x) lo w = x % 2 ^ w := by
  rw [putBits_eq]
  exact bitsOf_sum (Nat.mod_lt _ (by positivity)) (Nat.mod_lt _ (by positivity))

theorem testBit_putBits (v lo w x i : Nat) :
    (putBits v lo w x).testBit i = if i < lo then v.testBit i
      else if i < lo + w then x.testBit (i - lo) else v.testBit i := by
  have h : putBits v lo w x = 2 ^ lo * (2 ^ w * (v / 2 ^ (lo + w)) + x % 2 ^ w) + v % 2 ^ lo := by
    rw [putBits_eq, pow_add]; ring
  rw [h, Nat.testBit_two_pow_mul_add _ (Nat.mod_lt _ (by positivity))]
  split
  · rw [Nat.testBit_mod_two_pow]; simp [*]
  · rw [Nat.testBit_two_pow_mul_add _ (Nat.mod_lt _ (by positivity))]
    split
    · rw [if_pos (by omega), Nat.testBit_mod_two_pow]; simp; omega
    · rw [if_neg (by omega), Nat.testBit_div_two_pow]; congr 1; omega

theorem bitsOf_putBits_disjoint {lo w lo' w' : Nat} (h : lo' + w' ≤ lo ∨ lo + w ≤ lo') (v x : Nat) :
    bitsOf (putBits v lo w x) lo' w' = bitsOf v lo' w' := by
  refine Nat.eq_of_testBit_eq fun i => ?_
  rw [testBit_bitsOf, testBit_bitsOf, testBit_putBits]
  by_cases hi : i < w'
  · rcases h with h | h
    · rw [if_pos (by omega)]
    · rw [if_neg (by omega), if_neg (by omega)]
  · simp [hi]

theorem putBits_lt {v lo w n : Nat} (hv : v < 2 ^ n) (hw : lo + w ≤ n) (x : Nat) : putBits v lo w x < 2 ^ n := by
  refine Nat.lt_pow_two_of_testBit _ fun i hi => ?_
  rw [testBit_putBits, if_neg (by omega), if_neg (by omega)]
  exact Nat.testBit_lt_two_pow (lt_of_lt_of_le hv (Nat.pow_le_pow_right (by omega) hi))

/-! ### Registers -/

theorem State.reg_lt (s : State) (a : Nat) : s.reg a < 2 ^ 64 := BitVec.isLt _

theorem State.reg_setReg {s : State} (hs : mapWf regDefault s.regs) (a b v : Nat) :
    (s.setReg a v).reg b = if b = a then v % 2 ^ 64 else s.reg b := by
  simp only [State.reg, State.setReg_regs, mapGet_mapSet hs.1]
  split <;> simp

theorem State.reg_setReg_same {s : State} (hs : mapWf regDefault s.regs) {v : Nat} (a : Nat) (hv : v < 2 ^ 64) :
    (s.setReg a v).reg a = v := by
  rw [reg_setReg hs, if_pos rfl, Nat.mod_eq_of_lt hv]

theorem State.reg_setReg_ne {s : State} (hs : mapWf regDefault s.regs) {a b : Nat} (h : b ≠ a) (v : Nat) :
    (s.setReg a v).reg b = s.reg b := by
  rw [reg_setReg hs, if_neg h]

theorem State.setReg_regsWf {s : State} (hs : mapWf regDefault s.regs) (a v : Nat) :
    mapWf regDefault (s.setReg a v).regs := mapSet_wf hs _ _

theorem State.setFld_regsWf {s : State} (hs : mapWf regDefault s.regs) (a lo w x : Nat) :
    mapWf regDefault (s.setFld a lo w x).regs := mapSet_wf hs _ _

theorem State.addFld_regsWf {s : State} (hs : mapWf regDefault s.regs) (a lo w x : Nat) :
    mapWf regDefault (s.addFld a lo w x).regs := mapSet_wf hs _ _

theorem State.dropRegs_regsWf {s : State} (hs : mapWf regDefault s.regs) (p : Nat → Bool) :
    mapWf regDefault (s.dropRegs p).regs := mapDrop_wf hs p

theorem State.reg_setFld {s : State} (hs : mapWf regDefault s.regs) {lo w : Nat} (hw : lo + w ≤ 64) (a b x : Nat) :
    (s.setFld a lo w x).reg b = if b = a then putBits (s.reg a) lo w x else s.reg b := by
  rw [State.setFld, reg_setReg hs, Nat.mod_eq_of_lt (putBits_lt (s.reg_lt a) hw x)]

theorem State.reg_setFld_ne {s : State} (hs : mapWf regDefault s.regs) {a b : Nat} (h : b ≠ a) (lo w x : Nat) :
    (s.setFld a lo w x).reg b = s.reg b := reg_setReg_ne hs h _

/-- A field reads back what was written to it. -/
theorem State.fld_setFld_same {s : State} (hs : mapWf regDefault s.regs) {lo w : Nat} (hw : lo + w ≤ 64) (a x : Nat) :
    (s.setFld a lo w x).fld a lo w = x % 2 ^ w := by
  rw [State.fld, reg_setFld hs hw, if_pos rfl, bitsOf_putBits]

/-- Writing a field leaves the other fields of its register alone. -/
theorem State.fld_setFld_disjoint {s : State} (hs : mapWf regDefault s.regs) {lo w lo' w' : Nat} (hw : lo + w ≤ 64)
    (h : lo' + w' ≤ lo ∨ lo + w ≤ lo') (a x : Nat) :
    (s.setFld a lo w x).fld a lo' w' = s.fld a lo' w' := by
  rw [State.fld, reg_setFld hs hw, if_pos rfl, bitsOf_putBits_disjoint h, State.fld]

/-- Writing a field leaves every other register alone. -/
theorem State.fld_setFld_ne {s : State} (hs : mapWf regDefault s.regs) {a b : Nat} (h : b ≠ a) (lo w x lo' w' : Nat) :
    (s.setFld a lo w x).fld b lo' w' = s.fld b lo' w' := by
  rw [State.fld, reg_setFld_ne hs h, State.fld]

/-! ### Memory -/

theorem State.byte_store {s : State} (hs : mapWf memDefault s.mem) (a b : Nat) (bs : List Byte) :
    (s.store a bs).byte b = if a ≤ b ∧ b < a + bs.length then bs.getD (b - a) 0 else s.byte b := by
  simp only [State.byte, State.store_mem, mapGet_mapSetRun hs]
  rfl

theorem State.store_memWf {s : State} (hs : mapWf memDefault s.mem) (a : Nat) (bs : List Byte) :
    mapWf memDefault (s.store a bs).mem := mapSetRun_wf hs _ _

/-! ### Ports and cores -/

theorem State.port_setPort {s : State} (hs : mapWf portDefault s.ports) (p q : Nat) (v : PortSt) :
    (s.setPort p v).port q = if q = p then v else s.port q := mapGet_mapSet hs.1 _ _ _

theorem State.core_setCore {s : State} (hs : mapWf coreDefault s.cores) (n k : Nat) (c : CoreSt) :
    (s.setCore n c).core k = if k = n then c else s.core k := mapGet_mapSet hs.1 _ _ _

theorem State.setPort_portsWf {s : State} (hs : mapWf portDefault s.ports) (p : Nat) (v : PortSt) :
    mapWf portDefault (s.setPort p v).ports := mapSet_wf hs _ _

theorem State.setCore_coresWf {s : State} (hs : mapWf coreDefault s.cores) (n : Nat) (c : CoreSt) :
    mapWf coreDefault (s.setCore n c).cores := mapSet_wf hs _ _

/-- Noting a writer leaves the bytes alone. -/
@[simp] theorem CoreSt.noteFeed_sram (c : CoreSt) (x : Feed) : (c.noteFeed x).sram = c.sram := by
  unfold CoreSt.noteFeed
  split <;> rfl

/-- A write to a core's SRAM changes exactly the bytes written. -/
theorem State.sram_sramWrite {s : State} (hs : mapWf coreDefault s.cores) {n : Nat}
    (hc : mapWf memDefault (s.core n).sram) (off : Nat) (bs : List Byte) (k : Nat) :
    mapGet memDefault ((s.sramWrite n off bs).core n).sram k
      = if off ≤ k ∧ k < off + bs.length then bs.getD (k - off) 0 else mapGet memDefault (s.core n).sram k := by
  rw [State.sramWrite, core_setCore hs, if_pos rfl, CoreSt.noteFeed_sram]
  exact mapGet_mapSetRun hc _ _ _

end Sys2Proof.Machine
end

