-- ==== Sys2Proof/Laws/Ops.lean ====
section
/-! SUPPORT. What each shared operation can do, said once: halting cores, raising package faults, sending messages and
entering a core's command change only the parts named here, keep every map canonical and take back no message. -/

namespace Sys2Proof.Machine
open Sys2Proof

/-! ### Quiet changes -/

/-- `t` is `s` but for registers in `R`, the windows of cores and whether they pant, ports, queues, controllers, the fabric, draws and
messages added to the outbox. -/
structure Quiet (R : Nat → Prop) (s t : State) : Prop where
  frame  : t = { s with regs := t.regs, mcw := t.mcw, mce := t.mce, cores := t.cores, ports := t.ports, fab := t.fab
                        hl := t.hl, outbox := t.outbox, free := t.free }
  outbox : s.outbox <+: t.outbox
  wf     : s.Wf → t.Wf
  regs   : s.Wf → ∀ r, ¬ R r → t.reg r = s.reg r
  cores  : s.Wf → ∀ n, t.core n = { s.core n with
    window := (t.core n).window, stream := (t.core n).stream, ending := (t.core n).ending, panting := (t.core n).panting }

namespace Quiet

variable {R R' : Nat → Prop} {s t u : State}

theorem refl (R : Nat → Prop) (s : State) : Quiet R s s := ⟨rfl, List.prefix_rfl, id, fun _ _ _ => rfl, fun _ _ => rfl⟩

theorem trans (h : Quiet R s t) (k : Quiet R t u) : Quiet R s u where
  frame := by rw [k.frame, h.frame]
  outbox := h.outbox.trans k.outbox
  wf := fun w => k.wf (h.wf w)
  regs := fun w r hr => (k.regs (h.wf w) r hr).trans (h.regs w r hr)
  cores := fun w n => by rw [k.cores (h.wf w) n, h.cores w n]

theorem mono (h : Quiet R s t) (hR : ∀ r, R r → R' r) : Quiet R' s t :=
  { h with regs := fun w r hr => h.regs w r fun x => hr (hR r x) }

theorem ite {c : Prop} [Decidable c] (h : c → Quiet R s t) (k : ¬ c → Quiet R s u) : Quiet R s (if c then t else u) := by
  split
  · exact h ‹_›
  · exact k ‹_›

theorem foldl {α : Type} {f : State → α → State} (hf : ∀ s x, Quiet R s (f s x)) (l : List α) (s : State) :
    Quiet R s (l.foldl f s) := by
  induction l generalizing s with
  | nil => exact .refl R s
  | cons x l ih => exact (hf s x).trans (ih _)

theorem mem (h : Quiet R s t) : t.mem = s.mem := by rw [h.frame]
theorem bad (h : Quiet R s t) : t.bad = s.bad := by rw [h.frame]
theorem nv (h : Quiet R s t) : t.nv = s.nv := by rw [h.frame]
theorem sigs (h : Quiet R s t) : t.sigs = s.sigs := by rw [h.frame]
theorem pkg (h : Quiet R s t) : t.pkg = s.pkg := by rw [h.frame]
theorem job (h : Quiet R s t) : t.job = s.job := by rw [h.frame]
theorem stp (h : Quiet R s t) : t.stp = s.stp := by rw [h.frame]
theorem pwr (h : Quiet R s t) : t.pwr = s.pwr := by rw [h.frame]
theorem sec (h : Quiet R s t) : t.sec = s.sec := by rw [h.frame]
theorem flocks (h : Quiet R s t) : t.flocks = s.flocks := by rw [h.frame]
theorem pending (h : Quiet R s t) : t.pending = s.pending := by rw [h.frame]
theorem dark (h : Quiet R s t) : t.dark = s.dark := by rw [State.dark, State.dark, h.pkg]
theorem used (h : Quiet R s t) : t.used = s.used := by rw [State.used, State.used, h.job]
theorem fld (h : Quiet R s t) (w : s.Wf) {r : Nat} (hr : ¬ R r) (lo n : Nat) : t.fld r lo n = s.fld r lo n := by
  rw [State.fld, State.fld, h.regs w r hr]
theorem sram (h : Quiet R s t) (w : s.Wf) (n : Nat) : (t.core n).sram = (s.core n).sram := by rw [h.cores w n]
theorem groups (h : Quiet R s t) (w : s.Wf) (n : Nat) : (t.core n).groups = (s.core n).groups := by rw [h.cores w n]

theorem setReg (s : State) (a v : Nat) : Quiet (· = a) s (s.setReg a v) where
  frame := rfl
  outbox := List.prefix_rfl
  wf := fun w => { w with regs := State.setReg_regsWf w.regs a v }
  regs := fun w _ hr => State.reg_setReg_ne w.regs hr v
  cores := fun _ _ => rfl

theorem setFld (s : State) (a lo n x : Nat) : Quiet (· = a) s (s.setFld a lo n x) := setReg s a _
theorem addFld (s : State) (a lo n x : Nat) : Quiet (· = a) s (s.addFld a lo n x) := setReg s a _
theorem setCfld (s : State) (k o lo n x : Nat) : Quiet (· = rCore k o) s (s.setCfld k o lo n x) := setReg s _ _
theorem addCfld (s : State) (k o lo n x : Nat) : Quiet (· = rCore k o) s (s.addCfld k o lo n x) := setReg s _ _

theorem setPort (R : Nat → Prop) (s : State) (p : Nat) (v : PortSt) : Quiet R s (s.setPort p v) where
  frame := rfl
  outbox := List.prefix_rfl
  wf := fun w => { w with ports := State.setPort_portsWf w.ports p v }
  regs := fun _ _ _ => rfl
  cores := fun _ _ => rfl

theorem setMc (R : Nat → Prop) (s : State) (m : Mc) (v : McSt) : Quiet R s (s.setMc m v) := by
  cases m <;> exact ⟨rfl, List.prefix_rfl, fun w => ⟨w.regs, w.mem, w.ports, w.cores, w.sram, w.sqs, w.cqs⟩,
    fun _ _ _ => rfl, fun _ _ => rfl⟩

theorem emit (R : Nat → Prop) (s : State) (o : Out) : Quiet R s (s.emit o) :=
  ⟨rfl, List.prefix_append _ _, fun w => ⟨w.regs, w.mem, w.ports, w.cores, w.sram, w.sqs, w.cqs⟩, fun _ _ _ => rfl,
    fun _ _ => rfl⟩

theorem setFab (R : Nat → Prop) (s : State) (f : Fab) : Quiet R s { s with fab := f } :=
  ⟨rfl, List.prefix_rfl, fun w => ⟨w.regs, w.mem, w.ports, w.cores, w.sram, w.sqs, w.cqs⟩, fun _ _ _ => rfl, fun _ _ => rfl⟩

/-- A change of the Hostlink engine that keeps its queue maps. -/
theorem setHl (R : Nat → Prop) (s : State) (h : HlSt) (hs : h.sqs = s.hl.sqs) (hc : h.cqs = s.hl.cqs) :
    Quiet R s { s with hl := h } :=
  ⟨rfl, List.prefix_rfl, fun w => ⟨w.regs, w.mem, w.ports, w.cores, w.sram, hs ▸ w.sqs, hc ▸ w.cqs⟩, fun _ _ _ => rfl,
    fun _ _ => rfl⟩

theorem setSq (R : Nat → Prop) (s : State) (q : Nat) (v : SqSt) : Quiet R s (s.setSq q v) :=
  ⟨rfl, List.prefix_rfl, fun w => ⟨w.regs, w.mem, w.ports, w.cores, w.sram, mapSet_wf w.sqs _ _, w.cqs⟩, fun _ _ _ => rfl,
    fun _ _ => rfl⟩

theorem setCq (R : Nat → Prop) (s : State) (q : Nat) (v : CqSt) : Quiet R s (s.setCq q v) :=
  ⟨rfl, List.prefix_rfl, fun w => ⟨w.regs, w.mem, w.ports, w.cores, w.sram, w.sqs, mapSet_wf w.cqs _ _⟩, fun _ _ _ => rfl,
    fun _ _ => rfl⟩

theorem drawn (R : Nat → Prop) (s : State) : Quiet R s s.draw.2 :=
  ⟨rfl, List.prefix_rfl, fun w => ⟨w.regs, w.mem, w.ports, w.cores, w.sram, w.sqs, w.cqs⟩, fun _ _ _ => rfl, fun _ _ => rfl⟩

end Quiet

/-! ### Canonical form under updates of cores -/

theorem State.Wf.core {s : State} (w : s.Wf) (n : Nat) : mapWf memDefault (s.core n).sram := by
  rw [State.core]
  have h := w.sram
  generalize s.cores = l at h
  induction l with
  | nil => exact ⟨.nil, by simp [mapGet, coreDefault, CoreSt.reset]⟩
  | cons e l ih =>
    rw [mapGet]
    split
    · exact h e (by simp)
    · exact ih fun x hx => h x (by simp [hx])

theorem State.Wf.setCore {s : State} (w : s.Wf) (n : Nat) {c : CoreSt} (hc : mapWf memDefault c.sram) : (s.setCore n c).Wf :=
  { w with
    cores := State.setCore_coresWf w.cores n c
    sram := fun e he => by
      rcases mem_mapSet he with h | ⟨rfl, -⟩
      · exact w.sram e h
      · exact hc }

theorem State.Wf.sramWrite {s : State} (w : s.Wf) (n off : Nat) (bs : List Byte) : (s.sramWrite n off bs).Wf :=
  w.setCore n (by rw [CoreSt.noteFeed_sram]; exact mapSetRun_wf (w.core n) _ _)

theorem State.Wf.store {s : State} (w : s.Wf) (a : Nat) (bs : List Byte) : (s.store a bs).Wf :=
  ⟨w.regs, State.store_memWf w.mem a bs, w.ports, w.cores, w.sram, w.sqs, w.cqs⟩

/-- A core whose window changes, or that begins or ends to pant. -/
theorem Quiet.setCore (R : Nat → Prop) (s : State) (n : Nat) (x : List WinCmd) (y : List Instr) (z : Option Ending)
    (b : Bool) : Quiet R s (s.setCore n { s.core n with window := x, stream := y, ending := z, panting := b }) where
  frame := rfl
  outbox := List.prefix_rfl
  wf := fun w => w.setCore n (w.core n)
  regs := fun _ _ _ => rfl
  cores := fun w k => by
    rw [State.core_setCore w.cores]
    split
    · subst k; rfl
    · rfl

/-! ### Halts, faults and STOP -/

/-- Registers of core windows, and of one core's window. -/
def coreReg (r : Nat) : Prop := coreBase ≤ r
def ofCore (n r : Nat) : Prop := r / 0x2000 = coreBase / 0x2000 + n

theorem ofCore_rCore {o : Nat} (h : o < 0x2000) (n : Nat) : ofCore n (rCore n o) := by
  unfold ofCore rCore coreBase; omega

theorem ofCore_eq {n m o : Nat} (h : o < 0x2000) (k : ofCore n (rCore m o)) : m = n := by
  unfold ofCore rCore coreBase at k; omega

theorem coreReg_of_ofCore {n r : Nat} (h : ofCore n r) : coreReg r := by
  unfold ofCore at h; unfold coreReg; unfold coreBase at *; omega

theorem coreReg_rCore (n o : Nat) : coreReg (rCore n o) := by unfold coreReg rCore; omega

/-- Registers that a package fault writes: its record, the STOP record, the package state, ARM and the windows of its
cores. -/
def faultReg (r : Nat) : Prop :=
  r ∈ [rPfFault, rPfFaultTime, rPfStopCause, rPfStopTime, rBuState, rPfDbgCtrl] ∨ coreReg r

theorem State.firstAttr_quiet (R : Nat → Prop) (s : State) (n : Nat) (cs : List Instr) : Quiet R s (s.firstAttr n cs).2 := by
  unfold State.firstAttr
  split
  · exact .refl R s
  · exact .drawn R s

theorem State.nextAttr_quiet (R : Nat → Prop) (s : State) (n : Nat) : Quiet R s (s.nextAttr n).2 := s.firstAttr_quiet R n _

@[simp] theorem State.nextAttr_cstate (s : State) (n k : Nat) : (s.nextAttr n).2.cstate k = s.cstate k := by
  unfold State.nextAttr State.firstAttr; split <;> rfl

@[simp] theorem State.nextAttr_fab (s : State) (n : Nat) : (s.nextAttr n).2.fab = s.fab := by
  unfold State.nextAttr State.firstAttr; split <;> rfl

theorem State.haltRecord_ofCore (s : State) (n code : Nat) (own noEff : Bool) (a : Attr) :
    Quiet (ofCore n) s (s.haltRecord n code own noEff a) := by
  have h (s : State) {o : Nat} (ho : o < 0x2000) (v : Nat) : Quiet (ofCore n) s (s.setReg (rCore n o) v) :=
    (Quiet.setReg s _ v).mono fun r hr => hr ▸ ofCore_rCore ho n
  exact .ite (fun _ => .refl _ s) fun _ => (((h _ (by decide) _).trans (h _ (by decide) _)).trans (h _ (by decide) _)).trans
    (h _ (by decide) _)

theorem State.haltRecord_quiet (s : State) (n code : Nat) (own noEff : Bool) (a : Attr) :
    Quiet coreReg s (s.haltRecord n code own noEff a) := (s.haltRecord_ofCore ..).mono fun _ => coreReg_of_ofCore

theorem State.stopRecord_ofCore (s : State) (code n : Nat) : Quiet (ofCore n) s (s.stopRecord code n) := by
  unfold State.stopRecord
  split
  · exact s.haltRecord_ofCore ..
  · exact s.haltRecord_ofCore ..
  · exact (s.nextAttr_quiet _ n).trans (State.haltRecord_ofCore ..)

theorem State.setCfld_ofCore (s : State) (n : Nat) {o : Nat} (h : o < 0x2000) (lo w x : Nat) :
    Quiet (ofCore n) s (s.setCfld n o lo w x) := (Quiet.setCfld s n o lo w x).mono fun _ hr => hr ▸ ofCore_rCore h n

theorem State.setCfld_quiet (s : State) (n o lo w x : Nat) : Quiet coreReg s (s.setCfld n o lo w x) :=
  (Quiet.setCfld s n o lo w x).mono fun _ hr => hr ▸ coreReg_rCore n o

theorem State.bankRest_ofCore (s : State) (n : Nat) : Quiet (ofCore n) s (s.bankRest n) :=
  Quiet.trans (t := if s.cfld n oBank 0 2 = 3 then s.setCfld n oBank 0 2 2 else s)
    (.ite (fun _ => s.setCfld_ofCore n (by decide) ..) fun _ => .refl _ s)
    (.ite (fun _ => State.setCfld_ofCore _ n (by decide) ..) fun _ => .refl _ _)

theorem State.bankRest_quiet (s : State) (n : Nat) : Quiet coreReg s (s.bankRest n) :=
  (s.bankRest_ofCore n).mono fun _ => coreReg_of_ofCore

theorem State.dropWindow_ofCore (s : State) (n : Nat) : Quiet (ofCore n) s (s.dropWindow n) :=
  (Quiet.setCore _ s n [] [] none (s.core n).panting).trans (State.setCfld_ofCore _ n (by decide) ..)

theorem State.coreToHalted_ofCore (s : State) (n : Nat) : Quiet (ofCore n) s (s.coreToHalted n) :=
  (((s.dropWindow_ofCore n).trans (Quiet.setCore _ _ n ((s.dropWindow n).core n).window ((s.dropWindow n).core n).stream
    ((s.dropWindow n).core n).ending _)).trans (State.bankRest_ofCore ..)).trans (State.setCfld_ofCore _ n (by decide) ..)

theorem State.coreToHalted_quiet (s : State) (n : Nat) : Quiet coreReg s (s.coreToHalted n) :=
  (s.coreToHalted_ofCore n).mono fun _ => coreReg_of_ofCore

theorem State.stopCores_quiet (s : State) (code : Nat) : Quiet coreReg s (s.stopCores code) :=
  .foldl (fun s n => .ite (fun _ => ((s.stopRecord_ofCore code n).mono fun _ => coreReg_of_ofCore).trans (State.coreToHalted_quiet ..))
    fun _ => .refl _ s) _ s

theorem State.recordStop_quiet (s : State) (origin reason time : Nat) (own : Bool) :
    Quiet faultReg s (s.recordStop origin reason time own) := by
  have h (s : State) (v : Nat) : Quiet faultReg s (s.setReg rPfStopCause v) :=
    (Quiet.setReg s _ v).mono fun r hr => .inl (by simp [hr])
  have k (s : State) (v : Nat) : Quiet faultReg s (s.setReg rPfStopTime v) :=
    (Quiet.setReg s _ v).mono fun r hr => .inl (by simp [hr])
  exact .ite (fun _ => h _ _) fun _ => .ite (fun _ => .refl _ s) fun _ => (h _ _).trans (k _ _)

theorem State.sendStop_quiet (R : Nat → Prop) (s : State) (ports : List Nat) (origin reason time : Nat) :
    Quiet R s (s.sendStop ports origin reason time) :=
  .foldl (fun s p => (Quiet.setPort R s p _).trans (.emit R _ _)) _ s

theorem State.decideDesc_quiet (R : Nat → Prop) (s : State) (q i code bytes : Nat) (b : Bool) :
    Quiet R s (s.decideDesc q i code bytes b) := .setSq R s q _

theorem State.startDesc_quiet (R : Nat → Prop) (s : State) (q i : Nat) : Quiet R s (s.startDesc q i) := .setSq R s q _

theorem State.dropJobDescs_quiet (R : Nat → Prop) (s : State) : Quiet R s s.dropJobDescs :=
  (((Quiet.foldl (fun s _ => s.decideDesc_quiet R ..) _ s).trans
    (.foldl (fun s _ => .foldl (fun s _ => s.decideDesc_quiet R ..) _ s) _ _)).trans
    ((Quiet.foldl (fun s _ => s.decideDesc_quiet R ..) _ _).trans (.foldl (fun s _ => s.decideDesc_quiet R ..) _ _))).trans
    (.setHl R _ _ rfl rfl)

theorem State.enterHalted_quiet (s : State) : Quiet faultReg s s.enterHalted :=
  ((s.dropJobDescs_quiet _).trans ((Quiet.setFld _ _ _ _ _).mono fun r hr => .inl (by simp [hr]))).trans
    ((Quiet.setFld _ _ _ _ _).mono fun r hr => .inl (by simp [hr]))

theorem State.ibi_quiet (R : Nat → Prop) (s : State) (m : Mc) (code : Nat) : Quiet R s (s.ibi m code) :=
  .ite (fun _ => .emit R s _) fun _ => .setMc R s m _

theorem State.ibiBoth_quiet (R : Nat → Prop) (s : State) (code : Nat) : Quiet R s (s.ibiBoth code) :=
  Quiet.trans (t := if s.role .west = 3 then s else s.ibi .west code) (.ite (fun _ => .refl R s) fun _ => s.ibi_quiet R _ _)
    (.ite (fun _ => .refl R _) fun _ => State.ibi_quiet R _ _ _)

theorem State.recodeStops_quiet (s : State) (old new : Nat) : Quiet coreReg s (s.recodeStops old new) :=
  .foldl (fun s _ => .ite (fun _ => s.setCfld_quiet ..) fun _ => .refl _ s) _ s

theorem State.recordFault_quiet (s : State) (reason unit index time later : Nat) :
    Quiet faultReg s (s.recordFault reason unit index time later) :=
  ((Quiet.setReg _ _ _).mono fun r hr => .inl (by simp [hr])).trans ((Quiet.setReg _ _ _).mono fun r hr => .inl (by simp [hr]))

theorem State.stopAsOrigin_quiet (s : State) (reason time : Nat) : Quiet faultReg s (s.stopAsOrigin reason time) :=
  ((((s.recordStop_quiet ..).trans (State.sendStop_quiet ..)).trans (.setFab ..)).trans
    ((State.stopCores_quiet ..).mono fun _ h => .inr h)).trans (State.enterHalted_quiet _)

theorem State.noteFault_quiet (s : State) (reason unit index time : Nat) :
    Quiet faultReg s (s.noteFault reason unit index time) :=
  .ite (fun _ => (s.recordFault_quiet ..).trans (State.ibiBoth_quiet ..)) fun _ =>
    .ite (fun _ => s.recordFault_quiet ..) fun _ => (Quiet.setFld _ _ _ _ _).mono fun r hr => .inl (by simp [hr])

theorem State.noteHalts_quiet (s : State) : Quiet faultReg s s.noteHalts := .foldl (fun s _ => s.noteFault_quiet ..) _ s

theorem State.restop_quiet (R : Nat → Prop) (s : State) (new : Nat) : Quiet R s (s.restop new) :=
  .foldl (fun s _ => .setPort R s _ _) _ s

theorem State.recode_quiet (s : State) (old new : Nat) : Quiet faultReg s (s.recode old new) :=
  (((s.recodeStops_quiet old new).mono fun _ h => .inr h).trans
    (.ite (fun _ => (Quiet.setFld _ _ _ _ _).mono fun r hr => .inl (by simp [hr])) fun _ => .refl _ _)).trans
    (State.restop_quiet ..)

/-- A package fault touches only what a halt and its STOP touch: no memory, no fuse, no job, no SRAM. -/
theorem State.raise_quiet (s : State) (reason unit index : Nat) : Quiet faultReg s (s.raise reason unit index) :=
  .ite (fun _ => .refl _ s) fun _ => .ite
    (fun _ => (s.noteHalts_quiet.trans (State.noteFault_quiet ..)).trans (State.stopAsOrigin_quiet ..)) fun _ =>
    (s.noteFault_quiet ..).trans (.ite (fun _ => State.recode_quiet ..) fun _ => .refl _ _)

theorem State.coreHaltNow_quiet (s : State) (a : Attr) (code : Nat) (noEff : Bool) :
    Quiet faultReg s (s.coreHaltNow a code noEff) :=
  (((s.haltRecord_quiet ..).trans (State.coreToHalted_quiet ..)).mono fun _ h => .inr h).trans (State.raise_quiet ..)

theorem State.coreHalt_quiet (s : State) (a : Attr) (code : Nat) (noEff : Bool) : Quiet faultReg s (s.coreHalt a code noEff) :=
  .ite (fun _ => .setCore _ s a.core _ (s.core a.core).stream _ (s.core a.core).panting) fun _ =>
    s.coreHaltNow_quiet ..

theorem State.checkFail_quiet (s : State) (a : Attr) (code : Nat) : Quiet faultReg s (s.checkFail a code) :=
  s.coreHalt_quiet ..

/-- A fold of updates keeps what each update keeps. -/
theorem foldl_keep {α β : Type} (g : State → β) {f : State → α → State} (h : ∀ s x, g (f s x) = g s) (l : List α) (s : State) :
    g (l.foldl f s) = g s := by
  induction l generalizing s with
  | nil => rfl
  | cons x l ih => rw [List.foldl_cons, ih, h]

/-! ### Core windows -/

theorem rCore_inj {n m o p : Nat} (ho : o < 0x2000) (hp : p < 0x2000) (h : rCore n o = rCore m p) : n = m ∧ o = p := by
  unfold rCore at h; omega

theorem State.cstate_setCstate {s : State} (w : s.Wf) (n k v : Nat) :
    (s.setCstate n v).cstate k = if k = n then v % 8 else s.cstate k := by
  split
  · subst k; exact State.fld_setFld_same w.regs (by omega) _ _
  · exact State.fld_setFld_ne w.regs (fun h => ‹¬ k = n› (rCore_inj (by decide) (by decide) h).1) ..

theorem State.cstate_setCfld_ne {s : State} (w : s.Wf) {o : Nat} (ho : o < 0x2000) (h : o ≠ oState) (n k lo l x : Nat) :
    (s.setCfld n o lo l x).cstate k = s.cstate k :=
  State.fld_setFld_ne w.regs (fun e => h (rCore_inj (by decide) ho e).2.symm) ..

theorem State.cstate_setReg_ne {s : State} (w : s.Wf) {a : Nat} (h : ∀ k, a ≠ rCore k oState) (v k : Nat) :
    (s.setReg a v).cstate k = s.cstate k := by
  rw [State.cstate, State.cfld, State.fld, State.reg_setReg_ne w.regs (h k).symm]; rfl

/-- A halt record is written once per RUN and leaves the core's state alone. -/
theorem State.cstate_haltRecord {s : State} (w : s.Wf) (n k code : Nat) (own noEff : Bool) (a : Attr) :
    (s.haltRecord n code own noEff a).cstate k = s.cstate k := by
  have h {s : State} (w : s.Wf) {o : Nat} (ho : o < 0x2000) (hn : o ≠ oState) (v : Nat) :
      (s.setReg (rCore n o) v).cstate k = s.cstate k :=
    State.cstate_setReg_ne w (fun m e => hn (rCore_inj ho (by decide) e).2) v k
  unfold State.haltRecord
  split
  · rfl
  · have w1 := fun v => (Quiet.setReg s (rCore n oHaltInfo) v).wf w
    have w2 := fun v v' => (Quiet.setReg _ (rCore n oHaltCount) v').wf (w1 v)
    have w3 := fun v v' v'' => (Quiet.setReg _ (rCore n oHaltTag) v'').wf (w2 v v')
    simp only []
    rw [h (w3 _ _ _) (by decide) (by decide), h (w2 _ _) (by decide) (by decide), h (w1 _) (by decide) (by decide),
      h w (by decide) (by decide)]

theorem State.cstate_bankRest {s : State} (w : s.Wf) (n k : Nat) : (s.bankRest n).cstate k = s.cstate k := by
  unfold State.bankRest
  have h {s : State} (w : s.Wf) (lo : Nat) : (s.setCfld n oBank lo 2 2).cstate k = s.cstate k :=
    State.cstate_setCfld_ne w (by decide) (by decide) ..
  have w1 := (Quiet.setCfld s n oBank 0 2 2).wf w
  simp only []
  split <;> split <;> simp only [h w, h w1]

/-- A halt record leaves the cores alone but for their registers. -/
theorem State.haltRecord_core (s : State) (n k code : Nat) (own noEff : Bool) (a : Attr) :
    (s.haltRecord n code own noEff a).core k = s.core k := by
  unfold State.haltRecord; split <;> rfl

/-- Dropping a window leaves every core's state alone. -/
theorem State.cstate_dropWindow {s : State} (w : s.Wf) (n k : Nat) : (s.dropWindow n).cstate k = s.cstate k := by
  have w0 := (Quiet.setCore coreReg s n [] [] none (s.core n).panting).wf w
  by_cases h : k = n
  · subst k; exact (State.fld_setFld_disjoint w0.regs (by decide) (by decide) _ _).trans rfl
  · exact (State.fld_setFld_ne w0.regs (fun e => h (rCore_inj (by decide) (by decide) e).1) ..).trans rfl

/-- A core that halts is HALTED; no other core's state changes. -/
theorem State.cstate_coreToHalted {s : State} (w : s.Wf) (n k : Nat) :
    (s.coreToHalted n).cstate k = if k = n then 5 else s.cstate k := by
  have w0 := (s.dropWindow_ofCore n).wf w
  have w1 := (Quiet.setCore coreReg _ n ((s.dropWindow n).core n).window ((s.dropWindow n).core n).stream
    ((s.dropWindow n).core n).ending ((s.dropWindow n).fld rPwrPant 0 1 == 1)).wf w0
  have w2 := (State.bankRest_quiet _ n).wf w1
  unfold State.coreToHalted
  simp only []
  rw [State.cstate_setCstate w2]
  split
  · rfl
  · rw [State.cstate_bankRest w1]
    exact State.cstate_dropWindow w n k

theorem State.bankRest_core (s : State) (n k : Nat) : (s.bankRest n).core k = s.core k := by
  unfold State.bankRest
  simp only []
  split <;> split <;> rfl

/-- A core that halts forgets that it was about to; the others do not. -/
theorem State.coreToHalted_ending {s : State} (w : s.Wf) (n k : Nat) :
    ((s.coreToHalted n).core k).ending = if k = n then none else (s.core k).ending := by
  have w0 := (s.dropWindow_ofCore n).wf w
  have e : ∀ j, (s.dropWindow n).core j = if j = n then { s.core n with window := [], stream := [], ending := none } else s.core j :=
    fun j => (State.core_setCore w.cores n j _)
  show (((((s.dropWindow n).setCore n _).bankRest n)).core k).ending = _
  rw [State.bankRest_core, State.core_setCore w0.cores]
  split
  · simp [e]
  · rw [e, if_neg ‹_›]

theorem State.coreLive_iff (s : State) (n : Nat) : s.coreLive n = true ↔ s.cstate n = 2 ∨ s.cstate n = 3 := by
  simp [State.coreLive, csRun, csHeel]

/-- The record of a stop leaves the core's state alone. -/
theorem State.cstate_stopRecord {s : State} (w : s.Wf) (code n k : Nat) : (s.stopRecord code n).cstate k = s.cstate k := by
  unfold State.stopRecord
  split
  · exact State.cstate_haltRecord w ..
  · exact State.cstate_haltRecord w ..
  · exact (State.cstate_haltRecord ((s.nextAttr_quiet coreReg n).wf w) ..).trans (s.nextAttr_cstate n k)

/-- STOP halts exactly the used cores that ran or waited. -/
theorem State.cstate_stopCores {s : State} (w : s.Wf) (code k : Nat) :
    (s.stopCores code).cstate k = if k ∈ s.used ∧ s.coreLive k = true then 5 else s.cstate k := by
  unfold State.stopCores
  generalize s.used = l
  induction l generalizing s with
  | nil => simp
  | cons n l ih =>
    rw [List.foldl_cons]
    by_cases hn : s.coreLive n = true
    · have w2 := (s.stopRecord_ofCore code n).wf w
      have w3 := (State.coreToHalted_quiet _ n).wf w2
      rw [if_pos hn, ih w3]
      have e : ∀ j, ((s.stopRecord code n).coreToHalted n).cstate j = if j = n then 5 else s.cstate j := fun j => by
        rw [State.cstate_coreToHalted w2, State.cstate_stopRecord w]
      simp only [e, State.coreLive_iff]
      rw [State.coreLive_iff] at hn
      by_cases hk : k = n
      · subst k; simp [hn]
      · simp [hk]
    · rw [if_neg hn, ih w]
      by_cases hk : k = n
      · subst k; simp [hn]
      · simp [hk]

/-! ### A package fault in RUN -/

theorem State.bu_setBu {s : State} (w : s.Wf) {v : Nat} (hv : v < 16) : (s.setBu v).bu = v := by
  rw [State.bu, State.setBu, State.fld_setFld_same w.regs (by omega)]; exact Nat.mod_eq_of_lt hv

theorem State.bu_enterHalted {s : State} (w : s.Wf) : s.enterHalted.bu = 7 := by
  unfold State.enterHalted
  simp only []
  refine State.bu_setBu ?_ (by decide)
  exact (Quiet.setFld _ _ _ _ _).wf ((s.dropJobDescs_quiet coreReg).wf w)

theorem not_coreReg {r : Nat} (h : r < coreBase) : ¬ coreReg r := by unfold coreReg; omega

/-- Registers that entering HALTED writes. -/
theorem State.enterHalted_regs {s : State} (w : s.Wf) {r : Nat} (h : r ∉ [rBuState, rPfDbgCtrl]) :
    s.enterHalted.reg r = s.reg r := by
  simp only [List.mem_cons, List.not_mem_nil, or_false, not_or] at h
  have q := s.dropJobDescs_quiet (fun _ => False)
  have w0 := q.wf w
  have w1 := (Quiet.setFld s.dropJobDescs rPfDbgCtrl 0 1 0).wf w0
  unfold State.enterHalted
  simp only []
  rw [State.setBu, State.reg_setFld_ne w1.regs h.1, State.reg_setFld_ne w0.regs h.2, q.regs w _ (fun x => x)]

theorem State.cstate_of_regs {s t : State} {n : Nat} (h : t.reg (rCore n oState) = s.reg (rCore n oState)) :
    t.cstate n = s.cstate n := by
  rw [State.cstate, State.cfld, State.fld, h]; rfl

theorem rCore_ne_low {n o r : Nat} (h : r < coreBase) : rCore n o ≠ r := by unfold rCore; omega

theorem State.fabricUp_of_regs {s t : State} (h : ∀ p < 18, t.reg (rPortMode p) = s.reg (rPortMode p) ∧ t.reg (rPortStat p) = s.reg (rPortStat p)) :
    t.fabricUp = s.fabricUp := by
  refine List.filter_congr fun p hp => ?_
  have := h p (by simpa [allPorts] using hp)
  simp only [State.mode, State.portUp, State.portState, State.fld, this.1, this.2]

theorem Quiet.fabricUp {R : Nat → Prop} {s t : State} (h : Quiet R s t) (w : s.Wf)
    (hr : ∀ p < 18, ¬ R (rPortMode p) ∧ ¬ R (rPortStat p)) : t.fabricUp = s.fabricUp :=
  State.fabricUp_of_regs fun p hp => ⟨h.regs w _ (hr p hp).1, h.regs w _ (hr p hp).2⟩

/-- A register below the core windows that a fault does not write. -/
theorem not_faultReg {r : Nat} (h : r < coreBase)
    (h' : r ∉ [rPfFault, rPfFaultTime, rPfStopCause, rPfStopTime, rBuState, rPfDbgCtrl]) : ¬ faultReg r := by
  rintro (h1 | h1)
  · exact h' h1
  · exact not_coreReg h h1

theorem not_faultReg_port {p : Nat} (h : p < 18) : ¬ faultReg (rPortMode p) ∧ ¬ faultReg (rPortStat p) := by
  constructor <;> refine not_faultReg ?_ ?_ <;>
    simp [rPortMode, rPortStat, coreBase, rPfFault, rPfFaultTime, rPfStopCause, rPfStopTime, rBuState, rPfDbgCtrl] <;> omega

/-- Messages a STOP sends. -/
theorem State.stop_mem_sendStop (s : State) {ports : List Nat} {p : Nat} (hp : p ∈ ports) (origin reason time : Nat) :
    .stop p origin reason time ∈ (s.sendStop ports origin reason time).outbox := by
  unfold State.sendStop
  induction ports generalizing s with
  | nil => cases hp
  | cons q l ih =>
    rw [List.foldl_cons]
    by_cases h : p ∈ l
    · exact ih _ h
    · obtain rfl : p = q := by simpa [h] using hp
      refine (State.sendStop_quiet (fun _ => False) _ l origin reason time).outbox.subset ?_
      simp [State.stopOn, State.emit]

theorem State.bu_lt (s : State) : s.bu < 16 := bitsOf_lt _ 0 4

/-- The origin of a STOP: HALTED, its live cores halted, STOP on every UP FABRIC port, itself the cause where none was. -/
theorem State.stopAsOrigin_spec {s : State} (w : s.Wf) (reason time : Nat) :
    (s.stopAsOrigin reason time).bu = 7 ∧ (s.stopAsOrigin reason time).fab.issueStopped = true
      ∧ (s.stopAsOrigin reason time).fab.stopOut = true
      ∧ (∀ n, (s.stopAsOrigin reason time).cstate n = if n ∈ s.used ∧ s.coreLive n = true then 5 else s.cstate n)
      ∧ (∀ r < coreBase, r ∉ [rPfStopCause, rPfStopTime, rBuState, rPfDbgCtrl] →
          (s.stopAsOrigin reason time).reg r = s.reg r)
      ∧ (∀ p ∈ s.fabricUp, .stop p s.herdIndex reason time ∈ (s.stopAsOrigin reason time).outbox)
      ∧ (s.fld rPfStopCause 32 1 = 0 → s.bu ≠ 7 →
          (s.stopAsOrigin reason time).reg rPfStopCause = s.herdIndex + 2 ^ 16 * (reason % 2 ^ 16) + 2 ^ 32 + 2 ^ 33
            + 2 ^ 48 * s.fld rPfStopCause 48 16
          ∧ (s.stopAsOrigin reason time).reg rPfStopTime = time % 2 ^ 64) := by
  have q1 := s.recordStop_quiet s.herdIndex reason time true
  obtain ⟨s1, e1⟩ : ∃ s1, s.recordStop s.herdIndex reason time true = s1 := ⟨_, rfl⟩
  rw [e1] at q1
  have w1 := q1.wf w
  have r1 : ∀ r < coreBase, r ∉ [rPfStopCause, rPfStopTime] → s1.reg r = s.reg r := by
    intro r _ hr
    simp only [List.mem_cons, List.not_mem_nil, or_false, not_or] at hr
    rw [← e1]
    unfold State.recordStop
    split
    · exact State.reg_setFld_ne w.regs hr.1 ..
    · simp only []
      split
      · rfl
      · rw [State.reg_setReg_ne ((Quiet.setReg s rPfStopCause _).wf w).regs hr.2, State.reg_setReg_ne w.regs hr.1]
  have hi : s1.herdIndex = s.herdIndex := by rw [State.herdIndex, State.fld, r1 _ (by decide) (by decide)]; rfl
  have hn : s1.now = s.now := r1 _ (by decide) (by decide)
  have hp : s1.fabricUp = s.fabricUp := q1.fabricUp w fun p h => not_faultReg_port h
  have q2 := State.sendStop_quiet (fun _ => False) s1 s.fabricUp s.herdIndex reason time
  have m2 : ∀ p ∈ s.fabricUp, .stop p s.herdIndex reason time ∈ (s1.sendStop s.fabricUp s.herdIndex reason time).outbox :=
    fun p h => s1.stop_mem_sendStop h ..
  obtain ⟨s2, e2⟩ : ∃ s2, s1.sendStop s.fabricUp s.herdIndex reason time = s2 := ⟨_, rfl⟩
  rw [e2] at q2 m2
  have w2 := q2.wf w1
  obtain ⟨s3, e3⟩ : ∃ s3, s3 = { s2 with fab := { s2.fab with stopOut := true, issueStopped := true, haltedAt := some s2.now } } := ⟨_, rfl⟩
  have q3 : Quiet (fun _ => False) s2 s3 := e3 ▸ .setFab _ s2 _
  have w3 := q3.wf w2
  have q4 := s3.stopCores_quiet reason
  have w4 := q4.wf w3
  have q5 := (s3.stopCores reason).enterHalted_quiet
  have e : s.stopAsOrigin reason time = (s3.stopCores reason).enterHalted := by
    unfold State.stopAsOrigin
    simp only [e1, hi, hp, e2, e3]
  have f4 : (s3.stopCores reason).fab = s3.fab := by
    unfold State.stopCores
    generalize s3.used = l
    clear q4 w4 q5 e w3 q3 e3
    induction l generalizing s3 with
    | nil => rfl
    | cons n l ih =>
      rw [List.foldl_cons, ih]
      split
      · have : ∀ s : State, ∀ n, (s.coreToHalted n).fab = s.fab := fun s n => by
          unfold State.coreToHalted State.bankRest State.setCstate
          simp only [State.setCfld_fab]
          split <;> split <;> simp
        simp only [this]
        unfold State.stopRecord State.haltRecord
        split <;> simp only [] <;> split <;> simp
      · rfl
  have f5 : (s3.stopCores reason).enterHalted.fab = (s3.stopCores reason).fab := by
    unfold State.enterHalted
    have : (s3.stopCores reason).dropJobDescs.fab = (s3.stopCores reason).fab := by
      unfold State.dropJobDescs
      refine (foldl_keep State.fab ?_ _ _).trans ((foldl_keep State.fab ?_ _ _).trans
        ((foldl_keep State.fab ?_ _ _).trans (foldl_keep State.fab ?_ _ _)))
      · exact fun _ _ => rfl
      · exact fun _ _ => rfl
      · exact fun s r => by refine foldl_keep State.fab ?_ _ _; exact fun _ _ => rfl
      · exact fun _ _ => rfl
    simp only [State.setBu, State.setFld_fab, this]
  have r34 : ∀ r < coreBase, (s3.stopCores reason).reg r = s1.reg r := fun r hr => by
    rw [q4.regs w3 r (not_coreReg hr), q3.regs w2 r id, q2.regs w1 r id]
  have r3 : ∀ r, s3.reg r = s1.reg r := fun r => by rw [q3.regs w2 r id, q2.regs w1 r id]
  have c1 : ∀ n, s1.cstate n = s.cstate n := fun n => by
    rw [← e1]
    unfold State.recordStop
    split
    · exact State.cstate_setReg_ne w (fun k => (rCore_ne_low (by decide)).symm) _ _
    · simp only []
      split
      · rfl
      · rw [State.cstate_setReg_ne ((Quiet.setReg s rPfStopCause _).wf w) (fun k => (rCore_ne_low (by decide)).symm),
          State.cstate_setReg_ne w (fun k => (rCore_ne_low (by decide)).symm)]
  have c3 : ∀ n, s3.cstate n = s.cstate n := fun n => (State.cstate_of_regs (r3 _)).trans (c1 n)
  have l3 : ∀ n, s3.coreLive n = s.coreLive n := fun n => by simp only [State.coreLive, c3]
  have u3 : s3.used = s.used := by rw [q3.used, q2.used, q1.used]
  rw [e]
  refine ⟨State.bu_enterHalted w4, by rw [f5, f4, e3], by rw [f5, f4, e3], fun n => ?_, fun r hr hm => ?_, fun p h => ?_,
    fun h0 h7 => ?_⟩
  · rw [State.cstate_of_regs (State.enterHalted_regs w4 (by
      simp only [List.mem_cons, List.not_mem_nil, or_false, not_or]
      exact ⟨rCore_ne_low (by decide), rCore_ne_low (by decide)⟩)),
      State.cstate_stopCores w3, u3, l3, c3]
  · simp only [List.mem_cons, List.not_mem_nil, or_false, not_or] at hm
    rw [State.enterHalted_regs w4 (by simp [hm]), r34 r hr, r1 r hr (by simp [hm])]
  · exact q5.outbox.subset (q4.outbox.subset (q3.outbox.subset (m2 p h)))
  · have hb : ¬(s.bu = stHalted ∧ s.fab.haltedAt ≠ some s.now) := fun h => h7 h.1
    have hc : ¬(s.fld rPfStopCause 32 1 = 1 ∧ (s.reg rPfStopTime < time ∨ s.reg rPfStopTime = time
        ∧ s.fld rPfStopCause 0 11 ≤ s.herdIndex)) := by omega
    have hx : s.herdIndex < 2 ^ 11 := bitsOf_lt _ 0 11
    have hl : s.fld rPfStopCause 48 16 < 2 ^ 16 := bitsOf_lt _ 48 16
    unfold State.recordStop at e1
    simp only [if_neg hb, if_neg hc, b2n, if_true] at e1
    have w' := fun v => (Quiet.setReg s rPfStopCause v).wf w
    constructor
    · rw [State.enterHalted_regs w4 (by decide), r34 _ (by decide), ← e1, State.reg_setReg_ne (w' _).regs (by decide),
        State.reg_setReg_same w.regs _ (by omega)]
      omega
    · rw [State.enterHalted_regs w4 (by decide), r34 _ (by decide), ← e1]
      rw [State.reg_setReg (w' _).regs, if_pos rfl]

theorem State.ibiBoth_keeps (s : State) (code : Nat) :
    (s.ibiBoth code).regs = s.regs ∧ (s.ibiBoth code).fab = s.fab ∧ (s.ibiBoth code).ports = s.ports
      ∧ (s.ibiBoth code).cores = s.cores ∧ (s.ibiBoth code).hl = s.hl := by
  have h (s : State) (m : Mc) : (s.ibi m code).regs = s.regs ∧ (s.ibi m code).fab = s.fab ∧ (s.ibi m code).ports = s.ports
      ∧ (s.ibi m code).cores = s.cores ∧ (s.ibi m code).hl = s.hl := by
    unfold State.ibi; cases m <;> split <;> simp [State.setMc, State.emit]
  unfold State.ibiBoth
  simp only []
  split <;> split <;> simp [h]

/-- With no halt of a used core waiting, none enters PF_FAULT. -/
theorem State.ownHalts_nil {s : State} (h : ∀ n ∈ s.used, s.coreLive n = true → (s.core n).ending = none) : s.ownHalts = [] := by
  unfold State.ownHalts
  refine List.filterMap_eq_nil_iff.2 fun n hn => ?_
  by_cases hl : s.coreLive n = true
  · rw [h n hn hl]
  · split
    · rw [if_neg hl]
    · rfl

theorem State.noteHalts_none {s : State} (h : s.ownHalts = []) : s.noteHalts = s := by rw [State.noteHalts, h, List.foldl_nil]

/-- The package's first own fault in RUN (R262, R424): PF_FAULT holds it, the package is HALTED, its live cores are halted
and STOP leaves on every UP FABRIC port. -/
theorem State.raise_run {s : State} (w : s.Wf) (hr : s.running = true) (hf : s.fld rPfFault 16 1 = 0) (hh : s.ownHalts = [])
    {reason : Nat} (hx : reason < 2 ^ 16) (unit index : Nat) :
    (s.raise reason unit index).bu = 7
      ∧ (s.raise reason unit index).reg rPfFault
          = reason % 2 ^ 16 + 2 ^ 16 + 2 ^ 17 * (unit % 8) + 2 ^ 20 * (index % 2 ^ 11)
      ∧ (s.raise reason unit index).reg rPfFaultTime = s.now
      ∧ (s.raise reason unit index).fab.issueStopped = true ∧ (s.raise reason unit index).fab.stopOut = true
      ∧ (∀ n, (s.raise reason unit index).cstate n = if n ∈ s.used ∧ s.coreLive n = true then 5 else s.cstate n)
      ∧ (∀ p ∈ s.fabricUp, .stop p s.herdIndex reason s.now ∈ (s.raise reason unit index).outbox)
      ∧ (s.fld rPfStopCause 32 1 = 0 →
          (s.raise reason unit index).reg rPfStopCause = s.herdIndex + 2 ^ 16 * (reason % 2 ^ 16) + 2 ^ 32 + 2 ^ 33
            + 2 ^ 48 * s.fld rPfStopCause 48 16
          ∧ (s.raise reason unit index).reg rPfStopTime = s.now) := by
  have hb : s.bu = 6 := by simpa [State.running, stRun] using hr
  obtain ⟨t, et⟩ : ∃ t, (s.recordFault reason unit index s.now 0).ibiBoth reason = t := ⟨_, rfl⟩
  have q : Quiet faultReg s t := et ▸ (s.recordFault_quiet ..).trans (State.ibiBoth_quiet ..)
  have w' := q.wf w
  have w1 := fun v => (Quiet.setReg s rPfFault v).wf w
  have rg : ∀ r, t.reg r = (s.recordFault reason unit index s.now 0).reg r := fun r => by
    rw [← et, State.reg, State.reg, (State.ibiBoth_keeps _ _).1]
  have rn : ∀ r, r ≠ rPfFault → r ≠ rPfFaultTime → t.reg r = s.reg r := fun r h1 h2 => by
    rw [rg, State.recordFault, State.reg_setReg_ne (w1 _).regs h2, State.reg_setReg_ne w.regs h1]
  have hbt : t.bu = 6 := by rw [State.bu, State.fld, rn _ (by decide) (by decide)]; exact hb
  have hcode : reason % 2 ^ 16 + 2 ^ 16 + 2 ^ 17 * (unit % 8) + 2 ^ 20 * (index % 2 ^ 11) < 2 ^ 64 := by omega
  have hf0 : t.fld rPfFault 0 16 = reason := by
    rw [State.fld, rg, State.recordFault, State.reg_setReg_ne (w1 _).regs (by decide), State.reg_setReg_same w.regs _ (by omega),
      bitsOf]
    omega
  have ht : t.reg rPfFaultTime = s.now := by
    rw [rg, State.recordFault]
    exact State.reg_setReg_same (w1 _).regs _ (State.reg_lt _ _)
  have e : s.raise reason unit index = t.stopAsOrigin reason s.now := by
    unfold State.raise
    rw [if_neg (by rw [hb]; decide), if_pos hr, State.noteHalts_none hh]
    unfold State.noteFault
    simp only [if_pos hf, et, hf0, ht]
  obtain ⟨h1, h2, h3, h4, h5, h6, h7⟩ := State.stopAsOrigin_spec w' reason s.now
  have hi : t.herdIndex = s.herdIndex := by rw [State.herdIndex, State.fld, rn _ (by decide) (by decide)]; rfl
  have hp : t.fabricUp = s.fabricUp := q.fabricUp w fun p h => not_faultReg_port h
  have hc : ∀ n, t.cstate n = s.cstate n := fun n =>
    State.cstate_of_regs (rn _ (rCore_ne_low (by decide)) (rCore_ne_low (by decide)))
  have hs : ∀ lo l, t.fld rPfStopCause lo l = s.fld rPfStopCause lo l := fun lo l => by
    rw [State.fld, rn _ (by decide) (by decide)]; rfl
  rw [e]
  refine ⟨h1, ?_, ?_, h2, h3, fun n => ?_, fun p h => ?_, fun h => ?_⟩
  · rw [h5 _ (by decide) (by decide), rg, State.recordFault, State.reg_setReg_ne (w1 _).regs (by decide),
      State.reg_setReg_same w.regs _ (by omega)]
    omega
  · rw [h5 _ (by decide) (by decide), ht]
  · have hl : t.coreLive n = s.coreLive n := by simp only [State.coreLive, hc]
    rw [h4 n, q.used, hl, hc]
  · rw [← hi]; exact h6 p (hp ▸ h)
  · have k := h7 (by rw [hs, h]) (by omega)
    have hm : s.now % 2 ^ 64 = s.now := Nat.mod_eq_of_lt (s.reg_lt _)
    rw [hm] at k
    rw [← hi, ← hs 48 16]; exact k

/-! ### A core command -/

/-- COUNT and LAST are all that retiring changes (R126, R136). -/
theorem State.retire_spec {s : State} (w : s.Wf) (a : Attr) :
    regsOnly s (s.retire a) (retireRegs a.core) ∧ retired s (s.retire a) a := by
  have w1 := fun v => (Quiet.setReg s (rCore a.core oCount) v).wf w
  have hne : rCore a.core oCount ≠ rCore a.core oLast := fun h => absurd (rCore_inj (by decide) (by decide) h).2 (by decide)
  refine ⟨⟨rfl, fun r hr => ?_⟩, ?_, ?_⟩
  · simp only [retireRegs, List.mem_cons, List.not_mem_nil, or_false, not_or] at hr
    exact (State.reg_setReg_ne (w1 _).regs hr.2 _).trans (State.reg_setReg_ne w.regs hr.1 _)
  · refine (State.reg_setReg_ne (w1 _).regs hne _).trans ?_
    rw [State.reg_setReg w.regs, if_pos rfl]
  · refine State.reg_setReg_same (w1 _).regs _ ?_
    omega

/-- With nothing due and no window holding a command, neither deliveries nor other cores act. -/
theorem State.Settled.deliverDue {s : State} (h : s.Settled) : s.deliverDue = s := by
  have e : s.fab.held.filter (fun h => h.atEndpoint && decide (s.packOf h.due ≤ s.now)) = [] := by
    refine List.filter_eq_nil_iff.2 fun x hx => ?_
    simp only [Bool.and_eq_true, decide_eq_true_eq, not_and, Nat.not_le]
    exact h.nothingDue x hx
  rw [State.deliverDue, e, List.foldl_nil]

theorem State.settle_of_noneWaits {s : State} (h : ∀ n ∈ s.used, (s.core n).window = [] ∧ (s.core n).ending = none) :
    s.settle = s := by
  have e : s.anyWaits = false := by
    rw [State.anyWaits, List.any_eq_false]
    exact fun n hn => by simp [h n hn]
  rw [State.settle, e, Bool.and_false]
  exact if_neg (by decide)

theorem State.settle_of_stopped {s : State} (h : s.issuing = false) : s.settle = s := by
  rw [State.settle, h, Bool.false_and]
  exact if_neg (by decide)

/-- A command of a ready core enters alone: every older command has retired (R133). -/
theorem coreCmd_ready {s : State} {a : Attr} {j : Job} (h : s.Ready a) (hj : s.job = some j) (c : Instr) :
    coreCmd a c s = .next (s.enterAlone j a c).settle := by
  have hu : a.core ∈ s.used := by
    have := h.fetching
    simp only [State.fetching, Bool.and_eq_true] at this
    exact List.contains_iff_mem.1 this.1.2
  unfold coreCmd State.whenLive
  simp only [h.live, Bool.false_eq_true, if_false, hj, h.fetching, if_true, State.submit, h.settled.deliverDue,
    h.settled.noneWaits _ hu, h.alone.1, h.alone.2, List.isEmpty_nil, Option.isNone_none, Bool.and_self]

theorem State.Ready.running {s : State} {a : Attr} (h : s.Ready a) : s.running = true := by
  have := h.fetching
  simp only [State.fetching, State.issuing, Bool.and_eq_true] at this
  exact this.1.1.1

theorem State.haltRecord_spec {s : State} (w : s.Wf) (n : Nat) {code : Nat} (own noEff : Bool) (a : Attr) (hc : code < 2 ^ 16)
    (h : s.cfld n oHaltInfo 16 1 = 0) :
    let t := s.haltRecord n code own noEff a
    t.reg (rCore n oHaltInfo) = code + 2 ^ 16 + 2 ^ 17 * b2n own + 2 ^ 18 * b2n noEff + 2 ^ 32 * (a.offset % 2 ^ 32)
      ∧ t.reg (rCore n oHaltCount) = (s.reg (rCore n oCount) + (s.core n).ahead + 1) % 2 ^ 64
      ∧ t.reg (rCore n oHaltTag) = a.tag % 2 ^ 16 + 2 ^ 16 * s.activeSeg n + 2 ^ 32 * (s.stp.step % 2 ^ 32)
      ∧ t.reg (rCore n oHaltTime) = s.now
      ∧ ∀ r, r ∉ [rCore n oHaltInfo, rCore n oHaltCount, rCore n oHaltTag, rCore n oHaltTime] → t.reg r = s.reg r := by
  have ne {o p : Nat} (ho : o < 0x2000) (hp : p < 0x2000) (h : o ≠ p) : rCore n o ≠ rCore n p :=
    fun e => h (rCore_inj ho hp e).2
  have w1 := fun v => (Quiet.setReg s (rCore n oHaltInfo) v).wf w
  have w2 := fun v v' => (Quiet.setReg _ (rCore n oHaltCount) v').wf (w1 v)
  have w3 := fun v v' v'' => (Quiet.setReg _ (rCore n oHaltTag) v'').wf (w2 v v')
  have hb : ∀ b : Bool, b2n b ≤ 1 := fun b => by cases b <;> decide
  have ho := hb own
  have he := hb noEff
  have seg : ∀ {s t : State}, t.reg (rCore n oBank) = s.reg (rCore n oBank) → t.activeSeg n = s.activeSeg n := by
    intro s t h
    have e : ∀ lo l, t.cfld n oBank lo l = s.cfld n oBank lo l := fun lo l => by
      rw [State.cfld, State.fld, h]; rfl
    rw [State.activeSeg, e, e, e, e]; rfl
  have hseg : ∀ s : State, s.activeSeg n < 2 ^ 16 := fun s => by
    unfold State.activeSeg; split
    · exact bitsOf_lt _ 16 16
    · split
      · exact bitsOf_lt _ 32 16
      · decide
  unfold State.haltRecord
  rw [if_neg (by omega)]
  simp only []
  refine ⟨?_, ?_, ?_, ?_, fun r hr => ?_⟩
  · rw [State.reg_setReg_ne (w3 _ _ _).regs (ne (by decide) (by decide) (by decide)),
      State.reg_setReg_ne (w2 _ _).regs (ne (by decide) (by decide) (by decide)),
      State.reg_setReg_ne (w1 _).regs (ne (by decide) (by decide) (by decide)), State.reg_setReg_same w.regs _ (by omega)]
    omega
  · rw [State.reg_setReg_ne (w3 _ _ _).regs (ne (by decide) (by decide) (by decide)),
      State.reg_setReg_ne (w2 _ _).regs (ne (by decide) (by decide) (by decide)), State.reg_setReg (w1 _).regs, if_pos rfl,
      State.reg_setReg_ne w.regs (ne (by decide) (by decide) (by decide))]
    rfl
  · have hs := hseg s
    rw [State.reg_setReg_ne (w3 _ _ _).regs (ne (by decide) (by decide) (by decide)), State.reg_setReg (w2 _ _).regs, if_pos rfl,
      seg (s := s)]
    · simp only [State.setReg_stp]; omega
    · rw [State.reg_setReg_ne (w1 _).regs (ne (by decide) (by decide) (by decide)),
        State.reg_setReg_ne w.regs (ne (by decide) (by decide) (by decide))]
  · refine (State.reg_setReg_same (w3 _ _ _).regs _ (State.reg_lt _ _)).trans ?_
    rw [State.now, State.reg_setReg_ne (w2 _ _).regs (rCore_ne_low (by decide)).symm,
      State.reg_setReg_ne (w1 _).regs (rCore_ne_low (by decide)).symm, State.reg_setReg_ne w.regs (rCore_ne_low (by decide)).symm]
  · simp only [List.mem_cons, List.not_mem_nil, or_false, not_or] at hr
    rw [State.reg_setReg_ne (w3 _ _ _).regs hr.2.2.2, State.reg_setReg_ne (w2 _ _).regs hr.2.2.1,
      State.reg_setReg_ne (w1 _).regs hr.2.1, State.reg_setReg_ne w.regs hr.1]

/-- A core that STOP finds neither running nor waiting keeps its window. -/
theorem State.stopCores_keeps {s : State} (w : s.Wf) (code : Nat) {n r : Nat} (hr : ofCore n r) (h : s.coreLive n = false) :
    (s.stopCores code).reg r = s.reg r := by
  unfold State.stopCores
  generalize s.used = l
  induction l generalizing s with
  | nil => rfl
  | cons m l ih =>
    rw [List.foldl_cons]
    by_cases hm : s.coreLive m = true
    · have hmn : m ≠ n := fun e => by rw [e, h] at hm; cases hm
      have q := (s.stopRecord_ofCore code m).trans (State.coreToHalted_ofCore _ m)
      have hno : ∀ r, ofCore n r → ¬ ofCore m r := fun r h h' => hmn (by unfold ofCore at h h'; omega)
      rw [if_pos hm, ih (q.wf w), q.regs w r (hno r hr)]
      rw [State.coreLive, State.cstate_of_regs (q.regs w _ (hno _ (ofCore_rCore (by decide) n)))]
      exact h
    · rw [if_neg hm, ih w h]

theorem ofCore_ne_low {n r : Nat} (h : ofCore n r) {a : Nat} (ha : a < coreBase) : r ≠ a := by
  have := coreReg_of_ofCore h
  unfold coreReg at this
  omega

/-- Recording a STOP writes the two STOP registers and no other. -/
theorem State.recordStop_keeps {s : State} (w : s.Wf) (origin reason time : Nat) (loc : Bool) {r : Nat}
    (hr : r ∉ [rPfStopCause, rPfStopTime]) : (s.recordStop origin reason time loc).reg r = s.reg r := by
  simp only [List.mem_cons, List.not_mem_nil, or_false, not_or] at hr
  unfold State.recordStop
  split
  · exact State.reg_setFld_ne w.regs hr.1 ..
  · simp only []
    split
    · rfl
    · rw [State.reg_setReg_ne ((Quiet.setReg s rPfStopCause _).wf w).regs hr.2, State.reg_setReg_ne w.regs hr.1]

theorem State.stopAsOrigin_keeps {s : State} (w : s.Wf) (reason time : Nat) {n r : Nat} (hr : ofCore n r)
    (h : s.coreLive n = false) : (s.stopAsOrigin reason time).reg r = s.reg r := by
  have e1 : ∀ x, ofCore n x → (s.recordStop s.herdIndex reason time true).reg x = s.reg x := fun x hx =>
    State.recordStop_keeps w _ _ _ _ (by simp [ofCore_ne_low hx (a := rPfStopCause) (by decide), ofCore_ne_low hx (a := rPfStopTime) (by decide)])
  have q1 := s.recordStop_quiet s.herdIndex reason time true
  unfold State.stopAsOrigin
  generalize s.recordStop s.herdIndex reason time true = a at e1 q1
  simp only []
  have q2 := a.sendStop_quiet (fun _ => False) a.fabricUp a.herdIndex reason time
  generalize a.sendStop a.fabricUp a.herdIndex reason time = b at q2
  have q3 := q2.trans (.setFab (fun _ => False) b { b.fab with stopOut := true, issueStopped := true, haltedAt := some b.now })
  generalize ({ b with fab := { b.fab with stopOut := true, issueStopped := true, haltedAt := some b.now } } : State) = c at q3
  have w1 := q1.wf w
  have w3 := q3.wf w1
  have w4 := (State.stopCores_quiet c reason).wf w3
  refine (State.enterHalted_regs w4 ?_).trans ((State.stopCores_keeps w3 reason hr ?_).trans ((q3.regs w1 r id).trans (e1 r hr)))
  · simp only [List.mem_cons, List.not_mem_nil, or_false, not_or]
    exact ⟨ofCore_ne_low hr (by decide), ofCore_ne_low hr (by decide)⟩
  · rw [State.coreLive, State.cstate_of_regs ((q3.regs w1 _ id).trans (e1 _ (ofCore_rCore (by decide) n)))]
    exact h

/-- Recording a fault writes PF_FAULT and PF_FAULT_TIME and no other register. -/
theorem State.noteFault_keeps {s : State} (w : s.Wf) (reason unit index time : Nat) {r : Nat}
    (hr : r ∉ [rPfFault, rPfFaultTime]) : (s.noteFault reason unit index time).reg r = s.reg r := by
  simp only [List.mem_cons, List.not_mem_nil, or_false, not_or] at hr
  have k : ∀ later, (s.recordFault reason unit index time later).reg r = s.reg r := fun later => by
    rw [State.recordFault, State.reg_setReg_ne ((Quiet.setReg s rPfFault _).wf w).regs hr.2, State.reg_setReg_ne w.regs hr.1]
  unfold State.noteFault
  split
  · rw [State.reg, (State.ibiBoth_keeps _ _).1]; exact k 0
  · simp only []
    split
    · exact k _
    · exact State.reg_setFld_ne w.regs hr.1 ..

theorem State.noteHalts_keeps {s : State} (w : s.Wf) {r : Nat} (hr : r ∉ [rPfFault, rPfFaultTime]) :
    s.noteHalts.reg r = s.reg r := by
  unfold State.noteHalts
  generalize s.ownHalts = l
  induction l generalizing s with
  | nil => rfl
  | cons e l ih => rw [List.foldl_cons, ih ((s.noteFault_quiet ..).wf w), State.noteFault_keeps w _ _ _ _ hr]

/-- A change of the packages' reason reaches only the halt records of cores that took it. -/
theorem State.recodeStops_keeps {s : State} (w : s.Wf) (old new : Nat) {n r : Nat} (hr : ofCore n r)
    (h' : r = rCore n oHaltInfo → s.cfld n oHaltInfo 16 2 ≠ 1) : (s.recodeStops old new).reg r = s.reg r := by
  unfold State.recodeStops
  generalize s.used = l
  induction l generalizing s with
  | nil => rfl
  | cons m l ih =>
    rw [List.foldl_cons]
    split
    · have q := s.setCfld_ofCore m (o := oHaltInfo) (by decide) 0 16 new
      have hno : r ≠ rCore m oHaltInfo := fun e => by
        have hm := ofCore_eq (o := oHaltInfo) (by decide) (e ▸ hr)
        subst hm
        exact h' e ‹_ ∧ _ ∧ _›.1
      rw [ih (q.wf w) ?_]
      · exact State.reg_setFld_ne w.regs hno ..
      · intro e
        rw [State.cfld, State.setCfld, State.fld_setFld_ne w.regs (e ▸ hno)]
        exact h' e
    · exact ih w h'

/-- A package fault leaves the window of a core alone that neither runs nor waits, but for the code of a core that took the
package's reason at the halt. -/
theorem State.raise_keeps {s : State} (w : s.Wf) (reason unit index : Nat) {n r : Nat} (hr : ofCore n r)
    (h : s.coreLive n = false) (h' : r = rCore n oHaltInfo → s.cfld n oHaltInfo 16 2 ≠ 1) : (s.raise reason unit index).reg r = s.reg r := by
  have ne : ∀ x, ofCore n x → x ∉ [rPfFault, rPfFaultTime] := fun x hx => by
    simp [ofCore_ne_low hx (a := rPfFault) (by decide), ofCore_ne_low hx (a := rPfFaultTime) (by decide)]
  have live {t : State} (e : ∀ x, ofCore n x → t.reg x = s.reg x) : t.coreLive n = false := by
    rw [State.coreLive, State.cstate_of_regs (e _ (ofCore_rCore (by decide) n))]; exact h
  unfold State.raise
  split
  · rfl
  · split
    · have w1 := s.noteHalts_quiet.wf w
      have e : ∀ x, ofCore n x → (s.noteHalts.noteFault reason unit index s.now).reg x = s.reg x := fun x hx =>
        (State.noteFault_keeps w1 _ _ _ _ (ne x hx)).trans (State.noteHalts_keeps w (ne x hx))
      exact (State.stopAsOrigin_keeps ((State.noteFault_quiet ..).wf w1) _ _ hr (live e)).trans (e r hr)
    · have e : ∀ x, ofCore n x → (s.noteFault reason unit index s.now).reg x = s.reg x := fun x hx =>
        State.noteFault_keeps w _ _ _ _ (ne x hx)
      have w1 := (s.noteFault_quiet reason unit index s.now).wf w
      simp only []
      generalize s.noteFault reason unit index s.now = t at e w1
      split
      · have w2 := (t.recodeStops_quiet (s.fld rPfFault 0 16) (t.fld rPfFault 0 16)).wf w1
        have k := State.recodeStops_keeps w1 (s.fld rPfFault 0 16) (t.fld rPfFault 0 16) hr fun x => by
          rw [State.cfld, State.fld, e _ (ofCore_rCore (by decide) n)]; exact h' x
        unfold State.recode
        simp only []
        generalize t.recodeStops (s.fld rPfFault 0 16) (t.fld rPfFault 0 16) = u at w2 k
        split
        · rw [(State.restop_quiet (fun _ => False) ..).regs ((Quiet.setFld _ rPfStopCause 16 16 _).wf w2) r id,
            State.reg_setFld_ne w2.regs (ofCore_ne_low hr (by decide)), k, e r hr]
        · rw [(State.restop_quiet (fun _ => False) ..).regs w2 r id, k, e r hr]
      · exact e r hr

/-- A core halts with its own code (R130, R422): its record, its state, the package's fault. -/
theorem State.coreHaltNow_spec {s : State} (w : s.Wf) (a : Attr) {code : Nat} (noEff : Bool) (hc : code < 2 ^ 16)
    (hr : s.running = true) (hq : ∀ n ∈ s.used, (s.core n).ending = none) :
    let t := s.coreHaltNow a code noEff
    t.cstate a.core = 5 ∧ t.reg (rCore a.core oCount) = s.reg (rCore a.core oCount)
      ∧ (s.cfld a.core oHaltInfo 16 1 = 0 →
          t.reg (rCore a.core oHaltInfo) = code + 2 ^ 16 + 2 ^ 17 + 2 ^ 18 * b2n noEff + 2 ^ 32 * (a.offset % 2 ^ 32)
          ∧ t.reg (rCore a.core oHaltTag) = a.tag % 2 ^ 16 + 2 ^ 16 * s.activeSeg a.core + 2 ^ 32 * (s.stp.step % 2 ^ 32))
      ∧ (s.fld rPfFault 16 1 = 0 → t.bu = 7 ∧ t.fld rPfFault 0 16 = code ∧ t.fld rPfFault 17 3 = 0
          ∧ t.fld rPfFault 20 11 = a.core % 2 ^ 11) := by
  have ne {o p : Nat} (ho : o < 0x2000) (hp : p < 0x2000) (h : o ≠ p) : rCore a.core o ≠ rCore a.core p :=
    fun e => h (rCore_inj ho hp e).2
  obtain ⟨u, eu⟩ : ∃ u, s.haltRecord a.core code true noEff a = u := ⟨_, rfl⟩
  obtain ⟨v, ev⟩ : ∃ v, u.coreToHalted a.core = v := ⟨_, rfl⟩
  have q1 : Quiet (ofCore a.core) s u := eu ▸ s.haltRecord_ofCore ..
  have q2 : Quiet (ofCore a.core) u v := ev ▸ u.coreToHalted_ofCore _
  have w1 := q1.wf w
  have w2 := q2.wf w1
  have hv : ∀ n, v.cstate n = if n = a.core then 5 else u.cstate n := fun n => ev ▸ State.cstate_coreToHalted w1 _ n
  have hl : v.coreLive a.core = false := by rw [State.coreLive, hv]; simp [csRun, csHeel]
  have hk : ∀ o < 0x2000, o ≠ oState → o ≠ oBank → v.reg (rCore a.core o) = u.reg (rCore a.core o) := fun o ho h1 h2 => by
    have k (s : State) (w : s.Wf) (lo : Nat) : (s.setCfld a.core oBank lo 2 2).reg (rCore a.core o) = s.reg (rCore a.core o) :=
      State.reg_setFld_ne w.regs (ne ho (by decide) h2) ..
    rw [← ev]
    unfold State.coreToHalted State.bankRest
    simp only []
    have w0 := (u.dropWindow_ofCore a.core).wf w1
    have e0 : (u.dropWindow a.core).reg (rCore a.core o) = u.reg (rCore a.core o) :=
      (State.reg_setFld_ne ((Quiet.setCore coreReg u a.core [] [] none (u.core a.core).panting).wf w1).regs
        (ne ho (by decide) h1) ..).trans rfl
    generalize u.dropWindow a.core = d at w0 e0
    have w3 := (Quiet.setCore coreReg d a.core (d.core a.core).window (d.core a.core).stream (d.core a.core).ending
      (d.fld rPwrPant 0 1 == 1)).wf w0
    have w4 := (Quiet.setCfld (d.setCore a.core { d.core a.core with panting := d.fld rPwrPant 0 1 == 1 }) a.core oBank 0 2 2).wf w3
    have e : (d.setCore a.core { d.core a.core with panting := d.fld rPwrPant 0 1 == 1 }).reg (rCore a.core o)
        = u.reg (rCore a.core o) := e0
    have g (s : State) (w : s.Wf) : (s.setCstate a.core csHalted).reg (rCore a.core o) = s.reg (rCore a.core o) :=
      State.reg_setFld_ne w.regs (ne ho (by decide) h1) ..
    split <;> split
    · rw [g _ ((Quiet.setCfld _ _ _ _ _ _).wf w4), k _ w4, k _ w3, e]
    · rw [g _ w4, k _ w3, e]
    · rw [g _ ((Quiet.setCfld _ _ _ _ _ _).wf w3), k _ w3, e]
    · rw [g _ w3, e]
  have et : s.coreHaltNow a code noEff = v.raise code 0 a.core := by unfold State.coreHaltNow; simp only [eu, ev]
  have low : ∀ r < coreBase, v.reg r = s.reg r := fun r h => by
    have hn : ¬ ofCore a.core r := fun k => not_coreReg h (coreReg_of_ofCore k)
    rw [q2.regs w1 r hn, q1.regs w r hn]
  simp only [et]
  refine ⟨?_, ?_, fun h0 => ?_, fun h0 => ?_⟩
  · rw [State.cstate_of_regs (State.raise_keeps w2 _ _ _ (ofCore_rCore (by decide) _) hl
      fun e => absurd e (ne (by decide) (by decide) (by decide))), hv, if_pos rfl]
  · rw [State.raise_keeps w2 _ _ _ (ofCore_rCore (by decide) _) hl fun e => absurd e (ne (by decide) (by decide) (by decide)),
      hk _ (by decide) (by decide) (by decide), ← eu]
    by_cases hh : s.cfld a.core oHaltInfo 16 1 = 0
    · refine (State.haltRecord_spec w _ _ _ _ hc hh).2.2.2.2 _ ?_
      simp only [List.mem_cons, List.not_mem_nil, or_false, not_or]
      exact ⟨ne (by decide) (by decide) (by decide), ne (by decide) (by decide) (by decide),
        ne (by decide) (by decide) (by decide), ne (by decide) (by decide) (by decide)⟩
    · have : s.cfld a.core oHaltInfo 16 1 < 2 := bitsOf_lt _ 16 1
      rw [State.haltRecord, if_pos (by omega)]
  · obtain ⟨h1, -, h3, -, -⟩ := State.haltRecord_spec w a.core true noEff a hc h0
    rw [eu] at h1 h3
    have hb : b2n noEff ≤ 1 := by cases noEff <;> decide
    have hi : v.cfld a.core oHaltInfo 16 2 ≠ 1 := by
      rw [State.cfld, State.fld, hk _ (by decide) (by decide) (by decide), h1, bitsOf]
      have : b2n true = 1 := rfl
      omega
    rw [State.raise_keeps w2 _ _ _ (ofCore_rCore (by decide) _) hl fun _ => hi,
      State.raise_keeps w2 _ _ _ (ofCore_rCore (by decide) _) hl fun e => absurd e (ne (by decide) (by decide) (by decide)),
      hk _ (by decide) (by decide) (by decide), hk _ (by decide) (by decide) (by decide), h1, h3]
    exact ⟨by rw [b2n, if_pos rfl, Nat.mul_one], rfl⟩
  · have hr' : v.running = true := by
      rw [State.running, State.bu, State.fld, low _ (by decide)]; exact hr
    have hh : v.ownHalts = [] := State.ownHalts_nil fun n hn hl' => by
      have hne : n ≠ a.core := fun e => by rw [e, hl] at hl'; cases hl'
      have hu : s.used = v.used := by rw [q2.used, q1.used]
      rw [← hq n (hu ▸ hn), ← ev, State.coreToHalted_ending w1, if_neg hne, ← eu, State.haltRecord_core]
    obtain ⟨h1, h2, -⟩ := State.raise_run w2 hr' (by rw [State.fld, low _ (by decide)]; exact h0) hh hc 0 a.core
    refine ⟨h1, ?_, ?_, ?_⟩ <;> rw [State.fld, h2, bitsOf] <;> omega

/-- With no command of the window being issued, a core halts at once. -/
theorem State.checkFail_alone {s : State} {a : Attr} (code : Nat) (h : (s.core a.core).window = []) :
    s.checkFail a code = s.coreHaltNow a code true := by
  have e : (s.core a.core).issues = false := by rw [CoreSt.issues, h]; rfl
  rw [State.checkFail, State.coreHalt]
  simp only [e, Bool.false_eq_true, if_false]

/-! ### Unspecified contents -/

theorem mapGet_scrambled (p : Nat → Bool) (f : Nat → Byte) (m : List (Nat × Byte)) (a : Nat) (h : p a = false) :
    mapGet memDefault ((m.map (fun c => if p c.1 then (c.1, f c.1) else c)).filter (fun c => c.2 != memDefault c.1)) a
      = mapGet memDefault (m.filter (fun c => c.2 != memDefault c.1)) a := by
  induction m with
  | nil => rfl
  | cons e m ih =>
    obtain ⟨k, v⟩ := e
    simp only [List.map_cons, List.filter_cons]
    cases hp : p k
    · simp only [Bool.false_eq_true, if_false]
      split <;> simp only [mapGet, ih]
    · have hk : k ≠ a := by rintro rfl; rw [hp] at h; cases h
      simp only [if_true]
      split <;> split <;> simp only [mapGet, ih, hk, if_false]

/-- Scrambling keeps memory canonical. -/
theorem State.Wf.scramble {s : State} (w : s.Wf) (p : Nat → Bool) : (s.scramble p).Wf := by
  refine { w with mem := ⟨?_, ?_⟩ }
  · refine List.Pairwise.filter _ (List.pairwise_map.2 (w.mem.1.imp ?_))
    intro a b hab
    show (if p a.1 then (a.1, _) else a).1 < (if p b.1 then (b.1, _) else b).1
    split <;> split <;> exact hab
  · intro e he
    simpa using (List.mem_filter.1 he).2

/-- Scrambling leaves every byte outside its addresses. -/
theorem State.scramble_byte {s : State} (w : s.Wf) {p : Nat → Bool} {a : Nat} (h : p a = false) :
    (s.scramble p).byte a = s.byte a := by
  have e : s.mem.filter (fun c => c.2 != memDefault c.1) = s.mem :=
    List.filter_eq_self.2 (fun c hc => by simpa using w.mem.2 c hc)
  show mapGet memDefault _ a = mapGet memDefault s.mem a
  conv => rhs; rw [← e]
  exact mapGet_scrambled p (fun k => BitVec.ofNat 8 (Config.freeWord (s.free + k)).toNat) s.mem a h

end Sys2Proof.Machine
end

