-- ==== Sys2Proof/Tests/Slice0.lean ====
section
/-! SUPPORT. Tests: ill-formed commands are refused by `wellFormed`; for each statement a concrete state and operands that
meet its hypotheses, clause by clause; and single commands on small states, with the result taken from the spec. -/

set_option Elab.async false

namespace Sys2Proof.Tests
open Sys2Proof Sys2Proof.Machine

/-! ### Small states -/

/-- The canonical form of a state, evaluated. -/
def wfb (s : State) : Bool :=
  decide (mapWf regDefault s.regs) && decide (mapWf memDefault s.mem) && decide (mapWf portDefault s.ports)
    && decide (mapWf coreDefault s.cores) && s.cores.all (fun e => decide (mapWf memDefault e.2.sram))
    && decide (mapWf (fun _ => SqSt.reset) s.hl.sqs) && decide (mapWf (fun _ => CqSt.reset) s.hl.cqs)

theorem wf_of {s : State} (h : wfb s = true) : s.Wf := by
  simp only [wfb, Bool.and_eq_true, decide_eq_true_eq, List.all_eq_true] at h
  obtain ⟨⟨⟨⟨⟨⟨a, b⟩, c⟩, d⟩, e⟩, f⟩, g⟩ := h
  exact ⟨a, b, c, d, fun x hx => e x hx, f, g⟩

/-- Nothing waits for pack time, evaluated. -/
def settledb (s : State) : Bool :=
  s.fab.held.all (fun h => !h.atEndpoint || decide (s.now < s.packOf h.due)) && s.used.all (fun n => (s.core n).window.isEmpty)
    && s.used.all (fun n => (s.core n).ending.isNone) && s.stp.staged.isEmpty

theorem settled_of {s : State} (h : settledb s = true) : s.Settled := by
  simp only [settledb, Bool.and_eq_true, List.all_eq_true, Bool.or_eq_true, Bool.not_eq_true', decide_eq_true_eq, List.isEmpty_iff, Option.isNone_iff_eq_none] at h
  exact ⟨fun x hx e => (h.1.1.1 x hx).resolve_left (by simp [e]), h.1.1.2, h.1.2, h.2⟩

/-- Readiness of a command, evaluated; it names no engine. -/
def readyb (s : State) (a : Attr) : Bool :=
  !s.dark && s.fetching a.core && (s.core a.core).stream.isEmpty && (s.core a.core).ending.isNone && settledb s && !s.armed && a.defined
    && a.engines == 0 && a.mem == { } && s.failing.isEmpty && decide ((s.core a.core).asOf ≤ s.now)

theorem ready_of {s : State} {a : Attr} (h : readyb s a = true) : s.Ready a := by
  simp only [readyb, Bool.and_eq_true, Bool.not_eq_true', Option.isNone_iff_eq_none, List.isEmpty_iff, beq_iff_eq, decide_eq_true_eq] at h
  obtain ⟨⟨⟨⟨⟨⟨⟨⟨⟨⟨a, b⟩, c⟩, c'⟩, c''⟩, d⟩, e⟩, f⟩, g⟩, i⟩, j⟩ := h
  exact ⟨a, b, ⟨c, c'⟩, settled_of c'', d, e, by rw [f, Nat.zero_and], ⟨g, i⟩, j⟩

/-- Powered, in WHELP, no register set. -/
def base : State := { State.reset with regs := [] }

/-- Registers written over. -/
def put (s : State) (rs : List (Nat × Nat)) : State := rs.foldl (fun s r => s.setReg r.1 r.2) s

/-- MC_LEAD_STAT with ROLE `r` and CONFLICT `c`. -/
def leadStat (r c : Nat) : Nat := 2 * r + 16 * c

/-- Powered with both controllers settled: MC-W leads, MC-E follows. -/
def led (rs : List (Nat × Nat)) : State :=
  put { base with mcw := { McSt.reset with checked := true, lead := true }, mce := { McSt.reset with checked := true, follow := true }
                  pkg := { Pkg.reset with whelp := true, hbmUp := true, computeOn := true, niMap := List.replicate 4 0x8000 } }
    ([(rMcLeadStat, leadStat 1 0), (mceBase + rMcLeadStat, leadStat 2 0)] ++ rs)

/-- Command attributes: core 1, offset 64, tag 7. -/
def at1 : Attr := { core := 1, offset := 64, tag := 7, kind := .fwd, defined := true, engines := 0 }

/-- A working tensor of 16 T32 elements (kind 2), a state tensor and so on: index, format, kind, elements. -/
def tens (i fmt kind n : Nat) : Tensor :=
  { index := i, fmt, cls := 0, kind, flags := 0, rank := 1, margin := 0, ns := 0, stage := 0, scale := 0x3F800000, dims := [n],
    status := 0xFFFF_FFFF, layer := 0 }

/-- One segment 5 of 1,024 bytes. -/
def info1 : Config.ProgInfo :=
  { segments := [⟨5, 0, 1024, true⟩, ⟨6, 1024, 512, false⟩], engines := 0, undefAt := none, noLadder := false, counters := [],
    ladder := none, sends := [] }

/-- A job of one package that uses core 1. -/
def job1 : Job :=
  { digest := 0, herdIdx := 0
    hdr := { herd := 1, replicas := 1, freq := 1600, flags := 0, subnormal := 0, delayD := 0, depth := 1, ns := 1, diameter := 0,
             lambdaMax := 0, snapEvery := 0, tauC := 0x7F800000, tauA := 0x7F800000, stepLen := 4096, statusDel := 2048, eN := 2048,
             eW := 2048, lW := 2048, updates := [] }
    tensors := [], shards := [], places := [], recipes := [], ladders := [], dropKey := 1, srKey := 2, userKey := 3, sites := [], inputs := []
    res := { cores := 2, streams := 0, sram := 0, acc := 0, runs := 0, hbm := [], ddr := [], cmdAddr := 0, cmdLen := 0, engines := 0 }
    streams := [], runs := [], colls := [], progMap := [(0xFFFF_FFFF, 0), (9, 5)], ranges := []
    progs := [⟨9, 0x4000, [], info1⟩], inits := [], masks := [], ladderOf := [] }

/-- A running package with job `j`, core 1 fetching segment 5 from bank 0, registers `rs` set. -/
def ran (j : Job) (rs : List (Nat × Nat)) : State :=
  { led ([(rBuState, 6), (rCore 1 oState, 2), (rCore 1 oBank, 3 + 2 ^ 16 * 5)] ++ rs) with
    job := some j, stp := { StepSt.reset with started := true, begun := true } }

/-- Port `p` UP in mode `m`. -/
def upPort (p m : Nat) : List (Nat × Nat) := [(rPortMode p, m), (rPortStat p, 6)]

def flit0 : Flit :=
  { type := 1, resend := false, last := false, stream := 0, hop := 0, sendStamp := 0, nakValid := false, nakStamp := 0, seq := 0
    payload := List.replicate 224 0 }
def find0 : Findings :=
  { powerOk := true, tripHolds := false, badLanes := [], badRouters := [], badSites := [], hbmFail := [], ddr := List.replicate 12 none
    polls := [], selfTestFail := [], aged := [], logWriteFail := false }
def conv0 : Sys2Proof.Conv :=
  { dst := .t32, sSrc := 0x3F800000, sDst := 0x3F800000, draw := 0, counter := none, first := 0, act := none, back := none, dropout := none }

/-! ### Ill-formed commands -/

def badAttr : Attr := { at1 with core := 2048 }
theorem test_wf_core : wellFormed (.fence badAttr) = false := by decide
theorem test_wf_offset : wellFormed (.fence { at1 with offset := 2 ^ 32 }) = false := by decide
theorem test_wf_tag : wellFormed (.fence { at1 with tag := 2 ^ 16 }) = false := by decide
theorem test_wf_engines : wellFormed (.fence { at1 with engines := 2 ^ 16 }) = false := by decide
theorem test_wf_fence : wellFormed (.fence at1) = true := by decide
theorem test_wf_port : wellFormed (.train 18) = false := by decide
theorem test_wf_queue : wellFormed (.descFetch 64) = false := by decide
theorem test_wf_count : wellFormed (.nop 0 (2 ^ 32)) = false := by decide
theorem test_wf_tag16 : wellFormed (.hAck 0 (2 ^ 16) 0) = false := by decide
theorem test_wf_addr : wellFormed (.snpInv 0 0 (2 ^ 52)) = false := by decide
theorem test_wf_lines : wellFormed (.memRd 0 0 0 ⟨4, {}⟩) = false := by decide
theorem test_wf_lineData : wellFormed (.memWr 0 0 0 ⟨some [0], {}⟩) = false := by decide
theorem test_wf_site : wellFormed (.inspect { find0 with badSites := [⟨0, 36, 0⟩] }) = false := by decide
theorem test_wf_lane : wellFormed (.inspect { find0 with badLanes := [⟨0, 0, 0, 4, 0, 0⟩] }) = false := by decide
theorem test_wf_stack : wellFormed (.inspect { find0 with hbmFail := [8] }) = false := by decide
theorem test_wf_channels : wellFormed (.inspect { find0 with ddr := [] }) = false := by decide
theorem test_wf_inspect : wellFormed (.inspect find0) = true := by decide
theorem test_wf_flitType : wellFormed (.dataFlitReceive 0 0 ⟨{ flit0 with type := 16 }, {}⟩) = false := by decide
theorem test_wf_payload : wellFormed (.dataFlitReceive 0 0 ⟨{ flit0 with payload := [] }, {}⟩) = false := by decide
theorem test_wf_errs : wellFormed (.dataFlitReceive 0 0 ⟨flit0, { errs := [256] }⟩) = false := by decide +kernel
theorem test_wf_hlFlit : wellFormed (.hostlinkFlitReceive 0 1 4096 (0, false) false 0 { payload := List.replicate 224 0 }) = false := by
  decide
theorem test_wf_found : wellFormed (.retryExhausted 0 (some { flit0 with hop := 8 })) = false := by decide +kernel
theorem test_wf_flit : wellFormed (.dataFlitReceive 1 0 ⟨flit0, { errs := [255] }⟩) = true := by decide +kernel
theorem test_wf_temp : wellFormed (.powerSample ⟨0, 0, 256, 0, 0, 0⟩) = false := by decide
theorem test_wf_i3c : wellFormed (.i3cPointerWrite .west [0]) = false := by decide
theorem test_wf_i3cAddr : wellFormed (.setdasa .west 128 0) = false := by decide
theorem test_wf_bank : wellFormed (.imemBankLoadComplete 0 2) = false := by decide
theorem test_wf_slot : wellFormed (.chrysalisReady 2) = false := by decide
theorem test_wf_sramOffset : wellFormed (.accept at1 0 0 (2 ^ 20)) = false := by decide
theorem test_wf_stream : wellFormed (.accept at1 (2 ^ 15) 0 0) = false := by decide
theorem test_wf_powerDie : wellFormed (.powerStageDieTemperature 4) = false := by decide

/-! ### Witnesses: the block -/

theorem wit_emptyQueue_dark : ({ base with pkg := { Pkg.reset with vin := false } } : State).pending = []
    ∧ ({ base with pkg := { Pkg.reset with vin := false } } : State).dark = true := by decide +kernel
theorem wit_emptyQueue_live : base.pending = [] ∧ base.dark = false ∧ base.issuing = false ∧ base.Wf :=
  ⟨rfl, by decide +kernel, by decide +kernel, wf_of (by decide +kernel)⟩
theorem wit_emptyQueue_up : (put base (upPort 1 1)).Wf ∧ 1 ∈ (put base (upPort 1 1)).fabricUp
    ∧ (∀ p ∈ (put base (upPort 1 1)).fabricUp, ((put base (upPort 1 1)).port p).naks = [] ∧ ((put base (upPort 1 1)).port p).stops = []
        ∧ ((put base (upPort 1 1)).port p).annOut = [] ∧ ((put base (upPort 1 1)).port p).timeDue = false
        ∧ ((put base (upPort 1 1)).port p).carried = (put base (upPort 1 1)).now)
    ∧ (put base (upPort 0 2)).portUp 0 = true ∧ (put base (upPort 0 2)).mode 0 ≠ 1 ∧ base.portUp 1 = false :=
  ⟨wf_of (by decide +kernel), by decide +kernel⟩
theorem wit_dark : ({ base with pkg := { Pkg.reset with latched := true } } : State).dark = true
    ∧ (∀ l a b f, Instr.run ≠ .vin48Valid l a b f) ∧ Instr.run ≠ .vin48Loss ∧ Instr.run ≠ .sb33Loss ∧ Instr.run ≠ .sb33Return :=
  ⟨by decide +kernel, by simp, by simp, by simp, by simp⟩
theorem wit_stepKeeps : State.reset.Wf ∧ ∃ t, step State.reset = .next t := ⟨wf_of (by decide +kernel), _, rfl⟩
theorem wit_commandsKeep : ∃ t, exec .run base = .next t := ⟨_, rfl⟩
theorem wit_fused : ∃ t, exec .svnCommit base = .next t := ⟨_, rfl⟩

/-! ### Witnesses: power and leadership -/

theorem wit_powerOn : base.pkg.vin = true ∧ ({ base with pkg := { Pkg.reset with vin := false } } : State).pkg.vin = false := by
  decide +kernel
theorem wit_powerLoss : base.pkg.vin = true := rfl
/-- FW_WRITE in progress, neither self-check done, an interrupt held at MC-W. -/
def sSb : State :=
  { put base [(rSecOpStat, 1)] with sec := { SecSt.reset with op := 3 }, mcw := { McSt.reset with ibiHeld := some 0x0B01 } }
theorem wit_sb33 : sSb.Wf ∧ sSb.dark = false ∧ (sSb.mc .west).checked = false ∧ sSb.fld rSecOpStat 0 1 = 1 ∧ sSb.sec.op = 3
    ∧ (sSb.mc sSb.leader).region = 0 ∧ (sSb.mc .west).ibiHeld = some 0x0B01 ∧ (sSb.mc .west).ibiOn = true :=
  ⟨wf_of (by decide +kernel), by decide +kernel⟩
theorem wit_sb33_checked : ({ sSb with mce := { McSt.reset with checked := true, region := 1 } } : State).mce.checked = true
    ∧ (({ put sSb [(rBuState, 1 + 2 ^ 6)] with mce := { McSt.reset with checked := true, region := 1 } } : State).mc
      ({ put sSb [(rBuState, 1 + 2 ^ 6)] with mce := { McSt.reset with checked := true, region := 1 } } : State).leader).region ≠ 0 := by
  decide +kernel

/-- Header of a firmware image of a component, SVN 3, root slot 0, with an empty body. -/
def fwHdr (comp : Byte) : List Byte :=
  ascii "TCHKFWIM" ++ leBytes 2 1 ++ [comp, 0, 3, 0, 0, 0] ++ List.replicate 48 0 ++ leBytes 64 (sha3_512 []).toNat
/-- The image: its header, a signature and key of zeros, and what follows it. -/
def fwImg (comp : Byte) (tail : List Byte) : List Byte := fwHdr comp ++ (List.replicate 0x1CC0 0 ++ tail)
/-- What the root key of zeros has signed. -/
def fwSig (comp : Byte) : SigFact := ⟨List.replicate 2592 0, ctxFw, sha3_512 (fwHdr comp), List.replicate 4627 0⟩
/-- Fuses with that root key in slot 0; region A holds a signed MC image. -/
def nvFw : Nv := { Nv.factory with roots := [sha3_512 (List.replicate 2592 0), 0, 0, 0], regionA := fwImg 1 [] }
def sFw : State := { base with nv := nvFw, sigs := [fwSig 1, fwSig 2] }
theorem fwHdr_parts : ∀ c ∈ [1, 2], (fwHdr (BitVec.ofNat 8 c)).length = 128 ∧ Machine.fieldLe (fwHdr (BitVec.ofNat 8 c)) 0x010 4 = 0
    ∧ slice (fwHdr (BitVec.ofNat 8 c)) 0 8 = ascii "TCHKFWIM" ∧ Machine.fieldLe (fwHdr (BitVec.ofNat 8 c)) 8 2 = 1
    ∧ Machine.fieldLe (fwHdr (BitVec.ofNat 8 c)) 0x00A 1 = c ∧ Machine.fieldLe (fwHdr (BitVec.ofNat 8 c)) 0x00B 1 = 0
    ∧ Machine.fieldLe (fwHdr (BitVec.ofNat 8 c)) 0x00C 1 = 3
    ∧ sha3_512 [] = BitVec.ofNat 512 (Machine.fieldLe (fwHdr (BitVec.ofNat 8 c)) 0x040 64) := by decide +kernel
theorem fwCheck_ok {nv : Nv} {sigs : List SigFact} {img : List Byte} {c : Nat} (h1 : 0x1D40 ≤ img.length)
    (hl : Machine.fieldLe img 0x010 4 = 0)
    (h2 : slice img 0 8 = ascii "TCHKFWIM") (h3 : Machine.fieldLe img 8 2 = 1) (h4 : Machine.fieldLe img 0x00A 1 = c)
    (h5 : Machine.fieldLe img 0x00B 1 = 0) (h6 : Machine.fieldLe img 0x00C 1 = 3) (h7 : nv.revoked = 0) (h8 : nv.mcCtr = 0)
    (h8' : nv.coreCtr = 0) (h9 : nv.roots.getD 0 0 = sha3_512 (slice img 0x1300 2592))
    (h10 : ⟨slice img 0x1300 2592, ctxFw, sha3_512 (slice img 0 0x80), slice img 0x080 4627⟩ ∈ sigs)
    (h11 : sha3_512 [] = BitVec.ofNat 512 (Machine.fieldLe img 0x040 64)) : ∃ i, fwCheck nv sigs c img = .ok i := by
  simp only [fwCheck]
  rw [if_neg, if_neg, if_neg, if_neg, if_neg, if_neg]
  · exact ⟨_, rfl⟩
  · rw [h6, h8, h8']; split <;> decide
  · rw [hl, slice_zero, h11]; exact fun h => h rfl
  · simpa using h10
  · rw [h5]; simpa using h9
  · simp [h7, bitsOf]
  · rintro (h | h | h | h | h | h | h) <;> first | omega | exact h h2
theorem fwCheck_img {nv : Nv} {sigs : List SigFact} (c : Nat) (hc : c ∈ [1, 2]) (tail : List Byte) (h7 : nv.revoked = 0) (h8 : nv.mcCtr = 0)
    (h8' : nv.coreCtr = 0) (h9 : nv.roots.getD 0 0 = sha3_512 (List.replicate 2592 0)) (h10 : fwSig (BitVec.ofNat 8 c) ∈ sigs) :
    ∃ i, fwCheck nv sigs c (fwImg (BitVec.ofNat 8 c) tail) = .ok i := by
  obtain ⟨h0, h1, h4, h5, h6, h3, h2, h11⟩ := fwHdr_parts c hc
  have f {o n : Nat} (h : o + n ≤ 128) : slice (fwImg (BitVec.ofNat 8 c) tail) o n = slice (fwHdr (BitVec.ofNat 8 c)) o n :=
    slice_append_left (by omega)
  have z {o n : Nat} (h : 128 ≤ o) (h' : o + n ≤ 0x1D40) : slice (fwImg (BitVec.ofNat 8 c) tail) o n = List.replicate n 0 := by
    rw [fwImg, slice_append_right (by omega), slice_append_left (by rw [List.length_replicate]; omega), slice_zeros]
  have a : slice (fwHdr (BitVec.ofNat 8 c)) 0 0x80 = fwHdr (BitVec.ofNat 8 c) := by rw [← h0]; exact slice_all _
  apply fwCheck_ok
  · rw [fwImg, List.length_append, List.length_append, h0, List.length_replicate]; omega
  · rw [Machine.fieldLe, f (by omega)]; exact h1
  · rw [f (by omega)]; exact h4
  · rw [Machine.fieldLe, f (by omega)]; exact h5
  · rw [Machine.fieldLe, f (by omega)]; exact h6
  · rw [Machine.fieldLe, f (by omega)]; exact h3
  · rw [Machine.fieldLe, f (by omega)]; exact h2
  · exact h7
  · exact h8
  · exact h8'
  · rw [z (by omega) (by omega)]; exact h9
  · rw [z (show 128 ≤ 0x1300 by omega) (show 0x1300 + 2592 ≤ 0x1D40 by omega), z (show 128 ≤ 0x080 by omega) (show 0x080 + 4627 ≤ 0x1D40 by omega),
      f (show 0 + 0x80 ≤ 128 by omega), a]; exact h10
  · rw [Machine.fieldLe, f (by omega)]; exact h11
theorem fwCheck_short {nv : Nv} {sigs : List SigFact} {c : Nat} {img : List Byte} (h : img.length < 0x1D40) :
    fwCheck nv sigs c img = .bad := by
  simp only [fwCheck]
  rw [if_pos]
  generalize Machine.fieldLe img 0x010 4 = n
  left; omega
theorem romBoot_regionA {nv : Nv} {sigs : List SigFact} {i : FwInfo} (ha : fwCheck nv sigs 1 nv.regionA = .ok i)
    (hb : nv.regionB = []) : romBoot nv sigs = some (0, i) := by
  have hb : fwCheck nv sigs 1 nv.regionB = .bad := fwCheck_short (by rw [hb, List.length_nil]; omega)
  simp only [romBoot, ha, hb]
theorem romBoot_sFw : ∃ i, romBoot sFw.nv sFw.sigs = some (0, i) :=
  (fwCheck_img (nv := nvFw) (sigs := [fwSig 1, fwSig 2]) 1 (by decide) [] rfl rfl rfl rfl List.mem_cons_self).imp
    fun _ hi => romBoot_regionA hi rfl
theorem wit_selfCheck : sFw.Wf ∧ sFw.dark = false ∧ (sFw.mc .west).checked = false ∧ (true && true && sFw.pkg.sb33) = true
    ∧ (∃ i, romBoot sFw.nv sFw.sigs = some (0, i)) ∧ sFw.mode 0 = 2 ∧ sFw.portState 0 = 0 :=
  ⟨wf_of (by decide +kernel), by decide +kernel, by decide +kernel, by decide +kernel, romBoot_sFw, by decide +kernel, by decide +kernel⟩
theorem wit_selfCheck_bad : base.Wf ∧ base.dark = false ∧ (base.mc .east).checked = false ∧ (false && true && base.pkg.sb33) = false :=
  ⟨wf_of (by decide +kernel), by decide +kernel⟩

/-- MC-E, not the candidate, about to end its self-check with what it has seen. -/
def sSaw (l f : Bool) : State := { sFw with mce := { McSt.reset with sawLead := l, sawFail := f } }
theorem wit_selfCheck_follower : ∀ l f, (sSaw l f).Wf ∧ (sSaw l f).dark = false ∧ ((sSaw l f).mc .east).checked = false ∧ (sSaw l f).candidate ≠ .east
    ∧ (sSaw l f).role .east ≠ 3 ∧ ((sSaw l f).mc .east).follow = false ∧ (sSaw l f).forced .east = false ∧ (sSaw l f).conflict .east = false
    ∧ ((sSaw l f).mc .east).sawLead = l ∧ ((sSaw l f).mc .east).sawFail = f ∧ (sSaw l f).mode 9 = 2 ∧ (sSaw l f).portState 9 = 0 ∧ sFw.candidate = .west :=
  fun l f => ⟨wf_of (by cases l <;> cases f <;> decide +kernel), by cases l <;> cases f <;> decide +kernel⟩
theorem wit_selfCheck_again : ({ sFw with mcw := { McSt.reset with checked := true } } : State).Wf
    ∧ (({ sFw with mcw := { McSt.reset with checked := true } } : State).mc .west).checked = true :=
  ⟨wf_of (by decide +kernel), rfl⟩

/-- Both self-checks done; the given controllers' signals. -/
def hs (w e : McSt) (rs : List (Nat × Nat)) : State := put { base with mcw := { w with checked := true }, mce := { e with checked := true } } rs
/-- Controller `m` has no role and asserts nothing. -/
def undecidedb (s : State) (m : Mc) : Bool :=
  s.role m != 3 && !(s.mc m).lead && !(s.mc m).follow && !s.forced m && !s.conflict m
theorem wit_handshake_follow : (hs { McSt.reset with lead := true } McSt.reset []).Wf
    ∧ (hs { McSt.reset with lead := true } McSt.reset []).dark = false ∧ ((hs { McSt.reset with lead := true } McSt.reset []).mc .east).checked = true
    ∧ (hs { McSt.reset with lead := true } McSt.reset []).pkg.channel = true
    ∧ ((hs { McSt.reset with lead := true } McSt.reset []).mc (mcOther .east)).lead = true
    ∧ undecidedb (hs { McSt.reset with lead := true } McSt.reset []) .east = true
    ∧ undecidedb (hs { McSt.reset with lead := true } { McSt.reset with follow := true } []) .east = false
    ∧ undecidedb (hs { McSt.reset with failSig := true } { McSt.reset with lead := true } []) .east = false
    ∧ ({ base with pkg := { Pkg.reset with channel := false } } : State).pkg.channel = false :=
  ⟨wf_of (by decide +kernel), by decide +kernel⟩
def sFollow : State := hs { McSt.reset with lead := true } { McSt.reset with follow := true } [(mceBase + rMcLeadStat, leadStat 2 0)]
theorem wit_handshake_leader : sFollow.Wf ∧ sFollow.dark = false ∧ (sFollow.mc .west).checked = true ∧ sFollow.pkg.channel = true
    ∧ sFollow.role .west = 0 ∧ sFollow.forced .west = false ∧ sFollow.conflict .west = false
    ∧ (sFollow.mc (mcOther .west)).follow = true ∧ (sFollow.mc .west).lead = true :=
  ⟨wf_of (by decide +kernel), by decide +kernel⟩
def sFail : State := hs { McSt.reset with failSig := true } McSt.reset [(rMcLeadStat, leadStat 3 0)]
theorem wit_handshake_fail : sFail.Wf ∧ sFail.dark = false ∧ (sFail.mc .east).checked = true ∧ sFail.role .east = 0
    ∧ (sFail.mc (mcOther .east)).failSig = true ∧ undecidedb sFail .east = true ∧ (sFail.mc .east).sawLead = false :=
  ⟨wf_of (by decide +kernel), by decide +kernel⟩
def sQuiet : State := hs McSt.reset McSt.reset []
theorem wit_candidate : sQuiet.Wf ∧ sQuiet.dark = false ∧ (sQuiet.mc .east).checked = true ∧ undecidedb sQuiet .east = true ∧ sQuiet.candidate ≠ .east
    ∧ (sQuiet.mc .east).sawLead = false ∧ (sQuiet.mc .east).sawFail = false :=
  ⟨wf_of (by decide +kernel), by decide +kernel⟩
def sClaim : State := hs { McSt.reset with lead := true } McSt.reset []
theorem wit_conflict_claim : sClaim.Wf ∧ sClaim.dark = false ∧ sClaim.conflict .west = false ∧ sClaim.forced .west = false
    ∧ (sClaim.mc .west).lead = true ∧ sClaim.role .west = 0 :=
  ⟨wf_of (by decide +kernel), by decide +kernel⟩
theorem wit_conflict_alive : (ran job1 []).Wf ∧ (ran job1 []).dark = false ∧ (ran job1 []).conflict .west = false
    ∧ (ran job1 []).forced .west = false ∧ (ran job1 []).role .west = 1 ∧ (ran job1 []).bu ≠ 1 :=
  ⟨wf_of (by decide +kernel), by decide +kernel⟩
theorem wit_conflict_none : sClaim.role .west ≠ 1 ∧ sClaim.role .west ≠ 2 := by decide +kernel
def sConf : State := put base [(rMcLeadStat, leadStat 1 1)]
theorem wit_force : sConf.Wf ∧ sConf.dark = false ∧ sConf.conflict .west = true ∧ bitsOf (0x4C44_0002 : W64).toNat 16 16 = 0x4C44
    ∧ bitsOf (0x4C44_0002 : W64).toNat 0 2 = 2 :=
  ⟨wf_of (by decide +kernel), by decide +kernel⟩
theorem wit_force_rej : base.conflict .west = false ∧ bitsOf (0x4C44_0003 : W64).toNat 0 2 = 3 := by decide +kernel

/-! ### Witnesses: bring-up and faults -/

theorem wit_inspect : (led []).Wf ∧ (led []).dark = false ∧ (led []).pkg.buOp = none ∧ (led []).inspectOk = true
    ∧ find0.powerOk = true ∧ ({ find0 with powerOk := false }).powerOk = false
    ∧ ∃ h ∈ ({ find0 with hbmFail := [7] }).hbmFail, h < 8 :=
  ⟨wf_of (by decide +kernel), by decide +kernel⟩
theorem wit_inspect_rej : (ran job1 []).inspectOk = false ∧ (ran job1 []).resetOk = false := by decide +kernel
def sOp (c : Nat) (full : Bool) : State := { led [] with pkg := { (led []).pkg with buOp := some (c, full) } }
theorem wit_inspect_op : (sOp 1 false).Wf ∧ (sOp 1 false).pkg.buOp = some (1, false) ∧ (sOp 5 true).pkg.buOp = some (5, true) ∧ 5 ≠ 1
    ∧ ((sOp 5 true).pkg.softTrip && find0.tripHolds) = false ∧ (led []).pkg.buOp = none
    ∧ ({ led [(rBuState, 7)] with pkg := { (led []).pkg with softTrip := true } } : State).pkg.softTrip = true :=
  ⟨wf_of (by decide +kernel), by decide +kernel⟩
theorem wit_reset : (led [(rBuState, 7)]).Wf ∧ (led [(rBuState, 7)]).dark = false ∧ (led [(rBuState, 7)]).pkg.buOp = none
    ∧ (led [(rBuState, 7)]).resetOk = true ∧ ((led [(rBuState, 7)]).pkg.softTrip && find0.tripHolds) = false :=
  ⟨wf_of (by decide +kernel), by decide +kernel⟩
theorem wit_run : (led [(rBuState, 5), (rPfStart, 1)]).Wf ∧ (led [(rBuState, 5), (rPfStart, 1)]).bu = 5
    ∧ (led [(rBuState, 5), (rPfStart, 1)]).fld rBuState 4 1 = 0
    ∧ (led [(rBuState, 5), (rPfStart, 1)]).beat < (led [(rBuState, 5), (rPfStart, 1)]).fld rPfStart 0 48 :=
  ⟨wf_of (by decide +kernel), by decide +kernel⟩
theorem wit_run_rej : (led [(rBuState, 5)]).fld rPfStart 0 48 ≤ (led [(rBuState, 5)]).beat := by decide +kernel
theorem wit_jobStart : (({ ran job1 [] with stp := StepSt.reset } : State)).running = true
    ∧ (({ ran job1 [] with stp := StepSt.reset } : State)).stp.started = false
    ∧ (({ ran job1 [] with stp := StepSt.reset } : State)).stp.b0 ≤ (({ ran job1 [] with stp := StepSt.reset } : State)).beat
    ∧ (ran job1 []).stp.started = true ∧ (({ ran job1 [] with stp := { StepSt.reset with b0 := 1 } } : State)).beat < 1 := by
  decide +kernel
theorem wit_stop : (ran job1 []).Wf ∧ (ran job1 []).running = true ∧ (led []).running = false ∧ (ran job1 []).fld rPfFault 16 1 = 0 :=
  ⟨wf_of (by decide +kernel), by decide +kernel⟩
theorem wit_supply : base.Wf ∧ ({ base with pkg := { Pkg.reset with vin := false } } : State).Wf
    ∧ (led []).inspectOk = true ∧ (led []).pkg.buOp = none ∧ (led [(rBuState, 7)]).bu = 7 ∧ (led [(rBuState, 7)]).pkg.softTrip = false :=
  ⟨wf_of (by decide +kernel), wf_of (by decide +kernel), by decide +kernel⟩
theorem wit_fault : (ran job1 (upPort 1 1)).Wf ∧ (ran job1 (upPort 1 1)).running = true ∧ (ran job1 (upPort 1 1)).fld rPfFault 16 1 = 0
    ∧ (ran job1 (upPort 1 1)).fld rPfStopCause 32 1 = 0 ∧ 1 ∈ (ran job1 (upPort 1 1)).fabricUp ∧ 1 ∈ (ran job1 (upPort 1 1)).used
    ∧ (ran job1 (upPort 1 1)).coreLive 1 = true :=
  ⟨wf_of (by decide +kernel), by decide +kernel⟩

/-! ### Witnesses: the map -/

/-- Entry `n` of a full map: die n / 1,024, sites in order. -/
def mapW (n : Nat) : Nat := 2 ^ 15 + 2 ^ 11 * (n / 1024) + n % 1024
/-- MAP with a full map over good sites. -/
def sMap : State :=
  { base with regs := [(rBuState, 3)] ++ (List.range 72).map (fun k => (rBuSiteGood k, BitVec.ofNat 64 (2 ^ 32 - 1)))
      ++ (List.range 512).map (fun i => (rBuMap i, BitVec.ofNat 64 (mapW (4 * i) + 2 ^ 16 * mapW (4 * i + 1) + 2 ^ 32 * mapW (4 * i + 2) + 2 ^ 48 * mapW (4 * i + 3)))) }
theorem mapGet_append {α : Type} (d : Nat → α) {l : List (Nat × α)} (m : List (Nat × α)) {k : Nat} (h : ∀ e ∈ l, e.1 ≠ k) :
    mapGet d (l ++ m) k = mapGet d m k := by
  induction l with
  | nil => rfl
  | cons e l ih => rw [List.cons_append, mapGet, if_neg (h e List.mem_cons_self), ih (fun x hx => h x (List.mem_cons_of_mem _ hx))]
theorem mapGet_range {α : Type} (d : Nat → α) {f : Nat → Nat} (hf : ∀ i j, f i = f j → i = j) (v : Nat → α) (l : List Nat) {i : Nat} (hi : i ∈ l) :
    mapGet d (l.map (fun i => (f i, v i))) (f i) = v i := by
  induction l with
  | nil => cases hi
  | cons a l ih =>
    rw [List.map_cons, mapGet]
    split
    · rw [hf a i (by assumption)]
    · rename_i hne; exact ih ((List.mem_cons.1 hi).resolve_left (fun e => hne (by rw [e])))
theorem sMap_reg {i : Nat} (hi : i < 512) : sMap.reg (rBuMap i)
    = (BitVec.ofNat 64 (mapW (4 * i) + 2 ^ 16 * mapW (4 * i + 1) + 2 ^ 32 * mapW (4 * i + 2) + 2 ^ 48 * mapW (4 * i + 3))).toNat := by
  show (mapGet regDefault sMap.regs (rBuMap i)).toNat = _
  congr 1
  have h : ∀ e ∈ [(rBuState, (3 : W64))] ++ (List.range 72).map (fun k => (rBuSiteGood k, BitVec.ofNat 64 (2 ^ 32 - 1))), e.1 ≠ rBuMap i := by
    intro e he
    rcases List.mem_append.1 he with he | he
    · rw [List.mem_singleton.1 he]; simp only [rBuState, rBuMap]; omega
    · obtain ⟨k, hk, rfl⟩ := List.mem_map.1 he
      have := List.mem_range.1 hk
      simp only [rBuSiteGood, rBuMap]; omega
  exact (mapGet_append regDefault _ h).trans (mapGet_range regDefault (f := rBuMap) (fun i j h => by simp only [rBuMap] at h; omega)
    _ _ (List.mem_range.2 hi))
theorem mapW_lt {n : Nat} (h : n < 2048) : mapW n < 2 ^ 16 := by simp only [mapW]; omega
theorem pack4 {a b c d : Nat} (ha : a < 2 ^ 16) (hb : b < 2 ^ 16) (hc : c < 2 ^ 16) (hd : d < 2 ^ 16) :
    let v := (a + 2 ^ 16 * b + 2 ^ 32 * c + 2 ^ 48 * d) % 2 ^ 64
    v / 2 ^ 0 % 2 ^ 16 = a ∧ v / 2 ^ 16 % 2 ^ 16 = b ∧ v / 2 ^ 32 % 2 ^ 16 = c ∧ v / 2 ^ 48 % 2 ^ 16 = d := by
  dsimp only; omega
theorem sMap_words : ∀ n < 2048, sMap.mapWord n = mapW n := by
  intro n hn
  have hd : n = 4 * (n / 4) + n % 4 := by omega
  rw [State.mapWord, sMap_reg (by omega : n / 4 < 512), BitVec.toNat_ofNat]
  generalize n / 4 = i at hd
  have hi : i < 512 := by omega
  have h4 : n % 4 < 4 := Nat.mod_lt _ (by decide)
  generalize n % 4 = r at hd h4
  subst hd
  obtain ⟨p0, p1, p2, p3⟩ := pack4 (mapW_lt (show 4 * i < 2048 by omega)) (mapW_lt (show 4 * i + 1 < 2048 by omega))
    (mapW_lt (show 4 * i + 2 < 2048 by omega)) (mapW_lt (show 4 * i + 3 < 2048 by omega))
  rcases r with _ | _ | _ | _ | r
  · exact p0
  · exact p1
  · exact p2
  · exact p3
  · omega
theorem sMap_good : ∀ k < 72, sMap.reg (rBuSiteGood k) = 2 ^ 32 - 1 := by decide +kernel
theorem mapW_fields (n : Nat) (h : n < 2048) : bitsOf (mapW n) 15 1 = 1 ∧ bitsOf (mapW n) 11 1 = n / 1024
    ∧ bitsOf (mapW n) 5 6 = n % 1024 / 32 ∧ bitsOf (mapW n) 0 5 = n % 32 ∧ bitsOf (mapW n) 0 12 = 2048 * (n / 1024) + n % 1024 := by
  simp only [bitsOf, mapW]; omega
theorem cores_grade1 : numCores = 2048 ∧ perDie = 1024 := ⟨rfl, rfl⟩
theorem filter_eq_length (n m : Nat) : ((List.range m).filter (fun k => decide (k = n))).length ≤ 1 := by
  induction m with
  | zero => simp
  | succ m ih =>
    rw [List.range_succ, List.filter_append, List.length_append]
    by_cases h : m = n
    · subst h
      have : (List.range m).filter (fun k => decide (k = m)) = [] := by
        simp only [List.filter_eq_nil_iff, List.mem_range, decide_eq_true_eq]; intro a ha; omega
      rw [this]; simp
    · simpa [h] using ih
theorem wit_commit_bad0 : ∀ n < 2048, mapFault (fun k => sMap.reg (rBuSiteGood k)) ((List.range 2048).map sMap.mapWord) n = 0 := by
  intro n hn
  have hall {k : Nat} (hk : k < 2048) : ((List.range 2048).map sMap.mapWord).getD k 0 = mapW k := by
    rw [List.getD_eq_getElem?_getD, List.getElem?_map, List.getElem?_range hk, Option.map_some, Option.getD_some, sMap_words k hk]
  obtain ⟨h1, h2, h3, h4, h5⟩ := mapW_fields n hn
  have hf : ((List.range numCores).filter (fun k => bitsOf (((List.range 2048).map sMap.mapWord).getD k 0) 15 1 = 1
      ∧ bitsOf (((List.range 2048).map sMap.mapWord).getD k 0) 0 12 = bitsOf (mapW n) 0 12)).length ≤ 1 := by
    rw [cores_grade1.1, List.filter_congr (q := fun k => decide (k = n))]
    · exact filter_eq_length n 2048
    · intro k hk
      have hk := List.mem_range.1 hk
      obtain ⟨k1, -, -, -, k5⟩ := mapW_fields k hk
      rw [hall hk, k1, k5, h5]
      simp only [true_and]
      congr 1; rw [eq_iff_iff]; omega
  have hg : bitsOf (sMap.reg (rBuSiteGood (36 * (n / 1024) + n % 1024 / 32))) (n % 32) 1 = 1 := by
    rw [sMap_good _ (by omega)]
    have : ∀ y < 32, bitsOf (2 ^ 32 - 1) y 1 = 1 := by decide
    exact this _ (by omega)
  simp only [mapFault, hall hn, h1, h2, h3, h4, hg]
  rw [if_neg (by rw [cores_grade1.1]; omega), if_neg (by decide), if_neg (by omega), if_neg (by rw [cores_grade1.2]; omega),
    if_neg (by decide), if_neg (by omega)]
theorem sMap_sorted : sMap.regs.IsChain (fun p q => p.1 < q.1) := by decide +kernel
theorem sMap_wf : sMap.Wf := by
  refine ⟨⟨?_, by decide +kernel⟩, ?_, ?_, ?_, ?_, ?_, ?_⟩
  · exact List.pairwise_map.1 (List.isChain_iff_pairwise.1 ((List.isChain_map (R := fun a b => a < b) Prod.fst).2 sMap_sorted))
  all_goals decide +kernel
theorem wit_commit : sMap.Wf ∧ sMap.dark = false ∧ sMap.bu = 3 ∧ sMap.fld rBuState 4 1 = 0 := ⟨sMap_wf, by decide +kernel⟩
theorem wit_commit_rej : (led [(rBuState, 3)]).Wf ∧ (led [(rBuState, 3)]).bu = 3
    ∧ mapFault (fun k => (led [(rBuState, 3)]).reg (rBuSiteGood k)) ((List.range 2048).map (led [(rBuState, 3)]).mapWord) 0 ≠ 0 :=
  ⟨wf_of (by decide +kernel), by decide +kernel⟩

/-! ### Witnesses: core streams -/

/-- A job that uses cores 0 and 1; stream 0 takes flits to core 1. -/
def strm1 : Stream :=
  { kind := 1, flags := 0, owner := 1, dstHerd := 0, links := 0, level := 0, dst := 1, dstAddr := 0, route := [], deltas := [],
    flits := 4, wflits := 0 }
def job2 : Job := { job1 with progMap := [(9, 5), (9, 5)], streams := [strm1] }
/-- `ran`, with core 1's hidden state changed. -/
def ranC (j : Job) (rs : List (Nat × Nat)) (f : CoreSt → CoreSt) : State :=
  { ran j rs with cores := [(1, f CoreSt.reset)] }

/-- Core 1 issues a command while an older one of its window waits. -/
def sOlder : State :=
  ranC job1 [] (fun c => { c with window := [⟨.fence at1, 0, 0, .waiting⟩, ⟨.fence at1, 0, 0, .issuing⟩] })
theorem wit_checkFail : (ran job1 []).Wf ∧ (ran job1 []).fetching at1.core = true ∧ 0x0102 < 2 ^ 16
    ∧ ((ran job1 []).core at1.core).issues = false ∧ (∀ n ∈ (ran job1 []).used, ((ran job1 []).core n).ending = none) ∧ sOlder.fetching at1.core = true ∧ (sOlder.core at1.core).issues = true :=
  ⟨wf_of (by decide +kernel), by decide +kernel⟩
theorem wit_streamChecks : ((ran job1 []).Settled ∧ (ran job1 []).Wf) ∧ streamAttr (.fence at1) = some at1 ∧ (ran job1 []).dark = false
    ∧ ((ran job1 []).core 1).stream = [] ∧ ((ran job1 []).core 1).ending = none ∧ (ran job1 []).unblocked 1 (.fence at1) = true
    ∧ (ran job1 []).armed = false ∧ (ran job1 []).fetching 1 = true ∧ (ran job1 []).fetching 0 = false
    ∧ streamAttr (.endStream { at1 with defined := false }) = some { at1 with defined := false } :=
  ⟨⟨settled_of (by decide +kernel), wf_of (by decide +kernel)⟩, by decide +kernel⟩
theorem wit_ready : (ran job1 []).Wf ∧ (ran job1 []).Ready at1 := ⟨wf_of (by decide +kernel), ready_of (by decide +kernel)⟩
def sBits : State := ranC job1 [] (fun c => { c with widen := true, skip := true, nonfin := true })
theorem wit_control : 1023 < (ran job1 []).segLen 1 ((ran job1 []).activeSeg 1) ∧ (ran job1 []).segLen 1 ((ran job1 []).activeSeg 1) ≤ 1024
    ∧ (sBits.Wf ∧ sBits.Ready at1) ∧ b2n (sBits.core 1).widen + 2 * b2n (sBits.core 1).skip + 4 * b2n (sBits.core 1).nonfin = 7
    ∧ b2n ((ran job1 []).core 1).widen + 2 * b2n ((ran job1 []).core 1).skip + 4 * b2n ((ran job1 []).core 1).nonfin = 0 :=
  ⟨by decide +kernel, by decide +kernel, ⟨wf_of (by decide +kernel), ready_of (by decide +kernel)⟩, by decide +kernel, by decide +kernel⟩
theorem wit_end_last : ∀ k ∈ (ran job2 [(rCore 0 oState, 1)]).used, k ≠ 1 →
    (ran job2 [(rCore 0 oState, 1)]).cstate k = 1 ∨ (ran job2 [(rCore 0 oState, 1)]).cstate k = 4 ∨ (ran job2 [(rCore 0 oState, 1)]).cstate k = 5 := by
  decide +kernel
theorem wit_end_more : ∃ k ∈ (ran job2 [(rCore 0 oState, 2)]).used, k ≠ 1 ∧ (ran job2 [(rCore 0 oState, 2)]).coreLive k = true := by
  decide +kernel

def dlv0 : Delivery := { stream := 0, seq := 3, slot := 300, payload := List.replicate 224 5 }
def sDlv : State := ranC job2 [] (fun c => { c with dlv := [dlv0] })
theorem wit_heel : (sDlv.Wf ∧ sDlv.Ready at1) ∧ sDlv.waitsOk 1 [(0, 3)] = true ∧ sDlv.now ≤ sDlv.packOf 300 ∧ sDlv.stp.widened = false
    ∧ 2 ≤ sDlv.stp.origin + sDlv.statusSlot ∧ 2 ≤ sDlv.stp.origin + sDlv.normSlot ∧ sDlv.heelTime 1 2 300 [(0, 3)] sDlv.now = some 300
    ∧ 300 < 2 ^ 64 :=
  ⟨⟨wf_of (by decide +kernel), ready_of (by decide +kernel)⟩, by decide +kernel⟩
theorem wit_heel_missing : ((ran job2 []).Wf ∧ (ran job2 []).Ready at1) ∧ (ran job2 []).waitsOk 1 [(0, 3)] = true
    ∧ (ran job2 []).now ≤ (ran job2 []).packOf 65535 ∧ (ran job2 []).heelTime 1 0 65535 [(0, 3)] (ran job2 []).now = none :=
  ⟨⟨wf_of (by decide +kernel), ready_of (by decide +kernel)⟩, by decide +kernel⟩
def sWait : State :=
  ranC job2 [(rCore 1 oState, 3)] (fun c => { c with window := [⟨.heel at1 2 2 [(0, 3)], 0, 0, .waiting⟩] })
theorem wit_heelDeadline : sWait.Wf ∧ sWait.dark = false ∧ sWait.issuing = true ∧ 1 ∈ sWait.used ∧ sWait.cstate 1 = 3 ∧ sWait.armed = false
    ∧ (sWait.core 1).window = [⟨.heel at1 2 2 [(0, 3)], 0, 0, .waiting⟩] ∧ (sWait.core 1).stream = [] ∧ (sWait.core 1).ending = none
    ∧ at1.core = 1 ∧ at1.defined = true ∧ at1.engines &&& absentEngines = 0 ∧ sWait.waitsOk 1 [(0, 3)] = true
    ∧ 0 ≤ sWait.packOf 2 ∧ sWait.now ≤ sWait.packOf 2 ∧ sWait.packOf 2 < 2 ^ 64 ∧ sWait.fab.held = [] ∧ sWait.heelTime 1 2 2 [(0, 3)] 0 = none
    ∧ sWait.cfld 1 oHaltInfo 16 1 = 0 ∧ sWait.fld rPfFault 16 1 = 0
    ∧ ((ran job2 []).core 1).window = [] ∧ (ran job2 []).anyWaits = false :=
  ⟨wf_of (by decide +kernel), by decide +kernel⟩

/-- Core 1 with bank 1 in a state, with segment 6. -/
def sBank (st : Nat) : State :=
  ranC job1 [(rCore 1 oBank, 3 + 4 * st + 2 ^ 16 * 5 + 2 ^ 32 * 6)] (fun c => { c with resume := 4, load1 := if st = 1 then some (0x5000, 512) else none })
theorem wit_banks : ∀ st < 3, (sBank st).Wf ∧ (sBank st).Ready at1 ∧ (sBank st).bankState 1 1 = st := by
  have h : ∀ st < 3, wfb (sBank st) = true ∧ readyb (sBank st) at1 = true ∧ (sBank st).bankState 1 1 = st := by decide +kernel
  exact fun st hst => ⟨wf_of (h st hst).1, ready_of (h st hst).2.1, (h st hst).2.2⟩
theorem wit_imemLoad : (sBank 0).segment? 1 6 = some ⟨6, 1024, 512, false⟩ ∧ 512 ≤ 0x1_0000 ∧ (sBank 0).bankState 1 1 ≠ 3
    ∧ (sBank 0).bankState 1 0 = 3 := by decide +kernel
theorem wit_imemComplete : (sBank 1).bankState 1 1 = 1 ∧ ((sBank 1).core 1).load1 = some (0x5000, 512) := by decide +kernel
theorem wit_swap : 1 - (sBank 2).activeBank 1 = 1 ∧ (sBank 2).bankState 1 1 = 2 ∧ (sBank 2).bankSeg 1 1 = 6 ∧ 511 < (sBank 2).segLen 1 6
    ∧ (sBank 2).bankSeg 1 1 ≠ 5 ∧ (sBank 0).bankState 1 (1 - (sBank 0).activeBank 1) = 0
    ∧ (sBank 1).bankState 1 (1 - (sBank 1).activeBank 1) = 1 ∧ (sBank 1).bankSeg 1 1 = 6 ∧ 511 < (sBank 1).segLen 1 6
    ∧ (sBank 2).segLen 1 6 ≤ 512 := by decide +kernel

/-- Armed runs: core 1 breaks at its next count; at tag 7; never. -/
def sBrk (rs : List (Nat × Nat)) : State := ran job2 ([(rPfDbgStat, 1)] ++ rs)
theorem wit_breaks : (sBrk [(rCore 1 oBrkCount, 1)]).Wf ∧ (sBrk [(rCore 1 oBrkCount, 1)]).dark = false
    ∧ (sBrk [(rCore 1 oBrkCount, 1)]).fetching 1 = true ∧ (sBrk [(rCore 1 oBrkCount, 1)]).anyWaits = false
    ∧ (sBrk [(rCore 1 oBrkCount, 1)]).armed = true ∧ (sBrk [(rCore 1 oBrkCount, 1)]).target? at1 = some (0x0A01, 2, 1)
    ∧ (sBrk [(rCore 1 oBrkCount, 1)]).cfld 1 oHaltInfo 16 1 = 0
    ∧ (sBrk [(rCore 1 oBrkCount, 1)]).reg (rCore 1 oBrkCount) ≠ 0
    ∧ (sBrk [(rCore 1 oBrkCount, 1)]).reg (rCore 1 oBrkCount) = (sBrk [(rCore 1 oBrkCount, 1)]).reg (rCore 1 oCount) + ((sBrk [(rCore 1 oBrkCount, 1)]).core 1).window.length + 1
    ∧ ∀ k ∈ (sBrk [(rCore 0 oState, 5)]).used, k = 1 ∨ (sBrk [(rCore 0 oState, 5)]).cstate k = 1
        ∨ (sBrk [(rCore 0 oState, 5)]).cstate k = 4 ∨ (sBrk [(rCore 0 oState, 5)]).cstate k = 5 :=
  ⟨wf_of (by decide +kernel), by decide +kernel⟩
theorem wit_breaks_more : (sBrk [(rCore 0 oState, 2), (rCore 1 oBrkTag, 7 + 2 ^ 16)]).target? at1 = some (0x0A02, 3, 2)
    ∧ (∃ k ∈ (sBrk [(rCore 0 oState, 2), (rCore 1 oBrkTag, 7 + 2 ^ 16)]).used, k ≠ 1
        ∧ (sBrk [(rCore 0 oState, 2), (rCore 1 oBrkTag, 7 + 2 ^ 16)]).coreLive k = true)
    ∧ (sBrk []).target? at1 = none ∧ (sBrk []).anyWaits = false := by decide +kernel
def sBrkWin : State :=
  ranC job2 [(rPfDbgStat, 1), (rCore 1 oBrkCount, 2)] (fun c => { c with window := [⟨.send { at1 with tag := 8 } 0 0 0 0 false, 0, 0, .waiting⟩] })
theorem wit_breaks_window : sBrkWin.Wf ∧ sBrkWin.dark = false ∧ sBrkWin.fetching 1 = true ∧ sBrkWin.armed = true ∧ (sBrkWin.core 1).window ≠ []
    ∧ sBrkWin.target? at1 = some (0x0A01, 2, 1) :=
  ⟨wf_of (by decide +kernel), by decide +kernel⟩

def sCtx : State := { ran job2 [] with hl := { HlSt.reset with ctxReqs := [(0, 4, 1, 0xFFFF)] } }
theorem wit_ctxSave : sCtx.Wf ∧ sCtx.dark = false ∧ sCtx.issuing = true ∧ sCtx.ctxDue = some (0, 4, 1, 0xFFFF) ∧ sCtx.job.isSome = true :=
  ⟨wf_of (by decide +kernel), by decide +kernel⟩
def sStep (b d : Bool) : State := { ran job2 [] with stp := { StepSt.reset with started := true, begun := b, decided := d } }
theorem wit_stepOrigin : ((sStep false false).Wf ∧ (sStep true true).Wf) ∧ (sStep false false).dark = false ∧ (sStep false false).issuing = true
    ∧ (sStep false false).job = some job2 ∧ (sStep false false).anyWaits = false ∧ (sStep false false).stp.begun = false
    ∧ (sStep false false).snapDue job2 = false
    ∧ (sStep true true).dark = false ∧ (sStep true true).issuing = true ∧ (sStep true true).job = some job2 ∧ (sStep true true).anyWaits = false
    ∧ (sStep true true).stp.begun = true ∧ ((sStep true true).takeDecision job2).slowLeft job2 = false :=
  ⟨⟨wf_of (by decide +kernel), wf_of (by decide +kernel)⟩, by decide +kernel⟩
/-- A job whose one layer is slow, with D = 1, in a step whose pass has not been done. -/
def jobSlow : Job :=
  { job1 with
    hdr := { job1.hdr with delayD := 1, updates := [0] }
    tensors := [{ tens 0 0x13 5 16 with flags := 4, layer := 0 }, { tens 1 0x20 10 16 with flags := 4, layer := 0 },
      { tens 2 0x13 4 16 with flags := 4, layer := 0 }]
    places := [⟨0, 0, 0x10000⟩, ⟨1, 0, 0x20000⟩, ⟨2, 0, 0x30000⟩] }
def sSlow : State :=
  { ran jobSlow [] with stp := { StepSt.reset with started := true, begun := true, decided := true, step := 1, slowRecs := [⟨0, 0x3F800000, false⟩] } }
theorem wit_stepOrigin_slow : sSlow.Wf ∧ sSlow.dark = false ∧ sSlow.issuing = true ∧ sSlow.job = some jobSlow ∧ sSlow.anyWaits = false
    ∧ sSlow.stp.begun = true ∧ (sSlow.takeDecision jobSlow).slowLeft jobSlow = true ∧ (∃ n ∈ sSlow.used, sSlow.coreLive n = true)
    ∧ sSlow.fld rPfFault 16 1 = 0 :=
  ⟨wf_of (by decide +kernel), by decide +kernel⟩

/-! ### Witnesses: lattice, vector and transfer commands -/

/-- A recipe of one operation on master and gradient: `op`, dst and a the master's slot 1, b the gradient's slot 0. -/
def rcp (op : Nat) : List Byte :=
  leBytes 2 0x168 ++ leBytes 2 0 ++ [1, 2, 0, 0, 0, 0] ++ [0, 0xFF, 1, 1] ++ List.replicate 6 0xFF ++ List.replicate (0x160 - 20) 0
    ++ [BitVec.ofNat 8 op, 1, 1, 0, 0, 0, 0, 0]
def strmOut : Stream := { strm1 with links := 1, dstHerd := 1, route := [1], deltas := [100] }
def strmColl : Stream := { strmOut with kind := 4, dst := 40 }
/-- A job with a T32 master (0), its gradient (1), its working copy (2), two streams and an OR collective. -/
def job3 (op : Nat) : Job :=
  { job1 with
    tensors := [tens 0 0x13 5 16, tens 1 0x20 10 16, tens 2 0x13 4 16]
    places := [⟨0, 0, 0x10000⟩, ⟨1, 0, 0x20000⟩, ⟨2, 0, 0x30000⟩]
    recipes := [rcp op], streams := [strmOut, strmColl]
    runs := [⟨1, false, false, 0, 0, 4, 0⟩, ⟨1, false, false, 1, 4, 1, 0⟩]
    colls := [⟨40, 1, 0, 0, 4, 200⟩] }
def ranL (f : CoreSt → CoreSt) : State := ranC (job3 3) [] f
theorem wit_ready3 : ((ran (job3 3) []).Wf ∧ (ran (job3 3) []).Ready at1) ∧ ((ran (job3 7) []).Wf ∧ (ran (job3 7) []).Ready at1)
    ∧ (ran (job3 3) []).job = some (job3 3) ∧ (ran (job3 7) []).job = some (job3 7) :=
  ⟨⟨wf_of (by decide +kernel), ready_of (by decide +kernel)⟩, ⟨wf_of (by decide +kernel), ready_of (by decide +kernel)⟩, rfl, rfl⟩

def tileA (acc n0 : Nat) : TileArg := { rows := 1, cols := 1, acc, m0 := 0, n0, recIdx := 0 }
def open1 : OpenArg :=
  { group := 7, fa := .t16, fb := .t16, ta := none, tb := none, sA := 0x3F800000, sB := 0x3F800000, a32c := 0, strict := false, orient := 0
    k0 := 0, preload := .zero, out := 2, tiles := [tileA 0 0, tileA 256 1], narrow := none, alongB := false }
theorem wit_open : (ran (job3 3) []).openCode 1 (job3 3) ((ran (job3 3) []).resolveOpen (job3 3) open1) = 0 ∧ open1.preload = .zero
    ∧ open1.narrow = none := by decide +kernel
/-- A tile that has taken nothing, at prescale `q`. -/
def tileQ (acc n0 q : Nat) : Tile := ⟨tileA acc n0, [0], false, q, [(0, 0)], []⟩
def group1 : Group := { o := open1, tiles := [tileQ 0 0 8, tileQ 256 1 9], k := 0, ended := false, hist := [] }
theorem wit_open_full : 8 ≤ ((ranL (fun c => { c with groups := (List.range 8).map (fun i => (i, group1)) })).core 1).groups.length := by
  decide +kernel
def acc1 : AccArg :=
  { group := 7, fa := .t16, fb := .t16, k := 0, kLen := 1, rows := 1, cols := [1, 1], aOff := 0, bOff := [64, 0xFFFC0], srcA := (0, 0)
    srcB := (0, 0), wSrc := (0, 0) }
def sAcc1 : State := ranL (fun c => { c with groups := [(7, group1)] })
theorem wit_accumulate : sAcc1.Wf ∧ sAcc1.Ready at1 ∧ sAcc1.group? 1 7 = some group1 ∧ group1.o.narrow = none ∧ acc1.kLen ≠ 0
    ∧ accCode group1 acc1 = 0 ∧ sramOk (accRanges group1.o.orient acc1) = true ∧ (ran (job3 3) []).group? 1 7 = none
    ∧ sramOk (accRanges 0 acc1) = true :=
  ⟨wf_of (by decide +kernel), ready_of (by decide +kernel), by decide +kernel⟩
/-- The sources of a group's tiles still hold what was read from them, evaluated. -/
def rereadb (s : State) (core : Nat) (j : Job) (g : Group) : Bool :=
  (List.range g.tiles.length).all (fun i => match g.tiles[i]? with
    | some x => match s.reread core j g i x with
      | .inr r => decide (r.tile = x)
      | .inl _ => false
    | none => true)
theorem reread_of {s : State} {core : Nat} {j : Job} {g : Group} (h : rereadb s core j g = true) (i : Nat) (x : Tile)
    (hx : g.tiles[i]? = some x) : ∃ st, s.reread core j g i x = .inr ⟨x, st⟩ := by
  have hi : i < g.tiles.length := by
    rcases List.getElem?_eq_some_iff.1 hx with ⟨h, -⟩; exact h
  have := (List.all_eq_true.1 h) i (List.mem_range.2 hi)
  simp only [hx] at this
  split at this
  · rename_i r hr
    exact ⟨r.stat, by rw [hr, ← of_decide_eq_true this]⟩
  · cases this
theorem wit_accumulate_sources : ∀ i x, (sAcc1.takes 1 (job3 3) group1 acc1).tiles[i]? = some x →
    ∃ st, sAcc1.reread 1 (job3 3) (sAcc1.takes 1 (job3 3) group1 acc1) i x = .inr ⟨x, st⟩ := reread_of (by decide +kernel)
theorem wit_accumulate_tiles : ∃ x y, (sAcc1.takes 1 (job3 3) group1 acc1).tiles[0]? = some x ∧ x.q ≤ 8
    ∧ (sAcc1.takes 1 (job3 3) group1 acc1).tiles[1]? = some y ∧ y.q = 9 := by
  refine ⟨{ tileQ 0 0 8 with hist := [sAcc1.tileAcc 1 (job3 3) group1 0 acc1] },
    { tileQ 256 1 9 with hist := [sAcc1.tileAcc 1 (job3 3) group1 1 acc1] }, ?_⟩
  decide +kernel
theorem wit_accumulate_none : sAcc1.group? 1 7 = some group1 ∧ { acc1 with kLen := 0 }.kLen = 0
    ∧ sramOk (accRanges group1.o.orient { acc1 with kLen := 0 }) = true := by decide +kernel
def tile1 : Tile := { tileQ 0 0 0 with elems := [(0x3F800000, 0)] }
def group2 : Group := { group1 with o := { open1 with tiles := [tileA 0 0] }, tiles := [tile1] }
def sClose : State := ranL (fun c => { c with groups := [(7, group2)] })
/-- The conversion of `sClose`'s tile into its T32 output. -/
def convOut : Sys2Proof.Conv := { conv0 with dst := (tens 2 0x13 4 16).format }
theorem wit_close : (sClose.Wf ∧ sClose.Ready at1) ∧ sClose.group? 1 7 = some group2 ∧ group2.tiles = [tile1] ∧ group2.o.narrow = none
    ∧ sClose.stp.wide = false ∧ (job3 3).tensor? group2.o.out = some (tens 2 0x13 4 16)
    ∧ (job3 3).tensor? (tens 2 0x13 4 16).status = none ∧ (tens 2 0x13 4 16).cls ≠ 1
    ∧ convCode .t32 { convOut with sSrc := t32One } (job3 3) false (some (tens 2 0x13 4 16)) 0 0 = 0
    ∧ sramOk [(0xFFFC0, tileBytes (tens 2 0x13 4 16).format tile1.arg)] = true
    ∧ (job3 3).range? (tens 2 0x13 4 16) (sClose.writeSlot (job3 3) (tens 2 0x13 4 16)) 0 1 = some 0x30000
    ∧ (sClose.tileStore (job3 3) (tens 2 0x13 4 16) convOut group2 tile1 (group2.tileIn (job3 3) tile1) tile1.readFlushed 0
        tile1.q tile1.elems).rows = [[0, 0, 0x80, 0x3F]]
    ∧ sClose.badPart 0x30000 4 = none ∧ sClose.group? 1 3 = none ∧ sramOk [(0xFFFC0, 0)] = true :=
  ⟨⟨wf_of (by decide +kernel), ready_of (by decide +kernel)⟩, by decide +kernel⟩
theorem wit_conv0 : plainConv conv0 := ⟨rfl, rfl, rfl, rfl, rfl⟩

def vop1 : VopArg :=
  { op := 2, n := 4, nB := 4, nC := 0, a := 0, b := some 64, c := none, dst := 128, arg := 0, row := 0, srcT32 := true, conv := conv0 }
theorem wit_vop : vopListed 2 = true ∧ isReduction 2 = false ∧ vopShape vop1 = true ∧ isElemFmt .t32 = true
    ∧ convCode .t32 conv0 (job3 3) true none 0 (vopCount vop1) = 0 ∧ vopListed 0x22 = true ∧ vopListed 0x13 = false
    ∧ vopShape { vop1 with op := 0x22, arg := 2 } = true
    ∧ sramOk ([(vop1.a, 4 * vop1.n), (vop1.dst, elemSize vop1.conv.dst 1 * vopCount vop1)]
        ++ (vop1.b.map (fun x => (x, 4 * vop1.nB))).toList ++ (vop1.c.map (fun x => (x, 4 * vop1.nC))).toList) = true := by decide +kernel
theorem wit_vconvert : isElemFmt .t16 = true ∧ isElemFmt conv0.dst = true ∧ convCode .t16 conv0 (job3 3) false none 0 8 = 0
    ∧ sramOk [(0xFFFC0, elemSize .t16 1 * 8), (0, elemSize conv0.dst 1 * 8)] = true := by decide +kernel

def job4 : Job := { job1 with sites := [⟨3, 5, 0, 0x3F800000, 0⟩, ⟨4, 5, 65536, 0x3F800000, 0⟩] }
theorem wit_flutter : ((ran job4 []).Wf ∧ (ran job4 []).Ready at1) ∧ (ran job4 []).job = some job4
    ∧ sramOk [(0xFFFC0, flutterBytes .mask 512)] = true
    ∧ (job4.sites.find? (fun x => x.index == 4)) = some ⟨4, 5, 65536, 0x3F800000, 0⟩ ∧ 0 < 65536
    ∧ (job4.sites.find? (fun x => x.index == 3)) = some ⟨3, 5, 0, 0x3F800000, 0⟩ ∧ job4.sites.find? (fun x => x.index == 5) = none
    ∧ (0xFF ≠ domDropout ∧ 0xFF ≠ domUser) :=
  ⟨⟨wf_of (by decide +kernel), ready_of (by decide +kernel)⟩, by decide +kernel⟩

def upd1 : UpdArg :=
  { layer := 0, master := 0, first := 0, count := 16, m1 := none, m2 := none, ema := none, state := 0xFFFF_FFFF, work := 2, grad := 1 }
/-- Whether the pass of a one-operation recipe gives a non-finite value from finite inputs, if it runs at all. -/
def passBad (op : Nat) : Option Bool :=
  let s := ran (job3 op) []
  let r := recipeOf (rcp op)
  match s.passUse (job3 op) (tens 0 0x13 5 16) with
  | some u =>
    match s.stagePart (job3 op) r upd1 (tens 0 0x13 5 16) (tens 1 0x20 10 16) u, s.passState (job3 op) r upd1 with
    | .inr (_, p), .inr q =>
      match (passEnv r u q [p]).run (valueAlg pairadd) r.pts (s.gatherUnits (job3 op) r 0) 0 r.ops,
          (taintEnv r q [p]).run taintAlg r.pts (fun _ mine => some mine) 0 r.ops with
      | .done v, .done w => some (passVals r v w 0).bad
      | _, _ => none
    | _, _ => none
  | none => none
theorem passBad_some {op : Nat} {b : Bool} (h : passBad op = some b) :
    ∃ u k p q v w, (ran (job3 op) []).passUse (job3 op) (tens 0 0x13 5 16) = some u
      ∧ (ran (job3 op) []).stagePart (job3 op) (recipeOf (rcp op)) upd1 (tens 0 0x13 5 16) (tens 1 0x20 10 16) u = .inr (k, p)
      ∧ (ran (job3 op) []).passState (job3 op) (recipeOf (rcp op)) upd1 = .inr q
      ∧ (passEnv (recipeOf (rcp op)) u q [p]).run (valueAlg pairadd) (recipeOf (rcp op)).pts
          ((ran (job3 op) []).gatherUnits (job3 op) (recipeOf (rcp op)) 0) 0 (recipeOf (rcp op)).ops = .done v
      ∧ (taintEnv (recipeOf (rcp op)) q [p]).run taintAlg (recipeOf (rcp op)).pts (fun _ mine => some mine) 0 (recipeOf (rcp op)).ops = .done w
      ∧ (passVals (recipeOf (rcp op)) v w 0).bad = b := by
  simp only [passBad] at h
  split at h
  · rename_i u hu
    split at h
    · rename_i k p q hp hq
      split at h
      · rename_i v w hv hw
        exact ⟨u, k, p, q, v, w, hu, hp, hq, hv, hw, by simpa using h⟩
      · cases h
    · cases h
  · cases h
theorem wit_update : ∀ op ∈ [3, 7], (job3 op).recipes[0]? = some (rcp op) ∧ (job3 op).tensor? 0 = some (tens 0 0x13 5 16)
    ∧ (job3 op).tensor? 1 = some (tens 1 0x20 10 16) ∧ (job3 op).tensor? 2 = some (tens 2 0x13 4 16)
    ∧ updateFits (recipeOf (rcp op)) (tens 0 0x13 5 16) upd1 = true ∧ updateFmts (job3 op) (recipeOf (rcp op)) upd1 = true
    ∧ (tens 0 0x13 5 16).slow = false ∧ (tens 1 0x20 10 16).slow = false ∧ (recipeOf (rcp op)).layerReds = 0
    ∧ (ran (job3 op) []).fab.held = [] ∧ (ran (job3 op) []).bad = [] ∧ (ran (job3 op) []).stp.skip = false
    ∧ (job3 op).tensor? upd1.state = none
    ∧ (job3 op).range? (tens 0 0x13 5 16) ((ran (job3 op) []).writeSlot (job3 op) (tens 0 0x13 5 16)) 0 16 = some 0x10000
    ∧ (job3 op).range? (tens 2 0x13 4 16) ((ran (job3 op) []).writeSlot (job3 op) (tens 2 0x13 4 16)) 0 16 = some 0x30000
    ∧ ((ran (job3 op) []).passUse (job3 op) (tens 0 0x13 5 16)).map (·.slot) = some 0
    ∧ (job3 op).range? (tens 1 0x20 10 16) 0 0 16 = some 0x20000
    ∧ ((List.range 16).all (fun i => (job3 op).trainedAt (tens 0 0x13 5 16) i)) = true := by
  decide +kernel
theorem wit_update_commits : passBad 3 = some false := by decide +kernel
theorem wit_update_halts : passBad 7 = some true := by decide +kernel
theorem wit_update_skip : ({ ran (job3 3) [] with stp := { StepSt.reset with started := true, begun := true, skip := true } } : State).stp.skip = true
    ∧ ({ ran (job3 3) [] with stp := { StepSt.reset with started := true, begun := true, skip := true } } : State).fetching 1 = true := by
  decide +kernel

def ret1 : RetArg :=
  { tensor := 0, first := 4, count := 12, dst := 0, conv := none, transp := none, gather := none, factor := 0x3F800000 }
theorem wit_retrieve : isPacked (tens 0 0x13 5 16).format = false ∧ retrievePair (tens 0 0x13 5 16).format none = true
    ∧ (tens 0 0x13 5 16).format ≠ .rbuf ∧ sramOk [(ret1.dst, (tens 0 0x13 5 16).bytesOf 4 12)] = true
    ∧ (ran (job3 3) []).runsIn (job3 3) (tens 0 0x13 5 16) ((ran (job3 3) []).readSlot (job3 3) (tens 0 0x13 5 16)) [(4, 12)] = true
    ∧ (job3 3).range? (tens 0 0x13 5 16) ((ran (job3 3) []).readSlot (job3 3) (tens 0 0x13 5 16)) 4 12 = some 0x10010
    ∧ (ran (job3 3) []).badIn 0x10010 ((tens 0 0x13 5 16).bytesOf 4 12) = none ∧ (job3 3).tensor? 9 = none
    ∧ sramOk [(0xFFFC0, 0)] = true := by decide +kernel
def dep1 : DepArg := { src := 0, sfmt := .t32, tensor := 2, first := 15, count := 1, conv := none, zero := false }
theorem wit_deposit : isPacked (tens 2 0x13 4 16).format = false ∧ depositPair dep1.sfmt (tens 2 0x13 4 16).format true = true
    ∧ sramOk [(dep1.src, (tens 2 0x13 4 16).bytesOf 15 1)] = true
    ∧ (ran (job3 3) []).runsIn (job3 3) (tens 2 0x13 4 16) ((ran (job3 3) []).depositSlot (job3 3) (tens 2 0x13 4 16)) [(15, 1)] = true
    ∧ (job3 3).range? (tens 2 0x13 4 16) ((ran (job3 3) []).depositSlot (job3 3) (tens 2 0x13 4 16)) 15 1 = some 0x3003C
    ∧ (ran (job3 3) []).badPart 0x3003C ((tens 2 0x13 4 16).bytesOf 15 1) = none
    ∧ (tens 1 0x20 10 16).format = .rbuf
    ∧ (ran (job3 3) []).runsIn (job3 3) (tens 1 0x20 10 16) ((ran (job3 3) []).depositSlot (job3 3) (tens 1 0x20 10 16)) [(0, 16)] = true
    ∧ (job3 3).range? (tens 1 0x20 10 16) ((ran (job3 3) []).depositSlot (job3 3) (tens 1 0x20 10 16)) 0 16 = some 0x20000
    ∧ (ran (job3 3) []).badPart 0x20000 (16 * (zeroElem 0).length) = none := by decide +kernel

theorem wit_send : (ran (job3 3) []).stream? 0 = some strmOut ∧ strmOut.owner = 1 ∧ strmOut.kind = 1 ∧ strmOut.links ≠ 0
    ∧ (ran (job3 3) []).slotHolds strmOut 0 3 = true ∧ (ran (job3 3) []).destMapped strmOut = true ∧ sramOk [(0xFFF00, 224)] = true
    ∧ (ran (job3 3) []).sendRoom 1 = true ∧ (ran (job3 3) []).stream? 2 = none := by decide +kernel
/-- Core 1's send buffer is full. -/
def sFull : State :=
  { ran (job3 3) [] with fab := { Fab.reset with sendBuf := List.replicate 292 { stream := 0, seq := 0, slot := 0, payload := [] } } }
theorem wit_send_full : (sFull.Wf ∧ sFull.Ready at1) ∧ sFull.stream? 0 = some strmOut ∧ sFull.slotHolds strmOut 0 3 = true
    ∧ sFull.destMapped strmOut = true ∧ sFull.sendRoom 1 = false :=
  ⟨⟨wf_of (by decide +kernel), ready_of (by decide +kernel)⟩, by decide +kernel⟩
/-- Streams without a fabric link: 0 takes flits to core 1, 1 contributions in pairs to range 0. -/
def strmRed : Stream := { strm1 with kind := 3, flags := 1, dst := 0 }
def job8 : Job :=
  { job3 3 with
    streams := [strm1, strmRed], tensors := [tens 0 0x13 5 16, tens 1 0x20 10 64, tens 2 0x13 4 16], ranges := [⟨1, 0, 0, 64, 0⟩] }
theorem wit_send_local : ((ran job8 []).Wf ∧ (ran job8 []).Ready at1) ∧ (ran job8 []).stream? 0 = some strm1 ∧ strm1.links = 0
    ∧ (ran job8 []).slotHolds strm1 0 7 = true ∧ (ran job8 []).destMapped strm1 = true ∧ (ran job8 []).sendRoom 1 = true
    ∧ (ran job8 []).stream? 1 = some strmRed ∧ strmRed.kind = 3 ∧ strmRed.links = 0 ∧ true = (bitsOf strmRed.flags 0 1 == 1)
    ∧ (ran job8 []).slotHolds strmRed 1 7 = true ∧ (ran job8 []).destMapped strmRed = true :=
  ⟨⟨wf_of (by decide +kernel), ready_of (by decide +kernel)⟩, by decide +kernel⟩
def sDlvAt (now : Nat) : State := ranC job2 [(rPfPackTime, now)] (fun c => { c with dlv := [dlv0] })
theorem wit_accept : ∀ now ∈ [300, 301], (sDlvAt now).Wf ∧ (sDlvAt now).Ready at1 ∧ (sDlvAt now).awaited? 1 (0, 3) = some dlv0
    ∧ dlv0.payload.length = 224 ∧ ((sDlvAt now).packOf dlv0.slot < (sDlvAt now).now ↔ now = 301) := by
  have h : ∀ now ∈ [300, 301], wfb (sDlvAt now) = true ∧ readyb (sDlvAt now) at1 = true ∧ (sDlvAt now).awaited? 1 (0, 3) = some dlv0
    ∧ dlv0.payload.length = 224 ∧ ((sDlvAt now).packOf dlv0.slot < (sDlvAt now).now ↔ now = 301) := by decide +kernel
  exact fun n hn => ⟨wf_of (h n hn).1, ready_of (h n hn).2.1, (h n hn).2.2⟩
theorem wit_accept_absent : (ran (job3 3) []).awaited? 1 (0, 9) = none ∧ (ran (job3 3) []).acceptReady 1 0 9 = true
    ∧ sramOk [(0xFFF00, 224)] = true := by decide +kernel
theorem wit_contribute : (ran (job3 3) []).stream? 1 = some strmColl ∧ (ran (job3 3) []).inst? strmColl.dst = some ⟨40, 1, 0, 0, 4, 200⟩
    ∧ sramOk [(0, contribBytes 1 1)] = true ∧ strmColl.owner = 1 ∧ strmColl.kind = 4 ∧ (ran (job3 3) []).slotHolds strmColl 1 4 = true
    ∧ (ran (job3 3) []).lastSendPast ⟨40, 1, 0, 0, 4, 200⟩ = false := by decide +kernel
theorem wit_contribute_late : ((ran (job3 3) [(rPfPackTime, 5)]).Wf ∧ (ran (job3 3) [(rPfPackTime, 5)]).Ready at1)
    ∧ (ran (job3 3) [(rPfPackTime, 5)]).slotHolds strmColl 1 4 = true
    ∧ (ran (job3 3) [(rPfPackTime, 5)]).lastSendPast ⟨40, 1, 0, 0, 4, 200⟩ = true :=
  ⟨⟨wf_of (by decide +kernel), ready_of (by decide +kernel)⟩, by decide +kernel⟩

/-! ### Witnesses: ports, pack time and the fabric -/

theorem wit_portMode : base.Wf ∧ base.dark = false ∧ base.modeLocked 1 = false ∧ base.portState 1 = 0 ∧ base.hlAfter 1 0 = 2
    ∧ base.hlAfter 0 1 = 1 ∧ base.hlAfter 17 2 = 3 ∧ ({ base with flocks := [rPortMode 17] } : State).modeLocked 17 = true
    ∧ (put base [(rPortMode 9, 1)]).modeLocked 0 = false ∧ (put base [(rPortMode 9, 1)]).hlAfter 0 1 = 0
    ∧ bitsOf (3 : W64).toNat 2 1 = 0 ∧ bitsOf (3 : W64).toNat 3 1 = 0 ∧ bitsOf (3 : W64).toNat 0 2 = 3
    ∧ bitsOf (5 : W64).toNat 2 1 = 1 ∧ bitsOf (5 : W64).toNat 0 2 = 1 ∧ base.bu = 1 ∧ bitsOf (6 : W64).toNat 0 2 = 2
    ∧ base.hlAfter 0 2 = 2 ∧ (put base (upPort 1 1)).portState 1 ≠ 0 ∧ (put base (upPort 1 1)).modeLocked 1 = false :=
  ⟨wf_of (by decide +kernel), by decide +kernel⟩
theorem wit_train : (led [(rBuState, 3)]).Wf ∧ (led [(rBuState, 3)]).dark = false ∧ (led [(rBuState, 3)]).portState 17 = 0
    ∧ (led [(rBuState, 3)]).mode 17 = 1 ∧ (led [(rBuState, 3)]).bu ≠ 1 ∧ base.mode 1 = 1 ∧ base.bu = 1
    ∧ (put base [(rPortMode 2, 0)]).mode 2 = 0 ∧ base.mode 9 = 2 ∧ (put base (upPort 0 2)).portState 0 ≠ 0 ∧ (put base (upPort 0 2)).mode 0 = 2 :=
  ⟨wf_of (by decide +kernel), by decide +kernel⟩
/-- Port 17 in mode `m` and state `st`, at full width or not. -/
def sTr (m st : Nat) (full : Bool) : State :=
  { led [(rBuState, 3), (rPortMode 17, m), (rPortStat 17, st)] with ports := [(17, { PortSt.reset with trained := true, full })] }
theorem wit_training : ∀ m ∈ [1, 2], ∀ st ∈ [1, 2, 3, 4, 5], ∀ full ∈ [true, false], (sTr m st full).Wf ∧ (sTr m st full).dark = false
    ∧ (sTr m st full).portState 17 = st ∧ (sTr m st full).mode 17 = m ∧ ((sTr m st full).port 17).full = full ∧ (sTr m st full).pkg.whelp = true
    ∧ ((sTr m st full).port 17).txq = [] := by
  have h : ∀ m ∈ [1, 2], ∀ st ∈ [1, 2, 3, 4, 5], ∀ full ∈ [true, false], wfb (sTr m st full) = true ∧ (sTr m st full).dark = false
    ∧ (sTr m st full).portState 17 = st ∧ (sTr m st full).mode 17 = m ∧ ((sTr m st full).port 17).full = full ∧ (sTr m st full).pkg.whelp = true
    ∧ ((sTr m st full).port 17).txq = [] := by decide +kernel
  exact fun m hm st hs full hf => ⟨wf_of (h m hm st hs full hf).1, (h m hm st hs full hf).2⟩
theorem wit_training_lanes : 31 % 16 = 15 ∧ 7 % 16 ≠ 15 ∧ 65535 < 2 ^ 16 ∧ hlLanes 3 true ≠ 0 ∧ hlLanes 2 true = 0 := by decide

/-- A running package with FABRIC port 1 UP on four lanes and its hidden state changed. -/
def ranP (j : Job) (rs : List (Nat × Nat)) (f : PortSt → PortSt) : State :=
  { ran j ([(rPortMode 1, 1), (rPortStat 1, 6 + 2 ^ 6 * 15), (rPortLink 1, 2 ^ 16 * 5)] ++ rs) with ports := [(1, f PortSt.reset)] }
def pUp : PortSt → PortSt := fun v => { v with trained := true }
theorem wit_link : (ranP job1 [] pUp).Wf ∧ (ranP job1 [] pUp).dark = false ∧ (ranP job1 [] pUp).portUp 1 = true
    ∧ (ranP job1 [] pUp).fld rPfFault 16 1 = 0 ∧ bitsOf ((ranP job1 [] pUp).fld (rPortStat 1) 6 4) 3 1 = 1
    ∧ bitsOf ((ranP job1 [] pUp).fld (rPortStat 1) 6 4) 4 1 = 0 ∧ (ranP job1 [] pUp).running = true ∧ portHalf 1 = 0
    ∧ (ranP job1 [] (fun v => { pUp v with silence := 255 })).portUp 1 = true
    ∧ ((ranP job1 [] (fun v => { pUp v with silence := 255 })).port 1).silence < 256 :=
  ⟨wf_of (by decide +kernel), by decide +kernel⟩
theorem wit_silence : (ranP job1 [] (fun v => { pUp v with silence := 256 })).portUp 1 = true
    ∧ (ranP job1 [] (fun v => { pUp v with silence := 256 })).fld (rPortStat 1) 10 1 = 0
    ∧ 256 ≤ ((ranP job1 [] (fun v => { pUp v with silence := 256 })).port 1).silence := by decide +kernel

def buf0 : Delivery := { stream := 0, seq := 0, slot := 0, payload := List.replicate 224 9 }
def fwd0 : Held := ⟨8, .forward 0 1, 0, 2, 0, false, []⟩
def sSend (bufs : List Delivery) : State := { ranP (job3 3) [] pUp with fab := { Fab.reset with sendBuf := bufs, held := [fwd0] } }
theorem wit_sendSlot : (sSend [buf0]).Wf ∧ (sSend [buf0]).dark = false ∧ (sSend [buf0]).issuing = true ∧ (sSend [buf0]).anyWaits = false
    ∧ (sSend [buf0]).portUp 1 = true
    ∧ ((sSend [buf0]).port 1).stops = [] ∧ (sSend [buf0]).nextSend 1 (max ((sSend [buf0]).port 1).lastSend (sSend [buf0]).stp.origin) = some 0
    ∧ (sSend [buf0]).tableAt 1 false 0 = some (⟨1, false, false, 0, 0, 4, 0⟩, 0) ∧ (sSend [buf0]).stream? 0 = some strmOut ∧ strmOut.kind ≠ 4
    ∧ (sSend [buf0]).fab.sendBuf.find? (fun x => x.stream == 0 && x.seq == 0) = some buf0
    ∧ (sSend []).fab.sendBuf.find? (fun x => x.stream == 0 && x.seq == 0) = none ∧ (sSend []).armed = false
    ∧ (sSend []).fld rPfFault 16 1 = 0 ∧ (sSend []).fab.held.filter (Held.forwardOn 1) = [fwd0]
    ∧ (sSend []).forwardNamed 1 (fwd0.due + 12) fwd0 = false :=
  ⟨wf_of (by decide +kernel), by decide +kernel⟩
/-- The next slot of port 1 belongs to a COLLECTIVE stream, whose engine holds a value. -/
def sSendColl : State :=
  { ranP (job3 3) [] (fun v => { pUp v with lastSend := 4 }) with fab := { Fab.reset with colls := [⟨40, [.orBits 5], [1], []⟩] } }
theorem wit_sendSlot_coll : sSendColl.Wf ∧ sSendColl.anyWaits = false
    ∧ sSendColl.nextSend 1 (max (sSendColl.port 1).lastSend sSendColl.stp.origin) = some 4
    ∧ sSendColl.tableAt 1 false 4 = some (⟨1, false, false, 1, 4, 1, 0⟩, 0) ∧ sSendColl.stream? 1 = some strmColl ∧ strmColl.kind = 4
    ∧ ((sSendColl.advanceTo (sSendColl.packOf 4)).collPayload strmColl 0).isSome = true :=
  ⟨wf_of (by decide +kernel), by decide +kernel⟩
/-- The next slot of port 1 belongs to a forward run. -/
def sSendFwd : State :=
  { ranP { job3 3 with runs := [⟨1, false, false, 0x8000, 20, 1, 0⟩] } [] pUp with fab := { Fab.reset with held := [fwd0] } }
theorem wit_sendSlot_forward : sSendFwd.Wf ∧ sSendFwd.anyWaits = false
    ∧ sSendFwd.nextSend 1 (max (sSendFwd.port 1).lastSend sSendFwd.stp.origin) = some 20
    ∧ sSendFwd.tableAt 1 false 20 = some (⟨1, false, false, 0x8000, 20, 1, 0⟩, 0) ∧ 0x8000 ≤ 0x8000
    ∧ sSendFwd.forwardHeld 0 1 20 = some fwd0 ∧ sSendFwd.fab.held.filter (Held.forwardOn 1) = [fwd0]
    ∧ sSendFwd.forwardNamed 1 (fwd0.due + 12) fwd0 = true :=
  ⟨wf_of (by decide +kernel), by decide +kernel⟩
def sSendDown : State := ranP (job3 3) [(rPortStat 1, 0)] pUp
theorem wit_sendSlot_down : sSendDown.Wf ∧ sSendDown.portUp 1 = false ∧ (sSendDown.port 1).downRaised = false ∧ sSendDown.fld rPfFault 16 1 = 0
    ∧ sSendDown.nextSend 1 (max (sSendDown.port 1).lastSend sSendDown.stp.origin) = some 0 ∧ (sSendDown.tableAt 1 false 0).isSome = true :=
  ⟨wf_of (by decide +kernel), by decide +kernel⟩

/-- A job whose port 1 receives stream 0 in slots 0 to 3. -/
def strmIn : Stream := { strmOut with owner := 0, dstHerd := 0, dst := 1 }
def job5 : Job :=
  { job3 3 with
    streams := [strmIn, strmColl]
    runs := [⟨1, true, false, 0, 0, 4, 0⟩]
    colls := [⟨40, 1, 0, 0, 4, 2048⟩, ⟨41, 4, 2, 0, 4, 200⟩, ⟨42, 1, 0, 0, 4, 4096⟩, ⟨43, 2, 1, 0, 4, 4096⟩, ⟨44, 4, 0, 0, 4, 4096⟩] }
/-- A flit with its CRC. -/
def gf (type stamp : Nat) (resend : Bool) : Flit := Flit.sealed { flit0 with type, sendStamp := stamp, resend }
theorem gf_good : (gf 1 3 false).good = true ∧ (gf 1 3 true).good = true ∧ (gf 0 0 false).good = true ∧ flit0.good = false := by decide +kernel
theorem keepsLock_of {s : State} (h : s.follows = false) (p : Nat) (f : Flit) (x : Arrival) : s.keepsLock p f x :=
  fun h' => by rw [h] at h'; cases h'
theorem wit_receive : (ranP job5 [] pUp).Wf ∧ (ranP job5 [] pUp).dark = false ∧ (ranP job5 [] pUp).portUp 1 = true
    ∧ (ranP job5 [] pUp).mode 1 = 1 ∧ (gf 1 3 false).nakValid = false ∧ (gf 1 3 false).type = 1 ∧ (ranP job5 [] pUp).issuing = true
    ∧ (ranP job5 [] pUp).follows = false
    ∧ (ranP job5 [] pUp).expects 1 = [] ∧ (ranP job5 [] pUp).tableAt 1 true 3 = some (⟨1, true, false, 0, 0, 4, 0⟩, 3)
    ∧ (ranP job5 [] pUp).stream? (0 % 0x8000) = some strmIn ∧ (ranP job5 [] pUp).collectiveOk strmIn (gf 1 3 false).payload = true
    ∧ (gf 1 3 false).sendStamp % 2 ^ 24 = (ranP job5 [] pUp).packOf 3 % 2 ^ 24
    ∧ (gf 1 4 false).sendStamp % 2 ^ 24 ≠ (ranP job5 [] pUp).packOf 3 % 2 ^ 24 ∧ (ranP job5 [] pUp).fld rPfFault 16 1 = 0
    ∧ (ranP job5 [] pUp).tableAt 1 true 4 = none ∧ (ranP job5 [] pUp).armed = false ∧ ((ranP job5 [] pUp).port 1).failedRx = []
    ∧ fecOk [] = true ∧ fecOk [0, 2, 4, 6, 239] = true ∧ fecOk [0, 2, 4, 6, 254] = false :=
  ⟨wf_of (by decide +kernel), by decide +kernel⟩
/-- The DATA flit of slot 3 has failed; its re-send is due in the spare 31. -/
def sRx : State := ranP job5 [] (fun v => { pUp v with failedRx := [(3, false)] })
theorem wit_receive_resend : sRx.Wf ∧ sRx.issuing = true ∧ sRx.follows = false ∧ (sRx.expects 1).find? (fun e => e.1 == 31) = some (31, 3)
    ∧ sRx.tableAt 1 true 3 = some (⟨1, true, false, 0, 0, 4, 0⟩, 3) ∧ (gf 1 3 true).resend = true
    ∧ (gf 1 3 true).sendStamp % 2 ^ 24 = sRx.packOf 3 % 2 ^ 24 ∧ (gf 1 3 true).nakValid = false :=
  ⟨wf_of (by decide +kernel), by decide +kernel⟩

def sentAt (q : Nat) : SentFlit := { time := q, slot := q, flit := gf 1 q false }
def sRetry (rs : List (Nat × Nat)) (f : PortSt → PortSt) : State := ranP job5 rs (fun v => f (pUp v))
/-- The flit of slot 3 is kept; it has been named by a NAK, or not. -/
def sTx (failed : List (Nat × SentFlit × Bool)) : State := sRetry [] (fun v => { v with sent := [sentAt 3], failedTx := failed })
theorem wit_retry : (sTx []).Wf ∧ (sTx []).dark = false ∧ (sTx []).issuing = true ∧ (sTx []).portUp 1 = true
    ∧ ((sTx []).port 1).sent = [sentAt 3] ∧ (sentAt 3).time % 2 ^ 12 = (2 ^ 12 + 3) % 2 ^ 12
    ∧ (sTx []).nakable 1 (sentAt 3) = true ∧ ((sTx []).port 1).failedTx = []
    ∧ (sRetry [(rPfPackTime, 16)] (fun v => { v with sent := [sentAt 3] })).nakable 1 (sentAt 3) = false
    ∧ ((sTx [(3, sentAt 3, true)]).port 1).failedTx.any (fun e => e.1 == (sentAt 3).slot) = true
    ∧ (sTx [(3, sentAt 3, false)]).resends 1 = [(31, sentAt 3)] ∧ ((sTx [(3, sentAt 3, false)]).port 1).stops = []
    ∧ (sTx [(3, sentAt 3, false)]).anyWaits = false
    ∧ (sTx [(0, sentAt 0, false), (1, sentAt 1, false), (2, sentAt 2, false)]).overruns 1 = [(31, 2)]
    ∧ sRx.expects 1 = [(31, 3)] ∧ sRx.fld rPfFault 16 1 = 0 ∧ sRx.anyWaits = false :=
  ⟨wf_of (by decide +kernel), by decide +kernel⟩

/-- Streams 0 (TRANSFER to core 1), 1 (PLACE), 2 (REDUCE of range 0), 3 (COLLECTIVE); range 0 is the whole of the gradient. -/
def job6 : Job :=
  { job3 3 with
    streams := [strmIn, { strmOut with kind := 2, dstAddr := 0x7000, dstHerd := 0 }, { strmOut with kind := 3, dst := 0, dstAddr := 0, dstHerd := 0 },
      { strmColl with dstHerd := 0 }]
    tensors := [tens 0 0x13 5 16, tens 1 0x20 10 64, tens 2 0x13 4 16]
    ranges := [⟨1, 0, 0, 64, 0⟩] }
def heldOf (k : HeldKind) (stream : Nat) : Held := ⟨40, k, stream, 2, 0, false, List.replicate 224 0⟩
def heldR : Held := { heldOf (.reduce 0) 2 with seq := 0 }
def sHeld : State :=
  { ranP job6 [] pUp with fab := { Fab.reset with
      held := [heldOf (.link 17 0) 0, heldOf (.link 1 0) 1, heldOf (.link 1 0) 2, heldOf (.link 1 0) 3, heldOf .place 1, heldR] } }
theorem wit_delivery : sHeld.Wf ∧ sHeld.dark = false ∧ sHeld.issuing = true ∧ sHeld.anyWaits = false
    ∧ (∀ k < 4, (sHeld.stream? k).map (·.kind) = some (k + 1)
        ∧ sHeld.fab.held.find? (fun h => h.stream == k && h.seq == 2 && h.atEndpoint) = some (heldOf (.link (if k = 0 then 17 else 1) 0) k))
    ∧ (sHeld.core 1).dlvFull = false
    ∧ sHeld.fab.held.find? (fun h => h.kind == .place && h.stream == 1 && h.seq == 2) = some (heldOf .place 1)
    ∧ (sHeld.stream? 1).map (·.dstAddr) = some 0x7000 ∧ sHeld.badPart (0x7000 + 224 * 2) 224 = none :=
  ⟨wf_of (by decide +kernel), by decide +kernel⟩
def sOnPkg : State := { ran job8 [] with fab := { Fab.reset with held := [heldOf .onPkg 0] } }
theorem wit_delivery_onPkg : sOnPkg.Wf ∧ sOnPkg.issuing = true ∧ sOnPkg.anyWaits = false ∧ sOnPkg.stream? 0 = some strm1
    ∧ sOnPkg.fab.held.find? (fun h => h.stream == 0 && h.seq == 2 && h.atEndpoint) = some (heldOf .onPkg 0)
    ∧ ({ CoreSt.reset with dlv := List.replicate 292 dlv0 } : CoreSt).dlvFull = true :=
  ⟨wf_of (by decide +kernel), by decide +kernel⟩
theorem wit_reduce : sHeld.nextReduce 0 = some heldR ∧ heldR.stream = 2 ∧ heldR.seq = 0
    ∧ (sHeld.stream? 2).bind sHeld.redTarget = some (job6, ⟨1, 0, 0, 64, 0⟩, tens 1 0x20 10 64) ∧ (tens 1 0x20 10 64).ns = 0 ∧ sHeld.bad = []
    ∧ ((sHeld.redElems { strmOut with kind := 3, dst := 0, dstAddr := 0, dstHerd := 0 } 0).filter (fun e => e.2 / stackBytes == 0)).length = 56 := by
  decide +kernel
theorem wit_reduce_apart : ((sHeld.redElems { strmOut with kind := 3, dst := 0, dstAddr := 0, dstHerd := 0 } 0).filter
    (fun e => e.2 / stackBytes == 0)).Pairwise (fun d e => d.2 + 8 ≤ e.2 ∨ e.2 + 8 ≤ d.2) := by decide +kernel

theorem wit_stopReceive : (ranP job1 [] pUp).Wf ∧ (ranP job1 [] pUp).portUp 1 = true ∧ (ranP job1 [] pUp).mode 1 = 1
    ∧ (gf 2 0 false).good = true ∧ (ranP job1 [] pUp).follows = false ∧ ((ranP job1 [] pUp).port 1).failedRx = []
    ∧ (ranP job1 [] pUp).tableAt 1 true 7 = none
    ∧ (ranP job1 [] pUp).running = true ∧ (ranP job1 [] pUp).fab.originsFwd = [] ∧ (ranP job1 [] pUp).fab.stopOut = false
    ∧ (ranP job1 [] pUp).fld rPfStopCause 32 1 = 0 ∧ (ranP job1 [(rBuState, 5)] pUp).running = false ∧ (ranP job1 [(rBuState, 5)] pUp).bu ≠ 7
    ∧ (ranP job1 [(rBuState, 5)] pUp).portUp 1 = true ∧ 1 ∈ (ranP job1 [] pUp).used ∧ (ranP job1 [] pUp).coreLive 1 = true :=
  ⟨wf_of (by decide +kernel), by decide +kernel⟩
/-- HALTED by a STOP with detection time 9, in the slot `h` or earlier. -/
def sStopped (h : Option Nat) : State :=
  { ranP job1 [(rBuState, 7), (rPfStopCause, 4 + 2 ^ 32), (rPfStopTime, 9)] pUp with
    fab := { Fab.reset with originsFwd := [4], haltedAt := h } }
theorem wit_stopReceive_halted : ((sStopped none).Wf ∧ (sStopped (some 0)).Wf) ∧ (sStopped none).bu = 7
    ∧ (sStopped none).fab.originsFwd.contains 5 = false ∧ (sStopped none).fab.stopOut = false
    ∧ (sStopped none).fab.haltedAt ≠ some (sStopped none).now ∧ (sStopped (some 0)).fab.haltedAt = some (sStopped (some 0)).now
    ∧ 8 < (sStopped (some 0)).reg rPfStopTime ∧ (sStopped none).issuing = false ∧ (sStopped none).portUp 1 = true
    ∧ (sStopped none).follows = false :=
  ⟨⟨wf_of (by decide +kernel), wf_of (by decide +kernel)⟩, by decide +kernel⟩

/-- A stretch word: beat and S. -/
def str (b s : Nat) : W64 := BitVec.ofNat 64 (b + 2 ^ 48 * s)
theorem wit_stretch : (ranP job1 [] pUp).beat + 2048 ≤ bitsOf (str 2048 3840).toNat 0 48 ∧ (ranP job1 [] pUp).fab.table.length < 4
    ∧ bitsOf (str 2048 3840).toNat 48 12 ≤ 3840 ∧ (ranP job1 [] pUp).fab.table.contains (2048, 3840) = false
    ∧ bitsOf (str 2047 1).toNat 0 48 < (ranP job1 [] pUp).beat + 2048 ∧ 3840 < bitsOf (str 2048 3841).toNat 48 12
    ∧ (gf 4 0 false).good = true ∧ (ranP job1 [] pUp).follows = false
    ∧ (ranP job1 [] pUp).beat + 64 ≤ bitsOf (str 64 0).toNat 0 48 ∧ (ranP job1 [] pUp).fab.past.contains (64, 0) = false
    ∧ bitsOf (str 63 0).toNat 0 48 < (ranP job1 [] pUp).beat + 64 ∧ (ranP job1 [] pUp).running = true
    ∧ (ranP job1 [] pUp).fld rPfFault 16 1 = 0 ∧ (ranP job1 [(rBuState, 5)] pUp).running = false
    ∧ (ranP job1 [(rBuState, 5)] pUp).portUp 1 = true := by decide +kernel
theorem wit_stretch_known : ({ ranP job1 [] pUp with fab := { Fab.reset with table := [(64, 1)] } } : State).fab.table.contains (64, 1) = true
    ∧ ({ ranP job1 [] pUp with fab := { Fab.reset with past := [(64, 1)] } } : State).fab.past.contains (64, 1) = true
    ∧ ({ ranP job1 [] pUp with fab := { Fab.reset with table := [(64, 1)] } } : State).portUp 1 = true
    ∧ 4 ≤ ({ ranP job1 [] pUp with fab := { Fab.reset with table := [(64, 1), (65, 1), (66, 1), (67, 1)] } } : State).fab.table.length := by
  decide +kernel
def sAuto : State := ranP job1 [(rPwrStretch, 1 + 2 ^ 16 * 3840), (rPfBeat, 1536)] pUp
theorem wit_stretchAuto : sAuto.Wf ∧ sAuto.dark = false ∧ sAuto.fld rPwrStretch 0 1 = 1 ∧ sAuto.running = true
    ∧ (sAuto.beat + 2560) % 4096 = 0 ∧ sAuto.pwr.autoSent.contains (sAuto.beat + 2560) = false ∧ 0 < sAuto.fld rPwrStretch 16 12
    ∧ sAuto.fld rPwrStretch 16 12 ≤ 3840 ∧ sAuto.fab.table.length < 4
    ∧ sAuto.fab.table.contains (sAuto.beat + 2560, sAuto.fld rPwrStretch 16 12) = false :=
  ⟨wf_of (by decide +kernel), by decide +kernel⟩
theorem wit_beatStart : (ran job1 []).Wf ∧ (ran job1 []).dark = false ∧ (ran job1 []).beat + 1 < 2 ^ 48 ∧ (ran job1 []).anyWaits = false
    ∧ (ran job1 []).fab.beatStart + 256 + stretchAt (ran job1 []).stretchTable (ran job1 []).beat < 2 ^ 64
    ∧ (ranP job1 [(rPfSyncCtrl, 1 + 2 ^ 6)] pUp).fld rPfSyncCtrl 6 1 = 1 ∧ (ranP job1 [(rPfSyncCtrl, 1 + 2 ^ 6)] pUp).fld rPfSyncCtrl 0 1 = 1
    ∧ 1 ∈ (ranP job1 [(rPfSyncCtrl, 1 + 2 ^ 6)] pUp).fabricUp :=
  ⟨wf_of (by decide +kernel), by decide +kernel⟩
/-- A package that follows the parent on port 1: PF_SYNC_STAT, BU_STATE, pack time, the fabric. -/
def sFol (st bu now : Nat) (f : Fab) : State :=
  { ranP job1 [(rBuState, bu), (rPfSyncCtrl, 2 + 2 ^ 6), (rPfSyncStat, st), (rPfPackTime, now)] pUp with fab := f }
theorem wit_packtime : ((sFol 0 6 256 { Fab.reset with steady := some 0 }).Wf ∧ (sFol 1 6 0 Fab.reset).Wf ∧ (sFol 1 5 0 Fab.reset).Wf)
    ∧ (sFol 0 6 256 { Fab.reset with steady := some 0 }).follows = true
    ∧ (sFol 0 6 256 { Fab.reset with steady := some 0 }).fab.steady = some 0 ∧ 0 + 256 ≤ (sFol 0 6 256 { Fab.reset with steady := some 0 }).now
    ∧ (sFol 0 6 255 { Fab.reset with steady := some 0 }).fab.steady.all (fun t => decide ((sFol 0 6 255 { Fab.reset with steady := some 0 }).now < t + 256)) = true
    ∧ (sFol 1 6 0 Fab.reset).fld rPfSyncStat 0 1 = 1 ∧ (sFol 1 6 0 Fab.reset).running = true ∧ (sFol 1 6 0 Fab.reset).fld rPfFault 16 1 = 0
    ∧ (sFol 1 5 0 Fab.reset).running = false ∧ (sFol 1 5 0 Fab.reset).fld rPfSyncStat 0 1 = 1
    ∧ (sFol 0 6 0 Fab.reset).portUp 1 = true ∧ (sFol 0 6 0 Fab.reset).mode 1 = 1 ∧ 1 = (sFol 0 6 0 Fab.reset).fld rPfSyncCtrl 1 5
    ∧ (sFol 0 6 0 Fab.reset).fld rPfSyncStat 0 1 = 0 ∧ (sFol 0 6 0 Fab.reset).fab.everLocked = false :=
  ⟨⟨wf_of (by decide +kernel), wf_of (by decide +kernel), wf_of (by decide +kernel)⟩, by decide +kernel⟩
def sLocked : State := sFol 1 6 0 { Fab.reset with everLocked := true }
theorem wit_packtime_flit : sLocked.Wf ∧ sLocked.follows = true ∧ sLocked.fld rPfSyncStat 0 1 = 1 ∧ sLocked.portUp 1 = true ∧ (gf 0 0 false).good = true
    ∧ (gf 0 0 false).nakValid = false ∧ (gf 0 0 false).resend = false ∧ (sLocked.port 1).failedRx = [] ∧ sLocked.tableAt 1 true 0 = none
    ∧ sLocked.phaseOf 1 (gf 0 0 false) { at64 := 32 } = 32 ∧ sLocked.phaseOf 1 (gf 0 0 false) { at64 := 33 } = 33 ∧ sLocked.fld rPfFault 16 1 = 0 :=
  ⟨wf_of (by decide +kernel), by decide +kernel⟩

/-! ### Witnesses: collectives and snapshots -/

theorem wit_collectives : (ran job5 []).Wf ∧ (ran job5 []).dark = false ∧ (ran job5 []).issuing = true ∧ (ran job5 []).anyWaits = false
    ∧ (ran job5 []).inst? 41 = some ⟨41, 4, 2, 0, 4, 200⟩ ∧ (ran job5 []).missing 41 = false ∧ (ran job5 []).missing 40 = true
    ∧ (ran job5 []).inst? 40 = some ⟨40, 1, 0, 0, 4, 2048⟩ ∧ (ran job5 []).armed = false ∧ (ran job5 []).fld rPfFault 16 1 = 0
    ∧ (ran job5 []).stp.staged = []
    ∧ (ran job5 []).collUse ⟨41, 4, 2, 0, 4, 200⟩ = .layer ∧ (ran job5 []).collUse ⟨40, 1, 0, 0, 4, 2048⟩ = .status
    ∧ (ran job5 []).inst? 42 = some ⟨42, 1, 0, 0, 4, 4096⟩ ∧ (ran job5 []).collUse ⟨42, 1, 0, 0, 4, 4096⟩ = .norm
    ∧ (ran job5 []).inst? 43 = some ⟨43, 2, 1, 0, 4, 4096⟩ ∧ (ran job5 []).collUse ⟨43, 2, 1, 0, 4, 4096⟩ = .norm
    ∧ (ran job5 []).inst? 44 = some ⟨44, 4, 0, 0, 4, 4096⟩ ∧ (ran job5 []).collUse ⟨44, 4, 0, 0, 4, 4096⟩ = .norm :=
  ⟨wf_of (by decide +kernel), by decide +kernel⟩
theorem wit_chrysalis : (ran job1 [(rMemChryStat, 4)]).Wf ∧ (ran job1 [(rMemChryStat, 4)]).slotState 1 = 1
    ∧ (ran job1 [(rMemChryStat, 4)]).fld rPfDiverge 48 1 = 0 ∧ (ran job1 [(rPfDiverge, 2 ^ 48)]).fld rPfDiverge 48 1 = 1
    ∧ (ran job1 [(rMemChryStat, 10)]).memReady = true ∧ (ran job1 [(rMemChryStat, 10)]).slotState 1 = 2 :=
  ⟨wf_of (by decide +kernel), by decide +kernel⟩

/-! ### Witnesses: Hostlink -/

/-- Port 0 HOSTLINK and UP, with credits, its hidden state changed by `f`; package state `bu`. -/
def hl (bu : Nat) (rs : List (Nat × Nat)) (f : PortSt → PortSt) : State :=
  { led ([(rBuState, bu), (rPortMode 0, 2), (rPortStat 0, 6)] ++ rs) with
    ports := [(0, f { PortSt.reset with trained := true, credits := [32, 32, 32, 32] })] }
/-- Two flits wait for their ACK; `n` is whether the host has set NAK. -/
def sHl (sends : Nat) (n : Bool) : State :=
  hl 5 [] (fun v => { v with unacked := [⟨4094, sends, []⟩, ⟨4095, 1, []⟩], rxNext := 4095, nakSeen := n })
/-- A MSG flit with no message and its CRC. -/
def hlf (type lseq : Nat) : HlFlit :=
  HlFlit.sealed { type, lseq, ackSeq := 4095, ackValid := true, nak := false, credit := 0, payload := hlPayload [] }
theorem wit_hlFlit : (sHl 7 true).Wf ∧ (sHl 7 true).dark = false ∧ (sHl 7 true).portUp 0 = true ∧ (sHl 7 true).mode 0 = 2
    ∧ ((sHl 7 true).port 0).txq = [] ∧ (hlf 1 4095).good = true ∧ (hlf 0 0).good = true ∧ ({ hlf 1 4095 with crc := 0 } : HlFlit).good = false
    ∧ (hlf 1 4095).ackValid = true ∧ ((sHl 7 true).port 0).unacked = [⟨4094, 7, []⟩] ++ ⟨4095, 1, []⟩ :: [] ∧ 4095 = (hlf 1 4095).ackSeq % 4096
    ∧ (∀ x ∈ [(⟨4094, 7, []⟩ : HlTx)], x.lseq ≠ (hlf 1 4095).ackSeq % 4096)
    ∧ (hlf 1 4095).type = 1 ∧ (hlf 0 0).type ≠ 1 ∧ (hlf 1 4095).lseq % 4096 = ((sHl 7 true).port 0).rxNext
    ∧ (hlf 1 4094).lseq % 4096 ≠ ((sHl 7 true).port 0).rxNext
    ∧ ((sHl 7 false).port 0).nakSeen = false ∧ ((sHl 7 true).port 0).nakSeen = true ∧ (∀ e ∈ ((sHl 7 true).port 0).unacked, e.sends < 8)
    ∧ ∃ e ∈ ((sHl 8 true).port 0).unacked, 8 ≤ e.sends :=
  ⟨wf_of (by decide +kernel), by decide +kernel⟩
/-- The header of Table 12.2: OP, LEN, TAG, ADDR, STATUS, PARAM; then LEN units of 16 B, and an OP 0x00 ends the flit. -/
theorem test_hlMessages : (hlPayload [{ op := opWrFull, tag := 0x0102, addr := 0x8040, status := 0, param := 1, data := List.replicate 16 0xAB }]).take 17
      = [0x23, 1, 2, 1, 0x40, 0x80, 0, 0, 0, 0, 0, 0, 0, 0, 1, 0, 0xAB]
    ∧ readMsgs 14 ([0x7F] ++ List.replicate 223 0) = none ∧ readMsgs 14 (List.replicate 224 0) = some []
    ∧ (readMsgs 14 ([0x10, 0, 5] ++ List.replicate 221 0)).map (fun l => l.map (·.tag)) = some [5] := by decide +kernel

def line0 (u : LineUse) (h : Bool) : Line := { addr := 0x1000, held := h, use := u, data := List.replicate 64 3 }
theorem wit_snoop : (hl 5 [] id).Wf ∧ (hl 5 [] id).portUp 0 = true ∧ (hl 5 [] id).mode 0 = 2 ∧ ((hl 5 [] id).port 0).line? 0x1000 = none
    ∧ ((hl 5 [] (fun v => { v with lines := [line0 (.report 2) true] })).port 0).line? 0x1000 = some (line0 (.report 2) true)
    ∧ (line0 (.report 2) true).use.rings = false ∧ ((hl 5 [] (fun v => { v with lines := [line0 (.report 2) true] })).port 0).txq = []
    ∧ ((hl 5 [] (fun v => { v with unacked := List.replicate 511 ⟨1, 1, []⟩ })).port 0).unacked.length < 512 :=
  ⟨wf_of (by decide +kernel), by decide +kernel⟩
/-- A doorbell line that the engine is giving up, or not. -/
def sBell (up : Bool) : State :=
  hl 5 [] (fun v => { v with lines := [line0 (.doorbell 2) false]
                             reqs := if up then [⟨4, opEvict, 0x1000, false, .giveUp (.doorbell 2)⟩] else [] })
theorem wit_snoop_bell : ((sBell true).Wf ∧ (sBell false).Wf) ∧ ((sBell true).port 0).line? 0x1000 = some (line0 (.doorbell 2) false)
    ∧ (line0 (.doorbell 2) false).use.rings = true ∧ ((sBell true).port 0).givesUp 0x1000 = true ∧ ((sBell false).port 0).givesUp 0x1000 = false
    ∧ (∀ r ∈ ((sBell false).port 0).reqs, lineReq r 0x1000 = false) ∧ ((sBell true).port 0).reqs.find? (fun r => r.tag == 4) = some ⟨4, opEvict, 0x1000, false, .giveUp (.doorbell 2)⟩ :=
  ⟨⟨wf_of (by decide +kernel), wf_of (by decide +kernel)⟩, by decide +kernel⟩
def req (u : ReqUse) : Req := { tag := 9, op := opRdShared, addr := 0x1000, stale := false, use := u }
theorem wit_answers : ∀ u ∈ [ReqUse.line (.doorbell 3), .desc 3 0, .record 4],
    ((hl 5 [] (fun v => { v with reqs := [req u] })).port 0).reqs.find? (fun r => r.tag == 9) = some (req u)
    ∧ (req u).stale = false ∧ (hl 5 [] (fun v => { v with reqs := [req u] })).desc? 3 0 = none
    ∧ ((hl 5 [] (fun v => { v with reqs := [req u] })).port 0).reqs.find? (fun r => r.tag == 10) = none := by decide +kernel

theorem wit_regAccess : (hl 5 [] id).Wf ∧ (hl 5 [] id).portUp 0 = true ∧ (hl 5 [] id).mode 0 = 2 ∧ 2 ≤ ((hl 5 [] id).port 0).credits.getD 3 0
    ∧ (hl 5 [] id).accessCode (portMc 0) 0x3_0001 ≠ 0 ∧ (hl 5 [] id).accessCode (portMc 0) rPfDbgStat = 0
    ∧ blockOf rPfDbgStat = some .pf ∧ (regFields rPfDbgStat).isSome = true ∧ (hl 5 [] id).unmapped .pf rPfDbgStat = false
    ∧ (hl 5 [] id).accessCode (portMc 0) rHlCtrl = 0 ∧ (regFields rHlCtrl).isSome = true
    ∧ (hl 5 [] id).accessCode .west (rHlWinAttr 7) = 0 ∧ (hl 5 [] id).accessCode .east rHlCtrl = 0
    ∧ (put base [(rMcLeadStat, leadStat 0 0)]).accessCode .west rHlCtrl ≠ 0
    ∧ (hl 5 [] id).windowsUp = true ∧ (hl 5 [] id).mapped? 1 = true ∧ (hl 5 [] id).running = false :=
  ⟨wf_of (by decide +kernel), by decide +kernel⟩
theorem wit_coreWindow : (hl 6 [] id).Wf ∧ (hl 6 [] id).dark = false ∧ 1 < 2048 ∧ oImemErr < 0x2000 ∧ (regFields (rCore 1 oImemErr)).isSome = true
    ∧ (regFields (rCore 1 oBank)).isSome = true ∧ oBank ≠ oImemErr ∧ (hl 6 [] id).portUp 0 = true ∧ (hl 6 [] id).mode 0 = 2
    ∧ (hl 6 [] id).running = true ∧ (hl 6 [] id).mapped? 1 = true ∧ (hl 6 [] id).accessCode .east (rCore 1 oImemErr) = 0 :=
  ⟨wf_of (by decide +kernel), by decide +kernel⟩

/-- MC-W's target with its pointer at `p` and a dynamic address. -/
def sI3c (p : Nat) (d : Option Nat) : State := { led [] with mcw := { McSt.reset with lead := true, ptr := p, dyn := d, ibiHeld := some 5 } }
theorem wit_i3c : (sI3c 0x2000_0000 none).Wf ∧ (sI3c 0x2000_0000 none).dark = false ∧ (sI3c 0x2000_0000 none).pkg.sb33 = true
    ∧ (leBytes 4 rPfDbgStat).length = 4 ∧ (leBytes 4 0x3_0001 ++ leBytes 8 1).length = 12
    ∧ (sI3c 0 none).accessCode .west (Machine.fieldLe (leBytes 4 0x3_0001 ++ leBytes 8 1) 0 4) ≠ 0
    ∧ (sI3c 0 none).accessCode .west (Machine.fieldLe (leBytes 4 rPfDbgStat ++ leBytes 8 1) 0 4) = 0
    ∧ ([] : List Byte).length ≠ 4 ∧ ([] : List Byte).length ≠ 12
    ∧ (sI3c 0x2000_0000 none).accessCode .west ((sI3c 0x2000_0000 none).mc .west).ptr ≠ 0
    ∧ (sI3c rPfDbgStat none).accessCode .west ((sI3c rPfDbgStat none).mc .west).ptr = 0
    ∧ ((sI3c 0 none).mc .west).dyn = none ∧ (0x50 = (sI3c 0 none).staticAddr .west) ∧ 0x51 ≠ (sI3c 0 none).staticAddr .west
    ∧ ((sI3c 0 (some 127)).mc .west).dyn.isSome = true
    ∧ ({ sI3c 0 none with pkg := { Pkg.reset with sb33 := false } } : State).pkg.sb33 = false :=
  ⟨wf_of (by decide +kernel), by decide +kernel⟩

/-- A window that opens HBM's first 64 KiB for reads and writes. -/
def winAll : List (Nat × Nat) := [(rHlWinBase 0, 0), (rHlWinLimit 0, 0xFFC0), (rHlWinAttr 0, 7)]
theorem wit_hostMem : (hl 5 winAll id).Wf ∧ (hl 5 winAll id).portUp 0 = true ∧ ((hl 5 winAll id).port 0).unacked.length < 512
    ∧ 13 ≤ ((hl 5 winAll id).port 0).credits.getD 3 0 ∧ (hl 5 winAll id).memOk 0 0xFF40 3 = true ∧ (hl 5 winAll id).memReady = true
    ∧ (hl 5 winAll id).badIn 0xFF40 (64 * 3) = none ∧ (hl 5 winAll id).memOk 0 0xFF80 3 = false
    ∧ (hl 5 winAll id).memOk 1 0xFFC0 ((List.replicate 64 (7 : Byte)).length / 64) = true
    ∧ (hl 5 [] id).memOk 1 0xFFC0 ((List.replicate 64 (7 : Byte)).length / 64) = false
    ∧ (put (hl 1 winAll id) []).memOk 0 0xFF40 3 = true ∧ ({ hl 1 winAll id with pkg := Pkg.reset } : State).memReady = false
    ∧ ({ hl 1 winAll id with pkg := Pkg.reset } : State).portUp 0 = true :=
  ⟨wf_of (by decide +kernel), by decide +kernel⟩

/-- A descriptor of type `ty` with the given fields (offset, bytes, value). -/
def mkDesc (ty : Nat) (fs : List (Nat × Nat × Nat)) : Desc :=
  { i := 0, started := false, done := none, posted := false, fetchAt := 0
    bytes := fs.foldl (fun b f => b.take f.1 ++ leBytes f.2.1 f.2.2 ++ b.drop (f.1 + f.2.1)) (leBytes 1 ty ++ List.replicate 63 0) }
/-- Queue 3 with that descriptor at its front. -/
def sq (bu : Nat) (rs : List (Nat × Nat)) (d : Desc) : State :=
  { hl bu ([(rHlSqCfg 3, 1 + 2 * 6), (rHlCqCfg 0, 1 + 2 * 6)] ++ rs) id with
    hl := { HlSt.reset with sqs := [(3, { SqSt.reset with tail := 1, fetched := 1, descs := [d] })] } }
def copy (ty dev n : Nat) : Desc := mkDesc ty [(24, 8, dev), (32, 8, n), (16, 8, 0x8000)]
theorem wit_copy : (sq 5 [] (copy 2 0xFFC0 64)).Wf ∧ (sq 5 [] (copy 2 0xFFC0 64)).dark = false
    ∧ (sq 5 [] (copy 2 0xFFC0 64)).tooLate (copy 2 0xFFC0 64) = false ∧ copyBad ((copy 2 0xFFC0 64).f 16 8) ((copy 2 0xFFC0 64).f 24 8) ((copy 2 0xFFC0 64).f 32 8) = false
    ∧ (sq 5 [] (copy 2 0xFFC0 64)).startable? 3 0 2 = some (copy 2 0xFFC0 64) ∧ (sq 5 [] (copy 2 0xFFC0 64)).copyCode 0xFFC0 64 = 0
    ∧ (copy 2 0xFFC0 64).f 24 8 = 0xFFC0 ∧ (copy 2 0xFFC0 64).f 32 8 = 64
    ∧ (sq 5 [] (copy 2 0xF_F800_0000 64)).startable? 3 0 2 = some (copy 2 0xF_F800_0000 64)
    ∧ (sq 5 [] (copy 2 0xF_F800_0000 64)).copyCode 0xF_F800_0000 64 ≠ 0
    ∧ (sq 5 [] (copy 3 0xFFC0 64)).startable? 3 0 3 = some (copy 3 0xFFC0 64) ∧ (sq 5 [] (copy 3 0xFFC0 64)).badIn 0xFFC0 64 = none
    ∧ (sq 5 [] (copy 3 0xFFC0 64)).sqPort 3 = some 0 ∧ 5 ≤ ((sq 5 [] (copy 3 0xFFC0 64)).port 0).credits.getD 2 0
    ∧ (sq 5 [] (copy 3 0xF_F800_0000 64)).startable? 3 0 3 = some (copy 3 0xF_F800_0000 64)
    ∧ (sq 5 [] (copy 3 0xF_F800_0000 64)).copyCode 0xF_F800_0000 64 ≠ 0 :=
  ⟨wf_of (by decide +kernel), by decide +kernel⟩

/-- Bases and lines of queue 63 and CQ 0. -/
def qRegs : List (Nat × Nat) :=
  [(rHlSqBase 63, 0x10000), (rHlSqDb 63, 0x20000), (rHlSqRpt 63, 0x30000), (rHlCqBase 0, 0x40000), (rHlCqCfg 0, 1 + 2 * 6)]
theorem wit_queues : (hl 5 qRegs id).Wf ∧ (hl 5 qRegs id).sqOn 63 = false
    ∧ (((hl 5 qRegs id).cfgFields (rHlSqCfg 63) 12 (1 + 2 * 6)).cfgValid (rHlSqCfg 63) (rHlSqBase 63) [rHlSqDb 63, rHlSqRpt 63]
        && ((hl 5 qRegs id).cfgFields (rHlSqCfg 63) 12 (1 + 2 * 6)).cqOn (((hl 5 qRegs id).cfgFields (rHlSqCfg 63) 12 (1 + 2 * 6)).cqOf 63)) = true
    ∧ (((hl 5 qRegs id).cfgFields (rHlSqCfg 63) 12 (1 + 2 * 5)).cfgValid (rHlSqCfg 63) (rHlSqBase 63) [rHlSqDb 63, rHlSqRpt 63]
        && ((hl 5 qRegs id).cfgFields (rHlSqCfg 63) 12 (1 + 2 * 5)).cqOn (((hl 5 qRegs id).cfgFields (rHlSqCfg 63) 12 (1 + 2 * 5)).cqOf 63)) = false
    ∧ (hl 5 [(rHlSqCfg 63, 1 + 2 * 6)] id).sqOn 63 = true ∧ (hl 5 [] id).cqOn 63 = false ∧ (hl 5 qRegs id).cqOn 0 = true
    ∧ (hl 5 [] id).fld rHlEvqCfg 0 1 = 0 ∧ (hl 5 [(rHlEvqCfg, 1)] id).fld rHlEvqCfg 0 1 = 1 :=
  ⟨wf_of (by decide +kernel), by decide +kernel⟩
/-- Queue 3 of 64 entries, its doorbell at 65 and 64 descriptors fetched, one retired; CQ 0 with 63 of 64 records. -/
def sFetch : State :=
  { sq 5 [(rHlSqBase 3, 0x10000)] (mkDesc 0 []) with
    hl := { HlSt.reset with sqs := [(3, { SqSt.reset with tail := 65, fetched := 64, retired := 1 })]
                            cqs := [(0, { CqSt.reset with written := 63 })] } }
theorem wit_descFetch : sFetch.Wf ∧ sFetch.sqPort 3 = some 0 ∧ sFetch.sqOn 3 = true ∧ (sFetch.sq 3).fetched + (sFetch.sq 3).pend.length < (sFetch.sq 3).tail
    ∧ (sFetch.sq 3).fetched + (sFetch.sq 3).pend.length - (sFetch.sq 3).retired < sFetch.sqSize 3 ∧ sFetch.cqRoom (sFetch.cqOf 3) = true :=
  ⟨wf_of (by decide +kernel), by decide +kernel⟩
def sWake (b : Nat) : State :=
  { hl 5 [(rHlCqCfg 3, 1 + 2 * 6), (rHlCqWake 3, 7 + 2 ^ 32 * 10), (rPfBeat, b)] id with
    hl := { HlSt.reset with cqs := [(3, { CqSt.reset with written := 1, since := 1, oldest := some 0 })] } }
theorem wit_wake : (sWake 10).Wf ∧ ((sWake 9).cq 3).oldest = some 0 ∧ (sWake 9).fld (rHlCqWake 3) 32 16 ≠ 0
    ∧ (sWake 9).beat < 0 + (sWake 9).fld (rHlCqWake 3) 32 16
    ∧ ((sWake 10).cq 3).oldest = some 0 ∧ 0 + (sWake 10).fld (rHlCqWake 3) 32 16 ≤ (sWake 10).beat ∧ ((sWake 10).cq 3).since ≠ 0
    ∧ ((sWake 10).cq 3).unacked = 0 ∧ (sWake 10).cqPort 3 = some 0 ∧ (sWake 10).portUp 0 = true
    ∧ 1 ≤ ((sWake 10).port 0).credits.getD 2 0 :=
  ⟨wf_of (by decide +kernel), by decide +kernel⟩
theorem wit_nop : (sq 5 [] (mkDesc 0 [])).startable? 3 0 0 = some (mkDesc 0 [])
    ∧ (sq 5 [(rPfPackTime, 8)] (mkDesc 0 [(8, 8, 7)])).startable? 3 0 0 = some (mkDesc 0 [(8, 8, 7)])
    ∧ (sq 5 [(rPfPackTime, 8)] (mkDesc 0 [(8, 8, 7)])).tooLate (mkDesc 0 [(8, 8, 7)]) = true
    ∧ (sq 5 [(rPfPackTime, 7)] (mkDesc 0 [(8, 8, 7)])).tooLate (mkDesc 0 [(8, 8, 7)]) = false
    ∧ (sq 5 [] (mkDesc 0 [(8, 8, 7)])).desc? 3 0 = some (mkDesc 0 [(8, 8, 7)]) ∧ (mkDesc 0 [(8, 8, 7)]).done = none
    ∧ (mkDesc 0 [(8, 8, 7)]).deadline ≠ 0 ∧ (sq 5 [] (mkDesc 0 [(8, 8, 7)])).anyWaits = false := by decide +kernel
def doneDesc : Desc := { mkDesc 0 [] with started := true, done := some (0, 0, false) }
theorem wit_descComplete : (sq 5 [] doneDesc).Wf ∧ (sq 5 [] doneDesc).desc? 3 0 = some doneDesc ∧ doneDesc.done = some (0, 0, false)
    ∧ ((sq 5 [] doneDesc).sq 3).doneSet = [] ∧ 0 = ((sq 5 [] doneDesc).sq 3).retired ∧ (sq 5 [] doneDesc).cqOn ((sq 5 [] doneDesc).cqOf 3) = true
    ∧ (sq 5 [] doneDesc).cqPort ((sq 5 [] doneDesc).cqOf 3) ≠ none :=
  ⟨wf_of (by decide +kernel), by decide +kernel⟩

/-! ### Witnesses: descriptors of a run, jobs, restores -/

/-- A job with one staged input of 64 bytes in two buffers. -/
def job7 : Job := { job1 with tensors := [tens 0 0x13 12 32], places := [⟨0, 0, 0x10000⟩], inputs := [⟨2, 64, 100, 0⟩] }
/-- A running package with job `j` and descriptor `d` at the front of queue 3. -/
def rq (j : Job) (d : Desc) (step : Nat) : State :=
  { ran j [(rHlSqCfg 3, 1 + 2 * 6), (rHlCqCfg 0, 1 + 2 * 6)] with
    stp := { StepSt.reset with started := true, begun := true, step := step }
    hl := { HlSt.reset with sqs := [(3, { SqSt.reset with tail := 1, fetched := 1, descs := [d] })] } }
def dIn : Desc := mkDesc 1 [(40, 8, 64)]
theorem wit_input : (rq job7 dIn 0).Wf ∧ (rq job7 dIn 0).dark = false ∧ (rq job7 dIn 0).tooLate dIn = false
    ∧ (rq job7 dIn 0).startable? 3 0 1 = some dIn ∧ (rq job7 dIn 0).running = true ∧ (rq job7 dIn 0).job = some job7
    ∧ job7.inputs[dIn.f 24 4]? = some ⟨2, 64, 100, 0⟩ ∧ (rq job7 dIn 0).inputBad dIn ⟨2, 64, 100, 0⟩ = false
    ∧ (rq job7 dIn 0).hl.inputs.any (fun r => r.index == dIn.f 24 4 && r.step + 2 == dIn.f 16 8) = false
    ∧ (rq job7 dIn 0).stageAddr ⟨2, 64, 100, 0⟩ (dIn.f 16 8) = some 0x10000 ∧ (List.replicate 64 (1 : Byte)).length = dIn.f 40 8
    ∧ (rq job7 dIn 0).badPart (0x10000 + dIn.f 48 8) 64 = none
    ∧ (sq 5 [] dIn).startable? 3 0 1 = some dIn ∧ inputForm dIn = false ∧ (sq 5 [] dIn).running = false :=
  ⟨wf_of (by decide +kernel), by decide +kernel⟩
def sGot : State :=
  { rq job7 dIn 0 with hl := { HlSt.reset with inputs := [{ step := 0, index := 0, ranges := [(0, 64)], filled := [(0, 64)], descs := [] }] } }
theorem wit_inputDeadline : sGot.Wf ∧ sGot.issuing = true ∧ sGot.job = some job7 ∧ job7.inputs[0]? = some ⟨2, 64, 100, 0⟩
    ∧ 64 ≤ ((sGot.inputSt sGot.stp.step 0).filled.map (·.2)).sum ∧ sGot.inputDue ⟨2, 64, 100, 0⟩ < 2 ^ 64 ∧ sGot.anyWaits = false
    ∧ (((rq job7 dIn 0).inputSt (rq job7 dIn 0).stp.step 0).filled.map (·.2)).sum < 64 ∧ (rq job7 dIn 0).fld rPfFault 16 1 = 0 :=
  ⟨wf_of (by decide +kernel), by decide +kernel⟩
def dSnap (b dl : Nat) : Desc := mkDesc 4 [(16, 8, b), (8, 8, dl)]
theorem wit_snapReq : (rq job7 (dSnap 0 0) 1).startable? 3 0 4 = some (dSnap 0 0) ∧ (dSnap 0 0).f 16 8 = 0
    ∧ (rq job7 (dSnap 5 9) 1).startable? 3 0 4 = some (dSnap 5 9) ∧ (dSnap 5 9).f 8 8 ≠ 0 ∧ (rq job7 (dSnap 5 9) 1).tooLate (dSnap 5 9) = false
    ∧ (sq 5 [] (dSnap 5 0)).startable? 3 0 4 = some (dSnap 5 0) ∧ (dSnap 5 0).f 16 8 ≠ 0 ∧ (dSnap 5 0).f 8 8 = 0
    ∧ (rq job7 (dSnap 1 0) 1).startable? 3 0 4 = some (dSnap 1 0) ∧ (dSnap 1 0).f 16 8 ≤ (rq job7 (dSnap 1 0) 1).stp.step
    ∧ (rq job7 (dSnap 3 0) 1).startable? 3 0 4 = some (dSnap 3 0) ∧ (rq job7 (dSnap 3 0) 1).stp.step + 1 < (dSnap 3 0).f 16 8
    ∧ (rq job7 (dSnap 3 0) 1).running = true := by decide +kernel
def dCtx (b n : Nat) : Desc := mkDesc 5 [(16, 8, b), (24, 2, n)]
theorem wit_ctxReq : (rq job7 (dCtx 2 0xFFFF) 1).startable? 3 0 5 = some (dCtx 2 0xFFFF) ∧ (dCtx 2 0xFFFF).f 24 2 = 0xFFFF
    ∧ (rq job7 (dCtx 2 0xFFFF) 1).stp.step < (dCtx 2 0xFFFF).f 16 8 ∧ (rq job7 (dCtx 2 0xFFFF) 1).running = true
    ∧ (rq job7 (dCtx 2 2048) 1).startable? 3 0 5 = some (dCtx 2 2048) ∧ numCores ≤ (dCtx 2 2048).f 24 2
    ∧ (dCtx 2 2048).f 24 2 ≠ 0xFFFF ∧ (sq 5 [] (dCtx 2 1)).startable? 3 0 5 = some (dCtx 2 1) ∧ (sq 5 [] (dCtx 2 1)).running = false := by
  decide +kernel
/-- READY, job `j` restored at boundary 4. -/
def sRest (j : Job) : State := { ran j [(rBuState, 5)] with hl := { HlSt.reset with restored := some 4 } }
theorem wit_ctxRestore : (sRest job1).Wf ∧ (sRest job1).bu = 5 ∧ (sRest job1).job = some job1 ∧ (sRest job1).hl.restored = some 4
    ∧ (∀ n ∈ (sRest job1).used, n < 2048) ∧ (∃ n ∈ (sRest job1).used, (sRest job1).imageCode job1 n 4 ≠ 0)
    ∧ ∀ n ∈ (sRest { job1 with progMap := [] }).used, (sRest { job1 with progMap := [] }).imageCode { job1 with progMap := [] } n 4 = 0 :=
  ⟨wf_of (by decide +kernel), by decide +kernel⟩

/-! #### An image that every check passes -/

/-- The JOB section: one package, one replica, 1,450 MHz, one slot. -/
def secJob : List Byte :=
  leBytes 2 1 ++ leBytes 2 1 ++ leBytes 2 1450 ++ [0, 0, 0, 1, 1, 0] ++ leBytes 2 0 ++ [0, 0] ++ leBytes 4 0 ++ leBytes 4 0x7F80_0000
    ++ leBytes 4 0x7F80_0000 ++ leBytes 4 4096 ++ leBytes 4 2048 ++ leBytes 4 2048 ++ leBytes 4 2048 ++ leBytes 4 2048 ++ List.replicate 16 0
def secMan : List Byte := List.replicate 64 0
def secRes : List Byte := List.replicate 128 0
/-- A directory entry. -/
def dirEnt (ty herd off len : Nat) (d : Digest) : List Byte :=
  leBytes 2 ty ++ leBytes 2 herd ++ List.replicate 12 0 ++ leBytes 8 off ++ leBytes 8 len ++ leBytes 64 d.toNat
def jobImg : List Byte :=
  ascii "TCHKJOB2" ++ leBytes 2 1 ++ leBytes 2 0 ++ leBytes 4 8 ++ leBytes 8 5920 ++ leBytes 8 0x100 ++ List.replicate 224 0
    ++ dirEnt 1 0xFFFF 1024 64 (sha3_512 secJob) ++ dirEnt 2 0xFFFF 1088 64 (sha3_512 secMan) ++ dirEnt 0x10 0 1152 128 (sha3_512 secRes)
    ++ dirEnt 0x11 0 1280 0 (sha3_512 []) ++ dirEnt 0x12 0 1280 0 (sha3_512 []) ++ dirEnt 0x13 0 1280 0 (sha3_512 [])
    ++ dirEnt 0x14 0 1280 0 (sha3_512 []) ++ dirEnt 0xFF 0xFFFF 1280 4640 0
    ++ secJob ++ secMan ++ secRes ++ leBytes 4 0 ++ leBytes 4 4627 ++ List.replicate 4632 0
def dJob : Desc := mkDesc 6 [(16, 8, 0x8000), (24, 8, 5920)]
/-- LOAD, with the image's key enrolled in slot 0 and what its signature verifies. -/
def sLoad (bu : Nat) (d : Desc) : State :=
  { hl bu [(rPortStat 0, 6 + 2 ^ 6 * 15), (rPortMode 9, 1), (rHlSqCfg 3, 1 + 2 * 6), (rHlCqCfg 0, 1 + 2 * 6), (rHlCtrl, 2 ^ 6), (rPfHerd, 2 ^ 16),
      (rPfSyncCtrl, 1)] id with
    nv := { Nv.factory with keys := ⟨1, []⟩ :: List.replicate 7 ⟨0, []⟩ }
    sigs := [⟨[], ctxJob, imageDigest jobImg, slice (slice jobImg 1280 4640) 8 4627⟩]
    hl := { HlSt.reset with sqs := [(3, { SqSt.reset with tail := 1, fetched := 1, descs := [d] })] } }
theorem jobImg_container : containerFault jobImg 5920 = none := by decide +kernel
theorem jobImg_len : jobImg.length = 5920 := by decide +kernel
theorem jobImg_digests : digestFault jobImg 0 = none := by decide +kernel
theorem jobImg_herd : (sLoad 4 dJob).herdFault jobImg = none ∧ programFault jobImg 0 = none := by decide +kernel
theorem sigFault_ok {s : State} {img : List Byte} {e : DirEnt} (h1 : findSec? (directory img) sSignature shared = some e)
    (h2 : s.nv.keys.getD (Machine.fieldLe (slice img e.off e.len) 0 1) ⟨0, []⟩ = ⟨1, []⟩) (h3 : Machine.fieldLe (slice img e.off e.len) 4 4 = 4627)
    (h4 : e.len = 4640) (h5 : Machine.fieldLe (slice img e.off e.len) 0 1 < 8)
    (h6 : ⟨[], ctxJob, imageDigest img, slice (slice img e.off e.len) 8 4627⟩ ∈ s.sigs) : s.sigFault img = none := by
  simp only [State.sigFault, h1, DirEnt.bytes, h2]
  exact if_pos ⟨trivial, h3, h4, h5, by simpa using h6⟩
theorem jobImg_sigEntry : ∃ e, findSec? (directory jobImg) sSignature shared = some e ∧ e.off = 1280 ∧ e.len = 4640 :=
  ⟨⟨7, 0xFF, 0xFFFF, 0, 0, 1280, 4640, 0⟩, by decide +kernel⟩
theorem jobImg_sig : (sLoad 4 dJob).sigFault jobImg = none := by
  obtain ⟨e, he, ho, hl⟩ := jobImg_sigEntry
  apply sigFault_ok he
  · rw [ho, hl]; decide +kernel
  · rw [ho, hl]; decide +kernel
  · exact hl
  · rw [ho, hl]; decide +kernel
  · rw [ho, hl]; exact List.mem_singleton.2 rfl
/-- The image as package 0 reads it, without what the opaque run count could give. -/
def jobP : Job := { parseJob jobImg 0 with runs := [], colls := [] }
theorem jobImg_slots : secBytes jobImg (directory jobImg) sSlots 0 = [] := by decide +kernel
theorem records_nil (n : Nat) : records n [] = [] := by cases n <;> rfl
theorem parse_jobImg : parseJob jobImg 0 = jobP := by
  have h1 : (parseJob jobImg 0).runs = [] := by
    simp only [parseJob, jobImg_slots, records_nil, List.take_nil, List.map_nil]
  have h2 : (parseJob jobImg 0).colls = [] := by
    simp only [parseJob, jobImg_slots, records_nil, List.drop_nil, List.map_nil]
  rw [jobP]
  generalize parseJob jobImg 0 = j at h1 h2
  cases j; simp only at h1 h2; rw [h1, h2]
theorem jobImg_fields : fieldFault jobImg jobP = none := by decide +kernel
theorem jobImg_cores : usedCores jobP = [] := by decide +kernel
theorem jobImg_engines : jobP.res.engines &&& absentEngines = 0 := by decide +kernel
theorem jobImg_size : (sLoad 4 dJob).sizeFault jobImg jobP = none ∧ (sLoad 4 dJob).tierFault jobImg jobP = none := by decide +kernel
theorem jobImg_states : refuseIf 14 cStateDecl (findSec? (directory jobImg) sManifest shared) jobP.tensors (fun _ t => stateBad jobP t) = none
    ∧ updFault jobImg jobP = none ∧ reduceFault jobImg jobP = none := by decide +kernel
theorem jobImg_fabric : (sLoad 4 dJob).fabricFault jobImg jobP = none ∧ (sLoad 4 dJob).hostlinkFault = none := by decide +kernel
theorem wit_jobLoad : (sLoad 4 dJob).Wf ∧ (sLoad 4 dJob).dark = false ∧ (sLoad 4 dJob).tooLate dJob = false ∧ dJob.f 16 8 % 64 = 0
    ∧ dJob.f 24 8 = 5920 ∧ (sLoad 4 dJob).startable? 3 0 6 = some dJob ∧ (sLoad 4 dJob).bu = 4 ∧ (sLoad 4 dJob).job = none
    ∧ (sLoad 7 dJob).startable? 3 0 6 = some dJob ∧ (sLoad 7 dJob).bu = 7 :=
  ⟨wf_of (by decide +kernel), by decide +kernel⟩
theorem wit_jobLoad_admitted : (sLoad 4 dJob).imageRefusal (slice jobImg 0 5920) 5920 = none := by
  have hi : (sLoad 4 dJob).herdIndex = 0 := by decide +kernel
  have hs : slice jobImg 0 5920 = jobImg := by rw [← jobImg_len]; exact slice_all jobImg
  have hc (c k : Nat) (e : Option DirEnt) (b : Bool) (f : Nat → Bool) : coreFault c k e b jobP f = none := by
    simp only [coreFault, jobImg_cores, List.find?_nil]
  simp only [State.imageRefusal, hs, hi, parse_jobImg, jobImg_container, jobImg_sig, jobImg_digests, jobImg_herd.1, jobImg_herd.2, jobImg_fields, hc,
    if_pos jobImg_engines, jobImg_size.1, jobImg_size.2, jobImg_states.1, jobImg_states.2.1, jobImg_states.2.2, jobImg_fabric.1,
    jobImg_fabric.2]
  rfl
theorem wit_jobLoad_refused : (sLoad 4 dJob).imageRefusal (slice [] 0 5920) 5920 = some ⟨2, cJobFormat, 0xFFFF, noIndex, none⟩
    ∧ cJobFormat < 2 ^ 16 ∧ 2 < 2 ^ 5 := by decide +kernel

/-- A slot of the empty job at step 9: one section, no scales. -/
def slotBody : List Byte := leBytes 4 noIndex ++ leBytes 1 10 ++ List.replicate 19 0 ++ leBytes 8 0x2000 ++ List.replicate 4064 0
def slotHead : List Byte :=
  ascii "TCHKCHRY" ++ leBytes 2 1 ++ leBytes 2 0 ++ leBytes 4 1 ++ leBytes 8 9 ++ leBytes 8 9 ++ leBytes 4 0 ++ leBytes 4 1 ++ leBytes 4 1
    ++ List.replicate 20 0 ++ leBytes 64 0
def slotImg : List Byte := slotHead ++ (leBytes 64 (sha3_512 slotBody).toNat ++ (List.replicate 3904 0 ++ slotBody))
def dRest : Desc := mkDesc 7 [(16, 8, 0x8000), (24, 8, 8192)]
theorem wit_restore : (sRest job1).bu = 5 ∧ (sRest job1).job = some job1 ∧ slotImg.length = 8192 := by decide +kernel
theorem slotImg_body : slice slotImg 0x1000 (0x2000 - 0x1000) = slotBody := by
  have h : slotHead.length = 128 := by decide +kernel
  have hb : slotBody.length = 0x2000 - 0x1000 := by decide +kernel
  rw [slotImg, slice_append_right (by rw [h]; omega), slice_append_right (by rw [h, length_leBytes]; omega),
    slice_append_right (by rw [h, length_leBytes, List.length_replicate]), h, length_leBytes, List.length_replicate, ← hb]
  exact slice_all slotBody
theorem digest_mid {a b : List Byte} {o : Nat} (d : Digest) (h : a.length = o) :
    BitVec.ofNat 512 (Machine.fieldLe (a ++ (leBytes 64 d.toNat ++ b)) o 64) = d := by
  rw [fieldLe_mid h, show 256 ^ 64 = 2 ^ 512 by rw [show 256 = 2 ^ 8 from rfl, ← Nat.pow_mul], Nat.mod_eq_of_lt d.isLt, BitVec.ofNat_toNat,
    BitVec.setWidth_eq]
theorem slotImg_digest : BitVec.ofNat 512 (Machine.fieldLe slotImg 0x080 64) = sha3_512 slotBody :=
  digest_mid _ (by decide +kernel)
theorem wit_restore_ok : job1.slotCode slotImg = 0 := by
  simp only [Job.slotCode]
  rw [if_neg, if_neg, if_neg, if_neg, if_neg]
  · decide +kernel
  · decide +kernel
  · decide +kernel
  · rintro (h | h)
    · revert h; decide +kernel
    · refine h ?_
      have : job1.slotEnd (slotSections slotImg) = 0x2000 := by decide +kernel
      rw [this, slotImg_body, slotImg_digest]
  · decide +kernel
theorem wit_restore_bad : job1.slotCode (slice [] 0 8192) ≠ 0 := by decide +kernel

/-! ### Witnesses: power, monitors, security, formats -/

def pm0 : PowerMeas := ⟨1000, 4800, 95, 0, 0, 0⟩
theorem wit_cap : (led []).Wf ∧ (led []).dark = false
    ∧ (600 ≤ bitsOf (2100 + 2 ^ 12 * 10 : W64).toNat 0 12 ∧ bitsOf (2100 + 2 ^ 12 * 10 : W64).toNat 0 12 ≤ 2100
        ∧ 1 ≤ bitsOf (2100 + 2 ^ 12 * 10 : W64).toNat 12 4 ∧ bitsOf (2100 + 2 ^ 12 * 10 : W64).toNat 12 4 ≤ 10)
    ∧ ¬(600 ≤ bitsOf (599 + 2 ^ 12 : W64).toNat 0 12 ∧ bitsOf (599 + 2 ^ 12 : W64).toNat 0 12 ≤ 2100
        ∧ 1 ≤ bitsOf (599 + 2 ^ 12 : W64).toNat 12 4 ∧ bitsOf (599 + 2 ^ 12 : W64).toNat 12 4 ≤ 10)
    ∧ (led []).beat < bitsOf (1 + 2 ^ 48 * 600 : W64).toNat 0 48 ∧ bitsOf (1 + 2 ^ 48 * 600 : W64).toNat 48 12 = 600
    ∧ bitsOf (2 ^ 48 * 600 : W64).toNat 0 48 ≤ (led []).beat :=
  ⟨wf_of (by decide +kernel), by decide +kernel⟩
theorem wit_meter : (led []).reg rPwrEnergy + ((led []).pwr.mj + 10 * pm0.pin) / 1000 < 2 ^ 64 := by decide +kernel
def sOver : State := { ran job1 [] with pwr := { PwrSt.reset with e := 10_000_000_000 } }
theorem wit_interval : sOver.Wf ∧ decide (sOver.aCap < sOver.ePast + sOver.pwr.e) = true ∧ sOver.running = true ∧ sOver.fld rPfFault 16 1 = 0
    ∧ decide ((led []).aCap < (led []).ePast + (led []).pwr.e) = false ∧ sOver.anyWaits = false ∧ (led []).anyWaits = false :=
  ⟨wf_of (by decide +kernel), by decide +kernel⟩
def sCal (pairs : Nat) : State :=
  { led [(rPfBeat, 65536), (rPwrGain 63, 0x8000 + 2 ^ 16 * pairs)] with pwr := { PwrSt.reset with cells := [(63, 5, 4)] } }
theorem wit_recal : (sCal 4096).Wf ∧ (sCal 4096).running = false ∧ (sCal 4096).pwr.lastCal + 65536 ≤ (sCal 4096).beat
    ∧ (sCal 4096).pwr.cells = [(63, 5, 4)] ∧ (sCal 4096).pwr.gainsDue = [] ∧ 4096 ≤ (sCal 4096).fld (rPwrGain 63) 16 16
    ∧ (sCal 4095).fld (rPwrGain 63) 16 16 < 4096 ∧ (sCal 4095).pwr.lastCal + 65536 ≤ (sCal 4095).beat :=
  ⟨wf_of (by decide +kernel), by decide +kernel⟩
theorem wit_trips : (ran job1 []).Wf ∧ (ran job1 []).dark = false ∧ (ran job1 []).running = true ∧ (ran job1 []).fld rPfFault 16 1 = 0
    ∧ base.Wf ∧ base.dark = false ∧ base.bu = 1 :=
  ⟨wf_of (by decide +kernel), by decide +kernel, by decide +kernel, by decide +kernel, wf_of (by decide +kernel), by decide +kernel⟩
theorem wit_trips_port : (ranP job1 [] pUp).Wf ∧ 1 ∈ (ranP job1 [] pUp).fabricUp ∧ ((ranP job1 [] pUp).port 1).carried ≤ (ranP job1 [] pUp).now + 1
    ∧ ((ranP job1 [] pUp).port 1).naks = [] ∧ ((ranP job1 [] pUp).port 1).stops = [] ∧ ((ranP job1 [] pUp).port 1).annOut = []
    ∧ ((ranP job1 [] pUp).port 1).timeDue = false ∧ ((ranP job1 [] pUp).fab.originsFwd.isEmpty && !(ranP job1 [] pUp).fab.stopOut) = true
    ∧ ((sStopped none).fab.originsFwd.isEmpty && !(sStopped none).fab.stopOut) = false :=
  ⟨wf_of (by decide +kernel), by decide +kernel⟩
/-- RUN at f_sched `f`, targets at 1,450 MHz. -/
def sFreq (f : Nat) : State := { ran job1 [(rPwrFreq, 1450 + 2 ^ 16 * 1450)] with pwr := { PwrSt.reset with fsched := f } }
theorem wit_margin : (sFreq 1425).Wf ∧ (sFreq 1425).running = true ∧ 1 ∈ (sFreq 1425).used ∧ (sFreq 1425).cstate 1 ≠ 5
    ∧ 25 < (sFreq 1425).islandFreq 1 ∧ (sFreq 1425).islandFreq 1 < 2 ^ 12 ∧ (sFreq 1425).pwr.fsched < (sFreq 1425).islandFreq 1
    ∧ (sFreq 1450).islandFreq 1 ≤ (sFreq 1450).pwr.fsched ∧ 25 < (sFreq 1450).islandFreq 1 ∧ (sFreq 1450).islandFreq 1 < 2 ^ 12 :=
  ⟨wf_of (by decide +kernel), by decide +kernel⟩
theorem wit_droop : (led [(rBuState, 4)]).Wf ∧ (led [(rBuState, 4)]).windowsUp = true ∧ (led [(rBuState, 4)]).mapped? 1 = true :=
  ⟨wf_of (by decide +kernel), by decide +kernel⟩
theorem wit_memory : (led [(rBuState, 4), (rMemDdr, 2 ^ 8), (rMemScrub, 1)]).Wf ∧ (led [(rBuState, 4), (rMemDdr, 2 ^ 8), (rMemScrub, 1)]).memReady = true
    ∧ 0 < (led [(rBuState, 4), (rMemDdr, 2 ^ 8), (rMemScrub, 1)]).ddrC ∧ (led [(rBuState, 4), (rMemDdr, 2 ^ 8), (rMemScrub, 1)]).fld rMemScrub 0 1 = 1
    ∧ (led [(rBuState, 4), (rMemDdr, 2 ^ 8), (rMemScrub, 1)]).inDdr ddrBase = true ∧ (led [(rMemScrub, 0)]).fld rMemScrub 0 1 = 0 :=
  ⟨wf_of (by decide +kernel), by decide +kernel⟩

def run1 : FwInfo := { svn := 3, slot := 0, revoke := 2, seg := 0, digest := 0, body := [] }
theorem wit_security : (hl 5 [(rSecOpStat, 1)] id).Wf ∧ (hl 5 [(rSecOpStat, 1)] id).fld rSecOpStat 0 1 = 1
    ∧ (hl 5 [(rSecOpStat, 1)] id).sec.op ≠ 3 ∧ (hl 5 [] id).fld rSecOpStat 0 1 = 0 ∧ (hl 5 [] id).secAllowed 7 = false
    ∧ (hl 5 [] id).secAllowed 4 = true
    ∧ ({ hl 5 [] id with pkg := { Pkg.reset with mcFw := some run1, coreFw := some run1 } } : State).pkg.mcFw = some run1
    ∧ (hl 5 [] id).pkg.coreFw = none ∧ (hl 5 [] id).secPort = some 0 ∧ (hl 5 [] id).secAllowed 2 = true
    ∧ (hl 5 [] id).nv.cert.length ≤ (hl 5 [] id).reg rSecOpLen
    ∧ ({ hl 5 [] id with nv := { Nv.factory with cert := [0] } } : State).reg rSecOpLen
        < ({ hl 5 [] id with nv := { Nv.factory with cert := [0] } } : State).nv.cert.length
    ∧ (put base [(rSecOpLen, 2592)]).secAllowed 7 = true ∧ 2592 ≤ (put base [(rSecOpLen, 2592)]).reg rSecOpLen :=
  ⟨wf_of (by decide +kernel), by decide +kernel⟩

/-- A region image: an MC image, zeros up to 8 KiB, a core image. -/
def regImg : List Byte := fwImg 1 (List.replicate 704 0 ++ fwImg 2 [])
def sFwWrite (n : Nat) : State := { put sFw [(rSecOpLen, n)] with nv := nvFw, sigs := [fwSig 1, fwSig 2] }
theorem length_fwHdr (c : Nat) (hc : c ∈ [1, 2]) : (fwHdr (BitVec.ofNat 8 c)).length = 128 := (fwHdr_parts c hc).1
theorem length_fwImg (c : Nat) (hc : c ∈ [1, 2]) (l : List Byte) : (fwImg (BitVec.ofNat 8 c) l).length = 0x1D40 + l.length := by
  rw [fwImg, List.length_append, List.length_append, length_fwHdr c hc, List.length_replicate]; omega
theorem coreImageOf_regImg : coreImageOf regImg = fwImg 2 [] := by
  have h1 : (fwHdr 1).length = 128 := length_fwHdr 1 (by decide)
  have hf : Machine.fieldLe regImg 0x010 4 = 0 := by
    rw [regImg, fwImg, Machine.fieldLe, slice_append_left (by rw [h1]; omega)]; exact (fwHdr_parts 1 (by decide)).2.1
  have hd : ceilDiv (0x1D40 + 0) 4096 * 4096 = 8192 := by decide
  have hr : regImg = (fwHdr 1 ++ (List.replicate 0x1CC0 0 ++ List.replicate 704 0)) ++ fwImg 2 [] := by
    rw [regImg, fwImg, List.append_assoc, List.append_assoc]
  have hl : (fwHdr 1 ++ (List.replicate 0x1CC0 (0 : Byte) ++ List.replicate 704 0)).length = 8192 := by
    rw [List.length_append, List.length_append, h1, List.length_replicate, List.length_replicate]
  rw [coreImageOf, hf, hd, hr, ← hl, List.drop_left]
theorem wit_fwWrite_ok : (sFwWrite 8192).regionResult regImg = 0 := by
  obtain ⟨i, hi⟩ := fwCheck_img (nv := nvFw) (sigs := [fwSig 1, fwSig 2]) 1 (by decide) (List.replicate 704 0 ++ fwImg 2 []) rfl rfl rfl rfl
    List.mem_cons_self
  obtain ⟨k, hk⟩ := fwCheck_img (nv := nvFw) (sigs := [fwSig 1, fwSig 2]) 2 (by decide) [] rfl rfl rfl rfl
    (List.mem_cons_of_mem _ List.mem_cons_self)
  have a : fwCheck (sFwWrite 8192).nv (sFwWrite 8192).sigs 1 regImg = .ok i := hi
  have b : fwCheck (sFwWrite 8192).nv (sFwWrite 8192).sigs 2 (coreImageOf regImg) = .ok k := by rw [coreImageOf_regImg]; exact hk
  simp only [State.regionResult, a, b]; rfl
theorem wit_fwWrite_bad : (sFwWrite 64).regionResult (slice [] 0 64) ≠ 0 := by
  rw [State.regionResult, fwCheck_short (by rw [length_slice]; omega)]; decide
theorem wit_fwWrite : (sFwWrite 64).Wf ∧ (sFwWrite 64).fld rSecOpStat 0 1 = 0 ∧ (sFwWrite 64).secAllowed 3 = true
    ∧ 0 < (sFwWrite 64).reg rSecOpLen ∧ (sFwWrite 64).reg rSecOpLen ≤ regionBytes :=
  ⟨wf_of (by decide +kernel), by decide +kernel⟩
theorem wit_fwWrite_len : slice regImg 0 regImg.length = regImg ∧ regImg.length = 0x3D40 := by
  refine ⟨slice_all regImg, ?_⟩
  have h2 : (fwImg 2 []).length = 0x1D40 := length_fwImg 2 (by decide) []
  have h1 : regImg.length = 0x1D40 + _ := length_fwImg 1 (by decide) (List.replicate 704 0 ++ fwImg 2 [])
  rw [h1, List.length_append, List.length_replicate, h2]

/-- A job key record for slot 7, sequence number 1, and an unlock token; the owner's signature and key are zeros. -/
def keyHead : List Byte := ascii "TCHKJKEY" ++ leBytes 2 1 ++ [1, 7] ++ leBytes 4 1 ++ leBytes 16 1 ++ List.replicate 2592 0
def keyRec : List Byte := keyHead ++ (List.replicate 4627 0 ++ List.replicate 45 0)
def dbgHead (nonce : Byte) : List Byte := ascii "TCHKDBGU" ++ leBytes 2 1 ++ List.replicate 6 0 ++ leBytes 16 1 ++ List.replicate 64 nonce
def dbgRec (nonce : Byte) : List Byte := dbgHead nonce ++ (List.replicate 4627 0 ++ List.replicate 13 0)
def ownKey : List Byte := List.replicate 2592 0
def sOwn (n : Nat) : State :=
  { hl 5 [(rSecOpLen, n)] id with
    nv := { Nv.factory with owner := some (sha3_512 ownKey) }
    sigs := [⟨ownKey, ascii "TCHK-JKEY", sha3_512 (slice keyRec 0 0xA40), List.replicate 4627 0⟩,
             ⟨ownKey, ascii "TCHK-DBG", sha3_512 (slice (dbgRec 0) 0 0x60), List.replicate 4627 0⟩,
             ⟨ownKey, ascii "TCHK-DBG", sha3_512 (slice (dbgRec 1) 0 0x60), List.replicate 4627 0⟩] }
theorem keyHead_parts : keyHead.length = 0xA40 ∧ slice keyHead 0 8 = ascii "TCHKJKEY" ∧ Machine.fieldLe keyHead 8 2 = 1
    ∧ Machine.fieldLe keyHead 10 1 = 1 ∧ Machine.fieldLe keyHead 11 1 = 7 ∧ Machine.fieldLe keyHead 16 16 = 1
    ∧ Machine.fieldLe keyHead 12 4 = 1 := by decide +kernel
theorem dbgHead_parts : ∀ c ∈ [0, 1], (dbgHead (BitVec.ofNat 8 c)).length = 0x60 ∧ slice (dbgHead (BitVec.ofNat 8 c)) 0 8 = ascii "TCHKDBGU"
    ∧ Machine.fieldLe (dbgHead (BitVec.ofNat 8 c)) 8 2 = 1 ∧ Machine.fieldLe (dbgHead (BitVec.ofNat 8 c)) 16 16 = 1
    ∧ slice (dbgHead (BitVec.ofNat 8 c)) 0x20 64 = List.replicate 64 (BitVec.ofNat 8 c) := by decide +kernel
theorem keyRec_length : keyRec.length = 7296 := by
  rw [keyRec, List.length_append, List.length_append, keyHead_parts.1, List.length_replicate, List.length_replicate]
theorem wit_jobkey : (sOwn 7296).fld rSecOpStat 0 1 = 0 ∧ (sOwn 7296).secAllowed 5 = true ∧ 7296 ≤ (sOwn 7296).reg rSecOpLen := by decide +kernel
theorem wit_jobkey_owner : (sOwn 7296).nv.owner = some (sha3_512 ownKey)
    ∧ ⟨ownKey, ascii "TCHK-JKEY", sha3_512 (slice keyRec 0 0xA40), List.replicate 4627 0⟩ ∈ (sOwn 7296).sigs :=
  ⟨rfl, List.mem_cons_self⟩
theorem wit_jobkey_record : slice keyRec 0xA40 4627 = List.replicate 4627 0 ∧ slice keyRec 0 8 = ascii "TCHKJKEY"
    ∧ Machine.fieldLe keyRec 8 2 = 1 ∧ Machine.fieldLe keyRec 10 1 = 1 ∧ Machine.fieldLe keyRec 11 1 = 7
    ∧ Machine.fieldLe keyRec 16 16 = Nv.factory.serial.toNat ∧ Nv.factory.keySeq < Machine.fieldLe keyRec 12 4 ∧ Nv.factory.keys.length = 8
    ∧ (Nv.factory.keys.getD 7 ⟨0, []⟩).state = 0 := by
  obtain ⟨h0, h1, h2, h3, h4, h5, h6⟩ := keyHead_parts
  have f {o n : Nat} (h : o + n ≤ 0xA40) : slice keyRec o n = slice keyHead o n := slice_append_left (by omega)
  have fl {o n : Nat} (h : o + n ≤ 0xA40) : Machine.fieldLe keyRec o n = Machine.fieldLe keyHead o n := congrArg ofLe (f h)
  refine ⟨?_, ?_, ?_, ?_, ?_, ?_, ?_, ?_, ?_⟩
  · rw [keyRec, slice_append_right (by omega), h0, slice_append_left (by rw [List.length_replicate]), slice_zeros]
  · rw [f (by omega)]; exact h1
  · rw [fl (by omega)]; exact h2
  · rw [fl (by omega)]; exact h3
  · rw [fl (by omega)]; exact h4
  · rw [fl (by omega), h5]; rfl
  · rw [fl (by omega), h6]; decide
  · decide
  · decide
theorem wit_debug : (sOwn 4736).fld rSecOpStat 0 1 = 0 ∧ (sOwn 4736).secAllowed 6 = true ∧ 4736 ≤ (sOwn 4736).reg rSecOpLen
    ∧ (sOwn 4736).nonceBytes = List.replicate 64 0 := by decide +kernel
theorem wit_debug_token (c : Nat) (hc : c ∈ [0, 1]) : (dbgRec (BitVec.ofNat 8 c)).length = 4736
    ∧ slice (dbgRec (BitVec.ofNat 8 c)) 0x60 4627 = List.replicate 4627 0 ∧ slice (dbgRec (BitVec.ofNat 8 c)) 0 8 = ascii "TCHKDBGU"
    ∧ Machine.fieldLe (dbgRec (BitVec.ofNat 8 c)) 8 2 = 1 ∧ Machine.fieldLe (dbgRec (BitVec.ofNat 8 c)) 16 16 = Nv.factory.serial.toNat
    ∧ slice (dbgRec (BitVec.ofNat 8 c)) 0x20 64 = List.replicate 64 (BitVec.ofNat 8 c) := by
  obtain ⟨h0, h1, h2, h3, h4⟩ := dbgHead_parts c hc
  have f {o n : Nat} (h : o + n ≤ 0x60) : slice (dbgRec (BitVec.ofNat 8 c)) o n = slice (dbgHead (BitVec.ofNat 8 c)) o n :=
    slice_append_left (by omega)
  have fl {o n : Nat} (h : o + n ≤ 0x60) : Machine.fieldLe (dbgRec (BitVec.ofNat 8 c)) o n = Machine.fieldLe (dbgHead (BitVec.ofNat 8 c)) o n :=
    congrArg ofLe (f h)
  refine ⟨?_, ?_, ?_, ?_, ?_, ?_⟩
  · rw [dbgRec, List.length_append, List.length_append, h0, List.length_replicate, List.length_replicate]
  · rw [dbgRec, slice_append_right (by omega), h0, slice_append_left (by rw [List.length_replicate]), slice_zeros]
  · rw [f (by omega)]; exact h1
  · rw [fl (by omega)]; exact h2
  · rw [fl (by omega), h3]; rfl
  · rw [f (by omega)]; exact h4
theorem wit_formats : xIsFinite (valT32 (0x3F800000 : W32)) = true
    ∧ lineCheckOk (lineBytes .w2 { nfLine false 4 with codes := [2, 0, 1, 3] }) = true
    ∧ 2 ∈ unpackCodes 2 (slice (lineBytes .w2 { nfLine false 4 with codes := [2, 0, 1, 3] }) 8 56)
    ∧ Machine.fieldLe (lineBytes .w2 { nfLine false 4 with codes := [2, 0, 1, 3] }) 6 1 = lineTag .w2
    ∧ lineCheckOk (lineBytes .m8bs { nfLine false 4 with codes := [0x80] }) = true
    ∧ 0x80 ∈ unpackCodes 8 (slice (lineBytes .m8bs { nfLine false 4 with codes := [0x80] }) 8 56)
    ∧ Machine.fieldLe (lineBytes .m8bs { nfLine false 4 with codes := [0x80] }) 6 1 = lineTag .m8bs := by decide +kernel

/-! ### Witnesses: the clauses between the plain ones -/

theorem wit_failing : State.reset.failing = [] := rfl
/-- MC-W's HOSTLINK port 0 is DOWN and its self-check unfinished when SB33 is lost. -/
theorem wit_sb33_train : (base.mc .west).checked = false ∧ 0 < 9 ∧ base.mode 0 = 2 ∧ base.portState 0 = 0 := by decide +kernel
theorem wit_fw_region : (({ sSb with mcw := { McSt.reset with region := 1 } } : State).mc
    ({ sSb with mcw := { McSt.reset with region := 1 } } : State).leader).region ≠ 0 := by decide +kernel
/-- A confirmed leader whose follower asserts FOLLOW no more. -/
def sDropped : State := hs { McSt.reset with lead := true } McSt.reset [(rMcLeadStat, leadStat 1 0)]
theorem wit_conflict_dropped : sDropped.Wf ∧ sDropped.dark = false ∧ sDropped.conflict .west = false ∧ sDropped.forced .west = false
    ∧ (sDropped.mc .west).lead = true ∧ sDropped.role .west = 1 ∧ (sDropped.mc (mcOther .west)).follow = false :=
  ⟨wf_of (by decide +kernel), by decide +kernel⟩
/-- Both controllers in conflict, the other forced or not. -/
def sBoth (forced : Bool) : State :=
  put { base with pkg := { Pkg.reset with forcedE := forced } } [(rMcLeadStat, leadStat 1 1), (mceBase + rMcLeadStat, leadStat 1 1)]
theorem wit_force_both : (sBoth false).Wf ∧ (sBoth true).Wf ∧ (sBoth false).conflict .west = true ∧ (sBoth false).conflict (mcOther .west) = true
    ∧ (sBoth false).forced (mcOther .west) = false ∧ (sBoth true).forced (mcOther .west) = true :=
  ⟨wf_of (by decide +kernel), wf_of (by decide +kernel), by decide +kernel⟩
theorem wit_inspect_dark : ({ led [] with pkg := { (led []).pkg with sb33 := false } } : State).inspectOk = true
    ∧ ({ led [] with pkg := { (led []).pkg with sb33 := false } } : State).pkg.sb33 = false
    ∧ (∀ h ∈ find0.hbmFail ++ find0.hbmAbsent, 8 ≤ h) ∧ ∃ h ∈ ({ find0 with hbmAbsent := [0] }).hbmAbsent, h < 8 := by decide +kernel
/-- No used core has an ACTIVE bank (restored as IDLE), or core 1 has. -/
theorem wit_jobStart_banks : 1 ∈ (ran job1 []).used ∧ (ran job1 []).hasActive 1 = true ∧ (ran job1 [(rCore 1 oBank, 0)]).hasActive 1 = false := by
  decide +kernel
theorem wit_ownHalts : (ran job1 []).ownHalts = [] ∧ (ranP job1 [] pUp).ownHalts = [] ∧ (ranP job5 [] pUp).ownHalts = []
    ∧ sRx.ownHalts = [] ∧ sLocked.ownHalts = [] := by decide +kernel
theorem wit_streamChecks_memory : ({ at1 with mem := { unit := some (.dataSram, 5) } } : Attr).mem.unit = some (.dataSram, 5)
    ∧ streamAttr (.fence { at1 with mem := { unit := some (.dataSram, 5) } }) = some { at1 with mem := { unit := some (.dataSram, 5) } }
    ∧ serialises (.fence at1) = true ∧ (ran job1 []).unblocked 1 (.fence { at1 with mem := { unit := some (.dataSram, 5) } }) = true
    ∧ (ran job1 []).fld rMemErr 48 1 = 0 := by decide +kernel
theorem wit_heel_plain : sDlv.savesAt 2 = false ∧ (ran job2 []).savesAt 0 = false ∧ sWait.savesAt 2 = false
    ∧ (∀ m ∈ sWait.used, (sWait.core m).ending = none ∧ (m ≠ 1 → (sWait.core m).window = [])) ∧ max 0 (sWait.core 1).asOf ≤ sWait.packOf 2 := by
  decide +kernel
theorem wit_ctxSave_idle : (∃ n ∈ sCtx.used, sCtx.coreLive n = true) ∧ sCtx.armed = false ∧ sCtx.fab.held = []
    ∧ (∀ n ∈ sCtx.used, (sCtx.core n).window = [] ∧ (sCtx.core n).stream = [] ∧ (sCtx.core n).ending = none) := by decide +kernel
/-- Core 1 reaches a heel at the boundary to be saved while core 0 runs. -/
def sCtxHeel : State := { ran job2 [(rCore 0 oState, 2)] with hl := { HlSt.reset with ctxReqs := [(0, 4, 1, 0xFFFF)] } }
theorem wit_ctxSave_heel : sCtxHeel.Wf ∧ sCtxHeel.Ready at1 ∧ sCtxHeel.savesAt 4096 = true
    ∧ ∃ k ∈ sCtxHeel.used, k ≠ 1 ∧ sCtxHeel.coreLive k = true :=
  ⟨wf_of (by decide +kernel), ready_of (by decide +kernel), by decide +kernel⟩
def sSlowArmed : State := { sSlow with regs := (put sSlow [(rPfDbgStat, 1)]).regs }
theorem wit_stepOrigin_more : (sStep false false).ctxDue = none ∧ (sStep true true).ctxDue = none ∧ (sStep true true).fab.held = []
    ∧ sSlow.ctxDue = none ∧ sSlow.fab.held = [] ∧ sSlow.armed = false ∧ sSlowArmed.Wf ∧ sSlowArmed.armed = true ∧ sSlowArmed.issuing = true
    ∧ (sSlowArmed.takeDecision jobSlow).slowLeft jobSlow = true ∧ sSlowArmed.anyWaits = false ∧ ∃ n ∈ sSlowArmed.used, sSlowArmed.coreLive n = true := by
  have h : wfb sSlowArmed = true := by decide +kernel
  refine ⟨by decide +kernel, by decide +kernel, by decide +kernel, by decide +kernel, by decide +kernel, by decide +kernel, wf_of h, ?_⟩
  decide +kernel
theorem wit_contribute_norm : (ran (job3 3) []).collUse ⟨40, 1, 0, 0, 4, 200⟩ ≠ .norm ∧ (ran job5 []).fab.held = [] ∧ (ran job5 []).bad = [] := by
  decide +kernel

/-- The flit of slot 3 was an ANNOUNCE; port 1 has sent nothing else that is kept. -/
def sIdle (ann : List (Nat × Announce)) : State :=
  sRetry [(rPfPackTime, 8)] (fun v => { v with carried := 9, annSent := ann })
theorem wit_retry_idle : (sIdle []).Wf ∧ ((sIdle []).port 1).sent = [] ∧ ((sIdle []).port 1).failedTx = [] ∧ ((sIdle []).port 1).stops = []
    ∧ (sIdle []).stampTime 3 < ((sIdle []).port 1).carried ∧ (sIdle []).slotOf ((sIdle []).stampTime 3) = some 3
    ∧ (sIdle []).now < (sIdle []).packOf (3 + 2 * (sIdle []).lambda 1 + 3) ∧ (sIdle []).issuing = true
    ∧ (((sIdle [(3, .stretch 90 1)]).port 1).annSent.find? (fun e => e.1 == (sIdle [(3, .stretch 90 1)]).stampTime 3)).map (·.2) = some (.stretch 90 1) :=
  ⟨wf_of (by decide +kernel), by decide +kernel⟩
def sentAnn : SentFlit := { sentAt 3 with ann := some (.stretch 90 1) }
theorem wit_retry_ann : (sTx [(3, sentAnn, false)]).resends 1 = [(31, sentAnn)] ∧ sentAnn.ann = some (.stretch 90 1) ∧ (sentAt 3).ann = none
    ∧ (sRetry [(rPfPackTime, 16)] (fun v => { v with sent := [sentAt 3] })).stampTime 3 = (sentAt 3).time
    ∧ (sRetry [(rPfPackTime, 16)] (fun v => { v with sent := [sentAt 3] })).slotOf (sentAt 3).time = some (sentAt 3).slot := by decide +kernel
/-- Core 1's own halt still waits for an older command when the STOP comes. -/
def sStopEnding : State := { ranP job1 [] pUp with cores := [(1, { CoreSt.reset with ending := some (.halt at1 0x0102 true 3) })] }
theorem wit_stop_ending : sStopEnding.Wf ∧ sStopEnding.running = true ∧ sStopEnding.fab.originsFwd = [] ∧ sStopEnding.fab.stopOut = false
    ∧ 1 ∈ sStopEnding.used ∧ sStopEnding.coreLive 1 = true ∧ (sStopEnding.core 1).ending = some (.halt at1 0x0102 true 3)
    ∧ sStopEnding.cfld 1 oHaltInfo 16 1 = 0 ∧ sStopEnding.portUp 1 = true ∧ (∀ n ∈ (ranP job1 [] pUp).used, ((ranP job1 [] pUp).core n).ending = none) :=
  ⟨wf_of (by decide +kernel), by decide +kernel⟩

/-- A follower about to lock: whether it has locked before, must step, and what its parent has announced. -/
def sLock (ever next : Bool) (parent : Option (Nat × Announce)) : State :=
  sFol 0 6 256 { Fab.reset with steady := some 0, everLocked := ever, stepNext := next, parent := parent }
theorem wit_lock : (sLock true false none).Wf ∧ (sLock true false none).follows = true ∧ (sLock true false none).fab.everLocked = true
    ∧ (sLock true false none).fab.stepNext = false ∧ (sLock false false none).fab.everLocked = false ∧ (sLock true true none).fab.stepNext = true
    ∧ (sLock true true none).fab.parent = none ∧ (sLock false false (some (250, .time 1000 3 768 0 []))).Wf
    ∧ (sLock false false (some (250, .time 1000 3 768 0 []))).fab.parent = some (250, .time 1000 3 768 0 [])
    ∧ 1000 + ((sLock false false (some (250, .time 1000 3 768 0 []))).now - 250) < 2 ^ 64
    ∧ 768 ≤ 1000 + ((sLock false false (some (250, .time 1000 3 768 0 []))).now - 250)
    ∧ 1000 + ((sLock false false (some (250, .time 1000 3 768 0 []))).now - 250) < 768 + 256 :=
  ⟨wf_of (by decide +kernel), by decide +kernel, by decide +kernel, by decide +kernel, by decide +kernel, by decide +kernel, by decide +kernel,
    wf_of (by decide +kernel), by decide +kernel⟩
/-- A slot that holds version 7, compared or not. -/
def sChry (seen : List Nat) : State :=
  { ran job1 [(rMemChryStat, 4)] with stp := { StepSt.reset with started := true, chryNeed := [(1, [7])], compared := seen } }
theorem wit_chrysalis_seen : (sChry [7]).Wf ∧ (sChry [7]).running = true ∧ (sChry [7]).slotState 1 = 1
    ∧ (∀ v ∈ (getAssoc (sChry [7]).stp.chryNeed 1).getD [], v ∈ (sChry [7]).stp.compared)
    ∧ (∃ v ∈ (getAssoc (sChry []).stp.chryNeed 1).getD [], v ∉ (sChry []).stp.compared) ∧ (ran job1 [(rBuState, 7), (rMemChryStat, 4)]).running = false :=
  ⟨wf_of (by decide +kernel), by decide +kernel⟩

/-- The EVICT of a doorbell line is acknowledged while its queue is off, or has been enabled since. -/
def sGone (on : Nat) : State :=
  hl 5 [(rHlSqCfg 2, on), (rHlSqDb 2, 0x1000)]
    (fun v => { v with lines := [line0 (.doorbell 2) false], reqs := [⟨4, opEvict, 0x1000, false, .giveUp (.doorbell 2)⟩] })
theorem wit_giveUp : (sGone 1).Wf ∧ (sGone 0).sqOn 2 = false ∧ (sGone 1).sqOn 2 = true ∧ (sGone 1).sqPort 2 = some 0
    ∧ (sGone 1).reg (rHlSqDb 2) = 0x1000 ∧ ((sGone 1).port 0).reqs.find? (fun r => r.tag == 4) = some ⟨4, opEvict, 0x1000, false, .giveUp (.doorbell 2)⟩ :=
  ⟨wf_of (by decide +kernel), by decide +kernel⟩
/-- A COPY_OUT's one WR_FULL waits for its H_ACK. -/
def sOut : State :=
  { sq 5 [] (copy 3 0xFFC0 64) with
    ports := [(0, { PortSt.reset with trained := true, reqs := [⟨4, opWrFull, 0x8000, false, .copyOut 3 0⟩] })] }
theorem wit_copyOut_acked : sOut.Wf ∧ (sOut.port 0).reqs.find? (fun r => r.tag == 4) = some ⟨4, opWrFull, 0x8000, false, .copyOut 3 0⟩
    ∧ sOut.desc? 3 0 = some (copy 3 0xFFC0 64) ∧ (copy 3 0xFFC0 64).done = none
    ∧ (sOut.setPort 0 { sOut.port 0 with reqs := (sOut.port 0).reqs.erase ⟨4, opWrFull, 0x8000, false, .copyOut 3 0⟩ }).copyLeft 3 0 = false
    ∧ sOut.portUp 0 = true ∧ sOut.mode 0 = 2 ∧ 1 ≤ ((sq 5 [] (copy 2 0xFFC0 64)).port 0).credits.getD 2 0 :=
  ⟨wf_of (by decide +kernel), by decide +kernel⟩

/-- Queue 63 was disabled with a descriptor still to complete. -/
def sKept : State := { hl 5 qRegs id with hl := { HlSt.reset with sqs := [(63, { SqSt.reset with tail := 1, fetched := 1, descs := [mkDesc 0 []] })] } }
theorem wit_queue_kept : sKept.Wf ∧ (sKept.sq 63).descs ≠ [] ∧ sKept.sqOn 63 = false ∧ ((hl 5 qRegs id).sq 63).descs = []
    ∧ ((hl 5 qRegs id).sq 63).pend = [] :=
  ⟨wf_of (by decide +kernel), by decide +kernel⟩
/-- CQ 3 and the event queue with bases on their own lines; a size code above 16 is refused. -/
def cRegs : List (Nat × Nat) := [(rHlCqBase 3, 0x40000), (rHlCqHead 3, 0x50000), (rHlEvqBase, 0x60000), (rHlEvqHead, 0x70000)]
theorem wit_queues_more : (hl 5 cRegs id).Wf ∧ (hl 5 cRegs id).cqOn 3 = false
    ∧ ((hl 5 cRegs id).cfgFields (rHlCqCfg 3) 6 (1 + 2 * 6)).cfgValid (rHlCqCfg 3) (rHlCqBase 3) [rHlCqHead 3] = true
    ∧ ((hl 5 cRegs id).cfgFields (rHlCqCfg 3) 6 (1 + 2 * 5)).cfgValid (rHlCqCfg 3) (rHlCqBase 3) [rHlCqHead 3] = false
    ∧ ((hl 5 cRegs id).cfgFields rHlEvqCfg 6 (1 + 2 * 6)).cfgValid rHlEvqCfg rHlEvqBase [rHlEvqHead] = true
    ∧ ((hl 5 cRegs id).cfgFields rHlEvqCfg 6 (1 + 2 * 5)).cfgValid rHlEvqCfg rHlEvqBase [rHlEvqHead] = false :=
  ⟨wf_of (by decide +kernel), by decide +kernel⟩
def dLate : Desc := mkDesc 6 [(16, 8, 0x8000), (24, 8, 5920), (8, 8, 9)]
theorem wit_descDeadline_load : (sq 5 [] dLate).Wf ∧ (sq 5 [] dLate).desc? 3 0 = some dLate ∧ dLate.done = none ∧ dLate.deadline ≠ 0
    ∧ (sq 5 [] dLate).startable? 3 0 6 = some dLate ∧ (sq 5 [] dLate).bu = 5 ∧ dLate.fetchAt ≤ dLate.deadline ∧ dLate.f 16 8 % 64 = 0
    ∧ dLate.f 24 8 ≠ 0 ∧ (sq 5 [] doneDesc).copyLeft 3 0 = false ∧ (mkDesc 0 [(8, 8, 7)]).f 0 1 ≠ 6 :=
  ⟨wf_of (by decide +kernel), by decide +kernel⟩

/-- The buffer that step 2's input would take still holds step 0's. -/
def dIn2 : Desc := mkDesc 1 [(16, 8, 2), (40, 8, 64)]
def sTwo : State :=
  { rq job7 dIn2 0 with hl := { (rq job7 dIn2 0).hl with inputs := [{ step := 0, index := 0, ranges := [(0, 64)], filled := [(0, 64)], descs := [] }] } }
theorem wit_input_more : sTwo.Wf ∧ sTwo.startable? 3 0 1 = some dIn2 ∧ sTwo.running = true ∧ sTwo.inputBad dIn2 ⟨2, 64, 100, 0⟩ = false
    ∧ (3, 0) ∉ sTwo.hl.waitIn ∧ sTwo.bufferHeld ⟨2, 64, 100, 0⟩ 0 2 = true ∧ (rq job7 dIn 0).bufferHeld ⟨2, 64, 100, 0⟩ 0 0 = false
    ∧ inputForm (mkDesc 1 []) = true ∧ (rq job7 (mkDesc 1 []) 0).startable? 3 0 1 = some (mkDesc 1 [])
    ∧ job7.inputs[(mkDesc 1 [(40, 8, 64), (24, 4, 1)]).f 24 4]? = none
    ∧ (rq job7 (mkDesc 1 [(40, 8, 64), (24, 4, 1)]) 0).startable? 3 0 1 = some (mkDesc 1 [(40, 8, 64), (24, 4, 1)])
    ∧ (rq job7 (mkDesc 1 [(40, 8, 128)]) 0).inputBad (mkDesc 1 [(40, 8, 128)]) ⟨2, 64, 100, 0⟩ = true :=
  ⟨wf_of (by decide +kernel), by decide +kernel⟩
/-- A SNAP_REQ for the next step, before and after that step's status has gone out; `now` is pack time. -/
def sSnap (now : Nat) : State := { rq job7 (dSnap 2 0) 1 with regs := (put (rq job7 (dSnap 2 0) 1) [(rPfPackTime, now)]).regs }
theorem wit_snapReq_next : (sSnap 0).Wf ∧ (sSnap 0).startable? 3 0 4 = some (dSnap 2 0) ∧ (sSnap 0).running = true ∧ (dSnap 2 0).f 16 8 = (sSnap 0).stp.step + 1
    ∧ (sSnap 0).statusSent = false ∧ (sSnap 4096).statusSent = true ∧ (sSnap 4096).issuing = true ∧ (sSnap 4096).startable? 3 0 4 = some (dSnap 2 0) :=
  ⟨wf_of (by decide +kernel), by decide +kernel⟩
def dCtxLate : Desc := mkDesc 5 [(16, 8, 2), (24, 2, 1), (8, 8, 7)]
theorem wit_ctxReq_more : (sq 6 [(rPfPackTime, 8)] dCtxLate).tooLate dCtxLate = true ∧ (sq 6 [(rPfPackTime, 8)] dCtxLate).startable? 3 0 5 = some dCtxLate
    ∧ (dCtx 0 1).f 16 8 < (rq job7 (dCtx 0 1) 1).stp.step ∧ (dCtx 1 1).f 16 8 = (rq job7 (dCtx 1 1) 1).stp.step
    ∧ (rq job7 (dCtx 1 1) 1).stp.started = true ∧ (dCtx 1 1).f 24 2 < numCores
    ∧ ({ rq job7 (dCtx 1 1) 1 with stp := { StepSt.reset with step := 1 } } : State).stp.started = false
    ∧ ({ rq job7 (dCtx 1 1) 1 with stp := { StepSt.reset with step := 1 } } : State).startable? 3 0 5 = some (dCtx 1 1)
    ∧ ({ rq job7 (dCtx 1 1) 1 with stp := { StepSt.reset with step := 1 } } : State).running = true := by decide +kernel
theorem wit_capSched : (led []).beat < bitsOf (1 + 2 ^ 48 * 599 : W64).toNat 0 48
    ∧ ¬((led []).beat < bitsOf (1 + 2 ^ 48 * 599 : W64).toNat 0 48 ∧ 600 ≤ bitsOf (1 + 2 ^ 48 * 599 : W64).toNat 48 12
        ∧ bitsOf (1 + 2 ^ 48 * 599 : W64).toNat 48 12 ≤ 2100) := by decide +kernel
theorem wit_trips_states : ∀ b ∈ [3, 4, 5], (led [(rBuState, b)]).bu = b ∧ (led [(rBuState, b)]).dark = false := by decide +kernel
/-- Core 0 is mapped and not used. -/
theorem wit_margin_unused : 0 ∉ (sFreq 1425).used ∧ (sFreq 1425).mapped? 0 = true ∧ (sFreq 1425).cstate 0 ≠ 5 ∧ 25 < (sFreq 1425).islandFreq 0
    ∧ (sFreq 1425).pwr.fsched < (sFreq 1425).islandFreq 0 ∧ ((sFreq 1450).core 1).issues = false
    ∧ (∀ m ∈ (sFreq 1450).used, ((sFreq 1450).core m).ending = none) ∧ (sFreq 1450).islandFreq 0 ≤ (sFreq 1450).pwr.fsched := by decide +kernel
theorem wit_ddrTemp : 11 < 12 ∧ (20 + 11) ≠ 20 ∧ 85 < 86 := by decide
theorem wit_fwWrite_dark : ({ sFwWrite 8192 with pkg := { (sFwWrite 8192).pkg with sb33 := false } } : State).pkg.sb33 = false
    ∧ ({ sFwWrite 8192 with pkg := { (sFwWrite 8192).pkg with sb33 := false } } : State).secAllowed 3 = true := by decide +kernel

/-- A led package whose boot flash holds a valid core image. -/
def sInsp : State := { led [] with nv := { nvFw with regionA := regImg }, sigs := [fwSig 1, fwSig 2] }
theorem judge_unpolled (i j : FwInfo) : sInsp.judgeSites find0 i [] = sInsp.judgeSites find0 j [] := by
  simp only [State.judgeSites, show find0.polls = [] from rfl, List.filter_nil, List.map_nil]
theorem wit_inspect_map (i : FwInfo) : 28 ≤ popCount (sInsp.judgeSites find0 i []).span
    ∧ (sInsp.judgeSites find0 i []).ydead = false
    ∧ perDie ≤ goodCount (sInsp.judgeSites find0 i []).good 0 ∧ perDie ≤ goodCount (sInsp.judgeSites find0 i []).good 1 := by
  rw [judge_unpolled i run1]; decide +kernel
theorem wit_inspect_core : sInsp.Wf ∧ sInsp.dark = false ∧ sInsp.inspectOk = true ∧ sInsp.pkg.sb33 = true ∧ ageAll sInsp.nv.age find0.aged = []
    ∧ ∃ i, fwCheck sInsp.nv sInsp.sigs 2 (coreImageOf (if (sInsp.mc sInsp.leader).region = 0 then sInsp.nv.regionA else sInsp.nv.regionB)) = .ok i := by
  refine ⟨wf_of (by decide +kernel), by decide +kernel, by decide +kernel, by decide +kernel, by decide +kernel, ?_⟩
  have h : (sInsp.mc sInsp.leader).region = 0 := by decide +kernel
  rw [if_pos h]
  obtain ⟨k, hk⟩ := fwCheck_img (nv := { nvFw with regionA := regImg }) (sigs := [fwSig 1, fwSig 2]) 2 (by decide) [] rfl rfl rfl rfl
    (List.mem_cons_of_mem _ List.mem_cons_self)
  exact ⟨k, by rw [show sInsp.nv.regionA = regImg from rfl, coreImageOf_regImg]; exact hk⟩

/-! ### Values of the spec's worked examples -/

def w32 (neg : Bool) (n : Nat) (e : Int) : W32 :=
  rne32s (xMul (.fin neg n 1) (xPow2 e))
def zeroQuad : Quad := ⟨0, 0, 0, 0⟩

-- Chapter 2, "Worked examples".
theorem test_t8f_encode : (convElem .t8f .rne false (valT32 0x3E99999A)).code = 0x2A ∧ (convElem .t8f (.sr 0x3000) false (valT32 0x3E99999A)).code = 0x29
    ∧ (convElem .t8f (.sr 0xA000) false (valT32 0x3E99999A)).code = 0x2A ∧ (convElem .t8f (.sr 26214) false (valT32 0x3E99999A)).code = 0x29
    ∧ (convElem .t8f (.sr 26215) false (valT32 0x3E99999A)).code = 0x2A := by decide +kernel
theorem test_t8f_saturate : convElem .t8f .rne false (xOfNat 250) = { code := 0x78 } ∧ convElem .t8f .rne false (xOfNat 464) = { code := 0x7E }
    ∧ convElem .t8f .rne false (xOfNat 500) = { code := 0x7E, sat := true }
    ∧ convElem .t8f .rne false (.inf true) = { code := 0x7F, nonfin := true } := by decide +kernel
theorem test_t8g_decode : rne32s (decodeElem .t8g 0xC5) = 0xC0A00000 := by decide +kernel
theorem test_t8g_subnormal : rne32s (decodeElem .t8g 0x02) = w32 false 1 (-15) ∧ rne32s (readElem .t8g true 0x02).1 = 0
    ∧ (readElem .t8g true 0x02).2 = true := by decide +kernel
theorem test_w2_line : (deriveLine .w2 false [] [w32 false 3 (-2), w32 true 1 (-4), w32 true 1 (-1), w32 false 3 (-4), 0]).line
      = { scale := 0x3E99999A, codes := [1, 0, 3, 1, 0] }
    ∧ (lineBytes .w2 { scale := 0x3E99999A, codes := [1, 0, 3, 1, 0] }).take 4 = [0x9A, 0x99, 0x99, 0x3E]
    ∧ slice (lineBytes .w2 { scale := 0x3E99999A, codes := [1, 0, 3, 1, 0] }) 6 4 = [1, 0, 0x71, 0] := by decide +kernel
theorem test_m8bu_tie : m8uCode (valT32 (w32 false 1 (-4))) (valT32 (w32 false 1 (-6))) = (0x80, false) := by decide +kernel

-- Chapter 3, the 64-element T8F dot product and the T16 tile under prescale.
def dotA : List W32 := ([0x7E, 0x01] ++ List.replicate 30 0x38 ++ List.replicate 3 0x02 ++ List.replicate 29 0).map (fun c => rne32s (decodeElem .t8f c))
def dotB : List W32 := ([0x7E, 0x01] ++ List.replicate 62 0x38).map (fun c => rne32s (decodeElem .t8f c))
theorem test_dot_a32c : ((elemRun true 32 0 (w32 false 1 (-6)) xZero dotA dotB).m, (elemRun true 32 0 (w32 false 1 (-6)) xZero dotA dotB).e)
      = (w32 false 12846977 (-6), w32 true 1 (-8))
    ∧ elemOut (w32 false 1 (-6)) 0 (w32 false 12846977 (-6), w32 true 1 (-8)) = w32 false 12846977 (-12) := by decide +kernel
theorem test_dot_strict : strictAcc (w32 false 1 (-6)) xZero true dotA dotB = w32 false 200734 0
    ∧ strictOut (w32 false 1 (-6)) (w32 false 200734 0) = w32 false 200734 (-6) := by decide +kernel
theorem test_t16_prescale :
    (elemRun true 32 4 (w32 false 1 (-16)) xZero (List.replicate 64 (w32 false 1 63)) (List.replicate 64 (w32 false 1 63))).ovf = true
    ∧ elemRun true 32 5 (w32 false 1 (-16)) xZero (List.replicate 64 (w32 false 1 63)) (List.replicate 64 (w32 false 1 63)) = ⟨w32 false 1 127, 0, false⟩
    ∧ elemOut (w32 false 1 (-16)) 5 (w32 false 1 127, 0) = w32 false 1 116 := by decide +kernel

-- Chapter 3, the W2 block against I8 activations: one chunk of the whole line, SCALE inside its rounding.
theorem test_narrow_block : chunkLen .narrowBlock .w2 = 224
    ∧ elemRun true 224 0 (w32 false 1 (-6)) xZero ([0x64, 0xCE, 0x1E, 0xF9, 0x7F].map (fun c => rne32s (decodeI8 c)))
        [0x3E99999A, 0, 0xBE99999A, 0x3E99999A, 0] = ⟨w32 false 9909044 (-19), 0, false⟩
    ∧ elemOut (w32 false 1 (-6)) 0 (w32 false 9909044 (-19), 0) = w32 false 9909044 (-25) := by decide +kernel

-- Chapter 6, Table 6.6 and the dropout example.
theorem test_flutter_vector : flutter zeroQuad zeroQuad = ⟨0xC9576CFA, 0x67805F17, 0x097F7AD5, 0xD4426916⟩
    ∧ (List.range 8).map (fltValue zeroQuad 0 0 0 0) = [0x6CFA, 0xC957, 0x5F17, 0x6780, 0x7AD5, 0x097F, 0x6916, 0xD442] := by decide +kernel
def jobDrop : Job := { job1 with dropKey := 0, sites := [⟨0, 0, 32768, 0x40000000, 0⟩] }
theorem test_dropout :
    ([(0, (0x3E99999A : W32)), (1, 0xBF800000), (2, 0x3DCCCCCD), (3, 0x40A00000), (4, 0xBCA3D70A), (5, 0x42C80000), (6, 0x437A0000), (7, 0x40E00000)]).map
      (fun p => (convElem .t8f .rne false ((ran jobDrop []).exactVal jobDrop { conv0 with dropout := some 0 } p.1 (valT32 p.2) xZero).v).code)
    = [0x32, 0x80, 0x25, 0x52, 0x92, 0x74, 0x7E, 0x00] := by decide +kernel

-- Chapter 8, the layer-normalized momentum rule, operations 0 to 3 and 6 to 12.
theorem test_recipe_ops : vecOp 0x0A 0 (w32 false 1 (-3)) (w32 false 1 (-2)) (w32 false 1 (-3)) = w32 false 9 (-6)
    ∧ vecOp 0x0B 0 (w32 false 1 (-4)) (w32 false 1 (-2)) (w32 false 1 (-10)) = w32 false 1 (-4)
    ∧ vecOp 0x09 0 (w32 false 1 (-4)) (w32 false 1 (-20)) 0 = w32 false 262143 (-16)
    ∧ vecOp 0x04 0 (w32 false 9 (-6)) (w32 false 262143 (-16)) 0 = w32 false 2359287 (-22)
    ∧ vecOp 0x02 0 (w32 false 1 10) (w32 false 1 (-60)) 0 = w32 false 1 10 ∧ vecOp 0x07 0 (w32 false 1 12) (w32 false 1 10) 0 = w32 false 4 0
    ∧ vecOp 0x08 0 (w32 false 4 0) 0 0 = w32 false 2 0 ∧ vecOp 0x11 0 (w32 false 2 0) (w32 false 1 (-6)) (w32 false 16 0) = w32 false 2 0
    ∧ vecOp 0x06 0 (w32 false 1 (-10)) (w32 false 2359287 (-22)) (w32 false 3 (-1)) = 0x3FBFEE00 := by decide +kernel
theorem test_recipe_sched : schedValue [(0, 0), (1024, w32 false 1 (-10))] (w32 false 512 0) = w32 false 1 (-11) := by decide +kernel

-- Chapter 9, the copper link with λ = 3 and the stretch example.
theorem test_retry_spares : assignSpare [] 1000 3 = some 1023 ∧ assignSpare [1023] 1005 3 = some 1039 ∧ assignSpare [1023, 1039] 1006 3 = none := by
  decide +kernel
def sStretch : State := { put base [(rPfBeat, 100000)] with fab := { Fab.reset with beatStart := 25600000, table := [(102100, 256), (102100, 128)] } }
theorem test_stretch : [26137599, 26137600, 26137700, 26137856, 26137956, 26137884].map sStretch.packOf
    = [26137599, 26137600, 26137700, 26138112, 26138212, 26138140] := by decide +kernel

-- Chapter 10, one element of an RBT range.
theorem test_rbt : rbtInsert 11 1 12 [emptySlot, emptySlot] 0 (t32One, 0) = [emptySlot, (t32One, 0)]
    ∧ rbtInsert 11 1 12 [emptySlot, (t32One, 0)] 0 (w32 false 1 (-24), 0) = [(t32One, w32 false 1 (-24)), emptySlot]
    ∧ rbtInsert 11 1 12 [(t32One, w32 false 1 (-24)), (w32 false 1 (-24), 0)] 0 (w32 false 1 (-24), 0) = [(w32 false 8388609 (-23), w32 false 1 (-24)), emptySlot]
    ∧ rbtInsert 11 1 12 [(w32 false 8388609 (-23), w32 false 1 (-24)), emptySlot] 2 (w32 false 2 0, 0) = [(w32 false 3 0, w32 false 3 (-24)), emptySlot]
    ∧ rne32s (pairValue 2 (w32 false 3 0, w32 false 3 (-24))) = w32 false 12582913 (-22) := by decide +kernel

-- Chapter 15, the stretch advice of packages 12 and 40 at P_t = 1,164 W.
def sAdv (flr : Nat) : State :=
  { put base [(rPfBeat, 1000960), (rPwrCap, 1600), (rPwrCapSched, 1003520 + 2 ^ 48 * 1200), (rPwrFloor, flr + 2 ^ 16 * 520)] with
    pwr := { PwrSt.reset with capNow := 1600, factor := 100 } }
theorem test_advice : (sAdv 1420).adviceOf = 102 ∧ (sAdv 1460).adviceOf = 118 := by decide +kernel

-- Chapter 18, "reading a halt record and remapping one core".
theorem test_addresses : rCore 1611 oHaltInfo = 0x01C96100 ∧ rCore 1611 oHaltTag = 0x01C96110 ∧ rBuSiteGood 56 = 0x311C0 ∧ rBuMap 402 = 0x32C90
    ∧ rCore 1611 oFreq = 0x01C96800 := by decide +kernel

-- Known answers of the names the spec takes from elsewhere: CRC-16, CRC-32C and CRC-64 of "123456789", SHA3-512 of the empty string.
theorem test_crcs : crc16 (ascii "123456789") = 0x29B1 ∧ crc32c (ascii "123456789") = 0xE3069283 ∧ crc64 (ascii "123456789") = 0x995DC9BBDF1939FA := by
  decide +kernel
theorem test_sha3 : (digestBytes (sha3_512 [])).take 8 = [0xA6, 0x9F, 0x73, 0xCC, 0xA2, 0x3A, 0x9A, 0xC5] := by decide +kernel

/-! ### Single commands -/

/-- The state a command leaves. -/
def after (i : Instr) (s : State) : State := match exec i s with | .next t => t | _ => s
def sramAfter (i : Instr) (s : State) (off n : Nat) : List Byte := (after i s).sramRead 1 off n

theorem test_flutter_raw : sramAfter (.flutter at1 0 0 0 0 8 .raw 0 64) (ran jobDrop []) 64 16
    = [0xFA, 0x6C, 0x57, 0xC9, 0x17, 0x5F, 0x80, 0x67, 0xD5, 0x7A, 0x7F, 0x09, 0x16, 0x69, 0x42, 0xD4] := by decide +kernel
theorem test_flutter_mask : sramAfter (.flutter at1 0 0 0 0 8 .mask 0 64) (ran jobDrop []) 64 2 = [0x7D, 0] := by decide +kernel
theorem test_flutter_go : (after (.flutterTestGo 1) (put (hl 5 [] id) [(rCore 1 oFltCtrl, 0)])).reg (rCore 1 oFltOutLo) = 0x67805F17C9576CFA
    ∧ (after (.flutterTestGo 1) (put (hl 5 [] id) [(rCore 1 oFltCtrl, 0)])).fld (rCore 1 oFltCtrl) 1 1 = 1 := by decide +kernel
/-- SRAM of core 1 holds 1.0 and 2.0 at 0, and 2.0 at 64. -/
def sVec : State := ((ran (job3 3) []).sramWrite 1 0 (leBytes 4 0x3F800000 ++ leBytes 4 0x40000000)).sramWrite 1 64 (leBytes 4 0x40000000)
theorem test_vop_add : sramAfter (.vop at1 { vop1 with n := 1, nB := 1 }) sVec 128 4 = leBytes 4 0x40400000 := by decide +kernel
theorem test_vop_sumsq : sramAfter (.vop at1 { vop1 with op := 0x22, arg := 1, n := 2, nB := 0, b := none }) sVec 128 4 = leBytes 4 0x40A00000 := by
  decide +kernel
theorem test_vconvert_t16 : sramAfter (.vconvert at1 0 64 2 .t32 { conv0 with dst := .t16 }) sVec 64 4 = [0x80, 0x3F, 0, 0x40] := by decide +kernel
theorem test_deposit : (after (.deposit at1 { dep1 with src := 64 }) sVec).load 0x3003C 4 = leBytes 4 0x40000000 := by decide +kernel
theorem test_retrieve : sramAfter (.retrieve at1 { ret1 with tensor := 2, first := 1, count := 1, dst := 256 }) (sVec.store 0x30004 (leBytes 4 0x40400000)) 256 4
    = leBytes 4 0x40400000 := by decide +kernel
def sAcc : State :=
  ((ranL (fun c => { c with groups := [(7, { group1 with tiles := [tileQ 0 0 0, tileQ 256 1 0] })] })).sramWrite 1 0
    [0x80, 0x3F]).sramWrite 1 64 [0, 0x40]
theorem test_accumulate : ((after (.accumulate at1 { acc1 with bOff := [64, 128] }) sAcc).group? 1 7).map (fun g => g.tiles.map Tile.elems)
    = some [[(0x40000000, 0)], [(0, 0)]] := by decide +kernel
theorem test_close : (after (.close at1 7 .tensor { conv0 with dst := .t32 }) sClose).load 0x30000 4 = leBytes 4 0x3F800000
    ∧ (after (.close at1 7 .tensor { conv0 with dst := .t32 }) sClose).group? 1 7 = none := by decide +kernel
/-- The new master 0 that the pass of a one-operation recipe gives. -/
def newMaster (op : Nat) (s : State) : Option W32 :=
  let r := recipeOf (rcp op)
  match s.passUse (job3 op) (tens 0 0x13 5 16) with
  | some u =>
    match s.stagePart (job3 op) r upd1 (tens 0 0x13 5 16) (tens 1 0x20 10 16) u with
    | .inr (_, p) =>
      match (passEnv r u [] [p]).run (valueAlg pairadd) r.pts (fun _ mine => some mine) 0 r.ops with
      | .done v => ((passVals r v v 0).out 1).head?
      | .waits _ _ => none
    | .inl _ => none
  | none => none
theorem test_update_sub : newMaster 3 (sVec.store 0x10000 (leBytes 4 0x3F800000)) = some 0x3F800000
    ∧ newMaster 3 (sVec.store 0x20000 (leBytes 4 0x3F800000)) = some 0xBF800000 := by decide +kernel
theorem test_branch : ((after (.branch at1 128) (ran (job3 3) [])).core 1).resume = 128
    ∧ (after (.branch at1 1024) (ran (job3 3) [])).cstate 1 = csHalted := by decide +kernel
theorem test_undefined_command_halts : (after (.fence { at1 with defined := false }) (ran (job3 3) [])).cstate 1 = csHalted
    ∧ (after (.fence at1) (ran (job3 3) [])).cstate 1 = csRun := by decide +kernel
theorem test_portMode : (after (.portModeWrite 0 1) base).mode 0 = 1 ∧ (after (.portModeWrite 1 2) base).mode 1 = 1
    ∧ (after (.portModeWrite 1 2) base).fld (rPortMode 1) 3 1 = 1 := by decide +kernel
theorem test_stop_reason : (after (.stopFlitReceive 1 7 ⟨gf 2 0 false, {}⟩ ⟨5, 2, 77⟩) (ranP job1 [] pUp)).fld rPfStopCause 0 1 = 1 := by decide +kernel
theorem test_i3c_read : (after (.i3cPrivateRead .west) (after (.i3cPointerWrite .west [0, 0, 3, 0]) (put (led []) [(rBuState, 1)]))).outbox.getLast?
    = some (.i3c .west ([1, 0, 0, 0, 0, 0, 0, 0, 0, 0, 0, 0])) := by decide +kernel
theorem test_setdasa : ((after (.setdasa .west 0x50 9) (sI3c 0 none)).mc .west).dyn = some 9 ∧ ((after (.setdasa .west 0x51 9) (sI3c 0 none)).mc .west).dyn = none := by
  decide +kernel
theorem test_pwrCap : (after (.pwrCapWrite 5296) (led [])).fld rPwrCap 0 12 = 1200 ∧ (after (.pwrCapWrite 4695) (led [])).fld rPwrCap 16 1 = 1 := by
  decide +kernel

end Sys2Proof.Tests
end

section
/-! SUPPORT. What every operation of the machine keeps, said once for each operation: the maps stay in canonical form, no
block of memory is left marked as one whose write fails, no message is taken back, and the queue of commands, what signatures
verify and the fused records stay as they are. A proof follows the operation: `h.setReg.emit` is what `h` gives after a register
write and a message. -/

namespace Sys2Proof.Machine
open Sys2Proof

-- Proofs elaborated in threads of their own, each with the check's stack, would pass its limit of memory.
set_option Elab.async false

/-! ### The relation -/

/-- The fused records that only SVN_COMMIT may change. -/
def Nv.fused (n : Nv) : BitVec 128 × BitVec 256 × List Digest × Nat × Nat × Nat :=
  (n.serial, n.uds, n.roots, n.mcCtr, n.coreCtr, n.revoked)

/-- What no operation breaks on the way from `r` to `s`. -/
structure Keeps (r s : State) : Prop where
  wf      : r.Wf → s.Wf
  failing : r.failing = [] → s.failing = []
  outbox  : r.outbox <+: s.outbox
  pending : s.pending = r.pending
  sigs    : s.sigs = r.sigs
  fused   : s.nv.fused = r.nv.fused

/-- A command is answered with a state that keeps what `r` had. -/
def Answers (r : State) : Res → Prop
  | .next s => Keeps r s
  | _ => True

/-- An operation that may answer no state keeps what `r` had. -/
def KeepsOpt (r : State) (o : Option State) : Prop := ∀ s, o = some s → Keeps r s

variable {r s t u : State}

theorem Keeps.refl (s : State) : Keeps s s := ⟨id, id, List.prefix_rfl, rfl, rfl, rfl⟩

/-- No register: what a quiet change that writes none may differ in. -/
def noReg (_ : Nat) : Prop := False

/-- A quiet change keeps. -/
theorem Keeps.quiet {R : Nat → Prop} (h : Keeps r s) (q : Quiet R s t) : Keeps r t where
  wf w := q.wf (h.wf w)
  failing e := by rw [q.frame]; exact h.failing e
  outbox := h.outbox.trans q.outbox
  pending := q.pending.trans h.pending
  sigs := q.sigs.trans h.sigs
  fused := by rw [q.nv, h.fused]

/-- A change of the parts of the state that hold no map, no message and no fused record. -/
theorem Keeps.frame (h : Keeps r s) {bad : List Nat} {nv : Nv} {pkg : Pkg} {mcw mce : McSt} {fab : Fab} {job : Option Job}
    {stp : StepSt} {hl : HlSt} {pwr : PwrSt} {sec : SecSt} {flocks : List Nat} {free : Nat}
    (hn : nv.fused = s.nv.fused := by rfl) (hs : hl.sqs = s.hl.sqs := by rfl) (hc : hl.cqs = s.hl.cqs := by rfl) :
    Keeps r { s with bad, nv, pkg, mcw, mce, fab, job, stp, hl, pwr, sec, flocks, free } where
  wf w := have w := h.wf w; ⟨w.regs, w.mem, w.ports, w.cores, w.sram, hs ▸ w.sqs, hc ▸ w.cqs⟩
  failing := h.failing
  outbox := h.outbox
  pending := h.pending
  sigs := h.sigs
  fused := hn.trans h.fused

/-! ### Branches and loops -/

theorem Keeps.ite {c : Prop} [Decidable c] (h : Keeps r s) (k : Keeps r t) : Keeps r (if c then s else t) := by
  split
  · exact h
  · exact k

theorem Keeps.when {c : Prop} [Decidable c] (h : Keeps r s) (k : Keeps r s → Keeps r t) : Keeps r (if c then t else s) :=
  .ite (k h) h

theorem Keeps.unless {c : Prop} [Decidable c] (h : Keeps r s) (k : Keeps r s → Keeps r t) : Keeps r (if c then s else t) :=
  .ite h (k h)

theorem Keeps.fork {c : Prop} [Decidable c] (h : Keeps r s) (k : Keeps r s → Keeps r t) (l : Keeps r s → Keeps r u) :
    Keeps r (if c then t else u) := .ite (k h) (l h)

theorem Keeps.foldl {α : Type} {f : State → α → State} {l : List α} (h : Keeps r s)
    (hf : ∀ {s} x, Keeps r s → Keeps r (f s x)) : Keeps r (l.foldl f s) := by
  induction l generalizing s with
  | nil => exact h
  | cons x l ih => exact ih (hf x h)

theorem KeepsOpt.some (h : Keeps r s) : KeepsOpt r (some s) := fun _ e => Option.some.inj e ▸ h

theorem KeepsOpt.none : KeepsOpt r none := fun _ e => nomatch e

theorem KeepsOpt.ite {c : Prop} [Decidable c] {o p : Option State} (h : KeepsOpt r o) (k : KeepsOpt r p) :
    KeepsOpt r (if c then o else p) := by
  split
  · exact h
  · exact k

/-- The state half of an answer that has been taken apart. -/
theorem Keeps.pair {α : Type} {p : α × State} {a : α} (h : Keeps r p.2) (e : p = (a, s)) : Keeps r s := by
  subst e; exact h

theorem Keeps.triple {α β : Type} {p : α × β × State} {a : α} {b : β} (h : Keeps r p.2.2) (e : p = (a, b, s)) :
    Keeps r s := by
  subst e; exact h

/-! ### Maps -/

theorem mapWf_nil {α : Type} [DecidableEq α] {d : Nat → α} : mapWf d [] := ⟨.nil, fun _ h => absurd h List.not_mem_nil⟩

theorem rising_map {α β : Type} {m : List (Nat × α)} (hm : m.Pairwise (fun p q => p.1 < q.1)) {f : Nat × α → Nat × β}
    (hf : ∀ e, (f e).1 = e.1) : (m.map f).Pairwise (fun p q => p.1 < q.1) :=
  List.pairwise_map.2 (hm.imp fun {a b} h => by rw [hf a, hf b]; exact h)

/-- A change of the maps that leaves them canonical. -/
theorem Keeps.remap (h : Keeps r s) (wf : s.Wf → t.Wf) (failing : s.failing = [] → t.failing = [] := by exact id)
    (outbox : t.outbox = s.outbox := by rfl) (pending : t.pending = s.pending := by rfl) (sigs : t.sigs = s.sigs := by rfl)
    (fused : t.nv.fused = s.nv.fused := by rfl) : Keeps r t where
  wf w := wf (h.wf w)
  failing e := failing (h.failing e)
  outbox := outbox ▸ h.outbox
  pending := pending.trans h.pending
  sigs := sigs.trans h.sigs
  fused := fused.trans h.fused

/-- The other parts do not depend on the fuses and the flash. -/
theorem Keeps.setNv (h : Keeps r s) (n : Nv) : Keeps { r with nv := n } { s with nv := n } where
  wf w := have w := h.wf ⟨w.regs, w.mem, w.ports, w.cores, w.sram, w.sqs, w.cqs⟩
    ⟨w.regs, w.mem, w.ports, w.cores, w.sram, w.sqs, w.cqs⟩
  failing := h.failing
  outbox := h.outbox
  pending := h.pending
  sigs := h.sigs
  fused := rfl

theorem State.Wf.setFailing (w : s.Wf) (l : List Nat) : { s with failing := l }.Wf :=
  ⟨w.regs, w.mem, w.ports, w.cores, w.sram, w.sqs, w.cqs⟩

/-- Blocks marked as ones whose write fails are so marked for a part of a command alone: `l` is what the part leaves marked. -/
theorem Keeps.marked {l m : List Nat} (h : Keeps r { s with failing := m }) (k : Keeps s t) (hl : r.failing = [] → l = []) :
    Keeps r { t with failing := l } where
  wf w := (k.wf ((h.wf w).setFailing s.failing)).setFailing l
  failing := hl
  outbox := h.outbox.trans k.outbox
  pending := k.pending.trans h.pending
  sigs := k.sigs.trans h.sigs
  fused := k.fused.trans h.fused

theorem KeepsOpt.marked {o : Option State} {l : List Nat} (h : Keeps r { s with failing := l }) (k : KeepsOpt s o) :
    KeepsOpt r (o.map fun s => { s with failing := [] }) := by
  intro u e
  obtain ⟨t, ht, rfl⟩ := Option.map_eq_some_iff.1 e
  exact h.marked (k t ht) fun _ => rfl

/-! ### Ops -/

theorem Keeps.setReg (h : Keeps r s) {a v : Nat} : Keeps r (s.setReg a v) := h.quiet (.setReg ..)

theorem Keeps.setFld (h : Keeps r s) {a lo w x : Nat} : Keeps r (s.setFld a lo w x) := h.quiet (.setFld ..)

theorem Keeps.addFld (h : Keeps r s) {a lo w n : Nat} : Keeps r (s.addFld a lo w n) := h.quiet (.addFld ..)

theorem Keeps.dropRegs (h : Keeps r s) {p : Nat → Bool} : Keeps r (s.dropRegs p) :=
  h.remap fun w => { w with regs := State.dropRegs_regsWf w.regs p }

theorem Keeps.setCfld (h : Keeps r s) {n o lo w x : Nat} : Keeps r (s.setCfld n o lo w x) := h.quiet (.setCfld ..)

theorem Keeps.addCfld (h : Keeps r s) {n o lo w x : Nat} : Keeps r (s.addCfld n o lo w x) := h.quiet (.addCfld ..)

theorem Keeps.setBu (h : Keeps r s) {v : Nat} : Keeps r (s.setBu v) := h.setFld

theorem Keeps.draw (h : Keeps r s) : Keeps r s.draw.2 := h.frame

theorem Keeps.emit (h : Keeps r s) {o : Out} : Keeps r (s.emit o) := h.quiet (.emit noReg ..)

theorem Keeps.store (h : Keeps r s) {a : Nat} {bs : List Byte} : Keeps r (s.store a bs) := h.remap (·.store a bs)

theorem Keeps.storeParts (h : Keeps r s) {a : Nat} {bs : List Byte} : Keeps r (s.storeParts a bs).2 := by
  unfold State.storeParts
  split
  · exact h.store
  · exact h.frame.foldl fun _ h => h.store

theorem Keeps.scramble (h : Keeps r s) {p : Nat → Bool} : Keeps r (s.scramble p) := h.remap (·.scramble p)

theorem Keeps.memErr (h : Keeps r s) {addr source : Nat} {scrub : Bool} : Keeps r (s.memErr addr source scrub) :=
  (h.when (·.addFld)).unless (·.setReg)

/-- Meeting a command's memory errors keeps, but for the mark of the blocks whose write fails. -/
theorem Keeps.meeting (h : Keeps r s) {m : MemMeet} : Keeps r { s.meeting m with failing := [] } :=
  (((h.unless (·.addFld)).unless (·.addFld)).unless (·.addFld)).remap
    (fun w => ⟨w.regs, w.mem, w.ports, w.cores, w.sram, w.sqs, w.cqs⟩) fun _ => rfl

theorem Keeps.meet (h : Keeps r s) {m : MemMeet} {k : State → State} (hk : ∀ {r s}, Keeps r s → Keeps r (k s)) :
    Keeps r (s.meet m k) := h.fork (fun h => hk h) fun h => h.meeting.marked (hk (.refl _)) fun _ => rfl

theorem Keeps.setMc (h : Keeps r s) {m : Mc} {v : McSt} : Keeps r (s.setMc m v) := h.quiet (.setMc noReg ..)

theorem Keeps.setLfld (h : Keeps r s) {m : Mc} {lo w x : Nat} : Keeps r (s.setLfld m lo w x) := h.setFld

theorem Keeps.ibi (h : Keeps r s) {m : Mc} {code : Nat} : Keeps r (s.ibi m code) := h.quiet (s.ibi_quiet noReg ..)

theorem Keeps.ibiBoth (h : Keeps r s) {code : Nat} : Keeps r (s.ibiBoth code) := h.quiet (s.ibiBoth_quiet noReg ..)

theorem Keeps.setPort (h : Keeps r s) {p : Nat} {v : PortSt} : Keeps r (s.setPort p v) := h.quiet (.setPort noReg ..)

/-- A core whose data SRAM is canonical. -/
theorem Keeps.setSram (h : Keeps r s) {n : Nat} {c : CoreSt} (hc : s.Wf → mapWf memDefault c.sram) :
    Keeps r (s.setCore n c) :=
  h.remap fun w => w.setCore n (hc w)

/-- A core whose data SRAM stays. -/
theorem Keeps.setCore (h : Keeps r s) {n : Nat} {c : CoreSt} (hc : c.sram = (s.core n).sram := by rfl) :
    Keeps r (s.setCore n c) := h.setSram fun w => hc ▸ w.core n

theorem Keeps.setCstate (h : Keeps r s) {n v : Nat} : Keeps r (s.setCstate n v) := h.setCfld

theorem Keeps.sramWrite (h : Keeps r s) {n off : Nat} {bs : List Byte} : Keeps r (s.sramWrite n off bs) :=
  h.remap (·.sramWrite n off bs)

theorem Keeps.pumpOnce {sr : State × Nat} (h : Keeps r sr.1) {p : Nat} : Keeps r (State.pumpOnce p sr).1 := by
  unfold State.pumpOnce
  dsimp only
  split
  · exact h
  · split
    · exact h
    · exact h.setPort.emit

theorem Keeps.sendHl (h : Keeps r s) {p : Nat} {f : HlFlit} : Keeps r (s.sendHl p f) := h.emit.setPort

theorem Keeps.pump (h : Keeps r s) {p : Nat} : Keeps r (s.pump p) := by
  have ht : Keeps r ((s.port p).txq.foldl (fun sr _ => State.pumpOnce p sr) (s, 0)).1 :=
    List.foldlRecOn (motive := fun sr : State × Nat => Keeps r sr.1) _ _ h fun _ h _ _ => h.pumpOnce
  exact ht.foldl fun _ h => h.sendHl

theorem Keeps.hlSend (h : Keeps r s) {p : Nat} {m : HlMsg} : Keeps r (s.hlSend p m) := h.setPort.pump

theorem Keeps.request (h : Keeps r s) {p op addr param : Nat} {use : ReqUse} {data : List Byte} :
    Keeps r (s.request p op addr param use data) :=
  h.setPort.hlSend

theorem Keeps.event (h : Keeps r s) {ev code core step value : Nat} : Keeps r (s.event ev code core step value) := by
  unfold State.event
  extract_lets +onlyGivenNames n
  split
  · exact h.fork (·.frame.request) (·.frame.addFld)
  · exact h.frame.addFld

theorem Keeps.firstAttr (h : Keeps r s) {n : Nat} {cs : List Instr} : Keeps r (s.firstAttr n cs).2 :=
  h.quiet (s.firstAttr_quiet noReg ..)

theorem Keeps.nextAttr (h : Keeps r s) {n : Nat} : Keeps r (s.nextAttr n).2 := h.quiet (s.nextAttr_quiet noReg ..)

theorem Keeps.haltRecord (h : Keeps r s) {n code : Nat} {own noEff : Bool} {a : Attr} :
    Keeps r (s.haltRecord n code own noEff a) :=
  h.quiet (s.haltRecord_ofCore ..)

theorem Keeps.bankRest (h : Keeps r s) {n : Nat} : Keeps r (s.bankRest n) := h.quiet (s.bankRest_ofCore ..)

theorem Keeps.showBank (h : Keeps r s) {n : Nat} : Keeps r (s.showBank n) := h.setCfld

theorem Keeps.dropWindow (h : Keeps r s) {n : Nat} : Keeps r (s.dropWindow n) := h.quiet (s.dropWindow_ofCore ..)

theorem Keeps.stopCores (h : Keeps r s) {code : Nat} : Keeps r (s.stopCores code) := h.quiet (s.stopCores_quiet ..)

theorem Keeps.recordStop (h : Keeps r s) {origin reason time : Nat} {loc : Bool} :
    Keeps r (s.recordStop origin reason time loc) :=
  h.quiet (s.recordStop_quiet ..)

theorem Keeps.sendStop (h : Keeps r s) {ports : List Nat} {origin reason time : Nat} :
    Keeps r (s.sendStop ports origin reason time) :=
  h.quiet (s.sendStop_quiet noReg ..)

theorem Keeps.setSq (h : Keeps r s) {q : Nat} {v : SqSt} : Keeps r (s.setSq q v) := h.quiet (.setSq noReg ..)

theorem Keeps.setCq (h : Keeps r s) {q : Nat} {v : CqSt} : Keeps r (s.setCq q v) := h.quiet (.setCq noReg ..)

theorem Keeps.decideDesc (h : Keeps r s) {q i code bytes : Nat} {atDl : Bool} : Keeps r (s.decideDesc q i code bytes atDl) :=
  h.quiet (s.decideDesc_quiet noReg ..)

theorem Keeps.startDesc (h : Keeps r s) {q i : Nat} : Keeps r (s.startDesc q i) := h.quiet (s.startDesc_quiet noReg ..)

theorem Keeps.dropJobDescs (h : Keeps r s) : Keeps r s.dropJobDescs := h.quiet (s.dropJobDescs_quiet noReg ..)

theorem Keeps.enterHalted (h : Keeps r s) : Keeps r s.enterHalted := h.quiet (s.enterHalted_quiet ..)

theorem Keeps.stopAsOrigin (h : Keeps r s) {reason time : Nat} : Keeps r (s.stopAsOrigin reason time) :=
  h.quiet (s.stopAsOrigin_quiet ..)

theorem Keeps.noteHalts (h : Keeps r s) : Keeps r s.noteHalts := h.quiet (s.noteHalts_quiet ..)

theorem Keeps.endHalts (h : Keeps r s) : Keeps r s.endHalts := h.when (·.noteHalts.stopAsOrigin)

theorem Keeps.raise (h : Keeps r s) {reason unit index : Nat} : Keeps r (s.raise reason unit index) :=
  h.quiet (s.raise_quiet ..)

theorem Keeps.coreHaltNow (h : Keeps r s) {a : Attr} {code : Nat} {noEff : Bool} : Keeps r (s.coreHaltNow a code noEff) :=
  h.quiet (s.coreHaltNow_quiet ..)

theorem Keeps.coreHalt (h : Keeps r s) {a : Attr} {code : Nat} {noEff : Bool} : Keeps r (s.coreHalt a code noEff) :=
  h.quiet (s.coreHalt_quiet ..)

theorem Keeps.checkFail (h : Keeps r s) {a : Attr} {code : Nat} :
    Keeps r (s.checkFail a code) := h.quiet (s.checkFail_quiet ..)

theorem Keeps.retire (h : Keeps r s) {a : Attr} : Keeps r (s.retire a) := h.setReg.setReg

theorem Keeps.followed (h : Keeps r s) {n t : Nat} : Keeps r (s.followed n t) := h.setCore

/-! ### BringUp -/

theorem Keeps.whenLive (h : Keeps r s) {f : State → State} (hf : ∀ {r s}, Keeps r s → Keeps r (f s)) :
    Answers r (s.whenLive f) :=
  h.unless fun h => hf h

theorem Keeps.loadLog (h : Keeps r s) {sites : Bool} : Keeps r (s.loadLog sites) :=
  (h.setReg.foldl fun _ h => h.setReg).when fun h => h.foldl fun _ h => h.setReg

theorem Keeps.loadFused (h : Keeps r s) {leadSel : Bool} : Keeps r (s.loadFused leadSel) := by
  unfold State.loadFused
  extract_lets nv s1 s2 s3 s4 s5 s6 s7 s8 s9 s10 en rv s11 s12 s13 s14
  have h10 : Keeps r s10 := h.setReg.setReg.setLfld.setLfld.setReg.setReg.setFld.setFld.setFld.setFld
  have h12 : Keeps r s12 := h10.setReg.setReg
  have h13 : Keeps r s13 := h12.foldl fun _ h => h.setReg
  have h14 : Keeps r s14 := h13.foldl fun _ h => h.setReg
  exact h14.loadLog

theorem Keeps.powerOn (h : Keeps r s) {leadSel a1 a0 low : Bool} : Keeps r (s.powerOn leadSel a1 a0 low) := by
  unfold State.powerOn
  refine Keeps.loadFused ?_
  constructor
  · exact fun _ => ⟨mapWf_nil, mapWf_nil, mapWf_nil, mapWf_nil, fun _ he => absurd he List.not_mem_nil, mapWf_nil, mapWf_nil⟩
  · exact fun _ => rfl
  · exact h.outbox
  · exact h.pending
  · exact h.sigs
  · exact h.fused

theorem Keeps.execVin48Valid (h : Keeps r s) {leadSel a1 a0 low : Bool} : Answers r (execVin48Valid leadSel a1 a0 low s) :=
  h.unless (·.powerOn)

theorem Keeps.execVin48Loss (h : Keeps r s) : Answers r (execVin48Loss s) :=
  h.unless fun h => (h.when (·.frame)).remap fun w =>
    ⟨w.regs, mapWf_nil, w.ports, mapWf_nil, fun _ he => absurd he List.not_mem_nil, w.sqs, w.cqs⟩

theorem Keeps.showBoot (h : Keeps r s) : Keeps r s.showBoot := by
  unfold State.showBoot
  extract_lets +onlyGivenNames fw
  clear_value fw
  split
  · exact h.frame.setFld.setFld
  · exact h

theorem Keeps.selfFail (h : Keeps r s) {m : Mc} : Keeps r (s.selfFail m) := h.setLfld.setLfld.setMc

theorem Keeps.startWhelpTraining (h : Keeps r s) {m : Mc} : Keeps r (s.startWhelpTraining m) :=
  h.foldl fun _ h => h.when (·.setFld)

theorem Keeps.execSb33Loss (h : Keeps r s) : Answers r (execSb33Loss s) :=
  h.frame.unless fun h => ((h.when fun h => (h.frame (hn := by split <;> rfl)).setReg.frame).unless
    (·.selfFail.startWhelpTraining)).unless (·.selfFail.startWhelpTraining)

theorem Keeps.execSb33Return (h : Keeps r s) : Answers r (execSb33Return s) := h.frame.unless fun h => h.foldl fun _ h => by
    split
    · exact h.setMc.emit
    · exact h

theorem Keeps.heed (h : Keeps r s) {m : Mc} : Keeps r (s.heed m) :=
  h.unless fun h => h.fork (·.setMc.setLfld) fun h => h.when (·.setMc)

theorem Keeps.execMcSelfCheckDone (h : Keeps r s) {m : Mc} {romOk sramOk : Bool} :
    Answers r (execMcSelfCheckDone m romOk sramOk s) := h.whenLive fun h => h.unless fun h => Keeps.startWhelpTraining (by
  split
  · exact h.selfFail
  · refine Keeps.heed (Keeps.setMc (Keeps.setFld ?_))
    split
    · exact h.frame
    · exact h.frame)

theorem Keeps.settleWhelp (h : Keeps r s) : Keeps r s.settleWhelp := by
  unfold State.settleWhelp
  extract_lets +onlyGivenNames settled
  refine .ite ?_ ?_
  · extract_lets +onlyGivenNames _ s s1
    have hs : Keeps r s := h.frame
    have hs1 : Keeps r s1 := by
      unfold s1
      split
      · exact hs.unless (·.setReg)
      · exact hs
    exact hs1.ibiBoth
  · exact h

theorem Keeps.makeLeader (h : Keeps r s) {m : Mc} : Keeps r (s.makeLeader m) := h.setLfld.setFld.showBoot

/-- Trimming the map of ports makes it canonical where its keys rise. -/
theorem Keeps.trimPorts (h : Keeps r { s with ports := [] }) (hp : r.Wf → s.ports.Pairwise (fun p q => p.1 < q.1)) :
    Keeps r s.trimPorts where
  wf w := have v := h.wf w
    ⟨v.regs, v.mem, ⟨(hp w).filter _, fun e he => by simpa [portDefault] using (List.mem_filter.1 he).2⟩, v.cores, v.sram,
      v.sqs, v.cqs⟩
  failing := h.failing
  outbox := h.outbox
  pending := h.pending
  sigs := h.sigs
  fused := h.fused

/-- Losing the compute part keeps everything but the canonical form of the map of ports, whose keys still rise. -/
theorem Keeps.loseCompute (h : Keeps r s) : Keeps r { s.loseCompute with ports := [] }
    ∧ (r.Wf → s.loseCompute.ports.Pairwise (fun p q => p.1 < q.1)) := by
  unfold State.loseCompute
  extract_lets +onlyGivenNames s1 s2 s3
  have h3 : Keeps r s3 := h.dropJobDescs.dropRegs.setFld
  clear_value s3
  exact ⟨h3.remap fun w => ⟨w.regs, w.mem, mapWf_nil, mapWf_nil, fun _ he => absurd he List.not_mem_nil, w.sqs, w.cqs⟩,
    fun w => rising_map (h3.wf w).ports.1 fun _ => rfl⟩

/-- A compute-part reset. -/
theorem Keeps.loseTrim (h : Keeps r s) : Keeps r s.loseCompute.trimPorts :=
  h.loseCompute.1.trimPorts h.loseCompute.2

/-- A leader conflict, through which the port dies go on with their STOPs. -/
theorem Keeps.loseKeepTrim (h : Keeps r s) : Keeps r (s.loseCompute.keepStops s).trimPorts :=
  Keeps.trimPorts h.loseCompute.1 fun w => rising_map (h.loseCompute.2 w) fun _ => rfl

theorem Keeps.enterConflict (h : Keeps r s) {m : Mc} : Keeps r (s.enterConflict m) :=
  ((h.setMc.when (·.raise)).unless (·.loseKeepTrim)).frame.setLfld.setLfld.setBu.setFld.setFld.ibi.settleWhelp

theorem Keeps.execLeaderHandshakeSignal (h : Keeps r s) {m : Mc} {sig : HsSignal} :
    Answers r (execLeaderHandshakeSignal m sig s) :=
  h.whenLive fun h => h.unless fun h => by
    split
    · exact h.when (·.setMc.heed)
    · exact h.when (·.setMc.heed)
    · exact h.when (·.makeLeader.settleWhelp)

theorem Keeps.execCandidateTimeout (h : Keeps r s) {m : Mc} : Answers r (execCandidateTimeout m s) :=
  h.whenLive fun h => h.when (·.setMc)

theorem Keeps.execLeaderConfirmTimeout (h : Keeps r s) {m : Mc} : Answers r (execLeaderConfirmTimeout m s) :=
  h.whenLive fun h => h.when (·.enterConflict)

theorem Keeps.execAliveToggle (h : Keeps r s) {m : Mc} : Answers r (execAliveToggle m s) :=
  h.whenLive fun h => h.when (·.setLfld)

theorem Keeps.execAliveTimeout (h : Keeps r s) {m : Mc} : Answers r (execAliveTimeout m s) :=
  h.whenLive fun h => h.setLfld.when (·.enterConflict)

theorem Keeps.endConflict (h : Keeps r s) : Keeps r s.endConflict := h.when (·.setLfld.setLfld.setFld)

theorem Keeps.leadForce (h : Keeps r s) {m : Mc} {v : Nat} : Keeps r (s.leadForce m v) :=
  h.fork (fun h => ((show Keeps r _ by cases m <;> exact h.frame).setLfld.fork (·.makeLeader) (·.setLfld.setMc)).endConflict)
    (·.setLfld)

theorem Keeps.execMcLeadForce (h : Keeps r s) {m : Mc} {v : W64} :
    Answers r (execMcLeadForce m v s) := h.whenLive (·.leadForce)

theorem Keeps.execBringUpChannelLoss (h : Keeps r s) : Answers r (execBringUpChannelLoss s) := h.whenLive (·.frame)

theorem Keeps.cmdRej (h : Keeps r s) : Keeps r s.cmdRej := h.setFld

theorem Keeps.inspectStop (h : Keeps r s) {code : Nat} : Keeps r (s.inspectStop code) := h.setFld.setFld

theorem Keeps.inspectJudge (h : Keeps r s) {f : Findings} {i : FwInfo} : Keeps r (s.inspectJudge f i) :=
  (h.frame.frame.loadLog.setReg.setReg.setReg.foldl fun _ h => h.setReg.setReg).fork (·.inspectStop) fun h =>
    h.fork (·.inspectStop) fun h => h.fork (·.inspectStop) (·.setFld.setBu)

theorem Keeps.configDdr (h : Keeps r s) {mods : List (Option DdrModule)} : Keeps r (s.configDdr mods) := by
  unfold State.configDdr
  refine .ite h ?_
  extract_lets +onlyGivenNames ok
  clear_value ok
  split
  · exact h.setReg
  · exact h.setReg.event

theorem Keeps.inspectStart (h : Keeps r s) {full : Bool} : Keeps r (s.inspectStart full) :=
  h.dropRegs.loadLog.setBu.setFld.setFld.setFld.frame

theorem Keeps.trainHbm (h : Keeps r s) {failing absent : List Nat} : Keeps r (s.trainHbm failing absent) := h.setReg.frame

theorem Keeps.inspectRest (h : Keeps r s) {full : Bool} {f : Findings} : Keeps r (s.inspectRest full f) := by
  unfold State.inspectRest
  refine .ite ?_ ?_
  · extract_lets +onlyGivenNames region
    split
    · exact h.inspectStop
    · exact h.inspectStop
    · exact h.frame.setFld.inspectJudge
  · split
    · exact h.fork (·.inspectJudge) (·.inspectStop)
    · exact h.inspectStop

theorem Keeps.inspectRun (h : Keeps r s) {full : Bool} {f : Findings} : Keeps r (s.inspectRun full f) :=
  h.inspectStart.fork (·.inspectStop) fun h => h.frame.trainHbm.fork (·.inspectStop) fun h =>
    (h.when (·.configDdr.frame)).inspectRest

theorem Keeps.execInspect (h : Keeps r s) {f : Findings} : Answers r (execInspect f s) := h.whenLive fun h => by
    split
    · exact h.inspectRun
    · exact h.cmdRej
    · exact h.fork (·.inspectRun) (·.cmdRej)

theorem Keeps.commitMap (h : Keeps r s) {all : List Nat} : Keeps r (s.commitMap all) :=
  (h.frame.foldl fun _ h => h.setCstate.setReg).setBu

theorem Keeps.commit (h : Keeps r s) : Keeps r s.commit := by
  unfold State.commit
  extract_lets +onlyGivenNames all
  split
  · exact h.setReg
  · exact h.commitMap

theorem Keeps.execCommit (h : Keeps r s) : Answers r (execCommit s) := h.whenLive fun h => h.fork (·.commit) (·.cmdRej)

theorem Keeps.enterRun (h : Keeps r s) : Keeps r s.enterRun := (h.setFld.foldl fun _ h => h.setCore).frame.setBu

theorem Keeps.execRun (h : Keeps r s) : Answers r (execRun s) := h.whenLive fun h => h.fork (·.enterRun) (·.cmdRej)

theorem Keeps.showFreq (h : Keeps r s) : Keeps r s.showFreq := h.foldl fun _ h => h.setCfld

theorem Keeps.execJobStart (h : Keeps r s) : Answers r (execJobStart s) :=
  h.whenLive fun h => h.when fun h => (h.frame.foldl fun _ h => h.setCore.showBank.setCstate).showFreq

theorem Keeps.hostStop (h : Keeps r s) : Keeps r s.hostStop := h.fork (·.raise) (·.cmdRej)

theorem Keeps.execStop (h : Keeps r s) : Answers r (execStop s) := h.whenLive (·.hostStop)

theorem Keeps.computeReset (h : Keeps r s) {full : Bool} {f : Findings} : Keeps r (s.computeReset full f) :=
  h.loseTrim.frame.inspectRun

theorem Keeps.execReset (h : Keeps r s) {full : Bool} {f : Findings} : Answers r (execReset full f s) :=
  h.whenLive fun h => by
    split
    · exact h.fork (·.frame.setFld.cmdRej) (·.computeReset)
    · exact h.cmdRej
    · exact h.fork (·.computeReset) (·.cmdRej)

theorem Keeps.buCtrl (h : Keeps r s) {v : Nat} : Keeps r (s.buCtrl v) :=
  h.fork (·.cmdRej) fun h =>
  h.fork (fun h => h.fork (·.frame.setFld.setBu) (·.cmdRej)) fun h =>
  h.fork (fun h => h.fork (·.commit) (·.cmdRej)) fun h =>
  h.fork (fun h => h.fork (·.enterRun) (·.cmdRej)) fun h =>
  h.fork (·.hostStop) fun h =>
  h.fork (fun h => h.fork (·.frame.setFld) (·.cmdRej)) (·.cmdRej)

/-! ### Fabric -/

theorem Keeps.fillOnce (h : Keeps r s) {p b : Nat} : Keeps r (s.fillOnce p b) := by
  unfold State.fillOnce
  extract_lets +onlyGivenNames v a
  refine .ite h ?_
  extract_lets +onlyGivenNames nak e idle
  have hidle : ∀ e, Keeps r (idle e) := fun _ => h.setPort.emit
  split
  · exact h.setPort.emit
  · refine .ite (.ite (hidle _) (.ite h.setPort.emit ?_)) (hidle _)
    split
    · exact h.setPort.emit
    · exact h

theorem Keeps.fillTo (h : Keeps r s) {p b k : Nat} : Keeps r (s.fillTo p b k) := by
  induction k generalizing s with
  | zero => exact h
  | succ k ih => exact ih h.fillOnce

theorem Keeps.fillPort (h : Keeps r s) {p b : Nat} : Keeps r (s.fillPort p b) := h.fillTo.setPort

theorem Keeps.passSlots (h : Keeps r s) {t : Nat} : Keeps r (s.passSlots t) := h.foldl fun _ h => h.fillPort

theorem Keeps.silent (h : Keeps r s) {n : Nat} : Keeps r (s.silent n) := h.foldl fun _ h => h.setPort

theorem Keeps.advanceTo (h : Keeps r s) {t : Nat} : Keeps r (s.advanceTo t) := h.when (·.passSlots.setReg.silent)

theorem Keeps.portDown (h : Keeps r s) {p : Nat} : Keeps r (s.portDown p) := h.setPort.setFld.setFld.setFld.when (·.raise)

theorem Keeps.trainPort (h : Keeps r s) {p : Nat} : Keeps r (s.trainPort p) :=
  h.unless fun h => (h.unless (·.portDown)).setPort.setFld

theorem Keeps.execTrain (h : Keeps r s) {p : Nat} : Answers r (execTrain p s) := h.whenLive (·.trainPort)

theorem Keeps.portModeWrite (h : Keeps r s) {p v : Nat} : Keeps r (s.portModeWrite p v) :=
  (h.when (·.setFld)).fork (·.setFld) fun h => (h.unless fun h => (h.unless (·.portDown)).setFld.frame).when (·.trainPort)

theorem Keeps.execPortModeWrite (h : Keeps r s) {p : Nat} {v : W64} : Answers r (execPortModeWrite p v s) :=
  h.whenLive fun h => h.when (·.portModeWrite)

theorem Keeps.trainFail (h : Keeps r s) {p : Nat} : Keeps r (s.trainFail p) := h.setFld.setFld.setFld

theorem Keeps.execTrainingTimeout (h : Keeps r s) {p : Nat} : Answers r (execTrainingTimeout p s) :=
  h.whenLive fun h => h.when (·.trainFail)

theorem Keeps.portToUp (h : Keeps r s) {p : Nat} : Keeps r (s.portToUp p) := h.setPort.setFld.settleWhelp.pump

theorem Keeps.trainTo (h : Keeps r s) {p n : Nat} : Keeps r (s.trainTo p n) :=
  h.setFld.fork (·.emit) fun h => h.when fun h => h.fork (·.emit) (·.emit)

theorem Keeps.trainStep (h : Keeps r s) {p : Nat} {i : TrainInfo} : Keeps r (s.trainStep p i) :=
  h.fork (·.trainTo) fun h => h.fork (·.trainTo) fun h => h.fork
    (fun h => h.fork (fun h => h.fork (·.trainFail) (·.setFld.trainTo)) fun h => h.fork (·.setFld.trainTo) (·.trainFail))
    fun h => h.fork (·.setReg.trainTo) fun h => h.when fun h => (h.fork (·.setPort) (·.setReg)).portToUp

theorem Keeps.execTrainingStateComplete (h : Keeps r s) {p : Nat} {i : TrainInfo} :
    Answers r (execTrainingStateComplete p i s) :=
  h.whenLive fun h => h.when (·.trainStep)

theorem Keeps.execFecLockLoss (h : Keeps r s) {p lane : Nat} : Answers r (execFecLockLoss p lane s) :=
  h.whenLive fun h => h.when (·.portDown)

theorem Keeps.execRefclkFabStop (h : Keeps r s) {half : Nat} : Answers r (execRefclkFabStop half s) :=
  h.whenLive fun h => h.foldl fun _ h => h.unless (·.portDown)

theorem Keeps.execLinkSilence (h : Keeps r s) {p : Nat} : Answers r (execLinkSilence p s) :=
  h.whenLive fun h => h.when (·.portDown)

theorem Keeps.loseLock (h : Keeps r s) {phase : Int} :
    Keeps r (s.loseLock phase) := h.setFld.setFld.setFld.frame.when (·.raise)

theorem Keeps.measure (h : Keeps r s) {p : Nat} {f : Flit} {x : Arrival} : Keeps r (s.measure p f x) :=
  h.unless fun h => h.frame.fork (·.loseLock) (·.setFld)

theorem Keeps.showStretch (h : Keeps r s) : Keeps r s.showStretch := by
  unfold State.showStretch
  extract_lets +onlyGivenNames t s ahead
  have hs : Keeps r s := h.setFld
  clear_value ahead
  split
  · exact hs.setReg
  · exact hs.setReg

theorem Keeps.adopt (h : Keeps r s) {ago : Nat} {a : Announce} : Keeps r (s.adopt ago a) := by
  unfold State.adopt
  split
  · exact h
  · exact (h.foldl fun _ h => h.setPort).setReg.setReg.frame.setReg.frame.showStretch

theorem Keeps.execPacktimeLock (h : Keeps r s) {phase : Int} : Answers r (execPacktimeLock phase s) :=
  h.whenLive fun h => h.when fun h => h.fork (·.frame.setFld.setFld) fun h => by
    split
    · exact h.adopt.frame.setFld.setFld
    · exact h

theorem Keeps.execPacktimeLockLost (h : Keeps r s) {phase : Int} : Answers r (execPacktimeLockLost phase s) :=
  h.whenLive fun h => h.when (·.loseLock)

theorem Keeps.queueAnn (h : Keeps r s) {p : Nat} {a : Announce} : Keeps r (s.queueAnn p a) := h.setPort

theorem Keeps.enterAnn (h : Keeps r s) {be sv : Nat} : Keeps r (s.enterAnn be sv) :=
  (h.frame.foldl fun _ h => h.queueAnn).showStretch

theorem Keeps.oweTime (h : Keeps r s) : Keeps r s.oweTime := h.when fun h => h.foldl fun _ h => h.setPort

theorem Keeps.stretchReq (h : Keeps r s) {be sv : Nat} : Keeps r (s.stretchReq be sv) :=
  h.fork (·.setFld) fun h => h.unless (·.enterAnn)

theorem Keeps.execPfStretchReq (h : Keeps r s) {v : W64} : Answers r (execPfStretchReq v s) := h.whenLive (·.stretchReq)

theorem Keeps.stretchArrives (h : Keeps r s) {p be sv : Nat} : Keeps r (s.stretchArrives p be sv) :=
  h.unless fun h => h.fork (fun h => h.fork (·.raise) (·.setFld)) (·.enterAnn)

theorem Keeps.goodFlit (h : Keeps r s) {p : Nat} {hold : Bool} : Keeps r (s.goodFlit p hold) := h.setPort.setFld

theorem Keeps.putFlit (h : Keeps r s) {p q : Nat} {f : Flit} : Keeps r (s.putFlit p q f) := h.setPort.emit

theorem Keeps.sendData (h : Keeps r s) {p q : Nat} {f : Flit} : Keeps r (s.sendData p q f) := h.setPort.putFlit

theorem Keeps.slotMissed (h : Keeps r s) {unit index : Nat} : Keeps r (s.slotMissed unit index) := h.unless (·.raise)

theorem Keeps.sendSlot (h : Keeps r s) {p q : Nat} {data : Option Flit} : Keeps r (s.sendSlot p q data) := by
  unfold State.sendSlot
  extract_lets +onlyGivenNames v
  refine .ite (h.unless (·.raise)) (.ite h ?_)
  split
  · exact h.sendData
  · exact h.slotMissed

theorem Keeps.served (h : Keeps r s) {p q : Nat} : Keeps r (s.served p q) := h.setPort

theorem Keeps.forwardNext (h : Keeps r s) {p : Nat} : Keeps r (s.forwardNext p) := by
  unfold State.forwardNext
  split
  · exact h
  · exact h.advanceTo.served.frame.when (·.sendSlot)

theorem Keeps.nakArrives (h : Keeps r s) {p stamp : Nat} : Keeps r (s.nakArrives p stamp) := by
  unfold State.nakArrives
  extract_lets +onlyGivenNames v
  split
  · exact h
  · exact h.unless (·.setPort)

theorem Keeps.execNakReceive (h : Keeps r s) {p stamp : Nat} : Answers r (execNakReceive p stamp s) :=
  h.whenLive fun h => h.when (·.nakArrives)

theorem Keeps.nakOf (h : Keeps r s) {p : Nat} {f : Flit} : Keeps r (s.nakOf p f) := h.when (·.nakArrives)

theorem Keeps.resendIn (h : Keeps r s) {p sp : Nat} {x : SentFlit} : Keeps r (s.resendIn p sp x) := by
  unfold State.resendIn
  split
  · exact h.putFlit
  · exact h.setPort.emit

theorem Keeps.txDone (h : Keeps r s) {p q : Nat} : Keeps r (s.txDone p q) := h.setPort

theorem Keeps.expectResend (h : Keeps r s) {p q : Nat} : Keeps r (s.expectResend p q) := h.unless (·.setPort)

theorem Keeps.rxDone (h : Keeps r s) {p q : Nat} : Keeps r (s.rxDone p q) := h.setPort

theorem Keeps.retryFails (h : Keeps r s) {p q : Nat} : Keeps r (s.retryFails p q) := h.rxDone.raise

theorem Keeps.failedFlit (h : Keeps r s) {p q : Nat} : Keeps r (s.failedFlit p q) := by
  unfold State.failedFlit
  extract_lets +onlyGivenNames s
  have hs : Keeps r s := h.addFld
  refine .ite hs ?_
  extract_lets +onlyGivenNames a stamp v s
  have hs : Keeps r s := hs.setPort
  refine .ite hs ?_
  split
  · exact hs.retryFails
  · exact hs.expectResend

theorem Keeps.execFailedFlitReceive (h : Keeps r s) {p q : Nat} : Answers r (execFailedFlitReceive p q s) :=
  h.whenLive fun h => h.when (·.failedFlit)

theorem Keeps.holdData (h : Keeps r s) {p q : Nat} {f : Flit} : Keeps r (s.holdData p q f) := by
  unfold State.holdData
  split
  · exact h.raise
  · refine .ite h.raise ?_
    split
    · exact h.raise
    · exact h.fork (·.frame) (·.raise)

theorem Keeps.noData (h : Keeps r s) {p q : Nat} : Keeps r (s.noData p q) := h.when (·.slotMissed)

theorem Keeps.otherFlit (h : Keeps r s) {p q : Nat} {f : Flit} : Keeps r (s.otherFlit p q f) := by
  unfold State.otherFlit
  refine .ite h ?_
  split
  · exact h.fork (·.rxDone.noData) (·.retryFails)
  · exact h.noData

theorem Keeps.dataArrives (h : Keeps r s) {p q : Nat} {f : Flit} : Keeps r (s.dataArrives p q f) := by
  unfold State.dataArrives
  refine .ite h ?_
  split
  · exact h.fork (·.rxDone.holdData) (·.retryFails)
  · exact h.holdData

theorem Keeps.rx (h : Keeps r s) {p q : Nat} {f : Flit} {x : Arrival} {hold : Bool} {k : State → State}
    (hk : ∀ {r s}, Keeps r s → Keeps r (k s)) : Keeps r (s.rx p q f x hold k) :=
  h.unless fun h => (h.when (·.addFld)).fork (fun h => hk h.goodFlit.nakOf.measure) (·.failedFlit)

theorem Keeps.execDataFlitReceive (h : Keeps r s) {p q : Nat} {f : Rx} : Answers r (execDataFlitReceive p q f s) :=
  h.whenLive fun h => h.rx fun h => h.fork (·.dataArrives) (·.otherFlit)

theorem Keeps.execIdleFlitReceive (h : Keeps r s) {p q : Nat} {f : Rx} : Answers r (execIdleFlitReceive p q f s) :=
  h.whenLive fun h => h.rx (·.otherFlit)

theorem Keeps.execIdleHoldReceive (h : Keeps r s) {p : Nat} {f : SlotRx} : Answers r (execIdleHoldReceive p f s) :=
  h.whenLive fun h => h.rx (·.otherFlit)

theorem Keeps.announced (h : Keeps r s) {p : Nat} {a : Announce} : Keeps r (s.announced p a) := by
  unfold State.announced
  split
  · exact h.stretchArrives
  · exact h.when (·.frame)

theorem Keeps.execAnnounceFlitReceive (h : Keeps r s) {p : Nat} {f : AnnRx} : Answers r (execAnnounceFlitReceive p f s) :=
  h.whenLive fun h => h.rx (·.otherFlit.announced)

theorem Keeps.forwardStop (h : Keeps r s) {p origin reason time : Nat} : Keeps r (s.forwardStop p origin reason time) :=
  h.sendStop.frame

theorem Keeps.peerStopped (h : Keeps r s) {p origin : Nat} : Keeps r (s.peerStopped p origin) := h.setPort

theorem Keeps.stopArrives (h : Keeps r s) {p origin reason time : Nat} : Keeps r (s.stopArrives p origin reason time) :=
  h.setFld.peerStopped.unless fun h => h.endHalts.forwardStop.recordStop.when (·.frame.stopCores.enterHalted)

theorem Keeps.execStopFlitReceive (h : Keeps r s) {p q : Nat} {f : Rx} {m : StopMsg} :
    Answers r (execStopFlitReceive p q f m s) :=
  h.whenLive fun h => h.rx (·.otherFlit.stopArrives)

/-! ### Tensors -/

theorem Keeps.bindScale (h : Keeps r s) {t : Tensor} {v : Nat} : Keeps r (s.bindScale t v) := h.when (·.frame)

theorem Keeps.notePrint (h : Keeps r s) {shard st : Nat} {v : W64} : Keeps r (s.notePrint shard st v) := h.frame

/-! ### Reduce -/

theorem Keeps.backlog (h : Keeps r s) {stack : Nat} : Keeps r (s.backlog stack) := h.setFld

theorem Keeps.holdReduce (h : Keeps r s) {h' : Held} {c : Stream} : Keeps r (s.holdReduce h' c) :=
  h.foldl fun _ h => h.frame.backlog

theorem Keeps.setColl (h : Keeps r s) {c : CollSt} : Keeps r (s.setColl c) := h.frame

theorem Keeps.contributeVals (h : Keeps r s) {id : Nat} {stream : Option Nat} {vs : List CVal} :
    Keeps r (s.contributeVals id stream vs) :=
  h.setColl

theorem Keeps.toEndpoint (h : Keeps r s) {h' : Held} {c : Stream} : Keeps r (s.toEndpoint h' c) :=
  h.fork (fun h => h.unless (·.setCore)) fun h => h.fork (·.frame) fun h => h.fork (·.holdReduce) (·.contributeVals)

theorem Keeps.handOver (h : Keeps r s) {h' : Held} : Keeps r (s.handOver h') := by
  unfold State.handOver
  split
  · exact h.frame.toEndpoint
  · exact h

theorem Keeps.flitDeliver (h : Keeps r s) {stream seq : Nat} : Keeps r (s.flitDeliver stream seq) := by
  unfold State.flitDeliver
  split
  · exact h.advanceTo.handOver
  · exact h

theorem Keeps.memFault (h : Keeps r s) {a : Nat} : Keeps r (s.memFault a) := h.memErr.raise

theorem Keeps.reprint (h : Keeps r s) {a n : Nat} : Keeps r (s.reprint a n) := by
  unfold State.reprint
  split
  · exact h
  · exact h.foldl fun _ h => h.unless fun h => h.foldl fun _ h => h.foldl fun _ h => by
      split
      · exact h.when (·.notePrint.bindScale)
      · exact h

theorem Keeps.placeArrive (h : Keeps r s) {h' : Held} {c : Stream} : Keeps r (s.placeArrive h' c) := by
  unfold State.placeArrive
  extract_lets +onlyGivenNames a
  split
  · exact (h.storeParts.pair ‹_›).memFault
  · exact (h.storeParts.pair ‹_›).reprint

theorem Keeps.reduceFlit (h : Keeps r s) {c : Stream} {h' : Held} {stack : Nat} : Keeps r (s.reduceFlit c h' stack) := by
  unfold State.reduceFlit
  split
  · exact h
  · exact h.foldl fun _ h => by
      split
      · exact h.memFault
      · split
        · exact (h.storeParts.pair ‹_›).memFault
        · exact (h.storeParts.pair ‹_›)

theorem Keeps.reduceApply (h : Keeps r s) {stack : Nat} : Keeps r (s.reduceApply stack) := by
  unfold State.reduceApply
  split
  · exact h
  · extract_lets +onlyGivenNames s _ s'
    have hs : Keeps r s := h.advanceTo
    have hs' : Keeps r s' := hs.frame
    split
    · exact hs'.reduceFlit
    · exact hs'

theorem Keeps.settleReduce (h : Keeps r s) : Keeps r s.settleReduce := h.foldl fun _ h => h.foldl fun _ h => by
    split
    · exact h.when (·.reduceApply)
    · exact h

theorem Keeps.normPass (h : Keeps r s) {i : CollInst} : Keeps r (s.normPass i) := by
  unfold State.normPass
  refine .ite ?_ ?_
  · extract_lets +onlyGivenNames s
    have hs : Keeps r s := h.settleReduce
    split
    · exact hs.memFault
    · exact hs
  · exact h

theorem Keeps.takeSend (h : Keeps r s) {p q : Nat} {r' : Run} {seq : Nat} : Keeps r (s.takeSend p q r' seq).2 := by
  unfold State.takeSend
  split
  · split
    · exact h.frame
    · exact h
  · split
    · exact h
    · split
      · dsimp only
        split
        · exact h.normPass
        · exact h
      · split
        · exact h.frame
        · exact h

theorem Keeps.nextSlotSend (h : Keeps r s) {p : Nat} : Keeps r (s.nextSlotSend p) := by
  unfold State.nextSlotSend
  split
  · exact h
  · split
    · exact h
    · exact h.advanceTo.served.takeSend.when (·.sendSlot)

theorem Keeps.lastSend (h : Keeps r s) {i : CollInst} : Keeps r (s.lastSend i) :=
  (h.advanceTo.normPass.contributeVals.when (·.frame)).when (·.slotMissed)

theorem Keeps.answerSnap (h : Keeps r s) : Keeps r s.answerSnap := h.frame.foldl fun _ h => h.decideDesc

theorem Keeps.statusResult (h : Keeps r s) {kind : Nat} {vs : List CVal} : Keeps r (s.statusResult kind vs) :=
  h.fork (fun h => (h.when (·.answerSnap)).frame) fun h => h.when (·.frame)

theorem Keeps.normResult (h : Keeps r s) {kind : Nat} {vs : List CVal} : Keeps r (s.normResult kind vs) :=
  h.fork (·.frame) fun h => h.fork (·.frame) fun h => h.when (·.frame)

theorem Keeps.maximaResult (h : Keeps r s) {tensor : Nat} {v : W32} : Keeps r (s.maximaResult tensor v) := by
  unfold State.maximaResult
  split
  · exact h.unless fun h => h.fork (·.frame) (·.frame)
  · exact h

theorem Keeps.diverge (h : Keeps r s) {shard ref step die : Nat} {mine theirs : W64} :
    Keeps r (s.diverge shard ref step die mine theirs) :=
  (h.unless (·.setReg.setReg.setReg.setReg)).raise

theorem Keeps.printResult (h : Keeps r s) {die : Nat} {vs : List CVal} : Keeps r (s.printResult die vs) := by
  unfold State.printResult
  split
  · exact h
  · exact h.foldl fun _ h => by
      split
      · split
        · exact h.unless fun h => h.addFld.fork (·.frame) (·.diverge)
        · exact h
      · exact h

theorem Keeps.collDeliver (h : Keeps r s) {i : CollInst} : Keeps r (s.collDeliver i) := by
  unfold State.collDeliver
  extract_lets +onlyGivenNames s
  have hs : Keeps r s := h.advanceTo
  refine .ite hs ?_
  extract_lets +onlyGivenNames vs res use die s
  have hs : Keeps r s := hs.setColl
  clear_value use
  split
  · exact hs.statusResult
  · exact hs.normResult
  · exact hs.frame
  · exact hs.maximaResult
  · exact hs.printResult
  · exact hs

/-! ### Hostlink -/

theorem Keeps.answerHl (h : Keeps r s) {p : Nat} {news : Bool} : Keeps r (s.answerHl p news) := h.pump.when (·.sendHl)

theorem Keeps.execHostlinkFlitReceive (h : Keeps r s) {p type lseq : Nat} {ack : Nat × Bool} {nak : Bool} {credit : Nat}
    {b : HlBody} :
    Answers r (execHostlinkFlitReceive p type lseq ack nak credit b s) :=
  h.whenLive fun h => h.unless fun h => (h.when (·.addFld)).fork (·.setPort.answerHl) (·.setPort.addFld.answerHl)

theorem Keeps.execReplay (h : Keeps r s) {p : Nat} : Answers r (execReplay p s) :=
  h.whenLive fun h => h.unless fun h => h.fork (·.portDown) fun h => (h.setPort.foldl fun _ h => h.sendHl).addFld

theorem Keeps.showLines (h : Keeps r s) : Keeps r s.showLines := h.setFld

theorem Keeps.dropLine (h : Keeps r s) {p a : Nat} : Keeps r (s.dropLine p a) := h.setPort.showLines

theorem Keeps.putLine (h : Keeps r s) {p : Nat} {l : Line} : Keeps r (s.putLine p l) := h.setPort.showLines

theorem Keeps.readLine (h : Keeps r s) {p op a : Nat} {u : LineUse} : Keeps r (s.readLine p op a u) := h.unless (·.request)

theorem Keeps.respond (h : Keeps r s) {p op tag a : Nat} {data : List Byte} : Keeps r (s.respond p op tag a data) := h.hlSend

theorem Keeps.snooped (h : Keeps r s) {p : Nat} : Keeps r (s.snooped p) := h.draw.addFld.setFld

theorem Keeps.markStale (h : Keeps r s) {p a : Nat} : Keeps r (s.markStale p a) := h.setPort

theorem Keeps.snpInv (h : Keeps r s) {p tag a : Nat} : Keeps r (s.snpInv p tag a) := by
  unfold State.snpInv
  split
  · exact h.snooped.markStale.respond
  · exact (h.snooped.dropLine.fork (·.respond) (·.respond)).when (·.readLine)

theorem Keeps.execSnpInv (h : Keeps r s) {p tag a : Nat} : Answers r (execSnpInv p tag a s) :=
  h.whenLive fun h => h.when (·.snpInv)

theorem Keeps.snpData (h : Keeps r s) {p tag a : Nat} : Keeps r (s.snpData p tag a) := by
  unfold State.snpData
  split
  · exact h.snooped.markStale.respond
  · exact h.fork (·.snooped.putLine.respond) (·.snooped.respond)

theorem Keeps.execSnpData (h : Keeps r s) {p tag a : Nat} : Answers r (execSnpData p tag a s) :=
  h.whenLive fun h => h.when (·.snpData)

theorem Keeps.armLine (h : Keeps r s) {p op a : Nat} {u : LineUse} : Keeps r (s.armLine p op a u) := h.unless (·.readLine)

theorem Keeps.evict (h : Keeps r s) {p a : Nat} : Keeps r (s.evict p a) := by
  unfold State.evict
  split
  · exact h.unless (·.request)
  · exact h

theorem Keeps.restReport (h : Keeps r s) {q : Nat} : Keeps r (s.restReport q) := by
  unfold State.restReport
  split
  · exact h.when (·.evict)
  · exact h

theorem Keeps.report (h : Keeps r s) {q : Nat} : Keeps r (s.report q) := by
  unfold State.report
  split
  · exact h
  · extract_lets +onlyGivenNames a
    refine .ite h ?_
    extract_lets +onlyGivenNames s
    have hs : Keeps r s := by
      unfold s
      split
      · exact h.fork (·.putLine) (·.dropLine.readLine)
      · exact h.readLine
    exact hs.restReport

theorem Keeps.wake (h : Keeps r s) {c : Nat} : Keeps r (s.wake c) := by
  unfold State.wake
  extract_lets +onlyGivenNames v count
  refine .ite ?_ ?_
  · split
    · exact h.setCq.request
    · exact h
  · exact h

theorem Keeps.writeRecord (h : Keeps r s) {c : Nat} {use : ReqUse} {wakeNow : Bool} {r' : List Byte} :
    Keeps r (s.writeRecord c use wakeNow r') := by
  unfold State.writeRecord
  split
  · exact h
  · exact h.setCq.request

theorem Keeps.postSteps (h : Keeps r s) : Keeps r s.postSteps := h.unless fun h => h.foldl fun _ h => by
    split
    · exact h.when (·.frame.writeRecord)
    · exact h

theorem Keeps.queueStep (h : Keeps r s) {r' : List Byte} : Keeps r (s.queueStep r') :=
  h.unless fun h => h.frame.postSteps.when (·.frame.raise)

theorem Keeps.stepAcked (h : Keeps r s) {step : Nat} : Keeps r (s.stepAcked step) :=
  h.frame.foldl fun _ h => h.foldl fun _ h => h.decideDesc

theorem Keeps.descArrives (h : Keeps r s) {q i status : Nat} {data : List Byte} : Keeps r (s.descArrives q i status data) :=
  h.setSq.report

theorem Keeps.lineCount (h : Keeps r s) {u : LineUse} {data : List Byte} : Keeps r (s.lineCount u data) := by
  unfold State.lineCount
  extract_lets +onlyGivenNames c
  split
  · exact h.setSq
  · exact h.setCq.postSteps
  · exact h.frame
  · exact h

theorem Keeps.lineArrives (h : Keeps r s) {p : Nat} {r' : Req} {u : LineUse} {param : Nat} {data : List Byte} :
    Keeps r (s.lineArrives p r' u param data) := by
  unfold State.lineArrives
  extract_lets +onlyGivenNames s
  have hs : Keeps r s := h.lineCount
  refine .ite hs.readLine (.ite hs.putLine (.ite ?_ ?_))
  · extract_lets +onlyGivenNames s
    have hs : Keeps r s := hs.putLine
    split
    · exact hs.restReport
    · exact hs
  · exact hs

theorem Keeps.rearm (h : Keeps r s) {p a : Nat} {u : LineUse} : Keeps r (s.rearm p a u) := by
  unfold State.rearm
  split
  · exact h.when (·.readLine)
  · exact h.when (·.readLine)
  · exact h.when (·.readLine)
  · exact h.when (·.readLine)

theorem Keeps.execHData (h : Keeps r s) {p tag param status : Nat} {data : List Byte} :
    Answers r (execHData p tag param status data s) := h.whenLive fun h => h.unless fun h => by
  split
  · exact h
  · dsimp only
    split
    · exact h.setPort.lineArrives
    · exact h.setPort.descArrives
    · exact h.setPort

theorem Keeps.cfgFields (h : Keeps r s) {a w v : Nat} : Keeps r (s.cfgFields a w v) := (h.when (·.setFld)).setFld

theorem Keeps.sqCfg (h : Keeps r s) {q v : Nat} : Keeps r (s.sqCfg q v) := by
  unfold State.sqCfg
  extract_lets +onlyGivenNames a
  refine .ite ?_ ?_
  · refine .ite h ?_
    extract_lets +onlyGivenNames p s
    have hs : Keeps r s := h.cfgFields.setFld
    clear_value p
    split
    · exact hs.evict.restReport
    · exact hs
  · extract_lets +onlyGivenNames s
    have hs : Keeps r s := h.cfgFields
    refine .ite hs (.ite ?_ ?_)
    · extract_lets +onlyGivenNames s
      have hs : Keeps r s := hs.setFld.setSq
      split
      · exact hs.armLine.report
      · exact hs
    · exact hs.setFld

theorem Keeps.execHlSqCfgWrite (h : Keeps r s) {q : Nat} {v : W64} : Answers r (execHlSqCfgWrite q v s) :=
  h.whenLive fun h => h.when (·.sqCfg)

theorem Keeps.cqCfg (h : Keeps r s) {q v : Nat} : Keeps r (s.cqCfg q v) := by
  unfold State.cqCfg
  extract_lets +onlyGivenNames a
  refine .ite ?_ ?_
  · refine .ite h ?_
    extract_lets +onlyGivenNames p s
    have hs : Keeps r s := h.cfgFields.setFld
    clear_value p
    split
    · exact hs.evict
    · exact hs
  · extract_lets +onlyGivenNames s
    have hs : Keeps r s := h.cfgFields
    refine .ite hs (.ite ?_ ?_)
    · extract_lets +onlyGivenNames s
      have hs : Keeps r s := hs.setFld.setCq
      split
      · exact hs.armLine.postSteps
      · exact hs
    · exact hs.setFld

theorem Keeps.execHlCqCfgWrite (h : Keeps r s) {q : Nat} {v : W64} : Answers r (execHlCqCfgWrite q v s) :=
  h.whenLive fun h => h.when (·.cqCfg)

theorem Keeps.evqCfg (h : Keeps r s) {v : Nat} : Keeps r (s.evqCfg v) := by
  unfold State.evqCfg
  extract_lets +onlyGivenNames a
  refine .ite ?_ ?_
  · refine .ite h ?_
    extract_lets +onlyGivenNames p s
    have hs : Keeps r s := h.cfgFields.setFld
    clear_value p
    split
    · exact hs.evict
    · exact hs
  · extract_lets +onlyGivenNames s
    have hs : Keeps r s := h.cfgFields
    refine .ite hs (.ite ?_ ?_)
    · extract_lets +onlyGivenNames s _ s1
      have hs : Keeps r s := hs.setFld
      have hs1 : Keeps r s1 := hs.frame
      split
      · exact hs1.armLine
      · exact hs1
    · exact hs.setFld

theorem Keeps.execHlEvqCfgWrite (h : Keeps r s) {v : W64} : Answers r (execHlEvqCfgWrite v s) := h.whenLive (·.evqCfg)

theorem Keeps.execDescFetch (h : Keeps r s) {q : Nat} : Answers r (execDescFetch q s) := h.whenLive fun h => by
    split
    · exact h.when (·.setSq.setCq.request)
    · exact h

theorem Keeps.finish (h : Keeps r s) {q i code bytes : Nat} : Keeps r (s.finish q i code bytes) := by
  unfold State.finish
  split
  · exact h.startDesc.decideDesc
  · exact h

theorem Keeps.landDesc (h : Keeps r s) {q i bytes : Nat} : Keeps r (s.landDesc q i bytes) := by
  unfold State.landDesc
  split
  · exact h.finish
  · exact h

theorem Keeps.copyAcked (h : Keeps r s) {q i status : Nat} : Keeps r (s.copyAcked q i status) := by
  unfold State.copyAcked
  split
  · exact h
  · exact h.unless fun h => h.fork (·.finish) fun h => h.unless (·.landDesc)

theorem Keeps.execHAck (h : Keeps r s) {p tag status : Nat} : Answers r (execHAck p tag status s) :=
  h.whenLive fun h => h.unless fun h => by
    split
    · exact h
    · dsimp only
      split
      · exact h.setPort.setCq.wake
      · exact h.setPort.dropLine.rearm
      · exact h.setPort.copyAcked
      · exact h.setPort.setCq.wake.stepAcked
      · exact h.setPort

theorem Keeps.withDesc (h : Keeps r s) {q i ty : Nat} {k : Desc → State → State} (hk : ∀ {r s} x,
    Keeps r s → Keeps r (k x s)) :
    Keeps r (s.withDesc q i ty k) := by
  unfold State.withDesc
  split
  · exact h
  · exact h.fork (·.finish) fun h => hk _ h

theorem Keeps.execNop (h : Keeps r s) {q i : Nat} : Answers r (execNop q i s) :=
  h.whenLive fun h => h.withDesc fun _ h => h.finish

theorem Keeps.setInput (h : Keeps r s) {r' : InputSt} : Keeps r (s.setInput r') := h.frame

theorem Keeps.readMsgs (h : Keeps r s) {p k a lines : Nat} : Keeps r (s.readMsgs p k a lines) := by
  induction k generalizing s a lines with
  | zero => exact h
  | succ k ih => exact h.unless fun h => ih h.setPort.hlSend

theorem Keeps.readHost (h : Keeps r s) {q a n : Nat} : Keeps r (s.readHost q a n) := by
  unfold State.readHost
  split
  · exact h.readMsgs
  · exact h

theorem Keeps.fillInput (h : Keeps r s) {q i : Nat} {d : Desc} {decl : InputDecl} {data : Option (List Byte)} :
    Keeps r (s.fillInput q i d decl data) := by
  unfold State.fillInput
  extract_lets ix step n o _ s0 s1 c
  have h1 : Keeps r s1 := h.frame.readHost
  clear_value s1
  split
  · split
    · exact (h1.storeParts.pair ‹_›).setInput.memFault
    · exact (h1.storeParts.pair ‹_›).setInput
  · exact h1.setInput.finish

theorem Keeps.takeInput (h : Keeps r s) {q i : Nat} {d : Desc} {data : Option (List Byte)} :
    Keeps r (s.takeInput q i d data) := by
  unfold State.takeInput
  extract_lets +onlyGivenNames ix step fetch
  have hfetch : ∀ decl {s}, Keeps r s → Keeps r (fetch decl s) := fun _ _ h => h.fork (·.unless (·.frame)) (·.fillInput)
  refine .ite h.finish ?_
  split
  · exact h.finish
  · exact h.finish
  · exact h.fork (fun h => hfetch _ h) fun h => h.fork (·.finish) fun h => hfetch _ h.startDesc.setInput

theorem Keeps.execInput (h : Keeps r s) {q i : Nat} {data : MetData} : Answers r (execInput q i data s) :=
  h.whenLive fun h => h.withDesc fun _ h => h.meet (·.takeInput)

theorem Keeps.inputCheck (h : Keeps r s) {ix : Nat} {decl : InputDecl} {all : List InputDecl} :
    Keeps r (s.inputCheck ix decl all) :=
  (h.advanceTo.when (·.frame)).when (·.raise)

theorem Keeps.drawBlock (h : Keeps r s) : Keeps r s.drawBlock.2 :=
  List.foldlRecOn (motive := fun x : List Byte × State => Keeps r x.2) _ _ h fun _ h _ _ => h.draw

theorem Keeps.brokenCopy (h : Keeps r s) {dev n : Nat} : Keeps r (s.brokenCopy dev n) :=
  h.foldl fun _ h => h.draw.unless (·.drawBlock.store)

theorem Keeps.copyIn (h : Keeps r s) {q i : Nat} {d : Desc} {data : Option (List Byte)} : Keeps r (s.copyIn q i d data) := by
  unfold State.copyIn
  extract_lets +onlyGivenNames dev n
  refine .ite h.finish (.ite h.finish ?_)
  extract_lets +onlyGivenNames s
  have hs : Keeps r s := h.readHost
  split
  · exact hs.brokenCopy.finish
  · split
    · exact (hs.storeParts.pair ‹_›).finish
    · exact (hs.storeParts.pair ‹_›).memFault.finish

theorem Keeps.execCopyIn (h : Keeps r s) {q i : Nat} {data : MetData} : Answers r (execCopyIn q i data s) :=
  h.whenLive fun h => h.withDesc fun _ h => h.meet (·.copyIn)

theorem Keeps.sendData' (h : Keeps r s) {p : Nat} {use : ReqUse} {k a : Nat} {bs : List Byte} :
    Keeps r (s.sendData' p use k a bs) := by
  induction k generalizing s a bs with
  | zero => exact h
  | succ k ih => exact h.unless fun h => ih h.request

theorem Keeps.copyOut (h : Keeps r s) {q i : Nat} {d : Desc} {hostOk : Bool} : Keeps r (s.copyOut q i d hostOk) := by
  unfold State.copyOut
  extract_lets +onlyGivenNames dev n host
  refine .ite h.finish (.ite h.finish ?_)
  split
  · exact h.memFault.finish
  · exact h.finish
  · exact h.startDesc.sendData'.unless (·.finish)

theorem Keeps.execCopyOut (h : Keeps r s) {q i : Nat} {hostOk : Bool} {mem : MemMeet} :
    Answers r (execCopyOut q i hostOk mem s) :=
  h.whenLive fun h => h.withDesc fun _ h => h.meet (·.copyOut)

theorem Keeps.snapReq (h : Keeps r s) {q i : Nat} {d : Desc} : Keeps r (s.snapReq q i d) :=
  h.fork (·.finish) fun h => h.fork (·.finish) fun h => h.fork (·.finish) (·.startDesc.frame)

theorem Keeps.execSnapReq (h : Keeps r s) {q i : Nat} : Answers r (execSnapReq q i s) :=
  h.whenLive fun h => h.withDesc fun _ h => h.snapReq

theorem Keeps.ctxSaveReq (h : Keeps r s) {q i : Nat} {d : Desc} : Keeps r (s.ctxSaveReq q i d) :=
  h.fork (·.finish) fun h => h.fork (·.finish) (·.startDesc.frame)

theorem Keeps.execCtxSave (h : Keeps r s) {q i : Nat} : Answers r (execCtxSave q i s) :=
  h.whenLive fun h => h.withDesc fun _ h => h.ctxSaveReq

theorem Keeps.descPost (h : Keeps r s) {q : Nat} {d : Desc} {o : Nat × Nat × Bool} : Keeps r (s.descPost q d o) :=
  (h.setCq.when (·.writeRecord)).setSq.report

theorem Keeps.execDescComplete (h : Keeps r s) {q i : Nat} : Answers r (execDescComplete q i s) := h.whenLive fun h => by
    split
    · split
      · exact h.unless (·.descPost)
      · exact h
    · exact h

theorem Keeps.dropWaits (h : Keeps r s) {q i : Nat} : Keeps r (s.dropWaits q i) := (h.foldl fun _ h => h.setPort).frame

theorem Keeps.execWakeTimer (h : Keeps r s) {c : Nat} : Answers r (execWakeTimer c s) := h.whenLive fun h => by
    split
    · exact h.when (·.setCq.wake)
    · exact h

theorem Keeps.answer (h : Keeps r s) {p op tag a status : Nat} {data : List Byte} :
    Keeps r (s.answer p op tag a status data) :=
  h.when (·.hlSend)

theorem Keeps.memRead (h : Keeps r s) {p tag a n : Nat} : Keeps r (s.memRead p tag a n) := by
  unfold State.memRead
  extract_lets +onlyGivenNames zeros
  refine .ite h.answer (.ite h.answer ?_)
  split
  · exact h.memFault.answer
  · exact h.answer

theorem Keeps.execMemRd (h : Keeps r s) {p tag a : Nat} {n : MetNat} : Answers r (execMemRd p tag a n s) :=
  h.whenLive fun h => h.when fun h => h.meet (·.memRead)

theorem Keeps.memWrite (h : Keeps r s) {p tag a : Nat} {data : List Byte} : Keeps r (s.memWrite p tag a data) := by
  unfold State.memWrite
  extract_lets +onlyGivenNames n
  refine .ite h.answer (.ite h.answer ?_)
  split
  · exact (h.storeParts.pair ‹_›).answer
  · exact (h.storeParts.pair ‹_›).memFault.answer

theorem Keeps.execMemWr (h : Keeps r s) {p tag a : Nat} {data : MetData} : Answers r (execMemWr p tag a data s) :=
  h.whenLive fun h => h.when fun h => h.meet (·.memWrite)

/-! ### Admission -/

theorem Keeps.discardJob (h : Keeps r s) : Keeps r s.discardJob := by
  unfold State.discardJob
  extract_lets +onlyGivenNames s1 s2 s3
  have h3 : Keeps r s3 := (h.dropRegs.foldl fun _ h => h.setReg.setCore).setFld
  clear_value s3
  exact h3.frame.setBu

theorem Keeps.refuseJob (h : Keeps r s) {r' : Refuse} : Keeps r (s.refuseJob r') := h.setReg.setReg

theorem Keeps.loosen (h : Keeps r s) {js : List Job} : Keeps r (s.loosen js) := h.scramble

theorem Keeps.zero (h : Keeps r s) {a n : Nat} : Keeps r (s.zero a n) := h.remap fun w =>
  ⟨w.regs, mapDrop_wf w.mem fun k => decide (a ≤ k) && decide (k < a + n), w.ports, w.cores, w.sram, w.sqs, w.cqs⟩

theorem Keeps.fillPart (h : Keeps r s) {j : Job} {t : Tensor} {p : Place} {slots : List Nat} {bs : List Byte} :
    Keeps r (s.fillPart j t p slots bs) :=
  h.foldl fun _ h => h.store

theorem Keeps.initPart (h : Keeps r s) {j : Job} {p : Place} : Keeps r (s.initPart j p) := by
  unfold State.initPart
  split
  · exact h
  · extract_lets +onlyGivenNames n all
    split
    · exact h.fillPart
    · exact h.fork (·.fillPart) fun h => h.fork (·.fillPart) fun h => h.when (·.fillPart)

theorem Keeps.freeScales (h : Keeps r s) {j : Job} : Keeps r (s.freeScales j) := h.frame

theorem Keeps.bindInitial (h : Keeps r s) {j : Job} : Keeps r (s.bindInitial j) := h.frame

theorem Keeps.installCore (h : Keeps r s) {j : Job} {n : Nat} : Keeps r (s.installCore j n) :=
  h.setReg.setReg.setCfld.setReg.setReg.setCore

theorem Keeps.install (h : Keeps r s) {j : Job} : Keeps r (s.install j) :=
  ((((((h.dropRegs.frame.setReg.setFld.foldl fun _ h => h.zero).foldl fun _ h => h.zero).foldl
    fun _ h => h.store).foldl fun _ h => h.initPart).foldl
    fun _ h => h.installCore).freeScales.bindInitial.foldl fun _ h => h.setReg).setReg.setReg.setBu

theorem Keeps.jobLoad (h : Keeps r s) {q i : Nat} {d : Desc} {image : Option (List Byte)} :
    Keeps r (s.jobLoad q i d image) := by
  unfold State.jobLoad
  refine .ite h.finish (.ite h.finish ?_)
  extract_lets +onlyGivenNames old s t
  have hs : Keeps r s := h.when (·.discardJob)
  have ht : Keeps r t := hs.readHost
  split
  · exact ht.loosen.finish
  · extract_lets +onlyGivenNames img
    split
    · exact ht.loosen.refuseJob.finish
    · exact ht.install.finish

theorem Keeps.execJobLoad (h : Keeps r s) {q i : Nat} {image : Option (List Byte)} : Answers r (execJobLoad q i image s) :=
  h.whenLive fun h => h.withDesc fun _ h => h.jobLoad

/-! ### Restore -/

theorem Keeps.putSection (h : Keeps r s) {j : Job} {a : SnapAt} {c : Section} {bs : List Byte} :
    Keeps r (s.putSection j a c bs) := by
  unfold State.putSection
  split
  · exact h
  · extract_lets +onlyGivenNames v
    refine .ite ?_ ?_
    · split
      · exact h.store
      · exact h
    · refine h.foldl fun x h => ?_
      obtain ⟨f, n⟩ := x
      dsimp only
      split
      · exact h
      · exact h.fork (·.store) (·.store)

theorem Keeps.clearBuffers (h : Keeps r s) {j : Job} : Keeps r (s.clearBuffers j) := h.foldl fun _ h => by
    split
    · exact h.when (·.store)
    · exact h

theorem Keeps.loadSlot (h : Keeps r s) {j : Job} {bs : List Byte} : Keeps r (s.loadSlot j bs) := by
  unfold State.loadSlot
  extract_lets +onlyGivenNames a cs data rows recs tab ns body s1
  have h1 : Keeps r s1 := h.clearBuffers.foldl fun _ h => h.when (·.putSection)
  clear_value s1
  refine Keeps.frame (Keeps.setFld ?_)
  split
  · exact h1.frame.foldl fun _ h => h.store
  · exact h1.frame

theorem Keeps.restore (h : Keeps r s) {q i : Nat} {d : Desc} {slot : Option (List Byte)} :
    Keeps r (s.restore q i d slot) := by
  unfold State.restore
  refine .ite h.finish ?_
  split
  · extract_lets +onlyGivenNames s
    have hs : Keeps r s := h.readHost
    split
    · exact hs.finish
    · exact hs.fork (·.finish) (·.loadSlot.finish)
  · exact h.finish

theorem Keeps.execRestore (h : Keeps r s) {q i : Nat} {slot : Option (List Byte)} : Answers r (execRestore q i slot s) :=
  h.whenLive fun h => h.withDesc fun _ h => h.restore

theorem Keeps.noteKeep (h : Keeps r s) {j : Job} {bs : List Byte} : Keeps r (s.noteKeep j bs) := h.frame

theorem Keeps.takeSnap (h : Keeps r s) {j : Job} : Keeps r (s.takeSnap j) := by
  unfold State.takeSnap
  extract_lets +onlyGivenNames k
  refine .ite h.frame (.ite h.raise ?_)
  extract_lets +onlyGivenNames s bs s1 s2 s3
  have hs : Keeps r s := h.settleReduce
  have hs1 : Keeps r s1 := by
    unfold s1
    exact Keeps.noteKeep (by
      split
      · exact hs.store
      · exact hs)
  have hs2 : Keeps r s2 := hs1.setFld.setFld
  have hs3 : Keeps r s3 := hs2.setFld
  exact hs3.frame

theorem Keeps.chryReady (h : Keeps r s) {k : Nat} : Keeps r (s.chryReady k) := h.when (·.setFld.event)

theorem Keeps.execChrysalisReady (h : Keeps r s) {k : Nat} : Answers r (execChrysalisReady k s) := h.whenLive (·.chryReady)

theorem Keeps.chryRel (h : Keeps r s) {v : Nat} : Keeps r (s.chryRel v) := h.foldl fun _ h => h.when (·.setFld)

theorem Keeps.execMemChryRel (h : Keeps r s) {v : W64} : Answers r (execMemChryRel v s) :=
  h.whenLive fun h => h.when (·.chryRel)

/-! ### Context -/

theorem Keeps.writeImage (h : Keeps r s) {n cause : Nat} : Keeps r (s.writeImage n cause) := by
  unfold State.writeImage
  split
  · exact h
  · exact h.store.frame.setCfld

theorem Keeps.showFrozen (h : Keeps r s) : Keeps r s.showFrozen := h.setFld

theorem Keeps.endIfDone (h : Keeps r s) : Keeps r s.endIfDone := h.when (·.enterHalted)

theorem Keeps.freeze (h : Keeps r s) {a : Attr} {code cause kind : Nat} {own image : Bool} :
    Keeps r (s.freeze a code cause kind own image) :=
  ((h.haltRecord.setCfld.when (·.setFld.setFld)).setCore.setCstate.when
    (·.writeImage)).dropWindow.setCstate.showFrozen.unless (·.endIfDone)

theorem Keeps.skipTag (h : Keeps r s) {a : Attr} : Keeps r (s.skipTag a) := h.when (·.setCfld)

theorem Keeps.loadImage (h : Keeps r s) {j : Job} {n : Nat} : Keeps r (s.loadImage j n) := by
  unfold State.loadImage
  split
  · exact h
  · extract_lets bs bank bytes load s1 s2
    have h2 : Keeps r s2 := h.setReg.setReg.setReg
    clear_value s2
    refine h2.showBank.setSram fun _ => ?_
    dsimp only
    exact mapSetRun_wf mapWf_nil _ _

theorem Keeps.contextRestore (h : Keeps r s) : Keeps r s.contextRestore := by
  unfold State.contextRestore
  split
  · exact (h.foldl fun _ h => h.setCfld).fork (fun h => (h.foldl fun _ h => h.loadImage).setFld) (·.setFld)
  · exact h

theorem Keeps.execContextRestore (h : Keeps r s) : Answers r (execContextRestore s) := h.whenLive (·.contextRestore)

/-! ### Power -/

theorem Keeps.shape (h : Keeps r s) {slots base : Nat} : Keeps r (s.shape slots base) := h.frame

theorem Keeps.estimate (h : Keeps r s) {slots : Nat} {raw3 : Nat × Nat × Nat} : Keeps r (s.estimate slots raw3) :=
  h.frame.shape.setReg.setReg

theorem Keeps.recalibrate (h : Keeps r s) : Keeps r s.recalibrate := h.foldl fun _ h => h.unless fun h => by
  dsimp only
  split
  · exact h.draw.setFld.frame
  · exact h.setFld.frame

theorem Keeps.applyGains (h : Keeps r s) : Keeps r s.applyGains := (h.foldl fun _ h => h.setFld.setFld).frame

theorem Keeps.execEstimatorRecalibration (h : Keeps r s) : Answers r (execEstimatorRecalibration s) :=
  h.whenLive fun h => h.fork (·.recalibrate) fun h => h.when (·.frame.recalibrate.applyGains)

theorem Keeps.capWrite (h : Keeps r s) {v : Nat} : Keeps r (s.capWrite v) :=
  (h.when (·.setFld)).fork (·.setFld.setFld.frame) (·.setFld)

theorem Keeps.execPwrCapWrite (h : Keeps r s) {v : W64} : Answers r (execPwrCapWrite v s) := h.whenLive (·.capWrite)

theorem Keeps.capSched (h : Keeps r s) {v : Nat} : Keeps r (s.capSched v) := h.fork (·.setReg) (·.setFld)

theorem Keeps.execPwrCapSchedWrite (h : Keeps r s) {v : W64} : Answers r (execPwrCapSchedWrite v s) := h.whenLive (·.capSched)

theorem Keeps.capDue (h : Keeps r s) : Keeps r s.capDue := h.when (·.setFld.setReg.frame)

theorem Keeps.setTargets (h : Keeps r s) {w e : Nat} : Keeps r (s.setTargets w e) := h.setReg.showFreq

theorem Keeps.setMemRate (h : Keeps r s) {x : Nat} : Keeps r (s.setMemRate x) := h.setFld

theorem Keeps.govern (h : Keeps r s) : Keeps r s.govern := h.fork (·.setFld.setMemRate.setTargets) (·.setFld.setFld.frame)

theorem Keeps.pairSample (h : Keeps r s) {m : PowerMeas} : Keeps r (s.pairSample m) := h.addFld.frame

theorem Keeps.sample (h : Keeps r s) {m : PowerMeas} : Keeps r (s.sample m) :=
  h.setReg.setReg.frame.setFld.frame.setFld.pairSample.frame.setFld.setFld.setFld.govern

theorem Keeps.execPowerSample (h : Keeps r s) {m : PowerMeas} : Answers r (execPowerSample m s) := h.whenLive (·.sample)

theorem Keeps.intervalEnd (h : Keeps r s) : Keeps r s.intervalEnd := (h.advanceTo.when (·.setFld)).frame.when (·.raise)

theorem Keeps.governBeat (h : Keeps r s) : Keeps r s.governBeat :=
  h.fork (·.setTargets) fun h => h.fork (fun h => h.fork (·.setTargets) (·.setMemRate)) fun h => h.fork (·.setMemRate)
    (·.setTargets)

theorem Keeps.retireStretch (h : Keeps r s) : Keeps r s.retireStretch := h.frame

theorem Keeps.beatStarts (h : Keeps r s) {a : Activity} : Keeps r (s.beatStarts a) :=
  h.advanceTo.frame.setReg.retireStretch.showStretch.oweTime.capDue.estimate.setFld.governBeat

theorem Keeps.autoEval (h : Keeps r s) : Keeps r s.autoEval := h.when fun h => h.when (·.frame.stretchReq)

theorem Keeps.execStretchAutoEval (h : Keeps r s) : Answers r (execStretchAutoEval s) := h.whenLive (·.autoEval)

theorem Keeps.tripRecord (h : Keeps r s) {src : Nat} {hard : Bool} : Keeps r (s.tripRecord src hard) := h.frame

theorem Keeps.hardTrip (h : Keeps r s) {src code : Nat} :
    Keeps r (s.hardTrip src code) := h.tripRecord.sendStop.passSlots.frame

theorem Keeps.scrambleHbm (h : Keeps r s) : Keeps r s.scrambleHbm := h.scramble

theorem Keeps.computeOff (h : Keeps r s) : Keeps r s.computeOff := h.scrambleHbm.frame

theorem Keeps.endPanting (h : Keeps r s) : Keeps r s.endPanting := h.foldl fun _ h => h.setCore

theorem Keeps.softTrip (h : Keeps r s) {src code unit index : Nat} : Keeps r (s.softTrip src code unit index) :=
  ((h.tripRecord.unless (·.setReg)).when (·.frame)).raise.unless fun h => h.fork (·.computeOff.frame.setFld.setFld)
    (·.computeOff.frame.endPanting)

theorem Keeps.execInputOvervoltage (h : Keeps r s) : Answers r (execInputOvervoltage s) := h.whenLive (·.hardTrip)

theorem Keeps.execInputOvercurrent (h : Keeps r s) {die : Nat} : Answers r (execInputOvercurrent die s) :=
  h.whenLive (·.hardTrip)

theorem Keeps.execSustainedInputPower (h : Keeps r s) : Answers r (execSustainedInputPower s) := h.whenLive (·.softTrip)

theorem Keeps.execIntermediatePlane (h : Keeps r s) {half : Nat} : Answers r (execIntermediatePlane half s) :=
  h.whenLive (·.hardTrip)

theorem Keeps.execRegulator (h : Keeps r s) {half : Nat} : Answers r (execRegulator half s) := h.whenLive (·.softTrip)

theorem Keeps.execPowerStageDieTemperature (h : Keeps r s) {die : Nat} : Answers r (execPowerStageDieTemperature die s) :=
  h.whenLive (·.hardTrip)

theorem Keeps.execDieJunction (h : Keeps r s) {half : Nat} : Answers r (execDieJunction half s) := h.whenLive (·.softTrip)

theorem Keeps.execHbm4StackTemperature (h : Keeps r s) {stack : Nat} : Answers r (execHbm4StackTemperature stack s) :=
  h.whenLive (·.softTrip)

theorem Keeps.haltNext (h : Keeps r s) {n code : Nat} : Keeps r (s.haltNext n code) := h.nextAttr.coreHalt

theorem Keeps.margin (h : Keeps r s) {n : Nat} : Keeps r (s.margin n) := h.when fun h => h.fork (·.haltNext)
    (·.setCore.setCfld)

theorem Keeps.execMarginMonitor (h : Keeps r s) {n : Nat} : Answers r (execMarginMonitor n s) := h.whenLive (·.margin)

theorem Keeps.execDroop (h : Keeps r s) {n periods : Nat} : Answers r (execDroop n periods s) :=
  h.whenLive fun h => h.when (·.addCfld)

theorem Keeps.execHbmTemperatureReadout (h : Keeps r s) {temps : List Nat} : Answers r (execHbmTemperatureReadout temps s) :=
  h.whenLive fun h => h.when (·.setFld.setFld)

theorem Keeps.execDdr5ModuleTemperature (h : Keeps r s) {m : ModTemp} : Answers r (execDdr5ModuleTemperature m s) :=
  h.whenLive fun h => h.when (·.setFld)

theorem Keeps.markBad (h : Keeps r s) {a : Nat} : Keeps r (s.markBad a) := h.unless (·.frame)

theorem Keeps.scrub (h : Keeps r s) {corrected : Nat} {unc : List Nat} : Keeps r (s.scrub corrected unc) :=
  h.when fun h => h.addFld.foldl fun _ h => h.markBad.memErr

theorem Keeps.execPatrolScrub (h : Keeps r s) {corrected : Nat} {uncorrectable : List Nat} :
    Answers r (execPatrolScrub corrected uncorrectable s) :=
  h.whenLive (·.scrub)

/-! ### Security -/

theorem Keeps.secEnd (h : Keeps r s) {r' out : Nat} : Keeps r (s.secEnd r' out) := h.setReg.frame

theorem Keeps.secStart (h : Keeps r s) {m : Mc} {op : Nat} : Keeps r (s.secStart m op) :=
  h.unless fun h => h.fork (·.setFld) fun h => h.fork (·.secEnd) (·.frame.setFld)

theorem Keeps.secRun (h : Keeps r s) {m : Mc} {op : Nat} {k : State → State} (hk : ∀ {r s}, Keeps r s → Keeps r (k s)) :
    Keeps r (s.secRun m op k) :=
  h.fork (fun h => h.fork (fun h => hk h) (·.setFld)) fun h => h.secStart.when fun h => hk h

theorem Keeps.secOut (h : Keeps r s) {hostOk : Bool} {bs : List Byte} : Keeps r (s.secOut hostOk bs) := by
  unfold State.secOut
  split
  · exact h.secEnd
  · exact h.sendData'.fork (·.secEnd) (·.secEnd)

theorem Keeps.attest (h : Keeps r s) {hostOk : Bool} : Keeps r (s.attest hostOk) := h.frame.secOut

theorem Keeps.execAttest (h : Keeps r s) {hostOk : Bool} {m : Mc} : Answers r (execAttest hostOk m s) :=
  h.whenLive fun h => h.secRun (·.attest)

theorem Keeps.certOut (h : Keeps r s) {hostOk : Bool} : Keeps r (s.certOut hostOk) := h.fork (·.secEnd) (·.secOut)

theorem Keeps.execCertOut (h : Keeps r s) {hostOk : Bool} : Answers r (execCertOut hostOk s) :=
  h.whenLive fun h => h.secRun (·.certOut)

theorem Keeps.setRegion (h : Keeps r s) {r' : Nat} {bs : List Byte} : Keeps r (s.setRegion r' bs) := h.fork (·.frame)
    (·.frame)

theorem Keeps.fwWrite (h : Keeps r s) {region : Option (List Byte)} {readBackOk : Bool} :
    Keeps r (s.fwWrite region readBackOk) := by
  unfold State.fwWrite
  extract_lets +onlyGivenNames n
  split
  · exact h.secEnd
  · exact h.fork (·.secEnd) fun h => h.fork (·.secEnd) fun h => h.fork (·.secEnd) fun h => h.fork (·.setRegion.secEnd)
      (·.frame.setRegion.secEnd)

theorem Keeps.execFwWrite (h : Keeps r s) {region : Option (List Byte)} {readBackOk : Bool} :
    Answers r (execFwWrite region readBackOk s) :=
  h.whenLive fun h => h.secRun (·.fwWrite)

/-- SVN_COMMIT changes the fused records, and otherwise keeps what the others keep. -/
theorem Keeps.svnCommit (h : Keeps r s) : ∃ n, Keeps { r with nv := n } s.svnCommit :=
  ⟨_, Keeps.secEnd (h.setNv _).setFld.setFld.setFld⟩

theorem Keeps.execSvnCommit (h : Keeps r s) : ∃ n, Answers { r with nv := n } (execSvnCommit s) := by
  have hr : Keeps { r with nv := r.nv } s := h
  unfold Sys2Proof.Machine.execSvnCommit State.whenLive State.secRun
  split
  · exact ⟨_, hr⟩
  · dsimp only
    split
    · split
      · exact h.svnCommit
      · exact ⟨_, hr.setFld⟩
    · split
      · exact h.secStart.svnCommit
      · exact ⟨_, hr.secStart⟩

theorem Keeps.showKeys (h : Keeps r s) : Keeps r s.showKeys := h.setReg

theorem Keeps.jobkey (h : Keeps r s) {record : Option (List Byte)} : Keeps r (s.jobkey record) := by
  unfold State.jobkey
  split
  · exact h.secEnd
  · exact h.fork (·.secEnd) fun h => h.fork (·.secEnd) fun h => h.fork (·.secEnd) fun h => h.fork (·.secEnd)
      (·.frame.showKeys.secEnd)

theorem Keeps.execJobkey (h : Keeps r s) {record : Option (List Byte)} : Answers r (execJobkey record s) :=
  h.whenLive fun h => h.secRun (·.jobkey)

theorem Keeps.debugUnlock (h : Keeps r s) {token : Option (List Byte)} : Keeps r (s.debugUnlock token) := by
  unfold State.debugUnlock
  split
  · exact h.secEnd
  · exact h.fork (·.secEnd) fun h => h.fork (·.secEnd) fun h => h.fork (·.secEnd) fun h => h.fork (·.secEnd) (·.setFld.secEnd)

theorem Keeps.execDebugUnlock (h : Keeps r s) {token : Option (List Byte)} : Answers r (execDebugUnlock token s) :=
  h.whenLive fun h => h.secRun (·.debugUnlock)

theorem Keeps.ownerEnrol (h : Keeps r s) {key : Option (List Byte)} : Keeps r (s.ownerEnrol key) := by
  unfold State.ownerEnrol
  split
  · exact h.secEnd
  · exact h.fork (·.secEnd) (·.frame.setFld.secEnd)

theorem Keeps.execOwnerEnrol (h : Keeps r s) {key : Option (List Byte)} : Answers r (execOwnerEnrol key s) :=
  h.whenLive fun h => h.secRun (·.ownerEnrol)

/-! ### Registers -/

theorem Keeps.regRead (h : Keeps r s) {m : Mc} {a : Nat} : Keeps r (s.regRead m a).2.2 := by
  unfold State.regRead
  split
  · split
    · exact h
    · split
      · exact h
      · exact h.setReg
  · exact h

theorem Keeps.plainWrite (h : Keeps r s) {k : Nat} {fs : List FieldDef} {v : Nat} : Keeps r (s.plainWrite k fs v) :=
  h.setReg.when (·.frame)

theorem Keeps.secWrite (h : Keeps r s) {m : Mc} {a : Nat} {fs : List FieldDef} {v : Nat} : Keeps r (s.secWrite m a fs v) :=
  h.fork (·.secStart) fun h => h.fork (·.setFld) (·.plainWrite)

theorem Keeps.pwrWrite (h : Keeps r s) {a : Nat} {fs : List FieldDef} {v : Nat} : Keeps r (s.pwrWrite a fs v) :=
  h.fork (·.capWrite) fun h =>
  h.fork (·.capSched) fun h =>
  h.fork (·.unless fun h => (h.plainWrite.unless (·.setFld)).when (·.foldl fun _ h => h.setCore)) fun h =>
  h.fork (·.when (·.plainWrite)) (·.plainWrite)

theorem Keeps.buWrite (h : Keeps r s) {a : Nat} {fs : List FieldDef} {v : Nat} : Keeps r (s.buWrite a fs v) :=
  h.fork (·.buCtrl) fun h => h.fork (fun h => h.when (·.plainWrite)) (·.plainWrite)

theorem Keeps.hlWrite (h : Keeps r s) {a : Nat} {fs : List FieldDef} {v : Nat} : Keeps r (s.hlWrite a fs v) :=
  h.fork (·.evqCfg) fun h =>
  h.fork (·.unless (·.plainWrite)) fun h =>
  h.fork (fun h => h.fork (·.sqCfg) (·.unless (·.plainWrite))) fun h =>
  h.fork (fun h => h.fork (·.cqCfg) (·.unless (·.plainWrite))) (·.plainWrite)

theorem Keeps.pfWrite (h : Keeps r s) {a : Nat} {fs : List FieldDef} {v : Nat} : Keeps r (s.pfWrite a fs v) :=
  h.fork (·.stretchReq) fun h =>
  h.fork (·.when (·.plainWrite.when (·.contextRestore))) fun h =>
  h.fork (·.when (·.plainWrite)) (·.plainWrite)

theorem Keeps.flutterTest (h : Keeps r s) {n : Nat} : Keeps r (s.flutterTest n) := h.setReg.setReg.setCfld

theorem Keeps.coreWrite (h : Keeps r s) {a : Nat} {fs : List FieldDef} {v : Nat} : Keeps r (s.coreWrite a fs v) :=
  h.unless fun h => h.fork (fun h => h.when (·.plainWrite)) fun h => h.fork (fun h => h.when (·.flutterTest)) (·.plainWrite)

theorem Keeps.regEffect (h : Keeps r s) {m : Mc} {b : Block} {a : Nat} {fs : List FieldDef} {v : Nat} :
    Keeps r (s.regEffect m b a fs v) := by
  unfold State.regEffect
  split
  · exact h.fork (·.leadForce) (·.plainWrite)
  · exact h.secWrite
  · exact h.pwrWrite
  · exact h.buWrite
  · exact h.hlWrite
  · exact h.pfWrite
  · exact h.fork (·.portModeWrite) (·.plainWrite)
  · exact h.fork (·.chryRel) (·.plainWrite)
  · exact h.coreWrite

theorem Keeps.regWrite (h : Keeps r s) {m : Mc} {a v : Nat} : Keeps r (s.regWrite m a v).2 := by
  unfold State.regWrite
  split
  · split
    · exact h
    · exact h.regEffect
  · exact h

theorem Keeps.execRegRd (h : Keeps r s) {p tag a : Nat} : Answers r (execRegRd p tag a s) :=
  h.whenLive fun h => h.when (·.regRead.answer)

theorem Keeps.execRegWr (h : Keeps r s) {p tag a : Nat} {v : W64} : Answers r (execRegWr p tag a v s) :=
  h.whenLive fun h => h.when (·.regWrite.answer)

theorem Keeps.execRegisterWrite (h : Keeps r s) {m : Mc} {a : Nat} {v : W64} : Answers r (execRegisterWrite m a v s) :=
  h.whenLive (·.regWrite)

theorem Keeps.execFlutterTestGo (h : Keeps r s) {n : Nat} : Answers r (execFlutterTestGo n s) :=
  h.whenLive fun h => h.when (·.flutterTest)

/-! ### I3c -/

theorem Keeps.onI3c (h : Keeps r s) {k : State → State} (hk : ∀ {r s}, Keeps r s → Keeps r (k s)) : Answers r (s.onI3c k) :=
  h.whenLive fun h => h.when fun h => hk h

theorem Keeps.privateWrite (h : Keeps r s) {m : Mc} {bs : List Byte} : Keeps r (s.privateWrite m bs) :=
  h.fork (·.setMc) fun h => h.fork (·.setMc.regWrite.setMc) (·.setMc)

theorem Keeps.execI3cPointerWrite (h : Keeps r s) {m : Mc} {bs : List Byte} : Answers r (execI3cPointerWrite m bs s) :=
  h.onI3c (·.privateWrite)

theorem Keeps.execI3cRegisterWrite (h : Keeps r s) {m : Mc} {bs : List Byte} : Answers r (execI3cRegisterWrite m bs s) :=
  h.onI3c (·.privateWrite)

theorem Keeps.privateRead (h : Keeps r s) {m : Mc} : Keeps r (s.privateRead m) := h.regRead.emit

theorem Keeps.execI3cPrivateRead (h : Keeps r s) {m : Mc} : Answers r (execI3cPrivateRead m s) := h.onI3c (·.privateRead)

theorem Keeps.execSetdasa (h : Keeps r s) {m : Mc} {static dyn : Nat} : Answers r (execSetdasa m static dyn s) :=
  h.onI3c fun h => h.when (·.setMc)

theorem Keeps.execEntdaa (h : Keeps r s) {m : Mc} {dyn : Nat} : Answers r (execEntdaa m dyn s) :=
  h.onI3c fun h => h.when (·.setMc)

theorem Keeps.execRstdaa (h : Keeps r s) {m : Mc} : Answers r (execRstdaa m s) := h.onI3c (·.setMc)

theorem Keeps.execEnec (h : Keeps r s) {m : Mc} : Answers r (execEnec m s) := h.onI3c fun h => by
  dsimp only
  split
  · exact h.setMc.emit
  · exact h.setMc

theorem Keeps.execDisec (h : Keeps r s) {m : Mc} : Answers r (execDisec m s) := h.onI3c (·.setMc)

theorem Keeps.freeAnswer (h : Keeps r s) {m : Mc} {n : Nat} : Keeps r (s.freeAnswer m n) := h.draw.emit

theorem Keeps.execGetpid (h : Keeps r s) {m : Mc} : Answers r (execGetpid m s) := h.onI3c (·.freeAnswer)

theorem Keeps.execGetbcr (h : Keeps r s) {m : Mc} : Answers r (execGetbcr m s) := h.onI3c (·.freeAnswer)

theorem Keeps.execGetdcr (h : Keeps r s) {m : Mc} : Answers r (execGetdcr m s) := h.onI3c (·.freeAnswer)

theorem Keeps.execGetstatus (h : Keeps r s) {m : Mc} : Answers r (execGetstatus m s) := h.onI3c (·.freeAnswer)

theorem Keeps.execGetmwl (h : Keeps r s) {m : Mc} : Answers r (execGetmwl m s) := h.onI3c (·.freeAnswer)

theorem Keeps.execGetmrl (h : Keeps r s) {m : Mc} : Answers r (execGetmrl m s) := h.onI3c (·.freeAnswer)

/-! ### Control -/

theorem Keeps.stepDone (h : Keeps r s) {j : Job} : Keeps r (s.stepDone j) := h.when (·.queueStep)

theorem Keeps.noteDecision (h : Keeps r s) {d : Decision} : Keeps r (s.noteDecision d) :=
  (((h.fork (fun h => h.fork (·.addFld) (·.addFld))
    (·.addFld)).setReg.when (·.setReg.setReg)).when (·.addFld)).setFld.setFld.setFld

theorem Keeps.takeDecision (h : Keeps r s) {j : Job} : Keeps r (s.takeDecision j) := h.unless (·.noteDecision.frame.stepDone)

theorem Keeps.enterWide (h : Keeps r s) : Keeps r s.enterWide := h.frame

theorem Keeps.clearSlow (h : Keeps r s) {j : Job} : Keeps r (s.clearSlow j) := (h.foldl fun _ h => by
    split
    · split
      · exact h.store
      · exact h
    · exact h).frame

theorem Keeps.startLoad (h : Keeps r s) {n b : Nat} {g : Config.Segment} : Keeps r (s.startLoad n b g) :=
  (h.setCore (by split <;> rfl)).setCfld.setCfld

theorem Keeps.wideLoad (h : Keeps r s) {n : Nat} : Keeps r (s.wideLoad n) := by
  unfold State.wideLoad
  split
  · exact h.startLoad
  · exact h

theorem Keeps.heelEffects (h : Keeps r s) {n h' : Nat} : Keeps r (s.heelEffects n h') := by
  unfold State.heelEffects
  split
  · exact h
  · exact (((h.when fun h => (h.when (·.wideLoad)).setCore).when (·.clearSlow)).when
      (·.enterWide.setCore)).when (·.takeDecision.setCore)

theorem Keeps.retireHeel (h : Keeps r s) {a : Attr} {h' d : Nat} {waits : List (Nat × Nat)} {t : Nat} :
    Keeps r (s.retireHeel a h' d waits t) :=
  (h.setCfld.when (·.addCfld)).addCfld.setCore.setCstate.followed.retire.heelEffects

theorem Keeps.endBefore (h : Keeps r s) {n : Nat} {e : Ending} : Keeps r (s.endBefore n e) := h.setCore

theorem Keeps.heelFails (h : Keeps r s) {a : Attr} {late : Bool} : Keeps r (s.heelFails a late) :=
  h.fork (fun h => h.fork (·.freeze) (·.coreHaltNow)) (·.endBefore)

theorem Keeps.meetCore (h : Keeps r s) {a : Attr} {k : State → State} (hk : ∀ {r s}, Keeps r s → Keeps r (k s)) :
    Keeps r (s.meetCore a k) := by
  unfold State.meetCore
  split
  · exact h.meet hk
  · exact (h.meeting.marked (.refl _) fun _ => rfl).memErr.coreHalt

theorem Keeps.checked (h : Keeps r s) {a : Attr} {rs : List (Nat × Nat)} {k : State → State}
    (hk : ∀ {r s}, Keeps r s → Keeps r (k s)) : Keeps r (s.checked a rs k) :=
  h.fork (·.checkFail) fun h => h.fork (·.checkFail) fun h => h.fork (·.checkFail) fun h => h.meetCore hk

theorem Keeps.waitAtHeel (h : Keeps r s) {n h' : Nat} : Keeps r (s.waitAtHeel n h') := h.setCore.setCstate

theorem Keeps.saveEnding (h : Keeps r s) {a : Attr} : Keeps r (s.saveEnding a).2 := h.draw

theorem Keeps.saveBefore (h : Keeps r s) {a : Attr} : Keeps r (s.saveBefore a) := (h.saveEnding (a := a)).endBefore

theorem Keeps.heel (h : Keeps r s) {a : Attr} {x d : Nat} {waits : List (Nat × Nat)} {since : Nat} {go : Bool} :
    KeepsOpt r (s.heel a x d waits since go) := by
  refine .ite (.some h.saveBefore) (.ite (.some h.checkFail) (.ite (.some h.heelFails) ?_))
  split
  · exact .ite (.some h.retireHeel) (.ite (.some h.advanceTo.retireHeel) .none)
  · exact .ite (.some h.heelFails) .none

theorem Keeps.jump (h : Keeps r s) {n off : Nat} : Keeps r (s.jump n off) := h.setCore

theorem Keeps.branch (h : Keeps r s) {a : Attr} {target : Nat} : Keeps r (s.branch a target) :=
  h.fork (·.checkFail) (·.jump.retire)

theorem Keeps.decideBranch (h : Keeps r s) {a : Attr} {mask target : Nat} : Keeps r (s.decideBranch a mask target) :=
  h.fork (·.checkFail) fun h => h.fork (·.jump.retire) (·.retire)

theorem Keeps.bankLoaded (h : Keeps r s) {n b : Nat} : Keeps r (s.bankLoaded n b) := by
  unfold State.bankLoaded
  extract_lets +onlyGivenNames c
  split
  · exact h
  · exact (h.setCore (by split <;> rfl)).setCfld

theorem Keeps.swap (h : Keeps r s) {a : Attr} {seg entry : Nat} : KeepsOpt r (s.swap a seg entry) :=
  .ite (.some h.checkFail) (.ite (.some h.checkFail) (.ite .none (.some h.setCfld.setCfld.showBank.jump.retire)))

theorem Keeps.endCore (h : Keeps r s) {a : Attr} : Keeps r (s.endCore a) :=
  h.retire.dropWindow.setCore.bankRest.setCstate.endIfDone

theorem Keeps.imemLoad (h : Keeps r s) {a : Attr} {seg bank : Nat} : Keeps r (s.imemLoad a seg bank) := by
  unfold State.imemLoad
  extract_lets +onlyGivenNames n
  split
  · exact h.checkFail
  · exact h.fork (·.checkFail) fun h => h.fork (·.addCfld.setCfld.event) (·.startLoad)

theorem Keeps.originWork (h : Keeps r s) {j : Job} : Keeps r (s.originWork j) := (h.frame.applyGains.when (·.takeSnap)).frame

theorem Keeps.noteWiden (h : Keeps r s) : Keeps r s.noteWiden :=
  h.fork (fun h => h.frame.addFld.setFld.setFld.when (·.event.setFld)) (·.frame.setFld)

theorem Keeps.clearSlack (h : Keeps r s) : Keeps r s.clearSlack := h.foldl fun _ h => h.setReg

theorem Keeps.advanceStep (h : Keeps r s) {j : Job} : Keeps r (s.advanceStep j) :=
  (h.clearSlow.noteWiden.advanceTo.settleReduce.frame.foldl fun _ h => h.setCore).clearSlack

theorem Keeps.slowLate (h : Keeps r s) : Keeps r s.slowLate := by
  unfold State.slowLate
  split
  · exact h.nextAttr.fork (·.freeze) (·.coreHaltNow)
  · exact h

theorem Keeps.stepOrigin (h : Keeps r s) {j : Job} : Keeps r (s.stepOrigin j) :=
  h.fork (·.originWork) fun h => h.takeDecision.fork (·.slowLate) fun h => h.advanceStep.when (·.originWork)

theorem Keeps.saveCore (h : Keeps r s) {n : Nat} {image : Bool} : Keeps r (s.saveCore n image) := by
  unfold State.saveCore
  refine .ite ((h.setCfld.setCstate.when (·.writeImage)).setCstate) (.ite ?_ ?_)
  · split
    · exact h.freeze
    · exact h
  · exact h

theorem Keeps.saveNow (h : Keeps r s) {j : Job} {b : Nat} : Keeps r (s.saveNow j b) :=
  h.stepOrigin.when fun h => ((h.frame.foldl fun _ h => h.saveCore).foldl fun _ h => h.landDesc).enterHalted

theorem Keeps.saveEnd (h : Keeps r s) : Keeps r s.saveEnd := by
  unfold State.saveEnd
  split
  · exact h.when (·.saveNow)
  · exact h

theorem Keeps.saveMark (h : Keeps r s) {n : Nat} : Keeps r (s.saveMark n) :=
  h.unless fun h => (h.firstAttr.saveEnding (a := { (s.firstAttr n (s.core n).stream).1 with core := n })).setCore

/-! ### Operands -/

theorem Keeps.putScentLine (h : Keeps r s) {t : Tensor} {a line : Nat} {bits : List (Nat × Nat)} :
    Keeps r (s.putScentLine t a line bits).2 := by
  unfold State.putScentLine
  extract_lets +onlyGivenNames e0
  split
  extract_lets +onlyGivenNames new put
  have hput : ∀ old, Keeps r (put old).2 := fun _ => h.storeParts
  split
  · exact hput _
  · split
    · exact h
    · split
      · exact h
      · split
        · exact h
        · exact hput _

theorem Keeps.putScents (h : Keeps r s) {j : Job} {tensor : Nat} {bits : List (Nat × Nat)} :
    Keeps r (s.putScents j tensor bits).2 := by
  unfold State.putScents
  split
  · exact h
  · refine List.foldlRecOn (motive := fun x : Option Fetch × State => Keeps r x.2) _ _ h fun x h l _ => ?_
    dsimp only
    split
    · exact h
    · exact h.putScentLine

theorem Keeps.noteMax (h : Keeps r s) {tensor : Nat} {m : Xv} : Keeps r (s.noteMax tensor m) := h.frame

theorem Keeps.rescale (h : Keeps r s) {t : Option Tensor} {c : Conv} : Keeps r (s.rescale t c) := by
  unfold State.rescale
  split
  · exact h.unless (·.frame)
  · exact h

/-! ### Transfer -/

theorem Keeps.coreMemFault (h : Keeps r s) {a : Attr} {addr source : Nat} : Keeps r (s.coreMemFault a addr source) :=
  h.memErr.coreHalt

theorem Keeps.fetchFails (h : Keeps r s) {a : Attr} {f : Fetch} : Keeps r (s.fetchFails a f) := by
  unfold State.fetchFails
  split
  · exact h.coreMemFault
  · exact h.coreHalt
  · exact h

theorem Keeps.sramFill (h : Keeps r s) {core : Nat} {o : RetArg} {rs : List (Nat × Nat)} {d : RetData} :
    Keeps r (s.sramFill core o rs d) :=
  h.setSram fun w => by rw [CoreSt.noteFeed_sram]; exact mapSetRun_wf (w.core core) _ _

theorem Keeps.scentFails (h : Keeps r s) {a : Attr} {r' : Option Fetch} : Keeps r (s.scentFails a r') := by
  unfold State.scentFails
  split
  · exact h.fetchFails
  · exact h

theorem Keeps.setXfer (h : Keeps r s) {n : Nat} {x : ConvStat} : Keeps r (s.setXfer n x) := h.setCore

theorem Keeps.retrieveInto (h : Keeps r s) {a : Attr} {j : Job} {o : RetArg} {rs : List (Nat × Nat)} {d : RetData} :
    Keeps r (s.retrieveInto a j o rs d) := by
  unfold State.retrieveInto
  extract_lets +onlyGivenNames s
  have hs : Keeps r s := h.sramFill.setXfer
  split
  · exact hs
  · extract_lets +onlyGivenNames s
    have hs : Keeps r s := by
      unfold s
      split
      · exact hs.noteMax.rescale
      · exact hs
    split
    · exact hs.putScents.scentFails
    · exact hs

theorem Keeps.retrieve (h : Keeps r s) {a : Attr} {j : Job} {o : RetArg} : Keeps r (s.retrieve a j o) := by
  unfold State.retrieve
  extract_lets +onlyGivenNames idx
  split
  · exact h.checkFail
  · extract_lets +onlyGivenNames v ct c0
    refine .ite h.checkFail ?_
    extract_lets +onlyGivenNames rs
    refine .ite h.checkFail (.ite h.checkFail (.ite h.checkFail (.ite h.checkFail (.ite h.checkFail ?_))))
    extract_lets +onlyGivenNames s
    have hs : Keeps r s := h.when (·.settleReduce)
    split
    · exact hs.fetchFails
    · exact hs.retrieveInto

theorem Keeps.stored (h : Keeps r s) {a : Attr} {addr len : Nat} {r' : Option Nat} : Keeps r (s.stored a addr len r') := by
  unfold State.stored
  split
  · exact h.coreMemFault
  · exact h.reprint

theorem Keeps.copyLines (h : Keeps r s) {addr : Nat} {l : List (List Byte)} : Keeps r (s.copyLines addr l) := by
  induction l generalizing s addr with
  | nil => exact h
  | cons x l ih => exact ih (h.draw.when (·.storeParts))

theorem Keeps.depositConv (h : Keeps r s) {a : Attr} {j : Job} {t : Tensor} {addr : Nat} {o : DepArg} {c : Conv} :
    Keeps r (s.depositConv a j t addr o c) := by
  unfold State.depositConv
  split
  · exact h.fetchFails
  · extract_lets us x s1 s2
    have h2 : Keeps r s2 := h.noteMax.rescale.setXfer
    clear_value s2
    split
    split
    · split
      split
      · exact ((h2.storeParts.pair ‹_›).putScents.pair ‹_›).fetchFails
      · exact ((h2.storeParts.pair ‹_›).putScents.pair ‹_›).stored
    · exact (h2.storeParts.pair ‹_›).stored

theorem Keeps.depositCopy (h : Keeps r s) {a : Attr} {t : Tensor} {addr : Nat} {o : DepArg} :
    Keeps r (s.depositCopy a t addr o) := by
  unfold State.depositCopy
  extract_lets +onlyGivenNames bs ls
  split
  · exact h.copyLines.coreMemFault
  · exact h.storeParts.stored

theorem Keeps.depositZero (h : Keeps r s) {a : Attr} {t : Tensor} {addr : Nat} {o : DepArg} :
    Keeps r (s.depositZero a t addr o) := by
  unfold State.depositZero
  extract_lets +onlyGivenNames s
  have hs : Keeps r s := h.settleReduce
  split
  · rename_i e
    split
    · exact (hs.storeParts.pair e).coreMemFault
    · exact (hs.storeParts.pair e)

theorem Keeps.deposit (h : Keeps r s) {a : Attr} {j : Job} {o : DepArg} : Keeps r (s.deposit a j o) := by
  unfold State.deposit
  split
  · exact h.checkFail
  · extract_lets +onlyGivenNames v bytes
    refine .ite h.checkFail (.ite h.checkFail (.ite h.checkFail ?_))
    split
    · exact h.checkFail
    · refine .ite h.depositZero (.ite h.checkFail (.ite h.checkFail ?_))
      split
      · exact h.depositCopy
      · exact h.fork (·.checkFail) (·.depositConv)

theorem Keeps.send (h : Keeps r s) {a : Attr} {stream seq src slot : Nat} {pairForm : Bool} :
    Keeps r (s.send a stream seq src slot pairForm) := by
  unfold State.send
  split
  · exact h.checkFail
  · exact h.fork (·.checkFail) fun h => h.fork (·.checkFail) fun h => h.fork (·.checkFail) fun h =>
      h.fork (·.frame) fun h => h.fork (·.holdReduce) (·.frame)

theorem Keeps.accept (h : Keeps r s) {a : Attr} {stream seq dst : Nat} : Keeps r (s.accept a stream seq dst) := by
  unfold State.accept
  split
  · exact h.checkFail
  · exact h.setCore.sramWrite

theorem Keeps.contribute (h : Keeps r s) {a : Attr} {j : Job} {stream src count unit slot : Nat} :
    Keeps r (s.contribute a j stream src count unit slot) := by
  unfold State.contribute
  split
  · exact h.checkFail
  · split
    · exact h.checkFail
    · exact h.fork (·.checkFail) fun h => h.unless fun h => h.normPass.when (·.contributeVals)

/-! ### Flags -/

theorem Keeps.showSlack (h : Keeps r s) {core layer : Nat} : Keeps r (s.showSlack core layer) := h.setCfld.setCfld

theorem Keeps.raiseWiden (h : Keeps r s) {core layer rung kind : Nat} : Keeps r (s.raiseWiden core layer rung kind) :=
  (h.when (·.setReg)).frame

theorem Keeps.charge (h : Keeps r s) {core : Nat} {l : Ladder} {layer leaf rung cost : Nat} :
    Keeps r (s.charge core l layer leaf rung cost).2 := by
  unfold State.charge
  extract_lets +onlyGivenNames key used barred budget
  split
  · exact h.frame.showSlack
  · exact h.setCfld.unless (·.raiseWiden)

theorem Keeps.search (h : Keeps r s) {pay : Option Payer} {t : TileIn} {k rung : Nat} {master ran : Bool} {f q : Nat}
    {rs : List ElemRun} : Keeps r (s.search pay t k rung master ran f q rs).st := by
  induction f generalizing s ran q rs with
  | zero => exact h
  | succ f ih =>
    unfold State.search
    split
    · exact h
    · split
      · exact h
      · split
        · exact ih h
        · split
          split
          · exact ih (h.charge.pair ‹_›).addCfld
          · exact h.charge.pair ‹_›

/-! ### Lattice -/

theorem Keeps.settleTile (h : Keeps r s) {core : Nat} {j : Job} {g : Group} {i : Nat} {t : Tile} :
    Keeps r (s.settleTile core j g i t).2.2 := by
  unfold State.settleTile
  split
  · exact h
  · dsimp only
    split
    · exact h.search
    · exact h.search.setXfer
    · exact h.search

theorem Keeps.settleTiles (h : Keeps r s) {core : Nat} {j : Job} {g : Group} : Keeps r (s.settleTiles core j g).2.2 := by
  refine List.foldlRecOn (motive := fun x : Option Fetch × List Tile × State => Keeps r x.2.2) _ _ h fun x h i _ => ?_
  dsimp only
  split
  · exact h.settleTile
  · exact h

theorem Keeps.putGroup (h : Keeps r s) {core n : Nat} {g : Group} : Keeps r (s.putGroup core n g) := h.setCore

theorem Keeps.openGroup (h : Keeps r s) {a : Attr} {j : Job} {o : OpenArg} : Keeps r (s.openGroup a j o) := by
  unfold State.openGroup
  extract_lets +onlyGivenNames code o
  refine .ite h.checkFail ?_
  split
  · exact h.fetchFails
  · extract_lets +onlyGivenNames g s
    have hs : Keeps r s := by
      unfold s
      split
      · exact h.showSlack
      · exact h
    clear_value s
    split
    rename_i e
    have ht : Keeps r _ := hs.settleTiles.triple e
    split
    · exact ht.fetchFails
    · exact ht.putGroup

theorem Keeps.accumulate (h : Keeps r s) {a : Attr} {j : Job} {o : AccArg} : Keeps r (s.accumulate a j o) := by
  unfold State.accumulate
  extract_lets +onlyGivenNames n orient rs
  refine .ite h.checkFail ?_
  split
  · exact h.checkFail
  · extract_lets +onlyGivenNames code
    refine .ite h (.ite h.checkFail ?_)
    extract_lets +onlyGivenNames g
    split
    rename_i e
    have ht : Keeps r _ := h.settleTiles.triple e
    split
    · exact ht.fetchFails
    · exact ht.putGroup

/-! ### Ladder -/

theorem Keeps.climb (h : Keeps r s) {core : Nat} {j : Job} {out : Tensor} {c : Conv} {g : Group} {i : Nat} {n : NarrowArg}
    {p : Payer} {fuel rung q : Nat} {es : List AccElem} {t : Tile} {x : RungIn} {y : Result}
    (e : s.climb core j out c g i n p fuel rung q es t x = .inr (y, u)) : Keeps r u := by
  induction fuel generalizing s rung q es t x with
  | zero => cases e; exact h
  | succ fuel ih =>
    unfold State.climb at e
    dsimp only at e
    split at e
    · cases e; exact h
    · split at e
      · cases e; exact h.addCfld.raiseWiden
      · split at e
        · cases e; exact h.charge
        · split at e
          · cases e
          · split at e
            · cases e
            · exact ih h.charge.addCfld.setXfer.search e

theorem Keeps.closeTile (h : Keeps r s) {core : Nat} {j : Job} {out : Tensor} {c : Conv} {g : Group} {i : Nat} {t : Tile}
    {y : Result} (e : s.closeTile core j out c g i t = .inr (y, u)) : Keeps r u := by
  unfold State.closeTile at e
  dsimp only at e
  split at e
  · cases e; exact h
  · split at e
    · split at e
      · cases e
      · exact h.climb e
    · cases e; exact h

theorem Keeps.storeRows (h : Keeps r s) {j : Job} {out : Tensor} {t : TileArg} {rows : List (List Byte)} :
    Keeps r (s.storeRows j out t rows).2 := by
  refine List.foldlRecOn (motive := fun x : Option Fetch × State => Keeps r x.2) _ _ h fun x h l _ => ?_
  dsimp only
  split
  · exact h
  · exact h.storeParts

theorem Keeps.storeRecord (h : Keeps r s) {j : Job} {out : Tensor} {t : TileArg} {r' : List Byte} :
    Keeps r (s.storeRecord j out t r').2 := by
  unfold State.storeRecord
  split
  · exact h
  · split
    · exact h
    · exact h.storeParts

theorem Keeps.noteNf (h : Keeps r s) {out : Tensor} {st : Stored} : Keeps r (s.noteNf out st) := h.when (·.frame)

theorem Keeps.writeTile (h : Keeps r s) {core : Nat} {j : Job} {out : Tensor} {c : Conv} {t : TileArg} {dest : StoreDest}
    {off : Nat} {st : Stored} : Keeps r (s.writeTile core j out c t dest off st).2 := by
  unfold State.writeTile
  extract_lets +onlyGivenNames s1
  have h1 : Keeps r s1 := h.noteNf.noteMax.rescale
  clear_value s1
  cases dest <;> dsimp only <;> split
  · exact h1.storeRows.storeRecord.putScents
  · exact h1.storeRows.storeRecord
  · exact h1.sramWrite.storeRecord.putScents
  · exact h1.sramWrite.storeRecord

theorem Keeps.closeTiles (h : Keeps r s) {core : Nat} {j : Job} {out : Tensor} {c : Conv} {g : Group} {dest : StoreDest}
    {l : List (Nat × Tile × Nat)} : Keeps r (s.closeTiles core j out c g dest l).2 := by
  induction l generalizing s with
  | nil => exact h
  | cons x l ih =>
    unfold State.closeTiles
    split
    · exact h
    · rename_i e
      split
      split
      · exact (h.closeTile e).writeTile.pair ‹_›
      · exact ih ((h.closeTile e).writeTile.pair ‹_›)

theorem Keeps.close (h : Keeps r s) {a : Attr} {j : Job} {group : Nat} {dest : StoreDest} {conv : Conv} :
    Keeps r (s.close a j group dest conv) := by
  unfold State.close
  extract_lets +onlyGivenNames at0
  split
  · exact h.checkFail
  · split
    · exact h.checkFail
    · extract_lets +onlyGivenNames c base starts rs code
      refine .ite h.checkFail (.ite h.checkFail ?_)
      extract_lets +onlyGivenNames bad
      clear_value bad
      split
      · exact h.fetchFails
      · extract_lets +onlyGivenNames ts
        split
        · rename_i e
          split
          · exact (h.closeTiles.pair e).fetchFails
          · exact (h.closeTiles.pair e).setCore

/-! ### Vector -/

theorem Keeps.convertSram (h : Keeps r s) {a : Attr} {j : Job} {c : Conv} {off : Nat} {us us' : List Xv} :
    Keeps r (s.convertSram a j c off us us') := by
  unfold State.convertSram
  extract_lets +onlyGivenNames ct
  split
  · exact h.fetchFails
  · extract_lets +onlyGivenNames xs sDst flush out s _ s1 s2
    have hs : Keeps r s := by
      unfold s
      split
      · exact h.noteMax.rescale
      · exact h
    have hs1 : Keeps r s1 := hs.setCore
    have hs2 : Keeps r s2 := hs1.sramWrite
    split
    · exact hs2.putScents.scentFails
    · exact hs2

theorem Keeps.vop (h : Keeps r s) {a : Attr} {j : Job} {o : VopArg} : Keeps r (s.vop a j o) :=
  h.fork (·.checkFail) fun h => h.fork (·.checkFail) fun h => h.fork (·.checkFail) fun h =>
  h.fork (·.checkFail) fun h => h.fork (·.checkFail) (·.convertSram)

theorem Keeps.vconvert (h : Keeps r s) {a : Attr} {j : Job} {src dst n : Nat} {sfmt : Fmt} {conv : Conv} :
    Keeps r (s.vconvert a j src dst n sfmt conv) :=
  h.fork (·.checkFail) fun h => h.fork (·.checkFail) (·.convertSram)

theorem Keeps.flutterCmd (h : Keeps r s) {a : Attr} {j : Job} {dom id draw e0 n : Nat} {mode : FltMode} {thr dst : Nat} :
    Keeps r (s.flutterCmd a j dom id draw e0 n mode thr dst) := by
  unfold State.flutterCmd
  split
  · exact h.checkFail
  · exact h.fork (·.checkFail) (·.sramWrite)

/-! ### Update -/

theorem Keeps.putState (h : Keeps r s) {j : Job} {t : Tensor} {v first n : Nat} {bs : List Byte} :
    Keeps r (s.putState j t v first n bs).2 := by
  unfold State.putState
  split
  · exact h
  · exact h.storeParts

theorem Keeps.scrambleSram (h : Keeps r s) {core layer off len : Nat} : Keeps r (s.scrambleSram core layer off len) :=
  h.sramWrite

theorem Keeps.afterStaging (h : Keeps r s) {core : Nat} {r' : Recipe} {t : Tensor} {n : Nat} :
    Keeps r (s.afterStaging core r' t n) :=
  h.scrambleSram.when (·.scrambleSram)

theorem Keeps.noteMasters (h : Keeps r s) {j : Job} {mt wt : Tensor} {ws : List W32} : Keeps r (s.noteMasters j mt wt ws) :=
  h.noteMax.frame.unless (·.maximaResult)

theorem Keeps.sendUnits (h : Keeps r s) {j : Job} {r' : Recipe} {l k : Nat} {mine : List (Nat × List W32)} :
    Keeps r (s.sendUnits j r' l k mine) := by
  unfold State.sendUnits
  split
  · exact h
  · exact h.unless (·.contributeVals.setColl)

theorem Keeps.zeroElems (h : Keeps r s) {j : Job} {g : Tensor} {slot first n : Nat} :
    Keeps r (s.zeroElems j g slot first n).2 :=
  h.putState

theorem Keeps.zeroGrad (h : Keeps r s) {j : Job} {g : Tensor} {u : PassUse} {o : UpdArg} :
    Keeps r (s.zeroGrad j g u o).2 := by
  unfold State.zeroGrad
  split
  · exact h.frame
  · exact h.zeroElems

theorem Keeps.deposits (h : Keeps r s) {l : List (State → Option Fetch × State)}
    (hl : ∀ d ∈ l, ∀ {r s}, Keeps r s → Keeps r (d s).2) : Keeps r (s.deposits l).2 := by
  induction l generalizing s with
  | nil => exact h
  | cons d l ih =>
    have hd := hl d List.mem_cons_self h
    unfold State.deposits
    split
    · exact hd.pair ‹_›
    · exact ih (hd.pair ‹_›) fun d hd => hl d (List.mem_cons_of_mem _ hd)

theorem Keeps.updateDone (h : Keeps r s) {j : Job} {t : Tensor} {n : Nat} : Keeps r (s.updateDone j t n) :=
  h.frame.when (·.stepDone)

theorem Keeps.bindLater (h : Keeps r s) {t : Tensor} {v : Nat} : Keeps r (s.bindLater t v) := h.when (·.frame)

theorem passDeposits_keeps {j : Job} {p : Recipe} {o : UpdArg} {x : UpdTensors} {u : PassUse} {v : PassVals}
    {mc ec : List (Nat × Cvt)} {wb : List Byte} :
    ∀ d ∈ passDeposits j p o x u v mc ec wb, ∀ {r s}, Keeps r s → Keeps r (d s).2 := by
  unfold passDeposits
  extract_lets +onlyGivenNames float moment _ ema recipeState work
  have hfloat : ∀ t cs {r s}, Keeps r s → Keeps r (float t cs s).2 := fun _ _ _ _ h => h.putState
  have hmoment : ∀ i y {r s}, Keeps r s → Keeps r (moment i y s).2 := fun i y r s h => by
    unfold moment
    split
    · split
      · exact h.addFld.putState
      · exact h
    · exact h
  have hema : ∀ {r s}, Keeps r s → Keeps r (ema s).2 := fun {r s} h => by
    unfold ema
    split
    · exact hfloat _ _ h.noteMax.bindLater
    · exact h
  have hrecipe : ∀ {r s}, Keeps r s → Keeps r (recipeState s).2 := fun {r s} h => by
    unfold recipeState
    split
    · exact h.putState
    · exact h
  have hwork : ∀ {r s}, Keeps r s → Keeps r (work s).2 := fun {r s} h => by
    unfold work
    split
    · exact h.bindScale.putState.reprint
    · exact h
  intro d hd
  simp only [List.mem_cons, List.not_mem_nil, or_false] at hd
  obtain rfl | rfl | rfl | rfl | rfl | rfl | rfl := hd
  · exact hfloat _ _
  · exact hmoment _ _
  · exact hmoment _ _
  · exact hema
  · exact hrecipe
  · exact hwork
  · exact (·.zeroGrad)

theorem Keeps.commitPass (h : Keeps r s) {a : Attr} {j : Job} {p : Recipe} {o : UpdArg} {x : UpdTensors} {reads : Nat}
    {u : PassUse} {v : PassVals} : Keeps r (s.commitPass a j p o x reads u v) := by
  unfold State.commitPass
  extract_lets masters mc ec w s1 was
  have h1 : Keeps r s1 := h.setXfer
  clear_value s1
  split
  rename_i f s2 e
  have h2 : Keeps r { s2 with failing := was } :=
    Keeps.marked (s := { s1 with failing := failedBlocks a.mem }) h1
      (((Keeps.refl _).deposits passDeposits_keeps).pair e) h1.failing
  split
  · exact h2.fetchFails
  · exact h2.noteMasters.afterStaging.updateDone

theorem Keeps.markUpd (h : Keeps r s) {a : Attr} {o : UpdArg} {st : CmdStatus} : Keeps r (s.markUpd a o st) := h.setCore

theorem Keeps.runPass (h : Keeps r s) {j : Job} {r' : Recipe} {l : Nat} {u : PassUse} {us : List (Attr × UpdArg)} :
    Keeps r (s.runPass j r' l u us) := by
  unfold State.runPass
  extract_lets +onlyGivenNames us
  split
  · exact h.fetchFails
  · split
    · exact h.fetchFails
    · exact h
  · extract_lets +onlyGivenNames _ s
    have hs : Keeps r s := h.frame
    split
    · exact hs.sendUnits
    · extract_lets +onlyGivenNames vals _ s
      have hs : Keeps r s := hs.frame
      split
      · exact hs.markUpd.coreHalt
      · exact hs.foldl fun _ h => h.when (·.markUpd.commitPass.markUpd)
    · exact hs
  · exact h

theorem Keeps.tryPass (h : Keeps r s) {j : Job} {l : Nat} : Keeps r (s.tryPass j l) := by
  unfold State.tryPass
  extract_lets +onlyGivenNames us
  clear_value us
  split
  · split
    · exact h.unless (·.runPass)
    · exact h
  · exact h

theorem Keeps.resumePasses (h : Keeps r s) : Keeps r s.resumePasses := by
  unfold State.resumePasses
  split
  · exact h.foldl fun _ h => h.tryPass
  · exact h

theorem Keeps.update (h : Keeps r s) {a : Attr} {j : Job} {o : UpdArg} : Keeps r (s.update a j o) := by
  unfold State.update
  split
  · extract_lets +onlyGivenNames r'
    refine .ite h.checkFail (.ite h.checkFail ?_)
    extract_lets +onlyGivenNames s1
    have h1 : Keeps r s1 := h.settleReduce
    clear_value s1
    split
    · exact h1
    · refine .ite ?_ (h1.fork (·.runPass) (·.frame.tryPass))
      split
      split
      · exact (h1.zeroGrad.pair ‹_›).fetchFails
      · exact h1.zeroGrad.pair ‹_›
  · exact h.checkFail

/-! ### Scheduler -/

theorem Keeps.perform (h : Keeps r s) {j : Job} {c : Instr} : Keeps r (s.perform j c) := by
  unfold State.perform
  split
  · exact h.checked (·.openGroup)
  · exact h.checked (·.accumulate)
  · exact h.checked (·.close)
  · exact h.checked (·.vop)
  · exact h.checked (·.vconvert)
  · exact h.checked (·.flutterCmd)
  · exact h.checked (·.update)
  · exact h.checked (·.retrieve)
  · exact h.checked (·.deposit)
  · exact h.checked (·.send)
  · exact h.checked (·.accept)
  · exact h.checked (·.contribute)
  · exact h.checked (·.imemLoad)
  · exact h

theorem Keeps.control (h : Keeps r s) {c : Instr} {since : Nat} {go : Bool} : KeepsOpt r (s.control c since go) := by
  unfold State.control
  extract_lets guard
  have hg : ∀ a k, (∀ {r s}, Keeps r s → KeepsOpt r (k s)) → KeepsOpt r (guard a k) := fun a k hk =>
    .ite (.some (h.checked id)) (.ite (hk h) (.ite (.some (h.meetCore id)) (.marked h.meeting (hk (.refl _)))))
  split
  · exact hg _ _ fun h => h.heel
  · exact hg _ _ fun h => .some h.retire
  · exact hg _ _ fun h => .some h.branch
  · exact hg _ _ fun h => .some h.decideBranch
  · exact hg _ _ fun h => h.swap
  · exact hg _ _ fun h => .some h.endCore
  · exact .some h

theorem Keeps.deliverDue (h : Keeps r s) : Keeps r s.deliverDue := h.foldl fun _ h => h.handOver

theorem Keeps.setWindow (h : Keeps r s) {n : Nat} {w : List WinCmd} : Keeps r (s.setWindow n w) := h.setCore

theorem Keeps.afterIssue (h : Keeps r s) {n i t : Nat} : Keeps r (s.afterIssue n i t) := h.unless (·.setWindow)

theorem Keeps.issueOne (h : Keeps r s) {j : Job} {n : Nat} {e : Engine} : Keeps r (s.issueOne j n e) := by
  unfold State.issueOne
  refine .ite h ?_
  extract_lets +onlyGivenNames w is
  split
  · exact h
  · extract_lets +onlyGivenNames passed
    split
    · exact h.setWindow.perform.afterIssue
    · exact h

theorem Keeps.takeIn (h : Keeps r s) {n : Nat} {l : List Instr} : Keeps r (s.takeIn n l) := by
  induction l generalizing s with
  | nil => exact h.setCore
  | cons c l ih =>
    refine .ite h.setCore ?_
    extract_lets +onlyGivenNames a
    split
    · exact h.setCore
    · exact ih (h.when (·.skipTag)).setWindow

theorem Keeps.retireDone (h : Keeps r s) {n : Nat} {l : List WinCmd} : Keeps r (s.retireDone n l) := by
  induction l generalizing s with
  | nil => exact h.setWindow
  | cons x l ih =>
    unfold State.retireDone
    split
    · refine ih ?_
      split
      · exact h.retire.followed
      · exact h
    · exact h.setWindow

theorem Keeps.frontControl (h : Keeps r s) {n : Nat} {go : Bool} : Keeps r (s.frontControl n go) := by
  unfold State.frontControl
  split
  · refine .ite h ?_
    split
    · exact (h.control _ ‹_›).when (·.setWindow.followed)
    · split
      · exact h.waitAtHeel
      · exact h.setWindow
  · exact h

theorem Keeps.finishEnding (h : Keeps r s) {n : Nat} : Keeps r (s.finishEnding n) := by
  unfold State.finishEnding
  extract_lets +onlyGivenNames c
  refine .ite ?_ ?_
  · split
    · exact h.endHalts
    · exact h.unless (·.freeze)
    · exact h
  · exact h

theorem Keeps.cycle (h : Keeps r s) {j : Job} {n : Nat} {go : Bool} : Keeps r (s.cycle j n go) :=
  ((h.takeIn.foldl fun _ h => h.issueOne).when (·.retireDone)).frontControl

theorem Keeps.lateHeel (h : Keeps r s) {n : Nat} : Keeps r (s.lateHeel n) := by
  unfold State.lateHeel
  split
  · split
    · exact h.when (·.heelFails)
    · exact h
  · exact h

theorem Keeps.noteHeld (h : Keeps r s) {n : Nat} : Keeps r (s.noteHeld n) := h.setWindow

theorem Keeps.showWindow (h : Keeps r s) {n : Nat} : Keeps r (s.showWindow n) := h.when (·.setCfld)

theorem Keeps.runCore (h : Keeps r s) {j : Job} {n : Nat} {go : Bool} {f : Nat} : Keeps r (s.runCore j n go f) := by
  induction f generalizing s with
  | zero => exact h
  | succ f ih => exact h.unless fun h => ih h.cycle

theorem Keeps.runWindow (h : Keeps r s) {n : Nat} {go : Bool} : Keeps r (s.runWindow n go) := by
  unfold State.runWindow
  split
  · exact h.runCore.lateHeel.noteHeld.showWindow
  · exact h

theorem Keeps.settle (h : Keeps r s) : Keeps r s.settle :=
  h.when fun h => ((h.deliverDue.foldl fun _ h => h.unless (·.runWindow)).foldl fun _ h => h.finishEnding).saveEnd

theorem Keeps.enterAlone (h : Keeps r s) {j : Job} {a : Attr} {c : Instr} : Keeps r (s.enterAlone j a c) := by
  unfold State.enterAlone
  split
  · exact h.freeze
  · extract_lets +onlyGivenNames s1 wait
    have h1 : Keeps r s1 := h.when (·.skipTag)
    have hwait : ∀ {s} st, Keeps r s → Keeps r (wait s st) := fun _ h => h.setWindow.showWindow
    refine .ite ?_ (.ite ?_ (hwait _ h1))
    · split
      · exact h1.control _ ‹_›
      · split
        · exact hwait _ h1.waitAtHeel
        · exact hwait _ h1
    · exact h1.perform.fork (fun h => hwait _ h) (·.when (·.retire))

theorem Keeps.submit (h : Keeps r s) {j : Job} {a : Attr} {c : Instr} : Keeps r (s.submit j a c) :=
  h.deliverDue.fork (·.enterAlone) (·.setCore.followed.runWindow)

theorem Keeps.coreCmd (h : Keeps r s) {a : Attr} {c : Instr} : Answers r (coreCmd a c s) := h.whenLive fun h => by
    split
    · exact h.when (·.submit.settle)
    · exact h

/-! ### Cores -/

theorem Keeps.execHeel (h : Keeps r s) {a : Attr} {h' d : Nat} {waits : List (Nat × Nat)} :
    Answers r (execHeel a h' d waits s) :=
  h.coreCmd

theorem Keeps.execFence (h : Keeps r s) {a : Attr} : Answers r (execFence a s) := h.coreCmd

theorem Keeps.execBranch (h : Keeps r s) {a : Attr} {target : Nat} : Answers r (execBranch a target s) := h.coreCmd

theorem Keeps.execDecide (h : Keeps r s) {a : Attr} {mask target : Nat} : Answers r (execDecide a mask target s) := h.coreCmd

theorem Keeps.execSwap (h : Keeps r s) {a : Attr} {segment entry : Nat} : Answers r (execSwap a segment entry s) := h.coreCmd

theorem Keeps.execEndStream (h : Keeps r s) {a : Attr} : Answers r (execEndStream a s) := h.coreCmd

theorem Keeps.execOpenGroup (h : Keeps r s) {a : Attr} {o : OpenArg} : Answers r (execOpenGroup a o s) := h.coreCmd

theorem Keeps.execAccumulate (h : Keeps r s) {a : Attr} {o : AccArg} : Answers r (execAccumulate a o s) := h.coreCmd

theorem Keeps.execClose (h : Keeps r s) {a : Attr} {group : Nat} {dest : StoreDest} {conv : Conv} :
    Answers r (execClose a group dest conv s) :=
  h.coreCmd

theorem Keeps.execVop (h : Keeps r s) {a : Attr} {o : VopArg} : Answers r (execVop a o s) := h.coreCmd

theorem Keeps.execVconvert (h : Keeps r s) {a : Attr} {src dst n : Nat} {sfmt : Fmt} {conv : Conv} :
    Answers r (execVconvert a src dst n sfmt conv s) :=
  h.coreCmd

theorem Keeps.execFlutter (h : Keeps r s) {a : Attr} {dom id draw e0 n : Nat} {mode : FltMode} {thr dst : Nat} :
    Answers r (execFlutter a dom id draw e0 n mode thr dst s) :=
  h.coreCmd

theorem Keeps.execUpdate (h : Keeps r s) {a : Attr} {o : UpdArg} : Answers r (execUpdate a o s) := h.coreCmd

theorem Keeps.execRetrieve (h : Keeps r s) {a : Attr} {o : RetArg} : Answers r (execRetrieve a o s) := h.coreCmd

theorem Keeps.execDeposit (h : Keeps r s) {a : Attr} {o : DepArg} : Answers r (execDeposit a o s) := h.coreCmd

theorem Keeps.execSend (h : Keeps r s) {a : Attr} {stream seq src slot : Nat} {pairForm : Bool} :
    Answers r (execSend a stream seq src slot pairForm s) :=
  h.coreCmd

theorem Keeps.execAccept (h : Keeps r s) {a : Attr} {stream seq dst : Nat} : Answers r (execAccept a stream seq dst s) :=
  h.coreCmd

theorem Keeps.execContribute (h : Keeps r s) {a : Attr} {stream src count unit slot : Nat} :
    Answers r (execContribute a stream src count unit slot s) :=
  h.coreCmd

theorem Keeps.execImemLoad (h : Keeps r s) {a : Attr} {segment bank : Nat} : Answers r (execImemLoad a segment bank s) :=
  h.coreCmd

/-! ### Timed -/

theorem Keeps.whenTimed (h : Keeps r s) {f : State → State} (hf : ∀ {r s}, Keeps r s → Keeps r (f s)) :
    Answers r (s.whenTimed f) :=
  h.whenLive fun h => (hf h).settle

theorem Keeps.heelDeadline (h : Keeps r s) {n : Nat} : Keeps r (s.heelDeadline n) := by
  unfold State.heelDeadline
  split
  · split
    · extract_lets +onlyGivenNames s
      have hs : Keeps r s := h.advanceTo.deliverDue.runWindow
      refine .ite hs ?_
      split
      · exact hs
      · exact hs.heelFails
      · exact hs.heelFails
    · exact h
  · exact h

theorem Keeps.execHeelDeadline (h : Keeps r s) {n : Nat} : Answers r (execHeelDeadline n s) :=
  h.whenTimed fun h => h.when (·.heelDeadline)

theorem Keeps.breakFreeze (h : Keeps r s) {a : Attr} : Keeps r (s.breakFreeze a) := by
  unfold State.breakFreeze
  refine .ite ?_ ?_
  · split
    · exact h.fork (·.freeze) (·.setCore)
    · exact h
  · exact h

theorem Keeps.execBreakFreeze (h : Keeps r s) {a : Attr} : Answers r (execBreakFreeze a s) := h.whenTimed (·.breakFreeze)

theorem Keeps.execImemBankLoadComplete (h : Keeps r s) {n bank : Nat} : Answers r (execImemBankLoadComplete n bank s) :=
  h.whenTimed fun h => h.when (·.bankLoaded)

theorem Keeps.saveReached (h : Keeps r s) {j : Job} : Keeps r (s.saveReached j) := by
  unfold State.saveReached
  split
  · exact h
  · exact h.advanceTo.settle.when fun h => (h.foldl fun _ h => h.saveMark).unless (·.saveNow)

theorem Keeps.execStepOrigin (h : Keeps r s) : Answers r (execStepOrigin s) := h.whenTimed fun h => by
    split
    · exact h.when fun h => h.fork (·.saveReached) (·.stepOrigin)
    · exact h

theorem Keeps.execCtxSaveFreeze (h : Keeps r s) : Answers r (execCtxSaveFreeze s) := h.whenTimed fun h => by
    split
    · exact h.when (·.saveReached)
    · exact h

theorem Keeps.execScheduledSendSlot (h : Keeps r s) {p : Nat} : Answers r (execScheduledSendSlot p s) :=
  h.whenTimed fun h => h.when (·.nextSlotSend)

theorem Keeps.execForwardSend (h : Keeps r s) {p : Nat} : Answers r (execForwardSend p s) :=
  h.whenTimed fun h => h.when (·.forwardNext)

theorem Keeps.execResendSpare (h : Keeps r s) {p : Nat} : Answers r (execResendSpare p s) := h.whenTimed fun h => by
    split
    · exact h.advanceTo.txDone.when (·.addFld.resendIn)
    · exact h

theorem Keeps.execRetryOverrun (h : Keeps r s) {p : Nat} : Answers r (execRetryOverrun p s) := h.whenTimed fun h => by
    split
    · exact h.advanceTo.txDone.raise
    · exact h

theorem Keeps.execRetryExhausted (h : Keeps r s) {p : Nat} {found : Option Flit} : Answers r (execRetryExhausted p found s) :=
  h.whenTimed fun h => by
    split
    · exact h.advanceTo.unless (·.retryFails)
    · exact h

theorem Keeps.execFlitDelivery (h : Keeps r s) {stream seq : Nat} : Answers r (execFlitDelivery stream seq s) :=
  h.whenTimed fun h => h.when (·.flitDeliver)

theorem Keeps.execPlaceDelivery (h : Keeps r s) {stream : Nat} {seq : MetNat} : Answers r (execPlaceDelivery stream seq s) :=
  h.whenTimed fun h => by
    split
    · exact h.advanceTo.meet (·.frame.placeArrive)
    · exact h

theorem Keeps.execReduceApply (h : Keeps r s) {stack : MetNat} : Answers r (execReduceApply stack s) :=
  h.whenTimed fun h => h.meet (·.reduceApply)

theorem Keeps.execCollectiveLastSendSlot (h : Keeps r s) {id : Nat} : Answers r (execCollectiveLastSendSlot id s) :=
  h.whenTimed fun h => by
    split
    · exact h.when (·.lastSend)
    · exact h

theorem Keeps.execCollectiveDelivery (h : Keeps r s) {id : Nat} : Answers r (execCollectiveDelivery id s) :=
  h.whenTimed fun h => by
    split
    · exact h.when (·.collDeliver.resumePasses)
    · exact h

theorem Keeps.execInputDeadline (h : Keeps r s) {ix : Nat} : Answers r (execInputDeadline ix s) := h.whenTimed fun h => by
    split
    · split
      · exact h.inputCheck
      · exact h
    · exact h

theorem Keeps.execDescDeadline (h : Keeps r s) {q i : Nat} : Answers r (execDescDeadline q i s) := h.whenTimed fun h => by
    split
    · exact h.when fun h => (h.fork (·.brokenCopy) fun h =>
        h.when (·.discardJob.loosen)).advanceTo.startDesc.decideDesc.dropWaits
    · exact h

theorem Keeps.execPowerIntervalEnd (h : Keeps r s) : Answers r (execPowerIntervalEnd s) := h.whenTimed (·.intervalEnd)

theorem Keeps.execBeatStart (h : Keeps r s) {a : Activity} : Answers r (execBeatStart a s) := h.whenTimed (·.beatStarts)

/-! ### Tick -/

theorem Keeps.tick (h : Keeps r s) : Keeps r s.tick := h.unless (·.advanceTo.settle)

/-! ### Every command -/

/-- Every command but SVN_COMMIT keeps, each as its own meaning does. -/
theorem Keeps.exec (h : Keeps r s) {c : Instr} (hc : c ≠ .svnCommit) : Answers r (exec c s) := by
  cases c with
  | vin48Valid => exact h.execVin48Valid
  | vin48Loss => exact h.execVin48Loss
  | sb33Loss => exact h.execSb33Loss
  | sb33Return => exact h.execSb33Return
  | mcSelfCheckDone => exact h.execMcSelfCheckDone
  | leaderHandshakeSignal => exact h.execLeaderHandshakeSignal
  | candidateTimeout => exact h.execCandidateTimeout
  | leaderConfirmTimeout => exact h.execLeaderConfirmTimeout
  | aliveToggle => exact h.execAliveToggle
  | aliveTimeout => exact h.execAliveTimeout
  | mcLeadForce => exact h.execMcLeadForce
  | inspect => exact h.execInspect
  | commit => exact h.execCommit
  | run => exact h.execRun
  | jobStart => exact h.execJobStart
  | stop => exact h.execStop
  | reset => exact h.execReset
  | heel => exact h.execHeel
  | heelDeadline => exact h.execHeelDeadline
  | fence => exact h.execFence
  | branch => exact h.execBranch
  | decide => exact h.execDecide
  | swap => exact h.execSwap
  | endStream => exact h.execEndStream
  | openGroup => exact h.execOpenGroup
  | accumulate => exact h.execAccumulate
  | close => exact h.execClose
  | vop => exact h.execVop
  | vconvert => exact h.execVconvert
  | flutter => exact h.execFlutter
  | update => exact h.execUpdate
  | retrieve => exact h.execRetrieve
  | deposit => exact h.execDeposit
  | send => exact h.execSend
  | accept => exact h.execAccept
  | contribute => exact h.execContribute
  | imemLoad => exact h.execImemLoad
  | imemBankLoadComplete => exact h.execImemBankLoadComplete
  | breakFreeze => exact h.execBreakFreeze
  | ctxSaveFreeze => exact h.execCtxSaveFreeze
  | stepOrigin => exact h.execStepOrigin
  | chrysalisReady => exact h.execChrysalisReady
  | memChryRel => exact h.execMemChryRel
  | portModeWrite => exact h.execPortModeWrite
  | train => exact h.execTrain
  | trainingStateComplete => exact h.execTrainingStateComplete
  | trainingTimeout => exact h.execTrainingTimeout
  | fecLockLoss => exact h.execFecLockLoss
  | linkSilence => exact h.execLinkSilence
  | scheduledSendSlot => exact h.execScheduledSendSlot
  | dataFlitReceive => exact h.execDataFlitReceive
  | failedFlitReceive => exact h.execFailedFlitReceive
  | nakReceive => exact h.execNakReceive
  | resendSpare => exact h.execResendSpare
  | retryOverrun => exact h.execRetryOverrun
  | retryExhausted => exact h.execRetryExhausted
  | flitDelivery => exact h.execFlitDelivery
  | forwardSend => exact h.execForwardSend
  | placeDelivery => exact h.execPlaceDelivery
  | reduceApply => exact h.execReduceApply
  | stopFlitReceive => exact h.execStopFlitReceive
  | idleHoldReceive => exact h.execIdleHoldReceive
  | announceFlitReceive => exact h.execAnnounceFlitReceive
  | packtimeLock => exact h.execPacktimeLock
  | packtimeLockLost => exact h.execPacktimeLockLost
  | pfStretchReq => exact h.execPfStretchReq
  | beatStart => exact h.execBeatStart
  | stretchAutoEval => exact h.execStretchAutoEval
  | collectiveLastSendSlot => exact h.execCollectiveLastSendSlot
  | collectiveDelivery => exact h.execCollectiveDelivery
  | hostlinkFlitReceive => exact h.execHostlinkFlitReceive
  | replay => exact h.execReplay
  | snpInv => exact h.execSnpInv
  | snpData => exact h.execSnpData
  | hData => exact h.execHData
  | hAck => exact h.execHAck
  | regRd => exact h.execRegRd
  | regWr => exact h.execRegWr
  | memRd => exact h.execMemRd
  | memWr => exact h.execMemWr
  | descFetch => exact h.execDescFetch
  | nop => exact h.execNop
  | input => exact h.execInput
  | copyIn => exact h.execCopyIn
  | copyOut => exact h.execCopyOut
  | snapReq => exact h.execSnapReq
  | ctxSave => exact h.execCtxSave
  | jobLoad => exact h.execJobLoad
  | restore => exact h.execRestore
  | descComplete => exact h.execDescComplete
  | descDeadline => exact h.execDescDeadline
  | inputDeadline => exact h.execInputDeadline
  | wakeTimer => exact h.execWakeTimer
  | hlSqCfgWrite => exact h.execHlSqCfgWrite
  | hlCqCfgWrite => exact h.execHlCqCfgWrite
  | hlEvqCfgWrite => exact h.execHlEvqCfgWrite
  | contextRestore => exact h.execContextRestore
  | flutterTestGo => exact h.execFlutterTestGo
  | pwrCapWrite => exact h.execPwrCapWrite
  | pwrCapSchedWrite => exact h.execPwrCapSchedWrite
  | powerSample => exact h.execPowerSample
  | powerIntervalEnd => exact h.execPowerIntervalEnd
  | estimatorRecalibration => exact h.execEstimatorRecalibration
  | inputOvervoltage => exact h.execInputOvervoltage
  | inputOvercurrent die => exact h.execInputOvercurrent (die := die)
  | sustainedInputPower => exact h.execSustainedInputPower
  | intermediatePlane half => exact h.execIntermediatePlane (half := half)
  | regulator => exact h.execRegulator
  | powerStageDieTemperature die => exact h.execPowerStageDieTemperature (die := die)
  | dieJunction => exact h.execDieJunction
  | hbm4StackTemperature => exact h.execHbm4StackTemperature
  | marginMonitor => exact h.execMarginMonitor
  | droop => exact h.execDroop
  | hbmTemperatureReadout => exact h.execHbmTemperatureReadout
  | patrolScrub => exact h.execPatrolScrub
  | attest => exact h.execAttest
  | certOut => exact h.execCertOut
  | fwWrite => exact h.execFwWrite
  | svnCommit => exact absurd rfl hc
  | jobkey => exact h.execJobkey
  | debugUnlock => exact h.execDebugUnlock
  | ownerEnrol => exact h.execOwnerEnrol
  | i3cPointerWrite => exact h.execI3cPointerWrite
  | i3cRegisterWrite => exact h.execI3cRegisterWrite
  | i3cPrivateRead => exact h.execI3cPrivateRead
  | setdasa => exact h.execSetdasa
  | entdaa => exact h.execEntdaa
  | rstdaa => exact h.execRstdaa
  | enec => exact h.execEnec
  | disec => exact h.execDisec
  | getpid => exact h.execGetpid
  | getbcr => exact h.execGetbcr
  | getdcr => exact h.execGetdcr
  | getstatus => exact h.execGetstatus
  | getmwl => exact h.execGetmwl
  | getmrl => exact h.execGetmrl
  | registerWrite => exact h.execRegisterWrite
  | idleFlitReceive => exact h.execIdleFlitReceive
  | refclkFabStop => exact h.execRefclkFabStop
  | ddr5ModuleTemperature => exact h.execDdr5ModuleTemperature
  | bringUpChannelLoss => exact h.execBringUpChannelLoss

/-- Every command keeps, but for the fused records that SVN_COMMIT may change. -/
theorem Keeps.execAny (h : Keeps r s) (c : Instr) : ∃ n, Answers { r with nv := n } (Machine.exec c s) := by
  by_cases hc : c = .svnCommit
  · exact hc ▸ h.execSvnCommit
  · exact ⟨r.nv, h.exec hc⟩

/-- Settles O5: a step is a command's meaning or a slot of time, and every operation of either keeps. -/
theorem stepKeepsCanonicalForm : Obligations.StepKeepsCanonicalForm := by
  intro s t w e
  unfold step at e
  split at e
  · rename_i c rest _
    obtain ⟨n, h⟩ := (Keeps.refl { s with pending := rest }).execAny c
    rw [e] at h
    exact ⟨h.wf ⟨w.regs, w.mem, w.ports, w.cores, w.sram, w.sqs, w.cqs⟩, h.failing⟩
  · cases e
    have h := (Keeps.refl s).tick
    exact ⟨h.wf w, h.failing⟩

end Sys2Proof.Machine
end

section
/-! SUPPORT. Every command answers a next state, and a dark package holds still (Chapter 1). -/

namespace Sys2Proof.Machine
open Sys2Proof

-- Proofs elaborated in threads of their own would pass the check's limit of memory.
set_option Elab.async false

/-- The meaning of every command is a next state: none is a fault or a refusal. -/
theorem exec_next (c : Instr) (s : State) : ∃ t, exec c s = .next t := by
  cases c <;> exact ⟨_, rfl⟩

/-- What a live package would do, a dark one does not. -/
theorem next_of_dark {s t : State} (hd : s.dark = true) : (.next (if s.dark then s else t) : Res) = .next s := by
  rw [if_pos hd]

/-- What a live package does. -/
theorem next_of_live {s t : State} (hd : s.dark = false) : (.next (if s.dark then s else t) : Res) = .next t := by
  rw [if_neg (by simp [hd])]

/-- Settles O3: every meaning is a next state, and all but those of the four supply inputs change a live package alone. -/
theorem everyCommandIsAnswered : Obligations.EveryCommandIsAnswered := by
  refine ⟨exec_next, fun c s hd valid loss sb33Loss sb33Return => ?_⟩
  cases c
  case vin48Valid => exact absurd rfl (valid _ _ _ _)
  case vin48Loss => exact absurd rfl loss
  case sb33Loss => exact absurd rfl sb33Loss
  case sb33Return => exact absurd rfl sb33Return
  all_goals exact next_of_dark hd

end Sys2Proof.Machine
end

section
/-! SUPPORT. Where the commands of the supplies and of bring-up end (R22, R371 to R391): the way of an INSPECT through
BU_STATE, the start of the cores, and what the supply inputs do to the package. -/

namespace Sys2Proof.Machine
open Sys2Proof

-- Proofs elaborated in threads of their own would pass the check's limit of memory.
set_option Elab.async false

/-! ### Operations that leave BU_STATE, the job and the cores alone -/

/-- On the way from `r` to `s` the registers stay canonical, and BU_STATE, the job and the cores stay as they are. A proof
follows the operation, as with `Keeps`. -/
structure Steady (r s : State) : Prop where
  regs    : mapWf regDefault r.regs → mapWf regDefault s.regs
  buState : mapWf regDefault r.regs → s.reg rBuState = r.reg rBuState
  job     : s.job = r.job
  cores   : s.cores = r.cores

variable {r s t u : State}

theorem Steady.refl (s : State) : Steady s s := ⟨id, fun _ => rfl, rfl, rfl⟩

/-- A change of the other parts of the state. -/
theorem Steady.frame (h : Steady r s) (hr : t.regs = s.regs := by rfl) (hj : t.job = s.job := by rfl)
    (hc : t.cores = s.cores := by rfl) : Steady r t where
  regs w := hr ▸ h.regs w
  buState w := by rw [State.reg, hr]; exact h.buState w
  job := hj.trans h.job
  cores := hc.trans h.cores

theorem Steady.setReg (h : Steady r s) {a v : Nat} (ha : rBuState ≠ a := by decide) : Steady r (s.setReg a v) where
  regs w := State.setReg_regsWf (h.regs w) a v
  buState w := (State.reg_setReg_ne (h.regs w) ha v).trans (h.buState w)
  job := h.job
  cores := h.cores

theorem Steady.setFld (h : Steady r s) {a lo n x : Nat} (ha : rBuState ≠ a := by decide) : Steady r (s.setFld a lo n x) :=
  h.setReg ha

theorem Steady.addFld (h : Steady r s) {a lo n x : Nat} (ha : rBuState ≠ a := by decide) : Steady r (s.addFld a lo n x) :=
  h.setReg ha

theorem Steady.dropRegs (h : Steady r s) {p : Nat → Bool} (hp : p rBuState = false := by decide) :
    Steady r (s.dropRegs p) where
  regs w := State.dropRegs_regsWf (h.regs w) p
  buState w := by
    rw [← h.buState w, State.reg, State.dropRegs, mapGet_mapDrop, hp]
    rfl
  job := h.job
  cores := h.cores

theorem Steady.ite {c : Prop} [Decidable c] (h : Steady r s) (k : Steady r t) : Steady r (if c then s else t) := by
  split
  · exact h
  · exact k

theorem Steady.when {c : Prop} [Decidable c] (h : Steady r s) (k : Steady r s → Steady r t) :
    Steady r (if c then t else s) := .ite (k h) h

theorem Steady.foldl {α : Type} {f : State → α → State} {l : List α} (h : Steady r s)
    (hf : ∀ {s}, ∀ x ∈ l, Steady r s → Steady r (f s x)) : Steady r (l.foldl f s) :=
  List.foldlRecOn (motive := Steady r) _ _ h fun _ h x hx => hf x hx h

theorem Steady.pumpOnce {sr : State × Nat} (h : Steady r sr.1) {p : Nat} : Steady r (State.pumpOnce p sr).1 := by
  unfold State.pumpOnce
  dsimp only
  split
  · exact h
  · split
    · exact h
    · exact h.frame

theorem Steady.pump (h : Steady r s) {p : Nat} : Steady r (s.pump p) := by
  have ht : Steady r ((s.port p).txq.foldl (fun sr _ => State.pumpOnce p sr) (s, 0)).1 :=
    List.foldlRecOn (motive := fun sr : State × Nat => Steady r sr.1) _ _ h fun _ h _ _ => h.pumpOnce
  exact ht.foldl fun _ _ h => h.frame

theorem Steady.request (h : Steady r s) {p op addr param : Nat} {use : ReqUse} {data : List Byte} :
    Steady r (s.request p op addr param use data) :=
  Steady.pump h.frame

theorem Steady.event (h : Steady r s) {ev code core step value : Nat} : Steady r (s.event ev code core step value) := by
  unfold State.event
  dsimp only
  split
  · exact .ite (Steady.request h.frame) (Steady.addFld h.frame)
  · exact Steady.addFld h.frame

theorem Steady.loadLog (h : Steady r s) {sites : Bool} : Steady r (s.loadLog sites) :=
  have hd := h.setReg.foldl fun j _ h => h.setReg (by unfold rBuState rBuDlog; omega)
  .ite (hd.foldl fun k _ h => h.setReg (by unfold rBuState rBuSiteLog; omega)) hd

theorem Steady.loadFused (h : Steady r s) {leadSel : Bool} : Steady r (s.loadFused leadSel) := by
  unfold State.loadFused
  extract_lets nv s1 s2 s3 s4 s5 s6 s7 s8 s9 s10 en rv s11 s12 s13 s14
  have h10 : Steady r s10 := h.setReg.setReg.setFld.setFld.setReg.setReg.setFld.setFld.setFld.setFld
  have h12 : Steady r s12 := h10.setReg.setReg
  have h13 : Steady r s13 := h12.foldl fun n hn h => h.setReg (by
    have := List.mem_range.1 hn
    unfold rBuState rPwrGain
    omega)
  have h14 : Steady r s14 := h13.foldl fun k _ h => h.setReg (by unfold rBuState rBuSiteFuse; omega)
  exact h14.loadLog

theorem Steady.configDdr (h : Steady r s) {mods : List (Option DdrModule)} : Steady r (s.configDdr mods) := by
  unfold State.configDdr
  refine .ite h ?_
  extract_lets +onlyGivenNames ok
  clear_value ok
  split
  · exact h.setReg
  · exact h.setReg.event

theorem Steady.trainHbm (h : Steady r s) {failing absent : List Nat} : Steady r (s.trainHbm failing absent) :=
  Steady.frame (h.setReg (a := rMemHbm))

/-! ### INSPECT -/

/-- The INSPECT that has begun in `r` has ended: in INSPECT or in MAP, with BUSY clear. -/
structure Inspected (r s : State) : Prop where
  bu    : s.bu = 2 ∨ s.bu = 3
  idle  : s.fld rBuState 4 1 = 0
  job   : s.job = r.job
  cores : s.cores = r.cores

/-- A branch of an INSPECT: where it is taken, BU_STATE, the job and the cores are still those of its beginning. -/
theorem Steady.fork {c : Prop} [Decidable c] (h : Steady r s) (k : Steady r s → Inspected r t)
    (l : Steady r s → Inspected r u) : Inspected r (if c then t else u) := by
  split
  · exact k h
  · exact l h

/-- A write of BU_STATE beside STATE leaves STATE. -/
theorem State.bu_setFld (w : mapWf regDefault s.regs) {lo n x : Nat} (h : 4 ≤ lo) (hn : lo + n ≤ 64) :
    (s.setFld rBuState lo n x).bu = s.bu := State.fld_setFld_disjoint w hn (.inl h) _ _

section
variable (w : mapWf regDefault r.regs) (b : r.bu = 2)
include w b

/-- An INSPECT that stops with a code stays in INSPECT. -/
theorem Steady.inspectStop (h : Steady r s) {code : Nat} : Inspected r (s.inspectStop code) := by
  have w' := State.setFld_regsWf (h.regs w) rBuState 16 16 code
  have hs : s.bu = 2 := by rw [State.bu, State.fld, h.buState w]; exact b
  exact ⟨.inl ((State.bu_setFld w' (by decide) (by decide)).trans ((State.bu_setFld (h.regs w) (by decide) (by decide)).trans hs)),
    State.fld_setFld_same w' (by decide) _ _, h.job, h.cores⟩

omit b in
/-- An INSPECT that finds enough good sites enters MAP. -/
theorem Steady.enterMap (h : Steady r s) : Inspected r ((s.setFld rBuState 4 1 0).setBu stMap) := by
  have w' := State.setFld_regsWf (h.regs w) rBuState 4 1 0
  refine ⟨.inr (State.fld_setFld_same w' (by decide) _ _), ?_, h.job, h.cores⟩
  exact (State.fld_setFld_disjoint w' (by decide) (by decide) _ _).trans (State.fld_setFld_same (h.regs w) (by decide) _ _)

theorem Steady.inspectJudge (h : Steady r s) {f : Findings} {i : FwInfo} : Inspected r (s.inspectJudge f i) :=
  (h.frame.loadLog.setReg.setReg.setReg.foldl fun k _ h => (h.setReg (by unfold rBuState rBuSiteGood; omega)).setReg
    (by unfold rBuState rBuSiteTest; omega)).fork (·.inspectStop w b) fun h =>
      h.fork (·.inspectStop w b) fun h => h.fork (·.inspectStop w b) (·.enterMap w)

theorem Steady.inspectRest (h : Steady r s) {full : Bool} {f : Findings} : Inspected r (s.inspectRest full f) := by
  unfold State.inspectRest
  refine h.fork (fun h => ?_) fun h => ?_
  · extract_lets +onlyGivenNames region
    split
    · exact h.inspectStop w b
    · exact h.inspectStop w b
    · exact Steady.inspectJudge w b (Steady.setFld h.frame)
  · split
    · exact h.fork (·.inspectJudge w b) (·.inspectStop w b)
    · exact h.inspectStop w b

end

theorem State.bu_withPkg (s : State) (p : Pkg) : ({ s with pkg := p } : State).bu = s.bu := rfl

/-- What shows that an INSPECT has begun leaves the job and the cores. -/
theorem State.showInspect_spec (w : mapWf regDefault s.regs) (quick : Nat) (p : Pkg) :
    let u := (((s.setBu stInspect).setFld rBuState 4 1 1).setFld rBuState 7 1 quick).setFld rBuState 16 16 0
    ({ u with pkg := p } : State).bu = 2 ∧ u.job = s.job ∧ u.cores = s.cores := by
  have w1 : mapWf regDefault (s.setBu stInspect).regs := State.setFld_regsWf w ..
  have w2 := State.setFld_regsWf w1 rBuState 4 1 1
  have w3 := State.setFld_regsWf w2 rBuState 7 1 quick
  refine ⟨?_, rfl, rfl⟩
  rw [State.bu_withPkg, State.bu_setFld w3 (by decide) (by decide), State.bu_setFld w2 (by decide) (by decide),
    State.bu_setFld w1 (by decide) (by decide)]
  exact State.fld_setFld_same w (by decide) ..

/-- An INSPECT begins by showing INSPECT; the job and the cores stay. -/
theorem State.inspectStart_spec (w : s.Wf) (full : Bool) :
    (s.inspectStart full).bu = 2 ∧ (s.inspectStart full).job = s.job ∧ (s.inspectStart full).cores = s.cores := by
  unfold State.inspectStart
  extract_lets s1 s2
  have h2 : Steady s s2 := (Steady.refl s).dropRegs.loadLog
  clear_value s2
  obtain ⟨hb, hj, hc⟩ := State.showInspect_spec (h2.regs w.regs) (b2n !full) _
  exact ⟨hb, hj.trans h2.job, hc.trans h2.cores⟩

/-- Every INSPECT ends: in INSPECT with a code, or in MAP (R379). -/
theorem State.inspectRun_ends (w : s.Wf) (full : Bool) (f : Findings) : Inspected s (s.inspectRun full f) := by
  obtain ⟨hb, hj, hc⟩ := State.inspectStart_spec w full
  have w1 := ((Keeps.refl s).inspectStart (full := full).wf w).regs
  have h : Inspected (s.inspectStart full) (s.inspectRun full f) := by
    unfold State.inspectRun
    generalize s.inspectStart full = u at w1 hb
    exact (Steady.refl u).fork (·.inspectStop w1 hb) fun h => h.frame.trainHbm.fork (·.inspectStop w1 hb) fun h =>
      (h.when fun h => h.configDdr.frame).inspectRest w1 hb
  exact ⟨h.bu, h.idle, h.job.trans hj, h.cores.trans hc⟩

/-! ### RESET -/

/-- A compute-part reset loses the job and the cores, and its INSPECT ends (R391). -/
theorem State.computeReset_ends (w : s.Wf) (full : Bool) (f : Findings) :
    ((s.computeReset full f).bu = 2 ∨ (s.computeReset full f).bu = 3) ∧ (s.computeReset full f).fld rBuState 4 1 = 0
      ∧ (s.computeReset full f).job = none ∧ (s.computeReset full f).cores = [] := by
  obtain ⟨hb, hi, hj, hc⟩ : Inspected _ (s.computeReset full f) :=
    State.inspectRun_ends ((Keeps.refl s).loseTrim.frame.wf w) _ f
  exact ⟨hb, hi, hj, hc⟩

/-! ### RUN, JOB_START and STOP -/

/-- RUN enters RUN with B₀ = PF_START (R378). -/
theorem State.enterRun_spec (w : s.Wf) : s.enterRun.bu = 6 ∧ s.enterRun.stp.b0 = s.fld rPfStart 0 48 :=
  ⟨State.bu_setBu (((Keeps.refl s).setFld.foldl fun _ h => h.setCore).frame.wf w) (by decide), rfl⟩

/-- A core begins to run its active bank. -/
def State.startCore (s : State) (n : Nat) : State :=
  ((s.setCore n { s.core n with panting := false }).showBank n).setCstate n csRun

theorem State.startCore_quiet (s : State) (n : Nat) : Quiet coreReg s (s.startCore n) :=
  ((Quiet.setCore _ s n (s.core n).window (s.core n).stream (s.core n).ending false).trans (State.setCfld_quiet ..)).trans
    (State.setCfld_quiet ..)

/-- A core that starts is running; no other core's state changes. -/
theorem State.cstate_startCore (w : s.Wf) (n k : Nat) : (s.startCore n).cstate k = if k = n then 2 else s.cstate k := by
  have w1 := (Quiet.setCore coreReg s n (s.core n).window (s.core n).stream (s.core n).ending false).wf w
  have w2 := (Quiet.setCfld (s.setCore n { s.core n with panting := false }) n oState 3 1
    (b2n ((s.setCore n { s.core n with panting := false }).cfld n oBank 2 2 == 3))).wf w1
  refine (State.cstate_setCstate w2 n k csRun).trans ?_
  split
  · rfl
  · rename_i hk
    exact State.fld_setFld_ne w1.regs (fun e => hk (rCore_inj (by decide) (by decide) e).1) ..

theorem State.cstate_startCores (w : s.Wf) (l : List Nat) (k : Nat) :
    (l.foldl State.startCore s).cstate k = if k ∈ l then 2 else s.cstate k := by
  induction l generalizing s with
  | nil => simp
  | cons n l ih =>
    rw [List.foldl_cons, ih ((s.startCore_quiet n).wf w), State.cstate_startCore w]
    by_cases hk : k = n <;> simp [hk]

/-- Showing the island frequencies writes the FREQ registers of the cores alone. -/
theorem State.showFreq_quiet (s : State) : Quiet (fun r => ∃ n, r = rCore n oFreq) s s.showFreq :=
  .foldl (fun s n => (Quiet.setCfld s n oFreq 0 12 _).mono fun _ h => ⟨n, h⟩) _ s

/-- Cores that start are running, and the frequencies then shown leave them so. -/
theorem State.startCores_spec (w : s.Wf) (l : List Nat) :
    Quiet coreReg s (l.foldl State.startCore s).showFreq ∧ ∀ k ∈ l, (l.foldl State.startCore s).showFreq.cstate k = 2 := by
  have q : Quiet coreReg s (l.foldl State.startCore s) := .foldl State.startCore_quiet l s
  have q' := (l.foldl State.startCore s).showFreq_quiet
  refine ⟨q.trans (q'.mono fun r ⟨n, hr⟩ => hr ▸ coreReg_rCore n oFreq), fun k hk => ?_⟩
  have hne : ¬ ∃ n, rCore k oState = rCore n oFreq := fun ⟨_, e⟩ => absurd (rCore_inj (by decide) (by decide) e).2 (by decide)
  rw [State.cstate_of_regs (q'.regs (q.wf w) _ hne), State.cstate_startCores w, if_pos hk]

/-- A package fault in RUN ends in HALTED. -/
theorem State.raise_bu (w : s.Wf) (hr : s.running = true) (reason unit index : Nat) : (s.raise reason unit index).bu = 7 := by
  have hb : s.bu = 6 := by simpa [State.running, stRun] using hr
  rw [State.raise, if_neg (by simp [hb, stLoad]), if_pos hr]
  exact (State.stopAsOrigin_spec ((State.noteFault_quiet ..).wf (s.noteHalts_quiet.wf w)) _ _).1

/-! ### The supplies -/

theorem State.ite_pkg {c : Prop} [Decidable c] (h : t.pkg = s.pkg) (k : u.pkg = s.pkg) :
    (if c then t else u).pkg = s.pkg := by
  split
  · exact h
  · exact k

/-- Loading registers leaves the package's inputs and latches. -/
theorem State.setRegs_pkg {α : Type} (a v : State → α → Nat) (l : List α) (s : State) :
    (l.foldl (fun s x => s.setReg (a s x) (v s x)) s).pkg = s.pkg :=
  foldl_keep State.pkg (fun s x => s.setReg_pkg (a s x) (v s x)) l s

theorem State.loadLog_pkg (s : State) (sites : Bool) : (s.loadLog sites).pkg = s.pkg :=
  have hd := State.setRegs_pkg (fun _ => rBuDlog) (fun s j => (s.nv.dlog.getD j 0).toNat) (List.range 256)
    (s.setReg rBuDlogStat s.nv.dlog.length)
  State.ite_pkg ((State.setRegs_pkg (fun _ => rBuSiteLog) (fun s => logMask s.nv) _ _).trans hd) hd

theorem State.loadFused_pkg (s : State) (leadSel : Bool) : (s.loadFused leadSel).pkg = s.pkg := by
  unfold State.loadFused
  extract_lets nv s1 s2 s3 s4 s5 s6 s7 s8 s9 s10 en rv s11 s12 s13 s14
  calc (s14.loadLog true).pkg = s14.pkg := State.loadLog_pkg ..
    _ = s13.pkg := State.setRegs_pkg (fun _ => rBuSiteFuse) (fun s => fuseMask s.nv) _ _
    _ = s12.pkg := State.setRegs_pkg (fun _ => rPwrGain) (fun _ n => nv.gains.getD n 0 % 2 ^ 16) _ _
    _ = s.pkg := rfl

/-- The 48 V input brings the package into WHELP (R373). -/
theorem State.powerOn_spec (s : State) (leadSel a1 a0 low : Bool) :
    (s.powerOn leadSel a1 a0 low).dark = false ∧ (s.powerOn leadSel a1 a0 low).bu = 1 := by
  unfold State.powerOn
  dsimp only
  refine ⟨?_, ?_⟩
  · rw [State.dark, State.loadFused_pkg]
    rfl
  · rw [State.bu, State.fld, (Steady.refl _).loadFused.buState mapWf_nil]
    show bitsOf (regDefault rBuState).toNat 0 4 = 1
    decide

theorem State.startWhelpTraining_pkg (s : State) (m : Mc) : (s.startWhelpTraining m).pkg = s.pkg := by
  unfold State.startWhelpTraining
  refine foldl_keep State.pkg (fun s i => ?_) _ s
  exact State.ite_pkg rfl rfl

theorem State.selfFail_pkg (s : State) (m : Mc) : (s.selfFail m).pkg = s.pkg := by cases m <;> rfl

/-! ### The commands -/

/-- VIN48_VALID in OFF ends in WHELP. -/
theorem execVin48Valid_ends (leadSel a1 a0 low : Bool) (hv : s.pkg.vin = false) :
    ∃ t, exec (.vin48Valid leadSel a1 a0 low) s = .next t ∧ t.dark = false ∧ t.bu = 1 :=
  ⟨_, congrArg Host.Outcome.next (if_neg (by simp [hv])), s.powerOn_spec leadSel a1 a0 low⟩

/-- VIN48_LOSS leaves the package dark. -/
theorem execVin48Loss_ends (hv : s.pkg.vin = true) :
    ∃ t, exec .vin48Loss s = .next t ∧ t.pkg.vin = false ∧ t.dark = true :=
  ⟨_, congrArg Host.Outcome.next (if_neg (by simp [hv])), rfl, rfl⟩

/-- SB33_LOSS takes the sideband supply away, whatever else it ends. -/
theorem execSb33Loss_ends (s : State) : ∃ t, exec .sb33Loss s = .next t ∧ t.pkg.sb33 = false := by
  have selfCheck (u : State) (m : Mc) : ((u.selfFail m).startWhelpTraining m).pkg = u.pkg :=
    (State.startWhelpTraining_pkg ..).trans (State.selfFail_pkg ..)
  refine ⟨_, rfl, ?_⟩
  simp only [apply_ite State.pkg, selfCheck, State.setReg_pkg, ite_self]

/-- SB33_RETURN gives the sideband supply back; interrupts that were held go out. -/
theorem execSb33Return_ends (s : State) : ∃ t, exec .sb33Return s = .next t ∧ t.pkg.sb33 = true := by
  refine ⟨_, rfl, congrArg Pkg.sb33 (State.ite_pkg (s := { s with pkg := { s.pkg with sb33 := true } }) rfl
    (foldl_keep State.pkg (fun u m => ?_) _ _))⟩
  split
  · cases m <;> rfl
  · rfl

/-- INSPECT accepted in WHELP ends in INSPECT or in MAP. -/
theorem execInspect_ends (w : s.Wf) (f : Findings) (hd : s.dark = false) (ho : s.inspectOk = true) (hp : s.pkg.buOp = none) :
    ∃ t, exec (.inspect f) s = .next t ∧ (t.bu = 2 ∨ t.bu = 3) ∧ t.fld rBuState 4 1 = 0 := by
  have h := State.inspectRun_ends w true f
  refine ⟨_, next_of_live hd, ?_⟩
  simp only [hp, ho, if_true]
  exact ⟨h.bu, h.idle⟩

/-- RUN accepted in READY ends in RUN. -/
theorem execRun_ends (w : s.Wf) (hd : s.dark = false) (hb : s.bu = 5) (hi : s.fld rBuState 4 1 = 0)
    (hs : s.beat < s.fld rPfStart 0 48) :
    ∃ t, exec .run s = .next t ∧ t.running = true ∧ t.stp.b0 = s.fld rPfStart 0 48 := by
  obtain ⟨hr, h0⟩ := State.enterRun_spec w
  refine ⟨s.enterRun, (next_of_live hd).trans (congrArg Host.Outcome.next (if_pos ⟨hb, hi, hs⟩)), ?_, h0⟩
  rw [State.running, hr]
  rfl

/-- JOB_START at B₀ has the cores issuing. -/
theorem execJobStart_ends (w : s.Wf) (hd : s.dark = false) (hr : s.running = true) (hn : s.stp.started = false)
    (hb : s.stp.b0 ≤ s.beat) :
    ∃ t, exec .jobStart s = .next t ∧ t.issuing = true ∧ ∀ n ∈ s.used, s.hasActive n = true → t.cstate n = 2 := by
  have w' : State.Wf { s with stp := { s.stp with started := true } } :=
    ⟨w.regs, w.mem, w.ports, w.cores, w.sram, w.sqs, w.cqs⟩
  obtain ⟨q, hc⟩ := State.startCores_spec w' (s.used.filter s.hasActive)
  refine ⟨((s.used.filter s.hasActive).foldl State.startCore { s with stp := { s.stp with started := true } }).showFreq,
    (next_of_live hd).trans (congrArg Host.Outcome.next (if_pos (by simp [hr, hn, hb]))), ?_,
    fun n hn ha => hc n (List.mem_filter.2 ⟨hn, ha⟩)⟩
  refine Bool.and_eq_true_iff.2 ⟨?_, ?_⟩
  · exact (congrArg (· == stRun) (q.fld w' (not_coreReg (by decide)) 0 4)).trans hr
  · exact congrArg StepSt.started q.stp

/-- STOP in RUN ends in HALTED with HOST_STOP. -/
theorem execStop_ends (w : s.Wf) (hd : s.dark = false) (hr : s.running = true) :
    ∃ t, exec .stop s = .next t ∧ t.bu = 7
      ∧ (s.fld rPfFault 16 1 = 0 → s.ownHalts = [] → t.fld rPfFault 0 17 = 0x0B06 + 2 ^ 16) := by
  refine ⟨_, (next_of_live hd).trans (congrArg Host.Outcome.next (if_pos hr)), State.raise_bu w hr .., fun hf hh => ?_⟩
  obtain ⟨-, hx, -⟩ := State.raise_run w hr hf hh (reason := cHostStop) (by decide) 7 (if s.leader = .east then 1 else 0)
  rw [State.fld, hx, bitsOf, cHostStop]
  omega

/-- RESET in HALTED ends without a job, in INSPECT or in MAP. -/
theorem execReset_ends (w : s.Wf) (full : Bool) (f : Findings) (hd : s.dark = false) (hb : s.bu = 7)
    (hp : s.pkg.buOp = none) (ht : s.pkg.softTrip = false) :
    ∃ t, exec (.reset full f) s = .next t ∧ t.job = none ∧ t.cores = [] ∧ (t.bu = 2 ∨ t.bu = 3)
      ∧ t.fld rBuState 4 1 = 0 := by
  obtain ⟨hs, hi, hj, hc⟩ := State.computeReset_ends w full f
  have ho : s.resetOk = true := by simp [State.resetOk, hb, stHalted]
  refine ⟨_, next_of_live hd, ?_⟩
  simp only [hp, ho, ht, Bool.false_and, Bool.not_false, Bool.and_true, if_true]
  exact ⟨hj, hc, hs, hi⟩

/-- Settles O15: each command is accepted under its conditions, and its meaning ends as stated. -/
theorem supplyAndBringUpComplete : Obligations.SupplyAndBringUpComplete := fun s w =>
  ⟨execVin48Valid_ends, execVin48Loss_ends, execSb33Loss_ends s, execSb33Return_ends s, execInspect_ends w, execRun_ends w,
    execJobStart_ends w, execStop_ends w, execReset_ends w⟩

end Sys2Proof.Machine
end

section
/-! SUPPORT. Element codes of I8, W2, W1 and M8B-S: what a code stands for, which codes are written, which lines are read. -/

namespace Sys2Proof.Machine

variable {f : Fmt} {sc : W32} {m n q c : Nat} {bs : List Byte} {ws : List W32}

/-! ### Two's complement codes without −128 (R43, R50) -/

theorem decodeI8_of_lt (h : q < 256) : decodeI8 q = if q < 128 then .fin false q 1 else .fin true (256 - q) 1 := by
  rw [decodeI8, Nat.mod_eq_of_lt h]

/-- ±127, where a magnitude saturates, is a byte other than 0x80. -/
theorem saturatedCode_ne (s : Bool) : (if s then 0x81 else 0x7F) < 256 ∧ (if s then 0x81 else 0x7F) ≠ 0x80 := by
  cases s <;> decide

/-- A magnitude of at most 127 with its sign is a byte other than 0x80. -/
theorem signedCode_ne (s : Bool) (h : ¬ 127 < m) :
    (if s && 0 < m then 256 - m else m) < 256 ∧ (if s && 0 < m then 256 - m else m) ≠ 0x80 := by
  split
  next hs =>
    have hm : 0 < m := of_decide_eq_true (Bool.and_eq_true_iff.1 hs).2
    omega
  next => omega

theorem convI8_code_ne (r : Rnd) (v : Xv) : (convI8 r v).code < 256 ∧ (convI8 r v).code ≠ 0x80 := by
  cases v with
  | nan => simp [convI8]
  | inf s => exact saturatedCode_ne s
  | fin s n d =>
    rw [convI8]
    split
    next => exact saturatedCode_ne s
    next hm => exact signedCode_ne s hm

theorem m8sCode_ne (r : Rnd) (scale v : Xv) : (m8sCode r scale v).1 < 256 ∧ (m8sCode r scale v).1 ≠ 0x80 := by
  rw [m8sCode]
  split
  next s n d _ =>
    dsimp only
    split
    next => exact saturatedCode_ne s
    next hm => exact signedCode_ne s hm
  next => exact saturatedCode_ne (xSign v)

/-! ### The value of a code (Table 2.9, R47, R48, R50) -/

theorem lineElem_w2 (h : xIsFinite (valT32 sc) = true) :
    lineElem .w2 sc c = if c = 0 then xZero else xMul (valT32 sc) (decodeElem .w2 c) := by
  simp [lineElem, h]

theorem lineElem_w1 (h : xIsFinite (valT32 sc) = true) :
    lineElem .w1 sc c = xMul (valT32 sc) (decodeElem .w1 c) := by
  simp [lineElem, h]

theorem lineElem_m8bs (h : xIsFinite (valT32 sc) = true) :
    lineElem .m8bs sc c = valT32 (rne32s (xDiv (xMul (valT32 sc) (decodeI8 c)) (xOfNat 127))) := by
  simp [lineElem, m8sVal, h]

/-! ### The codes of a written line (R62, R63) -/

theorem eq_zero_of_mem_nfLine {sr : Bool} (h : c ∈ (nfLine sr n).codes) : c = 0 := List.eq_of_mem_replicate h

theorem deriveW_code (h : c ∈ (deriveW f ws).line.codes) : c = 0 ∨ c = 1 ∨ f = .w2 ∧ c = 3 := by
  rw [deriveW] at h
  dsimp only at h
  split at h
  next => exact .inl (eq_zero_of_mem_nfLine h)
  next =>
    obtain ⟨v, -, rfl⟩ := List.mem_map.1 h
    split <;> split_ifs <;> simp

theorem deriveW_w1_code (h : c ∈ (deriveW .w1 ws).line.codes) : c = 0 ∨ c = 1 :=
  (deriveW_code h).imp_right (·.resolve_right fun ⟨hf, _⟩ => Fmt.noConfusion hf)

/-- Also against a kept SCALE: a magnitude above it saturates (R219), a SCALE of zero gives code 0. -/
theorem m8Codes_m8bs_ne {rnds : List Rnd} {p : Nat × Bool} (h : p ∈ m8Codes .m8bs sc rnds ws) :
    p.1 < 256 ∧ p.1 ≠ 0x80 := by
  obtain ⟨⟨w, r⟩, -, rfl⟩ := List.mem_map.1 h
  dsimp only
  split
  next => exact saturatedCode_ne (xSign (valT32 w))
  next =>
    split
    next => exact ⟨by decide, by decide⟩
    next => exact m8sCode_ne r (valT32 sc) (valT32 w)

theorem deriveM8_m8bs_code_ne {sr : Bool} {rnds : List Rnd} (h : c ∈ (deriveM8 .m8bs sr rnds ws).line.codes) :
    c < 256 ∧ c ≠ 0x80 := by
  rw [deriveM8] at h
  dsimp only at h
  split at h
  next =>
    rw [eq_zero_of_mem_nfLine h]
    exact ⟨by decide, by decide⟩
  next =>
    obtain ⟨p, hp, rfl⟩ := List.mem_map.1 h
    exact m8Codes_m8bs_ne hp

/-! ### Reading a line (R45) -/

/-- A line of the declared format that holds a reserved code is not read. -/
theorem readLine_of_reserved (hc : lineCheckOk bs = true) (ht : fieldLe bs 6 1 = lineTag f)
    (hm : c ∈ unpackCodes (codeBits f) (slice bs 8 56)) (hr : reservedCode f c = true) :
    readLine f bs = .badFormat := by
  have ha : (unpackCodes (codeBits f) (slice bs 8 56)).any (reservedCode f) = true := List.any_eq_true.2 ⟨c, hm, hr⟩
  simp [readLine, hc, ht, ha]

/-- Settles O60: a code's value, the codes that are written and the lines that are read, each by its own lemma. -/
theorem numberFormats : Obligations.NumberFormats := by
  refine ⟨fun q => decodeI8_of_lt, fun r _ v => convI8_code_ne r v, fun sc h => ?_, fun sr rnds ws => ?_, fun bs hc => ?_⟩
  · exact ⟨lineElem_w2 h, lineElem_w2 h, lineElem_w2 h, lineElem_w1 h, lineElem_w1 h, fun q _ => lineElem_m8bs h⟩
  · exact ⟨fun _ hc => (deriveW_code hc).imp_right (·.imp_right And.right), fun _ => deriveW_w1_code, fun _ => deriveM8_m8bs_code_ne, fun _ _ => m8Codes_m8bs_ne⟩
  · exact ⟨fun hm ht => readLine_of_reserved hc ht hm rfl, fun hm ht => readLine_of_reserved hc ht hm rfl⟩

end Sys2Proof.Machine
end

section
/-! SUPPORT. The prescale search of a tile (R85 to R87): a repeat reads the same whatever the core's last transfer was, and the
search that no ladder pays for ends at the least prescale without overflow. -/

namespace Sys2Proof.Machine
open Sys2Proof

-- Proofs elaborated in threads of their own would pass the check's limit of memory.
set_option Elab.async false

variable {s t u v : State} {a : Attr} {j : Job} {n : Nat}

theorem State.readLines_withCores (s : State) (c : List (Nat × CoreSt)) (t : Tensor) (base line0 : Nat) (ls : List Nat) :
    { s with cores := c }.readLines t base line0 ls = s.readLines t base line0 ls := by
  induction ls with
  | nil => rfl
  | cons l ls ih => rw [State.readLines, State.readLines, ih]; rfl

theorem State.readElems_withCores (s : State) (c : List (Nat × CoreSt)) (j : Job) (t : Tensor) (v first n : Nat) :
    { s with cores := c }.readElems j t v first n = s.readElems j t v first n := by
  rw [State.readElems, State.readElems]
  simp only [State.readLines_withCores]
  rfl

theorem State.readRuns_withCores (s : State) (c : List (Nat × CoreSt)) (j : Job) (t : Tensor) (v : Nat) (rs : List (Nat × Nat)) :
    { s with cores := c }.readRuns j t v rs = s.readRuns j t v rs := by
  induction rs with
  | nil => rfl
  | cons r rs ih => rw [State.readRuns, State.readRuns, ih, State.readElems_withCores]

theorem State.scentFault_withCores (s : State) (c : List (Nat × CoreSt)) (j : Job) (tensor first n : Nat) :
    { s with cores := c }.scentFault j tensor first n = s.scentFault j tensor first n := by
  rw [State.scentFault, State.scentFault]
  simp only [State.readElems_withCores]
  rfl

theorem State.scentBit_withCores (s : State) (c : List (Nat × CoreSt)) (j : Job) (tensor e : Nat) :
    { s with cores := c }.scentBit j tensor e = s.scentBit j tensor e := by
  rw [State.scentBit, State.scentBit]
  simp only [State.readElems_withCores]
  rfl

theorem State.convRead_withCores (s : State) (c : List (Nat × CoreSt)) (j : Job) (t : Tensor) (v : Nat) (o : RetArg) (k : Conv)
    (rs : List (Nat × Nat)) : { s with cores := c }.convRead j t v o k rs = s.convRead j t v o k rs := by
  rw [State.convRead, State.convRead]
  simp only [State.readRuns_withCores, State.scentFault_withCores, State.exactAt, State.scentBit_withCores, State.runFlushes,
    State.readElems_withCores]
  rfl

theorem State.retrieveData_withCores (s : State) (c : List (Nat × CoreSt)) (j : Job) (t : Tensor) (v : Nat) (o : RetArg)
    (rs : List (Nat × Nat)) : { s with cores := c }.retrieveData j t v o rs = s.retrieveData j t v o rs := by
  rw [State.retrieveData, State.retrieveData]
  split
  · rw [State.copyData, State.copyData, State.readRuns_withCores]
    rfl
  · rw [State.convData, State.convData, State.convRead_withCores]
    rfl

theorem State.readPreload_withCores (s : State) (c : List (Nat × CoreSt)) (j : Job) (o : OpenArg) (t : TileArg) :
    { s with cores := c }.readPreload j o t = s.readPreload j o t := by
  rw [State.readPreload, State.readPreload]
  simp only [State.readElems_withCores]
  rfl

/-! ### Repeats read the same whatever the last transfer was (R55, R87) -/

/-- `u` is `s` but for the record of core `n`'s last transfer (R55). -/
structure XferOnly (n : Nat) (s u : State) : Prop where
  frame : u = { s with cores := u.cores }
  left  : mapWf coreDefault s.cores
  right : mapWf coreDefault u.cores
  core  : ∀ k, u.core k = if k = n then { s.core n with xferStat := (u.core n).xferStat } else s.core k

theorem XferOnly.refl (w : s.Wf) (n : Nat) : XferOnly n s s :=
  ⟨rfl, w.cores, w.cores, fun k => by split <;> simp [*]⟩

theorem XferOnly.same (h : XferOnly n s u) : u.core n = { s.core n with xferStat := (u.core n).xferStat } := by
  simpa using h.core n

theorem XferOnly.other (h : XferOnly n s u) {k : Nat} (hk : k ≠ n) : u.core k = s.core k := by
  rw [h.core, if_neg hk]

/-- The record takes a new value. -/
theorem XferOnly.setXfer (h : XferOnly n s u) (x : ConvStat) : XferOnly n s (u.setXfer n x) where
  frame := by rw [State.setXfer, State.setCore, h.frame]
  left := h.left
  right := State.setCore_coresWf h.right ..
  core k := by
    rw [State.setXfer, State.core_setCore h.right, State.core_setCore h.right, if_pos rfl]
    split
    · rw [h.same]
    · exact h.other ‹_›

/-- Both cores are written alike but for that record. -/
theorem XferOnly.setCore (h : XferOnly n s u) {c d : CoreSt} (hd : d = { c with xferStat := d.xferStat }) :
    XferOnly n (s.setCore n c) (u.setCore n d) where
  frame := by rw [State.setCore, State.setCore, h.frame]
  left := State.setCore_coresWf h.left ..
  right := State.setCore_coresWf h.right ..
  core k := by
    simp only [State.core_setCore h.right, State.core_setCore h.left, if_true]
    split
    · exact hd
    · exact h.other ‹_›

theorem XferOnly.setXfers (h : XferOnly n s u) (x y : ConvStat) : XferOnly n (s.setXfer n x) (u.setXfer n y) :=
  h.setCore (by rw [h.same])

theorem XferOnly.putBytes (h : XferOnly n s u) (ps : List (Nat × List Byte)) :
    XferOnly n (s.putBytes n ps) (u.putBytes n ps) :=
  List.foldl_rel h fun _ _ _ _ h => h.setCore (by rw [h.same])

theorem XferOnly.retrieveData (h : XferOnly n s u) (j : Job) (t : Tensor) (v : Nat) (o : RetArg) (rs : List (Nat × Nat)) :
    u.retrieveData j t v o rs = s.retrieveData j t v o rs := by rw [h.frame, State.retrieveData_withCores]

theorem XferOnly.readSlot (h : XferOnly n s u) (j : Job) (t : Tensor) : u.readSlot j t = s.readSlot j t := by
  rw [h.frame]; rfl

theorem XferOnly.readPreload (h : XferOnly n s u) (j : Job) (o : OpenArg) (t : TileArg) :
    u.readPreload j o t = s.readPreload j o t := by rw [h.frame, State.readPreload_withCores]

theorem XferOnly.sramRead (h : XferOnly n s u) (off len : Nat) : u.sramRead n off len = s.sramRead n off len := by
  rw [State.sramRead, h.same]; rfl

theorem XferOnly.tileAcc (h : XferOnly n s u) (j : Job) (g : Group) (i : Nat) (o : AccArg) :
    u.tileAcc n j g i o = s.tileAcc n j g i o := by
  simp only [State.tileAcc, State.readA, State.readB, State.sramElem, h.sramRead]

/-- The transfers re-issued for a repeat bring the same. -/
theorem XferOnly.reissue (h : XferOnly n s u) (j : Job) (x : AccFeed) :
    Sum.LiftRel Eq (XferOnly n) (s.reissue n j x) (u.reissue n j x) := by
  refine List.foldl_rel (.inr (h.putBytes _)) fun f _ c c' hc => ?_
  cases hc with
  | inl e => exact .inl e
  | inr h =>
    dsimp only
    split
    · exact .inr (h.putBytes _)
    · split
      · exact .inr h
      · rw [h.retrieveData, h.readSlot]
        split
        · exact .inl rfl
        · exact .inr ((h.putBytes _).setXfers _ _)

/-- What a tile has taken reads the same anew. -/
theorem XferOnly.rereadHist (h : XferOnly n s u) {j : Job} {g : Group} {i : Nat} {l : List AccFeed} {x y z : ConvStat}
    {hs : List TileAcc} (e : s.rereadHist n j g i x l = .inr (hs, z)) : ∃ z', u.rereadHist n j g i y l = .inr (hs, z') := by
  induction l generalizing x y z hs with
  | nil => cases e; exact ⟨_, rfl⟩
  | cons f l ih =>
    have hr := (h.setXfers x y).reissue j f
    rw [State.rereadHist] at e ⊢
    generalize (s.setXfer n x).reissue n j f = p at e hr
    generalize (u.setXfer n y).reissue n j f = q at hr
    cases hr with
    | inl => cases e
    | inr hr =>
      dsimp only at e ⊢
      split at e
      · cases e
      · rename_i eq
        cases e
        obtain ⟨z', e'⟩ := ih eq
        exact ⟨z', by rw [e', hr.tileAcc]⟩

/-- A tile reads the same anew. -/
theorem XferOnly.reread (h : XferOnly n s u) {j : Job} {g : Group} {i : Nat} {t t' : Tile} {x : ConvStat}
    (e : s.reread n j g i t = .inr ⟨t', x⟩) : ∃ y, u.reread n j g i t = .inr ⟨t', y⟩ := by
  rw [State.reread] at e ⊢
  rw [h.readPreload]
  split at e
  · rename_i e1 e2
    cases e
    obtain ⟨z, e3⟩ := h.rereadHist (y := (u.core n).xferStat) e2
    exact ⟨z, by rw [e1, e3]⟩
  · cases e
  · cases e

/-! ### The prescale search without a payer (R85 to R87) -/

/-- A search that no ladder pays for changes nothing. -/
theorem State.search_none_st (s : State) (t : TileIn) (k rung : Nat) (master ran : Bool) (fuel q : Nat) (rs : List ElemRun) :
    (s.search none t k rung master ran fuel q rs).st = s := by
  induction fuel generalizing q rs ran with
  | zero => rfl
  | succ f ih =>
    rw [State.search]
    split
    · rfl
    · split
      · rfl
      · exact ih ..

/-- `q'`, with elements `es`, is the least prescale from `q` up to 8 at which the pass `run` does not overflow, 9 where none is. -/
def LeastPrescale (t : TileIn) (run : Nat → List ElemRun) (q q' : Nat) (es : List AccElem) : Prop :=
  q ≤ q' ∧ q' ≤ 9 ∧ (∀ p, q ≤ p → p < q' → t.overflows (run p) = true)
    ∧ (q' ≤ 8 → t.overflows (run q') = false ∧ es = passElems (run q'))

/-- The search ends at the least prescale whose pass does not overflow. -/
theorem State.search_none_least (s : State) (t : TileIn) (k rung : Nat) (master ran : Bool) {run : Nat → List ElemRun} {fuel q : Nat}
    (hrun : ∀ p, q < p → run p = t.pass p) (hq : q ≤ 8) (hf : 9 ≤ fuel + q) :
    LeastPrescale t run q (s.search none t k rung master ran fuel q (run q)).q
      (s.search none t k rung master ran fuel q (run q)).elems := by
  induction fuel generalizing q ran with
  | zero => omega
  | succ f ih =>
    rw [State.search]
    by_cases ho : t.overflows (run q) = true
    · by_cases h8 : 8 ≤ q
      · simp only [ho, Bool.not_true, Bool.false_eq_true, if_false, if_pos h8]
        exact ⟨by omega, le_rfl, fun p h1 h2 => (by omega : p = q) ▸ ho, fun h => absurd h (by decide)⟩
      · simp only [ho, Bool.not_true, Bool.false_eq_true, if_false, if_neg h8, ← hrun (q + 1) (by omega)]
        obtain ⟨h1, h2, h3, h4⟩ := ih true (fun p hp => hrun p (by omega)) (by omega : q + 1 ≤ 8) (by omega)
        refine ⟨by omega, h2, fun p hp hp' => ?_, h4⟩
        rcases Nat.eq_or_lt_of_le hp with rfl | hp
        · exact ho
        · exact h3 p hp hp'
    · simp only [ho, Bool.not_false, if_true]
      exact ⟨le_rfl, by omega, fun p h1 h2 => by omega, fun _ => ⟨by simpa using ho, rfl⟩⟩

/-- The passes of a tile: at its own prescale going on from what it has accumulated, at a higher one over all the K taken. -/
def Group.passAt (g : Group) (j : Job) (x : Tile) (q : Nat) : List ElemRun := if q = x.q then g.attempt j x else (g.tileIn j x).pass q

/-- Tile `y` is tile `x` brought up to date: the least prescale without overflow, or given up; a tile given up stays so. -/
def UpToDate (g : Group) (j : Job) (x y : Tile) : Prop :=
  y.arg = x.arg ∧ y.hist = x.hist ∧ (x.q = 9 → y = x) ∧ (x.q ≤ 8 → LeastPrescale (g.tileIn j x) (g.passAt j x) x.q y.q y.elems)

variable {g : Group} {i : Nat} {x : Tile}

theorem State.payer_none (s : State) (n : Nat) (h : g.o.narrow = none) : s.payer n g = none := by rw [State.payer, h]; rfl

/-- A tile that reads back as it is comes up to date, and the package changes at most in the record of the last transfer. -/
theorem State.settleTile_spec (h : XferOnly n s u) (hg : g.o.narrow = none) (hx : ∃ st, s.reread n j g i x = .inr ⟨x, st⟩) :
    ∃ y v, u.settleTile n j g i x = (none, y, v) ∧ UpToDate g j x y ∧ XferOnly n s v := by
  obtain ⟨st, e⟩ := hx
  obtain ⟨st', e⟩ := h.reread e
  rw [State.settleTile]
  split
  · exact ⟨x, u, rfl, ⟨rfl, rfl, fun _ => rfl, fun h8 => absurd h8 (by omega)⟩, h⟩
  · rename_i hq
    have hrun : g.passAt j x x.q = g.attempt j x := if_pos rfl
    simp only [e, u.payer_none n hg, ← hrun]
    have hst := u.search_none_st (g.tileIn j x) g.k (if u.stp.wide then 7 else 0) (u.readsMaster j g) false 9 x.q (g.passAt j x x.q)
    have least := u.search_none_least (g.tileIn j x) g.k (if u.stp.wide then 7 else 0) (u.readsMaster j g) false (run := g.passAt j x)
      (fuel := 9) (q := x.q) (fun p hp => if_neg (by omega))
    generalize u.search none (g.tileIn j x) g.k (if u.stp.wide then 7 else 0) (u.readsMaster j g) false 9 x.q (g.passAt j x x.q) = r
      at hst least
    have done : UpToDate g j x { x with q := r.q, elems := r.elems } :=
      ⟨rfl, rfl, fun h => absurd h hq, fun h => least h (by omega)⟩
    cases r.ran
    · exact ⟨_, _, rfl, done, hst ▸ h⟩
    · exact ⟨_, _, rfl, done, hst ▸ h.setXfer _⟩

/-- A loop over the first numbers: what holds at the start and is carried on by each number holds at the end. -/
theorem foldl_range_rec {β : Type} {f : β → Nat → β} {b : β} {P : Nat → β → Prop} (h0 : P 0 b) (N : Nat)
    (hs : ∀ m < N, ∀ c, P m c → P (m + 1) (f c m)) : P N ((List.range N).foldl f b) := by
  induction N with
  | zero => exact h0
  | succ N ih =>
    rw [List.range_succ, List.foldl_append]
    exact hs N (by omega) _ (ih fun m hm => hs m (by omega))

/-- The first `m` tiles of a group are up to date, without a fault. -/
structure FirstSettled (n : Nat) (j : Job) (g : Group) (s : State) (m : Nat) (acc : Option Fetch × List Tile × State) : Prop where
  fault  : acc.1 = none
  length : acc.2.1.length = m
  state  : XferOnly n s acc.2.2
  tiles  : ∀ i x, i < m → g.tiles[i]? = some x → ∃ y, acc.2.1[i]? = some y ∧ UpToDate g j x y

/-- Tiles that read back as they are all come up to date. -/
theorem State.settleTiles_spec (w : s.Wf) (hg : g.o.narrow = none)
    (hx : ∀ i x, g.tiles[i]? = some x → ∃ st, s.reread n j g i x = .inr ⟨x, st⟩) :
    FirstSettled n j g s g.tiles.length (s.settleTiles n j g) := by
  refine foldl_range_rec (P := FirstSettled n j g s) ⟨rfl, rfl, .refl w n, fun i x hi => absurd hi (by omega)⟩ _ ?_
  rintro m hm ⟨f, ts, v⟩ ⟨hf, hl, hv, ht⟩
  dsimp only at hf hl hv ht
  have hm' : g.tiles[m]? = some g.tiles[m] := List.getElem?_eq_getElem hm
  obtain ⟨y, v', ey, hy, hv'⟩ := State.settleTile_spec hv hg (hx m _ hm')
  simp only [hm', ey, hf]
  refine ⟨rfl, by simp [hl], hv', fun i x hi hix => ?_⟩
  dsimp only
  rcases Nat.lt_succ_iff_lt_or_eq.1 hi with hi | rfl
  · rw [List.getElem?_append_left (by omega)]
    exact ht i x hi hix
  · rw [hm'] at hix
    exact ⟨y, by simp [hl], Option.some.inj hix ▸ hy⟩

end Sys2Proof.Machine
end

section
/-! SUPPORT. A command of an engine that issues at once (R133, Table 5.3): it retires or halts its core, and nothing else acts; the groups
of a core after one is written. -/

namespace Sys2Proof.Machine
open Sys2Proof

-- Proofs elaborated in threads of their own would pass the check's limit of memory.
set_option Elab.async false

variable {s t u v : State} {a : Attr} {j : Job} {n : Nat}

/-! ### A command that issues at once -/

/-- With no error of its own and its SRAM ranges in order, a ready command's effect follows (Table 5.3, class All). -/
theorem State.Ready.checked (h : s.Ready a) (k : State → State) : s.checked a [] k = k s := by
  have hs : sramOk [] = true := rfl
  simp [State.checked, h.defined, h.engines, hs, State.meetCore, State.meet, h.errorFree.1]

/-- From `s` to `u` an effect has left the registers, the job, the staged UPDATEs and the cores' windows. -/
structure Undisturbed (s u : State) : Prop where
  wf      : u.Wf
  regs    : u.regs = s.regs
  job     : u.job = s.job
  staged  : u.stp.staged = s.stp.staged
  windows : ∀ k, (u.core k).window = (s.core k).window ∧ (u.core k).ending = (s.core k).ending

theorem Undisturbed.refl (w : s.Wf) : Undisturbed s s := ⟨w, rfl, rfl, rfl, fun _ => ⟨rfl, rfl⟩⟩

theorem Undisturbed.reg (e : Undisturbed s u) (r : Nat) : u.reg r = s.reg r := by rw [State.reg, e.regs]; rfl

theorem Undisturbed.retired (e : Undisturbed s u) (a : Attr) : retired s (u.retire a) a := by
  have h := (u.retire_spec e.wf a).2
  rwa [Machine.retired, e.reg] at h

theorem Undisturbed.reg_retire (e : Undisturbed s u) {r : Nat} (hr : r ∉ retireRegs a.core) : (u.retire a).reg r = s.reg r :=
  ((u.retire_spec e.wf a).1.2 r hr).trans (e.reg r)

theorem State.Ready.mem_used (h : s.Ready a) : a.core ∈ s.used := by
  have := h.fetching
  simp only [State.fetching, Bool.and_eq_true] at this
  exact List.contains_iff_mem.1 this.1.2

theorem State.Ready.coreLive (h : s.Ready a) : s.coreLive a.core = true := by
  have := h.fetching
  simp only [State.fetching, Bool.and_eq_true] at this
  exact this.2

/-- A ready command of an engine is performed at once: it retires unless its core has halted. -/
theorem State.Ready.coreCmd_performed (h : s.Ready a) (hj : s.job = some j) {c : Instr} (hc : serialises c = false)
    (hu : s.unblocked a.core c = true) (hs : (s.perform j c).stp.staged = []) :
    coreCmd a c s = .next (if (s.perform j c).coreLive a.core then (s.perform j c).retire a else s.perform j c).settle := by
  rw [coreCmd_ready h hj, State.enterAlone]
  simp [h.unarmed, hc, hu, State.isStaged, hs]

/-- A ready command whose effect leaves the windows alone retires, and nothing else acts. -/
theorem State.Ready.coreCmd_retires (h : s.Ready a) (hj : s.job = some j) {c : Instr} (hc : serialises c = false)
    (hu : s.unblocked a.core c = true) (hp : s.perform j c = u) (e : Undisturbed s u) : coreCmd a c s = .next (u.retire a) := by
  rw [h.coreCmd_performed hj hc hu (hp ▸ e.staged.trans h.settled.unstaged), hp]
  have hl : u.coreLive a.core = true := by
    rw [State.coreLive, State.cstate_of_regs (e.reg _)]; exact h.coreLive
  have hused : (u.retire a).used = s.used := congrArg (fun x : Option Job => (x.map usedCores).getD []) e.job
  rw [if_pos hl, State.settle_of_noneWaits fun k hk => ?_]
  rw [hused] at hk
  exact ⟨(e.windows k).1.trans (h.settled.noneWaits k hk), (e.windows k).2.trans (h.settled.noneEnds k hk)⟩

/-- A core's own halt stops a package in RUN (R130). -/
theorem State.coreHaltNow_bu (w : s.Wf) (hr : s.running = true) (a : Attr) (code : Nat) (noEff : Bool) :
    (s.coreHaltNow a code noEff).bu = 7 := by
  have q := (s.haltRecord_quiet a.core code true noEff a).trans (State.coreToHalted_quiet _ a.core)
  refine State.raise_bu (q.wf w) ?_ _ _ _
  rw [State.running, State.bu, State.fld, q.regs w _ (not_coreReg (by decide))]
  exact hr

/-- A ready command that fails a check halts its core, and nothing else acts. -/
theorem State.Ready.coreCmd_fails (w : s.Wf) (h : s.Ready a) (hj : s.job = some j) {c : Instr} {code : Nat} (hc : serialises c = false)
    (hu : s.unblocked a.core c = true) (hp : s.perform j c = s.checkFail a code) (hcode : code < 2 ^ 16) :
    coreCmd a c s = .next (s.checkFail a code) := by
  have hs : (s.checkFail a code).stp.staged = [] := by rw [(s.checkFail_quiet a code).stp, h.settled.unstaged]
  rw [h.coreCmd_performed hj hc hu (hp ▸ hs), hp, State.checkFail_alone code (h.settled.noneWaits _ h.mem_used)]
  have hl : (s.coreHaltNow a code true).coreLive a.core = false := by
    rw [State.coreLive, (State.coreHaltNow_spec w a true hcode h.running h.settled.noneEnds).1]; rfl
  have hi : (s.coreHaltNow a code true).issuing = false := by
    rw [State.issuing, State.running, State.coreHaltNow_bu w h.running]; rfl
  rw [hl, if_neg (by decide), State.settle_of_stopped hi]

/-! ### Association lists -/

section
variable {α : Type} (l : List (Nat × α)) {k m : Nat}

theorem getAssoc_setAssoc_same (k : Nat) (x : α) : getAssoc (setAssoc l k x) k = some x := by
  rw [getAssoc, setAssoc, List.find?_append, List.find?_eq_none.2 (by simp)]
  simp

/-- Dropping the entries of one key leaves the others. -/
theorem getAssoc_filter_ne (h : m ≠ k) : getAssoc (l.filter (fun e => e.1 != k)) m = getAssoc l m := by
  rw [getAssoc, getAssoc, List.find?_filter]
  congr 2
  funext e
  grind

theorem getAssoc_filter_same (k : Nat) : getAssoc (l.filter (fun e => e.1 != k)) k = none := by
  simp [getAssoc, List.find?_filter]

theorem getAssoc_setAssoc_ne (h : m ≠ k) (x : α) : getAssoc (setAssoc l k x) m = getAssoc l m := by
  rw [← getAssoc_filter_ne l h, getAssoc, getAssoc, setAssoc, List.find?_append]
  simp [Ne.symm h]

end

/-! ### Groups of a core (R78) -/

variable {g : Group}

theorem State.group?_putGroup (h : mapWf coreDefault s.cores) (n k : Nat) (g : Group) :
    (s.putGroup n k g).group? n k = some g := by
  rw [State.group?, State.putGroup, State.core_setCore h, if_pos rfl, getAssoc_setAssoc_same]

theorem State.group?_putGroup_ne (h : mapWf coreDefault s.cores) (n : Nat) {k m : Nat} (hm : m ≠ k) (g : Group) :
    (s.putGroup n k g).group? n m = s.group? n m := by
  rw [State.group?, State.putGroup, State.core_setCore h, if_pos rfl, getAssoc_setAssoc_ne _ hm, State.group?]

/-- A group is written after at most the record of the last transfer. -/
theorem XferOnly.putGroup_core (h : XferOnly n s u) (k m : Nat) (g : Group) : (u.putGroup n k g).core m = if m = n then
    { s.core n with groups := setAssoc (s.core n).groups k g, xferStat := (u.core n).xferStat } else s.core m := by
  rw [State.putGroup, State.core_setCore h.right]
  split
  · rw [h.same]
  · exact h.other ‹_›

theorem XferOnly.group? (h : XferOnly n s u) (k : Nat) : u.group? n k = s.group? n k := by
  rw [State.group?, h.same]; rfl

/-- Writing a group, after at most the record of the last transfer, leaves the registers and the windows. -/
theorem XferOnly.putGroup_undisturbed (h : XferOnly n s u) {k : Nat} (w : (u.putGroup n k g).Wf) :
    Undisturbed s (u.putGroup n k g) := by
  refine ⟨w, ?_, ?_, ?_, fun m => ?_⟩
  · rw [State.putGroup, State.setCore, h.frame]
  · rw [State.putGroup, State.setCore, h.frame]
  · rw [State.putGroup, State.setCore, h.frame]
  · rw [h.putGroup_core]
    split
    · subst m; exact ⟨rfl, rfl⟩
    · exact ⟨rfl, rfl⟩

/-- What OPEN and ACCUMULATE leave once they retire: their group, and no change outside their core but COUNT and LAST. -/
theorem XferOnly.retire_putGroup (h : XferOnly a.core s u) {k : Nat} (w : (u.putGroup a.core k g).Wf) :
    let t := (u.putGroup a.core k g).retire a
    coreOnly s t a.core (retireRegs a.core) ∧ Machine.retired s t a ∧ t.group? a.core k = some g
      ∧ (∀ m, m ≠ k → t.group? a.core m = s.group? a.core m) ∧ (t.core a.core).sram = (s.core a.core).sram := by
  have e := h.putGroup_undisturbed w
  refine ⟨⟨?_, fun r hr => e.reg_retire hr, fun m hm => ?_⟩, e.retired a, ?_, fun m hm => ?_, ?_⟩
  · rw [State.retire, State.setReg, State.setReg, State.putGroup, State.setCore, h.frame]
  · exact (h.putGroup_core k m g).trans (if_neg hm)
  · exact State.group?_putGroup h.right a.core k g
  · exact (State.group?_putGroup_ne h.right a.core hm g).trans (h.group? m)
  · have hc := h.putGroup_core k a.core g
    rw [if_pos rfl] at hc
    exact (congrArg CoreSt.sram hc :)

end Sys2Proof.Machine
end

section
/-! SUPPORT. OPEN and ACCUMULATE (Chapter 3): the group they leave and its tiles. -/

namespace Sys2Proof.Machine
open Sys2Proof

-- Proofs elaborated in threads of their own would pass the check's limit of memory.
set_option Elab.async false

variable {s t u v : State} {a : Attr} {j : Job} {n : Nat} {g : Group} {i : Nat} {x : Tile}

/-! ### An empty pass over a ZERO preload overflows nowhere (R69, R84) -/

theorem xIsZero_iff {p : Xv} : xIsZero p = true ↔ ∃ b d, p = .fin b 0 d := by
  cases p <;> simp [xIsZero]

/-- Zero times a finite value is zero. -/
theorem xIsZero_xMul {p q : Xv} (hp : xIsZero p = true) (hq : xIsFinite q = true) : xIsZero (xMul p q) = true := by
  obtain ⟨b, d, rfl⟩ := xIsZero_iff.1 hp
  cases q with
  | fin c m d' => simp [xMul, xIsZero]
  | nan => cases hq
  | inf => cases hq

/-- Zero over anything is zero or no number. -/
theorem xDiv_of_isZero {p : Xv} (hp : xIsZero p = true) (q : Xv) : xIsZero (xDiv p q) = true ∨ xDiv p q = .nan := by
  obtain ⟨b, d, rfl⟩ := xIsZero_iff.1 hp
  cases q with
  | nan => exact .inr rfl
  | inf c => exact .inl rfl
  | fin c m d' => by_cases h : m = 0 <;> simp [xDiv, xIsZero, h]

theorem commonDen_zeros (d d' : Nat) : (commonDen 0 d 0 d').1 = 0 ∧ (commonDen 0 d 0 d').2.1 = 0 := by
  unfold commonDen
  split_ifs <;> simp

theorem xIsZero_xSub {p q : Xv} (hp : xIsZero p = true) (hq : xIsZero q = true) : xIsZero (xSub p q) = true := by
  obtain ⟨b, d, rfl⟩ := xIsZero_iff.1 hp
  obtain ⟨c, d', rfl⟩ := xIsZero_iff.1 hq
  obtain ⟨h1, h2⟩ := commonDen_zeros d d'
  rw [xSub, xNeg, xAdd]
  by_cases hs : b = !c <;> simp [hs, h1, h2, xIsZero]

theorem overflows32_of_isZero {p : Xv} (hp : xIsZero p = true) : overflows32 p = false := by
  obtain ⟨b, d, rfl⟩ := xIsZero_iff.1 hp
  rfl

/-- A zero rounds to +0. -/
theorem rne32z_of_isZero {p : Xv} (hp : xIsZero p = true) : rne32z p = 0 := by
  obtain ⟨b, d, rfl⟩ := xIsZero_iff.1 hp
  cases b <;> rfl

/-- A zero preload splits without an overflow. -/
theorem preloadElem_ovf_of_isZero (c : Bool) (sc : W32) (kp : Nat) {p : Xv} (hp : xIsZero p = true) :
    (preloadElem c sc kp p).ovf = false := by
  obtain ⟨hover, hrest⟩ : overflows32 (xDiv p (sEff sc kp)) = false
      ∧ overflows32 (xSub (xDiv p (sEff sc kp)) (valT32 (rne32z (xDiv p (sEff sc kp))))) = false := by
    rcases xDiv_of_isZero hp (sEff sc kp) with hq | hq
    · rw [rne32z_of_isZero hq]
      exact ⟨overflows32_of_isZero hq, overflows32_of_isZero (xIsZero_xSub hq (by decide))⟩
    · rw [hq]
      exact ⟨rfl, rfl⟩
  unfold preloadElem
  dsimp only
  split
  · rfl
  · cases c
    · exact hover
    · simp [hover, hrest]

theorem elemRun_nil (c : Bool) (L kp : Nat) (sc : W32) (p : Xv) : elemRun c L kp sc p [] [] = preloadElem c sc kp p := rfl

/-- A tile as OPEN starts it with a ZERO preload. -/
def freshTile (t : TileArg) : Tile :=
  { arg := t, pre := (List.replicate (t.rows * t.cols) xZero).map rne32s, preFl := false, q := 0, elems := [], hist := [] }

theorem State.readPreload_zero (s : State) (j : Job) {o : OpenArg} (h : o.preload = .zero) (t : TileArg) :
    s.readPreload j o t = .ok (List.replicate (t.rows * t.cols) xZero) 0 := by rw [State.readPreload, h]

theorem State.openTiles_zero (s : State) (j : Job) {o : OpenArg} (h : o.preload = .zero) (l : List TileArg) :
    s.openTiles j o l = .inr (l.map freshTile) := by
  induction l with
  | nil => rfl
  | cons t l ih => rw [State.openTiles, s.readPreload_zero j h, ih]; rfl

/-- A fresh tile reads back as it is. -/
theorem State.reread_freshTile (s : State) (n : Nat) (j : Job) (h : g.o.preload = .zero) (hk : g.hist = []) (i : Nat) (t : TileArg) :
    ∃ st, s.reread n j g i (freshTile t) = .inr ⟨freshTile t, st⟩ := by
  refine ⟨(s.core n).xferStat, ?_⟩
  rw [State.reread, s.readPreload_zero j h, hk]
  rfl

theorem xIsZero_preVal_freshTile (h : g.o.preload = .zero) (t : TileArg) (k : Nat) : xIsZero (g.preVal (freshTile t) k) = true := by
  rw [Group.preVal, h]
  refine xIsZero_xMul ?_ (by decide)
  have hz : (freshTile t).pre.getD k 0 = 0 := by
    rw [freshTile, List.map_replicate, List.getD_eq_getElem?_getD, List.getElem?_replicate]
    split <;> rfl
  rw [hz]
  decide

/-- The first pass of a fresh tile overflows nowhere. -/
theorem overflows_freshTile (j : Job) (h : g.o.preload = .zero) (t : TileArg) :
    (g.tileIn j (freshTile t)).overflows ((g.tileIn j (freshTile t)).pass 0) = false := by
  rw [TileIn.overflows, List.any_eq_false]
  rintro ⟨r, k⟩ hr
  obtain ⟨m, -, rfl⟩ := List.mem_map.1 (List.fst_mem_of_mem_zipIdx hr)
  have : ((g.tileIn j (freshTile t)).elem 0 m).ovf = false := by
    unfold TileIn.elem
    dsimp only
    split
    · rfl
    · exact preloadElem_ovf_of_isZero _ _ _ (xIsZero_preVal_freshTile h t m)
  simp [this]

/-- A fresh tile brought up to date holds its elements at prescale 0. -/
theorem UpToDate.of_freshTile {t : TileArg} {y : Tile} (h : g.o.preload = .zero) (hy : UpToDate g j (freshTile t) y) :
    y.arg = t ∧ y.q = 0 ∧ y.elems.length = t.rows * t.cols := by
  obtain ⟨harg, -, -, hq⟩ := hy
  obtain ⟨-, -, hlow, hend⟩ := hq (Nat.zero_le 8)
  have hno : (g.tileIn j (freshTile t)).overflows (g.passAt j (freshTile t) 0) = false := overflows_freshTile j h t
  have h0 : y.q = 0 := by
    by_contra hne
    rw [hlow 0 le_rfl (Nat.pos_of_ne_zero hne)] at hno
    cases hno
  refine ⟨harg, h0, ?_⟩
  rw [(hend (by omega)).2, h0, passElems, List.length_map]
  show ((g.tileIn j (freshTile t)).pass 0).length = _
  rw [TileIn.pass, List.length_map, List.length_range]
  rfl

/-! ### OPEN -/

theorem State.Ready.perform_open (h : s.Ready a) (o : OpenArg) : s.perform j (.openGroup a o) = s.openGroup a j o :=
  h.checked _

theorem State.openGroup_fails {o : OpenArg} {code : Nat} (hc : s.openCode a.core j o = code) (h0 : code ≠ 0) :
    s.openGroup a j o = s.checkFail a code := by
  rw [State.openGroup]
  simp only [hc, if_pos h0]

/-- A ninth group fails the first check (Table 3.6). -/
theorem State.openCode_full {o : OpenArg} (h : 8 ≤ (s.core n).groups.length) : s.openCode n j o = 0x0205 := if_pos (.inl h)

/-- A group as OPEN starts it with a ZERO preload, before its tiles' first pass. -/
def State.freshGroup (s : State) (j : Job) (o : OpenArg) : Group :=
  { o := s.resolveOpen j o, tiles := o.tiles.map freshTile, k := 0, ended := false, hist := [] }

theorem State.freshGroup_preload {o : OpenArg} (h : o.preload = .zero) : (s.freshGroup j o).o.preload = .zero := by
  simp only [State.freshGroup, State.resolveOpen, h]; rfl

/-- OPEN with a ZERO preload of a layer that is not narrow puts its fresh group with its tiles settled. -/
theorem State.openGroup_zero {o : OpenArg} (h0 : s.openCode a.core j o = 0) (hp : o.preload = .zero) (hn : o.narrow = none)
    (hf : (s.settleTiles a.core j (s.freshGroup j o)).1 = none) :
    s.openGroup a j o = (s.settleTiles a.core j (s.freshGroup j o)).2.2.putGroup a.core o.group
      { s.freshGroup j o with tiles := (s.settleTiles a.core j (s.freshGroup j o)).2.1 } := by
  have hp' : (s.resolveOpen j o).preload = .zero := State.freshGroup_preload hp
  have hn' : (s.resolveOpen j o).narrow = none := hn
  have ht : (s.resolveOpen j o).tiles = o.tiles := rfl
  rw [State.openGroup]
  simp only [h0, ne_eq, not_true, if_false, s.openTiles_zero j hp', hn', ht]
  rw [← State.freshGroup, hf]
  rfl

theorem FirstSettled.map_arg {acc : Option Fetch × List Tile × State} (h : FirstSettled n j g s g.tiles.length acc) :
    acc.2.1.map (·.arg) = g.tiles.map (·.arg) := by
  refine List.ext_getElem? fun i => ?_
  rw [List.getElem?_map, List.getElem?_map]
  by_cases hi : i < g.tiles.length
  · obtain ⟨y, hy, hxy⟩ := h.tiles i _ hi (List.getElem?_eq_getElem hi)
    rw [hy, List.getElem?_eq_getElem hi, Option.map_some, Option.map_some, hxy.1]
  · have hl := h.length
    rw [List.getElem?_eq_none (by omega), List.getElem?_eq_none (by omega)]

/-- Every settled tile comes from one of the group's. -/
theorem FirstSettled.mem {acc : Option Fetch × List Tile × State} (h : FirstSettled n j g s g.tiles.length acc) {y : Tile}
    (hy : y ∈ acc.2.1) : ∃ x ∈ g.tiles, UpToDate g j x y := by
  obtain ⟨i, hi, rfl⟩ := List.getElem_of_mem hy
  have hi' : i < g.tiles.length := h.length ▸ hi
  obtain ⟨y, hy, hxy⟩ := h.tiles i _ hi' (List.getElem?_eq_getElem hi')
  rw [List.getElem?_eq_getElem hi] at hy
  exact ⟨_, List.getElem_mem hi', Option.some.inj hy ▸ hxy⟩

/-- Settles O26: the fresh tiles read back as they are, and their empty passes overflow nowhere. -/
theorem openStartsAGroup : Obligations.OpenStartsAGroup := by
  unfold Obligations.OpenStartsAGroup
  refine fun a o j s w h hj => ⟨fun h0 hp hn => ?_, fun hfull => ?_⟩
  · have settled := s.settleTiles_spec (g := s.freshGroup j o) (n := a.core) (j := j) w hn fun i x hx => by
      obtain ⟨t, -, rfl⟩ := List.mem_map.1 (List.mem_of_getElem? hx)
      exact s.reread_freshTile a.core j (State.freshGroup_preload hp) rfl i t
    have e := (h.perform_open o).trans (State.openGroup_zero h0 hp hn settled.fault)
    have wt := e ▸ (Keeps.perform (.refl s) (j := j) (c := .openGroup a o)).wf w
    have hc := h.coreCmd_retires hj rfl rfl e (settled.state.putGroup_undisturbed wt)
    obtain ⟨hcore, hret, hg, hother, hsram⟩ := settled.state.retire_putGroup wt
    refine ⟨_, _, hc, hcore, hret, hg, rfl, rfl, rfl, ?_, fun y hy => ?_, hother, hsram⟩
    · refine settled.map_arg.trans ?_
      rw [State.freshGroup, List.map_map]
      exact List.map_id _
    · obtain ⟨x, hx, hxy⟩ := settled.mem hy
      obtain ⟨t, -, rfl⟩ := List.mem_map.1 hx
      obtain ⟨harg, hq, hlen⟩ := hxy.of_freshTile (State.freshGroup_preload hp)
      exact ⟨hq, harg ▸ hlen⟩
  · exact h.coreCmd_fails w hj rfl rfl ((h.perform_open o).trans
      (State.openGroup_fails (State.openCode_full hfull) (by decide))) (by decide)

/-! ### ACCUMULATE -/

theorem State.Ready.perform_accumulate (h : s.Ready a) (o : AccArg) : s.perform j (.accumulate a o) = s.accumulate a j o :=
  h.checked _

theorem State.accumulate_closed {o : AccArg} (hg : s.group? a.core o.group = none) (hr : sramOk (accRanges 0 o) = true) :
    s.accumulate a j o = s.checkFail a 0x0203 := by
  rw [State.accumulate]
  simp only [hg, hr]
  rfl

theorem State.accumulate_empty {o : AccArg} (hg : s.group? a.core o.group = some g) (hk : o.kLen = 0)
    (hr : sramOk (accRanges g.o.orient o) = true) : s.accumulate a j o = s := by
  rw [State.accumulate]
  simp [hg, hr, hk]

/-- ACCUMULATE that passes its checks puts its group with what it takes and its tiles settled. -/
theorem State.accumulate_takes {o : AccArg} (hg : s.group? a.core o.group = some g) (hk : o.kLen ≠ 0) (hc : accCode g o = 0)
    (hr : sramOk (accRanges g.o.orient o) = true) (hf : (s.settleTiles a.core j (s.takes a.core j g o)).1 = none) :
    s.accumulate a j o = (s.settleTiles a.core j (s.takes a.core j g o)).2.2.putGroup a.core o.group
      { s.takes a.core j g o with tiles := (s.settleTiles a.core j (s.takes a.core j g o)).2.1 } := by
  rw [State.accumulate]
  simp only [hg, hr, hc, hk, hf, Bool.not_true, Bool.false_eq_true, if_false, ne_eq, not_true]

/-- Picking every entry of a list by its number loses none. -/
theorem length_filterMap_range {α β : Type} (l : List α) (f : Nat → α → β) :
    ((List.range l.length).filterMap (fun i => (l[i]?).map (f i))).length = l.length := by
  rw [List.length_filterMap_eq_countP, List.countP_eq_length.2 fun i hi => ?_, List.length_range]
  simpa using hi

theorem State.takes_tiles_length (s : State) (n : Nat) (j : Job) (g : Group) (o : AccArg) :
    (s.takes n j g o).tiles.length = g.tiles.length := length_filterMap_range ..

/-- Settles O27: the tiles read back as they are, so each search is one over passes of the tile itself. -/
theorem accumulateFindsThePrescale : Obligations.AccumulateFindsThePrescale := by
  unfold Obligations.AccumulateFindsThePrescale
  refine fun a o j s w h hj => ⟨fun g hg hn hk hc hr => ?_, fun hg hr => ?_, fun g hg hk hr => ?_⟩
  · intro g1 hx
    have settled := s.settleTiles_spec (g := g1) w hn hx
    have e := (h.perform_accumulate o).trans (State.accumulate_takes hg hk hc hr settled.fault)
    have wt := e ▸ (Keeps.perform (.refl s) (j := j) (c := .accumulate a o)).wf w
    have he := h.coreCmd_retires hj rfl rfl e (settled.state.putGroup_undisturbed wt)
    obtain ⟨hcore, hret, hput, -, hsram⟩ := settled.state.retire_putGroup wt
    refine ⟨_, _, he, hcore, hret, hput, rfl, rfl, settled.length.trans (s.takes_tiles_length ..), hsram, fun i x hi => ?_⟩
    obtain ⟨y, hy, harg, hhist, hgiven, hleast⟩ := settled.tiles i x (List.getElem?_eq_some_iff.1 hi).1 hi
    exact ⟨y, hy, harg, hhist, hgiven, hleast⟩
  · exact h.coreCmd_fails w hj rfl rfl ((h.perform_accumulate o).trans (State.accumulate_closed hg hr)) (by decide)
  · exact h.coreCmd_retires hj rfl rfl ((h.perform_accumulate o).trans (State.accumulate_empty hg hk hr)) (.refl w)

end Sys2Proof.Machine
end

section
/-! SUPPORT. CLOSE of a one-tile group (R82, R102): what it stores where. -/

namespace Sys2Proof.Machine
open Sys2Proof

-- Proofs elaborated in threads of their own would pass the check's limit of memory.
set_option Elab.async false

variable {s t u v : State} {a : Attr} {j : Job} {n : Nat} {g : Group} {x : Tile}

/-! ### What is written reads back -/

theorem mapGetRun_mapSetRun {α : Type} [DecidableEq α] {d : Nat → α} {m : List (Nat × α)} (hm : mapWf d m) (k : Nat) (l : List α) :
    mapGetRun d (mapSetRun d m k l) k l.length = l := by
  refine List.ext_getElem (by simp [mapGetRun]) fun i _ hi => ?_
  simp [mapGetRun, mapGet_mapSetRun hm, hi]

theorem State.load_store (h : mapWf memDefault s.mem) (x : Nat) (bs : List Byte) : (s.store x bs).load x bs.length = bs := by
  rw [State.load, State.store_mem, mapGetRun_mapSetRun h]

theorem State.sramRead_sramWrite (w : s.Wf) (n off : Nat) (bs : List Byte) : (s.sramWrite n off bs).sramRead n off bs.length = bs := by
  rw [State.sramRead, State.sramWrite, State.core_setCore w.cores, if_pos rfl, CoreSt.noteFeed_sram, mapGetRun_mapSetRun (w.core n)]

/-- Noting a writer leaves everything of a core but the note. -/
theorem CoreSt.noteFeed_eq (c : CoreSt) (f : Feed) : c.noteFeed f = { c with feeds := (c.noteFeed f).feeds } := by
  unfold CoreSt.noteFeed
  split <;> rfl

/-! ### Effects that leave the registers and the windows -/

theorem Undisturbed.noteMax (e : Undisturbed s u) (i : Nat) (m : Xv) : Undisturbed s (u.noteMax i m) :=
  ⟨⟨e.wf.regs, e.wf.mem, e.wf.ports, e.wf.cores, e.wf.sram, e.wf.sqs, e.wf.cqs⟩, e.regs, e.job, e.staged, e.windows⟩

theorem Undisturbed.store (e : Undisturbed s u) (x : Nat) (bs : List Byte) : Undisturbed s (u.store x bs) :=
  ⟨e.wf.store x bs, e.regs, e.job, e.staged, e.windows⟩

theorem Undisturbed.sramWrite (e : Undisturbed s u) (n off : Nat) (bs : List Byte) : Undisturbed s (u.sramWrite n off bs) := by
  refine ⟨e.wf.sramWrite n off bs, e.regs, e.job, e.staged, fun k => ?_⟩
  rw [State.sramWrite, State.core_setCore e.wf.cores]
  split
  · subst k
    rw [CoreSt.noteFeed_eq]
    exact e.windows n
  · exact e.windows k

/-- Group `k` of a core is closed. -/
def State.dropGroup (s : State) (n k : Nat) : State :=
  s.setCore n { s.core n with groups := (s.core n).groups.filter (fun e => e.1 != k) }

theorem State.core_dropGroup (w : s.Wf) (n k m : Nat) : (s.dropGroup n k).core m = if m = n then
    { s.core n with groups := (s.core n).groups.filter (fun e => e.1 != k) } else s.core m := State.core_setCore w.cores ..

theorem Undisturbed.dropGroup (e : Undisturbed s u) (n k : Nat) : Undisturbed s (u.dropGroup n k) := by
  refine ⟨e.wf.setCore n (e.wf.core n), e.regs, e.job, e.staged, fun m => ?_⟩
  rw [State.core_dropGroup e.wf]
  split
  · subst m; exact e.windows n
  · exact e.windows m

theorem State.group?_dropGroup (w : s.Wf) (n k : Nat) : (s.dropGroup n k).group? n k = none := by
  rw [State.group?, State.core_dropGroup w, if_pos rfl, getAssoc_filter_same]

theorem State.group?_dropGroup_ne (w : s.Wf) (n : Nat) {k m : Nat} (h : m ≠ k) : (s.dropGroup n k).group? n m = s.group? n m := by
  rw [State.group?, State.core_dropGroup w, if_pos rfl, getAssoc_filter_ne _ h, State.group?]

theorem State.sram_dropGroup (w : s.Wf) (n k : Nat) : ((s.dropGroup n k).core n).sram = (s.core n).sram := by
  rw [State.core_dropGroup w, if_pos rfl]

theorem State.group?_sramWrite (w : s.Wf) (n off : Nat) (bs : List Byte) (k : Nat) :
    (s.sramWrite n off bs).group? n k = s.group? n k := by
  rw [State.group?, State.sramWrite, State.core_setCore w.cores, if_pos rfl, CoreSt.noteFeed_eq, State.group?]

/-! ### CLOSE -/

theorem State.Ready.perform_close (h : s.Ready a) (k : Nat) (d : StoreDest) (c : Conv) :
    s.perform j (.close a k d c) = s.close a j k d c := h.checked _

theorem State.close_closed {k : Nat} {d : StoreDest} {c : Conv} (hg : s.group? a.core k = none)
    (hd : ∀ o, d = .sram o → sramOk [(o, 0)] = true) : s.close a j k d c = s.checkFail a 0x0203 := by
  unfold State.close
  simp only [hg]
  cases d with
  | tensor => rfl
  | sram o => simp only [hd o rfl]; rfl

section
variable {out : Tensor} {c : Conv} {st : Stored}

/-- The result of a tile of a layer that is not narrow, outside a wide schedule, is its own at rung 0. -/
theorem State.closeTile_plain (hn : g.o.narrow = none) (hw : s.stp.wide = false) (i : Nat) :
    s.closeTile n j out c g i x = .inr ({ rung := 0, st := s.tileStore j out c g x (g.tileIn j x) x.readFlushed 0 x.q x.elems }, s) := by
  rw [State.closeTile]
  simp [hn, hw]

/-- The notes of a plain store of a tensor that is not of the gradient class: its maximum alone. -/
theorem State.storeNotes_plain (hc : out.cls ≠ 1) (hr : c.rescale = none) :
    ((s.noteNf out st).noteMax out.index st.max).rescale (some out) c = s.noteMax out.index st.max := by
  simp [State.noteNf, hc, State.rescale, hr]

/-- Without a status array no record is stored. -/
theorem State.storeRecord_none (hs : j.tensor? out.status = none) (t : TileArg) (r : List Byte) :
    s.storeRecord j out t r = (none, s) := by
  rw [State.storeRecord, hs]

/-- A plain result stored into data SRAM. -/
theorem State.writeTile_sram (hc : out.cls ≠ 1) (hs : j.tensor? out.status = none) (hp : plainConv c) (t : TileArg) (o off : Nat) :
    s.writeTile n j out c t (.sram o) off st = (none, (s.noteMax out.index st.max).sramWrite n off (st.rows.flatMap id)) := by
  obtain ⟨hact, -, -, -, hre⟩ := hp
  simp [State.writeTile, State.storeNotes_plain hc hre, State.storeRecord_none hs, hact]

/-- One row stored at its place of the output tensor. -/
theorem State.storeRows_one {t : TileArg} {row : List Byte} {addr : Nat}
    (ha : j.range? out (s.writeSlot j out) (t.m0 * out.rowLen + t.n0) t.cols = some addr) (hb : s.badPart addr row.length = none) :
    s.storeRows j out t [row] = (none, s.store addr row) := by
  simp [State.storeRows, ha, State.storeParts, hb]

/-- A plain result of one row stored into the output tensor. -/
theorem State.writeTile_tensor (hc : out.cls ≠ 1) (hs : j.tensor? out.status = none) (hp : plainConv c) {t : TileArg} {row : List Byte}
    {addr : Nat} (hrow : st.rows = [row]) (ha : j.range? out (s.writeSlot j out) (t.m0 * out.rowLen + t.n0) t.cols = some addr)
    (hb : s.badPart addr row.length = none) (off : Nat) :
    s.writeTile n j out c t .tensor off st = (none, (s.noteMax out.index st.max).store addr row) := by
  obtain ⟨hact, -, -, -, hre⟩ := hp
  have h := State.storeRows_one (s := s.noteMax out.index st.max) ha hb
  simp [State.writeTile, State.storeNotes_plain hc hre, State.storeRecord_none hs, hact, hrow, h]

/-- Where the first tile of a group is stored in data SRAM. -/
def firstPlace : StoreDest → Nat
  | .tensor => 0
  | .sram off => off

/-- CLOSE of a one-tile group writes its tile's result and closes the group. -/
theorem State.close_one {k : Nat} {d : StoreDest} (hg : s.group? a.core k = some g) (hx : g.tiles = [x]) (hn : g.o.narrow = none)
    (hw : s.stp.wide = false) (hout : j.tensor? g.o.out = some out) (hback : c.back = none)
    (hcode : convCode .t32 { c with dst := out.format, sSrc := t32One } j false (some out) 0 0 = 0)
    (hd : ∀ o, d = .sram o → sramOk [(o, tileBytes out.format x.arg)] = true)
    (hwrite : s.writeTile a.core j out { c with dst := out.format } x.arg d (firstPlace d)
      (s.tileStore j out { c with dst := out.format } g x (g.tileIn j x) x.readFlushed 0 x.q x.elems) = (none, v)) :
    s.close a j k d c = v.dropGroup a.core k := by
  have htiles : s.closeTiles a.core j out { c with dst := out.format } g d [(0, x, firstPlace d)] = (none, v) := by
    rw [State.closeTiles, State.closeTile_plain hn hw]
    simp only [hwrite]
    rfl
  simp only [hback] at hcode htiles
  unfold State.close
  simp only [hg, hout, hback, hx]
  cases d with
  | tensor =>
    have hr : sramOk [] = true := rfl
    have ht : s.closeTiles a.core j out _ g .tensor [(0, x, 0)] = (none, v) := htiles
    simp [tileStarts, hr, hcode, ht, State.dropGroup]
  | sram o =>
    have ht : s.closeTiles a.core j out _ g (.sram o) [(0, x, o)] = (none, v) := htiles
    simp [tileStarts, hd o rfl, hcode, ht, State.dropGroup]

/-- What a CLOSE leaves once it retires, `v` being what its tile's store has left: the group closed, every other group and
register as before. -/
theorem Undisturbed.retire_dropGroup (e : Undisturbed s v) (hg : ∀ m, v.group? a.core m = s.group? a.core m) (k : Nat) :
    let t := (v.dropGroup a.core k).retire a
    Machine.retired s t a ∧ t.group? a.core k = none ∧ (∀ m, m ≠ k → t.group? a.core m = s.group? a.core m)
      ∧ (∀ r, r ∉ retireRegs a.core → t.reg r = s.reg r) ∧ (t.core a.core).sram = (v.core a.core).sram :=
  have e' := e.dropGroup a.core k
  ⟨e'.retired a, State.group?_dropGroup e.wf .., fun m hm => (State.group?_dropGroup_ne e.wf _ hm).trans (hg m),
    fun _ hr => e'.reg_retire hr, State.sram_dropGroup e.wf ..⟩

end

/-- Settles O28: the one tile's store is a run of bytes written to data SRAM, or one row written to memory. -/
theorem closeStoresTheTile : Obligations.CloseStoresTheTile := by
  unfold Obligations.CloseStoresTheTile
  refine fun a grp off conv j s w h hj => ⟨?_, fun d hg hd => ?_⟩
  · intro g x out hg hx hn hw hp hout hstat hcls c hcode st
    have hpc : plainConv c := hp
    have e1 := (Undisturbed.refl w).noteMax out.index st.max
    refine ⟨fun hr => ?_, fun addr row ha hrow hb => ?_⟩
    · have hclose := State.close_one (a := a) (k := grp) (d := .sram off) hg hx hn hw hout hp.2.1 hcode (fun o ho => by cases ho; exact hr)
        (State.writeTile_sram hcls hstat hpc x.arg off off)
      have ev := e1.sramWrite a.core off (st.rows.flatMap id)
      have he := h.coreCmd_retires hj rfl rfl ((h.perform_close ..).trans hclose) (ev.dropGroup a.core grp)
      obtain ⟨hret, hclosed, hothers, hregs, hsram⟩ := ev.retire_dropGroup (a := a) (fun m => State.group?_sramWrite e1.wf _ _ _ m) grp
      refine ⟨_, he, hret, rfl, hclosed, ?_, hothers, hregs, rfl, fun k hk => ?_⟩
      · rw [State.sramRead, hsram]
        exact State.sramRead_sramWrite e1.wf ..
      · rw [hsram, State.sram_sramWrite e1.wf.cores (e1.wf.core a.core), if_neg (by omega)]
        rfl
    · have hclose := State.close_one (a := a) (k := grp) (d := .tensor) hg hx hn hw hout hp.2.1 hcode (fun o ho => by cases ho)
        (State.writeTile_tensor hcls hstat hpc hrow ha hb 0)
      have ev := e1.store addr row
      have he := h.coreCmd_retires hj rfl rfl ((h.perform_close ..).trans hclose) (ev.dropGroup a.core grp)
      obtain ⟨hret, hclosed, -, hregs, hsram⟩ := ev.retire_dropGroup (a := a) (fun _ => rfl) grp
      refine ⟨_, he, hret, hclosed, State.load_store e1.wf.mem addr row, hsram, hregs, rfl, fun k hk => ?_⟩
      refine (State.byte_store e1.wf.mem addr k row).trans ?_
      rw [if_neg (by omega)]
      rfl
  · exact h.coreCmd_fails w hj rfl rfl ((h.perform_close ..).trans (State.close_closed hg hd)) (by decide)

end Sys2Proof.Machine
end

section
/-! SUPPORT. What a command of one core leaves alone: every other core, every other register (R126, R136, R144); and what messages on
the ports leave alone. -/

namespace Sys2Proof.Machine
open Sys2Proof

-- Proofs elaborated in threads of their own would pass the check's limit of memory.
set_option Elab.async false

variable {s t u : State} {a : Attr} {n : Nat} {R : List Nat}

/-! ### Fields of a core's window -/

theorem State.cfld_of_reg {k o : Nat} (h : t.reg (rCore k o) = s.reg (rCore k o)) (lo l : Nat) : t.cfld k o lo l = s.cfld k o lo l := by
  rw [State.cfld, State.fld, h]; rfl

theorem State.cfld_setCfld_same (w : s.Wf) {lo l : Nat} (hl : lo + l ≤ 64) (n o x : Nat) :
    (s.setCfld n o lo l x).cfld n o lo l = x % 2 ^ l := State.fld_setFld_same w.regs hl ..

theorem State.cfld_setCfld_disjoint (w : s.Wf) {lo l lo' l' : Nat} (hl : lo + l ≤ 64) (h : lo' + l' ≤ lo ∨ lo + l ≤ lo') (n o x : Nat) :
    (s.setCfld n o lo l x).cfld n o lo' l' = s.cfld n o lo' l' := State.fld_setFld_disjoint w.regs hl h ..

theorem State.cfld_addCfld_same (w : s.Wf) {lo l : Nat} (hl : lo + l ≤ 64) (n o x : Nat) :
    (s.addCfld n o lo l x).cfld n o lo l = min (2 ^ l - 1) (s.cfld n o lo l + x) := by
  have hpos : 0 < 2 ^ l := by positivity
  refine (State.fld_setFld_same w.regs hl ..).trans (Nat.mod_eq_of_lt ?_)
  unfold satAdd
  omega

theorem State.cfld_addCfld_disjoint (w : s.Wf) {lo l lo' l' : Nat} (hl : lo + l ≤ 64) (hd : lo' + l' ≤ lo ∨ lo + l ≤ lo') (n o x : Nat) :
    (s.addCfld n o lo l x).cfld n o lo' l' = s.cfld n o lo' l' := State.fld_setFld_disjoint w.regs hl hd ..

theorem rCore_ne {o p : Nat} (h : o ≠ p) (ho : o < 0x2000 := by decide) (hp : p < 0x2000 := by decide) (n k : Nat) :
    rCore n o ≠ rCore k p := fun e => h (rCore_inj ho hp e).2

/-- Writing a field leaves the registers at other offsets alone. -/
theorem State.cfld_setCfld_ne (w : s.Wf) {o p : Nat} (h : p ≠ o) (ho : o < 0x2000 := by decide) (hp : p < 0x2000 := by decide)
    (n k lo l x lo' l' : Nat) : (s.setCfld n o lo l x).cfld k p lo' l' = s.cfld k p lo' l' :=
  State.fld_setFld_ne w.regs (rCore_ne h hp ho k n) ..

/-- Retiring leaves every register but COUNT and LAST alone. -/
theorem State.cfld_retire (w : s.Wf) {o : Nat} (hc : o ≠ oCount) (hl : o ≠ oLast) (ho : o < 0x2000 := by decide) (a : Attr) (k lo l : Nat) :
    (s.retire a).cfld k o lo l = s.cfld k o lo l := by
  refine State.cfld_of_reg ((s.retire_spec w a).1.2 _ ?_) lo l
  simp only [retireRegs, List.mem_cons, List.not_mem_nil, or_false, not_or]
  exact ⟨rCore_ne hc ho (by decide) k _, rCore_ne hl ho (by decide) k _⟩

/-- COUNT and LAST hold the command once it retires, where both were as before until then. -/
theorem State.retired_retire (w : u.Wf) (h : u.reg (rCore a.core oCount) = s.reg (rCore a.core oCount)) : retired s (u.retire a) a := by
  have hr := (u.retire_spec w a).2
  rwa [retired, h] at hr

theorem retired.of_regs (h : retired s t a) (hc : u.reg (rCore a.core oCount) = t.reg (rCore a.core oCount))
    (hl : u.reg (rCore a.core oLast) = t.reg (rCore a.core oLast)) : retired s u a := by
  rwa [retired, hc, hl]

/-! ### Writing what is there already -/

theorem State.setReg_self (w : mapWf regDefault s.regs) (r : Nat) : s.setReg r (s.reg r) = s := by
  have h : mapSet regDefault s.regs r (BitVec.ofNat 64 (s.reg r)) = s.regs := by
    refine map_ext (mapSet_wf w _ _) w fun k => ?_
    rw [mapGet_mapSet w.1]
    split
    · subst k; simp [State.reg]
    · rfl
  rw [State.setReg, h]

/-- A field that holds a value already keeps it. -/
theorem State.setFld_self (w : s.Wf) {r lo l x : Nat} (h : s.fld r lo l = x % 2 ^ l) : s.setFld r lo l x = s := by
  have hp : putBits (s.reg r) lo l x = s.reg r := by
    have hb := bits_split (s.reg r) lo l
    rw [State.fld] at h
    rw [putBits, ← h]
    omega
  rw [State.setFld, hp, State.setReg_self w.regs]

theorem State.setCore_self (w : s.Wf) {c : CoreSt} (h : s.core n = c) : s.setCore n c = s := by
  have hm : mapSet coreDefault s.cores n c = s.cores := by
    refine map_ext (mapSet_wf w.cores _ _) w.cores fun k => ?_
    rw [mapGet_mapSet w.cores.1]
    split
    · subst k; exact h.symm
    · rfl
  rw [State.setCore, hm]

/-! ### Changes of one core -/

/-- From `s` to `t` only core `n` has changed, and of the registers only those of `R`. -/
structure OnCore (n : Nat) (R : List Nat) (s t : State) : Prop where
  wf   : t.Wf
  only : coreOnly s t n R

theorem OnCore.refl (w : s.Wf) (n : Nat) (R : List Nat) : OnCore n R s s := ⟨w, rfl, fun _ _ => rfl, fun _ _ => rfl⟩

theorem OnCore.mono {S : List Nat} (h : OnCore n R s t) (hR : R ⊆ S) : OnCore n S s t :=
  ⟨h.wf, h.only.1, fun r hr => h.only.2.1 r fun hm => hr (hR hm), h.only.2.2⟩

theorem OnCore.trans (h : OnCore n R s t) (k : OnCore n R t u) : OnCore n R s u := by
  obtain ⟨hframe, hregs, hcores⟩ := h.only
  obtain ⟨kframe, kregs, kcores⟩ := k.only
  exact ⟨k.wf, by rw [kframe, hframe], fun r hr => (kregs r hr).trans (hregs r hr), fun m hm => (kcores m hm).trans (hcores m hm)⟩

theorem OnCore.setCfld (h : OnCore n R s t) {o : Nat} (ho : rCore n o ∈ R) (lo l x : Nat) : OnCore n R s (t.setCfld n o lo l x) := by
  obtain ⟨hframe, hregs, hcores⟩ := h.only
  refine ⟨(Quiet.setCfld t n o lo l x).wf h.wf, ?_, fun r hr => ?_, hcores⟩
  · rw [State.setCfld, State.setFld, State.setReg, hframe]
  · exact (State.reg_setFld_ne h.wf.regs (fun e : r = rCore n o => hr (e ▸ ho)) ..).trans (hregs r hr)

theorem OnCore.addCfld (e : OnCore n R s t) {o : Nat} (ho : rCore n o ∈ R) (lo l x : Nat) : OnCore n R s (t.addCfld n o lo l x) :=
  e.setCfld ho lo l _

theorem OnCore.setCore (h : OnCore n R s t) {c : CoreSt} (hc : c.sram = (t.core n).sram) : OnCore n R s (t.setCore n c) := by
  obtain ⟨hframe, hregs, hcores⟩ := h.only
  refine ⟨h.wf.setCore n (hc ▸ h.wf.core n), ?_, hregs, fun k hk => ?_⟩
  · rw [State.setCore, hframe]
  · exact (State.core_setCore h.wf.cores n k c).trans ((if_neg hk).trans (hcores k hk))

theorem OnCore.retire (h : OnCore a.core R s t) (hR : retireRegs a.core ⊆ R) : OnCore a.core R s (t.retire a) := by
  obtain ⟨hframe, hregs, hcores⟩ := h.only
  obtain ⟨⟨-, hkeep⟩, -⟩ := t.retire_spec h.wf a
  refine ⟨(Keeps.refl t).retire.wf h.wf, ?_, fun r hr => ?_, hcores⟩
  · rw [State.retire, State.setReg, State.setReg, hframe]
  · exact (hkeep r fun hm => hr (hR hm)).trans (hregs r hr)

theorem OnCore.ite {c : Prop} [Decidable c] (h : OnCore n R s t) (k : OnCore n R s u) : OnCore n R s (if c then t else u) := by
  split
  · exact h
  · exact k

theorem OnCore.job (h : OnCore n R s t) : t.job = s.job := by rw [h.only.1]
theorem OnCore.stp (h : OnCore n R s t) : t.stp = s.stp := by rw [h.only.1]
theorem OnCore.fab (h : OnCore n R s t) : t.fab = s.fab := by rw [h.only.1]
theorem OnCore.hl (h : OnCore n R s t) : t.hl = s.hl := by rw [h.only.1]
theorem OnCore.used (h : OnCore n R s t) : t.used = s.used := by rw [State.used, h.job]; rfl

/-- With no command of its core waiting or ending, nothing follows a change of one core. -/
theorem OnCore.settle (h : OnCore n R s t) (hs : s.Settled) (hw : (t.core n).window = []) (he : (t.core n).ending = none) :
    t.settle = t := by
  refine State.settle_of_noneWaits fun k hk => ?_
  by_cases hkn : k = n
  · subst k; exact ⟨hw, he⟩
  · rw [h.only.2.2 k hkn]
    rw [h.used] at hk
    exact ⟨hs.noneWaits k hk, hs.noneEnds k hk⟩

/-! ### Changes of the ports alone -/

/-- From `s` to `t` messages have been sent: only ports and the outbox have changed. -/
def PortsOnly (s t : State) : Prop := t = { s with ports := t.ports, outbox := t.outbox }

theorem PortsOnly.refl (s : State) : PortsOnly s s := rfl

theorem PortsOnly.setPort (h : PortsOnly s t) (p : Nat) (v : PortSt) : PortsOnly s (t.setPort p v) := by
  rw [PortsOnly] at h ⊢
  rw [State.setPort, h]

theorem PortsOnly.emit (h : PortsOnly s t) (o : Out) : PortsOnly s (t.emit o) := by
  rw [PortsOnly] at h ⊢
  rw [State.emit, h]

theorem PortsOnly.ite {c : Prop} [Decidable c] (h : PortsOnly s t) (k : PortsOnly s u) : PortsOnly s (if c then t else u) := by
  split
  · exact h
  · exact k

theorem PortsOnly.foldl {α : Type} {f : State → α → State} {l : List α} (h : PortsOnly s t)
    (hf : ∀ {t} x, PortsOnly s t → PortsOnly s (f t x)) : PortsOnly s (l.foldl f t) :=
  List.foldlRecOn (motive := PortsOnly s) _ _ h fun _ h x _ => hf x h

theorem PortsOnly.regs (h : PortsOnly s t) : t.regs = s.regs := by rw [h]
theorem PortsOnly.cores (h : PortsOnly s t) : t.cores = s.cores := by rw [h]
theorem PortsOnly.mem (h : PortsOnly s t) : t.mem = s.mem := by rw [h]
theorem PortsOnly.job (h : PortsOnly s t) : t.job = s.job := by rw [h]
theorem PortsOnly.stp (h : PortsOnly s t) : t.stp = s.stp := by rw [h]
theorem PortsOnly.reg (h : PortsOnly s t) (r : Nat) : t.reg r = s.reg r := by rw [State.reg, h.regs]; rfl

theorem PortsOnly.pumpOnce {sr : State × Nat} (h : PortsOnly s sr.1) (p : Nat) : PortsOnly s (State.pumpOnce p sr).1 := by
  unfold State.pumpOnce
  dsimp only
  split
  · exact h
  · split
    · exact h
    · exact (h.setPort ..).emit _

theorem PortsOnly.pump (h : PortsOnly s t) (p : Nat) : PortsOnly s (t.pump p) := by
  have ht : PortsOnly s ((t.port p).txq.foldl (fun sr _ => State.pumpOnce p sr) (t, 0)).1 :=
    List.foldlRecOn (motive := fun sr : State × Nat => PortsOnly s sr.1) _ _ h fun _ h _ _ => h.pumpOnce p
  exact ht.foldl fun _ h => (h.emit _).setPort ..

theorem PortsOnly.hlSend (h : PortsOnly s t) (p : Nat) (m : HlMsg) : PortsOnly s (t.hlSend p m) := (h.setPort ..).pump p

theorem PortsOnly.answer (h : PortsOnly s t) (p op tag x status : Nat) (data : List Byte) :
    PortsOnly s (t.answer p op tag x status data) := .ite (h.hlSend ..) h

theorem PortsOnly.request (h : PortsOnly s t) (p op addr param : Nat) (use : ReqUse) (data : List Byte) :
    PortsOnly s (t.request p op addr param use data) := (h.setPort ..).hlSend ..

theorem PortsOnly.fillOnce (h : PortsOnly s t) (p b : Nat) : PortsOnly s (t.fillOnce p b) := by
  unfold State.fillOnce
  extract_lets +onlyGivenNames v a
  refine .ite h ?_
  extract_lets +onlyGivenNames nak e idle
  have hidle : ∀ e, PortsOnly s (idle e) := fun e => (h.setPort ..).emit _
  split
  · exact (h.setPort ..).emit _
  · refine .ite (.ite (hidle _) (.ite ((h.setPort ..).emit _) ?_)) (hidle _)
    split
    · exact (h.setPort ..).emit _
    · exact h

theorem PortsOnly.fillTo (h : PortsOnly s t) (p b k : Nat) : PortsOnly s (t.fillTo p b k) := by
  induction k generalizing t with
  | zero => exact h
  | succ k ih => exact ih (h.fillOnce p b)

theorem PortsOnly.passSlots (h : PortsOnly s t) (x : Nat) : PortsOnly s (t.passSlots x) :=
  h.foldl fun p h => (h.fillTo p x _).setPort ..

theorem PortsOnly.silent (h : PortsOnly s t) (x : Nat) : PortsOnly s (t.silent x) := h.foldl fun _ h => h.setPort ..

/-! ### Pack time -/

/-- Pack time moves on through slots that change the ports alone (log entry 8). -/
theorem State.advanceTo_spec (s : State) (x : Nat) : PortsOnly (if s.now < x then s.setReg rPfPackTime x else s) (s.advanceTo x) := by
  unfold State.advanceTo
  split
  · have h : PortsOnly (s.setReg rPfPackTime x) ((s.passSlots x).setReg rPfPackTime x) := by
      have h := (PortsOnly.refl s).passSlots x
      rw [PortsOnly] at h ⊢
      rw [State.setReg, h]
      rfl
    exact h.silent _
  · exact .refl s

end Sys2Proof.Machine
end

section
/-! SUPPORT. The checks of class All and a core's own halt (R128, R130, R422, Table 5.3). -/

namespace Sys2Proof.Machine
open Sys2Proof

-- Proofs elaborated in threads of their own would pass the check's limit of memory.
set_option Elab.async false

variable {s t u : State} {a : Attr} {c : Instr} {j : Job} {n : Nat}

/-- Settles O1, by the definition of a step. -/
theorem frontCommandRuns : Obligations.FrontCommandRuns := by
  unfold Obligations.FrontCommandRuns
  exact fun _ _ _ => rfl

/-! ### A core's own halt -/

/-- A core that halts at once halts before its command, and its package has stopped. -/
theorem State.coreHaltNow_haltedBefore (w : s.Wf) (a : Attr) {code : Nat} (noEff : Bool) (hc : code < 2 ^ 16) (hr : s.running = true)
    (hq : ∀ n ∈ s.used, (s.core n).ending = none) : haltedBefore s (s.coreHaltNow a code noEff) a code noEff := by
  obtain ⟨hstate, -, hrec, hfault⟩ := State.coreHaltNow_spec w a noEff hc hr hq
  have q := s.coreHaltNow_quiet a code noEff
  refine ⟨hstate, q.mem, q.nv, q.job, fun h0 => ?_, fun h0 => ?_⟩
  · obtain ⟨hinfo, htag⟩ := hrec h0
    have hb : b2n noEff ≤ 1 := by cases noEff <;> decide
    simp only [State.cfld, State.fld, hinfo, htag, bitsOf]
    omega
  · obtain ⟨hbu, hcode, -, hcore⟩ := hfault h0
    exact ⟨hbu, hcode, hcore⟩

theorem State.checkFail_of_not_issues (code : Nat) (h : (s.core a.core).issues = false) : s.checkFail a code = s.coreHaltNow a code true := by
  rw [State.checkFail, State.coreHalt]
  exact if_neg (by simp [h])

theorem State.checkFail_of_issues (code : Nat) (h : (s.core a.core).issues = true) :
    s.checkFail a code = s.setCore a.core { s.core a.core with
      window := (s.core a.core).window.takeWhile (fun w => w.status != .issuing), ending := some (.halt a code true s.now) } := by
  rw [State.checkFail, State.coreHalt]
  exact if_pos h

theorem State.fetching_iff : s.fetching n = true ↔ s.running = true ∧ s.stp.started = true ∧ n ∈ s.used ∧ s.coreLive n = true := by
  simp [State.fetching, State.issuing, and_assoc]

/-- Settles O17: a command that is alone halts its core at once; one of the window leaves the halt to come. -/
theorem failedCheckHaltsTheCore : Obligations.FailedCheckHaltsTheCore := by
  unfold Obligations.FailedCheckHaltsTheCore
  refine fun s a code w hf hc => ⟨fun hi hq => ?_, State.checkFail_of_issues code⟩
  have hr := (State.fetching_iff.1 hf).1
  rw [State.checkFail_of_not_issues code hi]
  exact ⟨State.coreHaltNow_haltedBefore w a true hc hr hq, (State.coreHaltNow_spec w a true hc hr hq).2.1⟩

/-! ### A command with nothing older in its way -/

/-- Command `a` of a core's stream is about to be issued with every older command retired: what `Ready` says of the state and the core,
without what it says of the command. -/
structure State.Unhindered (s : State) (a : Attr) : Prop where
  live     : s.dark = false
  fetching : s.fetching a.core = true
  alone    : (s.core a.core).stream = [] ∧ (s.core a.core).ending = none
  settled  : s.Settled
  unarmed  : s.armed = false

theorem State.Ready.unhindered (h : s.Ready a) : s.Unhindered a := ⟨h.live, h.fetching, h.alone, h.settled, h.unarmed⟩

theorem State.Unhindered.running (h : s.Unhindered a) : s.running = true := (State.fetching_iff.1 h.fetching).1

theorem State.Unhindered.mem_used (h : s.Unhindered a) : a.core ∈ s.used := (State.fetching_iff.1 h.fetching).2.2.1

theorem State.Unhindered.window (h : s.Unhindered a) : (s.core a.core).window = [] := h.settled.noneWaits _ h.mem_used

theorem State.Unhindered.checkFail (h : s.Unhindered a) (code : Nat) : s.checkFail a code = s.coreHaltNow a code true :=
  State.checkFail_alone code h.window

theorem State.exists_job_of_used (hu : n ∈ s.used) : ∃ j, s.job = some j := by
  cases hj : s.job with
  | none => simp [State.used, hj] at hu
  | some j => exact ⟨j, rfl⟩

theorem State.Unhindered.exists_job (h : s.Unhindered a) : ∃ j, s.job = some j := State.exists_job_of_used h.mem_used

/-- An unhindered command enters alone (R133). -/
theorem State.Unhindered.coreCmd (h : s.Unhindered a) (hj : s.job = some j) (c : Instr) :
    coreCmd a c s = .next (s.enterAlone j a c).settle := by
  unfold Machine.coreCmd State.whenLive
  simp [h.live, hj, h.fetching, State.submit, h.settled.deliverDue, h.window, h.alone]

/-- A package that has stopped settles nothing any more. -/
theorem State.settle_coreHaltNow (w : s.Wf) (hr : s.running = true) (a : Attr) (code : Nat) (noEff : Bool) :
    (s.coreHaltNow a code noEff).settle = s.coreHaltNow a code noEff := by
  refine State.settle_of_stopped ?_
  rw [State.issuing, State.running, State.coreHaltNow_bu w hr]
  rfl

/-- A control command that acts at once; what waits follows. -/
theorem State.Unhindered.coreCmd_acts (h : s.Unhindered a) (hc : serialises c = true) (ht : s.control c s.now true = some t) :
    Machine.coreCmd a c s = .next t.settle := by
  obtain ⟨j, hj⟩ := h.exists_job
  rw [h.coreCmd hj, State.enterAlone]
  simp [h.unarmed, hc, ht]

/-- A command of an engine whose checks halt its core. -/
theorem State.Unhindered.coreCmd_halts (w : s.Wf) (h : s.Unhindered a) (hc : serialises c = false) (hu : s.unblocked a.core c = true)
    {code : Nat} (hcode : code < 2 ^ 16) (hp : ∀ j, s.perform j c = s.checkFail a code) :
    Machine.coreCmd a c s = .next (s.checkFail a code) := by
  obtain ⟨j, hj⟩ := h.exists_job
  have hs : (s.checkFail a code).stp.staged = [] := by rw [(s.checkFail_quiet a code).stp, h.settled.unstaged]
  have hl : (s.coreHaltNow a code true).coreLive a.core = false := by
    rw [State.coreLive, (State.coreHaltNow_spec w a true hcode h.running h.settled.noneEnds).1]; rfl
  rw [h.coreCmd hj, State.enterAlone]
  simp only [h.unarmed, hc, hu, hp, State.isStaged, hs, Bool.false_eq_true, if_false, if_true, List.any_nil]
  rw [h.checkFail, hl, if_neg (by decide), State.settle_coreHaltNow w h.running]

/-- A control command whose checks halt its core. -/
theorem State.Unhindered.coreCmd_fails (w : s.Wf) (h : s.Unhindered a) (hc : serialises c = true) {code : Nat}
    (ht : s.control c s.now true = some (s.checkFail a code)) : Machine.coreCmd a c s = .next (s.checkFail a code) := by
  rw [h.coreCmd_acts hc ht, h.checkFail, State.settle_coreHaltNow w h.running]

/-! ### Class All -/

theorem exec_stream (h : streamAttr c = some a) (s : State) : exec c s = coreCmd a c s := by
  cases c <;> cases h <;> rfl

/-- A command fails class All with `code` whatever else it asks for. -/
def FailsAll (a : Attr) (code : Nat) : Prop :=
  (a.defined = false ∧ code = 0x0101) ∨ (a.defined = true ∧ a.engines &&& absentEngines ≠ 0 ∧ code = 0x0301)

theorem FailsAll.checked {code : Nat} (h : FailsAll a code) (s : State) (rs : List (Nat × Nat)) (k : State → State) :
    s.checked a rs k = s.checkFail a code := by
  rcases h with ⟨hd, rfl⟩ | ⟨hd, he, rfl⟩
  · simp [State.checked, hd, cCmdIllegal]
  · simp [State.checked, hd, he, cEngineAbsent]

/-- The engines' commands make the checks of class All first. -/
theorem FailsAll.perform {code : Nat} (h : FailsAll a code) (hc : streamAttr c = some a) (hs : serialises c = false) (s : State) (j : Job) :
    s.perform j c = s.checkFail a code := by
  cases c <;> cases hc
  case heel | fence | branch | decide | swap | endStream => cases hs
  all_goals exact h.checked ..

/-- What a control command does as the oldest unretired one, its checks of class All and its memory passed. -/
def State.controlEffect (s : State) (c : Instr) (since : Nat) (go : Bool) : Option State :=
  match c with
  | .heel a h d waits => s.heel a h d waits since go
  | .fence a => some (s.retire a)
  | .branch a target => some (s.branch a target)
  | .decide a mask target => some (s.decideBranch a mask target)
  | .swap a seg entry => s.swap a seg entry
  | .endStream a => some (s.endCore a)
  | _ => some s

/-- The checks of class All and the memory errors that `a` meets stand before the effect `k` of a control command. -/
def State.guarded (s : State) (a : Attr) (k : State → Option State) : Option State :=
  if !a.defined || decide (a.engines &&& absentEngines ≠ 0) then some (s.checked a [] id)
  else if a.mem = { } then k s
  else if a.mem.unit.isSome then some (s.meetCore a id)
  else (k (s.meeting a.mem)).map (fun s => { s with failing := [] })

theorem State.control_eq (hc : streamAttr c = some a) (hs : serialises c = true) (s : State) (since : Nat) (go : Bool) :
    s.control c since go = s.guarded a (fun s => s.controlEffect c since go) := by
  cases c <;> cases hc
  case heel | fence | branch | decide | swap | endStream => rfl
  all_goals cases hs

/-- The control commands make the checks of class All first. -/
theorem FailsAll.control {code : Nat} (h : FailsAll a code) (hc : streamAttr c = some a) (hs : serialises c = true) (s : State)
    (since : Nat) (go : Bool) : s.control c since go = some (s.checkFail a code) := by
  have hg : (!a.defined || decide (a.engines &&& absentEngines ≠ 0)) = true := by
    rcases h with ⟨hd, -⟩ | ⟨-, he, -⟩
    · simp [hd]
    · simp [he]
  rw [State.control_eq hc hs, State.guarded, if_pos hg, h.checked]

/-- A control command that passes class All and meets no memory error has its effect. -/
theorem State.control_passes (hc : streamAttr c = some a) (hs : serialises c = true) (hd : a.defined = true)
    (he : a.engines &&& absentEngines = 0) (hm : a.mem = { }) (s : State) (since : Nat) (go : Bool) :
    s.control c since go = s.controlEffect c since go := by
  rw [State.control_eq hc hs, State.guarded, if_neg (by simp [hd, he]), if_pos hm]

/-- A control command that passes class All and meets a two-bit error of its core's memory. -/
theorem State.control_meets (hc : streamAttr c = some a) (hs : serialises c = true) (hd : a.defined = true)
    (he : a.engines &&& absentEngines = 0) {m : CoreMem × Nat} (hm : a.mem.unit = some m) (s : State) (since : Nat) (go : Bool) :
    s.control c since go = some (s.meetCore a id) := by
  have hne : a.mem ≠ { } := fun e => by rw [e] at hm; cases hm
  rw [State.control_eq hc hs, State.guarded, if_neg (by simp [hd, he]), if_neg hne, if_pos (by rw [hm]; rfl)]

/-- The checks of class All come first. -/
theorem State.Unhindered.coreCmd_failsAll (w : s.Wf) (h : s.Unhindered a) (hc : streamAttr c = some a) (hu : s.unblocked a.core c = true)
    {code : Nat} (hf : FailsAll a code) (hcode : code < 2 ^ 16) : Machine.coreCmd a c s = .next (s.checkFail a code) := by
  cases hs : serialises c with
  | false => exact h.coreCmd_halts w hs hu hcode fun j => hf.perform hc hs s j
  | true => exact h.coreCmd_fails w hs (hf.control hc hs ..)

/-! ### A two-bit error of the core's own memory -/

/-- From `s` to `t` a memory error has been noted: only the registers of `R` and the blocks that read uncorrectable or whose write fails
have changed. -/
structure Noted (R : List Nat) (s t : State) : Prop where
  frame : t = { s with regs := t.regs, bad := t.bad, failing := t.failing }
  wf    : t.Wf
  regs  : ∀ r, r ∉ R → t.reg r = s.reg r

section
variable {R S : List Nat}

theorem Noted.refl (w : s.Wf) (R : List Nat) : Noted R s s := ⟨rfl, w, fun _ _ => rfl⟩

theorem Noted.mono (h : Noted R s t) (hR : R ⊆ S) : Noted S s t := ⟨h.frame, h.wf, fun r hr => h.regs r fun hm => hr (hR hm)⟩

theorem Noted.setReg (h : Noted R s t) {r : Nat} (hr : r ∈ R) (v : Nat) : Noted R s (t.setReg r v) where
  frame := by rw [State.setReg, h.frame]
  wf := (Quiet.setReg t r v).wf h.wf
  regs k hk := (State.reg_setReg_ne h.wf.regs (fun e : k = r => hk (e ▸ hr)) v).trans (h.regs k hk)

theorem Noted.addFld (h : Noted R s t) {r : Nat} (hr : r ∈ R) (lo l x : Nat) : Noted R s (t.addFld r lo l x) := h.setReg hr _

theorem Noted.unless {c : Prop} [Decidable c] (h : Noted R s t) (k : Noted R s u) : Noted R s (if c then t else u) := by
  split
  · exact h
  · exact k

theorem Noted.fld (h : Noted R s t) {r : Nat} (hr : r ∉ R) (lo l : Nat) : t.fld r lo l = s.fld r lo l := by
  rw [State.fld, h.regs r hr, State.fld]

theorem Noted.core (h : Noted R s t) (k : Nat) : t.core k = s.core k := by rw [h.frame]; rfl

theorem Noted.used (h : Noted R s t) : t.used = s.used := by rw [h.frame]; rfl

end

theorem State.meeting_noted (w : s.Wf) (m : MemMeet) : Noted [rMemEcc] s (s.meeting m) := by
  have hr : rMemEcc ∈ [rMemEcc] := by simp
  unfold State.meeting
  extract_lets s1 s2 s3
  have h1 : Noted [rMemEcc] s s1 := (Noted.refl w _).unless ((Noted.refl w _).addFld hr ..)
  have h2 : Noted [rMemEcc] s s2 := h1.unless (h1.addFld hr ..)
  have h3 : Noted [rMemEcc] s s3 := h2.unless (h2.addFld hr ..)
  refine ⟨?_, ⟨h3.wf.regs, h3.wf.mem, h3.wf.ports, h3.wf.cores, h3.wf.sram, h3.wf.sqs, h3.wf.cqs⟩, h3.regs⟩
  rw [h3.frame]

/-- An uncorrectable error is recorded where none is held (R310, Table 11.11). -/
theorem Noted.memErr (h : Noted [rMemEcc] s t) {addr source : Nat} (ha : addr < 2 ^ 48) (hs : source < 8) :
    Noted [rMemEcc, rMemScrub, rMemErr] s (t.memErr addr source false)
      ∧ (s.fld rMemErr 48 1 = 0 → (t.memErr addr source false).reg rMemErr = addr + 2 ^ 48 + 2 ^ 50 * source) := by
  unfold State.memErr
  extract_lets v
  have hv : Noted [rMemEcc, rMemScrub] s v := by
    have h' := h.mono (S := [rMemEcc, rMemScrub]) (by simp)
    unfold v
    split
    · exact h'.addFld (by simp) ..
    · exact h'
  have hw : Noted [rMemEcc, rMemScrub, rMemErr] s v := hv.mono (by simp)
  refine ⟨hw.unless (hw.setReg (by simp) _), fun h0 => ?_⟩
  have hz : b2n false = 0 := rfl
  rw [if_neg (by rw [hv.fld (by decide), h0]; decide), State.reg_setReg hv.wf.regs, if_pos rfl]
  omega

/-- The error is recorded, and the core halts. -/
theorem State.Unhindered.meetCore (w : s.Wf) (h : s.Unhindered a) {m : CoreMem} {off : Nat} (hm : a.mem.unit = some (m, off)) :
    haltedBefore s (s.meetCore a id) a 0x0401 false ∧ (s.meetCore a id).settle = s.meetCore a id
      ∧ (s.fld rMemErr 48 1 = 0 → (s.meetCore a id).fld rMemErr 48 1 = 1 ∧ (s.meetCore a id).fld rMemErr 50 3 = coreSource m
          ∧ (s.meetCore a id).fld rMemErr 0 21 = off % 2 ^ 21 ∧ (s.meetCore a id).fld rMemErr 32 11 = a.core % 2 ^ 11) := by
  obtain ⟨v, hv⟩ : ∃ v, v = (s.meeting { a.mem with writes := [] }).memErr (off % 2 ^ 21 + 2 ^ 32 * (a.core % 2 ^ 11)) (coreSource m) false :=
    ⟨_, rfl⟩
  have he : s.meetCore a id = v.coreHalt a 0x0401 false := by rw [State.meetCore, hm, hv]; rfl
  have hsrc : coreSource m < 8 := by cases m <;> decide
  obtain ⟨hn, hheld⟩ := (State.meeting_noted w { a.mem with writes := [] }).memErr
    (addr := off % 2 ^ 21 + 2 ^ 32 * (a.core % 2 ^ 11)) (by omega) hsrc
  rw [← hv] at hn hheld
  have hlow : ∀ o, rCore a.core o ∉ [rMemEcc, rMemScrub, rMemErr] := fun o => by
    simp only [List.mem_cons, List.not_mem_nil, or_false, not_or]
    exact ⟨rCore_ne_low (by decide), rCore_ne_low (by decide), rCore_ne_low (by decide)⟩
  have hrun : v.running = true := by
    rw [State.running, State.bu, hn.fld (by decide)]; exact h.running
  have hhalt : v.coreHalt a 0x0401 false = v.coreHaltNow a 0x0401 false := by
    rw [State.coreHalt, hn.core, CoreSt.issues, h.window]; rfl
  rw [he, hhalt]
  obtain ⟨hstate, hmem, hnv, hjob, hrec, hfault⟩ := State.coreHaltNow_haltedBefore hn.wf a (code := 0x0401) false (by decide) hrun
    fun k hk => by rw [hn.core]; exact h.settled.noneEnds k (hn.used ▸ hk)
  rw [State.cfld, hn.fld (hlow _)] at hrec
  rw [hn.fld (by decide)] at hfault
  refine ⟨⟨hstate, hmem.trans (by rw [hn.frame]), hnv.trans (by rw [hn.frame]), hjob.trans (by rw [hn.frame]), hrec, hfault⟩,
    State.settle_coreHaltNow hn.wf hrun .., fun h0 => ?_⟩
  have hreg : (v.coreHaltNow a 0x0401 false).reg rMemErr = off % 2 ^ 21 + 2 ^ 32 * (a.core % 2 ^ 11) + 2 ^ 48 + 2 ^ 50 * coreSource m :=
    ((v.coreHaltNow_quiet a 0x0401 false).regs hn.wf _ (not_faultReg (by decide) (by decide))).trans (hheld h0)
  simp only [State.fld, hreg, bitsOf]
  omega

/-! ### The checks in their order -/

theorem exec_not_fetching (hc : streamAttr c = some a) (hd : s.dark = false) (hf : s.fetching a.core = false) : exec c s = .next s := by
  rw [exec_stream hc, coreCmd, State.whenLive, next_of_live hd]
  split <;> simp [hf]

/-- Settles O18: the stepping makes the checks of class All before it looks at the command. -/
theorem streamChecksComeFirst : Obligations.StreamChecksComeFirst := by
  unfold Obligations.StreamChecksComeFirst
  refine fun c a s w hc hd => ⟨exec_not_fetching hc hd, fun hf hs hstream hend harm hu => ?_⟩
  have h : s.Unhindered a := ⟨hd, hf, ⟨hstream, hend⟩, hs, harm⟩
  rw [exec_stream hc]
  refine ⟨fun hdef => h.coreCmd_failsAll w hc hu (.inl ⟨hdef, rfl⟩) (by decide),
    fun hdef he => h.coreCmd_failsAll w hc hu (.inr ⟨hdef, he, rfl⟩) (by decide), fun hdef he hser m off hm => ?_⟩
  obtain ⟨hhalt, hsettle, herr⟩ := h.meetCore w hm
  exact ⟨_, (h.coreCmd_acts hser (State.control_meets hc hser hdef he hm ..)).trans (congrArg _ hsettle), hhalt, herr⟩

end Sys2Proof.Machine
end

section
/-! SUPPORT. The control commands of a ready core (R124, R135, R136, R140, R432, Table 5.2). -/

namespace Sys2Proof.Machine
open Sys2Proof

-- Proofs elaborated in threads of their own would pass the check's limit of memory.
set_option Elab.async false

variable {s t u : State} {a : Attr} {c : Instr} {n : Nat} {R : List Nat}

/-! ### A control command of a ready core -/

theorem State.Ready.control (h : s.Ready a) (hc : streamAttr c = some a) (hs : serialises c = true) (since : Nat) (go : Bool) :
    s.control c since go = s.controlEffect c since go :=
  State.control_passes hc hs h.defined h.engines h.errorFree.1 ..

/-- A control command that changes its own core alone, and leaves nothing waiting there. -/
theorem State.Ready.exec_acts (h : s.Ready a) (hc : streamAttr c = some a) (hs : serialises c = true)
    (ht : s.controlEffect c s.now true = some t) (e : OnCore a.core R s t) (hw : (t.core a.core).window = [])
    (he : (t.core a.core).ending = none) : exec c s = .next t := by
  rw [exec_stream hc, h.unhindered.coreCmd_acts hs ((h.control hc hs ..).trans ht), e.settle h.settled hw he]

/-- A control command whose own check fails. -/
theorem State.Ready.exec_fails (w : s.Wf) (h : s.Ready a) (hc : streamAttr c = some a) (hs : serialises c = true) {code : Nat}
    (ht : s.controlEffect c s.now true = some (s.checkFail a code)) : exec c s = .next (s.checkFail a code) := by
  rw [exec_stream hc, h.unhindered.coreCmd_fails w hs ((h.control hc hs ..).trans ht)]

theorem State.Ready.window (h : s.Ready a) : (s.core a.core).window = [] := h.unhindered.window

/-! ### FENCE, BRANCH and DECIDE -/

/-- A control command that only retires. -/
theorem State.Ready.exec_retires (w : s.Wf) (h : s.Ready a) (hc : streamAttr c = some a) (hs : serialises c = true)
    (ht : s.controlEffect c s.now true = some (s.retire a)) :
    ∃ t, exec c s = .next t ∧ regsOnly s t (retireRegs a.core) ∧ retired s t a :=
  ⟨_, h.exec_acts hc hs ht ((OnCore.refl w a.core _).retire (List.Subset.refl _)) h.window h.alone.2, s.retire_spec w a⟩

/-- A control command that continues at `target` and retires. -/
theorem State.Ready.exec_jumps (w : s.Wf) (h : s.Ready a) (hc : streamAttr c = some a) (hs : serialises c = true) {target : Nat}
    (ht : s.controlEffect c s.now true = some ((s.jump a.core target).retire a)) :
    ∃ t, exec c s = .next t ∧ coreOnly s t a.core (retireRegs a.core) ∧ retired s t a
      ∧ t.core a.core = { s.core a.core with resume := target } := by
  have hj : OnCore a.core (retireRegs a.core) s (s.jump a.core target) := (OnCore.refl w a.core _).setCore rfl
  have e := hj.retire (List.Subset.refl _)
  have hcore : ((s.jump a.core target).retire a).core a.core = { s.core a.core with resume := target } :=
    (State.core_setCore w.cores ..).trans (if_pos rfl)
  exact ⟨_, h.exec_acts hc hs ht e (by rw [hcore]; exact h.window) (by rw [hcore]; exact h.alone.2), e.only,
    State.retired_retire hj.wf rfl, hcore⟩

/-- Settles O19: each of the three commands retires, jumps and retires, or fails its check. -/
theorem controlCommands : Obligations.ControlCommands := by
  unfold Obligations.ControlCommands
  intro a s w h len bits
  refine ⟨h.exec_retires w rfl rfl rfl, fun target ht => h.exec_jumps w rfl rfl ?_, fun target ht => h.exec_fails w rfl rfl ?_,
    fun mask target hm ht hb => h.exec_jumps w rfl rfl ?_, fun mask target hm ht hb => h.exec_retires w rfl rfl ?_,
    fun mask target hbad => h.exec_fails w rfl rfl ?_⟩
  · exact congrArg some (if_neg (Nat.not_le.2 ht))
  · exact congrArg some (if_pos ht)
  all_goals
    rw [State.controlEffect, State.decideBranch]
  · rw [if_neg (not_or.2 ⟨Nat.not_le.2 ht, Nat.not_le.2 hm⟩), if_pos (show (s.core a.core).bits &&& mask = mask from hb)]
  · rw [if_neg (not_or.2 ⟨Nat.not_le.2 ht, Nat.not_le.2 hm⟩), if_neg (show ¬ (s.core a.core).bits &&& mask = mask from hb)]
  · rw [if_pos hbad]; rfl

/-! ### END -/

theorem State.enterHalted_cores (s : State) : s.enterHalted.cores = s.cores := by
  unfold State.enterHalted State.dropJobDescs
  dsimp only
  refine (foldl_keep State.cores ?_ _ _).trans ((foldl_keep State.cores ?_ _ _).trans
    ((foldl_keep State.cores ?_ _ _).trans (foldl_keep State.cores ?_ _ _)))
  · exact fun _ _ => rfl
  · exact fun _ _ => rfl
  · exact fun s r => by refine foldl_keep State.cores ?_ _ _; exact fun _ _ => rfl
  · exact fun _ _ => rfl

/-- Resting the banks of a core writes its bank register alone. -/
theorem OnCore.bankRest (h : OnCore n R s t) (hb : rCore n oBank ∈ R) : OnCore n R s (t.bankRest n) := by
  have h1 : OnCore n R s (if t.cfld n oBank 0 2 = 3 then t.setCfld n oBank 0 2 2 else t) := .ite (h.setCfld hb ..) h
  exact .ite (h1.setCfld hb ..) h1

theorem OnCore.dropWindow (h : OnCore n R s t) (ho : rCore n oState ∈ R) : OnCore n R s (t.dropWindow n) :=
  (h.setCore (c := { t.core n with window := [], stream := [], ending := none }) rfl).setCfld ho ..

/-- A bank that was ACTIVE is READY once the core's banks rest; the other keeps its state (R140; log entry 110). -/
theorem State.bankState_bankRest (w : s.Wf) {b : Nat} (hb : b < 2) :
    (s.bankRest n).bankState n b = if s.bankState n b = 3 then 2 else s.bankState n b := by
  obtain ⟨v, hv⟩ : ∃ v, v = if s.cfld n oBank 0 2 = 3 then s.setCfld n oBank 0 2 2 else s := ⟨_, rfl⟩
  have hw : v.Wf := by
    rw [hv]
    split
    · exact (Quiet.setCfld ..).wf w
    · exact w
  have h0 : v.cfld n oBank 0 2 = if s.cfld n oBank 0 2 = 3 then 2 else s.cfld n oBank 0 2 := by
    rw [hv]
    split
    · exact State.cfld_setCfld_same w (by decide) ..
    · rfl
  have h1 : v.cfld n oBank 2 2 = s.cfld n oBank 2 2 := by
    rw [hv]
    split
    · exact State.cfld_setCfld_disjoint w (by decide) (by decide) ..
    · rfl
  have hr : s.bankRest n = if v.cfld n oBank 2 2 = 3 then v.setCfld n oBank 2 2 2 else v := by rw [hv]; rfl
  rw [hr, State.bankState, State.bankState]
  rcases (by omega : b = 0 ∨ b = 1) with rfl | rfl
  · rw [← h0]
    split
    · exact State.cfld_setCfld_disjoint hw (by decide) (by decide) ..
    · rfl
  · rw [← h1]
    split
    · exact State.cfld_setCfld_same hw (by decide) ..
    · rfl

/-- The core of an END before the package looks whether its run is over (R140, R411). -/
def State.endIdle (s : State) (a : Attr) : State :=
  let s := (s.retire a).dropWindow a.core
  let s := s.setCore a.core { s.core a.core with panting := s.fld rPwrPant 0 1 == 1 }
  (s.bankRest a.core).setCstate a.core csIdle

theorem State.endCore_eq (s : State) (a : Attr) : s.endCore a = (s.endIdle a).endIfDone := rfl

/-- Registers of core `n` that END writes. -/
def endRegs (n : Nat) : List Nat := rCore n oState :: rCore n oBank :: retireRegs n

/-- END leaves its core IDLE with no bank ACTIVE and no command waiting. -/
theorem State.endIdle_spec (w : s.Wf) (a : Attr) : OnCore a.core (endRegs a.core) s (s.endIdle a) ∧ (s.endIdle a).cstate a.core = 1
    ∧ retired s (s.endIdle a) a ∧ ((s.endIdle a).core a.core).window = [] ∧ ((s.endIdle a).core a.core).ending = none
    ∧ ∀ b < 2, (s.endIdle a).bankState a.core b = if s.bankState a.core b = 3 then 2 else s.bankState a.core b := by
  have hst : rCore a.core oState ∈ endRegs a.core := by simp [endRegs]
  have hbk : rCore a.core oBank ∈ endRegs a.core := by simp [endRegs]
  have hw1 := (Keeps.refl s).retire (a := a).wf w
  have h2 := ((OnCore.refl w a.core _).retire (R := endRegs a.core) (by simp [endRegs])).dropWindow hst
  obtain ⟨v, hv⟩ : ∃ v, v = ((s.retire a).dropWindow a.core).setCore a.core
      { ((s.retire a).dropWindow a.core).core a.core with panting := ((s.retire a).dropWindow a.core).fld rPwrPant 0 1 == 1 } := ⟨_, rfl⟩
  have h3 : OnCore a.core (endRegs a.core) s v := hv ▸ h2.setCore rfl
  have h4 := h3.bankRest hbk
  have he : s.endIdle a = (v.bankRest a.core).setCstate a.core csIdle := by rw [hv]; rfl
  have hreg : ∀ o < 0x2000, o ≠ oState → v.reg (rCore a.core o) = (s.retire a).reg (rCore a.core o) := fun o ho hne => by
    rw [hv]
    exact State.reg_setFld_ne (hw1.setCore a.core (hw1.core a.core)).regs (rCore_ne hne ho (by decide) _ _) ..
  have hend : ∀ o < 0x2000, o ≠ oState → o ≠ oBank → (s.endIdle a).reg (rCore a.core o) = (s.retire a).reg (rCore a.core o) :=
    fun o ho hne hnb => by
    rw [he, State.setCstate, State.setCfld, State.reg_setFld_ne h4.wf.regs (rCore_ne hne ho (by decide) _ _)]
    have hrest := (OnCore.refl h3.wf a.core [rCore a.core oBank]).bankRest (by simp)
    rw [hrest.only.2.1 _ (by simpa using rCore_ne hnb ho (by decide) _ _), hreg o ho hne]
  have hcore : (s.endIdle a).core a.core = v.core a.core := by
    rw [he]
    exact State.bankRest_core v a.core a.core
  have hvcore : (v.core a.core).window = [] ∧ (v.core a.core).ending = none := by
    rw [hv, State.core_setCore h2.wf.cores, if_pos rfl]
    have hd : ((s.retire a).dropWindow a.core).core a.core = { (s.retire a).core a.core with window := [], stream := [], ending := none } :=
      (State.core_setCore hw1.cores ..).trans (if_pos rfl)
    rw [hd]
    exact ⟨rfl, rfl⟩
  refine ⟨he ▸ h4.setCfld hst .., ?_, (s.retire_spec w a).2.of_regs (hend _ (by decide) (by decide) (by decide))
    (hend _ (by decide) (by decide) (by decide)), hcore ▸ hvcore.1, hcore ▸ hvcore.2, fun b hb => ?_⟩
  · rw [he, State.cstate_setCstate h4.wf, if_pos rfl]; rfl
  · have h5 : (s.endIdle a).bankState a.core b = (v.bankRest a.core).bankState a.core b := by
      rw [he]; exact State.cfld_setCfld_ne h4.wf (by decide) (by decide) (by decide) ..
    have h6 : v.bankState a.core b = s.bankState a.core b := by
      refine (State.cfld_of_reg (hreg _ (by decide) (by decide)) _ _).trans (State.cfld_retire w (by decide) (by decide) (by decide) ..)
    rw [h5, State.bankState_bankRest h3.wf hb, h6]

/-- The package looks whether its run is over: it stays as it is or enters HALTED, and nothing of the cores changes. -/
theorem State.endIfDone_cases (s : State) : s.endIfDone = s ∨ s.endIfDone = s.enterHalted := by
  unfold State.endIfDone
  split
  · exact .inr rfl
  · exact .inl rfl

theorem State.endIfDone_regs (w : s.Wf) {r : Nat} (h : r ∉ [rBuState, rPfDbgCtrl]) : s.endIfDone.reg r = s.reg r := by
  rcases s.endIfDone_cases with e | e <;> rw [e]
  exact State.enterHalted_regs w h

theorem State.endIfDone_cores (s : State) : s.endIfDone.cores = s.cores := by
  rcases s.endIfDone_cases with e | e <;> rw [e]
  exact s.enterHalted_cores

theorem State.endIfDone_quiet (s : State) : Quiet faultReg s s.endIfDone := by
  rcases s.endIfDone_cases with e | e <;> rw [e]
  · exact .refl _ s
  · exact s.enterHalted_quiet

theorem OnCore.cstate (h : OnCore n R s t) {k : Nat} (hR : rCore k oState ∉ R) : t.cstate k = s.cstate k :=
  State.cstate_of_regs (h.only.2.1 _ hR)

theorem OnCore.bu (h : OnCore n R s t) (hR : ∀ r ∈ R, coreReg r) : t.bu = s.bu := by
  rw [State.bu, State.fld, h.only.2.1 _ fun hm => not_coreReg (by decide) (hR _ hm)]; rfl

theorem coreReg_of_mem_endRegs {r : Nat} (h : r ∈ endRegs n) : coreReg r := by
  simp only [endRegs, retireRegs, List.mem_cons, List.not_mem_nil, or_false] at h
  rcases h with rfl | rfl | rfl | rfl <;> exact coreReg_rCore ..

theorem oState_not_mem_endRegs {k : Nat} (h : k ≠ n) : rCore k oState ∉ endRegs n := by
  simp only [endRegs, retireRegs, List.mem_cons, List.not_mem_nil, or_false, not_or]
  exact ⟨fun e => h (rCore_inj (by decide) (by decide) e).1, rCore_ne (by decide) (by decide) (by decide) _ _,
    rCore_ne (by decide) (by decide) (by decide) _ _, rCore_ne (by decide) (by decide) (by decide) _ _⟩

/-- Settles O20: END idles its core, and the package looks whether its run is over. -/
theorem endOfStream : Obligations.EndOfStream := by
  unfold Obligations.EndOfStream
  intro a s w h
  obtain ⟨hon, hidle, hret, hwin, hend, hbank⟩ := s.endIdle_spec w a
  obtain ⟨v, hv⟩ : ∃ v, v = s.endIdle a := ⟨_, rfl⟩
  rw [← hv] at hon hidle hret hwin hend hbank
  have q := v.endIfDone_quiet
  have hbu : v.bu = 6 := (hon.bu fun _ => coreReg_of_mem_endRegs).trans (by simpa [State.running, stRun] using h.running)
  have hrun : v.running = true := by rw [State.running, hbu]; rfl
  have hreg : ∀ o, v.endIfDone.reg (rCore a.core o) = v.reg (rCore a.core o) := fun o => by
    refine State.endIfDone_regs hon.wf ?_
    simp only [List.mem_cons, List.not_mem_nil, or_false, not_or]
    exact ⟨rCore_ne_low (by decide), rCore_ne_low (by decide)⟩
  have hsettle : v.endIfDone.settle = v.endIfDone := by
    refine State.settle_of_noneWaits fun k hk => ?_
    have hcore : v.endIfDone.core k = v.core k := by rw [State.core, v.endIfDone_cores]; rfl
    rw [hcore]
    by_cases hkn : k = a.core
    · subst k; exact ⟨hwin, hend⟩
    · rw [q.used, hon.used] at hk
      rw [hon.only.2.2 k hkn]
      exact ⟨h.settled.noneWaits k hk, h.settled.noneEnds k hk⟩
  have hexec : exec (.endStream a) s = .next v.endIfDone := by
    have hacts : s.controlEffect (.endStream a) s.now true = some v.endIfDone := by
      rw [hv]; exact congrArg some (s.endCore_eq a)
    rw [exec_stream rfl, h.unhindered.coreCmd_acts rfl ((h.control rfl rfl ..).trans hacts), hsettle]
  refine ⟨_, hexec, (State.cstate_of_regs (hreg _)).trans hidle, hret.of_regs (hreg _) (hreg _), q.mem.trans (by rw [hon.only.1]),
    q.nv.trans (by rw [hon.only.1]), q.job.trans hon.job, fun b hb => (State.cfld_of_reg (hreg _) _ _).trans (hbank b hb), ?_, fun hall => ?_⟩
  · rintro ⟨k, hk, hkn, hlive⟩
    have hlive' : v.cstate k = 2 ∨ v.cstate k = 3 := by
      rw [hon.cstate (oState_not_mem_endRegs hkn)]; exact (s.coreLive_iff k).1 hlive
    have hstay : v.endIfDone = v := by
      unfold State.endIfDone
      refine if_neg ?_
      simp only [hrun, Bool.true_and, List.all_eq_true, not_forall]
      refine ⟨k, hon.used ▸ hk, ?_⟩
      rcases hlive' with e | e <;> simp [e, csIdle, csBreak, csHalted]
    rw [hstay]
    exact ⟨hbu, hon.only⟩
  · have hdone : v.endIfDone = v.enterHalted := by
      unfold State.endIfDone
      refine if_pos ?_
      simp only [hrun, Bool.true_and, List.all_eq_true]
      intro k hk
      by_cases hkn : k = a.core
      · subst k; simp [hidle, csIdle]
      · rw [hon.cstate (oState_not_mem_endRegs hkn)]
        rcases hall k (hon.used ▸ hk) hkn with e | e | e <;> simp [e, csIdle, csBreak, csHalted]
    rw [hdone]
    exact State.bu_enterHalted hon.wf

end Sys2Proof.Machine
end

section
/-! SUPPORT. Reads and writes of a core's window (R144, R451, R453). -/

namespace Sys2Proof.Machine
open Sys2Proof

-- Proofs elaborated in threads of their own would pass the check's limit of memory.
set_option Elab.async false

variable {s t u : State} {n o : Nat} {fs : List FieldDef}

/-! ### Addresses -/

theorem coreOff_rCore (ho : o < 0x2000) (n : Nat) : coreOff (rCore n o) = o := by unfold coreOff rCore; omega

theorem coreOf_rCore (ho : o < 0x2000) (n : Nat) : coreOf (rCore n o) = n := by unfold coreOf rCore; omega

theorem blockOf_rCore (hn : n < 2048) (ho : o < 0x2000) : blockOf (rCore n o) = some .core := by
  unfold blockOf rCore coreBase
  repeat rw [if_neg (by omega)]
  rw [if_pos (by omega)]

theorem regFields_rCore (hn : n < 2048) (ho : o < 0x2000) : regFields (rCore n o) = coreFields o := by
  have hoff : (rCore n o - coreBase) % 0x2000 = o := coreOff_rCore ho n
  simp only [regFields, blockOf_rCore hn ho, hoff]

/-! ### Fields that a read clears -/

/-- Two fields of a register share no bit. -/
abbrev FieldDef.apart (f g : FieldDef) : Prop := g.lo + g.w ≤ f.lo ∨ f.lo + f.w ≤ g.lo

theorem FieldDef.apart_symm : Std.Symm FieldDef.apart := ⟨fun _ _ h => h.symm⟩

/-- Where an address decodes to a register, its fields share no bit. -/
def Apart (x : Option (List FieldDef)) : Prop := ∀ fs, x = some fs → fs.Pairwise FieldDef.apart

theorem Apart.none : Apart none := nofun

theorem Apart.some (h : fs.Pairwise FieldDef.apart) : Apart (some fs) := fun _ e => Option.some.inj e ▸ h

theorem Apart.ite {c : Prop} [Decidable c] {x y : Option (List FieldDef)} (hx : Apart x) (hy : Apart y) :
    Apart (if c then x else y) := by
  split
  · exact hx
  · exact hy

/-- The fields of a window register share no bit (Table 18.12). -/
theorem coreFields_apart (o : Nat) : Apart (coreFields o) := by
  unfold coreFields
  repeat refine .ite (.some (by decide)) ?_
  exact .none

/-- What a read leaves of a register with value `r`, the fields of `v` cleared (R451). -/
def clearRc (fs : List FieldDef) (v r : Nat) : Nat :=
  fs.foldl (fun r f => if f.acc = .rc then r - 2 ^ f.lo * bitsOf v f.lo f.w else r) r

theorem regReadVal_kept (fs : List FieldDef) (v : Nat) : (regReadVal fs v).2 = clearRc fs v v := rfl

theorem clearRc_le (fs : List FieldDef) (v r : Nat) : clearRc fs v r ≤ r := by
  induction fs generalizing r with
  | nil => exact le_rfl
  | cons f fs ih =>
    refine (ih _).trans ?_
    dsimp only
    split
    · exact Nat.sub_le ..
    · exact le_rfl

/-- Clearing read-to-clear fields leaves every field alone that shares no bit with one. -/
theorem bitsOf_clearRc {v r : Nat} (hp : fs.Pairwise FieldDef.apart) (hv : ∀ f ∈ fs, f.acc = .rc → bitsOf r f.lo f.w = bitsOf v f.lo f.w)
    {g : FieldDef} (hg : ∀ f ∈ fs, f.acc = .rc → f.apart g) : bitsOf (clearRc fs v r) g.lo g.w = bitsOf r g.lo g.w := by
  induction fs generalizing r with
  | nil => rfl
  | cons f fs ih =>
    obtain ⟨hf, hp⟩ := List.pairwise_cons.1 hp
    have hg' : ∀ x ∈ fs, x.acc = .rc → x.apart g := fun x hx => hg x (List.mem_cons_of_mem _ hx)
    by_cases hacc : f.acc = .rc
    · have hclear : clearRc (f :: fs) v r = clearRc fs v (putBits r f.lo f.w 0) := by
        rw [clearRc, List.foldl_cons, if_pos hacc, ← hv f List.mem_cons_self hacc, putBits, Nat.zero_mod, Nat.mul_zero, Nat.add_zero]
        rfl
      rw [hclear, ih hp (fun x hx ha => ?_) hg', bitsOf_putBits_disjoint (hg f List.mem_cons_self hacc)]
      rw [bitsOf_putBits_disjoint (hf x hx)]
      exact hv x (List.mem_cons_of_mem _ hx) ha
    · have hskip : clearRc (f :: fs) v r = clearRc fs v r := by rw [clearRc, List.foldl_cons, if_neg hacc]; rfl
      rw [hskip, ih hp (fun x hx => hv x (List.mem_cons_of_mem _ hx)) hg']

/-- A read keeps every field that it does not clear. -/
theorem bitsOf_regReadVal_kept (hp : fs.Pairwise FieldDef.apart) (v : Nat) {g : FieldDef} (hg : g ∈ fs) (ha : g.acc ≠ .rc) :
    bitsOf (regReadVal fs v).2 g.lo g.w = bitsOf v g.lo g.w := by
  have := FieldDef.apart_symm
  rw [regReadVal_kept]
  exact bitsOf_clearRc hp (fun _ _ _ => rfl) fun f hf hrc => hp.forall hf hg fun e => ha (e ▸ hrc)

/-! ### Reads -/

/-- A read of a window register that is served clears its read-to-clear fields; any other changes nothing. -/
theorem State.regRead_core (hn : n < 2048) (ho : o < 0x2000) (hf : coreFields o = some fs) (s : State) (m : Mc) :
    (s.regRead m (rCore n o)).2.2 = s
      ∨ (s.regRead m (rCore n o)).2.2 = s.setReg (rCore n o) (regReadVal fs (s.reg (rCore n o))).2 := by
  unfold State.regRead
  rw [blockOf_rCore hn ho, regFields_rCore hn ho, hf]
  dsimp only
  split
  · exact .inl rfl
  · split
    · exact .inl rfl
    · exact .inr rfl

theorem State.regRead_core_regsOnly (w : s.Wf) (hn : n < 2048) (ho : o < 0x2000) (hf : coreFields o = some fs) (m : Mc) :
    regsOnly s (s.regRead m (rCore n o)).2.2 [rCore n o]
      ∧ ∀ f ∈ fs, f.acc ≠ .rc → (s.regRead m (rCore n o)).2.2.fld (rCore n o) f.lo f.w = s.fld (rCore n o) f.lo f.w := by
  rcases State.regRead_core hn ho hf s m with e | e <;> rw [e]
  · exact ⟨⟨rfl, fun _ _ => rfl⟩, fun _ _ _ => rfl⟩
  · refine ⟨⟨rfl, fun r hr => State.reg_setReg_ne w.regs (List.mem_singleton.not.1 hr) _⟩, fun f hfs ha => ?_⟩
    have hlt : (regReadVal fs (s.reg (rCore n o))).2 < 2 ^ 64 := (clearRc_le ..).trans_lt (s.reg_lt _)
    rw [State.fld, State.reg_setReg_same w.regs _ hlt, bitsOf_regReadVal_kept (coreFields_apart o fs hf) _ hfs ha, State.fld]

/-! ### Writes -/

/-- In RUN a served write of a window register has an effect on CORE_IMEM_ERR alone (R144). -/
theorem State.regWrite_core (hn : n < 2048) (ho : o < 0x2000) (hf : coreFields o = some fs) (hr : s.running = true) (m : Mc) (v : Nat) :
    (s.regWrite m (rCore n o) v).2 = if s.accessCode m (rCore n o) = 0 ∧ s.mapped? n = true ∧ o = oImemErr then
      s.plainWrite (rCore n o) fs v else s := by
  unfold State.regWrite
  rw [blockOf_rCore hn ho, regFields_rCore hn ho, hf]
  simp only [State.regEffect, State.coreWrite, coreOf_rCore ho, coreOff_rCore ho, hr, if_true]
  generalize s.accessCode m (rCore n o) = code
  by_cases hc : code = 0
  · by_cases hm : s.mapped? n = true
    · simp [hc, hm]
    · simp [hc, hm]
  · simp [hc]

/-- CORE_IMEM_ERR after a write: its count stays, its flag clears where the write names it. -/
theorem regWriteVal_imemErr (b : Bool) (v x : Nat) : regWriteVal [⟨0, 16, .rc⟩, ⟨16, 1, .w1c⟩] b v x
    = bitsOf v 0 16 + 2 ^ 16 * (if bitsOf x 16 1 = 1 then 0 else bitsOf v 16 1) := by
  have hv := bitsOf_lt v 16 1
  have hx := bitsOf_lt x 16 1
  simp only [regWriteVal, List.foldl_cons, List.foldl_nil, Nat.pow_zero, Nat.one_mul, Nat.zero_add]
  rcases (by omega : bitsOf v 16 1 = 0 ∨ bitsOf v 16 1 = 1) with e | e <;>
    rcases (by omega : bitsOf x 16 1 = 0 ∨ bitsOf x 16 1 = 1) with e' | e' <;> rw [e, e'] <;> rfl

theorem State.plainWrite_imemErr (s : State) (r v : Nat) : s.plainWrite r [⟨0, 16, .rc⟩, ⟨16, 1, .w1c⟩] v
    = s.setReg r (bitsOf (s.reg r) 0 16 + 2 ^ 16 * (if bitsOf v 16 1 = 1 then 0 else bitsOf (s.reg r) 16 1)) := by
  rw [State.plainWrite, regWriteVal_imemErr]
  rfl

theorem exec_registerWrite (hd : s.dark = false) (m : Mc) (r : Nat) (v : W64) :
    exec (.registerWrite m r v) s = .next (s.regWrite m r v.toNat).2 := next_of_live hd

/-- Settles O50: of a core's registers a read clears the fields it must, and in RUN a write reaches CORE_IMEM_ERR alone. -/
theorem coreWindowInRun : Obligations.CoreWindowInRun := by
  unfold Obligations.CoreWindowInRun
  intro p tag n o v m fs s w hd hn ho hfs
  have hf : coreFields o = some fs := (regFields_rCore hn ho).symm.trans hfs
  refine ⟨fun hup hmode => ?_, fun hr hne => ?_, fun hr hm hc hi => ?_⟩
  · obtain ⟨⟨hframe, hregs⟩, hkept⟩ := State.regRead_core_regsOnly w hn ho hf (portMc p)
    obtain ⟨x, hx⟩ : ∃ x, x = s.regRead (portMc p) (rCore n o) := ⟨_, rfl⟩
    rw [← hx] at hframe hregs hkept
    have hans := (PortsOnly.refl x.2.2).answer p opDData tag (rCore n o) x.1 (leBytes 16 x.2.1)
    have hexec : exec (.regRd p tag (rCore n o)) s = .next (x.2.2.answer p opDData tag (rCore n o) x.1 (leBytes 16 x.2.1)) := by
      refine (next_of_live hd).trans (congrArg _ ((if_pos ?_).trans ?_))
      · rw [hup, hmode]; rfl
      · rw [hx]
    generalize x.2.2.answer p opDData tag (rCore n o) x.1 (leBytes 16 x.2.1) = t at hans hexec
    refine ⟨t, hexec, ⟨?_, fun r hr => (hans.reg r).trans (hregs r hr)⟩, fun f hf ha => ?_⟩
    · have ht : t = { x.2.2 with ports := t.ports, outbox := t.outbox } := hans
      rw [ht, hframe]
    · rw [State.fld, hans.reg]; exact hkept f hf ha
  · rw [exec_registerWrite hd, State.regWrite_core hn ho hf hr, if_neg fun h => hne h.2.2]
  · subst hi
    obtain rfl : fs = [⟨0, 16, .rc⟩, ⟨16, 1, .w1c⟩] := (Option.some.inj hf).symm
    rw [exec_registerWrite hd, State.regWrite_core hn ho hf hr, if_pos ⟨hc, hm, rfl⟩, State.plainWrite_imemErr]
    have h0 := bitsOf_lt (s.reg (rCore n oImemErr)) 0 16
    have h1 := bitsOf_lt (s.reg (rCore n oImemErr)) 16 1
    refine ⟨_, rfl, ⟨rfl, fun r hr => State.reg_setReg_ne w.regs (List.mem_singleton.not.1 hr) _⟩, ?_⟩
    have hval : ∀ y < 2, (s.setReg (rCore n oImemErr) (bitsOf (s.reg (rCore n oImemErr)) 0 16 + 2 ^ 16 * y)).reg (rCore n oImemErr)
        = bitsOf (s.reg (rCore n oImemErr)) 0 16 + 2 ^ 16 * y := fun y hy => State.reg_setReg_same w.regs _ (by omega)
    simp only [List.mem_cons, List.not_mem_nil, or_false, forall_eq_or_imp, forall_eq, State.fld]
    have hlt : (if bitsOf v.toNat 16 1 = 1 then 0 else bitsOf (s.reg (rCore n oImemErr)) 16 1) < 2 := by split <;> omega
    simp only [reduceCtorEq, false_and, if_false, true_and, hval _ hlt]
    generalize (if bitsOf v.toNat 16 1 = 1 then 0 else bitsOf (s.reg (rCore n oImemErr)) 16 1) = y at hlt
    generalize bitsOf (s.reg (rCore n oImemErr)) 0 16 = x at h0
    constructor <;> rw [bitsOf] <;> omega

end Sys2Proof.Machine
end

section
/-! SUPPORT. A control command that waits alone in its core's window (R133, R134, R138, R142): the scheduler's cycles leave it there, and
nothing else acts. -/

namespace Sys2Proof.Machine
open Sys2Proof

-- Proofs elaborated in threads of their own would pass the check's limit of memory.
set_option Elab.async false

variable {s t u v : State} {a : Attr} {c : Instr} {j : Job} {n k : Nat} {R : List Nat} {x : WinCmd} {go : Bool}

/-! ### Pack time -/

theorem State.packOf_congr (hb : t.reg rPfBeat = s.reg rPfBeat) (hf : t.fab = s.fab) (hs : t.stp = s.stp) (q : Nat) :
    t.packOf q = s.packOf q := by
  have hbeat : t.beat = s.beat := by rw [State.beat, State.fld, hb]; rfl
  rw [State.packOf, State.beatTime, State.stretchTable, hbeat, hf, hs]
  rfl

theorem OnCore.reg_low (h : OnCore n R s t) (hR : ∀ r ∈ R, coreReg r) {r : Nat} (hr : r < coreBase) : t.reg r = s.reg r :=
  h.only.2.1 r fun hm => not_coreReg hr (hR r hm)

theorem OnCore.packOf (h : OnCore n R s t) (hR : ∀ r ∈ R, coreReg r) (q : Nat) : t.packOf q = s.packOf q :=
  State.packOf_congr (h.reg_low hR (by decide)) h.fab h.stp q

theorem OnCore.now (h : OnCore n R s t) (hR : ∀ r ∈ R, coreReg r) : t.now = s.now := h.reg_low hR (by decide)

theorem State.deliverDue_none (h : ∀ x ∈ s.fab.held, x.atEndpoint = true → s.now < s.packOf x.due) : s.deliverDue = s := by
  have e : s.fab.held.filter (fun x => x.atEndpoint && decide (s.packOf x.due ≤ s.now)) = [] := by
    refine List.filter_eq_nil_iff.2 fun x hx => ?_
    simp only [Bool.and_eq_true, decide_eq_true_eq, not_and, Nat.not_le]
    exact h x hx
  rw [State.deliverDue, e, List.foldl_nil]

/-! ### One command alone in the window -/

/-- Core `n` fetches, and the control command `x` waits alone in its window with nothing behind it. -/
structure State.Waits (s : State) (n : Nat) (x : WinCmd) : Prop where
  wf      : s.Wf
  live    : s.coreLive n = true
  window  : (s.core n).window = [x]
  stream  : (s.core n).stream = []
  ending  : (s.core n).ending = none
  control : serialises x.cmd = true
  waiting : x.status = .waiting ∨ x.status = .held

theorem engineOf_of_serialises (h : serialises c = true) : engineOf c = none := by
  cases c
  case heel | fence | branch | decide | swap | endStream => rfl
  all_goals cases h

theorem State.Waits.setWindow (h : s.Waits n x) : s.setWindow n [x] = s :=
  State.setCore_self h.wf (by rw [← h.window])

theorem State.Waits.takeIn (h : s.Waits n x) : s.takeIn n (s.core n).stream = s := by
  rw [h.stream, State.takeIn]
  exact State.setCore_self h.wf (by rw [← h.stream])

theorem pick_nil (w : List WinCmd) : pick w [] = none := rfl

/-- No engine takes a control command. -/
theorem State.Waits.issueOne (h : s.Waits n x) (j : Job) (e : Engine) : s.issueOne j n e = s := by
  have he : engineOf x.cmd = none := engineOf_of_serialises h.control
  unfold State.issueOne
  simp [h.live, h.window, he, pick_nil]

theorem State.Waits.retireDone (h : s.Waits n x) : s.retireDone n [x] = s := by
  rw [State.retireDone]
  rcases h.waiting with e | e <;> rw [e] <;> exact h.setWindow

/-- A cycle of the core comes to the control command alone. -/
theorem State.Waits.cycle (h : s.Waits n x) (j : Job) : s.cycle j n go = s.frontControl n go := by
  have hi : engines.foldl (fun s e => s.issueOne j n e) s = s :=
    List.foldlRecOn (motive := fun t => t = s) engines _ rfl fun t ht e _ => by rw [ht]; exact h.issueOne j e
  rw [State.cycle, h.takeIn]
  simp only [hi, h.live, if_true, h.window, h.retireDone]

/-- A heel that waits: its core waits at it. -/
theorem State.Waits.frontControl_heel (h : s.Waits n x) {y z : Nat} {ws : List (Nat × Nat)} (hx : x.cmd = .heel a y z ws)
    (hc : s.control x.cmd (max x.since (s.core n).asOf) go = none) : s.frontControl n go = s.waitAtHeel a.core y := by
  unfold State.frontControl
  simp only [h.window, h.live, h.ending, h.control, hc]
  simp only [hx]
  rfl

/-- Another control command that waits is held. -/
theorem State.Waits.frontControl_held (h : s.Waits n x) (hx : ∀ b y z ws, x.cmd ≠ .heel b y z ws) (hst : x.status = .held)
    (hc : s.control x.cmd (max x.since (s.core n).asOf) go = none) : s.frontControl n go = s := by
  have hw : s.setWindow n [{ x with status := .held }] = s := by rw [← hst]; exact h.setWindow
  unfold State.frontControl
  simp only [h.window, h.live, h.ending, h.control, hc]
  exact hw

theorem State.runCore_of_cycle (h : s.cycle j n go = s) (f : Nat) : s.runCore j n go f = s := by
  induction f with
  | zero => rfl
  | succ f ih =>
    rw [State.runCore, h, ih]
    exact ite_self _

/-- A core whose command still waits after one cycle waits on. -/
theorem State.Waits.runWindow (h : s.Waits n x) (hj : s.job = some j) (hs : s.frontControl n go = v) (hv : v.Waits n x)
    (hf : v.frontControl n go = v) (hl : ∀ a h d ws, x.cmd = .heel a h d ws → v.now ≤ v.packOf d) :
    s.runWindow n go = v.showWindow n := by
  have hrun : s.runCore j n go (2 * ((s.core n).window.length + (s.core n).stream.length) + 4) = v := by
    rw [h.window, h.stream]
    have hgo : s.runCore j n go 6 = (s.cycle j n go).runCore j n go 5 := by
      rw [State.runCore]
      simp only [h.live, h.window]
      rfl
    refine hgo.trans ?_
    rw [h.cycle, hs]
    exact State.runCore_of_cycle ((hv.cycle j).trans hf) 5
  have hlate : v.lateHeel n = v := by
    unfold State.lateHeel
    rw [hv.window, List.getLast?_singleton]
    dsimp only
    split
    · next a h d ws he =>
      rw [if_neg]
      have := hl a h d ws he
      simp only [Bool.and_eq_true, decide_eq_true_eq, not_and]
      omega
    · rfl
  have hheld : v.noteHeld n = v := by
    unfold State.noteHeld
    rw [hv.window]
    have hx : serialises x.cmd = true := hv.control
    refine (congrArg (v.setWindow n) ?_).trans hv.setWindow
    rw [List.map_singleton]
    split
    · next he => rw [he] at hx; cases hx
    · rfl
  rw [State.runWindow, hj]
  simp only [hrun, hlate, hheld]

/-- With one core waiting on, pack time brings nothing to the package. -/
theorem State.Waits.settle (h : s.Waits n x) (hn : n ∈ s.used) (hrun : s.runWindow n false = s)
    (hother : ∀ k ∈ s.used, k ≠ n → (s.core k).window = []) (hend : ∀ k ∈ s.used, (s.core k).ending = none)
    (hdue : ∀ x ∈ s.fab.held, x.atEndpoint = true → s.now < s.packOf x.due) : s.settle = s := by
  have hwin : s.used.foldl (fun s n => if (s.core n).window.isEmpty then s else s.runWindow n false) s = s := by
    refine List.foldlRecOn (motive := fun t => t = s) s.used _ rfl fun t ht k hk => ?_
    rw [ht]
    by_cases hkn : k = n
    · rw [hkn, h.window]; exact hrun
    · rw [hother k hk hkn]; rfl
  have hfin : s.used.foldl (fun s n => s.finishEnding n) s = s := by
    refine List.foldlRecOn (motive := fun t => t = s) s.used _ rfl fun t ht k hk => ?_
    rw [ht, State.finishEnding]
    simp only [hend k hk]
    exact ite_self _
  have hsave : s.saveEnd = s := by
    unfold State.saveEnd
    split
    · refine if_neg fun hc => ?_
      simp only [Bool.and_eq_true, List.all_eq_true] at hc
      have := hc.2 n hn
      simp [State.atSave, h.live, h.window] at this
    · rfl
  unfold State.settle
  split
  · simp only [State.deliverDue_none hdue, hwin, hfin, hsave]
  · rfl

/-! ### Entering the window -/

/-- A command enters an empty window to wait there. -/
def State.enterWindow (s : State) (n : Nat) (c : Instr) (st : CmdStatus) : State :=
  (s.setWindow n [{ cmd := c, since := s.now, passed := 0, status := st }]).showWindow n

theorem State.Unhindered.coreCmd_held (h : s.Unhindered a) (hs : serialises c = true) (hn : s.control c s.now true = none)
    (hh : ∀ b x y z, c ≠ .heel b x y z) : Machine.coreCmd a c s = .next (s.enterWindow a.core c .held).settle := by
  obtain ⟨j, hj⟩ := h.exists_job
  rw [h.coreCmd hj, State.enterAlone]
  simp only [h.unarmed, Bool.false_eq_true, if_false, hs, if_true, hn]
  rfl

theorem State.Unhindered.coreCmd_waitsAtHeel (h : s.Unhindered a) {x y : Nat} {ws : List (Nat × Nat)}
    (hn : s.control (.heel a x y ws) s.now true = none) :
    Machine.coreCmd a (.heel a x y ws) s = .next ((s.waitAtHeel a.core x).enterWindow a.core (.heel a x y ws) .waiting).settle := by
  obtain ⟨j, hj⟩ := h.exists_job
  have hs : serialises (.heel a x y ws) = true := rfl
  rw [h.coreCmd hj, State.enterAlone]
  simp only [h.unarmed, Bool.false_eq_true, if_false, hs, if_true, hn]
  rfl

theorem oState_singleton_coreReg : ∀ r ∈ [rCore n oState], coreReg r := fun r hr => by
  rw [List.mem_singleton.1 hr]; exact coreReg_rCore ..

/-- The window of a live core shows its length, and its core's state stays. -/
theorem State.showWindow_live (h : s.coreLive n = true) : s.showWindow n = s.setCfld n oState 4 7 (s.core n).window.length := if_pos h

theorem State.cstate_setCfld_window (w : s.Wf) (n k x : Nat) : (s.setCfld n oState 4 7 x).cstate k = s.cstate k := by
  by_cases hk : k = n
  · subst k; exact State.cfld_setCfld_disjoint w (by decide) (by decide) ..
  · exact State.fld_setFld_ne w.regs (fun e => hk (rCore_inj (by decide) (by decide) e).1) ..

theorem OnCore.showWindow (h : OnCore n R s t) (hR : rCore n oState ∈ R) : OnCore n R s (t.showWindow n) := .ite (h.setCfld hR ..) h

/-- A command that enters a live core's empty window waits there; the core's state stays, and its window shows. -/
theorem State.enterWindow_spec (w : s.Wf) (hl : s.coreLive n = true) (hstream : (s.core n).stream = []) (hend : (s.core n).ending = none)
    (hc : serialises c = true) {st : CmdStatus} (hst : st = .waiting ∨ st = .held) :
    (s.enterWindow n c st).Waits n ⟨c, s.now, 0, st⟩ ∧ OnCore n [rCore n oState] s (s.enterWindow n c st)
      ∧ (s.enterWindow n c st).core n = { s.core n with window := [⟨c, s.now, 0, st⟩] }
      ∧ (s.enterWindow n c st).cstate n = s.cstate n ∧ (s.enterWindow n c st).showWindow n = s.enterWindow n c st := by
  have h1 : OnCore n [rCore n oState] s (s.setWindow n [⟨c, s.now, 0, st⟩]) := (OnCore.refl w n _).setCore rfl
  have hl1 : (s.setWindow n [⟨c, s.now, 0, st⟩]).coreLive n = true := hl
  have hcore1 : (s.setWindow n [⟨c, s.now, 0, st⟩]).core n = { s.core n with window := [⟨c, s.now, 0, st⟩] } :=
    (State.core_setCore w.cores ..).trans (if_pos rfl)
  have he : s.enterWindow n c st = (s.setWindow n [⟨c, s.now, 0, st⟩]).setCfld n oState 4 7 1 := by
    rw [State.enterWindow, State.showWindow_live hl1, hcore1]; rfl
  have hstate : (s.enterWindow n c st).cstate n = s.cstate n := by
    rw [he]; exact State.cstate_setCfld_window h1.wf ..
  have hlive : (s.enterWindow n c st).coreLive n = true := by
    rw [State.coreLive_iff, hstate, ← State.coreLive_iff]; exact hl
  have hcore : (s.enterWindow n c st).core n = { s.core n with window := [⟨c, s.now, 0, st⟩] } := by rw [he]; exact hcore1
  have hon : OnCore n [rCore n oState] s (s.enterWindow n c st) := h1.showWindow (by simp)
  refine ⟨⟨hon.wf, hlive, by rw [hcore], by rw [hcore]; exact hstream, by rw [hcore]; exact hend, hc, hst⟩, hon, hcore, hstate, ?_⟩
  rw [State.showWindow_live hlive, hcore]
  refine State.setFld_self hon.wf ?_
  rw [he]
  exact State.cfld_setCfld_same h1.wf (by decide) ..

end Sys2Proof.Machine
end

section
/-! SUPPORT. Instruction banks: IMEM_LOAD, its completion and SWAP (R140 to R142). -/

namespace Sys2Proof.Machine
open Sys2Proof

-- Proofs elaborated in threads of their own would pass the check's limit of memory.
set_option Elab.async false

variable {s t u v : State} {a : Attr} {c : Instr} {n b b' : Nat} {R : List Nat} {g : Config.Segment}

/-! ### The bank register -/

theorem State.bankState_setState (w : s.Wf) (hb : b < 2) (hb' : b' < 2) (x : Nat) :
    (s.setCfld n oBank (2 * b) 2 x).bankState n b' = if b' = b then x % 4 else s.bankState n b' := by
  split
  · subst b'; exact State.cfld_setCfld_same w (by omega) ..
  · exact State.cfld_setCfld_disjoint w (by omega) (by omega) ..

theorem State.bankState_setSeg (w : s.Wf) (hb : b < 2) (hb' : b' < 2) (x : Nat) :
    (s.setCfld n oBank (16 + 16 * b) 16 x).bankState n b' = s.bankState n b' :=
  State.cfld_setCfld_disjoint w (by omega) (by omega) ..

theorem State.bankSeg_setSeg (w : s.Wf) (hb : b < 2) (x : Nat) :
    (s.setCfld n oBank (16 + 16 * b) 16 x).bankSeg n b = x % 2 ^ 16 := State.cfld_setCfld_same w (by omega) ..

theorem State.bankState_of_reg (h : t.reg (rCore n oBank) = s.reg (rCore n oBank)) (b : Nat) : t.bankState n b = s.bankState n b :=
  State.cfld_of_reg h ..

theorem State.bankSeg_of_reg (h : t.reg (rCore n oBank) = s.reg (rCore n oBank)) (b : Nat) : t.bankSeg n b = s.bankSeg n b :=
  State.cfld_of_reg h ..

theorem State.reg_retire_ne (w : s.Wf) {o : Nat} (hc : o ≠ oCount) (hl : o ≠ oLast) (ho : o < 0x2000 := by decide) (a : Attr) (k : Nat) :
    (s.retire a).reg (rCore k o) = s.reg (rCore k o) := by
  refine (s.retire_spec w a).1.2 _ ?_
  simp only [retireRegs, List.mem_cons, List.not_mem_nil, or_false, not_or]
  exact ⟨rCore_ne hc ho (by decide) k _, rCore_ne hl ho (by decide) k _⟩

theorem State.inactive_lt (s : State) (n : Nat) : 1 - s.activeBank n < 2 := by omega

/-! ### IMEM_LOAD -/

/-- A command of an engine after which its core still runs and nothing else acts. -/
theorem State.Ready.exec_performs (h : s.Ready a) (hc : streamAttr c = some a) (hs : serialises c = false) (hu : s.unblocked a.core c = true)
    (hp : ∀ j, s.perform j c = v) (hv : v.stp = s.stp) (hl : v.coreLive a.core = true) (hset : (v.retire a).settle = v.retire a) :
    exec c s = .next (v.retire a) := by
  obtain ⟨j, hj⟩ := h.unhindered.exists_job
  rw [exec_stream hc, h.coreCmd_performed hj hs hu (by rw [hp, hv]; exact h.settled.unstaged), hp, hl, if_pos rfl, hset]

theorem State.Ready.perform_imemLoad (h : s.Ready a) (j : Job) (seg bank : Nat) :
    s.perform j (.imemLoad a seg bank) = s.imemLoad a seg bank := h.checked _

theorem State.segment?_id {seg : Nat} (h : s.segment? n seg = some g) : g.id = seg := by
  unfold State.segment? at h
  obtain ⟨j, -, hf⟩ := Option.bind_eq_some_iff.1 h
  simpa using List.find?_some hf

/-- A load that starts: its bank is LOADING with the segment's ID, the other bank keeps its state. -/
theorem State.startLoad_spec (w : s.Wf) (hb : b < 2) (n : Nat) (g : Config.Segment) :
    OnCore n [rCore n oBank] s (s.startLoad n b g) ∧ (s.startLoad n b g).bankState n b = 1
      ∧ (s.startLoad n b g).bankSeg n b = g.id % 2 ^ 16 ∧ (s.startLoad n b g).bankState n (1 - b) = s.bankState n (1 - b)
      ∧ ((s.startLoad n b g).core n).window = (s.core n).window ∧ ((s.startLoad n b g).core n).ending = (s.core n).ending := by
  obtain ⟨k, hk, hsram, hwin, hend⟩ : ∃ k : CoreSt, s.startLoad n b g = ((s.setCore n k).setCfld n oBank (2 * b) 2 1).setCfld n oBank
      (16 + 16 * b) 16 g.id ∧ k.sram = (s.core n).sram ∧ k.window = (s.core n).window ∧ k.ending = (s.core n).ending := by
    refine ⟨_, rfl, ?_⟩
    split <;> exact ⟨rfl, rfl, rfl⟩
  have h1 : OnCore n [rCore n oBank] s (s.setCore n k) := (OnCore.refl w n _).setCore hsram
  have h2 := h1.setCfld (o := oBank) (by simp) (2 * b) 2 1
  have h3 := h2.setCfld (o := oBank) (by simp) (16 + 16 * b) 16 g.id
  have hcore : (s.startLoad n b g).core n = k := by
    rw [hk]; exact (State.core_setCore w.cores n n k).trans (if_pos rfl)
  refine ⟨hk ▸ h3, ?_, ?_, ?_, by rw [hcore, hwin], by rw [hcore, hend]⟩
  · rw [hk, State.bankState_setSeg h2.wf hb hb, State.bankState_setState h1.wf hb hb, if_pos rfl]
  · rw [hk, State.bankSeg_setSeg h2.wf hb]
  · rw [hk, State.bankState_setSeg h2.wf hb (by omega), State.bankState_setState h1.wf hb (by omega), if_neg (by omega)]
    rfl

/-- IMEM_LOAD of a known segment into a bank that is not ACTIVE. -/
theorem State.imemLoad_starts {seg bank : Nat} (hg : s.segment? a.core seg = some g) (hlen : g.len ≤ 0x1_0000) (hb : bank < 2)
    (ha : s.bankState a.core bank ≠ 3) : s.imemLoad a seg bank = s.startLoad a.core bank g := by
  rw [State.imemLoad, hg]
  dsimp only
  rw [if_neg (by omega), if_neg ha]

theorem State.imemLoad_bad {seg bank : Nat} (h : s.segment? a.core seg = none ∨ 2 ≤ bank) : s.imemLoad a seg bank = s.checkFail a 0x0102 := by
  rw [State.imemLoad]
  split
  · rfl
  · next g hg =>
    rcases h with h | h
    · rw [h] at hg; cases hg
    · exact if_pos (.inl h)

/-! ### A load aimed at the ACTIVE bank -/

/-- CORE_IMEM_ERR counts and flags a load that was discarded. -/
def State.noteDiscard (s : State) (n : Nat) : State := (s.addCfld n oImemErr 0 16 1).setCfld n oImemErr 16 1 1

theorem State.imemLoad_discards {seg bank : Nat} (hg : s.segment? a.core seg = some g) (hlen : g.len ≤ 0x1_0000) (hb : bank < 2)
    (ha : s.bankState a.core bank = 3) :
    s.imemLoad a seg bank = (s.noteDiscard a.core).event 2 cImemActiveWrite a.core (s.noteDiscard a.core).stp.step seg := by
  rw [State.imemLoad, hg]
  dsimp only
  rw [if_neg (by omega), if_pos ha]
  rfl

theorem State.noteDiscard_spec (w : s.Wf) (n : Nat) : OnCore n [rCore n oImemErr] s (s.noteDiscard n)
    ∧ (s.noteDiscard n).cfld n oImemErr 0 16 = min (2 ^ 16 - 1) (s.cfld n oImemErr 0 16 + 1)
    ∧ (s.noteDiscard n).cfld n oImemErr 16 1 = 1 := by
  have h1 : OnCore n [rCore n oImemErr] s (s.addCfld n oImemErr 0 16 1) := (OnCore.refl w n _).setCfld (by simp) ..
  refine ⟨h1.setCfld (by simp) .., ?_, State.cfld_setCfld_same h1.wf (by decide) ..⟩
  exact (State.cfld_setCfld_disjoint h1.wf (by decide) (by decide) ..).trans (State.cfld_addCfld_same w (by decide) ..)

/-- An EVENT record changes the Hostlink engine, the ports and its own count, and nothing else. -/
structure EventOnly (s t : State) : Prop where
  wf     : t.Wf
  cores  : t.cores = s.cores
  mem    : t.mem = s.mem
  job    : t.job = s.job
  staged : t.stp = s.stp
  regs   : ∀ r, r ≠ rHlEvqStat → t.reg r = s.reg r

theorem State.event_spec (w : s.Wf) (ev code core step value : Nat) : EventOnly s (s.event ev code core step value) := by
  have hwf := (Keeps.refl s).event (ev := ev) (code := code) (core := core) (step := step) (value := value) |>.wf w
  have hcount : EventOnly s ({ s with hl := { s.hl with evLost := true } }.addFld rHlEvqStat 0 16 1) :=
    ⟨(Keeps.frame (.refl s)).addFld.wf w, rfl, rfl, rfl, rfl, fun r hr => State.reg_setReg_ne w.regs hr _⟩
  revert hwf
  unfold State.event
  extract_lets +onlyGivenNames n
  split
  · split
    · intro hwf
      have h := fun (x : State) p op addr param use data => (PortsOnly.refl x).request p op addr param use data
      refine ⟨hwf, ?_, ?_, ?_, ?_, fun r _ => ?_⟩
      · exact (h ..).cores
      · exact (h ..).mem
      · exact (h ..).job
      · exact (h ..).stp
      · exact (h ..).reg r
    · exact fun _ => hcount
  · exact fun _ => hcount

/-! ### SWAP -/

/-- The bank that SWAP names becomes ACTIVE, the other READY, and its core continues at the entry (R142). -/
def State.swapped (s : State) (n b entry : Nat) : State :=
  ((((s.setCfld n oBank (2 * (1 - b)) 2 2).setCfld n oBank (2 * b) 2 3).showBank n).jump n entry)

theorem State.swapped_spec (w : s.Wf) (hb : b < 2) (n entry : Nat) : OnCore n [rCore n oBank, rCore n oState] s (s.swapped n b entry)
    ∧ (s.swapped n b entry).bankState n b = 3 ∧ (s.swapped n b entry).bankState n (1 - b) = 2
    ∧ (s.swapped n b entry).core n = { s.core n with resume := entry } ∧ (s.swapped n b entry).cfld n oState 3 1 = b := by
  obtain ⟨v, hv⟩ : ∃ v, v = (s.setCfld n oBank (2 * (1 - b)) 2 2).setCfld n oBank (2 * b) 2 3 := ⟨_, rfl⟩
  have h1 : OnCore n [rCore n oBank, rCore n oState] s (s.setCfld n oBank (2 * (1 - b)) 2 2) := (OnCore.refl w n _).setCfld (by simp) ..
  have h2 : OnCore n [rCore n oBank, rCore n oState] s v := hv ▸ h1.setCfld (by simp) ..
  have h3 : OnCore n [rCore n oBank, rCore n oState] s (v.showBank n) := h2.setCfld (by simp) ..
  have he : s.swapped n b entry = (v.showBank n).jump n entry := by rw [hv]; rfl
  have hbank : ∀ k < 2, v.bankState n k = if k = b then 3 else 2 := fun k hk => by
    rw [hv, State.bankState_setState h1.wf hb hk, State.bankState_setState w (by omega) hk]
    split
    · rfl
    · rw [if_pos (by omega)]
  have hshow : ∀ k, (v.showBank n).bankState n k = v.bankState n k := fun k =>
    State.cfld_setCfld_ne h2.wf (by decide) (by decide) (by decide) ..
  have hact : v.cfld n oBank 2 2 = if 1 = b then 3 else 2 := hbank 1 (by decide)
  refine ⟨he ▸ h3.setCore rfl, ?_, ?_, ?_, ?_⟩
  · rw [he]; exact (hshow b).trans ((hbank b hb).trans (if_pos rfl))
  · rw [he]; exact (hshow (1 - b)).trans ((hbank (1 - b) (by omega)).trans (if_neg (by omega)))
  · rw [he]
    refine (State.core_setCore h3.wf.cores ..).trans ((if_pos rfl).trans ?_)
    have hcore : (v.showBank n).core n = s.core n := by rw [hv]; rfl
    rw [hcore]
  · rw [he]
    refine (State.cfld_setCfld_same h2.wf (by decide) n oState _).trans ?_
    rw [hact]
    rcases (by omega : b = 0 ∨ b = 1) with rfl | rfl <;> rfl

section
variable {seg entry : Nat}

theorem State.swap_ready (hs : s.bankState a.core (1 - s.activeBank a.core) = 2) (hseg : s.bankSeg a.core (1 - s.activeBank a.core) = seg)
    (he : entry < s.segLen a.core seg) : s.swap a seg entry = some ((s.swapped a.core (1 - s.activeBank a.core) entry).retire a) := by
  unfold State.swap
  dsimp only
  rw [hs, hseg, if_neg (by omega), if_neg (by omega), if_neg (by decide)]
  rfl

theorem State.swap_loading (hs : s.bankState a.core (1 - s.activeBank a.core) = 1) (hseg : s.bankSeg a.core (1 - s.activeBank a.core) = seg)
    (he : entry < s.segLen a.core seg) : s.swap a seg entry = none := by
  unfold State.swap
  dsimp only
  rw [hs, hseg, if_neg (by omega), if_neg (by omega), if_pos rfl]

theorem State.swap_mismatch (h : s.bankState a.core (1 - s.activeBank a.core) = 0 ∨ s.bankState a.core (1 - s.activeBank a.core) = 3
    ∨ s.bankSeg a.core (1 - s.activeBank a.core) ≠ seg) : s.swap a seg entry = some (s.checkFail a 0x0103) := by
  unfold State.swap
  dsimp only
  rw [if_pos (by omega)]
  rfl

theorem State.swap_badEntry (hs : s.bankState a.core (1 - s.activeBank a.core) = 1 ∨ s.bankState a.core (1 - s.activeBank a.core) = 2)
    (hseg : s.bankSeg a.core (1 - s.activeBank a.core) = seg) (he : s.segLen a.core seg ≤ entry) :
    s.swap a seg entry = some (s.checkFail a 0x0102) := by
  unfold State.swap
  dsimp only
  rw [if_neg (by omega), if_pos he]
  rfl

/-- SWAP looks at the banks and the program of its core. -/
theorem State.swap_loading_of_reg (hr : t.reg (rCore a.core oBank) = s.reg (rCore a.core oBank)) (hj : t.job = s.job)
    (hs : s.bankState a.core (1 - s.activeBank a.core) = 1) (hseg : s.bankSeg a.core (1 - s.activeBank a.core) = seg)
    (he : entry < s.segLen a.core seg) : t.swap a seg entry = none := by
  have hact : t.activeBank a.core = s.activeBank a.core := by rw [State.activeBank, State.bankState_of_reg hr]; rfl
  refine State.swap_loading ?_ ?_ ?_
  · rw [hact, State.bankState_of_reg hr, hs]
  · rw [hact, State.bankSeg_of_reg hr, hseg]
  · rw [State.segLen, State.segment?, hj]; exact he

/-- A SWAP to a bank that is LOADING waits in the window. -/
theorem State.Ready.exec_swap_waits (w : s.Wf) (h : s.Ready a) (hs : s.bankState a.core (1 - s.activeBank a.core) = 1)
    (hseg : s.bankSeg a.core (1 - s.activeBank a.core) = seg) (he : entry < s.segLen a.core seg) :
    exec (.swap a seg entry) s = .next (s.enterWindow a.core (.swap a seg entry) .held) := by
  have hn : s.control (.swap a seg entry) s.now true = none := (h.control rfl rfl ..).trans (State.swap_loading hs hseg he)
  rw [exec_stream rfl, h.unhindered.coreCmd_held rfl hn nofun]
  obtain ⟨hwait, hon, hcore, -, hshow⟩ :=
    State.enterWindow_spec w h.coreLive h.alone.1 h.alone.2 (c := .swap a seg entry) rfl (st := .held) (.inr rfl)
  generalize s.enterWindow a.core (.swap a seg entry) .held = v at hwait hon hcore hshow
  obtain ⟨j, hj⟩ := h.unhindered.exists_job
  have hbank : v.reg (rCore a.core oBank) = s.reg (rCore a.core oBank) :=
    hon.only.2.1 _ (List.mem_singleton.not.2 (rCore_ne (by decide) (by decide) (by decide) _ _))
  have hfront : v.frontControl a.core false = v := hwait.frontControl_held nofun rfl
    ((State.control_passes rfl rfl h.defined h.engines h.errorFree.1 ..).trans
      (State.swap_loading_of_reg hbank hon.job hs hseg he))
  have hcores : ∀ k, k ≠ a.core → v.core k = s.core k := hon.only.2.2
  have hset : v.settle = v := by
    refine hwait.settle (hon.used ▸ h.mem_used) ?_ (fun k hk hkn => ?_) (fun k hk => ?_) fun y hy hend => ?_
    · rw [hwait.runWindow (hon.job.trans hj) hfront hwait hfront nofun, hshow]
    · rw [hcores k hkn]; exact h.settled.noneWaits k (hon.used ▸ hk)
    · by_cases hkn : k = a.core
      · subst k; exact hwait.ending
      · rw [hcores k hkn]; exact h.settled.noneEnds k (hon.used ▸ hk)
    · rw [hon.now oState_singleton_coreReg, hon.packOf oState_singleton_coreReg]
      exact h.settled.nothingDue y (hon.fab ▸ hy) hend
  rw [hset]

end

/-! ### The end of a load -/

/-- The bank whose load ends is READY with the bytes of the command area. -/
theorem State.bankLoaded_spec (w : s.Wf) (hb : b < 2) {addr len : Nat} (hload : (if b = 0 then (s.core n).load0 else (s.core n).load1) = some (addr, len)) :
    OnCore n [rCore n oBank] s (s.bankLoaded n b) ∧ (s.bankLoaded n b).bankState n b = 2
      ∧ (if b = 0 then ((s.bankLoaded n b).core n).bank0 else ((s.bankLoaded n b).core n).bank1) = s.load addr len
      ∧ ((s.bankLoaded n b).core n).window = (s.core n).window ∧ ((s.bankLoaded n b).core n).ending = (s.core n).ending := by
  obtain ⟨k, hk, hsram, hwin, hend, hbytes⟩ : ∃ k : CoreSt, s.bankLoaded n b = (s.setCore n k).setCfld n oBank (2 * b) 2 2
      ∧ k.sram = (s.core n).sram ∧ k.window = (s.core n).window ∧ k.ending = (s.core n).ending
      ∧ (if b = 0 then k.bank0 else k.bank1) = s.load addr len := by
    unfold State.bankLoaded
    dsimp only
    rw [hload]
    refine ⟨_, rfl, ?_⟩
    split <;> exact ⟨rfl, rfl, rfl, rfl⟩
  have h1 : OnCore n [rCore n oBank] s (s.setCore n k) := (OnCore.refl w n _).setCore hsram
  have hcore : (s.bankLoaded n b).core n = k := by
    rw [hk]; exact (State.core_setCore w.cores n n k).trans (if_pos rfl)
  refine ⟨hk ▸ h1.setCfld (by simp) .., ?_, by rw [hcore]; exact hbytes, by rw [hcore, hwin], by rw [hcore, hend]⟩
  rw [hk, State.bankState_setState h1.wf hb hb, if_pos rfl]

theorem State.Ready.exec_bankLoaded (h : s.Ready a) (hb : b < 2) (hs : s.bankState a.core b = 1) (e : OnCore a.core R s (s.bankLoaded a.core b))
    (hw : ((s.bankLoaded a.core b).core a.core).window = []) (he : ((s.bankLoaded a.core b).core a.core).ending = none) :
    exec (.imemBankLoadComplete a.core b) s = .next (s.bankLoaded a.core b) := by
  have hi : s.issuing = true ∧ b < 2 ∧ s.bankState a.core b = 1 := by
    obtain ⟨hr, hst, -⟩ := State.fetching_iff.1 h.fetching
    exact ⟨by rw [State.issuing, hr, hst]; rfl, hb, hs⟩
  refine (next_of_live h.live).trans (congrArg _ ?_)
  dsimp only
  rw [if_pos hi, e.settle h.settled hw he]

/-! ### Each case of the three -/

theorem State.Ready.exec_imemLoad_fails (w : s.Wf) (h : s.Ready a) {seg bank : Nat} (hbad : s.segment? a.core seg = none ∨ 2 ≤ bank) :
    exec (.imemLoad a seg bank) s = .next (s.checkFail a 0x0102) := by
  rw [exec_stream rfl]
  exact h.unhindered.coreCmd_halts w rfl rfl (by decide) fun j => (h.perform_imemLoad j seg bank).trans (State.imemLoad_bad hbad)

theorem State.Ready.exec_imemLoad_discards (w : s.Wf) (h : s.Ready a) {seg bank : Nat} (hg : s.segment? a.core seg = some g)
    (hlen : g.len ≤ 0x1_0000) (hb : bank < 2) (ha : s.bankState a.core bank = 3) :
    ∃ t, exec (.imemLoad a seg bank) s = .next t ∧ t.reg (rCore a.core oBank) = s.reg (rCore a.core oBank) ∧ t.cores = s.cores
      ∧ t.cfld a.core oImemErr 0 16 = min (2 ^ 16 - 1) (s.cfld a.core oImemErr 0 16 + 1) ∧ t.cfld a.core oImemErr 16 1 = 1
      ∧ retired s t a ∧ t.mem = s.mem := by
  obtain ⟨hon, hcount, hflag⟩ := State.noteDiscard_spec w a.core
  obtain ⟨x, hx⟩ : ∃ x, x = s.noteDiscard a.core := ⟨_, rfl⟩
  have hperf : ∀ j, s.perform j (.imemLoad a seg bank) = x.event 2 cImemActiveWrite a.core x.stp.step seg := fun j => by
    rw [h.perform_imemLoad, State.imemLoad_discards hg hlen hb ha, hx]
  have hcoresX : x.cores = s.cores := by rw [hx]; rfl
  rw [← hx] at hon hcount hflag
  have he := State.event_spec hon.wf 2 cImemActiveWrite a.core x.stp.step seg
  generalize x.event 2 cImemActiveWrite a.core x.stp.step seg = v at hperf he
  have hreg : ∀ o, v.reg (rCore a.core o) = x.reg (rCore a.core o) := fun o => he.regs _ (rCore_ne_low (by decide))
  have hregS : ∀ o < 0x2000, o ≠ oImemErr → v.reg (rCore a.core o) = s.reg (rCore a.core o) := fun o ho hne =>
    (hreg o).trans (hon.only.2.1 _ (List.mem_singleton.not.2 (rCore_ne hne ho (by decide) _ _)))
  have hcores : (v.retire a).cores = s.cores := he.cores.trans hcoresX
  have hused : (v.retire a).used = s.used := congrArg (fun x : Option Job => (x.map usedCores).getD []) (he.job.trans hon.job)
  have hlive : v.coreLive a.core = true := by
    rw [State.coreLive, State.cstate_of_regs (hregS _ (by decide) (by decide))]; exact h.coreLive
  have hset : (v.retire a).settle = v.retire a := State.settle_of_noneWaits fun k hk => by
    have hcore : (v.retire a).core k = s.core k := by rw [State.core, hcores]; rfl
    rw [hused] at hk
    rw [hcore]
    exact ⟨h.settled.noneWaits k hk, h.settled.noneEnds k hk⟩
  refine ⟨_, h.exec_performs rfl rfl rfl hperf (he.staged.trans hon.stp) hlive hset, ?_, hcores, ?_, ?_,
    State.retired_retire he.wf (hregS _ (by decide) (by decide)), he.mem.trans (by rw [hon.only.1])⟩
  · exact (State.reg_retire_ne he.wf (by decide) (by decide) (by decide) a _).trans (hregS _ (by decide) (by decide))
  · exact (State.cfld_retire he.wf (by decide) (by decide) (by decide) ..).trans ((State.cfld_of_reg (hreg _) ..).trans hcount)
  · exact (State.cfld_retire he.wf (by decide) (by decide) (by decide) ..).trans ((State.cfld_of_reg (hreg _) ..).trans hflag)

theorem State.Ready.exec_imemLoad_starts (w : s.Wf) (h : s.Ready a) {seg bank : Nat} (hg : s.segment? a.core seg = some g)
    (hlen : g.len ≤ 0x1_0000) (hseg : seg < 2 ^ 16) (hb : bank < 2) (ha : s.bankState a.core bank ≠ 3) :
    ∃ t, exec (.imemLoad a seg bank) s = .next t ∧ t.bankState a.core bank = 1 ∧ t.bankSeg a.core bank = seg ∧ retired s t a
      ∧ t.bankState a.core (1 - bank) = s.bankState a.core (1 - bank) ∧ coreOnly s t a.core (rCore a.core oBank :: retireRegs a.core) := by
  obtain ⟨hon, hstate, hsg, hother, hwin, hend⟩ := State.startLoad_spec w hb a.core g
  have hoff : ∀ o < 0x2000, o ≠ oBank → rCore a.core o ∉ [rCore a.core oBank] := fun o ho hne =>
    List.mem_singleton.not.2 (rCore_ne hne ho (by decide) _ _)
  have hlive : (s.startLoad a.core bank g).coreLive a.core = true := by
    rw [State.coreLive, hon.cstate (hoff _ (by decide) (by decide))]; exact h.coreLive
  have her : OnCore a.core (rCore a.core oBank :: retireRegs a.core) s ((s.startLoad a.core bank g).retire a) :=
    (hon.mono (by simp)).retire (by simp)
  have hreg := State.reg_retire_ne hon.wf (o := oBank) (by decide) (by decide) (by decide) a a.core
  refine ⟨_, h.exec_performs rfl rfl rfl (fun j => (h.perform_imemLoad j seg bank).trans (State.imemLoad_starts hg hlen hb ha)) hon.stp hlive
    (her.settle h.settled (hwin.trans h.window) (hend.trans h.alone.2)), (State.bankState_of_reg hreg _).trans hstate,
    (State.bankSeg_of_reg hreg _).trans (hsg.trans ?_), State.retired_retire hon.wf (hon.only.2.1 _ (hoff _ (by decide) (by decide))),
    (State.bankState_of_reg hreg _).trans hother, her.only⟩
  rw [State.segment?_id hg]
  exact Nat.mod_eq_of_lt hseg

theorem State.Ready.exec_swap_acts (w : s.Wf) (h : s.Ready a) {seg entry b : Nat} (hb : b = 1 - s.activeBank a.core)
    (hs : s.bankState a.core b = 2) (hsg : s.bankSeg a.core b = seg) (he : entry < s.segLen a.core seg) :
    ∃ t, exec (.swap a seg entry) s = .next t ∧ t.bankState a.core b = 3 ∧ t.bankState a.core (1 - b) = 2
      ∧ (t.core a.core).resume = entry ∧ t.cfld a.core oState 3 1 = b ∧ retired s t a
      ∧ coreOnly s t a.core (rCore a.core oBank :: rCore a.core oState :: retireRegs a.core) := by
  subst hb
  obtain ⟨hon, hnew, hold, hcore, hshow⟩ := State.swapped_spec w (s.inactive_lt a.core) a.core entry
  have her : OnCore a.core (rCore a.core oBank :: rCore a.core oState :: retireRegs a.core) s
      ((s.swapped a.core (1 - s.activeBank a.core) entry).retire a) := (hon.mono (by simp)).retire (by simp)
  have hreg := State.reg_retire_ne hon.wf (o := oBank) (by decide) (by decide) (by decide) a a.core
  have hcount : rCore a.core oCount ∉ [rCore a.core oBank, rCore a.core oState] := by
    simp only [List.mem_cons, List.not_mem_nil, or_false, not_or]
    exact ⟨rCore_ne (by decide) (by decide) (by decide) _ _, rCore_ne (by decide) (by decide) (by decide) _ _⟩
  have hcore' : ((s.swapped a.core (1 - s.activeBank a.core) entry).retire a).core a.core = { s.core a.core with resume := entry } := hcore
  exact ⟨_, h.exec_acts rfl rfl (State.swap_ready hs hsg he) her (by rw [hcore']; exact h.window) (by rw [hcore']; exact h.alone.2),
    (State.bankState_of_reg hreg _).trans hnew, (State.bankState_of_reg hreg _).trans hold, by rw [hcore'],
    (State.cfld_retire hon.wf (by decide) (by decide) (by decide) ..).trans hshow, State.retired_retire hon.wf (hon.only.2.1 _ hcount), her.only⟩

/-- Settles O22: a load starts, is discarded or fails; a load ends; a SWAP acts, waits or fails. -/
theorem instructionBanks : Obligations.InstructionBanks := by
  unfold Obligations.InstructionBanks
  intro a seg bank entry s w h n other
  refine ⟨fun g hg hlen hseg hb ha => h.exec_imemLoad_starts w hg hlen hseg hb ha,
    fun g hg hlen hb ha => h.exec_imemLoad_discards w hg hlen hb ha, fun hbad => h.exec_imemLoad_fails w hbad,
    fun addr len hb hs hload => ?_, fun hs hsg he => h.exec_swap_acts w rfl hs hsg he, fun hs hsg he => ?_,
    fun hbad => h.exec_fails w rfl rfl (State.swap_mismatch hbad), fun hs hsg he => h.exec_fails w rfl rfl (State.swap_badEntry hs hsg he)⟩
  · obtain ⟨hon, hstate, hbytes, hwin, hend⟩ := State.bankLoaded_spec w hb hload
    exact ⟨_, h.exec_bankLoaded hb hs hon (hwin.trans h.window) (hend.trans h.alone.2), hstate, hon.only, hbytes⟩
  · obtain ⟨-, hon, hcore, -, -⟩ :=
      State.enterWindow_spec w h.coreLive h.alone.1 h.alone.2 (c := .swap a seg entry) rfl (st := .held) (.inr rfl)
    exact ⟨_, h.exec_swap_waits w hs hsg he, hon.only, by rw [hcore]⟩

end Sys2Proof.Machine
end

section
/-! SUPPORT. A HEEL that its core comes to (R138): its check, its retirement, its wait. -/

namespace Sys2Proof.Machine
open Sys2Proof

-- Proofs elaborated in threads of their own would pass the check's limit of memory.
set_option Elab.async false

variable {s t u v : State} {a : Attr} {j : Job} {n k h d since tm : Nat} {ws : List (Nat × Nat)} {R : List Nat} {x : WinCmd} {go : Bool}

/-! ### What a heel looks at -/

/-- What a heel of core `n` looks at is the same in `s` and `t`: the job, the step, the requests, the fabric, the beat, the package's
index and the core's deliveries. -/
structure SameHeel (n : Nat) (s t : State) : Prop where
  job  : t.job = s.job
  stp  : t.stp = s.stp
  hl   : t.hl = s.hl
  fab  : t.fab = s.fab
  beat : t.reg rPfBeat = s.reg rPfBeat
  herd : t.reg rPfHerd = s.reg rPfHerd
  dlv  : (t.core n).dlv = (s.core n).dlv

theorem SameHeel.trans (e : SameHeel n s t) (k : SameHeel n t u) : SameHeel n s u :=
  ⟨k.job.trans e.job, k.stp.trans e.stp, k.hl.trans e.hl, k.fab.trans e.fab, k.beat.trans e.beat, k.herd.trans e.herd, k.dlv.trans e.dlv⟩

theorem SameHeel.packOf (e : SameHeel n s t) (q : Nat) : t.packOf q = s.packOf q := State.packOf_congr e.beat e.fab e.stp q

theorem SameHeel.savesAt (e : SameHeel n s t) (h : Nat) : t.savesAt h = s.savesAt h := by
  simp only [State.savesAt, State.ctxDue, State.saveOrigin, State.nextOrigin, e.hl, e.stp, e.job]
  rfl

theorem SameHeel.waitsOk (e : SameHeel n s t) (ws : List (Nat × Nat)) : t.waitsOk n ws = s.waitsOk n ws := by
  have hi : t.herdIndex = s.herdIndex := by rw [State.herdIndex, State.fld, e.herd]; rfl
  simp only [State.waitsOk, State.stream?, State.flitsOf, hi, e.stp, e.job]
  rfl

theorem SameHeel.awaited? (e : SameHeel n s t) (w : Nat × Nat) : t.awaited? n w = s.awaited? n w := by
  simp only [State.awaited?, State.schedStart, e.dlv, e.stp, e.job]
  rfl

theorem SameHeel.heelTime (e : SameHeel n s t) (h d : Nat) (ws : List (Nat × Nat)) (since : Nat) :
    t.heelTime n h d ws since = s.heelTime n h d ws since := by
  simp only [State.heelTime, e.awaited?, e.packOf]

theorem OnCore.sameHeel (e : OnCore n R s t) (hR : ∀ r ∈ R, coreReg r) (hd : (t.core n).dlv = (s.core n).dlv) : SameHeel n s t :=
  ⟨e.job, e.stp, e.hl, e.fab, e.reg_low hR (by decide), e.reg_low hR (by decide), hd⟩

/-- What pack time's advance leaves: everything but pack time, the ports and the outbox. -/
theorem State.advanceTo_reg (w : s.Wf) (x : Nat) {r : Nat} (hr : r ≠ rPfPackTime) : (s.advanceTo x).reg r = s.reg r := by
  rw [(s.advanceTo_spec x).reg]
  split
  · exact State.reg_setReg_ne w.regs hr x
  · rfl

theorem State.advanceTo_frame (s : State) (x : Nat) : s.advanceTo x
    = { s with regs := (s.advanceTo x).regs, ports := (s.advanceTo x).ports, outbox := (s.advanceTo x).outbox } := by
  have e := s.advanceTo_spec x
  rw [PortsOnly] at e
  rw [e]
  split <;> rfl

theorem State.advanceTo_core (s : State) (x k : Nat) : (s.advanceTo x).core k = s.core k := by
  rw [s.advanceTo_frame x]; rfl

theorem State.advanceTo_sameHeel (w : s.Wf) (n x : Nat) : SameHeel n s (s.advanceTo x) := by
  refine ⟨?_, ?_, ?_, ?_, s.advanceTo_reg w x (by decide), s.advanceTo_reg w x (by decide), by rw [s.advanceTo_core]⟩ <;>
    rw [s.advanceTo_frame x]

theorem State.now_advanceTo (w : s.Wf) {x : Nat} (hx : s.now ≤ x) (hlt : x < 2 ^ 64) : (s.advanceTo x).now = x := by
  rw [State.now, (s.advanceTo_spec x).reg]
  split
  · exact State.reg_setReg_same w.regs _ hlt
  · exact Nat.le_antisymm hx (Nat.not_lt.1 ‹_›)

theorem State.advanceTo_wf (w : s.Wf) (x : Nat) : (s.advanceTo x).Wf := (Keeps.refl s).advanceTo.wf w

/-! ### The pack time of a heel -/

theorem foldl_max_ge (f : Nat → Nat) (l : List Nat) (b : Nat) :
    b ≤ l.foldl (fun m q => max m (f q)) b ∧ ∀ q ∈ l, f q ≤ l.foldl (fun m q => max m (f q)) b := by
  induction l generalizing b with
  | nil => exact ⟨le_rfl, nofun⟩
  | cons q l ih =>
    obtain ⟨hb, hl⟩ := ih (max b (f q))
    refine ⟨(le_max_left ..).trans hb, fun y hy => ?_⟩
    rcases List.mem_cons.1 hy with rfl | hy
    · exact (le_max_right ..).trans hb
    · exact hl y hy

/-- A heel retires no earlier than it was reached, than slot h and than its deliveries, and no later than slot d (R138). -/
theorem State.heelTime_some (e : s.heelTime n h d ws since = some tm) : since ≤ tm ∧ s.packOf h ≤ tm ∧ tm ≤ s.packOf d
    ∧ ∀ w ∈ ws, ∃ x, s.awaited? n w = some x ∧ s.packOf x.slot ≤ tm := by
  unfold State.heelTime at e
  split at e
  · next hall =>
    dsimp only at e
    split at e
    · next hle =>
      obtain rfl := Option.some.inj e
      obtain ⟨hh, hslots⟩ := foldl_max_ge s.packOf (ws.filterMap (fun w => (s.awaited? n w).map (·.slot))) (s.packOf h)
      refine ⟨le_max_left .., hh.trans (le_max_right ..), hle, fun w hw => ?_⟩
      obtain ⟨x, hx⟩ := Option.isSome_iff_exists.1 (List.all_eq_true.1 hall w hw)
      exact ⟨x, hx, (hslots _ (List.mem_filterMap.2 ⟨w, hw, by rw [hx]; rfl⟩)).trans (le_max_right ..)⟩
    · cases e
  · cases e

/-! ### The cases of a heel -/

/-- A heel with a legal window and wait set that is not the one at a boundary to be saved. -/
structure State.LegalHeel (s : State) (n h d : Nat) (ws : List (Nat × Nat)) : Prop where
  unsaved : s.savesAt h = false
  ordered : h ≤ d
  span    : d - h ≤ 65535
  waits   : s.waitsOk n ws = true

theorem SameHeel.legal (e : SameHeel n s t) (hl : s.LegalHeel n h d ws) : t.LegalHeel n h d ws :=
  ⟨(e.savesAt h).trans hl.unsaved, hl.ordered, hl.span, (e.waitsOk ws).trans hl.waits⟩

theorem State.heel_bad (hs : s.savesAt h = false) (hbad : d < h ∨ 65535 < d - h ∨ s.waitsOk a.core ws = false) :
    s.heel a h d ws since go = some (s.checkFail a 0x0102) := by
  rw [State.heel, if_neg (by rw [hs]; decide), if_pos (by simpa using hbad)]
  rfl

/-- A legal heel that its core comes to in time passes the checks before its retirement. -/
theorem State.LegalHeel.checks (hl : s.LegalHeel n h d ws) (hs : since ≤ s.packOf d) :
    ¬ s.savesAt h = true ∧ ¬ (d < h ∨ 65535 < d - h ∨ (!s.waitsOk n ws) = true) ∧ ¬ s.packOf d < since := by
  refine ⟨by rw [hl.unsaved]; decide, ?_, Nat.not_lt.2 hs⟩
  rw [hl.waits]
  exact fun hbad => hbad.elim (Nat.not_lt.2 hl.ordered) fun hbad => hbad.elim (Nat.not_lt.2 hl.span) (by decide)

/-- A heel whose flits are there in time retires, pack time coming to it. -/
theorem State.LegalHeel.heel_retires (hl : s.LegalHeel a.core h d ws) (hs : since ≤ s.packOf d)
    (ht : s.heelTime a.core h d ws since = some tm) : s.heel a h d ws since true = some ((s.advanceTo tm).retireHeel a h d ws tm) := by
  obtain ⟨hsave, hok, hlate⟩ := hl.checks hs
  rw [State.heel, if_neg hsave, if_neg hok, if_neg hlate, ht]
  dsimp only
  split
  · next hle => rw [State.advanceTo, if_neg (Nat.not_lt.2 hle)]
  · rfl

/-- A heel that misses a flit waits up to the end of slot d. -/
theorem State.LegalHeel.heel_waits (hl : s.LegalHeel a.core h d ws) (hs : since ≤ s.packOf d)
    (ht : s.heelTime a.core h d ws since = none) (hn : s.now ≤ s.packOf d) : s.heel a h d ws since go = none := by
  obtain ⟨hsave, hok, hlate⟩ := hl.checks hs
  rw [State.heel, if_neg hsave, if_neg hok, if_neg hlate, ht]
  exact if_neg (Nat.not_lt.2 hn)

/-! ### Retirement of a heel -/

/-- CORE_HEEL_STAT and the core's state as a heel retires at pack time `t`, before COUNT and LAST follow. -/
def State.heelDone (s : State) (a : Attr) (d : Nat) (ws : List (Nat × Nat)) (t : Nat) : State :=
  let n := a.core
  let slots := ws.filterMap (fun x => (s.awaited? n x).map (·.slot))
  let s := s.setCfld n oHeel 0 16 (min (s.cfld n oHeel 0 16) (s.packOf d - t))
  let s := if slots.contains d then s.addCfld n oHeel 16 16 1 else s
  let s := s.addCfld n oHeel 32 32 1
  let s := s.setCore n { s.core n with panting := false }
  (s.setCstate n csRun).followed n t

theorem State.retireHeel_eq (s : State) (a : Attr) (h d : Nat) (ws : List (Nat × Nat)) (t : Nat) :
    s.retireHeel a h d ws t = ((s.heelDone a d ws t).retire a).heelEffects a.core h := rfl

/-- Before the decision heels a heel brings nothing with it. -/
theorem State.heelEffects_early (hw : s.stp.widened = false) (hc : h ≤ s.stp.origin + s.statusSlot) (hn : h ≤ s.stp.origin + s.normSlot) (n : Nat) :
    s.heelEffects n h = s := by
  have hc' : ¬ s.stp.origin + s.statusSlot + 1 ≤ h := by omega
  have hn' : ¬ s.stp.origin + s.normSlot + 1 ≤ h := by omega
  unfold State.heelEffects
  split
  · rfl
  · simp only [hw, hc', hn', if_false, false_and, Bool.false_and, Bool.false_eq_true]

theorem State.heelDone_spec (w : s.Wf) (a : Attr) (d : Nat) (ws : List (Nat × Nat)) (t : Nat) :
    OnCore a.core [rCore a.core oHeel, rCore a.core oState] s (s.heelDone a d ws t) ∧ (s.heelDone a d ws t).cstate a.core = 2
      ∧ (s.heelDone a d ws t).cfld a.core oHeel 32 32 = min (2 ^ 32 - 1) (s.cfld a.core oHeel 32 32 + 1)
      ∧ ((s.heelDone a d ws t).core a.core).window = (s.core a.core).window
      ∧ ((s.heelDone a d ws t).core a.core).ending = (s.core a.core).ending := by
  have hr : rCore a.core oHeel ∈ [rCore a.core oHeel, rCore a.core oState] := by simp
  have h1 := (OnCore.refl w a.core [rCore a.core oHeel, rCore a.core oState]).setCfld hr 0 16
    (min (s.cfld a.core oHeel 0 16) (s.packOf d - t))
  obtain ⟨u, hu⟩ : ∃ u, u = if (ws.filterMap (fun x => (s.awaited? a.core x).map (·.slot))).contains d then
      (s.setCfld a.core oHeel 0 16 (min (s.cfld a.core oHeel 0 16) (s.packOf d - t))).addCfld a.core oHeel 16 16 1
    else s.setCfld a.core oHeel 0 16 (min (s.cfld a.core oHeel 0 16) (s.packOf d - t)) := ⟨_, rfl⟩
  have h2 : OnCore a.core [rCore a.core oHeel, rCore a.core oState] s u := hu ▸ .ite (h1.addCfld hr ..) h1
  have hcount : u.cfld a.core oHeel 32 32 = s.cfld a.core oHeel 32 32 := by
    have hfirst := State.cfld_setCfld_disjoint w (lo := 0) (l := 16) (lo' := 32) (l' := 32) (by decide) (by decide) a.core oHeel
      (min (s.cfld a.core oHeel 0 16) (s.packOf d - t))
    rw [hu]
    split
    · exact (State.cfld_addCfld_disjoint h1.wf (by decide) (by decide) ..).trans hfirst
    · exact hfirst
  have hcoreU : u.core a.core = s.core a.core := by
    rw [hu]; split <;> rfl
  have h3 := h2.addCfld hr 32 32 1
  obtain ⟨v, hv⟩ : ∃ v, v = (u.addCfld a.core oHeel 32 32 1).setCore a.core
    { (u.addCfld a.core oHeel 32 32 1).core a.core with panting := false } := ⟨_, rfl⟩
  have h4 : OnCore a.core [rCore a.core oHeel, rCore a.core oState] s v := hv ▸ h3.setCore rfl
  have h5 := h4.setCfld (o := oState) (by simp) 0 3 csRun
  have he : s.heelDone a d ws t = (v.setCstate a.core csRun).followed a.core t := by rw [hv, hu]; rfl
  have hcoreV : v.core a.core = { s.core a.core with panting := false } := by
    rw [hv, State.core_setCore h3.wf.cores, if_pos rfl]
    exact congrArg (fun c : CoreSt => { c with panting := false }) hcoreU
  have hcore : (s.heelDone a d ws t).core a.core = { s.core a.core with panting := false, asOf := max (s.core a.core).asOf t } := by
    rw [he]
    refine (State.core_setCore h5.wf.cores ..).trans ((if_pos rfl).trans ?_)
    exact congrArg (fun c : CoreSt => { c with asOf := max c.asOf t }) hcoreV
  refine ⟨he ▸ h5.setCore rfl, ?_, ?_, by rw [hcore], by rw [hcore]⟩
  · rw [he]
    exact (State.cstate_setCstate h4.wf a.core a.core csRun).trans (if_pos rfl)
  · rw [he]
    refine (State.cfld_setCfld_ne h4.wf (o := oState) (by decide) (by decide) (by decide) ..).trans ?_
    rw [hv]
    refine (State.cfld_addCfld_same h2.wf (by decide) ..).trans ?_
    rw [hcount]

/-! ### A heel that its flits have come for -/

/-- Registers that a heel's retirement writes. -/
def heelRegs (n : Nat) : List Nat := rPfPackTime :: rCore n oHeel :: rCore n oState :: retireRegs n

/-- A ready core's heel retires when its flits are there, pack time having come to it. -/
theorem State.Ready.exec_heel_retires (w : s.Wf) (hr : s.Ready a) (hl : s.LegalHeel a.core h d ws) (hnow : s.now ≤ s.packOf d)
    (hw : s.stp.widened = false) (hc : h ≤ s.stp.origin + s.statusSlot) (hn : h ≤ s.stp.origin + s.normSlot)
    (ht : s.heelTime a.core h d ws s.now = some tm) (hlt : tm < 2 ^ 64) :
    ∃ t, exec (.heel a h d ws) s = .next t ∧ t.now = tm ∧ t.cstate a.core = 2 ∧ (t.core a.core).window = [] ∧ retired s t a
      ∧ coreOnly { s with ports := t.ports, outbox := t.outbox } t a.core (heelRegs a.core)
      ∧ t.cfld a.core oHeel 32 32 = min (2 ^ 32 - 1) (s.cfld a.core oHeel 32 32 + 1) := by
  obtain ⟨p, hp⟩ : ∃ p, p = s.advanceTo tm := ⟨_, rfl⟩
  have hsame : SameHeel a.core s p := hp ▸ s.advanceTo_sameHeel w a.core tm
  have hframe := s.advanceTo_frame tm
  have hregP : ∀ r, r ≠ rPfPackTime → p.reg r = s.reg r := fun r hr => hp ▸ s.advanceTo_reg w tm hr
  have hcoreP : ∀ k, p.core k = s.core k := fun k => hp ▸ s.advanceTo_core tm k
  have wp : p.Wf := hp ▸ s.advanceTo_wf w tm
  have hnowP : p.now = tm := hp ▸ s.now_advanceTo w (State.heelTime_some ht).1 hlt
  rw [← hp] at hframe
  obtain ⟨hon, hstate, hcount, hwin, hend⟩ := p.heelDone_spec wp a d ws tm
  obtain ⟨t, htt⟩ : ∃ t, t = (p.heelDone a d ws tm).retire a := ⟨_, rfl⟩
  have hont : OnCore a.core ([rCore a.core oHeel, rCore a.core oState] ++ retireRegs a.core) p t :=
    htt ▸ (hon.mono (by simp)).retire (by simp)
  have hcoreT : t.core a.core = (p.heelDone a d ws tm).core a.core := by rw [htt]; rfl
  have hslots : t.statusSlot = s.statusSlot ∧ t.normSlot = s.normSlot := by
    simp only [State.statusSlot, State.normSlot, hont.job, hont.stp, hsame.job, hsame.stp, and_self]
  have heff : t.heelEffects a.core h = t := State.heelEffects_early (by rw [hont.stp, hsame.stp]; exact hw)
    (by rw [hont.stp, hsame.stp, hslots.1]; exact hc) (by rw [hont.stp, hsame.stp, hslots.2]; exact hn) _
  have hctl : s.control (.heel a h d ws) s.now true = some t := by
    rw [hr.control rfl rfl, State.controlEffect, hl.heel_retires hnow ht, ← hp, State.retireHeel_eq, ← htt, heff]
  have hset : t.settle = t := State.settle_of_noneWaits fun k hk => by
    rw [hont.used, State.used, hsame.job] at hk
    by_cases hkn : k = a.core
    · subst k
      rw [hcoreT, hwin, hend, hcoreP]
      exact ⟨hr.window, hr.alone.2⟩
    · rw [hont.only.2.2 k hkn, hcoreP]
      exact ⟨hr.settled.noneWaits k hk, hr.settled.noneEnds k hk⟩
  refine ⟨t, ?_, (hont.now fun r hm => ?_).trans hnowP, ?_, ?_, ?_, ⟨?_, fun r hm => ?_, fun k hk => (hont.only.2.2 k hk).trans (hcoreP k)⟩, ?_⟩
  · rw [exec_stream rfl, hr.unhindered.coreCmd_acts rfl hctl, hset]
  · simp only [retireRegs, List.cons_append, List.nil_append, List.mem_cons, List.not_mem_nil, or_false] at hm
    rcases hm with rfl | rfl | rfl | rfl <;> exact coreReg_rCore ..
  · rw [htt]
    exact (State.cfld_retire hon.wf (by decide) (by decide) (by decide) a a.core 0 3).trans hstate
  · rw [hcoreT, hwin, hcoreP]; exact hr.window
  · have hcountReg : (p.heelDone a d ws tm).reg (rCore a.core oCount) = s.reg (rCore a.core oCount) := by
      refine (hon.only.2.1 _ ?_).trans (hregP _ (rCore_ne_low (by decide)))
      simp only [List.mem_cons, List.not_mem_nil, or_false, not_or]
      exact ⟨rCore_ne (by decide) (by decide) (by decide) _ _, rCore_ne (by decide) (by decide) (by decide) _ _⟩
    rw [htt]
    exact State.retired_retire hon.wf hcountReg
  · rw [hont.only.1, hframe]
  · simp only [heelRegs, List.mem_cons, not_or] at hm
    refine (hont.only.2.1 r ?_).trans (hregP r hm.1)
    simp only [List.cons_append, List.nil_append, List.mem_cons, not_or]
    exact hm.2
  · rw [htt]
    refine (State.cfld_retire hon.wf (by decide) (by decide) (by decide) a a.core 32 32).trans (hcount.trans ?_)
    rw [State.cfld_of_reg (hregP _ (rCore_ne_low (by decide)))]

/-! ### A heel that waits -/

/-- A core that waits at a heel with start slot `h` pants there (R409). -/
def State.pantsFor (s : State) (h : Nat) : Bool :=
  s.fld rPwrPant 0 1 == 1 && decide (s.now + s.fld rPwrPant 32 16 ≤ s.packOf h)

theorem State.waitAtHeel_spec (w : s.Wf) (n h : Nat) : OnCore n [rCore n oState] s (s.waitAtHeel n h) ∧ (s.waitAtHeel n h).cstate n = 3
    ∧ (s.waitAtHeel n h).core n = { s.core n with panting := (s.core n).panting || s.pantsFor h } := by
  have h1 : OnCore n [rCore n oState] s (s.setCore n { s.core n with panting := (s.core n).panting || s.pantsFor h }) :=
    (OnCore.refl w n _).setCore rfl
  exact ⟨h1.setCfld (by simp) .., (State.cstate_setCstate h1.wf n n csHeel).trans (if_pos rfl),
    (State.core_setCore w.cores ..).trans (if_pos rfl)⟩

/-- A core that waits at a heel already goes on to. -/
theorem State.waitAtHeel_self (w : s.Wf) (hc : s.cstate n = 3) (hp : s.pantsFor h = true → (s.core n).panting = true) :
    s.waitAtHeel n h = s := by
  have hcore : s.core n = { s.core n with panting := (s.core n).panting || s.pantsFor h } := by
    have hpan : ((s.core n).panting || s.pantsFor h) = (s.core n).panting := by
      cases hb : s.pantsFor h with
      | false => exact Bool.or_false _
      | true => rw [hp hb]; rfl
    rw [hpan]
  have h1 : s.setCore n { s.core n with panting := (s.core n).panting || s.pantsFor h } = s := State.setCore_self w hcore
  have he : s.waitAtHeel n h = (s.setCore n { s.core n with panting := (s.core n).panting || s.pantsFor h }).setCstate n csHeel := rfl
  rw [he, h1]
  exact State.setFld_self w hc

theorem OnCore.pantsFor (e : OnCore n R s t) (hR : ∀ r ∈ R, coreReg r) (h : Nat) : t.pantsFor h = s.pantsFor h := by
  have hpant : t.reg rPwrPant = s.reg rPwrPant := e.reg_low hR (by decide)
  simp only [State.pantsFor, State.fld, hpant, e.now hR, e.packOf hR]
  rfl

/-- A heel alone in its core's window that still waits: a cycle leaves its core waiting at it. -/
theorem State.Waits.frontControl_waitingHeel (hw : s.Waits n ⟨.heel a h d ws, since, k, .waiting⟩) (ha : a.core = n) (hd : a.defined = true)
    (he : a.engines &&& absentEngines = 0) (hm : a.mem = { }) (hl : s.LegalHeel n h d ws) (hs : max since (s.core n).asOf ≤ s.packOf d)
    (ht : s.heelTime n h d ws (max since (s.core n).asOf) = none) (hnow : s.now ≤ s.packOf d) :
    s.frontControl n false = s.waitAtHeel n h := by
  subst ha
  exact hw.frontControl_heel rfl ((State.control_passes rfl rfl hd he hm ..).trans (hl.heel_waits hs ht hnow))

/-- A run of the core leaves it waiting at the heel. -/
theorem State.Waits.runWindow_waitingHeel (hw : s.Waits n ⟨.heel a h d ws, since, k, .waiting⟩) (hj : s.job = some j) (ha : a.core = n)
    (hd : a.defined = true) (he : a.engines &&& absentEngines = 0) (hm : a.mem = { }) (hl : s.LegalHeel n h d ws)
    (hs : max since (s.core n).asOf ≤ s.packOf d) (ht : s.heelTime n h d ws (max since (s.core n).asOf) = none) (hnow : s.now ≤ s.packOf d) :
    s.runWindow n false = (s.waitAtHeel n h).showWindow n := by
  obtain ⟨hon, hstate, hcore⟩ := s.waitAtHeel_spec hw.wf n h
  have hfront := hw.frontControl_waitingHeel ha hd he hm hl hs ht hnow
  have hself : (s.waitAtHeel n h).waitAtHeel n h = s.waitAtHeel n h := State.waitAtHeel_self hon.wf hstate fun hp => by
    rw [hon.pantsFor oState_singleton_coreReg] at hp
    rw [hcore, hp]
    exact Bool.or_true _
  have hsame := hon.sameHeel oState_singleton_coreReg (by rw [hcore])
  have hwv : (s.waitAtHeel n h).Waits n ⟨.heel a h d ws, since, k, .waiting⟩ :=
    ⟨hon.wf, (State.coreLive_iff ..).2 (.inr hstate), by rw [hcore]; exact hw.window, by rw [hcore]; exact hw.stream,
      by rw [hcore]; exact hw.ending, rfl, .inl rfl⟩
  have hasOf : ((s.waitAtHeel n h).core n).asOf = (s.core n).asOf := by rw [hcore]
  have hnowV : (s.waitAtHeel n h).now = s.now := hon.now oState_singleton_coreReg
  have hpackV := hon.packOf oState_singleton_coreReg
  refine hw.runWindow hj hfront hwv ?_ fun b y z l hb => ?_
  · rw [hwv.frontControl_waitingHeel ha hd he hm (hsame.legal hl) (by rw [hasOf, hpackV]; exact hs)
      (by rw [hasOf, hsame.heelTime]; exact ht) (by rw [hnowV, hpackV]; exact hnow), hself]
  · cases hb
    rw [hnowV, hpackV]
    exact hnow

/-- A ready core's heel that misses a flit waits in the window. -/
theorem State.Ready.exec_heel_waits (w : s.Wf) (hr : s.Ready a) (hl : s.LegalHeel a.core h d ws) (hnow : s.now ≤ s.packOf d)
    (ht : s.heelTime a.core h d ws s.now = none) :
    ∃ t, exec (.heel a h d ws) s = .next t ∧ t.cstate a.core = 3 ∧ coreOnly s t a.core [rCore a.core oState]
      ∧ (t.core a.core).window = [⟨.heel a h d ws, s.now, 0, .waiting⟩] := by
  obtain ⟨hon, hstate, hcore⟩ := s.waitAtHeel_spec w a.core h
  have hnowU : (s.waitAtHeel a.core h).now = s.now := hon.now oState_singleton_coreReg
  obtain ⟨hwait, honV, hcoreV, hstateV, hshow⟩ := State.enterWindow_spec hon.wf ((State.coreLive_iff ..).2 (.inr hstate))
    (by rw [hcore]; exact hr.alone.1) (by rw [hcore]; exact hr.alone.2) (c := .heel a h d ws) rfl (st := .waiting) (.inl rfl)
  have hexec := hr.unhindered.coreCmd_waitsAtHeel ((hr.control rfl rfl ..).trans (hl.heel_waits hnow ht hnow))
  rw [hnowU] at hwait hcoreV
  generalize (s.waitAtHeel a.core h).enterWindow a.core (.heel a h d ws) .waiting = v at hwait honV hcoreV hstateV hshow hexec
  have honS : OnCore a.core [rCore a.core oState] s v := hon.trans honV
  have hsame : SameHeel a.core s v := honS.sameHeel oState_singleton_coreReg (by rw [hcoreV, hcore])
  have hnowV : v.now = s.now := honS.now oState_singleton_coreReg
  have hmax : max s.now (v.core a.core).asOf = s.now := by
    rw [hcoreV, hcore]; exact max_eq_left hr.followed
  have hself : v.waitAtHeel a.core h = v := State.waitAtHeel_self hwait.wf (hstateV.trans hstate) fun hp => by
    rw [honS.pantsFor oState_singleton_coreReg] at hp
    rw [hcoreV, hcore, hp]
    exact Bool.or_true _
  obtain ⟨j, hj⟩ := hr.unhindered.exists_job
  have hrun : v.runWindow a.core false = v := by
    rw [hwait.runWindow_waitingHeel (honS.job.trans hj) rfl hr.defined hr.engines hr.errorFree.1 (hsame.legal hl)
      (by rw [hmax, hsame.packOf]; exact hnow) (by rw [hmax, hsame.heelTime]; exact ht) (by rw [hnowV, hsame.packOf]; exact hnow), hself, hshow]
  have hset : v.settle = v := by
    refine hwait.settle (honS.used ▸ hr.mem_used) hrun (fun k hk hkn => ?_) (fun k hk => ?_) fun y hy hend => ?_
    · rw [honS.only.2.2 k hkn]; exact hr.settled.noneWaits k (honS.used ▸ hk)
    · by_cases hkn : k = a.core
      · subst k; exact hwait.ending
      · rw [honS.only.2.2 k hkn]; exact hr.settled.noneEnds k (honS.used ▸ hk)
    · rw [hnowV, hsame.packOf]
      exact hr.settled.nothingDue y (honS.fab ▸ hy) hend
  refine ⟨v, ?_, hstateV.trans hstate, honS.only, hwait.window⟩
  rw [exec_stream rfl, hexec, hset]

end Sys2Proof.Machine
end

section
/-! SUPPORT. The halt of a core that has waited for its older commands (R130, R422, R423), and the end of a waiting heel's slot d (R139). -/

namespace Sys2Proof.Machine
open Sys2Proof

-- Proofs elaborated in threads of their own would pass the check's limit of memory.
set_option Elab.async false

variable {s t u : State} {a : Attr} {n k code reason tm : Nat} {noEff : Bool}

/-- A fold reaches the step at `n`: `P` holds until then, `Q` from then on. -/
theorem foldl_meets {α β : Type} {P Q : α → Prop} {f : α → β → α} {l : List β} {n : β} (hn : n ∈ l) {s : α} (hs : P s)
    (hbefore : ∀ k ∈ l, k ≠ n → ∀ s, P s → P (f s k)) (hat : ∀ s, P s → Q (f s n)) (hafter : ∀ k ∈ l, ∀ s, Q s → Q (f s k)) :
    Q (l.foldl f s) := by
  induction l generalizing s with
  | nil => cases hn
  | cons k l ih =>
    rw [List.foldl_cons]
    by_cases hk : k = n
    · subst k
      exact List.foldlRecOn (motive := Q) l f (hat s hs) fun s hq m hm => hafter m (List.mem_cons_of_mem _ hm) s hq
    · exact ih ((List.mem_cons.1 hn).resolve_left (Ne.symm hk)) (hbefore k List.mem_cons_self hk s hs)
        (fun m hm => hbefore m (List.mem_cons_of_mem _ hm)) fun m hm => hafter m (List.mem_cons_of_mem _ hm)

/-! ### What leaves a core alone -/

/-- Core `n` and its registers are in `t` as in `s`. -/
structure SameCore (n : Nat) (s t : State) : Prop where
  wf   : t.Wf
  core : t.core n = s.core n
  regs : ∀ r, ofCore n r → t.reg r = s.reg r

theorem SameCore.refl (w : s.Wf) (n : Nat) : SameCore n s s := ⟨w, rfl, fun _ _ => rfl⟩

theorem SameCore.trans (e : SameCore n s t) (k : SameCore n t u) : SameCore n s u :=
  ⟨k.wf, k.core.trans e.core, fun r hr => (k.regs r hr).trans (e.regs r hr)⟩

theorem SameCore.reg (e : SameCore n s t) {o : Nat} (ho : o < 0x2000 := by decide) : t.reg (rCore n o) = s.reg (rCore n o) :=
  e.regs _ (ofCore_rCore ho n)

theorem SameCore.cstate (e : SameCore n s t) : t.cstate n = s.cstate n := State.cstate_of_regs e.reg

theorem SameCore.coreLive (e : SameCore n s t) : t.coreLive n = s.coreLive n := by rw [State.coreLive, e.cstate]; rfl

theorem not_ofCore (h : k ≠ n) {r : Nat} (hr : ofCore n r) : ¬ ofCore k r := fun hk => h (by unfold ofCore at hr hk; omega)

/-! ### One core as its package stops -/

/-- Core `n` as its package stops for `code` (R263, R423): it is recorded and halts if it ran or waited. -/
def State.stopCore (s : State) (code n : Nat) : State := if s.coreLive n then (s.stopRecord code n).coreToHalted n else s

theorem State.stopCores_eq (s : State) (code : Nat) : s.stopCores code = s.used.foldl (fun s n => s.stopCore code n) s := rfl

theorem State.coreToHalted_spec (w : s.Wf) (n : Nat) : OnCore n [rCore n oState, rCore n oBank] s (s.coreToHalted n)
    ∧ ((s.coreToHalted n).core n).window = [] := by
  have h1 := (OnCore.refl w n [rCore n oState, rCore n oBank]).dropWindow (by simp)
  have h2 := h1.setCore (c := { (s.dropWindow n).core n with panting := (s.dropWindow n).fld rPwrPant 0 1 == 1 }) rfl
  refine ⟨(h2.bankRest (by simp)).setCfld (by simp) .., ?_⟩
  have hcore : (s.coreToHalted n).core n = { (s.dropWindow n).core n with panting := (s.dropWindow n).fld rPwrPant 0 1 == 1 } :=
    (State.bankRest_core ..).trans ((State.core_setCore h1.wf.cores ..).trans (if_pos rfl))
  have hdrop : (s.dropWindow n).core n = { s.core n with window := [], stream := [], ending := none } :=
    (State.core_setCore w.cores ..).trans (if_pos rfl)
  rw [hcore, hdrop]

theorem State.stopRecord_core (s : State) (code n k : Nat) : (s.stopRecord code n).core k = s.core k := by
  unfold State.stopRecord
  split
  · exact State.haltRecord_core ..
  · exact State.haltRecord_core ..
  · have hnext : (s.nextAttr n).2.core k = s.core k := by
      unfold State.nextAttr State.firstAttr
      split <;> rfl
    exact (State.haltRecord_core ..).trans hnext

/-- The stop of another core leaves core `n` alone. -/
theorem State.stopCore_other (w : s.Wf) (hk : k ≠ n) (code : Nat) : SameCore n s (s.stopCore code k) := by
  unfold State.stopCore
  split
  · have q := s.stopRecord_ofCore code k
    have e := (State.coreToHalted_spec (q.wf w) k).1
    refine ⟨e.wf, (e.only.2.2 n hk.symm).trans (s.stopRecord_core code k n), fun r hr => ?_⟩
    exact (((s.stopRecord code k).coreToHalted_ofCore k).regs (q.wf w) r (not_ofCore hk hr)).trans (q.regs w r (not_ofCore hk hr))
  · exact .refl w n

theorem State.cstate_stopCore (w : s.Wf) (hl : s.coreLive n = true) (code : Nat) : (s.stopCore code n).cstate n = 5 := by
  rw [State.stopCore, if_pos hl]
  exact (State.cstate_coreToHalted ((s.stopRecord_ofCore code n).wf w) n n).trans (if_pos rfl)

theorem State.window_stopCore (w : s.Wf) (hl : s.coreLive n = true) (code : Nat) : ((s.stopCore code n).core n).window = [] := by
  rw [State.stopCore, if_pos hl]
  exact (State.coreToHalted_spec ((s.stopRecord_ofCore code n).wf w) n).2

theorem State.stopCore_wf (w : s.Wf) (code n : Nat) : (s.stopCore code n).Wf := by
  unfold State.stopCore
  split
  · exact (State.coreToHalted_spec ((s.stopRecord_ofCore code n).wf w) n).1.wf
  · exact w

/-- A core about to halt halts with its own code, whatever its package stops for (R423; log entry 133). -/
theorem State.haltInfo_stopCore (w : s.Wf) (hl : s.coreLive n = true) (he : (s.core n).ending = some (.halt a code noEff tm))
    (hc : code < 2 ^ 16) (h0 : s.cfld n oHaltInfo 16 1 = 0) (reason : Nat) :
    (s.stopCore reason n).reg (rCore n oHaltInfo) = code + 2 ^ 16 + 2 ^ 17 + 2 ^ 18 * b2n noEff + 2 ^ 32 * (a.offset % 2 ^ 32) := by
  have hrec : s.stopRecord reason n = s.haltRecord n code true noEff a := by rw [State.stopRecord, he]
  have e := (State.coreToHalted_spec ((s.haltRecord_ofCore n code true noEff a).wf w) n).1
  rw [State.stopCore, if_pos hl, hrec, e.only.2.1 _ ?_, (State.haltRecord_spec w n true noEff a hc h0).1]
  · rfl
  · simp only [List.mem_cons, List.not_mem_nil, or_false, not_or]
    exact ⟨rCore_ne (by decide) (by decide) (by decide) _ _, rCore_ne (by decide) (by decide) (by decide) _ _⟩

/-! ### A core while its package stops -/

/-- Core `n` halts in `t` as it would halt in `s`. -/
def HaltsAs (reason n : Nat) (s t : State) : Prop := ∃ u, SameCore n s u ∧ SameCore n (u.stopCore reason n) t

theorem HaltsAs.before (e : SameCore n s t) (k : HaltsAs reason n t u) : HaltsAs reason n s u :=
  k.imp fun _ ⟨h1, h2⟩ => ⟨e.trans h1, h2⟩

theorem HaltsAs.after (e : HaltsAs reason n s t) (k : SameCore n t u) : HaltsAs reason n s u :=
  e.imp fun _ ⟨h1, h2⟩ => ⟨h1, h2.trans k⟩

theorem HaltsAs.cstate (e : HaltsAs reason n s t) (hl : s.coreLive n = true) : t.cstate n = 5 := by
  obtain ⟨u, h1, h2⟩ := e
  rw [h2.cstate, State.cstate_stopCore h1.wf (h1.coreLive.trans hl)]

theorem HaltsAs.window (e : HaltsAs reason n s t) (hl : s.coreLive n = true) : (t.core n).window = [] := by
  obtain ⟨u, h1, h2⟩ := e
  rw [h2.core, State.window_stopCore h1.wf (h1.coreLive.trans hl)]

theorem HaltsAs.haltInfo (e : HaltsAs reason n s t) (hl : s.coreLive n = true) (he : (s.core n).ending = some (.halt a code noEff tm))
    (hc : code < 2 ^ 16) (h0 : s.cfld n oHaltInfo 16 1 = 0) :
    t.reg (rCore n oHaltInfo) = code + 2 ^ 16 + 2 ^ 17 + 2 ^ 18 * b2n noEff + 2 ^ 32 * (a.offset % 2 ^ 32) := by
  obtain ⟨u, h1, h2⟩ := e
  rw [h2.reg, State.haltInfo_stopCore h1.wf (h1.coreLive.trans hl) (by rw [h1.core]; exact he) hc
    ((State.cfld_of_reg h1.reg ..).trans h0)]

theorem State.stopCores_haltsAs (w : s.Wf) (hn : n ∈ s.used) (hl : s.coreLive n = true) (code : Nat) : HaltsAs code n s (s.stopCores code) := by
  rw [State.stopCores_eq]
  refine foldl_meets (P := SameCore n s) (Q := HaltsAs code n s) hn (.refl w n)
    (fun k _ hk t e => e.trans (State.stopCore_other e.wf hk code)) (fun t e => ⟨t, e, .refl (State.stopCore_wf e.wf ..) n⟩) fun k _ t e => ?_
  by_cases hk : k = n
  · subst k
    have hdead : t.coreLive n = false := by rw [State.coreLive, e.cstate hl]; rfl
    rw [State.stopCore, if_neg (by rw [hdead]; decide)]
    exact e
  · obtain ⟨u, h1, h2⟩ := e
    exact ⟨u, h1, h2.trans (State.stopCore_other h2.wf hk code)⟩

theorem State.sendStop_portsOnly (s : State) (ports : List Nat) (origin reason time : Nat) :
    PortsOnly s (s.sendStop ports origin reason time) :=
  (PortsOnly.refl s).foldl fun _ e => (e.setPort ..).emit _

/-- A core that runs or waits as its package stops (R262, R263). -/
theorem State.stopAsOrigin_haltsAs (w : s.Wf) (hn : n ∈ s.used) (hl : s.coreLive n = true) (reason time : Nat) :
    HaltsAs reason n s (s.stopAsOrigin reason time) := by
  obtain ⟨r, hr⟩ : ∃ r, r = s.recordStop s.herdIndex reason time true := ⟨_, rfl⟩
  have hrec : SameCore n s r := by
    refine ⟨hr ▸ (s.recordStop_quiet ..).wf w, ?_, fun q hq => ?_⟩
    · rw [hr]
      unfold State.recordStop
      split
      · rfl
      · dsimp only
        split <;> rfl
    · rw [hr]
      refine State.recordStop_keeps w _ _ _ _ ?_
      simp only [List.mem_cons, List.not_mem_nil, or_false, not_or]
      exact ⟨ofCore_ne_low hq (by decide), ofCore_ne_low hq (by decide)⟩
  obtain ⟨p, hp⟩ : ∃ p, p = r.sendStop r.fabricUp r.herdIndex reason time := ⟨_, rfl⟩
  obtain ⟨q, hq⟩ : ∃ q, q = { p with fab := { p.fab with stopOut := true, issueStopped := true, haltedAt := some p.now } } := ⟨_, rfl⟩
  have hsent : PortsOnly r p := hp ▸ r.sendStop_portsOnly ..
  have wp : p.Wf := hp ▸ (State.sendStop_quiet (fun _ => False) r ..).wf hrec.wf
  have wq : q.Wf := hq ▸ (Quiet.setFab (fun _ => False) p _).wf wp
  have hpq : SameCore n r q := by
    refine ⟨wq, ?_, fun m _ => ?_⟩
    · rw [hq]; exact congrArg (fun c => mapGet coreDefault c n) hsent.cores
    · rw [hq]; exact hsent.reg m
  have hused : q.used = s.used := by
    rw [hq]
    exact (congrArg (fun j : Option Job => (j.map usedCores).getD []) hsent.job).trans (hr ▸ (s.recordStop_quiet ..).used)
  have hsq := hrec.trans hpq
  have he : s.stopAsOrigin reason time = (q.stopCores reason).enterHalted := by rw [hq, hp, hr]; rfl
  have wc := (q.stopCores_quiet reason).wf wq
  rw [he]
  refine .before hsq (.after (q.stopCores_haltsAs wq (hused ▸ hn) (hsq.coreLive.trans hl) reason) ⟨?_, ?_, fun m hm => ?_⟩)
  · exact (State.enterHalted_quiet _).wf wc
  · rw [State.core, State.enterHalted_cores]; rfl
  · refine State.enterHalted_regs wc ?_
    simp only [List.mem_cons, List.not_mem_nil, or_false, not_or]
    exact ⟨ofCore_ne_low hm (by decide), ofCore_ne_low hm (by decide)⟩

/-! ### The one halt that waits -/

/-- Core `n` is about to halt before command `a` with `code`, its older commands complete, and no other core is about to end. -/
structure State.EndsAlone (s : State) (n : Nat) (a : Attr) (code : Nat) (noEff : Bool) (tm : Nat) : Prop where
  wf     : s.Wf
  issues : s.issuing = true
  used   : n ∈ s.used
  live   : s.coreLive n = true
  ending : (s.core n).ending = some (.halt a code noEff tm)
  others : ∀ k ∈ s.used, k ≠ n → (s.core k).ending = none
  empty  : ∀ k ∈ s.used, (s.core k).window = []
  code   : code < 2 ^ 16

theorem State.used_nodup (s : State) : s.used.Nodup := by
  rw [State.used]
  cases s.job with
  | none => exact List.nodup_nil
  | some j => exact List.nodup_range.filter _

theorem filterMap_eq_singleton {α β : Type} {f : α → Option β} {l : List α} (hl : l.Nodup) {n : α} (hn : n ∈ l) {y : β} (hy : f n = some y)
    (ho : ∀ k ∈ l, k ≠ n → f k = none) : l.filterMap f = [y] := by
  obtain ⟨l1, l2, rfl⟩ := List.append_of_mem hn
  obtain ⟨-, hcons, hdis⟩ := List.nodup_append.1 hl
  have h1 : l1.filterMap f = [] := List.filterMap_eq_nil_iff.2 fun k hk =>
    ho k (List.mem_append_left _ hk) (hdis k hk n List.mem_cons_self)
  have h2 : l2.filterMap f = [] := List.filterMap_eq_nil_iff.2 fun k hk =>
    ho k (List.mem_append_right _ (List.mem_cons_of_mem _ hk)) fun e => (List.nodup_cons.1 hcons).1 (e ▸ hk)
  rw [List.filterMap_append, List.filterMap_cons, hy, h1, h2]
  rfl

theorem State.EndsAlone.ownHalts (h : s.EndsAlone n a code noEff tm) : s.ownHalts = [(n, code, tm)] := by
  refine filterMap_eq_singleton s.used_nodup h.used ?_ fun k hk hkn => ?_
  · rw [h.ending]
    exact if_pos h.live
  · rw [h.others k hk hkn]

theorem State.EndsAlone.running (h : s.EndsAlone n a code noEff tm) : s.running = true := by
  have hi := h.issues
  rw [State.issuing, Bool.and_eq_true] at hi
  exact hi.1

theorem State.EndsAlone.endHalts (h : s.EndsAlone n a code noEff tm) : s.endHalts
    = (s.noteFault code 0 n tm).stopAsOrigin ((s.noteFault code 0 n tm).fld rPfFault 0 16) ((s.noteFault code 0 n tm).reg rPfFaultTime) := by
  unfold State.endHalts State.noteHalts
  rw [h.ownHalts, h.running]
  rfl

theorem State.noteFault_sameCore (w : s.Wf) (n reason unit index time : Nat) : SameCore n s (s.noteFault reason unit index time) := by
  refine ⟨(s.noteFault_quiet ..).wf w, ?_, fun r hr => State.noteFault_keeps w _ _ _ _ ?_⟩
  · have hcores : (s.noteFault reason unit index time).cores = s.cores := by
      unfold State.noteFault
      split
      · exact (State.ibiBoth_keeps ..).2.2.2.1
      · dsimp only
        split <;> rfl
    rw [State.core, hcores]; rfl
  · simp only [List.mem_cons, List.not_mem_nil, or_false, not_or]
    exact ⟨ofCore_ne_low hr (by decide), ofCore_ne_low hr (by decide)⟩

/-- The first fault since LOAD enters PF_FAULT. -/
theorem State.noteFault_first (w : s.Wf) (h0 : s.fld rPfFault 16 1 = 0) (hr : reason < 2 ^ 16) (unit index time : Nat) :
    (s.noteFault reason unit index time).fld rPfFault 0 16 = reason := by
  have hreg : (s.noteFault reason unit index time).reg rPfFault = (s.recordFault reason unit index time 0).reg rPfFault := by
    unfold State.noteFault
    rw [if_pos h0, State.reg, (State.ibiBoth_keeps ..).1]; rfl
  rw [State.fld, hreg, State.recordFault, State.reg_setReg_ne ((Quiet.setReg s rPfFault _).wf w).regs (by decide),
    State.reg_setReg_same w.regs _ (by omega), bitsOf]
  omega

/-- What the package's stop for the one core's halt leaves of the cores and of the package. -/
theorem State.EndsAlone.stops (h : s.EndsAlone n a code noEff tm) : HaltsAs (s.endHalts.fld rPfFault 0 16) n s s.endHalts ∧ s.endHalts.bu = 7
    ∧ (∀ k ∈ s.used, s.endHalts.coreLive k = false) ∧ (s.fld rPfFault 16 1 = 0 → s.endHalts.fld rPfFault 0 16 = code) := by
  obtain ⟨u, hu⟩ : ∃ u, u = s.noteFault code 0 n tm := ⟨_, rfl⟩
  have hsame : ∀ k, SameCore k s u := fun k => hu ▸ State.noteFault_sameCore h.wf ..
  have hused : u.used = s.used := hu ▸ (s.noteFault_quiet ..).used
  obtain ⟨hbu, -, -, hstate, hregs, -, -⟩ := State.stopAsOrigin_spec (hsame n).wf (u.fld rPfFault 0 16) (u.reg rPfFaultTime)
  have hfault : (u.stopAsOrigin (u.fld rPfFault 0 16) (u.reg rPfFaultTime)).fld rPfFault 0 16 = u.fld rPfFault 0 16 := by
    rw [State.fld, hregs _ (by decide) (by decide)]; rfl
  rw [h.endHalts, ← hu, hfault]
  refine ⟨.before (hsame n) (State.stopAsOrigin_haltsAs (hsame n).wf (hused ▸ h.used) ((hsame n).coreLive.trans h.live) _ _), hbu, fun k hk => ?_,
    fun h0 => hu ▸ State.noteFault_first h.wf h0 h.code 0 n tm⟩
  rw [State.coreLive, hstate k, hused, (hsame k).coreLive]
  split
  · rfl
  · next hdead =>
    have hd : s.coreLive k = false := Bool.not_eq_true _ ▸ fun hl => hdead ⟨hk, hl⟩
    rw [(hsame k).cstate]; exact hd

theorem State.EndsAlone.quiet (h : s.EndsAlone n a code noEff tm) : Quiet faultReg s s.endHalts := by
  rw [h.endHalts]
  exact (s.noteFault_quiet ..).trans (State.stopAsOrigin_quiet ..)

theorem State.finishEnding_dead (hl : s.coreLive n = false) : s.finishEnding n = s := by
  unfold State.finishEnding
  dsimp only
  rw [hl, Bool.and_false]; rfl

/-- With pack time the one core that is about to halt does, and its package stops. -/
theorem State.EndsAlone.settle (h : s.EndsAlone n a code noEff tm) (hdue : ∀ y ∈ s.fab.held, y.atEndpoint = true → s.now < s.packOf y.due) :
    s.settle = s.endHalts := by
  obtain ⟨-, hbu, hdead, -⟩ := h.stops
  have hwaits : s.anyWaits = true := List.any_eq_true.2 ⟨n, h.used, by rw [h.ending, Option.isSome_some, Bool.or_true]⟩
  have hwin : s.used.foldl (fun s n => if (s.core n).window.isEmpty then s else s.runWindow n false) s = s :=
    List.foldlRecOn (motive := fun t => t = s) s.used _ rfl fun t ht k hk => by rw [ht, h.empty k hk]; rfl
  have hfin : s.used.foldl (fun s n => s.finishEnding n) s = s.endHalts := by
    refine foldl_meets (P := fun t => t = s) (Q := fun t => t = s.endHalts) h.used rfl (fun k hk hkn t ht => ?_) (fun t ht => ?_)
      fun k hk t ht => ?_
    · rw [ht, State.finishEnding]
      simp only [h.others k hk hkn]
      exact ite_self _
    · rw [ht, State.finishEnding]
      simp only [h.empty n h.used, h.live, h.ending]
      rfl
    · rw [ht]; exact State.finishEnding_dead (hdead k hk)
  have hsave : s.endHalts.saveEnd = s.endHalts := by
    have hstop : s.endHalts.issuing = false := by rw [State.issuing, State.running, hbu]; rfl
    unfold State.saveEnd
    split
    · rw [hstop]; rfl
    · rfl
  unfold State.settle
  rw [h.issues, hwaits]
  simp only [Bool.and_self, if_true, State.deliverDue_none hdue, hwin, hfin, hsave]

end Sys2Proof.Machine
end

section
/-! SUPPORT. The end of a waiting heel's slot d (R139). -/

namespace Sys2Proof.Machine
open Sys2Proof

-- Proofs elaborated in threads of their own would pass the check's limit of memory.
set_option Elab.async false

variable {s : State} {a : Attr} {n k h d since : Nat} {ws : List (Nat × Nat)} {x : WinCmd}

theorem exec_heelDeadline (hd : s.dark = false) (n : Nat) :
    exec (.heelDeadline n) s = .next (if s.issuing && s.coreLive n then s.heelDeadline n else s).settle := next_of_live hd

/-- A core that waits at no heel is left alone. -/
theorem exec_heelDeadline_idle (hd : s.dark = false) (hw : (s.core n).window = []) (ha : s.anyWaits = false) :
    exec (.heelDeadline n) s = .next s := by
  have hidle : s.heelDeadline n = s := by
    unfold State.heelDeadline
    rw [hw]; rfl
  have hset : s.settle = s := by
    unfold State.settle
    rw [ha, Bool.and_false]; rfl
  rw [exec_heelDeadline hd, hidle, ite_self, hset]

/-- Core `n` waits alone at a legal heel, and at the end of slot d a flit that it awaits has not come. -/
structure State.MissesFlit (s : State) (n : Nat) (a : Attr) (h d : Nat) (ws : List (Nat × Nat)) (since k : Nat) : Prop where
  wf      : s.Wf
  issues  : s.issuing = true
  used    : n ∈ s.used
  atHeel  : s.cstate n = 3
  unarmed : s.armed = false
  window  : (s.core n).window = [⟨.heel a h d ws, since, k, .waiting⟩]
  stream  : (s.core n).stream = []
  others  : ∀ m ∈ s.used, (s.core m).ending = none ∧ (m ≠ n → (s.core m).window = [])
  core    : a.core = n
  passes  : a.defined = true ∧ a.engines &&& absentEngines = 0 ∧ a.mem = { }
  legal   : s.LegalHeel n h d ws
  inTime  : max since (s.core n).asOf ≤ s.packOf d
  ahead   : s.now ≤ s.packOf d ∧ s.packOf d < 2 ^ 64
  notDue  : ∀ y ∈ s.fab.held, y.atEndpoint = true → s.packOf d < s.packOf y.due
  missing : s.heelTime n h d ws (max since (s.core n).asOf) = none

/-- Pack time as slot d ends. -/
theorem State.MissesFlit.now_end (m : s.MissesFlit n a h d ws since k) : (s.advanceTo (s.packOf d)).now = s.packOf d :=
  s.now_advanceTo m.wf m.ahead.1 m.ahead.2

theorem State.MissesFlit.waits (m : s.MissesFlit n a h d ws since k) :
    (s.advanceTo (s.packOf d)).Waits n ⟨.heel a h d ws, since, k, .waiting⟩ where
  wf := s.advanceTo_wf m.wf _
  live := (State.coreLive_iff ..).2 (.inr ((State.cstate_of_regs (s.advanceTo_reg m.wf _ (rCore_ne_low (by decide)))).trans m.atHeel))
  window := by rw [s.advanceTo_core]; exact m.window
  stream := by rw [s.advanceTo_core]; exact m.stream
  ending := by rw [s.advanceTo_core]; exact (m.others n m.used).1
  control := rfl
  waiting := .inl rfl

/-- The core still waits when slot d has ended. -/
theorem State.MissesFlit.runWindow (m : s.MissesFlit n a h d ws since k) : (s.advanceTo (s.packOf d)).runWindow n false
    = ((s.advanceTo (s.packOf d)).waitAtHeel n h).showWindow n := by
  have e := s.advanceTo_sameHeel m.wf n (s.packOf d)
  obtain ⟨hdef, heng, hmem⟩ := m.passes
  obtain ⟨j, hj⟩ := State.exists_job_of_used m.used
  refine m.waits.runWindow_waitingHeel (e.job.trans hj) m.core hdef heng hmem (e.legal m.legal) ?_ ?_ ?_
  · rw [s.advanceTo_core, e.packOf]; exact m.inTime
  · rw [s.advanceTo_core, e.heelTime]; exact m.missing
  · rw [m.now_end, e.packOf]

/-- The core as its heel fails: it is about to halt. -/
def State.atHeelEnd (s : State) (n : Nat) (a : Attr) (h d : Nat) : State :=
  (((s.advanceTo (s.packOf d)).waitAtHeel n h).showWindow n).endBefore n (.halt a cHeelTimeout false (s.packOf d))

/-- At the end of slot d no delivery falls due. -/
theorem State.MissesFlit.deliverDue (m : s.MissesFlit n a h d ws since k) :
    (s.advanceTo (s.packOf d)).deliverDue = s.advanceTo (s.packOf d) := by
  have e := s.advanceTo_sameHeel m.wf n (s.packOf d)
  refine State.deliverDue_none fun y hy hat => ?_
  rw [m.now_end, e.packOf]
  exact m.notDue y (e.fab ▸ hy) hat

/-- A heel still alone in the window after slot d has ended fails. -/
theorem State.heelDeadline_fails {y : State} (hs : (s.core n).window = [⟨.heel a h d ws, since, k, .waiting⟩])
    (hy : (s.advanceTo (s.packOf d)).deliverDue.runWindow n false = y) (he : (y.core n).ending = none) (hw : (y.core n).window = [x]) :
    s.heelDeadline n = y.heelFails a false := by
  unfold State.heelDeadline
  rw [hs]
  simp only [List.getLast?_singleton, hy, he, hw]
  rfl

/-- A heel alone in the window of an unarmed package fails with HEEL_TIMEOUT. -/
theorem State.heelFails_unarmed (h : s.armed = false) (hw : (s.core a.core).window = [x]) :
    s.heelFails a false = s.endBefore a.core (.halt a cHeelTimeout false s.now) := by
  unfold State.heelFails
  rw [h, hw]; rfl

theorem State.MissesFlit.atHeelEnd_spec (m : s.MissesFlit n a h d ws since k) :
    s.heelDeadline n = s.atHeelEnd n a h d ∧ OnCore n [rCore n oState] (s.advanceTo (s.packOf d)) (s.atHeelEnd n a h d)
      ∧ (s.atHeelEnd n a h d).cstate n = 3 ∧ ((s.atHeelEnd n a h d).core n).window = []
      ∧ ((s.atHeelEnd n a h d).core n).ending = some (.halt a cHeelTimeout false (s.packOf d)) := by
  have hw := m.waits
  obtain ⟨hon, hstate, hcore⟩ := State.waitAtHeel_spec hw.wf n h
  have hlive := (State.coreLive_iff ..).2 (.inr hstate)
  have hrun := (congrArg (fun s : State => s.runWindow n false) m.deliverDue).trans m.runWindow
  have hend : s.atHeelEnd n a h d
    = (((s.advanceTo (s.packOf d)).waitAtHeel n h).showWindow n).endBefore n (.halt a cHeelTimeout false (s.packOf d)) := rfl
  have honY := hon.showWindow (by simp)
  have hstateY : (((s.advanceTo (s.packOf d)).waitAtHeel n h).showWindow n).cstate n = 3 := by
    rw [State.showWindow_live hlive, State.cstate_setCfld_window hon.wf]; exact hstate
  have hcoreY : (((s.advanceTo (s.packOf d)).waitAtHeel n h).showWindow n).core n = ((s.advanceTo (s.packOf d)).waitAtHeel n h).core n := by
    rw [State.showWindow_live hlive]; rfl
  rw [hcore] at hcoreY
  generalize ((s.advanceTo (s.packOf d)).waitAtHeel n h).showWindow n = y at hrun hend honY hstateY hcoreY
  have hwinY : (y.core n).window = [⟨.heel a h d ws, since, k, .waiting⟩] := by rw [hcoreY]; exact hw.window
  have hnowY : y.now = s.packOf d := (honY.now oState_singleton_coreReg).trans m.now_end
  have hunarmed : y.armed = false := by
    rw [State.armed, State.fld, honY.reg_low oState_singleton_coreReg (by decide), s.advanceTo_reg m.wf _ (by decide)]
    exact m.unarmed
  have hcoreZ : (s.atHeelEnd n a h d).core n
      = { y.core n with window := [], ending := some (.halt a cHeelTimeout false (s.packOf d)) } := by
    rw [hend, State.endBefore, hwinY]
    exact (State.core_setCore honY.wf.cores ..).trans (if_pos rfl)
  refine ⟨?_, hend ▸ honY.setCore rfl, hend ▸ hstateY, by rw [hcoreZ], by rw [hcoreZ]⟩
  rw [State.heelDeadline_fails m.window hrun (by rw [hcoreY]; exact hw.ending) hwinY, hend, State.heelFails_unarmed hunarmed
    (by rw [m.core]; exact hwinY), m.core, hnowY]

/-- The heel fails as slot d ends, and its core is the one that is about to halt. -/
theorem State.MissesFlit.endsAlone (m : s.MissesFlit n a h d ws since k) :
    (s.atHeelEnd n a h d).EndsAlone n a 0x0503 false (s.packOf d) := by
  obtain ⟨-, hon, hstate, hwin, hend⟩ := m.atHeelEnd_spec
  have e := s.advanceTo_sameHeel m.wf n (s.packOf d)
  have hused : (s.atHeelEnd n a h d).used = s.used := hon.used.trans (congrArg (fun j : Option Job => (j.map usedCores).getD []) e.job)
  have hissues : (s.atHeelEnd n a h d).issuing = s.issuing := by
    rw [State.issuing, State.running, State.bu, State.fld, hon.reg_low oState_singleton_coreReg (by decide),
      s.advanceTo_reg m.wf _ (by decide), hon.stp, e.stp]
    rfl
  have hcore : ∀ i, i ≠ n → (s.atHeelEnd n a h d).core i = s.core i := fun i hi => (hon.only.2.2 i hi).trans (s.advanceTo_core ..)
  refine ⟨hon.wf, hissues.trans m.issues, hused ▸ m.used, (State.coreLive_iff ..).2 (.inr hstate), hend, fun i hi hin => ?_, fun i hi => ?_,
    by decide⟩
  · rw [hcore i hin]; exact (m.others i (hused ▸ hi)).1
  · by_cases hin : i = n
    · rw [hin]; exact hwin
    · rw [hcore i hin]; exact (m.others i (hused ▸ hi)).2 hin

/-- A heel that misses a flit at the end of slot d halts its core with HEEL_TIMEOUT. -/
theorem State.MissesFlit.exec_heelDeadline (m : s.MissesFlit n a h d ws since k) (hd : s.dark = false) :
    ∃ t, exec (.heelDeadline n) s = .next t ∧ t.cstate n = 5 ∧ (t.core n).window = [] ∧ t.mem = s.mem ∧ t.nv = s.nv
      ∧ (s.cfld n oHaltInfo 16 1 = 0 → t.cfld n oHaltInfo 0 16 = 0x0503 ∧ t.cfld n oHaltInfo 17 1 = 1 ∧ t.cfld n oHaltInfo 18 1 = 0)
      ∧ (s.fld rPfFault 16 1 = 0 → t.bu = 7 ∧ t.fld rPfFault 0 16 = 0x0503) := by
  obtain ⟨hfail, hon, hstate, -, hend⟩ := m.atHeelEnd_spec
  have hz := m.endsAlone
  have e := s.advanceTo_sameHeel m.wf n (s.packOf d)
  have hframe := s.advanceTo_frame (s.packOf d)
  have hregP : ∀ r, r ≠ rPfPackTime → (s.advanceTo (s.packOf d)).reg r = s.reg r := fun r hr => s.advanceTo_reg m.wf _ hr
  have hset := hz.settle fun y hy hat => by
    rw [hon.now oState_singleton_coreReg, hon.packOf oState_singleton_coreReg, m.now_end, e.packOf]
    rw [hon.fab, e.fab] at hy
    exact m.notDue y hy hat
  have hlive : s.coreLive n = true := (State.coreLive_iff ..).2 (.inr m.atHeel)
  have hexec : exec (.heelDeadline n) s = .next (s.atHeelEnd n a h d).endHalts := by
    rw [Machine.exec_heelDeadline hd, m.issues, hlive, Bool.and_self, if_pos rfl, hfail, hset]
  generalize s.atHeelEnd n a h d = z at *
  generalize s.advanceTo (s.packOf d) = p at *
  obtain ⟨hhalts, hbu, -, hfault⟩ := hz.stops
  have hinfo : z.cfld n oHaltInfo 16 1 = s.cfld n oHaltInfo 16 1 := by
    refine State.cfld_of_reg ((hon.only.2.1 _ ?_).trans (hregP _ (rCore_ne_low (by decide)))) 16 1
    exact List.mem_singleton.not.2 (rCore_ne (by decide) (by decide) (by decide) _ _)
  have hpf : z.fld rPfFault 16 1 = s.fld rPfFault 16 1 := by
    rw [State.fld, hon.reg_low oState_singleton_coreReg (by decide), hregP _ (by decide)]; rfl
  refine ⟨_, hexec, hhalts.cstate hz.live, hhalts.window hz.live, ?_, ?_, fun h0 => ?_, fun h0 => ⟨hbu, hfault (hpf.trans h0)⟩⟩
  · rw [hz.quiet.mem, hon.only.1, hframe]
  · rw [hz.quiet.nv, hon.only.1, hframe]
  · have hreg := hhalts.haltInfo hz.live hend (by decide) (hinfo.trans h0)
    have hcode : cHeelTimeout = 0x0503 := rfl
    have hb : b2n false = 0 := rfl
    simp only [State.cfld, State.fld, hreg, bitsOf, hcode, hb]
    omega

/-- Settles O21: a heel fails its check, retires with its flits or waits for them; at the end of slot d it fails. -/
theorem heelWaitsForItsFlits : Obligations.HeelWaitsForItsFlits := by
  unfold Obligations.HeelWaitsForItsFlits
  refine ⟨fun a h d ws s w hr hs => ⟨fun hbad => hr.exec_fails w rfl rfl (State.heel_bad hs hbad),
    fun hord hspan hwaits hnow hwide hc hn => ?_⟩, fun n s w hd => ⟨exec_heelDeadline_idle hd, ?_⟩⟩
  · have hl : s.LegalHeel a.core h d ws := ⟨hs, hord, hspan, hwaits⟩
    refine ⟨fun tm ht => ?_, hr.exec_heel_waits w hl hnow⟩
    obtain ⟨hge, hslot, hle, hflits⟩ := State.heelTime_some ht
    exact ⟨hge, hslot, hle, hflits, hr.exec_heel_retires w hl hnow hwide hc hn ht⟩
  · intro a h d ws since k hi hu hst harm hwin hstream hoth hcore hdef heng hmem hs hord hspan hwaits hin hnow hlt hdue hmiss
    exact State.MissesFlit.exec_heelDeadline ⟨w, hi, hu, hst, harm, hwin, hstream, hoth, hcore, ⟨hdef, heng, hmem⟩,
      ⟨hs, hord, hspan, hwaits⟩, hin, ⟨hnow, hlt⟩, hdue, hmiss⟩ hd

end Sys2Proof.Machine
end

section
/-! SUPPORT. A vector command that writes data SRAM (Table 5.3), and what FLUTTER writes there (R165, Table 6.7). -/

namespace Sys2Proof.Machine
open Sys2Proof

-- Proofs elaborated in threads of their own would pass the check's limit of memory.
set_option Elab.async false

variable {s t : State} {a : Attr} {j : Job} {c : Instr} {off : Nat} {bs : List Byte}

/-! ### A command that writes one run of SRAM -/

/-- A ready command whose SRAM ranges are in order passes every check of class All. -/
theorem State.Ready.checked_ranges (h : s.Ready a) {rs : List (Nat × Nat)} (hr : sramOk rs = true) (k : State → State) :
    s.checked a rs k = k s := by
  rw [← h.checked k, State.checked, State.checked, hr]
  rfl

/-- What a command leaves that writes `bs` to SRAM and retires. -/
theorem State.sramResult_retire (w : s.Wf) (a : Attr) (off : Nat) (bs : List Byte) :
    sramResult s ((s.sramWrite a.core off bs).retire a) a off bs := by
  have e := (Undisturbed.refl w).sramWrite a.core off bs
  have hon : OnCore a.core (retireRegs a.core) s (s.sramWrite a.core off bs) :=
    ⟨e.wf, rfl, fun _ _ => rfl, fun k hk => (State.core_setCore w.cores ..).trans (if_neg hk)⟩
  refine ⟨e.retired a, (hon.retire fun _ => id).only, ?_, State.sramRead_sramWrite w .., fun k hk => ?_⟩
  · have hcore : ((s.sramWrite a.core off bs).retire a).core a.core = CoreSt.noteFeed _ _ :=
      (State.core_setCore w.cores ..).trans (if_pos rfl)
    rw [hcore, CoreSt.noteFeed_eq]
  · exact (State.sram_sramWrite w.cores (w.core a.core) off bs k).trans (if_neg (by omega))

/-- A ready command of an engine whose effect is one write of SRAM. -/
theorem State.Ready.exec_writesSram (w : s.Wf) (h : s.Ready a) (hj : s.job = some j) (hc : streamAttr c = some a)
    (hs : serialises c = false) (hu : s.unblocked a.core c = true) (hp : s.perform j c = s.sramWrite a.core off bs) :
    ∃ t, exec c s = .next t ∧ sramResult s t a off bs := by
  refine ⟨_, ?_, State.sramResult_retire w a off bs⟩
  rw [exec_stream hc]
  exact h.coreCmd_retires hj hs hu hp ((Undisturbed.refl w).sramWrite ..)

/-- The bytes that a command wrote, one by one. -/
theorem sramResult.byte (h : sramResult s t a off bs) {k : Nat} (hk : k < bs.length) :
    mapGet memDefault (t.core a.core).sram (off + k) = bs[k] := by
  obtain ⟨-, -, -, hread, -⟩ := h
  have hrun : mapGetRun memDefault (t.core a.core).sram off bs.length = bs := hread
  rw [List.getElem_of_eq hrun.symm hk]
  simp [mapGetRun]

/-! ### The operands of FLUTTER -/

section
variable {dom id draw e0 n thr dst : Nat} {mode : FltMode} {key : BitVec 128} {dr th : Nat}

/-- A user FLUTTER uses the user key and its own DRAW and threshold; one of a site uses the dropout key and the site's. -/
theorem Job.flutterUse_some
    (hu : (dom = domUser ∧ key = j.userKey ∧ dr = draw ∧ th = thr) ∨ (dom = domDropout ∧ key = j.dropKey
      ∧ ∃ x, j.sites.find? (fun x => x.index == id) = some x ∧ dr = x.draw ∧ th = x.t)) :
    j.flutterUse dom id draw thr = some (key, id, dr, th) := by
  rcases hu with ⟨rfl, rfl, rfl, rfl⟩ | ⟨rfl, rfl, x, hx, rfl, rfl⟩
  · rfl
  · rw [Job.flutterUse, if_pos rfl, hx]; rfl

/-- No other domain, and no site that does not exist, has a use. -/
theorem Job.flutterUse_none
    (hu : (dom ≠ domDropout ∧ dom ≠ domUser) ∨ (dom = domDropout ∧ j.sites.find? (fun x => x.index == id) = none)) :
    j.flutterUse dom id draw thr = none := by
  rcases hu with ⟨hd, hu⟩ | ⟨rfl, hx⟩
  · rw [Job.flutterUse, if_neg hd, if_neg hu]
  · rw [Job.flutterUse, if_pos rfl, hx]; rfl

/-! ### The effect of FLUTTER -/

/-- The generator's values for elements `e0` to `e0 + n - 1` of the step. -/
def State.flutterLanes (s : State) (key : BitVec 128) (id dom draw e0 n : Nat) : List Nat :=
  (List.range n).map (fun i => fltValue (quadOf key) id s.stp.step dom draw (e0 + i))

theorem State.flutterCmd_badUse (hu : j.flutterUse dom id draw thr = none) :
    s.flutterCmd a j dom id draw e0 n mode thr dst = s.checkFail a 0x0102 := by
  rw [State.flutterCmd, hu]; rfl

theorem State.flutterCmd_noThreshold (hu : j.flutterUse dom id draw thr = some (key, id, dr, 0)) :
    s.flutterCmd a j dom id draw e0 n .mask thr dst = s.checkFail a 0x0102 := by
  rw [State.flutterCmd, hu]; rfl

theorem State.flutterCmd_writes (hu : j.flutterUse dom id draw thr = some (key, id, dr, th)) (ht : mode = .mask → 0 < th) :
    s.flutterCmd a j dom id draw e0 n mode thr dst = s.sramWrite a.core dst
      (flutterOut mode th (s.flutterLanes key id dom dr e0 n) (s.sramRead a.core dst (flutterBytes mode n))) := by
  have hpass : ¬ (mode = .mask ∧ th = 0) := fun h => (ht h.1).ne' h.2
  rw [State.flutterCmd, hu]
  exact if_neg hpass

theorem State.Ready.perform_flutter (h : s.Ready a) (hr : sramOk [(dst, flutterBytes mode n)] = true) :
    s.perform j (.flutter a dom id draw e0 n mode thr dst) = s.flutterCmd a j dom id draw e0 n mode thr dst :=
  h.checked_ranges hr _

/-- FLUTTER that passes its checks writes its results. -/
theorem State.Ready.exec_flutter_writes (w : s.Wf) (h : s.Ready a) (hj : s.job = some j)
    (hr : sramOk [(dst, flutterBytes mode n)] = true) (hu : j.flutterUse dom id draw thr = some (key, id, dr, th))
    (ht : mode = .mask → 0 < th) :
    ∃ t, exec (.flutter a dom id draw e0 n mode thr dst) s = .next t ∧ sramResult s t a dst
      (flutterOut mode th (s.flutterLanes key id dom dr e0 n) (s.sramRead a.core dst (flutterBytes mode n))) :=
  h.exec_writesSram w hj rfl rfl rfl ((h.perform_flutter hr).trans (State.flutterCmd_writes hu ht))

/-- FLUTTER whose operands are bad halts its core. -/
theorem State.Ready.exec_flutter_fails (w : s.Wf) (h : s.Ready a) (hj : s.job = some j)
    (hr : sramOk [(dst, flutterBytes mode n)] = true)
    (hf : s.flutterCmd a j dom id draw e0 n mode thr dst = s.checkFail a 0x0102) :
    exec (.flutter a dom id draw e0 n mode thr dst) s = .next (s.checkFail a 0x0102) := by
  rw [exec_stream rfl]
  exact h.coreCmd_fails w hj rfl rfl ((h.perform_flutter hr).trans hf) (by decide)

end

/-! ### The bits of a mask -/

/-- The number whose bits are `b 0`, `b 1`, …: its value is in range and each bit reads back. -/
theorem bitsOf_foldl_bits {b : Nat → Nat} : ∀ {n : Nat}, (∀ i < n, b i < 2) →
    (List.range n).foldl (fun m i => m + 2 ^ i * b i) 0 < 2 ^ n
      ∧ ∀ i < n, bitsOf ((List.range n).foldl (fun m i => m + 2 ^ i * b i) 0) i 1 = b i
  | 0, _ => ⟨Nat.one_pos, nofun⟩
  | n + 1, hb => by
    obtain ⟨hlt, hbits⟩ := bitsOf_foldl_bits fun i hi => hb i (Nat.lt_succ_of_lt hi)
    have hn := hb n (Nat.lt_succ_self n)
    rw [List.range_succ, List.foldl_append, List.foldl_cons, List.foldl_nil]
    generalize (List.range n).foldl (fun m i => m + 2 ^ i * b i) 0 = m at hlt hbits
    refine ⟨?_, fun i hi => ?_⟩
    · calc m + 2 ^ n * b n < 2 ^ n + 2 ^ n * 1 := Nat.add_lt_add_of_lt_of_le hlt (Nat.mul_le_mul_left _ (by omega))
        _ = 2 ^ (n + 1) := by ring
    · rcases Nat.lt_succ_iff_lt_or_eq.1 hi with hi | rfl
      · obtain ⟨d, rfl⟩ := Nat.exists_eq_add_of_lt hi
        have hsplit : m + 2 ^ (i + d + 1) * b (i + d + 1) = m + 2 ^ i * (2 * (2 ^ d * b (i + d + 1))) := by ring
        rw [← hbits i hi, bitsOf, bitsOf, hsplit, Nat.add_mul_div_left _ _ (by positivity), pow_one, Nat.add_mul_mod_self_left]
      · simpa [Nat.add_comm] using bitsOf_sum (hi := 0) (lo := i) (w := 1) hn hlt

/-- Bit `i` of byte `k` of a mask: its lane's, or beyond the mask what `old` holds. -/
def maskBit (thr : Nat) (lanes : List Nat) (old : List Byte) (k i : Nat) : Nat :=
  match lanes[8 * k + i]? with
  | some l => b2n (decide (l < thr))
  | none => bitsOf (old.getD k 0).toNat i 1

theorem maskBit_lt (thr : Nat) (lanes : List Nat) (old : List Byte) (k i : Nat) : maskBit thr lanes old k i < 2 := by
  unfold maskBit
  split
  · unfold b2n; split <;> decide
  · exact bitsOf_lt ..

theorem maskBit_of_lane {thr l k i : Nat} {lanes : List Nat} (h : lanes[8 * k + i]? = some l) (old : List Byte) :
    maskBit thr lanes old k i = b2n (decide (l < thr)) := by
  rw [maskBit, h]

/-- The bytes of a mask by their bits. -/
theorem flutterOut_mask (thr : Nat) (lanes : List Nat) (old : List Byte) :
    flutterOut .mask thr lanes old = (List.range (ceilDiv lanes.length 8)).map (fun k =>
      BitVec.ofNat 8 ((List.range 8).foldl (fun m i => m + 2 ^ i * ((List.range 8).map (maskBit thr lanes old k)).getD i 0) 0)) :=
  rfl

theorem length_flutterOut_mask (thr : Nat) (lanes : List Nat) (old : List Byte) :
    (flutterOut .mask thr lanes old).length = ceilDiv lanes.length 8 := by
  rw [flutterOut_mask, List.length_map, List.length_range]

theorem bitsOf_flutterOut_mask (thr : Nat) (lanes : List Nat) (old : List Byte) {k i : Nat}
    (hk : k < (flutterOut .mask thr lanes old).length) (hi : i < 8) :
    bitsOf (flutterOut .mask thr lanes old)[k].toNat i 1 = maskBit thr lanes old k i := by
  have hget : ∀ i < 8, ((List.range 8).map (maskBit thr lanes old k)).getD i 0 = maskBit thr lanes old k i := fun i hi => by
    simp [hi]
  obtain ⟨hlt, hbits⟩ := bitsOf_foldl_bits (n := 8) fun i hi => (hget i hi).trans_lt (maskBit_lt thr lanes old k i)
  rw [← hget i hi, ← hbits i hi, List.getElem_of_eq (flutterOut_mask ..), List.getElem_map, List.getElem_range, BitVec.toNat_ofNat,
    Nat.mod_eq_of_lt hlt]

/-- Settles O30: the checks passed, FLUTTER is one write of its lanes in their mode; in MASK mode bit i of the bytes is lane i's. -/
theorem flutterWritesItsLanes : Obligations.FlutterWritesItsLanes := by
  unfold Obligations.FlutterWritesItsLanes
  refine fun a dom id draw e0 n thr dst mode j s w h hj hr => ⟨fun key dr th hu => ?_, fun hbad =>
    h.exec_flutter_fails w hj hr (State.flutterCmd_badUse (Job.flutterUse_none hbad))⟩
  have huse := Job.flutterUse_some hu
  refine ⟨?_, ?_, ?_, ?_⟩
  · rintro rfl
    simpa only [flutterOut, State.flutterLanes, List.flatMap_map] using h.exec_flutter_writes (e0 := e0) w hj hr huse nofun
  · rintro rfl
    simpa only [flutterOut, State.flutterLanes, List.flatMap_map] using h.exec_flutter_writes (e0 := e0) w hj hr huse nofun
  · rintro rfl hth
    obtain ⟨t, he, hres⟩ := h.exec_flutter_writes (e0 := e0) w hj hr huse fun _ => hth
    have hlanes : (s.flutterLanes key id dom dr e0 n).length = n := by simp [State.flutterLanes]
    have hlen := length_flutterOut_mask th (s.flutterLanes key id dom dr e0 n) (s.sramRead a.core dst (flutterBytes .mask n))
    rw [hlanes] at hlen
    have ⟨hret, honly, _, _, hother⟩ := hres
    refine ⟨t, he, hret, honly, fun i hi => ?_, fun k hk => hother k (by rwa [hlen])⟩
    have hk : i / 8 < ceilDiv n 8 := by unfold ceilDiv; omega
    have hlane : (s.flutterLanes key id dom dr e0 n)[8 * (i / 8) + i % 8]?
        = some (fltValue (quadOf key) id s.stp.step dom dr (e0 + i)) := by
      simp [State.flutterLanes, Nat.div_add_mod, hi]
    rw [hres.byte (hlen ▸ hk), bitsOf_flutterOut_mask _ _ _ _ (by omega), maskBit_of_lane hlane]
  · rintro rfl rfl
    exact h.exec_flutter_fails w hj hr (State.flutterCmd_noThreshold huse)

end Sys2Proof.Machine
end

section
/-! SUPPORT. A change of some registers alone; the slots of MEM_CHRY_STAT (R201, R298, Table 7.4). -/

namespace Sys2Proof.Machine
open Sys2Proof

-- Proofs elaborated in threads of their own would pass the check's limit of memory.
set_option Elab.async false

variable {s t u : State} {R : List Nat} {i k v : Nat}

/-! ### Changes of registers alone -/

/-- From `s` to `t` only registers of `R` have changed. A proof follows the operation, as with `Keeps`. -/
structure OnRegs (R : List Nat) (s t : State) : Prop where
  wf   : t.Wf
  only : regsOnly s t R

theorem OnRegs.refl (w : s.Wf) (R : List Nat) : OnRegs R s s := ⟨w, rfl, fun _ _ => rfl⟩

theorem OnRegs.setReg (h : OnRegs R s t) {a : Nat} (ha : a ∈ R := by decide) {x : Nat} : OnRegs R s (t.setReg a x) := by
  obtain ⟨hframe, hregs⟩ := h.only
  refine ⟨(Quiet.setReg t a x).wf h.wf, by rw [State.setReg, hframe], fun r hr => ?_⟩
  exact (State.reg_setReg_ne h.wf.regs (fun e : r = a => hr (e ▸ ha)) x).trans (hregs r hr)

theorem OnRegs.setFld (h : OnRegs R s t) {a : Nat} (ha : a ∈ R := by decide) {lo l x : Nat} : OnRegs R s (t.setFld a lo l x) :=
  h.setReg ha

theorem OnRegs.addFld (h : OnRegs R s t) {a : Nat} (ha : a ∈ R := by decide) {lo l x : Nat} : OnRegs R s (t.addFld a lo l x) :=
  h.setReg ha

theorem OnRegs.ite {c : Prop} [Decidable c] (h : OnRegs R s t) (k : OnRegs R s u) : OnRegs R s (if c then t else u) := by
  split
  · exact h
  · exact k

theorem OnRegs.when {c : Prop} [Decidable c] (h : OnRegs R s t) (k : OnRegs R s t → OnRegs R s u) :
    OnRegs R s (if c then u else t) := .ite (k h) h

theorem OnRegs.reg (h : OnRegs R s t) {r : Nat} (hr : r ∉ R) : t.reg r = s.reg r := h.only.2 r hr

theorem OnRegs.fld (h : OnRegs R s t) {r : Nat} (hr : r ∉ R) (lo l : Nat) : t.fld r lo l = s.fld r lo l := by
  rw [State.fld, h.reg hr]; rfl

/-! ### The slots -/

theorem State.slotState_of_reg (h : t.reg rMemChryStat = s.reg rMemChryStat) (k : Nat) : t.slotState k = s.slotState k := by
  rw [State.slotState, State.fld, h]; rfl

/-- A slot's new state, and that of the other slot. -/
theorem State.slotState_setFld (w : s.Wf) (hk : k < 2) (hi : i < 2) (x : Nat) :
    (s.setFld rMemChryStat (2 * k) 2 x).slotState i = if i = k then x % 4 else s.slotState i := by
  split
  · subst i; exact State.fld_setFld_same w.regs (by omega) ..
  · exact State.fld_setFld_disjoint w.regs (by omega) (by omega) ..

theorem State.versionsAgree_iff : s.versionsAgree k = true ↔
    s.fld rPfDiverge 48 1 = 0 ∧ ∀ v ∈ (getAssoc s.stp.chryNeed k).getD [], v ∈ s.stp.compared := by
  simp [State.versionsAgree]

/-! ### CHRYSALIS_READY -/

/-- What an EVENT record leaves: everything but the registers, the ports, the Hostlink engine and the outbox. -/
theorem State.event_frame (s : State) (ev code core step value : Nat) : s.event ev code core step value
    = { s with regs := (s.event ev code core step value).regs, ports := (s.event ev code core step value).ports
               hl := (s.event ev code core step value).hl, outbox := (s.event ev code core step value).outbox } := by
  have hsent : ∀ hl x, PortsOnly { s with hl } x
      → x = { s with regs := x.regs, ports := x.ports, hl := x.hl, outbox := x.outbox } := fun hl x h => by
    rw [PortsOnly] at h
    rw [h]
  unfold State.event
  dsimp only
  split
  · split
    · exact hsent _ _ ((PortsOnly.refl _).request ..)
    · rfl
  · rfl

/-- A slot that is complete becomes READY, and an EVENT record says so. -/
theorem State.chryReady_complete (hk : k < 2) (hr : s.running = true) (hs : s.slotState k = 1) (ha : s.versionsAgree k = true) :
    s.chryReady k = (s.setFld rMemChryStat (2 * k) 2 2).event 3 0 0xFFFF ((getAssoc s.stp.chryStep k).getD 0) k := by
  unfold State.chryReady
  exact if_pos ⟨hk, hr, hs, ha⟩

/-- Out of RUN, after a divergence, or with a version still to be compared, a slot keeps its state. -/
theorem State.chryReady_waits (h : s.running = false ∨ s.versionsAgree k = false) : s.chryReady k = s := by
  unfold State.chryReady
  refine if_neg fun ⟨_, hr, _, ha⟩ => ?_
  rcases h with e | e
  · rw [hr] at e; cases e
  · rw [ha] at e; cases e

theorem State.versionsAgree_eq_false
    (h : s.fld rPfDiverge 48 1 = 1 ∨ ∃ v ∈ (getAssoc s.stp.chryNeed k).getD [], v ∉ s.stp.compared) : s.versionsAgree k = false := by
  rw [Bool.eq_false_iff, Ne, State.versionsAgree_iff]
  rintro ⟨hdiv, hall⟩
  rcases h with e | ⟨v, hv, hn⟩
  · rw [hdiv] at e; cases e
  · exact hn (hall v hv)

theorem exec_chrysalisReady (hd : s.dark = false) (k : Nat) : exec (.chrysalisReady k) s = .next (s.chryReady k) := next_of_live hd

/-- The complete slot is READY; the other slot, memory, cores and fuses are as before. -/
theorem State.chryReady_spec (w : s.Wf) (hk : k < 2) (hr : s.running = true) (hs : s.slotState k = 1) (ha : s.versionsAgree k = true) :
    (s.chryReady k).slotState k = 2 ∧ (s.chryReady k).slotState (1 - k) = s.slotState (1 - k)
      ∧ (s.chryReady k).mem = s.mem ∧ (s.chryReady k).cores = s.cores ∧ (s.chryReady k).nv = s.nv := by
  have hset : OnRegs [rMemChryStat] s (s.setFld rMemChryStat (2 * k) 2 2) := (OnRegs.refl w _).setFld
  have hev := State.event_spec hset.wf 3 0 0xFFFF ((getAssoc s.stp.chryStep k).getD 0) k
  have hslot := State.slotState_of_reg (hev.regs rMemChryStat (by decide))
  rw [State.chryReady_complete hk hr hs ha]
  refine ⟨?_, ?_, hev.mem, hev.cores, ?_⟩
  · rw [hslot, State.slotState_setFld w hk hk, if_pos rfl]
  · rw [hslot, State.slotState_setFld w hk (by omega), if_neg (by omega)]
  · rw [State.event_frame]; rfl

/-! ### MEM_CHRY_REL -/

/-- What a write of MEM_CHRY_REL does to one slot. -/
def State.freeSlot (s : State) (v k : Nat) : State :=
  if bitsOf v k 1 = 1 ∧ s.slotState k = 2 then s.setFld rMemChryStat (2 * k) 2 0 else s

theorem State.chryRel_eq (s : State) (v : Nat) : s.chryRel v = (s.freeSlot v 0).freeSlot v 1 := rfl

theorem OnRegs.freeSlot (h : OnRegs [rMemChryStat] s t) : OnRegs [rMemChryStat] s (t.freeSlot v k) := h.when (·.setFld)

/-- A slot is freed where it is READY and named. -/
theorem State.slotState_freeSlot (w : s.Wf) (hk : k < 2) (hi : i < 2) : (s.freeSlot v k).slotState i =
    if i = k ∧ bitsOf v i 1 = 1 ∧ s.slotState i = 2 then 0 else s.slotState i := by
  unfold State.freeSlot
  split
  · next h =>
    rw [State.slotState_setFld w hk hi]
    by_cases hik : i = k
    · subst i; rw [if_pos rfl, if_pos ⟨rfl, h⟩]
    · rw [if_neg hik, if_neg fun e => hik e.1]
  · next h =>
    rw [if_neg]
    rintro ⟨rfl, e⟩
    exact h e

theorem State.chryRel_spec (w : s.Wf) (v : Nat) : regsOnly s (s.chryRel v) [rMemChryStat]
    ∧ ∀ i < 2, (s.chryRel v).slotState i = if bitsOf v i 1 = 1 ∧ s.slotState i = 2 then 0 else s.slotState i := by
  have h0 : OnRegs [rMemChryStat] s (s.freeSlot v 0) := (OnRegs.refl w _).freeSlot
  rw [State.chryRel_eq]
  refine ⟨h0.freeSlot.only, fun i hi => ?_⟩
  rw [State.slotState_freeSlot h0.wf (by decide) hi, State.slotState_freeSlot w (by decide) hi]
  obtain rfl | rfl : i = 0 ∨ i = 1 := by omega
  · simp
  · simp

theorem exec_memChryRel (hd : s.dark = false) (hm : s.memReady = true) (v : W64) :
    exec (.memChryRel v) s = .next (s.chryRel v.toNat) :=
  (next_of_live hd).trans (congrArg _ (if_pos hm))

/-- Settles O46: a slot becomes READY with its last comparison and not before; a write of MEM_CHRY_REL frees the READY slots it names. -/
theorem chrysalisSlots : Obligations.ChrysalisSlots := by
  unfold Obligations.ChrysalisSlots
  refine fun k v s w hd => ⟨fun hk hr hs hdiv hall => ?_, fun h => ?_, fun hm => ?_⟩
  · exact ⟨_, exec_chrysalisReady hd k, State.chryReady_spec w hk hr hs (State.versionsAgree_iff.2 ⟨hdiv, hall⟩)⟩
  · rw [exec_chrysalisReady hd, State.chryReady_waits (h.imp_right State.versionsAgree_eq_false)]
  · exact ⟨_, exec_memChryRel hd hm v, State.chryRel_spec w v.toNat⟩

end Sys2Proof.Machine
end

section
/-! SUPPORT. A step origin at which the STEP record of the ending step is one too many (R190, R344, Table 12.12): the package stops with
CQ_OVERRUN in its decision, and the next step does not begin. -/

namespace Sys2Proof.Machine
open Sys2Proof

-- Proofs elaborated in threads of their own would pass the check's limit of memory.
set_option Elab.async false

variable {s t : State} {j : Job}

/-! ### What a package that stops holds back -/

theorem State.haltRecord_fab (s : State) (n code : Nat) (own noEff : Bool) (a : Attr) :
    (s.haltRecord n code own noEff a).fab = s.fab := by
  unfold State.haltRecord; split <;> rfl

theorem State.stopRecord_fab (s : State) (code n : Nat) : (s.stopRecord code n).fab = s.fab := by
  unfold State.stopRecord
  split
  · exact State.haltRecord_fab ..
  · exact State.haltRecord_fab ..
  · exact (State.haltRecord_fab ..).trans (s.nextAttr_fab n)

theorem State.bankRest_fab (s : State) (n : Nat) : (s.bankRest n).fab = s.fab := by
  unfold State.bankRest
  dsimp only
  split <;> split <;> rfl

theorem State.coreToHalted_fab (s : State) (n : Nat) : (s.coreToHalted n).fab = s.fab :=
  State.bankRest_fab ((s.dropWindow n).setCore n _) n

theorem State.stopCores_fab (s : State) (code : Nat) : (s.stopCores code).fab = s.fab :=
  foldl_keep State.fab (fun s n => by
    split
    · exact (State.coreToHalted_fab ..).trans (s.stopRecord_fab code n)
    · rfl) _ s

theorem State.dropJobDescs_fab (s : State) : s.dropJobDescs.fab = s.fab := by
  unfold State.dropJobDescs
  refine (foldl_keep State.fab ?_ _ _).trans ((foldl_keep State.fab ?_ _ _).trans
    ((foldl_keep State.fab ?_ _ _).trans (foldl_keep State.fab ?_ _ _)))
  · exact fun _ _ => rfl
  · exact fun _ _ => rfl
  · exact fun s r => foldl_keep State.fab (f := fun s d => s.decideDesc d.1 d.2.1 cDescNoJob 0 false) (fun _ _ => rfl) r.descs s
  · exact fun _ _ => rfl

theorem State.enterHalted_fab (s : State) : s.enterHalted.fab = s.fab := s.dropJobDescs_fab

theorem State.recordStop_fab (s : State) (origin reason time : Nat) (loc : Bool) : (s.recordStop origin reason time loc).fab = s.fab := by
  unfold State.recordStop
  split
  · rfl
  · dsimp only
    split <;> rfl

/-- A package that stops keeps the flits that it holds. -/
theorem State.stopAsOrigin_held (s : State) (reason time : Nat) : (s.stopAsOrigin reason time).fab.held = s.fab.held := by
  unfold State.stopAsOrigin
  extract_lets r p src q
  have hp : p.fab = r.fab := by
    have h : PortsOnly r p := r.sendStop_portsOnly ..
    rw [h]
  have hr : r.fab = s.fab := s.recordStop_fab ..
  calc (q.stopCores reason).enterHalted.fab.held = (q.stopCores reason).fab.held := by rw [State.enterHalted_fab]
    _ = p.fab.held := by rw [State.stopCores_fab]
    _ = s.fab.held := by rw [hp, hr]

theorem State.noteFault_fab (s : State) (reason unit index time : Nat) : (s.noteFault reason unit index time).fab = s.fab := by
  unfold State.noteFault
  split
  · exact (State.ibiBoth_keeps ..).2.1
  · dsimp only
    split <;> rfl

/-- The package's fault in RUN keeps the flits that it holds. -/
theorem State.raise_held (hr : s.running = true) (reason unit index : Nat) : (s.raise reason unit index).fab.held = s.fab.held := by
  have hbu : ¬ s.bu < stLoad := by
    have h6 : s.bu = 6 := by simpa [State.running, stRun] using hr
    rw [h6]; decide
  rw [State.raise, if_neg hbu, if_pos hr]
  refine (State.stopAsOrigin_held ..).trans (congrArg Fab.held ?_)
  exact (State.noteFault_fab ..).trans (foldl_keep State.fab (fun s _ => s.noteFault_fab ..) _ s)

/-! ### The STEP record that finds no room -/

/-- With no room in the STEP CQ, the records wait on. -/
theorem State.postSteps_full (hroom : s.cqRoom (s.fld rHlCtrl 0 6) = false) : s.postSteps = s := by
  unfold State.postSteps
  dsimp only
  split
  · rfl
  · refine List.foldl_fixed' (fun _ => ?_) _
    split
    · exact if_neg (by rw [hroom]; decide)
    · rfl

/-- The 257th waiting record is dropped, with CQ_OVERRUN (R344). -/
theorem State.queueStep_overruns (hen : s.fld rHlCtrl 6 1 ≠ 0) (hroom : s.cqRoom (s.fld rHlCtrl 0 6) = false)
    (hlen : 256 ≤ s.hl.stepQ.length) (r : List Byte) : s.queueStep r
      = ({ s with hl := { s.hl with stepQ := (s.hl.stepQ ++ [r]).take 256 } }).raise cCqOverrun 6 (portHalf (s.hlPorts.headD 0)) := by
  have hpost : ({ s with hl := { s.hl with stepQ := s.hl.stepQ ++ [r] } } : State).postSteps
      = { s with hl := { s.hl with stepQ := s.hl.stepQ ++ [r] } } := State.postSteps_full hroom
  have hmany : 256 < (s.hl.stepQ ++ [r]).length := by
    rw [List.length_append]; exact Nat.lt_succ_of_le hlen
  unfold State.queueStep
  rw [if_neg hen, hpost]
  exact if_pos hmany

/-- A STEP record too many stops a package in RUN. -/
theorem State.queueStep_stops (w : s.Wf) (hr : s.running = true) (hen : s.fld rHlCtrl 6 1 ≠ 0)
    (hroom : s.cqRoom (s.fld rHlCtrl 0 6) = false) (hlen : 256 ≤ s.hl.stepQ.length) (r : List Byte) :
    (s.queueStep r).bu = 7 ∧ (s.queueStep r).fab.held = s.fab.held := by
  obtain ⟨u, hu⟩ : ∃ u, u = { s with hl := { s.hl with stepQ := (s.hl.stepQ ++ [r]).take 256 } } := ⟨_, rfl⟩
  have wu : u.Wf := hu ▸ ⟨w.regs, w.mem, w.ports, w.cores, w.sram, w.sqs, w.cqs⟩
  have hru : u.running = true := hu ▸ hr
  have hfab : u.fab = s.fab := by rw [hu]
  rw [State.queueStep_overruns hen hroom hlen, ← hu, ← hfab]
  exact ⟨State.raise_bu wu hru .., State.raise_held hru ..⟩

/-- The step is not decided yet, has no update to wait for, and its STEP record finds 256 waiting and no room in the STEP CQ. -/
structure State.StepOverruns (s : State) (j : Job) : Prop where
  running   : s.running = true
  undecided : s.stp.decided = false
  noUpdates : j.hdr.updates = []
  enabled   : s.fld rHlCtrl 6 1 ≠ 0
  noRoom    : s.cqRoom (s.fld rHlCtrl 0 6) = false
  waiting   : 256 ≤ s.hl.stepQ.length

/-- Registers in which a step decision is noted. -/
def decisionRegs : List Nat := [rPfStepStat, rPfStepNorm, rPfNfTensor, rPfNfElem, rPfUpdStat]

theorem State.noteDecision_onRegs (w : s.Wf) (d : Decision) : OnRegs decisionRegs s (s.noteDecision d) := by
  have h := OnRegs.refl w decisionRegs
  unfold State.noteDecision
  exact (((OnRegs.ite (.ite h.addFld h.addFld) h.addFld).setReg.when (·.setReg.setReg)).when (·.addFld)).setFld.setFld.setFld

theorem State.layersLeft_of_noUpdates (h : j.hdr.updates = []) (s : State) : s.layersLeft j = [] := by
  rw [State.layersLeft, h]; rfl

theorem State.slowLeft_of_noUpdates (h : j.hdr.updates = []) (s : State) : s.slowLeft j = false := by
  rw [State.slowLeft, State.layersLeft_of_noUpdates h]; rfl

/-- The step decision noted (R208, R214), before the STEP record is posted. -/
def State.noteStep (s : State) (j : Job) : State :=
  let d := s.decision j
  let n := s.noteDecision d
  let recs := if j.hasSlow then { step := n.stp.step, clip := d.clip, skip := d.skip } :: n.stp.slowRecs.filter (fun r => r.step != n.stp.step)
    else n.stp.slowRecs
  { n with stp := { n.stp with decided := true, skip := d.skip, nonfin := d.nonfin, clip := d.clip, slowRecs := recs
                               norms := setAssoc n.stp.norms n.stp.step n.norm } }

theorem State.takeDecision_undecided (h : s.stp.decided = false) (j : Job) : s.takeDecision j = (s.noteStep j).stepDone j :=
  if_neg (by simp [h])

/-- What noting the decision leaves: everything but the registers and the step's own part of the state. -/
theorem State.noteStep_frame (w : s.Wf) (j : Job) :
    s.noteStep j = { s with regs := (s.noteStep j).regs, stp := (s.noteStep j).stp } := by
  have h := (State.noteDecision_onRegs w (s.decision j)).only.1
  rw [State.noteStep]
  dsimp only
  rw [h]

theorem State.noteStep_fld (w : s.Wf) (j : Job) {r : Nat} (hr : r ∉ decisionRegs) (lo l : Nat) :
    (s.noteStep j).fld r lo l = s.fld r lo l := (State.noteDecision_onRegs w (s.decision j)).fld hr lo l

theorem State.noteStep_wf (w : s.Wf) (j : Job) : (s.noteStep j).Wf :=
  have h := (State.noteDecision_onRegs w (s.decision j)).wf
  ⟨h.regs, h.mem, h.ports, h.cores, h.sram, h.sqs, h.cqs⟩

theorem State.noteStep_hl (w : s.Wf) (j : Job) : (s.noteStep j).hl = s.hl := by rw [State.noteStep_frame w]

theorem State.noteStep_fab (w : s.Wf) (j : Job) : (s.noteStep j).fab = s.fab := by rw [State.noteStep_frame w]

theorem State.noteStep_cqRoom (w : s.Wf) (j : Job) {c : Nat} (hc : c < 64) : (s.noteStep j).cqRoom c = s.cqRoom c := by
  have hcfg : rHlCqCfg c ∉ decisionRegs := by
    simp only [decisionRegs, rHlCqCfg, rPfStepStat, rPfStepNorm, rPfNfTensor, rPfNfElem, rPfUpdStat, List.mem_cons, List.not_mem_nil,
      or_false]
    omega
  have hcq : (s.noteStep j).cq c = s.cq c := by rw [State.cq, State.noteStep_hl w j]; rfl
  rw [State.cqRoom, State.cqOn, State.cqSize, hcq, State.noteStep_fld w j hcfg, State.noteStep_fld w j hcfg]
  rfl

theorem State.noteStep_running (w : s.Wf) (j : Job) : (s.noteStep j).running = s.running := by
  rw [State.running, State.bu, State.noteStep_fld w j (by decide)]; rfl

theorem State.stepDone_of_noUpdates (hj : j.hdr.updates = []) (hd : s.stp.decided = true) : s.stepDone j = s.queueStep (s.stepRecord j) := by
  rw [State.stepDone, State.layersLeft_of_noUpdates hj, hd]
  rfl

/-- Deciding the step stops the package. -/
theorem State.StepOverruns.takeDecision (h : s.StepOverruns j) (w : s.Wf) : (s.takeDecision j).bu = 7
    ∧ (s.takeDecision j).fab.held = s.fab.held := by
  have hen := State.noteStep_fld w j (r := rHlCtrl) (by decide)
  have hroom : (s.noteStep j).cqRoom (s.fld rHlCtrl 0 6) = false := (State.noteStep_cqRoom w j (bitsOf_lt _ 0 6)).trans h.noRoom
  have hr : (s.noteStep j).running = true := (State.noteStep_running w j).trans h.running
  have wn := State.noteStep_wf w j
  have hlen : 256 ≤ (s.noteStep j).hl.stepQ.length := State.noteStep_hl w j ▸ h.waiting
  have hdec : (s.noteStep j).stp.decided = true := rfl
  rw [State.takeDecision_undecided h.undecided, State.stepDone_of_noUpdates h.noUpdates hdec, ← State.noteStep_fab w j]
  exact State.queueStep_stops wn hr (by rw [hen]; exact h.enabled) (by rw [hen]; exact hroom) hlen _

/-! ### The end of the step -/

theorem State.settleReduce_of_empty (h : s.fab.held = []) : s.settleReduce = s := by
  unfold State.settleReduce
  refine List.foldl_fixed' (fun _ => ?_) _
  rw [h]; rfl

theorem Steady.clearSlow (h : Steady s t) : Steady s (t.clearSlow j) := by
  refine Steady.frame (h.foldl (f := fun s e => _) fun e _ h => ?_)
  split
  · split
    · exact h.frame
    · exact h
  · exact h

theorem Steady.noteWiden (h : Steady s t) : Steady s t.noteWiden := by
  unfold State.noteWiden
  dsimp only
  have h1 : Steady s ((({ t with stp := { t.stp with wideRun := t.stp.wideRun + 1 } } : State).addFld rPfWidenStat 0 32 1).setFld
      rPfWidenStat 32 8 (min 255 (t.stp.wideRun + 1))) := (Steady.addFld h.frame).setFld
  exact .ite (.ite h1.setFld.event.setFld h1.setFld) (Steady.setFld h.frame)

theorem State.clearSlow_fab (s : State) (j : Job) : (s.clearSlow j).fab = s.fab := by
  refine foldl_keep State.fab (fun s e => ?_) s.stp.slowZero s
  split
  · split <;> rfl
  · rfl

theorem State.event_fab (s : State) (ev code core step value : Nat) : (s.event ev code core step value).fab = s.fab := by
  rw [State.event_frame]

theorem State.noteWiden_fab (s : State) : s.noteWiden.fab = s.fab := by
  unfold State.noteWiden
  dsimp only
  split
  · split
    · exact State.event_fab ..
    · rfl
  · rfl

theorem State.advanceTo_fab (s : State) (x : Nat) : (s.advanceTo x).fab = s.fab := by rw [s.advanceTo_frame x]

theorem Steady.advanceTo (h : Steady s t) (w : t.Wf) {x : Nat} : Steady s (t.advanceTo x) where
  regs _ := (t.advanceTo_wf w x).regs
  buState v := (t.advanceTo_reg w x (by decide)).trans (h.buState v)
  job := by rw [t.advanceTo_frame x]; exact h.job
  cores := by rw [t.advanceTo_frame x]; exact h.cores

theorem Steady.clearSlack (h : Steady s t) : Steady s t.clearSlack :=
  h.foldl fun _ _ h => h.setReg (rCore_ne_low (by decide)).symm

theorem Steady.bu (h : Steady s t) (w : s.Wf) : t.bu = s.bu := by rw [State.bu, State.fld, h.buState w.regs]; rfl

/-- What the new step's own part of the state, the cores' note of it and their slack leave. -/
theorem State.newStep_spec (w : mapWf regDefault s.regs) (x : StepSt) (l : List Nat) (f : State → Nat → CoreSt) :
    (l.foldl (fun (s : State) n => s.setCore n (f s n)) { s with stp := x }).clearSlack.bu = s.bu
      ∧ (l.foldl (fun (s : State) n => s.setCore n (f s n)) { s with stp := x }).clearSlack.stp = x := by
  have hregs := foldl_keep State.regs (f := fun (s : State) n => s.setCore n (f s n)) (fun _ _ => rfl) l { s with stp := x }
  have hstp := foldl_keep State.stp (f := fun (s : State) n => s.setCore n (f s n)) (fun _ _ => rfl) l { s with stp := x }
  generalize l.foldl (fun (s : State) n => s.setCore n (f s n)) { s with stp := x } = u at hregs hstp
  have hslack := (Steady.refl u).clearSlack.buState (hregs ▸ w)
  have hkeep := foldl_keep State.stp (f := fun s n => s.setReg (rCore n oNwSlack) 0) (fun _ _ => rfl) u.used u
  refine ⟨?_, hkeep.trans hstp⟩
  rw [State.bu, State.fld, hslack, State.reg, hregs]
  rfl

/-- With no flit held, the end of a step leaves BU_STATE, and the next step has not begun. -/
theorem State.advanceStep_spec (w : s.Wf) (hheld : s.fab.held = []) (j : Job) :
    (s.advanceStep j).bu = s.bu ∧ (s.advanceStep j).stp.begun = false := by
  unfold State.advanceStep
  extract_lets c slow v origin n p bound src q r
  have wn : n.Wf := ((Keeps.refl s).clearSlow (j := j)).noteWiden.wf w
  have hfab : (n.advanceTo (n.packOf origin)).fab = s.fab :=
    (State.advanceTo_fab ..).trans (c.noteWiden_fab.trans (s.clearSlow_fab j))
  have hp : p = n.advanceTo (n.packOf origin) := State.settleReduce_of_empty (by rw [hfab, hheld])
  have hsteady : Steady s p := hp ▸ (Steady.refl s).clearSlow.noteWiden.advanceTo wn
  have hnew : r.clearSlack.bu = p.bu ∧ r.clearSlack.stp = q.stp := State.newStep_spec (s := p) (hsteady.regs w.regs) q.stp q.used _
  exact ⟨hnew.1.trans (hsteady.bu w), congrArg StepSt.begun hnew.2⟩

/-- A step whose decision stops the package ends, and the next one does not begin. -/
theorem State.stepOrigin_stopped (hb : s.stp.begun = true) (w : (s.takeDecision j).Wf) (hstop : (s.takeDecision j).bu = 7)
    (hheld : (s.takeDecision j).fab.held = []) (hslow : (s.takeDecision j).slowLeft j = false) :
    (s.stepOrigin j).stp.begun = false ∧ (s.stepOrigin j).issuing = false := by
  obtain ⟨hbu, hbegun⟩ := State.advanceStep_spec w hheld j
  have hrun : ((s.takeDecision j).advanceStep j).running = false := by rw [State.running, hbu, hstop]; rfl
  have hstep : s.stepOrigin j = (s.takeDecision j).advanceStep j := by
    unfold State.stepOrigin
    simp only [hb, hslow, hrun, Bool.not_true, Bool.false_eq_true, if_false]
  rw [hstep]
  exact ⟨hbegun, by rw [State.issuing, hrun]; rfl⟩

theorem exec_stepOrigin (hd : s.dark = false) (hi : s.issuing = true) (hj : s.job = some j) (hc : s.ctxDue = none) :
    exec .stepOrigin s = .next (s.stepOrigin j).settle := by
  refine (next_of_live hd).trans ?_
  simp only [hj, hi, hc, Option.isSome_none, Bool.false_eq_true, if_true, if_false]

/-- A STEP_ORIGIN that overruns the STEP queue begins no step. -/
theorem State.StepOverruns.exec_stepOrigin (h : s.StepOverruns j) (w : s.Wf) (hd : s.dark = false) (hi : s.issuing = true)
    (hj : s.job = some j) (hc : s.ctxDue = none) (hb : s.stp.begun = true) (hheld : s.fab.held = []) :
    ∃ t, exec .stepOrigin s = .next t ∧ t.stp.begun = false := by
  obtain ⟨hstop, hkept⟩ := h.takeDecision w
  obtain ⟨hbegun, hidle⟩ := State.stepOrigin_stopped hb ((Keeps.refl s).takeDecision.wf w) hstop (hkept.trans hheld)
    (State.slowLeft_of_noUpdates h.noUpdates _)
  refine ⟨_, Machine.exec_stepOrigin hd hi hj hc, ?_⟩
  rw [State.settle_of_stopped hidle]
  exact hbegun

/-! ### The counterexample -/

/-- A job of one package that uses core 1 and updates nothing. -/
def plainJob : Job :=
  { (default : Job) with
    hdr := { (default : JobHdr) with herd := 1, replicas := 1, stepLen := 4096, statusDel := 2048 }
    progMap := [(0xFFFF_FFFF, 0), (9, 5)] }

/-- Core 1 runs a step that is not decided yet; STEP_EN is set, the STEP CQ of 64 records is full and 256 records wait for it. -/
def sStepFull : State :=
  { State.reset with
    regs := [(rBuState, 6), (rHlCtrl, 0x40), (rHlCqCfg 0, 0x0D), (rCore 1 oState, 2)]
    job := some plainJob
    stp := { StepSt.reset with started := true, begun := true }
    hl := { HlSt.reset with cqs := [(0, { CqSt.reset with written := 64 })], stepQ := List.replicate 256 (List.replicate 64 0) } }

theorem sStepFull_wf : sStepFull.Wf :=
  ⟨by decide +kernel, mapWf_nil, mapWf_nil, mapWf_nil, fun _ h => absurd h List.not_mem_nil, mapWf_nil, by decide +kernel⟩

theorem sStepFull_overruns : sStepFull.StepOverruns plainJob where
  running := by decide
  undecided := rfl
  noUpdates := rfl
  enabled := by decide
  noRoom := by decide
  waiting := (List.length_replicate ..).ge

/-- Refutes O25: where the ending step's STEP record is the 257th that waits, its decision stops the package with CQ_OVERRUN (R344), so
that the STEP_ORIGIN begins no further step. -/
theorem not_stepOriginEndsTheStep : ¬ Obligations.StepOriginEndsTheStep := by
  unfold Obligations.StepOriginEndsTheStep
  intro h
  have hheld : sStepFull.fab.held = [] := rfl
  have hbegun : sStepFull.stp.begun = true := rfl
  have hlive : sStepFull.dark = false ∧ sStepFull.issuing = true ∧ sStepFull.anyWaits = false ∧ sStepFull.ctxDue = none := by
    decide
  obtain ⟨hd, hi, hw, hc⟩ := hlive
  obtain ⟨-, hend, -⟩ := h plainJob sStepFull sStepFull_wf hd hi rfl hw hc hheld
  obtain ⟨t, ht, hbeg, -⟩ := hend hbegun (State.slowLeft_of_noUpdates rfl _)
  obtain ⟨u, hu, hnot⟩ := sStepFull_overruns.exec_stepOrigin sStepFull_wf hd hi rfl hc hbegun hheld
  obtain rfl : t = u := Host.Outcome.next.inj (ht.symm.trans hu)
  rw [hbeg] at hnot
  cases hnot

end Sys2Proof.Machine
end

section
/-! SUPPORT. VOP and VCONVERT with a plain conversion (Tables 8.9, 11.7, R57, R227 to R229): the record of the conversion and one run of
SRAM bytes. -/

namespace Sys2Proof.Machine
open Sys2Proof

-- Proofs elaborated in threads of their own would pass the check's limit of memory.
set_option Elab.async false

variable {s t : State} {a : Attr} {j : Job} {c : Instr} {off : Nat} {bs : List Byte} {cv : Conv}

/-! ### A vector command that records its conversions -/

/-- The record of the core's last vector operation (R55). -/
def State.setVec (s : State) (n : Nat) (x : ConvStat) : State := s.setCore n { s.core n with vecStat := x }

theorem State.core_setVec (w : s.Wf) (n : Nat) (x : ConvStat) (k : Nat) :
    (s.setVec n x).core k = if k = n then { s.core n with vecStat := x } else s.core k := State.core_setCore w.cores ..

theorem State.setVec_wf (w : s.Wf) (n : Nat) (x : ConvStat) : (s.setVec n x).Wf := w.setCore n (w.core n)

theorem Undisturbed.setVec (w : s.Wf) (n : Nat) (x : ConvStat) : Undisturbed s (s.setVec n x) := by
  refine ⟨State.setVec_wf w n x, rfl, rfl, rfl, fun k => ?_⟩
  rw [State.core_setVec w]
  split
  · subst k; exact ⟨rfl, rfl⟩
  · exact ⟨rfl, rfl⟩

/-- What is written after the record of the conversions is written from before it. -/
theorem sramResult.of_setVec (w : s.Wf) {x : ConvStat} (h : sramResult (s.setVec a.core x) t a off bs) : sramResult s t a off bs := by
  obtain ⟨hret, ⟨hframe, hregs, hcores⟩, hcore, hread, hrest⟩ := h
  have hself := (State.core_setVec w a.core x a.core).trans (if_pos rfl)
  refine ⟨hret, ⟨hframe, hregs, fun k hk => ?_⟩, ?_, hread, fun k hk => ?_⟩
  · exact (hcores k hk).trans ((State.core_setVec w ..).trans (if_neg hk))
  · rw [hself] at hcore; exact hcore
  · rw [hrest k hk, hself]

/-- A ready vector command whose effect is the record of its conversions and one write of SRAM. -/
theorem State.Ready.exec_convertsSram (w : s.Wf) (h : s.Ready a) (hj : s.job = some j) (hc : streamAttr c = some a)
    (hs : serialises c = false) (hu : s.unblocked a.core c = true) {x : ConvStat}
    (hp : s.perform j c = (s.setVec a.core x).sramWrite a.core off bs) :
    ∃ t, exec c s = .next t ∧ sramResult s t a off bs := by
  refine ⟨_, ?_, (State.sramResult_retire (State.setVec_wf w a.core x) a off bs).of_setVec w⟩
  rw [exec_stream hc]
  exact h.coreCmd_retires hj hs hu hp ((Undisturbed.setVec w a.core x).sramWrite ..)

/-! ### A plain conversion into SRAM -/

/-- Conversions of exact sources with nothing but the destination's scale and format, to nearest even and with subnormals kept (R57;
log entry 42). -/
def State.plainCvts (s : State) (j : Job) (c : Conv) (us : List Xv) : List Cvt :=
  (List.range us.length).map (fun i =>
    s.convOne j c false 0 (c.first + i) (dstScale c.dst c.sDst) false (us.getD i .nan))

/-- A plain conversion decides no scent bit, measures nothing and draws no counter. -/
theorem State.convertSram_plain (hp : plainConv cv) (us us' : List Xv) : ∃ x, s.convertSram a j cv off us us'
    = (s.setVec a.core x).sramWrite a.core off (cvtBytes cv.dst (s.plainCvts j cv us)) := by
  obtain ⟨hact, hback, hdrop, hcount, -⟩ := hp
  refine ⟨convStat 0 ((List.range us.length).map (fun i => (cv.first + i,
    s.convOne j cv false 0 (cv.first + i) (dstScale cv.dst cv.sDst) false (us.getD i .nan)))), ?_⟩
  have hv : ∀ e u u', (s.exactVal j cv e u u').v = u := fun e u u' => by
    rw [State.exactVal, State.exactAt, hact, hback, hdrop]
  unfold State.convertSram
  simp only [hact, hback, hcount, Option.bind_none, List.map_map, Function.comp_def, hv]
  rfl

/-- The conversions of sources that are the values of a list. -/
theorem State.plainCvts_map {α : Type} (s : State) (j : Job) (c : Conv) (f : α → Xv) (l : List α) (d : α) :
    s.plainCvts j c (l.map f) = (List.range l.length).map (fun i =>
      s.convOne j c false 0 (c.first + i) (dstScale c.dst c.sDst) false (f (l.getD i d))) := by
  rw [State.plainCvts, List.length_map]
  refine List.map_congr_left fun i hi => ?_
  have hi := List.mem_range.1 hi
  simp [List.getD_eq_getElem?_getD, hi]

/-! ### VOP -/

/-- T32 values of a source that a VOP may name; none without it. -/
def State.vopSrc (s : State) (n : Nat) (p : Option Nat) (k : Nat) : List W32 := (p.map (fun x => s.sramT32 n x k)).getD []

/-- The T32 results of a VOP on its sources in data SRAM. -/
def State.vopValues (s : State) (n : Nat) (o : VopArg) : List W32 :=
  vopResults o (s.sramT32 n o.a o.n) (s.vopSrc n o.b o.nB) (s.vopSrc n o.c o.nC)

theorem State.vop_unlisted {o : VopArg} (hl : vopListed o.op = false) : s.vop a j o = s.checkFail a 0x0101 := by
  unfold State.vop
  rw [hl]; rfl

/-- A VOP that passes its checks converts its results. -/
theorem State.vop_converts {o : VopArg} (hl : vopListed o.op = true) (ha : isReduction o.op = true → o.arg ≤ 2) (hs : vopShape o = true)
    (ht : o.srcT32 = true) (hf : isElemFmt o.conv.dst = true) (hr : isReduction o.op = true → o.conv.dst = .t32) (hp : plainConv o.conv)
    (hc : convCode .t32 o.conv j true none o.conv.first (vopCount o) = 0) :
    ∃ us', s.vop a j o = s.convertSram a j o.conv o.dst ((s.vopValues a.core o).map valT32) us' := by
  have harg : (isReduction o.op && decide (2 < o.arg)) = false := by
    cases hred : isReduction o.op with
    | false => rfl
    | true => simpa using ha hred
  have hfmt : ¬ ((!o.srcT32) = true ∨ (!isElemFmt o.conv.dst) = true ∨ (isReduction o.op = true ∧ o.conv.dst ≠ .t32)) := by
    simp [ht, hf]; exact hr
  obtain ⟨-, -, -, hcount, -⟩ := hp
  refine ⟨(s.vopSrc a.core o.b o.nB).map valT32, ?_⟩
  unfold State.vop
  rw [hl, harg, hs, if_neg hfmt]
  simp only [hcount, Option.bind_none, hc]
  unfold State.vopValues State.vopSrc
  cases o.b <;> cases o.c <;> rfl

/-! ### VCONVERT -/

/-- A VCONVERT that passes its checks converts its sources, each times their scale. -/
theorem State.vconvert_converts {src dst n : Nat} {f : Fmt} (hf : isElemFmt f = true) (hd : isElemFmt cv.dst = true) (hp : plainConv cv)
    (hc : convCode f cv j false none cv.first n = 0) : s.vconvert a j src dst n f cv
      = s.convertSram a j cv dst ((s.sramCodes a.core src f n).map (fun k => xMul (decodeElem f k) (valT32 (dstScale f cv.sSrc)))) [] := by
  obtain ⟨-, -, -, hcount, -⟩ := hp
  unfold State.vconvert
  simp [hf, hd, hcount, hc]

/-- Settles O29: the checks passed, VOP and VCONVERT record their conversions and write the converted values as one run of SRAM. -/
theorem vectorResults : Obligations.VectorResults := by
  unfold Obligations.VectorResults
  refine fun a j s w h hj => ⟨fun o hl ha hs ht hf hr hp hc hrange => ?_, fun o hl hrange => ?_, fun src dst n f c hf hd hp hc hrange => ?_⟩
  · obtain ⟨us', hvop⟩ := State.vop_converts (s := s) (a := a) hl ha hs ht hf hr hp hc
    obtain ⟨x, hconv⟩ := State.convertSram_plain (s := s) (a := a) (j := j) (off := o.dst) hp ((s.vopValues a.core o).map valT32) us'
    rw [State.plainCvts_map s j o.conv valT32 _ 0] at hconv
    exact h.exec_convertsSram w hj rfl rfl rfl ((h.checked_ranges hrange _).trans (hvop.trans hconv))
  · rw [exec_stream rfl]
    exact h.coreCmd_fails w hj rfl rfl ((h.checked_ranges hrange _).trans (State.vop_unlisted hl)) (by decide)
  · have hn : (s.sramCodes a.core src f n).length = n := by simp [State.sramCodes]
    obtain ⟨x, hconv⟩ := State.convertSram_plain (s := s) (a := a) (j := j) (off := dst) hp
      ((s.sramCodes a.core src f n).map (fun k => xMul (decodeElem f k) (valT32 (dstScale f c.sSrc)))) []
    rw [State.plainCvts_map s j c _ _ 0, hn] at hconv
    exact h.exec_convertsSram w hj rfl rfl rfl ((h.checked_ranges hrange _).trans ((State.vconvert_converts hf hd hp hc).trans hconv))

end Sys2Proof.Machine
end

section
/-! SUPPORT. The last UPDATE of a decided step whose STEP record is one too many (R218, R344, Table 12.12): its pass commits, the package
stops with CQ_OVERRUN, and the UPDATE does not retire. -/

namespace Sys2Proof.Machine
open Sys2Proof

-- Proofs elaborated in threads of their own would pass the check's limit of memory.
set_option Elab.async false

variable {s t u v : State} {a : Attr} {j : Job} {n : Nat}

/-! ### What a pass changes before its elements count -/

/-- The parts of a step that say which layers are left, which UPDATEs are staged and which version slots a pass writes. -/
def StepSt.progress (x : StepSt) : Bool × Bool × Nat × List SlowRec × List (Nat × Nat) × List (Attr × UpdArg) × Nat × Nat :=
  (x.decided, x.skip, x.step, x.slowRecs, x.updDone, x.staged, x.v, x.n)

/-- From `s` to `u` a pass has stored bytes, written SRAM and taken its measures: its elements do not count yet. -/
structure Passing (s u : State) : Prop where
  wf       : u.Wf
  frame    : u = { s with mem := u.mem, bad := u.bad, cores := u.cores, stp := u.stp }
  good     : s.bad = [] → u.bad = []
  windows  : ∀ k, (u.core k).window = (s.core k).window ∧ (u.core k).ending = (s.core k).ending
  progress : u.stp.progress = s.stp.progress

theorem Passing.refl (w : s.Wf) : Passing s s := ⟨w, rfl, id, fun _ => ⟨rfl, rfl⟩, rfl⟩

theorem Passing.trans (h : Passing s t) (k : Passing t u) : Passing s u where
  wf := k.wf
  frame := by rw [k.frame, h.frame]
  good e := k.good (h.good e)
  windows m := ⟨(k.windows m).1.trans (h.windows m).1, (k.windows m).2.trans (h.windows m).2⟩
  progress := k.progress.trans h.progress

theorem Passing.regs (h : Passing s u) : u.regs = s.regs := by rw [h.frame]
theorem Passing.job (h : Passing s u) : u.job = s.job := by rw [h.frame]
theorem Passing.hl (h : Passing s u) : u.hl = s.hl := by rw [h.frame]
theorem Passing.failing (h : Passing s u) : u.failing = s.failing := by rw [h.frame]
theorem Passing.reg (h : Passing s u) (r : Nat) : u.reg r = s.reg r := by rw [State.reg, h.regs]; rfl

/-- A measure of the step. -/
theorem Passing.setStp (h : Passing s u) {x : StepSt} (hx : x.progress = u.stp.progress := by rfl) : Passing s { u with stp := x } :=
  have w := h.wf
  ⟨⟨w.regs, w.mem, w.ports, w.cores, w.sram, w.sqs, w.cqs⟩, by rw [h.frame], h.good, h.windows, hx.trans h.progress⟩

theorem Passing.store (h : Passing s u) {x : Nat} {bs : List Byte} : Passing s (u.store x bs) :=
  ⟨h.wf.store x bs, by rw [State.store, h.frame], fun e => by rw [State.store, h.good e]; rfl, h.windows, h.progress⟩

/-- A core whose window and end stay. -/
theorem Passing.setCore (h : Passing s u) {c : CoreSt} (hc : mapWf memDefault c.sram)
    (hwin : c.window = (u.core n).window ∧ c.ending = (u.core n).ending) : Passing s (u.setCore n c) := by
  refine ⟨h.wf.setCore n hc, by rw [State.setCore, h.frame], h.good, fun k => ?_, h.progress⟩
  rw [State.core_setCore h.wf.cores]
  split
  · subst k; exact ⟨hwin.1.trans (h.windows n).1, hwin.2.trans (h.windows n).2⟩
  · exact h.windows k

theorem Passing.setXfer (h : Passing s u) {x : ConvStat} : Passing s (u.setXfer n x) := h.setCore (h.wf.core n) ⟨rfl, rfl⟩

theorem Passing.sramWrite (h : Passing s u) {off : Nat} {bs : List Byte} : Passing s (u.sramWrite n off bs) := by
  refine h.setCore ?_ ?_
  · rw [CoreSt.noteFeed_sram]; exact mapSetRun_wf (h.wf.core n) off bs
  · rw [CoreSt.noteFeed_eq]; exact ⟨rfl, rfl⟩

theorem Passing.ite {c : Prop} [Decidable c] (h : Passing s t) (k : Passing s u) : Passing s (if c then t else u) := by
  split
  · exact h
  · exact k

theorem Passing.foldl {α : Type} {f : State → α → State} {l : List α} (h : Passing s u)
    (hf : ∀ {u} x, Passing s u → Passing s (f u x)) : Passing s (l.foldl f u) :=
  List.foldlRecOn (motive := Passing s) l f h fun _ h x _ => hf x h

theorem Passing.bindScale (h : Passing s u) {x : Tensor} {k : Nat} : Passing s (u.bindScale x k) := .ite h.setStp h

theorem Passing.notePrint (h : Passing s u) {k st : Nat} {x : W64} : Passing s (u.notePrint k st x) := h.setStp

/-- Noseprints of the shards that a write touched (R297). -/
theorem Passing.reprint (h : Passing s u) {x k : Nat} : Passing s (u.reprint x k) := by
  unfold State.reprint
  split
  · exact h
  · refine h.foldl fun t h => .ite h (h.foldl fun sh h => h.foldl fun i h => ?_)
    split
    · exact .ite h.notePrint.bindScale h
    · exact h

theorem Passing.maximaResult (h : Passing s u) {x : Nat} {m : W32} : Passing s (u.maximaResult x m) := by
  unfold State.maximaResult
  split
  · exact .ite h (.ite h.setStp h.setStp)
  · exact h

theorem Passing.noteMax (h : Passing s u) {x : Nat} {m : Xv} : Passing s (u.noteMax x m) := h.setStp

theorem Passing.noteMasters (h : Passing s u) {mt wt : Tensor} {ws : List W32} : Passing s (u.noteMasters j mt wt ws) := by
  unfold State.noteMasters
  extract_lets m n all src p
  have hp : Passing s p := Passing.setStp (u := n) h.noteMax
  exact .ite hp hp.maximaResult

theorem Passing.afterStaging (h : Passing s u) {r : Recipe} {x : Tensor} {k : Nat} : Passing s (u.afterStaging n r x k) :=
  .ite h.sramWrite.sramWrite h.sramWrite

/-! ### Deposits that succeed -/

/-- With every block of memory good, the bytes of elements in one placed part are stored there. -/
theorem State.putState_good (hbad : s.bad = []) (hfail : s.failing = []) {x : Tensor} {v first n addr : Nat}
    (hr : j.range? x v first n = some addr) (bs : List Byte) : s.putState j x v first n bs = (none, s.store addr bs) := by
  have hpart : s.badPart addr bs.length = none := by
    rw [State.badPart, List.find?_eq_none]
    intro b _
    simp [State.blocked, hbad, hfail]
  rw [State.putState, hr]
  simp only [State.storeParts, hpart]
  rfl

/-- A deposit of a pass that began in `s` succeeds, on whatever the deposits before it have left. -/
def Deposits (s : State) (d : State → Option Fetch × State) : Prop := ∀ u, Passing s u → ∃ e, d u = (none, e) ∧ Passing s e

theorem Deposits.skip (s : State) : Deposits s (fun u => (none, u)) := fun u h => ⟨u, rfl, h⟩

theorem State.deposits_succeed {l : List (State → Option Fetch × State)} (hl : ∀ d ∈ l, Deposits s d) (h : Passing s u) :
    ∃ e, u.deposits l = (none, e) ∧ Passing s e := by
  induction l generalizing u with
  | nil => exact ⟨u, rfl, h⟩
  | cons d l ih =>
    obtain ⟨e, hd, he⟩ := hl d List.mem_cons_self u h
    rw [State.deposits, hd]
    exact ih (fun d hd => hl d (List.mem_cons_of_mem _ hd)) he

/-- A pass's version slots are the same whatever it has changed. -/
theorem Passing.writeSlot (h : Passing s u) (j : Job) (x : Tensor) : u.writeSlot j x = s.writeSlot j x := by
  have hp := h.progress
  simp only [StepSt.progress, Prod.mk.injEq] at hp
  obtain ⟨-, -, -, -, -, -, hv, hn⟩ := hp
  rw [State.writeSlot, hv, hn]; rfl

section
variable {r : Recipe} {o : UpdArg} {x : UpdTensors} {pu : PassUse} {pv : PassVals} {xm xw xg : Nat}

/-- The tensors of an UPDATE without moments, EMA and recipe state, at their addresses, with every block of memory good. -/
structure State.PlacedPass (s : State) (j : Job) (o : UpdArg) (x : UpdTensors) (pu : PassUse) (xm xw xg : Nat) : Prop where
  good    : s.bad = []
  writes  : s.failing = []
  m1      : o.m1 = none
  m2      : o.m2 = none
  ema     : o.ema = none
  state   : j.tensor? o.state = none
  fast    : x.g.slow = false
  master  : j.range? x.mt (s.writeSlot j x.mt) o.first o.count = some xm
  work    : j.range? x.wt (s.writeSlot j x.wt) o.first o.count = some xw
  grad    : j.range? x.g pu.slot o.first o.count = some xg

/-- What a deposit finds of memory. -/
theorem Passing.clean (h : Passing s u) (p : s.PlacedPass j o x pu xm xw xg) : u.bad = [] ∧ u.failing = [] :=
  ⟨h.good p.good, h.failing.trans p.writes⟩

/-- The gradient of a fast layer is zeroed at once (R187). -/
theorem State.zeroGrad_fast {g : Tensor} (hg : g.slow = false) : s.zeroGrad j g pu o = s.zeroElems j g pu.slot o.first o.count := by
  rw [State.zeroGrad, hg]
  exact if_neg (by simp)

theorem State.PlacedPass.after (p : s.PlacedPass j o x pu xm xw xg) (h : Passing s u) : u.PlacedPass j o x pu xm xw xg :=
  { p with
    good := (h.clean p).1
    writes := (h.clean p).2
    master := h.writeSlot j x.mt ▸ p.master
    work := h.writeSlot j x.wt ▸ p.work }

/-- Every deposit of such a pass succeeds. -/
theorem State.PlacedPass.deposits (p : s.PlacedPass j o x pu xm xw xg) (mc ec : List (Nat × Cvt)) (wb : List Byte) :
    ∀ d ∈ passDeposits j r o x pu pv mc ec wb, Deposits s d := by
  unfold passDeposits
  extract_lets +onlyGivenNames float moment _ ema recipeState work
  have hmoment : ∀ i, moment i none = fun u => (none, u) := fun _ => rfl
  have hema : ema = fun u => (none, u) := by
    funext u; simp only [ema, p.ema]; rfl
  have hstate : recipeState = fun u => (none, u) := by
    funext u; simp only [recipeState, p.state]
  rw [p.m1, p.m2, hmoment, hmoment, hema, hstate]
  intro d hd
  simp only [List.mem_cons, List.not_mem_nil, or_false] at hd
  obtain rfl | rfl | rfl | rfl | rfl | rfl | rfl := hd
  · intro u h
    have p := p.after h
    exact ⟨_, State.putState_good p.good p.writes p.master _, h.store⟩
  · exact .skip s
  · exact .skip s
  · exact .skip s
  · exact .skip s
  · intro u h
    have hr := (p.after h).work
    have hb : Passing s (u.bindScale x.wt (u.writeSlot j x.wt)) := h.bindScale
    obtain ⟨hbad, hfail⟩ := hb.clean p
    refine ⟨((u.bindScale x.wt (u.writeSlot j x.wt)).store xw wb).reprint xw wb.length, ?_, hb.store.reprint⟩
    simp only [work, hr, State.putState_good hbad hfail hr]
  · intro u h
    obtain ⟨hbad, hfail⟩ := h.clean p
    refine ⟨u.store xg ((List.range o.count).flatMap (fun _ => zeroElem x.g.ns)), ?_, h.store⟩
    exact (State.zeroGrad_fast p.fast).trans (State.putState_good hbad hfail p.grad _)

/-- Such a pass commits, and then its elements count. -/
theorem State.PlacedPass.commitPass (p : s.PlacedPass j o x pu xm xw xg) (w : s.Wf) (ha : a.mem = { }) (reads : Nat) :
    ∃ d, Passing s d ∧ s.commitPass a j r o x reads pu pv = d.updateDone j x.mt o.count := by
  unfold State.commitPass
  extract_lets masters mc ec wo q was
  have hq : Passing s q := (Passing.refl w).setXfer
  have hmark : ({ q with failing := failedBlocks a.mem } : State) = q := by
    have hf : failedBlocks a.mem = q.failing := by rw [ha, hq.failing, p.writes]; rfl
    rw [hf]
  obtain ⟨e, hd, he⟩ := State.deposits_succeed (p.deposits (r := r) (pv := pv) mc ec wo.1) hq
  have hwas : ({ e with failing := was } : State) = e := by
    have hf : was = e.failing := hq.failing.trans he.failing.symm
    rw [hf]
  refine ⟨(e.noteMasters j x.mt x.wt masters).afterStaging a.core r x.mt o.count, he.noteMasters.afterStaging, ?_⟩
  simp only [hmark, hd, hwas]

end

/-! ### A pass of one UPDATE without a layer reduction -/

/-- Operations other than layer reductions run to the end, one by one (R217). -/
theorem REnv.run_steps {g : RAlg} {pts : List (Nat × W32)} {gather : Nat → List (Nat × List W32) → Option (List (Nat × List W32))} {k : Nat}
    {ops : List ROp} (h : ∀ o ∈ ops, ¬ (o.op = 0x21 ∨ o.op = 0x22)) (e : REnv) :
    e.run g pts gather k ops = .done (ops.foldl (REnv.step g pts) e) := by
  induction ops generalizing e with
  | nil => rfl
  | cons o ops ih =>
    rw [REnv.run, if_neg (h o List.mem_cons_self), List.foldl_cons]
    exact ih (fun o ho => h o (List.mem_cons_of_mem _ ho)) _

theorem Recipe.ops_of_noLayerReds {r : Recipe} (h : r.layerReds = 0) : ∀ o ∈ r.ops, ¬ (o.op = 0x21 ∨ o.op = 0x22) := by
  have hl := List.filter_eq_nil_iff.1 (List.eq_nil_of_length_eq_zero h)
  intro o ho
  have := hl o ho
  simpa using this

/-- What a pass of one part ends with where its recipe has no layer reduction: the values, and the run that tells what rests on
finite inputs alone (R218). -/
def passEnd (r : Recipe) (pu : PassUse) (q : List W32) (p : RPart) : REnv :=
  r.ops.foldl (REnv.step (valueAlg pairadd) r.pts) (passEnv r pu q [p])
def taintEnd (r : Recipe) (q : List W32) (p : RPart) : REnv := r.ops.foldl (REnv.step taintAlg r.pts) (taintEnv r q [p])

/-- What such a pass computes to deposit. -/
def oneVals (r : Recipe) (pu : PassUse) (q : List W32) (p : RPart) : PassVals := passVals r (passEnd r pu q p) (taintEnd r q p) 0

/-- With no command in its core's window, an UPDATE has no entry there to mark. -/
theorem State.markUpd_alone (w : s.Wf) (h : (s.core a.core).window = []) (o : UpdArg) (st : CmdStatus) : s.markUpd a o st = s := by
  refine State.setCore_self w ?_
  rw [h, List.map_nil, ← h]

section
variable {r : Recipe} {o : UpdArg} {x : UpdTensors} {pu : PassUse} {k : Nat} {p : RPart} {q : List W32}

/-- A pass of one command alone in its window commits, where no value is wrong. -/
theorem State.runPass_commits (w : s.Wf) (hx : j.updTensors o = some x) (hp : s.stagePart j r o x.mt x.g pu = .inr (k, p))
    (hq : s.passState j r o = .inr q) (hr : r.layerReds = 0) (hbad : (oneVals r pu q p).bad = false) (hl : s.coreLive a.core = true)
    (hwin : (s.core a.core).window = []) (hst : s.stp.staged = []) (l : Nat) : ∃ b, Passing s b
      ∧ s.runPass j r l pu [(a, o)] = (b.commitPass a j r o x k pu (oneVals r pu q p)).markUpd a o (.done s.now) := by
  obtain ⟨b, hb⟩ : ∃ b, b = { s with stp := { s.stp with qBase := setAssoc s.stp.qBase l q, staged := [] } } := ⟨_, rfl⟩
  have hpass : Passing s b := hb ▸ (Passing.refl w).setStp (by rw [StepSt.progress, StepSt.progress, hst])
  have hmark := State.markUpd_alone (o := o) (st := .issuing) hpass.wf ((hpass.windows a.core).1.trans hwin)
  have hlive : b.coreLive a.core = true := hb ▸ hl
  have hnow : b.now = s.now := hpass.reg _
  have hlist : s.stageList j r pu [(a, o)] = .inr [{ a, o, x, k, p }] := by
    simp only [State.stageList, hx, hp]
  have hops := Recipe.ops_of_noLayerReds hr
  have hsort : sortUpd [(a, o)] = [(a, o)] := rfl
  refine ⟨b, hpass, ?_⟩
  unfold State.runPass
  simp only [hsort, hlist, List.head?_cons, Option.map_some, hq, List.map_cons, List.map_nil, REnv.run_steps hops, hst, List.filter_nil,
    ← hb]
  have hvals : passVals r (r.ops.foldl (REnv.step (valueAlg pairadd) r.pts) (passEnv r pu q [p]))
      (r.ops.foldl (REnv.step taintAlg r.pts) (taintEnv r q [p])) 0 = oneVals r pu q p := rfl
  simp [List.zipIdx, hvals, hbad, hlive, hmark, hnow]

/-- A ready UPDATE of a fast layer whose step does not skip runs its pass. -/
theorem State.update_runs {rb : List Byte} (hrb : j.recipes[o.layer]? = some rb) (hx : j.updTensors o = some x)
    (hfit : updateFits (recipeOf rb) x.mt o = true) (hfmt : updateFmts j (recipeOf rb) o = true) (hr : (recipeOf rb).layerReds = 0)
    (hheld : s.fab.held = []) (hu : s.passUse j x.mt = some pu) (hrun : pu.runs = true) :
    s.update a j o = s.runPass j (recipeOf rb) o.layer pu [(a, o)] := by
  have hstaged : s.stagedFits j (recipeOf rb) a o = true := by rw [State.stagedFits, hr]; rfl
  unfold State.update
  simp only [hrb, hx, hfit, hstaged, hfmt, State.settleReduce_of_empty hheld, hu, hrun, hr]
  rfl

end

/-! ### The STEP record of the step's last UPDATE -/

/-- `n` more elements of master `x` count as updated. -/
def State.counted (s : State) (x : Tensor) (n : Nat) : State :=
  { s with stp := { s.stp with updDone := setAssoc s.stp.updDone x.index ((getAssoc s.stp.updDone x.index).getD 0 + n) } }

/-- `n` elements of master `x` are the last to update of a step already decided, and its STEP record finds 256 waiting and no room in the
STEP CQ. -/
structure State.LastOverruns (s : State) (j : Job) (x : Tensor) (n : Nat) : Prop where
  running : s.running = true
  decided : s.stp.decided = true
  before  : (s.layersLeft j).isEmpty = false
  after   : ((s.counted x n).layersLeft j).isEmpty = true
  enabled : s.fld rHlCtrl 6 1 ≠ 0
  noRoom  : s.cqRoom (s.fld rHlCtrl 0 6) = false
  waiting : 256 ≤ s.hl.stepQ.length

theorem State.layersLeft_of_progress (h : t.stp.progress = s.stp.progress) (j : Job) : t.layersLeft j = s.layersLeft j := by
  simp only [StepSt.progress, Prod.mk.injEq] at h
  obtain ⟨-, hskip, hstep, hrecs, hdone, -⟩ := h
  have hruns : t.passRuns j = s.passRuns j := by
    funext x
    simp only [State.passRuns, State.slowDue, hskip, hstep, hrecs]
  rw [State.layersLeft, hruns, hdone]
  rfl

/-- A pass leaves what its last elements depend on. -/
theorem State.LastOverruns.after_pass {x : Tensor} (h : s.LastOverruns j x n) (p : Passing s u) : u.LastOverruns j x n := by
  have hp := p.progress
  simp only [StepSt.progress, Prod.mk.injEq] at hp
  obtain ⟨hdec, hskip, hstep, hrecs, hdone, hstaged, hv, hn⟩ := hp
  have hcount : (u.counted x n).stp.progress = (s.counted x n).stp.progress := by
    simp only [State.counted, StepSt.progress, hdec, hskip, hstep, hrecs, hdone, hstaged, hv, hn]
  have hfld : ∀ r lo l, u.fld r lo l = s.fld r lo l := fun r lo l => by rw [State.fld, p.reg]; rfl
  have hroom : ∀ c, u.cqRoom c = s.cqRoom c := fun c => by
    rw [State.cqRoom, State.cqOn, State.cqSize, State.cq, hfld, hfld, p.hl]; rfl
  refine ⟨?_, hdec.trans h.decided, ?_, ?_, ?_, ?_, p.hl ▸ h.waiting⟩
  · rw [State.running, State.bu, hfld]; exact h.running
  · rw [State.layersLeft_of_progress p.progress]; exact h.before
  · rw [State.layersLeft_of_progress hcount]; exact h.after
  · rw [hfld]; exact h.enabled
  · rw [hfld, hroom]; exact h.noRoom

theorem State.LastOverruns.updateDone {x : Tensor} (h : s.LastOverruns j x n) :
    s.updateDone j x n = (s.counted x n).queueStep ((s.counted x n).stepRecord j) := by
  have hdec : (s.counted x n).stp.decided = true := h.decided
  have hdone : (s.counted x n).stepDone j = (s.counted x n).queueStep ((s.counted x n).stepRecord j) := by
    rw [State.stepDone, hdec, h.after]; rfl
  rw [← hdone, State.updateDone, h.before]
  rfl

/-! ### A core that runs as its package stops -/

/-- A register of a core's window is none of those at other offsets. -/
theorem rCore_notMem {o : Nat} {l : List Nat} (ho : o < 0x2000) (h : ∀ p ∈ l, o ≠ p ∧ p < 0x2000) (n : Nat) :
    rCore n o ∉ l.map (rCore n) := by
  intro hm
  obtain ⟨p, hp, he⟩ := List.mem_map.1 hm
  obtain ⟨hne, hlt⟩ := h p hp
  exact rCore_ne hne ho hlt n n he.symm

/-- A halt record leaves the count of retired commands. -/
theorem State.haltRecord_count (w : s.Wf) (n : Nat) {code : Nat} (own noEff : Bool) (a : Attr) (hc : code < 2 ^ 16) :
    (s.haltRecord n code own noEff a).reg (rCore n oCount) = s.reg (rCore n oCount) := by
  by_cases h : s.cfld n oHaltInfo 16 1 = 1
  · rw [State.haltRecord, if_pos h]
  · have hlt : s.cfld n oHaltInfo 16 1 < 2 ^ 1 := bitsOf_lt ..
    obtain ⟨-, -, -, -, hkeep⟩ := State.haltRecord_spec w n own noEff a hc (by omega)
    exact hkeep _ (rCore_notMem (l := [oHaltInfo, oHaltCount, oHaltTag, oHaltTime]) (by decide) (by decide) n)

/-- So does the stop of the core. -/
theorem State.stopCore_count (w : s.Wf) (he : (s.core n).ending = none) {code : Nat} (hc : code < 2 ^ 16) :
    (s.stopCore code n).reg (rCore n oCount) = s.reg (rCore n oCount) := by
  unfold State.stopCore
  split
  · have qn := s.nextAttr_quiet noReg n
    have hrec : s.stopRecord code n = (s.nextAttr n).2.haltRecord n code false false (s.nextAttr n).1 := by rw [State.stopRecord, he]
    have hcount : (s.stopRecord code n).reg (rCore n oCount) = s.reg (rCore n oCount) := by
      rw [hrec, State.haltRecord_count (qn.wf w) n false false _ hc, qn.regs w _ id]
    obtain ⟨⟨-, -, hkeep, -⟩, -⟩ := State.coreToHalted_spec ((s.stopRecord_ofCore code n).wf w) n
    exact (hkeep _ (rCore_notMem (l := [oState, oBank]) (by decide) (by decide) n)).trans hcount
  · rfl

theorem HaltsAs.count {reason : Nat} (e : HaltsAs reason n s t) (he : (s.core n).ending = none) (hc : reason < 2 ^ 16) :
    t.reg (rCore n oCount) = s.reg (rCore n oCount) := by
  obtain ⟨u, h1, h2⟩ := e
  rw [h2.reg, State.stopCore_count h1.wf (h1.core ▸ he) hc, h1.reg]

/-- A core that runs, no core being about to end, as its package raises its own fault (R262). -/
theorem State.raise_haltsAs (w : s.Wf) (hr : s.running = true) (hq : ∀ k ∈ s.used, (s.core k).ending = none) (hn : n ∈ s.used)
    (hl : s.coreLive n = true) (reason unit index : Nat) :
    ∃ code < 2 ^ 16, HaltsAs code n s (s.raise reason unit index) := by
  obtain ⟨u, hu⟩ : ∃ u, u = s.noteFault reason unit index s.now := ⟨_, rfl⟩
  have hsame : SameCore n s u := hu ▸ State.noteFault_sameCore w ..
  have hused : u.used = s.used := hu ▸ (s.noteFault_quiet ..).used
  have hbu : ¬ s.bu < stLoad := by
    have h6 : s.bu = 6 := by simpa [State.running, stRun] using hr
    rw [h6]; decide
  have hraise : s.raise reason unit index = u.stopAsOrigin (u.fld rPfFault 0 16) (u.reg rPfFaultTime) := by
    rw [State.raise, if_neg hbu, if_pos hr, State.noteHalts_none (State.ownHalts_nil fun k hk _ => hq k hk), ← hu]
  rw [hraise]
  exact ⟨_, bitsOf_lt .., .before hsame (State.stopAsOrigin_haltsAs hsame.wf (hused ▸ hn) (hsame.coreLive.trans hl) _ _)⟩

/-- The last UPDATE's STEP record stops the package: the core that runs it halts, the command uncounted. -/
theorem State.LastOverruns.updateDone_halts {x : Tensor} {k : Nat} (h : s.LastOverruns j x k) (w : s.Wf)
    (hq : ∀ k ∈ s.used, (s.core k).ending = none) (hn : n ∈ s.used) (hl : s.coreLive n = true) :
    (s.updateDone j x k).bu = 7 ∧ (s.updateDone j x k).cstate n = 5 ∧ (s.updateDone j x k).stp.staged = s.stp.staged
      ∧ (s.updateDone j x k).reg (rCore n oCount) = s.reg (rCore n oCount) := by
  obtain ⟨u, hu⟩ : ∃ u, u = { s.counted x k with hl :=
    { s.hl with stepQ := (s.hl.stepQ ++ [(s.counted x k).stepRecord j]).take 256 } } := ⟨_, rfl⟩
  have hdone : s.updateDone j x k = u.raise cCqOverrun 6 (portHalf ((s.counted x k).hlPorts.headD 0)) := by
    rw [h.updateDone, hu]
    exact State.queueStep_overruns (s := s.counted x k) h.enabled h.noRoom h.waiting _
  have wu : u.Wf := hu ▸ ⟨w.regs, w.mem, w.ports, w.cores, w.sram, w.sqs, w.cqs⟩
  have hreg : ∀ r, u.reg r = s.reg r := fun r => by rw [hu]; rfl
  have hcore : ∀ k, u.core k = s.core k := fun k => by rw [hu]; rfl
  have hused : u.used = s.used := by rw [hu]; rfl
  have hrun : u.running = true := by rw [hu]; exact h.running
  have hlive : u.coreLive n = true := by rw [hu]; exact hl
  have hend : ∀ k ∈ u.used, (u.core k).ending = none := fun k hk => by rw [hcore]; exact hq k (hused ▸ hk)
  obtain ⟨code, hc, e⟩ := State.raise_haltsAs wu hrun hend (hused ▸ hn) hlive cCqOverrun 6 (portHalf ((s.counted x k).hlPorts.headD 0))
  rw [hdone]
  refine ⟨State.raise_bu wu hrun .., e.cstate hlive, ?_, (e.count (hend n (hused ▸ hn)) hc).trans (hreg _)⟩
  rw [(State.raise_quiet ..).stp, hu]
  rfl

/-! ### The UPDATE -/

section
variable {o : UpdArg} {x : UpdTensors} {pu : PassUse} {k : Nat} {p : RPart} {q : List W32} {rb : List Byte} {xm xw xg : Nat}

/-- A last UPDATE whose STEP record is one too many commits its pass and does not retire. -/
theorem State.LastOverruns.exec_update (h : s.LastOverruns j x.mt o.count) (w : s.Wf) (hready : s.Ready a) (hj : s.job = some j)
    (hrb : j.recipes[o.layer]? = some rb) (hx : j.updTensors o = some x) (hfit : updateFits (recipeOf rb) x.mt o = true)
    (hfmt : updateFmts j (recipeOf rb) o = true) (hr : (recipeOf rb).layerReds = 0) (hheld : s.fab.held = [])
    (hu : s.passUse j x.mt = some pu) (hrun : pu.runs = true) (hplaced : s.PlacedPass j o x pu xm xw xg)
    (hp : s.stagePart j (recipeOf rb) o x.mt x.g pu = .inr (k, p)) (hq : s.passState j (recipeOf rb) o = .inr q)
    (hbad : (oneVals (recipeOf rb) pu q p).bad = false) :
    ∃ t, exec (.update a o) s = .next t ∧ t.reg (rCore a.core oCount) = s.reg (rCore a.core oCount) := by
  have hwin := hready.settled.noneWaits a.core hready.mem_used
  obtain ⟨b, hb, hpass⟩ := State.runPass_commits (k := k) w hx hp hq hr hbad hready.coreLive hwin hready.settled.unstaged o.layer
  obtain ⟨ha, -⟩ := hready.errorFree
  obtain ⟨d, hd, hcommit⟩ := (hplaced.after hb).commitPass (r := recipeOf rb) (pv := oneVals (recipeOf rb) pu q p) hb.wf ha k
  have hsd := hb.trans hd
  obtain ⟨hbu, hdead, hstaged, hcount⟩ := (h.after_pass hsd).updateDone_halts (n := a.core) hd.wf
    (fun k hk => ((hsd.windows k).2).trans (hready.settled.noneEnds k (by rwa [State.used, hsd.job] at hk)))
    (by rw [State.used, hsd.job]; exact hready.mem_used)
    (by rw [State.coreLive, State.cstate_of_regs (hsd.reg _)]; exact hready.coreLive)
  obtain ⟨t, ht⟩ : ∃ t, t = (d.updateDone j x.mt o.count).markUpd a o (.done s.now) := ⟨_, rfl⟩
  have hperform : s.perform j (.update a o) = t := by
    rw [ht, ← hcommit, ← hpass]
    exact (hready.checked _).trans (State.update_runs hrb hx hfit hfmt hr hheld hu hrun)
  have hst : t.stp.staged = [] := by
    have hs := hsd.progress
    simp only [StepSt.progress, Prod.mk.injEq] at hs
    obtain ⟨-, -, -, -, -, hs, -⟩ := hs
    rw [ht]
    exact hstaged.trans (hs.trans hready.settled.unstaged)
  have hlive : t.coreLive a.core = false := by
    have h5 : t.cstate a.core = 5 := ht ▸ hdead
    rw [State.coreLive, h5]; rfl
  have hidle : t.issuing = false := by
    have h7 : t.bu = 7 := ht ▸ hbu
    rw [State.issuing, State.running, h7]; rfl
  refine ⟨t, ?_, ?_⟩
  · rw [exec_stream rfl, hready.coreCmd_performed hj rfl rfl (hperform ▸ hst), hperform, hlive, if_neg (by decide),
      State.settle_of_stopped hidle]
  · rw [ht]
    exact hcount.trans (hsd.reg _)

end

/-! ### The counterexample -/

/-- A recipe of one operation, MASTER − GRAD (Tables 8.6, 8.7 and 8.9): slot 0 takes the gradient, slot 1 the master and the result. -/
def descentRecipe : List Byte :=
  leBytes 2 0x168 ++ leBytes 2 0 ++ [1, 2, 0, 0, 0, 0] ++ [0, 0xFF, 1, 1] ++ List.replicate 6 0xFF ++ List.replicate (0x160 - 20) 0
    ++ [3, 1, 1, 0, 0, 0, 0, 0]

/-- A tensor of one element in update-list layer 0. -/
def oneElem (index fmt kind : Nat) : Tensor :=
  { index, fmt, cls := 0, kind, flags := 0, rank := 1, margin := 0, ns := 0, stage := 0, scale := 0x3F80_0000, dims := [1]
    status := 0xFFFF_FFFF, layer := 0 }

/-- A T32 master, its gradient and its T32 working copy. -/
def oneTensors : UpdTensors := { mt := oneElem 0 0x13 kMaster, g := oneElem 1 0x20 kReduce, wt := oneElem 2 0x13 kWorking }

/-- A job whose one layer is updated by one UPDATE. -/
def oneUpdateJob : Job :=
  { plainJob with
    hdr := { plainJob.hdr with updates := [0] }
    tensors := [oneTensors.mt, oneTensors.g, oneTensors.wt]
    places := [⟨0, 0, 0x1_0000⟩, ⟨1, 0, 0x2_0000⟩, ⟨2, 0, 0x3_0000⟩]
    recipes := [descentRecipe] }

def oneUpdate : UpdArg :=
  { layer := 0, master := 0, first := 0, count := 1, m1 := none, m2 := none, ema := none, state := 0xFFFF_FFFF, work := 2, grad := 1 }

def oneUpdateAttr : Attr := { core := 1, offset := 64, tag := 7, kind := .upd, defined := true, engines := 0 }

/-- Core 1 comes to the one UPDATE of a step that is decided; the STEP CQ of 64 records is full and 256 records wait for it. -/
def sLastUpdate : State := { sStepFull with job := some oneUpdateJob, stp := { sStepFull.stp with decided := true } }

theorem sLastUpdate_wf : sLastUpdate.Wf :=
  have w := sStepFull_wf
  ⟨w.regs, w.mem, w.ports, w.cores, w.sram, w.sqs, w.cqs⟩

theorem sLastUpdate_ready : sLastUpdate.Ready oneUpdateAttr where
  live := by decide
  fetching := by decide
  alone := ⟨rfl, rfl⟩
  settled := ⟨fun _ h => absurd h List.not_mem_nil, fun _ _ => rfl, fun _ _ => rfl, rfl⟩
  unarmed := by decide
  defined := rfl
  engines := by decide
  errorFree := ⟨rfl, rfl⟩
  followed := by decide

theorem sLastUpdate_overruns : sLastUpdate.LastOverruns oneUpdateJob oneTensors.mt oneUpdate.count where
  running := by decide
  decided := rfl
  before := by decide +kernel
  after := by decide +kernel
  enabled := by decide
  noRoom := by decide
  waiting := (List.length_replicate ..).ge

/-- What the pass uses. -/
def sLastUse : PassUse :=
  { step := 0, clip := sLastUpdate.stp.clip, norm := sLastUpdate.norm, index := natT32 1, runs := true, slot := 0 }

theorem sLastUpdate_use : sLastUpdate.passUse oneUpdateJob oneTensors.mt = some sLastUse := rfl

theorem sLastUpdate_placed : sLastUpdate.PlacedPass oneUpdateJob oneUpdate oneTensors sLastUse 0x1_0000 0x3_0000 0x2_0000 where
  good := rfl
  writes := rfl
  m1 := rfl
  m2 := rfl
  ema := rfl
  state := by decide
  fast := by decide
  master := by decide
  work := by decide
  grad := by decide

/-- The staged part of the pass. -/
def sLastStaged : Fetch ⊕ (Nat × RPart) :=
  sLastUpdate.stagePart oneUpdateJob (recipeOf descentRecipe) oneUpdate oneTensors.mt oneTensors.g sLastUse

theorem sLastStaged_isRight : sLastStaged.isRight = true := by decide +kernel

/-- What the pass deposits. -/
def sLastVals : PassVals := oneVals (recipeOf descentRecipe) sLastUse [] (sLastStaged.getRight sLastStaged_isRight).2

theorem sLastVals_good : sLastVals.bad = false := by decide +kernel

/-- The bytes that the pass stores of the master and of the gradient. -/
theorem sLastUpdate_lengths :
    (sLastUpdate.floatBytes oneUpdateJob oneTensors.mt 0 1 sLastVals.keep
      (sLastUpdate.elemCvts oneUpdateJob oneTensors.mt sLastUse.step 0 (sLastVals.out 1))).length = 4
    ∧ ((List.range 1).flatMap (fun _ => zeroElem oneTensors.g.ns)).length = 8 := by decide +kernel

/-- The recipe, its tensors and its checks. -/
theorem sLastUpdate_checks : updateFits (recipeOf descentRecipe) oneTensors.mt oneUpdate = true
    ∧ updateFmts oneUpdateJob (recipeOf descentRecipe) oneUpdate = true ∧ (recipeOf descentRecipe).layerReds = 0
    ∧ sLastUpdate.passState oneUpdateJob (recipeOf descentRecipe) oneUpdate = .inr [] := by decide +kernel

/-- Refutes O31: where the STEP record that the step's last UPDATE posts is the 257th that waits, the pass commits, but the package stops
with CQ_OVERRUN (R344), so that the UPDATE does not retire. -/
theorem not_updateCommitsOrHalts : ¬ Obligations.UpdateCommitsOrHalts := by
  unfold Obligations.UpdateCommitsOrHalts
  intro h
  obtain ⟨hfit, hfmt, hreds, hq⟩ := sLastUpdate_checks
  obtain ⟨hms, hzs⟩ := sLastUpdate_lengths
  have hp : sLastUpdate.stagePart oneUpdateJob (recipeOf descentRecipe) oneUpdate oneTensors.mt oneTensors.g sLastUse
      = .inr (sLastStaged.getRight sLastStaged_isRight) := (Sum.inr_getRight _ sLastStaged_isRight).symm
  have hops := Recipe.ops_of_noLayerReds hreds
  have placed := sLastUpdate_placed
  obtain ⟨-, hrun⟩ := h oneUpdateAttr oneUpdate oneUpdateJob descentRecipe oneTensors.mt oneTensors.g oneTensors.wt sLastUpdate
    sLastUpdate_wf sLastUpdate_ready rfl rfl rfl rfl rfl hfit hfmt rfl rfl hreds rfl rfl sLastUse sLastUpdate_use
  obtain ⟨-, hcommit⟩ := hrun _ _ [] _ _ rfl hp hq (REnv.run_steps hops _) (REnv.run_steps hops _)
  obtain ⟨t, ht, ⟨hcount, -⟩, -⟩ := hcommit 0x1_0000 0x3_0000 0x2_0000 sLastVals_good rfl rfl rfl placed.state placed.master placed.work
    placed.grad (.inl (hms ▸ by decide)) (.inl (hms ▸ by decide)) (.inr (hzs ▸ by decide))
  obtain ⟨u, hu, hsame⟩ := sLastUpdate_overruns.exec_update sLastUpdate_wf sLastUpdate_ready rfl rfl rfl hfit hfmt hreds rfl
    sLastUpdate_use rfl placed hp hq sLastVals_good
  obtain rfl : t = u := Host.Outcome.next.inj (ht.symm.trans hu)
  rw [hcount] at hsame
  exact absurd hsame (by decide)

end Sys2Proof.Machine
end

section
/-! SUPPORT. What every command keeps of the queue, the messages and the signatures; a change of registers, ports, the fabric and messages
alone, which no core sees. -/

namespace Sys2Proof.Machine
open Sys2Proof

-- Proofs elaborated in threads of their own would pass the check's limit of memory.
set_option Elab.async false

variable {s t u : State} {R S : List Nat}

/-- Settles O6: each command's meaning keeps, whatever it does to the fused records. -/
theorem commandsKeepQueueAndMessages : Obligations.CommandsKeepQueueAndMessages := by
  intro c s t e
  obtain ⟨n, h⟩ := (Keeps.refl s).execAny c
  rw [e] at h
  exact ⟨h.pending, h.outbox, h.sigs⟩

/-! ### Changes outside the cores -/

/-- From `s` to `t` only ports, the fabric and the registers of `R` have changed, and messages have been sent. A proof follows the operation,
as with `Keeps`. -/
structure Wired (R : List Nat) (s t : State) : Prop where
  wf     : t.Wf
  frame  : t = { s with regs := t.regs, ports := t.ports, fab := t.fab, outbox := t.outbox }
  outbox : s.outbox <+: t.outbox
  regs   : ∀ r, r ∉ R → t.reg r = s.reg r

namespace Wired

theorem refl (w : s.Wf) (R : List Nat) : Wired R s s := ⟨w, rfl, List.prefix_rfl, fun _ _ => rfl⟩

theorem trans (h : Wired R s t) (k : Wired R t u) : Wired R s u :=
  ⟨k.wf, by rw [k.frame, h.frame], h.outbox.trans k.outbox, fun r hr => (k.regs r hr).trans (h.regs r hr)⟩

theorem mono (h : Wired R s t) (hR : R ⊆ S) : Wired S s t := ⟨h.wf, h.frame, h.outbox, fun r hr => h.regs r fun hm => hr (hR hm)⟩

theorem setReg (h : Wired R s t) {a : Nat} (ha : a ∈ R) (x : Nat) : Wired R s (t.setReg a x) where
  wf := (Quiet.setReg t a x).wf h.wf
  frame := by rw [State.setReg, h.frame]
  outbox := h.outbox
  regs r hr := (State.reg_setReg_ne h.wf.regs (fun e : r = a => hr (e ▸ ha)) x).trans (h.regs r hr)

theorem setFld (h : Wired R s t) {a : Nat} (ha : a ∈ R) (lo l x : Nat) : Wired R s (t.setFld a lo l x) := h.setReg ha _

theorem addFld (h : Wired R s t) {a : Nat} (ha : a ∈ R) (lo l x : Nat) : Wired R s (t.addFld a lo l x) := h.setReg ha _

theorem setPort (h : Wired R s t) (p : Nat) (v : PortSt) : Wired R s (t.setPort p v) where
  wf := (Quiet.setPort noReg t p v).wf h.wf
  frame := by rw [State.setPort, h.frame]
  outbox := h.outbox
  regs := h.regs

theorem setFab (h : Wired R s t) (f : Fab) : Wired R s { t with fab := f } where
  wf := (Quiet.setFab noReg t f).wf h.wf
  frame := by rw [h.frame]
  outbox := h.outbox
  regs := h.regs

theorem emit (h : Wired R s t) (o : Out) : Wired R s (t.emit o) where
  wf := (Quiet.emit noReg t o).wf h.wf
  frame := by rw [State.emit, h.frame]
  outbox := h.outbox.trans (List.prefix_append ..)
  regs := h.regs

theorem ite {c : Prop} [Decidable c] (h : Wired R s t) (k : Wired R s u) : Wired R s (if c then t else u) := by
  split
  · exact h
  · exact k

theorem foldl {α : Type} {f : State → α → State} {l : List α} (h : Wired R s t) (hf : ∀ {t} x, x ∈ l → Wired R s t → Wired R s (f t x)) :
    Wired R s (l.foldl f t) := List.foldlRecOn (motive := Wired R s) _ _ h fun _ h x hx => hf x hx h

theorem mem (h : Wired R s t) : t.mem = s.mem := by rw [h.frame]
theorem bad (h : Wired R s t) : t.bad = s.bad := by rw [h.frame]
theorem failing (h : Wired R s t) : t.failing = s.failing := by rw [h.frame]
theorem nv (h : Wired R s t) : t.nv = s.nv := by rw [h.frame]
theorem job (h : Wired R s t) : t.job = s.job := by rw [h.frame]
theorem stp (h : Wired R s t) : t.stp = s.stp := by rw [h.frame]
theorem hl (h : Wired R s t) : t.hl = s.hl := by rw [h.frame]
theorem cores (h : Wired R s t) : t.cores = s.cores := by rw [h.frame]
theorem core (h : Wired R s t) (n : Nat) : t.core n = s.core n := by rw [State.core, h.cores]; rfl
theorem used (h : Wired R s t) : t.used = s.used := by rw [State.used, h.job]; rfl
theorem stream? (h : Wired R s t) (k : Nat) : t.stream? k = s.stream? k := by rw [State.stream?, h.job]; rfl
theorem inst? (h : Wired R s t) (k : Nat) : t.inst? k = s.inst? k := by rw [State.inst?, h.job]; rfl
theorem flitsOf (h : Wired R s t) (c : Stream) : t.flitsOf c = s.flitsOf c := by rw [State.flitsOf, h.stp]; rfl
theorem anyWaits (h : Wired R s t) : t.anyWaits = s.anyWaits := by
  simp only [State.anyWaits, h.used, h.core]

theorem fld (h : Wired R s t) {r : Nat} (hr : r ∉ R) (lo l : Nat) : t.fld r lo l = s.fld r lo l := by
  rw [State.fld, h.regs r hr]; rfl

theorem bu (h : Wired R s t) (hr : rBuState ∉ R) : t.bu = s.bu := h.fld hr ..
theorem running (h : Wired R s t) (hr : rBuState ∉ R) : t.running = s.running := by rw [State.running, h.bu hr]; rfl
theorem issuing (h : Wired R s t) (hr : rBuState ∉ R) : t.issuing = s.issuing := by rw [State.issuing, h.running hr, h.stp]; rfl
theorem now (h : Wired R s t) (hr : rPfPackTime ∉ R) : t.now = s.now := h.regs _ hr
theorem beat (h : Wired R s t) (hr : rPfBeat ∉ R) : t.beat = s.beat := h.fld hr ..
theorem armed (h : Wired R s t) (hr : rPfDbgStat ∉ R) : t.armed = s.armed := by rw [State.armed, h.fld hr]; rfl
theorem herdIndex (h : Wired R s t) (hr : rPfHerd ∉ R) : t.herdIndex = s.herdIndex := h.fld hr ..
theorem coreLive (h : Wired R s t) (hR : ∀ r ∈ R, r < coreBase) (n : Nat) : t.coreLive n = s.coreLive n := by
  rw [State.coreLive, State.cstate_of_regs (h.regs _ fun hm => rCore_ne_low (hR _ hm) rfl)]; rfl

/-- No register of a core is among those of `R`: the halts that wait are as before. -/
theorem ownHalts (h : Wired R s t) (hR : ∀ r ∈ R, r < coreBase) : t.ownHalts = s.ownHalts := by
  simp only [State.ownHalts, h.used, h.core, h.coreLive hR]

/-- Nothing follows where nothing waits. -/
theorem settle (h : Wired R s t) (hn : s.anyWaits = false) : t.settle = t := by
  rw [State.settle, h.anyWaits, hn, Bool.and_false]
  exact if_neg (by decide)

end Wired

theorem OnRegs.wired (h : OnRegs R s t) : Wired R s t where
  wf := h.wf
  frame := by rw [h.only.1]
  outbox := by rw [h.only.1]
  regs := h.only.2

/-- With nothing waiting in the cores, no halt waits to be reported. -/
theorem State.ownHalts_of_noneWaits (hn : s.anyWaits = false) : s.ownHalts = [] := by
  refine State.ownHalts_nil fun n hn' _ => ?_
  have := List.any_eq_false.1 hn n hn'
  simpa using (by simpa using this : _ ∧ _).2

/-- A port after another one is written. -/
theorem State.Wf.port_setPort (w : s.Wf) (p q : Nat) (v : PortSt) : (s.setPort p v).port q = if q = p then v else s.port q :=
  State.port_setPort w.ports p q v

theorem State.Wf.port_setPort_same (w : s.Wf) (p : Nat) (v : PortSt) : (s.setPort p v).port p = v :=
  (w.port_setPort p p v).trans (if_pos rfl)

theorem State.Wf.port_setPort_ne (w : s.Wf) {p q : Nat} (h : q ≠ p) (v : PortSt) : (s.setPort p v).port q = s.port q :=
  (w.port_setPort p q v).trans (if_neg h)

/-- Pack time of a schedule slot where the beat, the fabric's time base and the run are as before. -/
theorem State.packOf_eq (hb : t.beat = s.beat) (h1 : t.fab.beatStart = s.fab.beatStart) (h2 : t.stretchTable = s.stretchTable)
    (h3 : t.stp = s.stp) (q : Nat) : t.packOf q = s.packOf q := by
  simp only [State.packOf, State.beatTime, hb, h1, h2, h3]

/-! ### A command that answers -/

theorem whenLive_of_live (hd : s.dark = false) (f : State → State) : s.whenLive f = .next (f s) := next_of_live hd

theorem whenTimed_of_live (hd : s.dark = false) (f : State → State) : s.whenTimed f = .next (f s).settle := whenLive_of_live hd _

end Sys2Proof.Machine
end

section
/-! SUPPORT. What the slots that pass leave of each port (R242, R245, R250, R257, R263, R268, R271), and an empty queue (log entry 51). -/

namespace Sys2Proof.Machine
open Sys2Proof

-- Proofs elaborated in threads of their own would pass the check's limit of memory.
set_option Elab.async false

variable {s t u : State} {p q b : Nat} {v w : PortSt}

/-! ### One port whose slots are filled -/

/-- Between `v` and `w` a port has filled slots below `b`: what waited on it may have gone out. -/
structure Filling (b : Nat) (v w : PortSt) : Prop where
  same  : w = { v with carried := w.carried, timeDue := w.timeDue, stops := w.stops, annOut := w.annOut, annSent := w.annSent }
  stops : v.stops = [] → w.stops = []
  low   : v.carried ≤ w.carried
  high  : w.carried ≤ max v.carried b

theorem Filling.refl (b : Nat) (v : PortSt) : Filling b v v := ⟨rfl, id, le_rfl, le_max_left ..⟩

theorem Filling.trans {x : PortSt} (h : Filling b v w) (k : Filling b w x) : Filling b v x where
  same := by rw [k.same, h.same]
  stops e := k.stops (h.stops e)
  low := h.low.trans k.low
  high := by have := h.high; have := k.high; omega

theorem Filling.naks (h : Filling b v w) : w.naks = v.naks := by rw [h.same]

/-- The first of the times of `l` after `a`, and `b` where none comes before it. -/
theorem foldl_min_bounds (l : List Nat) (a b : Nat) (hab : a < b) :
    a < (l.filter (fun t => decide (a < t))).foldl min b ∧ (l.filter (fun t => decide (a < t))).foldl min b ≤ b := by
  refine List.foldlRecOn (motive := fun m => a < m ∧ m ≤ b) _ _ ⟨hab, le_rfl⟩ fun m hm x hx => ?_
  have : a < x := by simpa using (List.mem_filter.1 hx).2
  omega

theorem State.le_nextAnn (s : State) (p k t : Nat) : t ≤ s.nextAnn p k t := by
  induction k generalizing t with
  | zero => exact le_rfl
  | succ k ih =>
    unfold State.nextAnn
    dsimp only
    have h : t ≤ if 256 ≤ s.placeOf t then t else t + (15 - s.placeOf t % 16) := by split <;> omega
    generalize (if 256 ≤ s.placeOf t then t else t + (15 - s.placeOf t % 16)) = c at h
    split
    · exact h
    · exact h.trans ((Nat.le_succ c).trans (ih (c + 1)))

/-- From `s` to `t` port `p` has filled slots below `b`. -/
structure FillsPort (p b : Nat) (s t : State) : Prop where
  wired : Wired [] s t
  fab   : t.fab = s.fab
  other : ∀ q, q ≠ p → t.port q = s.port q
  own   : Filling b (s.port p) (t.port p)

theorem FillsPort.refl (w : s.Wf) (p b : Nat) : FillsPort p b s s := ⟨.refl w _, rfl, fun _ _ => rfl, .refl ..⟩

theorem FillsPort.trans (h : FillsPort p b s t) (k : FillsPort p b t u) : FillsPort p b s u :=
  ⟨h.wired.trans k.wired, k.fab.trans h.fab, fun q hq => (k.other q hq).trans (h.other q hq), h.own.trans k.own⟩

/-- The port fills slots up to one that is not after `b`, and a message leaves. -/
theorem FillsPort.fill (w : s.Wf) (h : Filling b (s.port p) v) (o : Out) : FillsPort p b s ((s.setPort p v).emit o) where
  wired := ((Wired.refl w _).setPort p v).emit o
  fab := rfl
  other _ hq := w.port_setPort_ne hq v
  own := by rw [show ((s.setPort p v).emit o).port p = v from w.port_setPort_same p v]; exact h

theorem FillsPort.fillOnce (wf : s.Wf) (p b : Nat) : FillsPort p b s (s.fillOnce p b) := by
  unfold State.fillOnce
  extract_lets +onlyGivenNames v a
  split
  · exact .refl wf p b
  · next hb =>
    extract_lets +onlyGivenNames nak e idle
    have he : a < e ∧ e ≤ b := by
      unfold e
      split
      · omega
      · exact foldl_min_bounds _ _ _ (by omega)
    clear_value nak e
    have carry {c : Nat} (h1 : a ≤ c) (h2 : c ≤ b) : Filling b v { v with carried := c } :=
      ⟨rfl, id, h1, h2.trans (le_max_right ..)⟩
    have hnext : a + 1 ≤ max v.carried b := by omega
    have hidle : ∀ x, a < x → x ≤ b → FillsPort p b s (idle x) := fun x h1 h2 => .fill wf (carry h1.le h2) _
    split
    · next r hr =>
      refine .fill wf ⟨rfl, fun hs => ?_, Nat.le_add_right .., ?_⟩ _
      · rw [show v.stops = [] from hs] at hr; cases hr
      · refine le_trans ?_ (le_max_right ..)
        dsimp only
        split <;> omega
    · split
      · extract_lets x
        have hx : a ≤ x := State.le_nextAnn ..
        clear_value x
        split
        · exact hidle _ (by omega) (by omega)
        · split
          · refine .fill wf ?_ _
            exact ⟨rfl, id, Nat.le_succ a, hnext⟩
          · split
            · refine .fill wf ?_ _
              exact ⟨rfl, id, Nat.le_succ a, hnext⟩
            · exact .refl wf p b
      · exact hidle _ he.1 he.2

theorem FillsPort.fillTo (w : s.Wf) (p b k : Nat) : FillsPort p b s (s.fillTo p b k) := by
  induction k generalizing s with
  | zero => exact .refl w p b
  | succ k ih =>
    have h := FillsPort.fillOnce w p b
    exact h.trans (ih h.wired.wf)

/-! ### The ports whose slots pass -/

/-- What the slots before `b` leave of an UP FABRIC port. -/
structure Filled (b : Nat) (v w : PortSt) : Prop where
  same  : w = { v with naks := w.naks, carried := max v.carried b, timeDue := w.timeDue, stops := w.stops, annOut := w.annOut
                       annSent := w.annSent }
  stops : v.stops = [] → w.stops = []
  nakAt : ∀ t, b ≤ t → w.nakAt t = v.nakAt t

theorem PortSt.nakAt_filter (v : PortSt) {t : Nat} (h : b ≤ t) :
    ((({ v with naks := v.naks.filter (fun e => decide (b ≤ e.1)) } : PortSt)).nakAt t) = v.nakAt t := by
  unfold PortSt.nakAt
  rw [List.filter_filter]
  congr 2
  refine List.filter_congr fun e _ => ?_
  by_cases he : e.1 = t
  · simp [he, h]
  · simp [he]

theorem State.fillPort_spec (w : s.Wf) (p b : Nat) : Wired [] s (s.fillPort p b) ∧ (s.fillPort p b).fab = s.fab
    ∧ (∀ q, q ≠ p → (s.fillPort p b).port q = s.port q) ∧ Filled b (s.port p) ((s.fillPort p b).port p) := by
  unfold State.fillPort
  extract_lets v k x
  have h : FillsPort p b s k := FillsPort.fillTo w p b _
  clear_value k
  refine ⟨h.wired.setPort .., h.fab, fun q hq => (h.wired.wf.port_setPort_ne hq _).trans (h.other q hq), ?_⟩
  rw [h.wired.wf.port_setPort_same]
  have hlow := h.own.low
  have hhigh := h.own.high
  refine ⟨?_, h.own.stops, fun t ht => ?_⟩
  · have hx : x = k.port p := rfl
    clear_value x
    subst hx
    rw [show max (k.port p).carried b = max (s.port p).carried b by omega, h.own.same]
  · exact (x.nakAt_filter ht).trans (by rw [PortSt.nakAt, h.own.naks]; rfl)

/-- A walk over ports of which each changes its own alone. -/
theorem foldl_ports {f : State → Nat → State} {P : PortSt → PortSt → Prop}
    (hf : ∀ s p, s.Wf → (f s p).Wf ∧ (∀ q, q ≠ p → (f s p).port q = s.port q) ∧ P (s.port p) ((f s p).port p))
    {l : List Nat} (hl : l.Nodup) (w : s.Wf) : (∀ q, q ∉ l → (l.foldl f s).port q = s.port q)
      ∧ ∀ q ∈ l, P (s.port q) ((l.foldl f s).port q) := by
  induction l generalizing s with
  | nil => exact ⟨fun _ _ => rfl, fun q hq => absurd hq List.not_mem_nil⟩
  | cons p l ih =>
    obtain ⟨hp, hn⟩ := List.nodup_cons.1 hl
    obtain ⟨w1, hother, hown⟩ := hf s p w
    obtain ⟨hout, hin⟩ := ih hn w1
    rw [List.foldl_cons]
    refine ⟨fun q hq => ?_, fun q hq => ?_⟩
    · rw [List.mem_cons, not_or] at hq
      exact (hout q hq.2).trans (hother q hq.1)
    · rcases List.mem_cons.1 hq with rfl | hq
      · rw [hout q hp]; exact hown
      · have h := hin q hq
        rwa [hother q fun e => hp (e ▸ hq)] at h

theorem State.mem_fabricUp : p ∈ s.fabricUp ↔ p < 18 ∧ s.mode p = 1 ∧ s.portUp p = true := by
  simp [State.fabricUp, allPorts]

theorem State.fabricUp_nodup (s : State) : s.fabricUp.Nodup := List.nodup_range.filter _

theorem State.passSlots_spec (w : s.Wf) (b : Nat) : Wired [] s (s.passSlots b) ∧ (s.passSlots b).fab = s.fab
    ∧ (∀ q, q ∉ s.fabricUp → (s.passSlots b).port q = s.port q) ∧ ∀ q ∈ s.fabricUp, Filled b (s.port q) ((s.passSlots b).port q) := by
  have hw : Wired [] s (s.passSlots b) := (Wired.refl w _).foldl fun p _ h => h.trans (State.fillPort_spec h.wf p b).1
  have hf : (s.passSlots b).fab = s.fab ∧ (s.passSlots b).Wf :=
    List.foldlRecOn (motive := fun t : State => t.fab = s.fab ∧ t.Wf) _ _ ⟨rfl, w⟩ fun t ht p _ =>
      have h := State.fillPort_spec ht.2 p b
      ⟨h.2.1.trans ht.1, h.1.wf⟩
  obtain ⟨hout, hin⟩ := foldl_ports (P := Filled b) (f := fun s p => s.fillPort p b)
    (fun s p w => ⟨(State.fillPort_spec w p b).1.wf, (State.fillPort_spec w p b).2.2⟩) s.fabricUp_nodup w
  exact ⟨hw, hf.1, hout, hin⟩

theorem State.silent_spec (w : s.Wf) (n : Nat) : Wired [] s (s.silent n) ∧ (s.silent n).fab = s.fab ∧ (s.silent n).outbox = s.outbox
    ∧ ∀ q, (s.silent n).port q
      = if q < 18 ∧ s.portUp q = true then { s.port q with silence := (s.port q).silence + n } else s.port q := by
  have hw : Wired [] s (s.silent n) := (Wired.refl w _).foldl fun p _ h => h.setPort ..
  obtain ⟨hout, hin⟩ := foldl_ports (P := fun v x => x = { v with silence := v.silence + n })
    (f := fun s p => s.setPort p { s.port p with silence := (s.port p).silence + n })
    (fun s p w => ⟨((Wired.refl w []).setPort ..).wf, fun q hq => w.port_setPort_ne hq _, w.port_setPort_same ..⟩)
    (List.nodup_range.filter s.portUp) w
  refine ⟨hw, foldl_keep State.fab (f := fun s p => s.setPort p _) (fun _ _ => rfl) _ s,
    foldl_keep State.outbox (f := fun s p => s.setPort p _) (fun _ _ => rfl) _ s, fun q => ?_⟩
  split
  · next h => exact hin q (List.mem_filter.2 ⟨List.mem_range.2 h.1, h.2⟩)
  · next h => exact hout q fun hm => h ⟨List.mem_range.1 (List.mem_filter.1 hm).1, (List.mem_filter.1 hm).2⟩

/-! ### Pack time moves on -/

theorem State.advanceTo_of_le (h : b ≤ s.now) : s.advanceTo b = s := if_neg (by omega)

theorem State.advanceTo_of_lt (h : s.now < b) : s.advanceTo b = ((s.passSlots b).setReg rPfPackTime b).silent (b - s.now) := if_pos h

/-- Pack time moves on through registers, ports and messages alone. -/
theorem State.advanceTo_wired (w : s.Wf) (b : Nat) : Wired [rPfPackTime] s (s.advanceTo b) := by
  by_cases h : s.now < b
  · have h1 : Wired [rPfPackTime] s ((s.passSlots b).setReg rPfPackTime b) :=
      ((State.passSlots_spec w b).1.mono (List.nil_subset _)).setReg (by simp) b
    rw [State.advanceTo_of_lt h]
    exact h1.trans ((State.silent_spec h1.wf _).1.mono (List.nil_subset _))
  · rw [State.advanceTo_of_le (by omega)]
    exact .refl w _

/-- The port registers are none of those of pack time and the faults. -/
theorem rPort_ne_packTime (p : Nat) : rPortMode p ≠ rPfPackTime ∧ rPortStat p ≠ rPfPackTime ∧ rPortLink p ≠ rPfPackTime
    ∧ rPortErr p ≠ rPfPackTime := by
  simp only [rPortMode, rPortStat, rPortLink, rPortErr, rPfPackTime]
  omega

theorem Wired.portUp {R : List Nat} (h : Wired R s t) (hr : rPortStat p ∉ R) : t.portUp p = s.portUp p := by
  rw [State.portUp, State.portState, h.fld hr]; rfl

theorem Wired.mode {R : List Nat} (h : Wired R s t) (hr : rPortMode p ∉ R) : t.mode p = s.mode p := h.fld hr ..

theorem Wired.lambda {R : List Nat} (h : Wired R s t) (hr : rPortLink p ∉ R) : t.lambda p = s.lambda p := h.fld hr ..

/-- What each port is once pack time has come to `b`. -/
theorem State.advanceTo_port (w : s.Wf) (h : s.now < b) (q : Nat) :
    (q ∈ s.fabricUp → ∃ x, Filled b (s.port q) x ∧ (s.advanceTo b).port q = { x with silence := x.silence + (b - s.now) })
    ∧ (q ∉ s.fabricUp → (s.advanceTo b).port q
        = if q < 18 ∧ s.portUp q = true then { s.port q with silence := (s.port q).silence + (b - s.now) } else s.port q) := by
  obtain ⟨hw, -, hout, hin⟩ := State.passSlots_spec w b
  have h1 : Wired [rPfPackTime] s ((s.passSlots b).setReg rPfPackTime b) := (hw.mono (List.nil_subset _)).setReg (by simp) b
  have hs := (State.silent_spec h1.wf (b - s.now)).2.2.2 q
  have hup : ((s.passSlots b).setReg rPfPackTime b).portUp q = s.portUp q := h1.portUp (by simp [(rPort_ne_packTime q).2.1])
  rw [State.advanceTo_of_lt h, hs, hup]
  refine ⟨fun hq => ⟨_, hin q hq, ?_⟩, fun hq => ?_⟩
  · obtain ⟨h18, -, hu⟩ := State.mem_fabricUp.1 hq
    rw [if_pos ⟨h18, hu⟩]; rfl
  · have e : ((s.passSlots b).setReg rPfPackTime b).port q = s.port q := hout q hq
    rw [e]

/-- What no slot that passes changes of a port. -/
structure Passed (b : Nat) (v w : PortSt) : Prop where
  same  : w = { v with silence := w.silence, naks := w.naks, carried := w.carried, timeDue := w.timeDue, stops := w.stops
                       annOut := w.annOut, annSent := w.annSent }
  stops : v.stops = [] → w.stops = []
  nakAt : ∀ t, b ≤ t → w.nakAt t = v.nakAt t

theorem State.advanceTo_passed (w : s.Wf) (b q : Nat) : Passed b (s.port q) ((s.advanceTo b).port q) := by
  by_cases h : s.now < b
  · by_cases hq : q ∈ s.fabricUp
    · obtain ⟨x, hx, e⟩ := (State.advanceTo_port w h q).1 hq
      rw [e]
      exact ⟨by rw [hx.same], hx.stops, hx.nakAt⟩
    · rw [(State.advanceTo_port w h q).2 hq]
      split
      · exact ⟨rfl, id, fun _ _ => rfl⟩
      · exact ⟨rfl, id, fun _ _ => rfl⟩
  · rw [State.advanceTo_of_le (by omega)]
    exact ⟨rfl, id, fun _ _ => rfl⟩

/-! ### An empty queue -/

/-- A port on which nothing waits sends IDLE until `b`. -/
theorem State.fillPort_idle (w : s.Wf) (hc : (s.port p).carried < b) (hn : (s.port p).naks = []) (hs : (s.port p).stops = [])
    (ha : (s.port p).annOut = []) (ht : (s.port p).timeDue = false) :
    (s.fillPort p b).outbox = s.outbox ++ [.idle p (s.port p).carried (b - (s.port p).carried) s.fab.idleHold none] := by
  have hnak : ∀ t, (s.port p).nakAt t = none := fun t => by rw [PortSt.nakAt, hn]; rfl
  obtain ⟨u, hu⟩ : ∃ u, u = (s.setPort p { s.port p with carried := b }).emit
    (.idle p (s.port p).carried (b - (s.port p).carried) s.fab.idleHold none) := ⟨_, rfl⟩
  have h1 : s.fillOnce p b = u := by
    unfold State.fillOnce
    simp [show ¬ b ≤ (s.port p).carried by omega, hnak, hn, hs, ha, ht, hu]
  have hport : u.port p = { s.port p with carried := b } := hu ▸ w.port_setPort_same ..
  have hstay : ∀ k, u.fillTo p b k = u := fun k => by
    induction k with
    | zero => rfl
    | succ k ih =>
      have hfull : u.fillOnce p b = u := by
        unfold State.fillOnce
        dsimp only
        exact if_pos (by rw [hport])
      rw [State.fillTo, hfull, ih]
  unfold State.fillPort
  dsimp only
  rw [hn, hs, ha]
  have hfill : s.fillTo p b 4 = u := by rw [State.fillTo, h1, hstay]
  simp only [List.length_nil, Nat.add_zero, Nat.mul_zero, Nat.zero_add, hfill]
  rw [hu]; rfl

/-- On an idle package every UP FABRIC port sends one IDLE. -/
theorem State.passSlots_idle (w : s.Wf) (h : ∀ p ∈ s.fabricUp, (s.port p).naks = [] ∧ (s.port p).stops = [] ∧ (s.port p).annOut = []
      ∧ (s.port p).timeDue = false ∧ (s.port p).carried = s.now) :
    (s.passSlots (s.now + 1)).outbox = s.outbox ++ s.fabricUp.map (fun p => .idle p s.now 1 s.fab.idleHold none) := by
  unfold State.passSlots
  have hnd := s.fabricUp_nodup
  generalize s.now = n at h ⊢
  generalize s.fabricUp = l at h hnd ⊢
  induction l generalizing s with
  | nil => simp
  | cons p l ih =>
    obtain ⟨hp, hl⟩ := List.nodup_cons.1 hnd
    obtain ⟨hn, hs, ha, ht, hc⟩ := h p List.mem_cons_self
    obtain ⟨hw, hfab, hother, -⟩ := State.fillPort_spec w p (n + 1)
    have hone := State.fillPort_idle (b := n + 1) w (by omega) hn hs ha ht
    rw [hc, Nat.add_sub_cancel_left] at hone
    have hrest := ih hw.wf (fun q hq => by
      rw [hother q fun e => hp (e ▸ hq)]
      exact h q (List.mem_cons_of_mem _ hq)) hl
    rw [List.foldl_cons, hrest, hone, hfab, List.map_cons, List.append_assoc, List.singleton_append]

/-- Settles O2: with no job issuing, a slot of time is pack time's step alone. -/
theorem emptyQueuePassesOneSlot : Obligations.EmptyQueuePassesOneSlot := by
  intro s hq
  have hstep : step s = .next s.tick := by rw [step, hq]
  refine ⟨fun hd => ?_, fun hd hi w => ?_⟩
  · rw [hstep, State.tick, if_pos hd]
  have hlt : s.now < s.now + 1 := Nat.lt_succ_self _
  have hw := State.advanceTo_wired w (s.now + 1)
  have htick : s.tick = s.advanceTo (s.now + 1) := by
    rw [State.tick, if_neg (by simp [hd]), State.settle_of_stopped]
    rw [hw.issuing (by decide), hi]
  refine ⟨s.advanceTo (s.now + 1), hstep.trans (by rw [htick]), s.advanceTo_frame _, fun r hr => hw.regs r (by simpa using hr), ?_,
    hw.outbox, fun p hp => ?_, fun p h18 hup hm => ?_, fun p hp => ?_, fun hidle => ?_⟩
  · rw [State.now, (s.advanceTo_spec _).reg, if_pos hlt, State.reg_setReg w.regs, if_pos rfl]
  · have hnot : p ∉ s.fabricUp := fun hm => hp ⟨(State.mem_fabricUp.1 hm).1, (State.mem_fabricUp.1 hm).2.2⟩
    rw [(State.advanceTo_port w hlt p).2 hnot, if_neg hp]
  · have hnot : p ∉ s.fabricUp := fun hmem => hm (State.mem_fabricUp.1 hmem).2.1
    rw [(State.advanceTo_port w hlt p).2 hnot, if_pos ⟨h18, hup⟩, Nat.add_sub_cancel_left]
  · obtain ⟨x, hx, e⟩ := (State.advanceTo_port w hlt p).1 hp
    rw [e, Nat.add_sub_cancel_left, hx.same]
  · rw [State.advanceTo_of_lt hlt, (State.silent_spec ((((State.passSlots_spec w _).1).mono (List.nil_subset _)).setReg
      (R := [rPfPackTime]) (by simp) _).wf _).2.2.1]
    exact State.passSlots_idle w hidle

end Sys2Proof.Machine
end

section
/-! SUPPORT. The package's own fault in RUN (R262, R265, R421, R424). -/

namespace Sys2Proof.Machine
open Sys2Proof

-- Proofs elaborated in threads of their own would pass the check's limit of memory.
set_option Elab.async false

variable {s : State}

theorem State.recordFault_valid (w : s.Wf) (reason unit index time later : Nat) :
    (s.recordFault reason unit index time later).fld rPfFault 16 1 = 1
      ∧ (s.recordFault reason unit index time later).reg rPfFaultTime ≤ time := by
  obtain ⟨u, hu⟩ : ∃ u, u = s.setReg rPfFault
      (reason % 2 ^ 16 + 2 ^ 16 + 2 ^ 17 * (unit % 8) + 2 ^ 20 * (index % 2 ^ 11) + 2 ^ 48 * later) := ⟨_, rfl⟩
  have wu : u.Wf := hu ▸ (Quiet.setReg s rPfFault _).wf w
  have e : s.recordFault reason unit index time later = u.setReg rPfFaultTime time := by rw [hu]; rfl
  rw [e]
  refine ⟨?_, ?_⟩
  · rw [State.fld, State.reg_setReg_ne wu.regs (by decide), hu, State.reg_setReg w.regs, if_pos rfl, bitsOf]
    omega
  · rw [State.reg_setReg wu.regs, if_pos rfl]
    exact Nat.mod_le ..

/-- Once a fault has been noted PF_FAULT holds one, detected no later than it. -/
theorem State.noteFault_valid (w : s.Wf) (reason unit index time : Nat) :
    (s.noteFault reason unit index time).fld rPfFault 16 1 = 1 ∧ (s.noteFault reason unit index time).reg rPfFaultTime ≤ time := by
  unfold State.noteFault
  split
  · have hregs : ∀ u : State, ∀ r, (u.ibiBoth reason).reg r = u.reg r := fun u r => by
      rw [State.reg, (State.ibiBoth_keeps _ _).1]; rfl
    rw [State.fld, hregs, hregs]
    exact State.recordFault_valid w ..
  · next h =>
    extract_lets later t
    split
    · exact State.recordFault_valid w ..
    · next ht =>
      have hbit : s.fld rPfFault 16 1 < 2 := bitsOf_lt _ 16 1
      rw [State.fld_setFld_disjoint w.regs (by decide) (by decide), State.setFld, State.reg_setReg_ne w.regs (by decide)]
      unfold t at ht
      omega

/-- With no halt waiting PF_FAULT holds the one that is raised. -/
theorem State.raise_run_alone (w : s.Wf) (hr : s.running = true) (hf : s.fld rPfFault 16 1 = 0) (hh : s.ownHalts = []) {reason unit index : Nat}
    (hx : reason < 2 ^ 16) (hu : unit < 8) (hi : index < 2 ^ 11) : (s.raise reason unit index).fld rPfFault 0 17 = reason + 2 ^ 16
      ∧ (s.raise reason unit index).fld rPfFault 17 3 = unit ∧ (s.raise reason unit index).fld rPfFault 20 11 = index
      ∧ (s.raise reason unit index).reg rPfFaultTime = s.now := by
  obtain ⟨-, hreg, htime, -⟩ := State.raise_run w hr hf hh hx unit index
  refine ⟨?_, ?_, ?_, htime⟩ <;> rw [State.fld, hreg, bitsOf] <;> omega

/-- Settles O16: the halts that wait and the fault itself enter PF_FAULT, and the package stops with what it then holds. -/
theorem packageFaultStopsTheHerd : Obligations.PackageFaultStopsTheHerd := by
  intro s reason unit index w hr hf hsc hx hun hin t
  have hb : s.bu = 6 := by simpa [State.running, stRun] using hr
  obtain ⟨u, hu⟩ : ∃ u, u = s.noteHalts.noteFault reason unit index s.now := ⟨_, rfl⟩
  have q : Quiet faultReg s u := hu ▸ s.noteHalts_quiet.trans (State.noteFault_quiet ..)
  have wu := q.wf w
  have hkeep : ∀ r, r ∉ [rPfFault, rPfFaultTime] → u.reg r = s.reg r := fun r hm =>
    hu ▸ (State.noteFault_keeps (s.noteHalts_quiet.wf w) _ _ _ _ hm).trans (State.noteHalts_keeps w hm)
  have hfld : ∀ r, r ∉ [rPfFault, rPfFaultTime] → ∀ lo n, u.fld r lo n = s.fld r lo n := fun r hm lo n => by
    rw [State.fld, hkeep r hm]; rfl
  have hcs : ∀ n, u.cstate n = s.cstate n := fun n => State.cstate_of_regs (hkeep _ (by
    simp [rCore_ne_low (show rPfFault < coreBase by decide), rCore_ne_low (show rPfFaultTime < coreBase by decide)]))
  obtain ⟨hvalid, htime⟩ : u.fld rPfFault 16 1 = 1 ∧ u.reg rPfFaultTime ≤ s.now :=
    hu ▸ State.noteFault_valid (s.noteHalts_quiet.wf w) ..
  have hherd : u.herdIndex = s.herdIndex := hfld _ (by decide) ..
  have ht : t = u.stopAsOrigin (u.fld rPfFault 0 16) (u.reg rPfFaultTime) := by
    show s.raise reason unit index = _
    rw [State.raise, if_neg (by rw [hb]; decide), if_pos hr, hu]
  obtain ⟨hhalt, hissue, -, hcores, hregs, hstops, hcause⟩ := State.stopAsOrigin_spec wu (u.fld rPfFault 0 16) (u.reg rPfFaultTime)
  rw [← ht] at hhalt hissue hcores hregs hstops hcause
  obtain ⟨hc, hct⟩ := hcause ((hfld _ (by decide) ..).trans hsc) (by
    rw [show u.bu = 6 from (hfld _ (by decide) ..).trans hb]; decide)
  have hfault : t.reg rPfFault = u.reg rPfFault := hregs _ (by decide) (by decide)
  have hft : t.reg rPfFaultTime = u.reg rPfFaultTime := hregs _ (by decide) (by decide)
  have hi : s.herdIndex < 2 ^ 11 := bitsOf_lt _ 0 11
  have hcode : u.fld rPfFault 0 16 < 2 ^ 16 := bitsOf_lt _ 0 16
  have hf0 : t.fld rPfFault 0 16 = u.fld rPfFault 0 16 := congrArg (bitsOf · 0 16) hfault
  have hnow : u.reg rPfFaultTime < 2 ^ 64 := State.reg_lt _ _
  have qt : Quiet faultReg s t := s.raise_quiet ..
  refine ⟨hhalt, ?_, hft.le.trans htime, ?_, ?_, ?_, fun p hp => ?_, fun hh => State.raise_run_alone w hr hf hh hx hun hin, fun n hn hl => ?_,
    hissue, qt.mem, qt.nv, qt.job⟩
  · rw [State.fld, hfault]; exact hvalid
  · rw [State.fld, hc, hherd, bitsOf]; omega
  · rw [State.fld, hc, hherd, hf0, bitsOf]; omega
  · rw [hct, hft, Nat.mod_eq_of_lt hnow]
  · rw [hf0, hft, ← hherd]
    exact hstops p (q.fabricUp w (fun p h => not_faultReg_port h) ▸ hp)
  · rw [hcores n, q.used, State.coreLive, hcs]
    exact if_pos ⟨hn, hl⟩

end Sys2Proof.Machine
end

section
/-! SUPPORT. A port that goes DOWN, its MODE and its training (R235, R236, R239, R242, R390, R464). -/

namespace Sys2Proof.Machine
open Sys2Proof

-- Proofs elaborated in threads of their own would pass the check's limit of memory.
set_option Elab.async false

variable {s t u : State} {p q : Nat}

/-! ### A port that goes DOWN -/

theorem rPortMode_ne_stat (p q : Nat) : rPortMode p ≠ rPortStat q := by unfold rPortMode rPortStat; omega
theorem rPortMode_ne_peer (p q : Nat) : rPortMode p ≠ rPortPeer q := by unfold rPortMode rPortPeer; omega
theorem rPortStat_ne_peer (p q : Nat) : rPortStat p ≠ rPortPeer q := by unfold rPortStat rPortPeer; omega
theorem rPortStat_ne_link (p q : Nat) : rPortStat p ≠ rPortLink q := by unfold rPortStat rPortLink; omega

/-- The registers of the ports lie above those of the package. -/
theorem not_portReg {r : Nat} (h : r < 0x8_0000) (p : Nat) : r ∉ [rPortMode p, rPortStat p, rPortLink p, rPortPeer p, rPortErr p] := by
  simp only [rPortMode, rPortStat, rPortLink, rPortPeer, rPortErr, List.mem_cons, List.not_mem_nil, or_false]
  omega

theorem not_statPeer {r : Nat} (h : r < 0x8_0000) (p : Nat) : r ∉ [rPortStat p, rPortPeer p] :=
  fun hm => not_portReg h p (by simp only [List.mem_cons] at hm ⊢; tauto)

theorem rPortMode_inj (h : rPortMode p = rPortMode q) : p = q := by simp only [rPortMode] at h; omega

theorem rPortStat_inj (h : rPortStat p = rPortStat q) : p = q := by simp only [rPortStat] at h; omega

/-- A port that has lost its link, before the package takes it for a fault. -/
def State.linkLost (s : State) (p : Nat) : State :=
  let v := s.port p
  let s := s.setPort p { v with silence := 0, downRaised := v.downRaised || (s.portUp p && s.running), unacked := []
                                txq := v.txq.filter (fun m => m.op != opDData && m.op != opDAck), rxNak := false, stops := []
                                annOut := [], annSent := [], timeDue := false, naks := [] }
  ((s.setFld (rPortStat p) 0 3 0).setFld (rPortStat p) 6 5 0).setFld (rPortPeer p) 48 1 0

theorem State.portDown_eq (s : State) (p : Nat) :
    s.portDown p = if (s.portUp p && (s.linkLost p).running) = true then (s.linkLost p).raise cLinkDown 1 p else s.linkLost p := rfl

theorem State.linkLost_spec (w : s.Wf) (p : Nat) : Wired [rPortStat p, rPortPeer p] s (s.linkLost p)
    ∧ (s.linkLost p).portState p = 0 ∧ (s.linkLost p).fld (rPortStat p) 6 4 = 0 := by
  unfold State.linkLost
  extract_lets v x
  have hx : Wired [rPortStat p, rPortPeer p] s x := (Wired.refl w _).setPort ..
  have h1 : Wired [rPortStat p, rPortPeer p] s (x.setFld (rPortStat p) 0 3 0) := hx.setFld (by simp) ..
  have h2 : Wired [rPortStat p, rPortPeer p] s ((x.setFld (rPortStat p) 0 3 0).setFld (rPortStat p) 6 5 0) := h1.setFld (by simp) ..
  refine ⟨h2.setFld (by simp) .., ?_, ?_⟩
  · rw [State.portState, State.fld_setFld_ne h2.wf.regs (rPortStat_ne_peer p p), State.fld_setFld_disjoint h1.wf.regs (by decide) (by decide)]
    exact State.fld_setFld_same hx.wf.regs (by decide) ..
  · have hreg : ∀ lo n, (((x.setFld (rPortStat p) 0 3 0).setFld (rPortStat p) 6 5 0).setFld (rPortPeer p) 48 1 0).fld (rPortStat p) lo n
        = ((x.setFld (rPortStat p) 0 3 0).setFld (rPortStat p) 6 5 0).fld (rPortStat p) lo n := fun lo n =>
      State.fld_setFld_ne h2.wf.regs (rPortStat_ne_peer p p) ..
    have hlow := State.fld_setFld_same h1.wf.regs (lo := 6) (w := 5) (by decide) (rPortStat p) 0
    rw [hreg]
    simp only [State.fld, bitsOf] at hlow ⊢
    omega

/-- What is so of a port that has gone DOWN. -/
structure Downed (p : Nat) (s t : State) : Prop where
  quiet : Quiet (fun r => r ∈ [rPortStat p, rPortPeer p] ∨ faultReg r) s t
  down  : t.portState p = 0
  lanes : t.fld (rPortStat p) 6 4 = 0
  bu    : s.portUp p = true → s.running = true → t.bu = 7
  fault : s.portUp p = true → s.running = true → s.fld rPfFault 16 1 = 0 → s.ownHalts = [] →
            t.fld rPfFault 0 16 = 0x0602 ∧ t.fld rPfFault 17 3 = 1 ∧ t.fld rPfFault 20 11 = p

/-- A change of the ports and some registers that adds messages is a quiet one. -/
theorem Wired.quiet {R : List Nat} {R' : Nat → Prop} (h : Wired R s t) (hR : ∀ r ∈ R, R' r) : Quiet R' s t where
  frame := by rw [h.frame]
  outbox := h.outbox
  wf _ := h.wf
  regs _ r hr := h.regs r fun hm => hr (hR r hm)
  cores _ n := by rw [h.core n]

theorem State.portDown_spec (w : s.Wf) (hp : p < 18) : Downed p s (s.portDown p) := by
  obtain ⟨hw, hdown, hlanes⟩ := State.linkLost_spec w p
  have hquiet : Quiet (fun r => r ∈ [rPortStat p, rPortPeer p] ∨ faultReg r) s (s.linkLost p) := hw.quiet fun _ h => .inl h
  have hrun : (s.linkLost p).running = s.running := hw.running (not_statPeer (by decide) p)
  rw [State.portDown_eq]
  split
  · next hup =>
    have hr : (s.linkLost p).running = true := (Bool.and_eq_true_iff.1 hup).2
    have hq := (s.linkLost p).raise_quiet cLinkDown 1 p
    have hstat : ∀ lo n, ((s.linkLost p).raise cLinkDown 1 p).fld (rPortStat p) lo n = (s.linkLost p).fld (rPortStat p) lo n := fun lo n =>
      hq.fld hw.wf (not_faultReg_port hp).2 lo n
    refine ⟨hquiet.trans (hq.mono fun _ h => .inr h), (hstat ..).trans hdown, (hstat ..).trans hlanes,
      fun _ _ => State.raise_bu hw.wf hr .., fun _ _ hf hh => ?_⟩
    have hf' : (s.linkLost p).fld rPfFault 16 1 = 0 :=
      (hw.fld (not_statPeer (by decide) p) ..).trans hf
    have hh' : (s.linkLost p).ownHalts = [] :=
      (hw.ownHalts (by simp [rPortStat, rPortPeer, coreBase]; omega)).trans hh
    obtain ⟨hcode, hunit, hindex, -⟩ := State.raise_run_alone hw.wf hr hf' hh' (reason := cLinkDown) (unit := 1) (index := p)
      (by decide) (by decide) (by omega)
    refine ⟨?_, hunit, hindex⟩
    simp only [State.fld, bitsOf, cLinkDown] at hcode ⊢
    omega
  · next hup =>
    have hno : s.portUp p = true → s.running = true → False := fun h1 h2 => hup (by rw [hrun, h1, h2]; rfl)
    exact ⟨hquiet, hdown, hlanes, fun h1 h2 => (hno h1 h2).elim, fun h1 h2 => (hno h1 h2).elim⟩

theorem Downed.mode (h : Downed p s t) (w : s.Wf) (hp : p < 18) : t.mode p = s.mode p := by
  refine h.quiet.fld w ?_ ..
  simp [rPortMode_ne_stat, rPortMode_ne_peer, not_faultReg_port hp]

theorem Downed.wf (h : Downed p s t) (w : s.Wf) : t.Wf := h.quiet.wf w

/-- The port is DOWN already, or goes DOWN. -/
def State.ensureDown (s : State) (p : Nat) : State := if s.portState p = 0 then s else s.portDown p

theorem State.ensureDown_spec (w : s.Wf) (hp : p < 18) :
    Quiet (fun r => r ∈ [rPortStat p, rPortPeer p] ∨ faultReg r) s (s.ensureDown p) ∧ (s.ensureDown p).portState p = 0 := by
  unfold State.ensureDown
  split
  · exact ⟨.refl _ s, ‹_›⟩
  · exact ⟨(State.portDown_spec w hp).quiet, (State.portDown_spec w hp).down⟩

/-! ### Training starts -/

theorem State.trainPort_idle (h : s.mode p = 0 ∨ (s.mode p = 1 ∧ s.bu = 1)) : s.trainPort p = s := if_pos (.inr h)

theorem State.trainPort_eq (hp : p < 18) (h0 : s.mode p ≠ 0) (h1 : s.mode p ≠ 1 ∨ s.bu ≠ 1) : s.trainPort p
    = (((s.ensureDown p).setPort p { (s.ensureDown p).port p with trained := true, full := (s.ensureDown p).bu != 1 })).setFld
        (rPortStat p) 0 3 1 := by
  refine if_neg ?_
  rw [show stWhelp = 1 from rfl]
  omega

/-- A port that is DOWN begins DETECT (R239, R390). -/
theorem State.trainPort_down (w : s.Wf) (hp : p < 18) (h0 : s.mode p ≠ 0) (h1 : s.mode p ≠ 1 ∨ s.bu ≠ 1) (hd : s.portState p = 0) :
    (s.trainPort p).portState p = 1
      ∧ s.trainPort p = { s with regs := (s.trainPort p).regs, ports := (s.trainPort p).ports }
      ∧ (∀ r, r ≠ rPortStat p → (s.trainPort p).reg r = s.reg r) ∧ (∀ q, q ≠ p → (s.trainPort p).port q = s.port q)
      ∧ (s.trainPort p).port p = { s.port p with trained := true, full := s.bu != 1 } := by
  have e : s.ensureDown p = s := if_pos hd
  rw [State.trainPort_eq hp h0 h1, e]
  have w1 : (s.setPort p { s.port p with trained := true, full := s.bu != 1 }).Wf := (Quiet.setPort noReg s p _).wf w
  exact ⟨State.fld_setFld_same w1.regs (by decide) .., rfl, fun r hr => State.reg_setFld_ne w1.regs hr .., fun q hq => w.port_setPort_ne hq _,
    w.port_setPort_same ..⟩

/-- A port that is not DOWN goes DOWN first. -/
theorem State.trainPort_spec (w : s.Wf) (hp : p < 18) (h0 : s.mode p ≠ 0) (h1 : s.mode p ≠ 1 ∨ s.bu ≠ 1) :
    (s.trainPort p).portState p = 1 ∧ ((s.trainPort p).port p).trained = true ∧ (s.trainPort p).mem = s.mem ∧ (s.trainPort p).nv = s.nv := by
  obtain ⟨hq, -⟩ := State.ensureDown_spec w hp
  rw [State.trainPort_eq hp h0 h1]
  have wu := hq.wf w
  generalize s.ensureDown p = u at *
  have w1 : (u.setPort p { u.port p with trained := true, full := u.bu != 1 }).Wf := (Quiet.setPort noReg u p _).wf wu
  refine ⟨State.fld_setFld_same w1.regs (by decide) .., ?_, hq.mem, hq.nv⟩
  exact congrArg PortSt.trained (wu.port_setPort_same p _)

/-! ### A write of PORT_MODE -/

/-- Writing 1 to MODE_REJ clears it. -/
def State.clearRej (s : State) (p v : Nat) : State := if bitsOf v 3 1 = 1 then s.setFld (rPortMode p) 3 1 0 else s

/-- The port, DOWN, takes MODE `m` and locks it. -/
def State.takeMode (s : State) (p m : Nat) : State :=
  let u := (s.ensureDown p).setFld (rPortMode p) 0 2 m
  { u with flocks := rPortMode p :: u.flocks }

theorem State.portModeWrite_refused (v : Nat) (hl : (s.clearRej p v).modeLocked p = false) (hb : (s.clearRej p v).modeBad p (bitsOf v 0 2) = true) :
    s.portModeWrite p v = (s.clearRej p v).setFld (rPortMode p) 3 1 1 := by
  unfold State.portModeWrite
  exact if_pos (by rw [show (if bitsOf v 3 1 = 1 then s.setFld (rPortMode p) 3 1 0 else s) = s.clearRej p v from rfl, hl, hb]; rfl)

theorem State.portModeWrite_taken (v : Nat) (hl : (s.clearRej p v).modeLocked p = false)
    (hb : (s.clearRej p v).modeBad p (bitsOf v 0 2) = false) : s.portModeWrite p v
      = if bitsOf v 2 1 = 1 then ((s.clearRej p v).takeMode p (bitsOf v 0 2)).trainPort p else (s.clearRej p v).takeMode p (bitsOf v 0 2) := by
  unfold State.portModeWrite
  extract_lets +onlyGivenNames m u
  have hu : u = s.clearRej p v := rfl
  clear_value u
  subst hu
  rw [hl, hb]
  rfl

theorem State.portModeWrite_locked (v : Nat) (hl : (s.clearRej p v).modeLocked p = true) :
    s.portModeWrite p v = if bitsOf v 2 1 = 1 then (s.clearRej p v).trainPort p else s.clearRej p v := by
  unfold State.portModeWrite
  extract_lets +onlyGivenNames m u
  have hu : u = s.clearRej p v := rfl
  clear_value u
  subst hu
  rw [hl]
  rfl

/-- Clearing MODE_REJ leaves what decides of the write. -/
theorem State.clearRej_spec (w : s.Wf) (p v : Nat) : OnRegs [rPortMode p] s (s.clearRej p v)
    ∧ (s.clearRej p v).fld (rPortMode p) 3 1 = (if bitsOf v 3 1 = 1 then 0 else s.fld (rPortMode p) 3 1)
    ∧ (∀ q, (s.clearRej p v).mode q = s.mode q) ∧ (s.clearRej p v).modeLocked p = s.modeLocked p := by
  unfold State.clearRej
  split
  · refine ⟨(OnRegs.refl w _).setFld (by simp), State.fld_setFld_same w.regs (by decide) .., fun q => ?_, rfl⟩
    by_cases h : q = p
    · subst h; exact State.fld_setFld_disjoint w.regs (by decide) (by decide) ..
    · exact State.fld_setFld_ne w.regs (fun e => h (rPortMode_inj e)) ..
  · exact ⟨.refl w _, rfl, fun _ => rfl, rfl⟩

theorem State.hlAfter_of_modes (h : ∀ q, t.mode q = s.mode q) (m : Nat) : t.hlAfter p m = s.hlAfter p m := by
  simp only [State.hlAfter, h]

theorem State.modeBad_iff (s : State) (p m : Nat) : s.modeBad p m = true ↔ m = 3 ∨ s.hlAfter p m = 0 ∨ 2 < s.hlAfter p m := by
  simp [State.modeBad, or_assoc]

/-- MODE and its lock once the port has taken it. -/
theorem State.takeMode_spec (w : s.Wf) (hp : p < 18) (m : Nat) : (s.takeMode p m).Wf ∧ (s.takeMode p m).mode p = m % 4
    ∧ (s.takeMode p m).modeLocked p = true ∧ (s.takeMode p m).portState p = 0 ∧ (s.takeMode p m).fld (rPortMode p) 3 1 = s.fld (rPortMode p) 3 1
    ∧ (s.takeMode p m).mem = s.mem ∧ (s.takeMode p m).nv = s.nv := by
  obtain ⟨hq, hd⟩ := State.ensureDown_spec w hp
  have wu := hq.wf w
  have hkeep : (s.ensureDown p).fld (rPortMode p) 3 1 = s.fld (rPortMode p) 3 1 := by
    refine hq.fld w ?_ ..
    simp [rPortMode_ne_stat, rPortMode_ne_peer, not_faultReg_port hp]
  unfold State.takeMode
  generalize s.ensureDown p = u at *
  have w1 : (u.setFld (rPortMode p) 0 2 m).Wf := (Quiet.setFld u _ 0 2 m).wf wu
  refine ⟨{ w1 with }, State.fld_setFld_same wu.regs (by decide) .., ?_, ?_, ?_, hq.mem, hq.nv⟩
  · simp [State.modeLocked]
  · exact (State.fld_setFld_ne wu.regs (rPortMode_ne_stat p p).symm ..).trans hd
  · exact (State.fld_setFld_disjoint wu.regs (by decide) (by decide) ..).trans hkeep

end Sys2Proof.Machine
end

section
/-! SUPPORT. A write of PORT_MODE, TRAIN, and what takes a port DOWN (R235, R236, R242, R272, R390, R464). -/

namespace Sys2Proof.Machine
open Sys2Proof

-- Proofs elaborated in threads of their own would pass the check's limit of memory.
set_option Elab.async false

variable {s t u : State} {p q v m : Nat}

/-! ### TRAIN -/

theorem exec_train (hd : s.dark = false) (p : Nat) : exec (.train p) s = .next (s.trainPort p) :=
  whenLive_of_live hd fun s => s.trainPort p

theorem exec_portModeWrite (hd : s.dark = false) (hp : p < 18) (v : W64) : exec (.portModeWrite p v) s = .next (s.portModeWrite p v.toNat) :=
  (whenLive_of_live hd fun s => if p < 18 then s.portModeWrite p v.toNat else s).trans (by rw [if_pos hp])

/-! ### A write of PORT_MODE -/

/-- A MODE that a port may take. -/
def State.modeLegal (s : State) (p m : Nat) : Prop := m ≤ 2 ∧ (s.hlAfter p m = 1 ∨ s.hlAfter p m = 2)

theorem State.modeLegal.good (h : s.modeLegal p m) : s.modeBad p m = false := by
  obtain ⟨hm, hl⟩ := h
  rw [← Bool.not_eq_true, State.modeBad_iff]
  omega

/-- A port that is DOWN takes a MODE through PORT_MODE and its lock alone. -/
theorem State.takeMode_down (w : s.Wf) (hd : s.portState p = 0) (m : Nat) :
    s.takeMode p m = { s with regs := (s.takeMode p m).regs, flocks := (s.takeMode p m).flocks }
      ∧ ∀ r, r ≠ rPortMode p → (s.takeMode p m).reg r = s.reg r := by
  have e : s.takeMode p m = { s.setFld (rPortMode p) 0 2 m with flocks := rPortMode p :: s.flocks } := by
    rw [State.takeMode, State.ensureDown, if_pos hd]; rfl
  rw [e]
  exact ⟨rfl, fun r hr => State.reg_setFld_ne w.regs hr ..⟩

section
variable (w : s.Wf) (hp : p < 18)
include w

/-- What a write of PORT_MODE decides by is as before once MODE_REJ is cleared. -/
theorem State.clearRej_decides (p v : Nat) : (∀ m, (s.clearRej p v).modeBad p m = s.modeBad p m)
    ∧ (s.clearRej p v).modeLocked p = s.modeLocked p ∧ (s.clearRej p v).portState p = s.portState p ∧ (s.clearRej p v).bu = s.bu := by
  obtain ⟨hregs, -, hmodes, hlock⟩ := State.clearRej_spec w p v
  refine ⟨fun m => ?_, hlock, hregs.fld (by simp [(rPortMode_ne_stat p p).symm]) .., hregs.fld ?_ ..⟩
  · rw [State.modeBad, State.hlAfter_of_modes hmodes]; rfl
  · exact fun hm => not_portReg (r := rBuState) (by decide) p (by simp_all)

/-- A write with a MODE that may not be written is ignored whole and sets MODE_REJ (R236). -/
theorem State.portModeWrite_refuses (hl : s.modeLocked p = false) (hb : s.modeBad p (bitsOf v 0 2) = true) :
    regsOnly s (s.portModeWrite p v) [rPortMode p] ∧ (s.portModeWrite p v).mode p = s.mode p
      ∧ (s.portModeWrite p v).modeLocked p = false ∧ (s.portModeWrite p v).fld (rPortMode p) 3 1 = 1 := by
  obtain ⟨hregs, -, hmodes, hlock⟩ := State.clearRej_spec w p v
  obtain ⟨hbad, -⟩ := State.clearRej_decides w p v
  rw [State.portModeWrite_refused v (hlock.trans hl) ((hbad _).trans hb)]
  exact ⟨(hregs.setFld (by simp)).only, (State.fld_setFld_disjoint hregs.wf.regs (by decide) (by decide) ..).trans (hmodes p), hlock.trans hl,
    State.fld_setFld_same hregs.wf.regs (by decide) ..⟩

/-- A locked port keeps its MODE (R235). -/
theorem State.portModeWrite_keeps (hl : s.modeLocked p = true) (ht : bitsOf v 2 1 = 0) :
    regsOnly s (s.portModeWrite p v) [rPortMode p] ∧ (s.portModeWrite p v).mode p = s.mode p
      ∧ (s.portModeWrite p v).fld (rPortMode p) 3 1 = if bitsOf v 3 1 = 1 then 0 else s.fld (rPortMode p) 3 1 := by
  obtain ⟨hregs, hrej, hmodes, hlock⟩ := State.clearRej_spec w p v
  rw [State.portModeWrite_locked v (hlock.trans hl), if_neg (by omega)]
  exact ⟨hregs.only, hmodes p, hrej⟩

omit w in
/-- On a locked port the write starts training alone. -/
theorem State.portModeWrite_trains (hl : s.modeLocked p = true) (ht : bitsOf v 2 1 = 1) (hc : bitsOf v 3 1 = 0) :
    s.portModeWrite p v = s.trainPort p := by
  have e : s.clearRej p v = s := if_neg (by omega)
  rw [State.portModeWrite_locked v (by rw [e, hl]), e, if_pos ht]

include hp

/-- An unlocked port takes a legal MODE, and MODE locks. -/
theorem State.portModeWrite_takes (hl : s.modeLocked p = false) (hm : s.modeLegal p (bitsOf v 0 2)) : ∃ t, t.Wf ∧ t.mode p = bitsOf v 0 2
    ∧ t.modeLocked p = true ∧ t.portState p = 0 ∧ t.fld (rPortMode p) 3 1 = (if bitsOf v 3 1 = 1 then 0 else s.fld (rPortMode p) 3 1)
    ∧ t.mem = s.mem ∧ t.nv = s.nv
    ∧ (s.portState p = 0 → t = { s with regs := t.regs, flocks := t.flocks } ∧ ∀ r, r ≠ rPortMode p → t.reg r = s.reg r)
    ∧ s.portModeWrite p v = if bitsOf v 2 1 = 1 then t.trainPort p else t := by
  obtain ⟨hregs, hrej, hmodes, hlock⟩ := State.clearRej_spec w p v
  obtain ⟨hbad, -, hstate, -⟩ := State.clearRej_decides w p v
  have e := s.portModeWrite_taken v (hlock.trans hl) ((hbad _).trans hm.good)
  generalize s.clearRej p v = u at *
  obtain ⟨wt, hmode, hlocked, hdown, hr, hmem, hnv⟩ := State.takeMode_spec hregs.wf hp (bitsOf v 0 2)
  have hsame := hregs.only.1
  refine ⟨_, wt, hmode.trans (Nat.mod_eq_of_lt (bitsOf_lt _ 0 2)), hlocked, hdown, hr.trans hrej, hmem.trans (by rw [hsame]),
    hnv.trans (by rw [hsame]), fun hd => ?_, e⟩
  obtain ⟨hframe, hkeep⟩ := State.takeMode_down hregs.wf (hstate.trans hd) (bitsOf v 0 2)
  exact ⟨by rw [hframe, hsame], fun r hr => (hkeep r hr).trans (hregs.reg (by simpa using hr))⟩

end

/-- Settles O34: MODE_REJ is cleared first, and what it leaves decides of the write. -/
theorem portModeAndTrain : Obligations.PortModeAndTrain := by
  intro p v s w hd hp m legal rej
  simp only [exec_train hd, exec_portModeWrite hd hp]
  refine ⟨fun hl => ⟨fun hbad => ?_, fun hm hdn ht => ?_, fun hm hdn ht hgo => ?_, fun hm _ ht => ?_⟩,
    fun hl => ⟨fun ht => ?_, fun ht hc => by rw [State.portModeWrite_trains hl ht hc]⟩, fun h0 h1 => ⟨fun hdn => ?_, fun hdn => ?_⟩, fun h => ?_⟩
  · exact ⟨_, rfl, State.portModeWrite_refuses w hl ((State.modeBad_iff ..).2 hbad)⟩
  · obtain ⟨t, -, hmode, hlocked, -, hr, -, -, hsame, e⟩ := State.portModeWrite_takes w hp hl hm
    have et : s.portModeWrite p v.toNat = t := by
      rw [e]
      split
      · refine State.trainPort_idle ?_
        have hbu : t.bu = s.bu := by
          rw [State.bu, State.fld, (hsame hdn).2 rBuState fun e => not_portReg (r := rBuState) (by decide) p (by simp [e])]; rfl
        rw [hmode, hbu]
        exact ht.resolve_left (by omega)
      · rfl
    exact ⟨t, by rw [et], hmode, hlocked, hr, hsame hdn⟩
  · obtain ⟨t, wt, hmode, hlocked, hdown, -, -, -, hsame, e⟩ := State.portModeWrite_takes w hp hl hm
    obtain ⟨hframe, hkeep⟩ := hsame hdn
    have hbu : t.bu = s.bu := by
      rw [State.bu, State.fld, hkeep rBuState fun e => not_portReg (r := rBuState) (by decide) p (by simp [e])]; rfl
    rw [if_pos ht] at e
    obtain ⟨hdet, hf, hr, -, hport⟩ := State.trainPort_down wt hp (by rw [hmode]; omega) (by rw [hmode, hbu]; omega) hdown
    refine ⟨_, by rw [e], ?_, ?_, hdet, ?_, fun r hr' => ?_⟩
    · rw [State.mode, State.fld, hr _ (rPortMode_ne_stat p p)]; exact hmode
    · rw [State.modeLocked, hport, Bool.or_true]
    · rw [hf, hframe]
    · simp only [List.mem_cons, List.not_mem_nil, or_false, not_or] at hr'
      exact (hr r hr'.2).trans (hkeep r hr'.1)
  · obtain ⟨t, -, hmode, hlocked, hdown, -, hmem, hnv, -, e⟩ := State.portModeWrite_takes w hp hl hm
    rw [if_neg (by omega)] at e
    exact ⟨t, by rw [e], hmode, hlocked, hdown, hmem, hnv⟩
  · exact ⟨_, rfl, State.portModeWrite_keeps w hl ht⟩
  · exact ⟨_, rfl, State.trainPort_down w hp h0 h1 hdn⟩
  · exact ⟨_, rfl, State.trainPort_spec w hp h0 h1⟩
  · rw [State.trainPort_idle h]

/-! ### Links that are lost -/

/-- A port that has gone DOWN, with what the package makes of it. -/
theorem Downed.lost (h : Downed p s t) (hu : s.portUp p = true) (hf : s.fld rPfFault 16 1 = 0) :
    t.portState p = 0 ∧ t.fld (rPortStat p) 6 4 = 0 ∧ t.mem = s.mem ∧ t.nv = s.nv
      ∧ (s.running = true → t.bu = 7
        ∧ (s.ownHalts = [] → t.fld rPfFault 0 16 = 0x0602 ∧ t.fld rPfFault 17 3 = 1 ∧ t.fld rPfFault 20 11 = p)) :=
  ⟨h.down, h.lanes, h.quiet.mem, h.quiet.nv, fun hr => ⟨h.bu hu hr, h.fault hu hr hf⟩⟩

/-- Registers that neither a port that goes DOWN nor the fault of its loss writes. -/
def lossReg (r : Nat) : Prop := (∃ p, r ∈ [rPortStat p, rPortPeer p]) ∨ faultReg r

theorem Downed.lossQuiet (h : Downed p s t) : Quiet lossReg s t := h.quiet.mono fun _ hr => hr.imp (⟨p, ·⟩) id

/-- Each port of a list is DOWN, or goes DOWN. -/
theorem State.ensureDowns_spec (w : s.Wf) {l : List Nat} (hl : ∀ q ∈ l, q < 18) :
    Quiet lossReg s (l.foldl State.ensureDown s) ∧ ∀ q, q ∈ l ∨ s.portState q = 0 ∧ q < 18 → (l.foldl State.ensureDown s).portState q = 0 := by
  induction l generalizing s with
  | nil => exact ⟨.refl _ s, fun q hq => (hq.resolve_left List.not_mem_nil).1⟩
  | cons p l ih =>
    have hp := hl p List.mem_cons_self
    obtain ⟨hq, hdown⟩ := State.ensureDown_spec w hp
    obtain ⟨hrest, hall⟩ := ih (hq.wf w) fun q hq => hl q (List.mem_cons_of_mem _ hq)
    rw [List.foldl_cons]
    refine ⟨(hq.mono fun _ hr => hr.imp (⟨p, ·⟩) id).trans hrest, fun q hq' => hall q ?_⟩
    by_cases hqp : q = p
    · exact .inr ⟨hqp ▸ hdown, hqp ▸ hp⟩
    · refine hq'.imp (fun hm => (List.mem_cons.1 hm).resolve_left hqp) fun ⟨h0, h18⟩ => ⟨?_, h18⟩
      refine (hq.fld w ?_ ..).trans h0
      simp only [List.mem_cons, List.not_mem_nil, or_false, not_or]
      exact ⟨⟨fun e => hqp (rPortStat_inj e), rPortStat_ne_peer q p⟩, (not_faultReg_port h18).2⟩

/-- A port that is not UP, or of a package that does not run, goes DOWN without a fault. -/
theorem State.ensureDown_wired (w : s.Wf) (h : s.portUp p = false ∨ s.running = false) : Wired [rPortStat p, rPortPeer p] s (s.ensureDown p) := by
  obtain ⟨hw, -⟩ := State.linkLost_spec w p
  unfold State.ensureDown
  split
  · exact .refl w _
  · rw [State.portDown_eq, if_neg]
    · exact hw
    · rw [hw.running (not_statPeer (by decide) p)]
      rcases h with h | h <;> simp [h]

/-- Once the package is HALTED, more ports that go DOWN leave its fault as it is. -/
theorem State.ensureDowns_halted (w : s.Wf) (hb : s.bu = 7) (l : List Nat) :
    (l.foldl State.ensureDown s).bu = 7 ∧ (l.foldl State.ensureDown s).reg rPfFault = s.reg rPfFault := by
  induction l generalizing s with
  | nil => exact ⟨hb, rfl⟩
  | cons p l ih =>
    have h := State.ensureDown_wired (p := p) w (.inr (by simp [State.running, hb, stRun]))
    obtain ⟨h1, h2⟩ := ih h.wf ((h.bu (not_statPeer (by decide) p)).trans hb)
    exact ⟨h1, h2.trans (h.regs _ (not_statPeer (by decide) p))⟩

/-- In a running package the first UP port of the list is the fault (R242). -/
theorem State.ensureDowns_fault (w : s.Wf) (hr : s.running = true) {l : List Nat} (hl : ∀ q ∈ l, q < 18) (hp : p ∈ l) (hu : s.portUp p = true) :
    (l.foldl State.ensureDown s).bu = 7
      ∧ (s.fld rPfFault 16 1 = 0 → s.ownHalts = [] → (l.foldl State.ensureDown s).fld rPfFault 0 16 = 0x0602) := by
  induction l generalizing s with
  | nil => exact absurd hp List.not_mem_nil
  | cons q l ih =>
    rw [List.foldl_cons]
    by_cases hq : s.portUp q = true
    · have e : s.ensureDown q = s.portDown q := if_neg fun h0 => by simp [State.portUp, h0] at hq
      have h := State.portDown_spec w (hl q List.mem_cons_self)
      obtain ⟨hb, hreg⟩ := State.ensureDowns_halted (h.wf w) (h.bu hq hr) l
      rw [e]
      exact ⟨hb, fun hf hh => (congrArg (bitsOf · 0 16) hreg).trans (h.fault hq hr hf hh).1⟩
    · have h := State.ensureDown_wired w (.inl (by simpa using hq))
      have hpq : p ≠ q := fun e => hq (e ▸ hu)
      have hup : (s.ensureDown q).portUp p = true := (h.portUp (by
        simp only [List.mem_cons, List.not_mem_nil, or_false, not_or]
        exact ⟨fun e => hpq (rPortStat_inj e), rPortStat_ne_peer p q⟩)).trans hu
      obtain ⟨hb, hf⟩ := ih h.wf ((h.running (not_statPeer (by decide) q)).trans hr) (fun q hq => hl q (List.mem_cons_of_mem _ hq))
        ((List.mem_cons.1 hp).resolve_left hpq) hup
      refine ⟨hb, fun h0 hh => hf ((h.fld (not_statPeer (by decide) q) ..).trans h0) ?_⟩
      exact (h.ownHalts (by simp [rPortStat, rPortPeer, coreBase]; have := hl q List.mem_cons_self; omega)).trans hh

theorem exec_refclkFabStop (hd : s.dark = false) (half : Nat) :
    exec (.refclkFabStop half) s = .next ((allPorts.filter (fun q => decide (portHalf q = half))).foldl State.ensureDown s) :=
  whenLive_of_live hd fun s => (allPorts.filter (fun q => decide (portHalf q = half))).foldl State.ensureDown s

/-- Settles O36: a port that goes DOWN, by each of the ways. -/
theorem linkLossTakesThePortDown : Obligations.LinkLossTakesThePortDown := by
  intro p lane half s w hd hp hu hf lost
  have h : lost (s.portDown p) := (State.portDown_spec w hp).lost hu hf
  refine ⟨fun hl => ⟨_, ?_, h⟩, fun hl => ?_, fun hhold hs => ⟨_, ?_, h⟩, fun hs => ?_, fun hh => ?_⟩
  · exact (whenLive_of_live hd _).trans (by rw [if_pos ⟨hu, hl⟩])
  · exact (whenLive_of_live hd _).trans (by rw [if_neg (by omega)])
  · exact (whenLive_of_live hd _).trans (by rw [if_pos ⟨hu, hhold, hs⟩])
  · exact (whenLive_of_live hd _).trans (by rw [if_neg (by omega)])
  · have hmem : ∀ q, q ∈ allPorts.filter (fun q => decide (portHalf q = half)) ↔ q < 18 ∧ portHalf q = half := fun q => by
      simp [allPorts]
    have hl : ∀ q ∈ allPorts.filter (fun q => decide (portHalf q = half)), q < 18 := fun q hq => ((hmem q).1 hq).1
    have hpl := (hmem p).2 ⟨hp, hh.symm⟩
    obtain ⟨hq, hdown⟩ := State.ensureDowns_spec w hl
    refine ⟨_, exec_refclkFabStop hd half, hdown p (.inl hpl), hq.mem, hq.nv, fun q h18 hqh => hdown q (.inl ((hmem q).2 ⟨h18, hqh⟩)), fun hr => ?_⟩
    obtain ⟨hb, hfault⟩ := State.ensureDowns_fault w hr hl hpl hu
    exact ⟨hb, hfault hf⟩

end Sys2Proof.Machine
end

section
/-! SUPPORT. The training states of a port (R239 to R241, R324, R328, R373). -/

namespace Sys2Proof.Machine
open Sys2Proof

-- Proofs elaborated in threads of their own would pass the check's limit of memory.
set_option Elab.async false

variable {s t u : State} {p q : Nat} {i : TrainInfo}

/-! ### A change of registers with a message -/

/-- `s` with the message `o` sent. -/
theorem OnRegs.emit {R : List Nat} (h : OnRegs R s t) (o : Out) : regsOnly { s with outbox := s.outbox ++ [o] } (t.emit o) R := by
  obtain ⟨hframe, hregs⟩ := h.only
  exact ⟨by rw [State.emit, hframe], hregs⟩

/-! ### Sending keeps the silence of a port -/

/-- Port `p` has been silent as long as before. -/
structure SameSilence (p : Nat) (s t : State) : Prop where
  wf      : t.Wf
  silence : (t.port p).silence = (s.port p).silence

theorem SameSilence.setPort (h : SameSilence p s t) {v : PortSt} (hv : v.silence = (t.port p).silence) : SameSilence p s (t.setPort p v) :=
  ⟨(Quiet.setPort noReg t p v).wf h.wf, by rw [h.wf.port_setPort_same, hv, h.silence]⟩

theorem SameSilence.emit (h : SameSilence p s t) (o : Out) : SameSilence p s (t.emit o) := ⟨(Quiet.emit noReg t o).wf h.wf, h.silence⟩

theorem SameSilence.pumpOnce {x : State × Nat} (h : SameSilence p s x.1) : SameSilence p s (State.pumpOnce p x).1 := by
  unfold State.pumpOnce
  extract_lets y v
  split
  · exact h
  · extract_lets +onlyGivenNames new
    split
    · exact h
    · extract_lets c x
      have hx : x.silence = v.silence := by
        unfold x
        split <;> rfl
      refine (h.setPort ?_).emit _
      exact hx

theorem SameSilence.pump (w : s.Wf) (p : Nat) : SameSilence p s (s.pump p) := by
  unfold State.pump
  extract_lets t
  have ht : SameSilence p s t :=
    List.foldlRecOn (motive := fun x : State × Nat => SameSilence p s x.1) _ _ ⟨w, rfl⟩ fun _ h _ _ => h.pumpOnce
  exact List.foldlRecOn (motive := SameSilence p s) _ _ ht fun _ h _ _ => (h.emit _).setPort rfl

/-- With no message waiting nothing is sent. -/
theorem State.pump_of_empty (h : (s.port p).txq = []) : s.pump p = s := by
  simp [State.pump, h]

theorem State.settleWhelp_of_whelp (h : s.pkg.whelp = true) : s.settleWhelp = s := by
  simp [State.settleWhelp, h]

/-! ### A training state fails -/

theorem State.trainFail_spec (w : s.Wf) (p : Nat) : regsOnly s (s.trainFail p) [rPortStat p] ∧ (s.trainFail p).portState p = 0
    ∧ (s.trainFail p).fld (rPortStat p) 3 3 = s.portState p := by
  have h1 : OnRegs [rPortStat p] s (s.setFld (rPortStat p) 3 3 (s.portState p)) := (OnRegs.refl w _).setFld (by simp)
  have h2 := h1.setFld (a := rPortStat p) (by simp) (lo := 0) (l := 3) (x := 0)
  refine ⟨(h2.setFld (by simp)).only, ?_, ?_⟩
  · exact (State.fld_setFld_disjoint h2.wf.regs (by decide) (by decide) ..).trans (State.fld_setFld_same h1.wf.regs (by decide) ..)
  · refine (State.fld_setFld_disjoint h2.wf.regs (by decide) (by decide) ..).trans ?_
    refine (State.fld_setFld_disjoint h1.wf.regs (by decide) (by decide) ..).trans ?_
    exact (State.fld_setFld_same w.regs (by decide) ..).trans (Nat.mod_eq_of_lt (bitsOf_lt _ 0 3))

/-! ### A training state begins -/

theorem State.trainTo_plain {n : Nat} (h4 : n ≠ 4) (h5 : n ≠ 5) : s.trainTo p n = s.setFld (rPortStat p) 0 3 n := by
  unfold State.trainTo
  dsimp only
  rw [if_neg h4, if_neg h5]

theorem State.trainTo_measure : s.trainTo p 4 = (s.setFld (rPortStat p) 0 3 4).emit (.markers p 64) := rfl

theorem State.mode_setStat (w : s.Wf) (x : Nat) : (s.setFld (rPortStat p) 0 3 x).mode p = s.mode p :=
  State.fld_setFld_ne w.regs (rPortMode_ne_stat p p) ..

theorem State.trainTo_hello (w : s.Wf) (hm : s.mode p = 2) :
    s.trainTo p 5 = (s.setFld (rPortStat p) 0 3 5).emit (.hello p 1 ownCredits) := if_pos ((State.mode_setStat w 5).trans hm)

theorem State.trainTo_identify (w : s.Wf) (hm : s.mode p = 1) :
    s.trainTo p 5 = (s.setFld (rPortStat p) 0 3 5).emit (.identify p (BitVec.ofNat 64 (s.reg rPfHerd))) := by
  have hherd : (s.setFld (rPortStat p) 0 3 5).reg rPfHerd = s.reg rPfHerd :=
    State.reg_setFld_ne w.regs (fun e => not_portReg (r := rPfHerd) (by decide) p (by simp [e])) ..
  refine (if_neg ?_).trans (by rw [hherd])
  rw [State.mode_setStat w, hm]
  decide

theorem State.portState_setStat (w : s.Wf) {x : Nat} (hx : x < 8) : (s.setFld (rPortStat p) 0 3 x).portState p = x :=
  (State.fld_setFld_same w.regs (by decide) ..).trans (Nat.mod_eq_of_lt hx)

/-! ### The steps -/

theorem exec_trainingTimeout (hd : s.dark = false) (h : 1 ≤ s.portState p ∧ s.portState p ≤ 5) :
    exec (.trainingTimeout p) s = .next (s.trainFail p) :=
  (whenLive_of_live hd fun s => if 1 ≤ s.portState p ∧ s.portState p ≤ 5 then s.trainFail p else s).trans (by rw [if_pos h])

theorem exec_trainingStateComplete (hd : s.dark = false) (hp : p < 18) (i : TrainInfo) :
    exec (.trainingStateComplete p i) s = .next (s.trainStep p i) :=
  (whenLive_of_live hd fun s => if p < 18 then s.trainStep p i else s).trans (by rw [if_pos hp])

section
variable (w : s.Wf)
include w

/-- DETECT passes to EQUALIZE, or on lane 0 alone to FEC_LOCK (R239, R324). -/
theorem State.trainStep_detect (h : s.portState p = 1) {n : Nat} (hn : n = if s.mode p = 2 ∧ (!(s.port p).full) = true then 3 else 2) :
    regsOnly s (s.trainStep p i) [rPortStat p] ∧ (s.trainStep p i).portState p = n := by
  have e : s.trainStep p i = s.setFld (rPortStat p) 0 3 n := by
    unfold State.trainStep
    dsimp only
    rw [if_pos h, hn, State.trainTo_plain] <;> split <;> decide
  rw [e]
  exact ⟨((OnRegs.refl w _).setFld (by simp)).only, State.portState_setStat w (by rw [hn]; split <;> decide)⟩

theorem State.trainStep_equalize (h : s.portState p = 2) :
    regsOnly s (s.trainStep p i) [rPortStat p] ∧ (s.trainStep p i).portState p = 3 := by
  have e : s.trainStep p i = s.setFld (rPortStat p) 0 3 3 := by
    unfold State.trainStep
    dsimp only
    rw [if_neg (by omega), if_pos h, State.trainTo_plain (by decide) (by decide)]
  rw [e]
  exact ⟨((OnRegs.refl w _).setFld (by simp)).only, State.portState_setStat w (by decide)⟩

/-- FEC_LOCK with the lanes `l` passes on with the message `o`. -/
theorem State.lanes_locked (p : Nat) {l x : Nat} (hl : l < 16) (hx : x < 8) (o : Out) {t : State}
    (e : t = ((s.setFld (rPortStat p) 6 4 l).setFld (rPortStat p) 0 3 x).emit o) :
    regsOnly { s with outbox := s.outbox ++ [o] } t [rPortStat p] ∧ t.portState p = x ∧ t.fld (rPortStat p) 6 4 = l := by
  have h1 : OnRegs [rPortStat p] s (s.setFld (rPortStat p) 6 4 l) := (OnRegs.refl w _).setFld (by simp)
  rw [e]
  refine ⟨(h1.setFld (by simp)).emit o, State.portState_setStat h1.wf hx, ?_⟩
  exact (State.fld_setFld_disjoint h1.wf.regs (by decide) (by decide) ..).trans
    ((State.fld_setFld_same w.regs (by decide) ..).trans (Nat.mod_eq_of_lt hl))

end

theorem State.trainStep_fecLock (hm : s.mode p = 1) (h : s.portState p = 3) : s.trainStep p i
    = if i.lanes % 16 = 15 then (s.setFld (rPortStat p) 6 4 15).trainTo p 4 else s.trainFail p := by
  unfold State.trainStep
  dsimp only
  rw [if_neg (by omega), if_neg (by omega), if_pos h, if_neg (by omega)]

theorem State.trainStep_fecLockHl (hm : s.mode p = 2) (h : s.portState p = 3) : s.trainStep p i
    = if hlLanes i.lanes (s.port p).full = 0 then s.trainFail p
      else (s.setFld (rPortStat p) 6 4 (hlLanes i.lanes (s.port p).full)).trainTo p 5 := by
  unfold State.trainStep
  dsimp only
  rw [if_neg (by omega), if_neg (by omega), if_pos h, if_pos hm]

theorem State.trainStep_rtt (h : s.portState p = 4) : s.trainStep p i
    = (s.setReg (rPortLink p) (i.rtt % 2 ^ 16 + 2 ^ 16 * ((ceilDiv i.rtt 128 + 1) % 2 ^ 16))).trainTo p 5 := by
  unfold State.trainStep
  dsimp only
  rw [if_neg (by omega), if_neg (by omega), if_neg (by omega), if_pos h]

theorem State.trainStep_peer (h : s.portState p = 5) : s.trainStep p i
    = (if s.mode p = 2 then s.setPort p { s.port p with credits := [32, 0, i.reqCredit, i.rspCredit] }
      else s.setReg (rPortPeer p) (bitsOf i.peerHerd 0 11 + 2 ^ 11 * (i.peerPort % 32) + 2 ^ 16 * bitsOf i.peerHerd 32 32 + 2 ^ 48)).portToUp p := by
  unfold State.trainStep
  dsimp only
  rw [if_neg (by omega), if_neg (by omega), if_neg (by omega), if_neg (by omega), if_pos h]

theorem hlLanes_lt (lanes : Nat) (full : Bool) : hlLanes lanes full < 16 := by
  unfold hlLanes
  split
  · decide
  · split
    · decide
    · split <;> decide

/-- RTT gives the round trip and λ, and PF_HERD goes out (R240, R241). -/
theorem State.trainStep_measured (w : s.Wf) (hm : s.mode p = 1) (h : s.portState p = 4) (hr : i.rtt < 2 ^ 16) :
    regsOnly { s with outbox := s.outbox ++ [.identify p (BitVec.ofNat 64 (s.reg rPfHerd))] } (s.trainStep p i) [rPortStat p, rPortLink p]
      ∧ (s.trainStep p i).portState p = 5 ∧ (s.trainStep p i).fld (rPortLink p) 0 16 = i.rtt
      ∧ (s.trainStep p i).fld (rPortLink p) 16 16 = (i.rtt + 127) / 128 + 1 := by
  obtain ⟨x, hx⟩ : ∃ x, x = i.rtt % 2 ^ 16 + 2 ^ 16 * ((ceilDiv i.rtt 128 + 1) % 2 ^ 16) := ⟨_, rfl⟩
  have hdiv : ceilDiv i.rtt 128 = (i.rtt + 127) / 128 := rfl
  have h1 : OnRegs [rPortStat p, rPortLink p] s (s.setReg (rPortLink p) x) := (OnRegs.refl w _).setReg (by simp)
  have hm1 : (s.setReg (rPortLink p) x).mode p = 1 := (h1.fld (by simp [rPortMode_ne_stat]; unfold rPortMode rPortLink; omega) ..).trans hm
  have hherd : (s.setReg (rPortLink p) x).reg rPfHerd = s.reg rPfHerd :=
    h1.reg fun hm => not_portReg (r := rPfHerd) (by decide) p (by simp only [List.mem_cons] at hm ⊢; tauto)
  have hlink : ((s.setReg (rPortLink p) x).setFld (rPortStat p) 0 3 5).reg (rPortLink p) = x := by
    rw [State.setFld, State.reg_setReg_ne h1.wf.regs (rPortStat_ne_link p p).symm, State.reg_setReg_same w.regs]
    omega
  rw [State.trainStep_rtt h, ← hx, State.trainTo_identify h1.wf hm1, hherd]
  refine ⟨(h1.setFld (by simp)).emit _, State.portState_setStat h1.wf (by decide), ?_, ?_⟩
  · refine (congrArg (bitsOf · 0 16) hlink).trans ?_
    rw [hx]; dsimp only [bitsOf]; omega
  · refine (congrArg (bitsOf · 16 16) hlink).trans ?_
    rw [hx]; dsimp only [bitsOf]; omega

/-- The port enters UP. -/
theorem State.portToUp_spec (w : s.Wf) (hh : s.pkg.whelp = true) (p : Nat) : (s.portToUp p).portState p = 6
    ∧ (∀ r, r ≠ rPortStat p → (s.portToUp p).reg r = s.reg r) ∧ ((s.portToUp p).port p).silence = 0
    ∧ (s.portToUp p).mem = s.mem ∧ (s.portToUp p).cores = s.cores := by
  unfold State.portToUp
  extract_lets v u
  have wu : u.Wf := (Quiet.setPort noReg s p _).wf w
  have hu : (u.setFld (rPortStat p) 0 3 6).settleWhelp = u.setFld (rPortStat p) 0 3 6 := State.settleWhelp_of_whelp hh
  have w1 : (u.setFld (rPortStat p) 0 3 6).Wf := (Quiet.setFld u _ 0 3 6).wf wu
  have hp := (PortsOnly.refl (u.setFld (rPortStat p) 0 3 6)).pump p
  rw [hu]
  refine ⟨?_, fun r hr => (hp.reg r).trans (State.reg_setFld_ne wu.regs hr ..), ?_, hp.mem, hp.cores⟩
  · rw [State.portState, State.fld, hp.reg]
    exact State.portState_setStat wu (by decide)
  · rw [(SameSilence.pump w1 p).silence]
    exact congrArg PortSt.silence (w.port_setPort_same p _)

/-- A FABRIC port is UP with its peer's identity (R241). -/
theorem State.trainStep_up (w : s.Wf) (hh : s.pkg.whelp = true) (hm : s.mode p = 1) (h : s.portState p = 5) :
    (s.trainStep p i).portState p = 6 ∧ (s.trainStep p i).fld (rPortPeer p) 48 1 = 1
      ∧ (s.trainStep p i).fld (rPortPeer p) 0 11 = bitsOf i.peerHerd 0 11 ∧ (s.trainStep p i).fld (rPortPeer p) 11 5 = i.peerPort % 32
      ∧ ((s.trainStep p i).port p).silence = 0 ∧ (s.trainStep p i).mem = s.mem ∧ (s.trainStep p i).cores = s.cores := by
  obtain ⟨x, hx⟩ : ∃ x, x = bitsOf i.peerHerd 0 11 + 2 ^ 11 * (i.peerPort % 32) + 2 ^ 16 * bitsOf i.peerHerd 32 32 + 2 ^ 48 := ⟨_, rfl⟩
  have w1 : (s.setReg (rPortPeer p) x).Wf := (Quiet.setReg s _ x).wf w
  obtain ⟨hup, hreg, hsil, hmem, hcores⟩ := State.portToUp_spec w1 (p := p) hh
  have hlow : bitsOf i.peerHerd 0 11 < 2 ^ 11 := bitsOf_lt ..
  have hhigh : bitsOf i.peerHerd 32 32 < 2 ^ 32 := bitsOf_lt ..
  rw [State.trainStep_peer h, if_neg (by omega), ← hx]
  simp only [State.fld, hreg _ (rPortStat_ne_peer p p).symm, State.reg_setReg_same w.regs _ (show x < 2 ^ 64 by omega)]
  refine ⟨hup, ?_, ?_, ?_, hsil, hmem, hcores⟩ <;>
  · generalize bitsOf i.peerHerd 0 11 = a at *
    generalize bitsOf i.peerHerd 32 32 = b at *
    rw [bitsOf, hx]
    omega

/-- A HOSTLINK port is UP with the host's credits and a fresh link layer (R324, R328). -/
theorem State.trainStep_upHl (w : s.Wf) (hh : s.pkg.whelp = true) (hm : s.mode p = 2) (h : s.portState p = 5) (hq : (s.port p).txq = []) :
    regsOnly { s with ports := (s.trainStep p i).ports } (s.trainStep p i) [rPortStat p] ∧ (s.trainStep p i).portState p = 6
      ∧ (s.trainStep p i).port p = { s.port p with
          credits := [32, 0, i.reqCredit, i.rspCredit], silence := 0, downRaised := false, txNext := 0, rxNext := 0, rxNak := false
          rxAny := false, nakSeen := false, owed := [0, 0, 0, 0], unacked := [], carried := s.now + 1 }
      ∧ ∀ q, q ≠ p → (s.trainStep p i).port q = s.port q := by
  obtain ⟨y, hy⟩ : ∃ y, y = s.setPort p { s.port p with credits := [32, 0, i.reqCredit, i.rspCredit] } := ⟨_, rfl⟩
  have wy : y.Wf := hy ▸ (Quiet.setPort noReg s p _).wf w
  have hyp : y.port p = { s.port p with credits := [32, 0, i.reqCredit, i.rspCredit] } := hy ▸ w.port_setPort_same ..
  obtain ⟨z, hz⟩ : ∃ z, z = y.setPort p { y.port p with
      silence := 0, downRaised := false, txNext := 0, rxNext := 0, rxNak := false, rxAny := false, nakSeen := false
      owed := [0, 0, 0, 0], unacked := [], carried := y.now + 1 } := ⟨_, rfl⟩
  have wz : z.Wf := hz ▸ (Quiet.setPort noReg y p _).wf wy
  have hzp := hz ▸ wy.port_setPort_same p { y.port p with
      silence := 0, downRaised := false, txNext := 0, rxNext := 0, rxNak := false, rxAny := false, nakSeen := false
      owed := [0, 0, 0, 0], unacked := [], carried := y.now + 1 }
  have e : s.trainStep p i = z.setFld (rPortStat p) 0 3 6 := by
    rw [State.trainStep_peer h, if_pos hm, ← hy, State.portToUp, ← hz, State.settleWhelp_of_whelp (by rw [hz, hy]; exact hh), State.pump_of_empty]
    show (z.port p).txq = []
    rw [hzp, hyp, hq]
  have hports : z.port = (z.setFld (rPortStat p) 0 3 6).port := rfl
  rw [e, ← hports, hzp, hyp]
  refine ⟨⟨?_, fun r hr => ?_⟩, State.portState_setStat wz (by decide), ?_, fun q hq => ?_⟩
  · rw [hz, hy]; rfl
  · rw [State.reg_setFld_ne wz.regs (by simpa using hr), hz, hy]; rfl
  · rw [hy]; rfl
  · rw [hz, wy.port_setPort_ne hq, hy, w.port_setPort_ne hq]

/-- Settles O35: one step of training for each state. -/
theorem trainingOfAPort : Obligations.TrainingOfAPort := by
  intro p i s w hd hp sends
  simp only [exec_trainingStateComplete hd hp]
  refine ⟨fun st hst h1 h5 => ?_, fun h hm => ?_, fun hm h => ?_, fun hm h => ⟨fun hl => ?_, fun hl => ?_⟩, fun hm h hr => ?_, fun hm h hh => ?_,
    fun hm h => ⟨fun hl => ?_, fun hl => ?_⟩, fun hm h hh hq => ?_⟩
  · rw [exec_trainingTimeout hd (by omega), ← hst]
    exact ⟨_, rfl, State.trainFail_spec w p⟩
  · refine ⟨_, rfl, State.trainStep_detect w h ?_⟩
    rw [if_neg]
    rintro ⟨h2, hf⟩
    simp_all
  · refine ⟨_, rfl, ?_⟩
    rcases h with h | ⟨h, h2, hf⟩
    · exact State.trainStep_equalize w h
    · exact State.trainStep_detect w h (by simp [h2, hf])
  · exact ⟨_, rfl, State.lanes_locked w p (by decide) (by decide) _ (by rw [State.trainStep_fecLock hm h, if_pos hl, State.trainTo_measure])⟩
  · rw [State.trainStep_fecLock hm h, if_neg hl]
    exact ⟨_, rfl, h ▸ State.trainFail_spec w p⟩
  · exact ⟨_, rfl, State.trainStep_measured w hm h hr⟩
  · exact ⟨_, rfl, State.trainStep_up w hh hm h⟩
  · have h1 : OnRegs [rPortStat p] s (s.setFld (rPortStat p) 6 4 (hlLanes i.lanes (s.port p).full)) := (OnRegs.refl w _).setFld (by simp)
    refine ⟨_, rfl, State.lanes_locked w p (hlLanes_lt ..) (by decide) _ ?_⟩
    rw [State.trainStep_fecLockHl hm h, if_neg hl, State.trainTo_hello h1.wf]
    exact (h1.fld (by simp [rPortMode_ne_stat]) ..).trans hm
  · rw [State.trainStep_fecLockHl hm h, if_pos hl]
    exact ⟨_, rfl, h ▸ State.trainFail_spec w p⟩
  · obtain ⟨hregs, hup, hport, hothers⟩ := State.trainStep_upHl w hh hm h hq (i := i)
    refine ⟨_, rfl, hregs, hup, ?_⟩
    rw [hport]
    exact ⟨rfl, rfl, rfl, rfl, rfl, rfl, rfl, hothers⟩

end Sys2Proof.Machine
end

section
/-! SUPPORT. The stretch in force (R246, R269), what the beginning of a beat changes, and what the power control changes of the state. -/

namespace Sys2Proof.Machine
open Sys2Proof

-- Proofs elaborated in threads of their own would pass the check's limit of memory.
set_option Elab.async false

variable {s t u : State} {p q b c : Nat}

/-! ### The stretch of one beat -/

theorem nodup_eraseDups (l : List Nat) : l.eraseDups.Nodup := by
  induction hn : l.length using Nat.strong_induction_on generalizing l with
  | _ n ih =>
    cases l with
    | nil => exact List.nodup_nil
    | cons a l =>
      rw [List.eraseDups_cons, List.nodup_cons, List.mem_eraseDups]
      refine ⟨by simp, ih _ ?_ _ rfl⟩
      have := List.length_filter_le (fun b => !b == a) l
      rw [← hn, List.length_cons]
      omega

/-- The largest first part in a list, as `stretchAt` finds it. -/
theorem foldl_largest (l : List (Nat × Nat)) (m : Option Nat) :
    (l = [] ∧ l.foldl (fun m e => some (max (m.getD 0) e.1)) m = m)
      ∨ ∃ M, l.foldl (fun m e => some (max (m.getD 0) e.1)) m = some M ∧ m.getD 0 ≤ M ∧ (∀ e ∈ l, e.1 ≤ M)
          ∧ (M = m.getD 0 ∨ ∃ e ∈ l, e.1 = M) := by
  induction l generalizing m with
  | nil => exact .inl ⟨rfl, rfl⟩
  | cons e l ih =>
    right
    rw [List.foldl_cons]
    rcases ih (some (max (m.getD 0) e.1)) with ⟨rfl, h⟩ | ⟨M, h, hm, hall, hmem⟩
    · refine ⟨_, h, le_max_left .., fun x hx => ?_, ?_⟩
      · rw [List.mem_singleton.1 hx]; exact le_max_right ..
      · rcases max_choice (m.getD 0) e.1 with hc | hc
        · exact .inl hc
        · exact .inr ⟨e, List.mem_cons_self, hc.symm⟩
    · rw [Option.getD_some] at hm hmem
      refine ⟨M, h, (le_max_left ..).trans hm, fun x hx => ?_, ?_⟩
      · rcases List.mem_cons.1 hx with rfl | hx
        · exact (le_max_right ..).trans hm
        · exact hall x hx
      · rcases hmem with hM | ⟨x, hx, hM⟩
        · rcases max_choice (m.getD 0) e.1 with hc | hc
          · exact .inl (hM.trans hc)
          · exact .inr ⟨e, List.mem_cons_self, (hM.trans hc).symm⟩
        · exact .inr ⟨x, List.mem_cons_of_mem _ hx, hM⟩

theorem foldl_min_le (l : List (Nat × Nat)) (m : Nat) : l.foldl (fun m e => min m e.1) m ≤ m ∧ ∀ e ∈ l, l.foldl (fun m e => min m e.1) m ≤ e.1 := by
  induction l generalizing m with
  | nil => exact ⟨le_rfl, fun e he => absurd he List.not_mem_nil⟩
  | cons x l ih =>
    obtain ⟨h1, h2⟩ := ih (min m x.1)
    refine ⟨h1.trans (min_le_left ..), fun e he => ?_⟩
    rcases List.mem_cons.1 he with rfl | he
    · exact h1.trans (min_le_right ..)
    · exact h2 e he

theorem foldl_min_ge (l : List (Nat × Nat)) (m c : Nat) (hm : c ≤ m) (hl : ∀ e ∈ l, c ≤ e.1) : c ≤ l.foldl (fun m e => min m e.1) m :=
  List.foldlRecOn (motive := fun m => c ≤ m) _ _ hm fun m hm e he => by
    have := hl e he
    omega

/-- The slots that the announcement for `be` adds to the beats from `lo` up to `hi`. -/
def stretchShare (t : List (Nat × Nat)) (lo hi be : Nat) : Nat :=
  (min hi ((t.filter (fun e => be < e.1)).foldl (fun m e => min m e.1) hi) - max lo be) * bestS t be

theorem stretchSum_eq (t : List (Nat × Nat)) (lo hi : Nat) :
    stretchSum t lo hi = ((t.map (·.1)).eraseDups.map (stretchShare t lo hi)).sum := rfl

/-- An announcement that a later one has ended by beat `c` adds nothing to it. -/
theorem stretchShare_ended {t : List (Nat × Nat)} {be : Nat} {e : Nat × Nat} (he : e ∈ t) (h1 : be < e.1) (h2 : e.1 ≤ c) :
    stretchShare t c (c + 1) be = 0 := by
  have hmin := (foldl_min_le (t.filter (fun e => be < e.1)) (c + 1)).2 e (List.mem_filter.2 ⟨he, by simpa using h1⟩)
  rw [stretchShare, show min (c + 1) _ - max c be = 0 by omega, Nat.zero_mul]

theorem stretchShare_later {t : List (Nat × Nat)} {be : Nat} (h : c < be) : stretchShare t c (c + 1) be = 0 := by
  rw [stretchShare, show min (c + 1) _ - max c be = 0 by omega, Nat.zero_mul]

/-- One beat is stretched by the stretch in force for it. -/
theorem stretchSum_one (t : List (Nat × Nat)) (c : Nat) : stretchSum t c (c + 1) = stretchAt t c := by
  rw [stretchSum_eq, stretchAt]
  have hmem : ∀ e, e ∈ t.filter (fun e => decide (e.1 ≤ c)) ↔ e ∈ t ∧ e.1 ≤ c := fun e => by simp
  rcases foldl_largest (t.filter (fun e => e.1 ≤ c)) none with ⟨hnil, h⟩ | ⟨M, h, -, hall, hM⟩
  · rw [h]
    refine List.sum_eq_zero fun x hx => ?_
    obtain ⟨be, hbe, rfl⟩ := List.mem_map.1 hx
    rw [List.mem_eraseDups] at hbe
    obtain ⟨e, he, rfl⟩ := List.mem_map.1 hbe
    refine stretchShare_later (Nat.lt_of_not_le fun hle => ?_)
    have := (hmem e).2 ⟨he, hle⟩
    rw [hnil] at this
    cases this
  · rw [h]
    obtain ⟨e, he, heM⟩ : ∃ e ∈ t.filter (fun e => decide (e.1 ≤ c)), e.1 = M := by
      rcases hM with hM | hM
      · cases hl : t.filter (fun e => decide (e.1 ≤ c)) with
        | nil => rw [hl] at h; cases h
        | cons e l =>
          have hle := hall e (by rw [hl]; exact List.mem_cons_self)
          exact ⟨e, List.mem_cons_self, by rw [Option.getD_none] at hM; omega⟩
      · exact hM
    obtain ⟨het, hec⟩ := (hmem e).1 he
    have hin : M ∈ (t.map (·.1)).eraseDups := List.mem_eraseDups.2 (List.mem_map.2 ⟨e, het, heM⟩)
    rw [List.sum_map_eq_nsmul_single M, List.count_eq_one_of_mem (nodup_eraseDups _) hin, one_smul]
    · have hge : c + 1 ≤ (t.filter (fun e => M < e.1)).foldl (fun m e => min m e.1) (c + 1) :=
        foldl_min_ge _ _ _ le_rfl fun x hx => by
          have hx := List.mem_filter.1 hx
          by_contra hlt
          have := hall x ((hmem x).2 ⟨hx.1, by omega⟩)
          have : M < x.1 := by simpa using hx.2
          omega
      rw [stretchShare, show min (c + 1) _ - max c M = 1 by omega, Nat.one_mul]
    · intro be hne hbe
      obtain ⟨x, hx, rfl⟩ := List.mem_map.1 (List.mem_eraseDups.1 hbe)
      by_cases hxc : x.1 ≤ c
      · have := hall x ((hmem x).2 ⟨hx, hxc⟩)
        exact stretchShare_ended het (by omega) hec
      · exact stretchShare_later (by omega)

/-- The next beat begins 256 slots and the stretch of the current beat after it. -/
theorem State.beatTime_next (s : State) : s.beatTime (s.beat + 1) = s.fab.beatStart + 256 + stretchAt s.stretchTable s.beat := by
  unfold State.beatTime
  dsimp only
  rw [if_pos (Nat.le_succ _), stretchSum_one, Nat.add_sub_cancel_left]

end Sys2Proof.Machine
end

section
/-! SUPPORT. The beginning of a beat (R246, R250, R269, R402). -/

namespace Sys2Proof.Machine
open Sys2Proof

-- Proofs elaborated in threads of their own would pass the check's limit of memory.
set_option Elab.async false

variable {s t u : State} {p q b c : Nat}

/-! ### What a package shows of its stretches, and whom it owes its pack time -/

theorem State.showStretch_regs (w : s.Wf) : OnRegs [rPfStretchStat, rPfStretchNext] s s.showStretch := by
  have h : OnRegs [rPfStretchStat, rPfStretchNext] s (s.setFld rPfStretchStat 0 3 s.fab.table.length) := (OnRegs.refl w _).setFld
  unfold State.showStretch
  extract_lets tbl x ahead
  clear_value ahead
  cases ahead with
  | nil => exact h.setReg
  | cons => exact h.setReg

/-- The ports of a list owe the pack time. -/
theorem State.oweTimes_spec (w : s.Wf) {l : List Nat} (hl : l.Nodup) :
    Wired [] s (l.foldl (fun s p => s.setPort p { s.port p with timeDue := true }) s)
      ∧ ∀ p ∈ l, ((l.foldl (fun s p => s.setPort p { s.port p with timeDue := true }) s).port p).timeDue = true := by
  refine ⟨(Wired.refl w _).foldl fun p _ h => h.setPort .., ?_⟩
  exact (foldl_ports (P := fun _ x => x.timeDue = true) (f := fun s p => s.setPort p { s.port p with timeDue := true })
    (fun s p w => ⟨((Wired.refl w []).setPort ..).wf, fun q hq => w.port_setPort_ne hq _, by rw [w.port_setPort_same]⟩) hl w).2

theorem State.oweTime_wired (w : s.Wf) : Wired [] s s.oweTime := by
  unfold State.oweTime
  split
  · exact (State.oweTimes_spec w (s.fabricUp_nodup.filter _)).1
  · exact .refl w _

/-- The root of a synchronized herd owes its pack time to every UP FABRIC port (R250). -/
theorem State.oweTime_root (w : s.Wf) (h6 : s.fld rPfSyncCtrl 6 1 = 1) (h0 : s.fld rPfSyncCtrl 0 1 = 1) (hp : p ∈ s.fabricUp) :
    (s.oweTime.port p).timeDue = true := by
  rw [State.oweTime, if_pos ⟨h6, .inl h0⟩]
  exact (State.oweTimes_spec w (s.fabricUp_nodup.filter _)).2 p (List.mem_filter.2 ⟨hp, by simp [h0]⟩)

/-! ### The power control of a beat -/

/-- The registers that the power control of a beat writes. -/
def powerReg (r : Nat) : Prop := r ∈ [rPwrCap, rPwrCapSched, rPwrShare, rPwrEst, rPwrStretch, rPwrFreq, rPwrAvg] ∨ coreReg r

/-- Registers of `R` and the power control's own state alone have changed. -/
structure Metered (R : Nat → Prop) (s t : State) : Prop where
  wf    : t.Wf
  frame : t = { s with regs := t.regs, pwr := t.pwr }
  regs  : ∀ r, ¬ R r → t.reg r = s.reg r

namespace Metered

variable {R : Nat → Prop}

theorem refl (w : s.Wf) (R : Nat → Prop) : Metered R s s := ⟨w, rfl, fun _ _ => rfl⟩

theorem trans (h : Metered R s t) (k : Metered R t u) : Metered R s u :=
  ⟨k.wf, by rw [k.frame, h.frame], fun r hr => (k.regs r hr).trans (h.regs r hr)⟩

theorem mono {R' : Nat → Prop} (h : Metered R s t) (hR : ∀ r, R r → R' r) : Metered R' s t := ⟨h.wf, h.frame, fun r hr => h.regs r fun k => hr (hR r k)⟩

theorem setReg (h : Metered R s t) {a : Nat} (ha : R a) (x : Nat) : Metered R s (t.setReg a x) where
  wf := (Quiet.setReg t a x).wf h.wf
  frame := by rw [State.setReg, h.frame]
  regs r hr := (State.reg_setReg_ne h.wf.regs (fun e : r = a => hr (e ▸ ha)) x).trans (h.regs r hr)

theorem setFld (h : Metered R s t) {a : Nat} (ha : R a) (lo l x : Nat) : Metered R s (t.setFld a lo l x) := h.setReg ha _

theorem setPwr (h : Metered R s t) (x : PwrSt) : Metered R s { t with pwr := x } where
  wf := { h.wf with }
  frame := by rw [h.frame]
  regs := h.regs

theorem fld (h : Metered R s t) {r : Nat} (hr : ¬ R r) (lo l : Nat) : t.fld r lo l = s.fld r lo l := by rw [State.fld, h.regs r hr]; rfl

end Metered

theorem State.capDue_metered (w : s.Wf) : Metered powerReg s s.capDue := by
  unfold State.capDue
  extract_lets b c x
  split
  · exact Metered.setPwr (((Metered.refl w _).setFld (.inl (by simp)) ..).setReg (.inl (by simp)) _) _
  · exact .refl w _

theorem State.shape_metered (w : s.Wf) (slots base : Nat) : Metered powerReg s (s.shape slots base) := (Metered.refl w _).setPwr _

theorem State.estimate_eq (s : State) (slots : Nat) (r : Nat × Nat × Nat) : ∃ pwr base share level c ex held, s.estimate slots r
    = ((({ s with pwr } : State).shape slots base).setReg rPwrShare share).setReg rPwrEst
        (min 65535 level + 2 ^ 16 * min 65535 (r.1 + r.2.1 + r.2.2) + 2 ^ 32 * c + 2 ^ 38 * ex + 2 ^ 39 * held) :=
  ⟨_, _, _, _, _, _, _, rfl⟩

/-- The estimate shows the raw sum of its parts (R402). -/
theorem State.estimate_spec (w : s.Wf) (slots : Nat) (r : Nat × Nat × Nat) : Metered powerReg s (s.estimate slots r)
    ∧ (s.estimate slots r).fld rPwrEst 16 16 = min 65535 (r.1 + r.2.1 + r.2.2) := by
  obtain ⟨pwr, base, share, level, c, ex, held, e⟩ := State.estimate_eq s slots r
  have hx : Metered powerReg s { s with pwr } := (Metered.refl w _).setPwr _
  have hy := (hx.trans (State.shape_metered hx.wf slots base)).setReg (a := rPwrShare) (.inl (by simp)) share
  rw [e]
  refine ⟨hy.setReg (.inl (by simp)) _, ?_⟩
  rw [State.fld, State.reg_setReg hy.wf.regs, if_pos rfl, bitsOf]
  omega

theorem State.setTargets_metered (w : s.Wf) (x y : Nat) : Metered (fun r => r = rPwrFreq ∨ coreReg r) s (s.setTargets x y) :=
  List.foldlRecOn (motive := Metered (fun r => r = rPwrFreq ∨ coreReg r) s) _ _ ((Metered.refl w _).setReg (.inl rfl) _)
    fun _ h n _ => h.setReg (.inr (coreReg_rCore n oFreq)) _

theorem State.governBeat_metered (w : s.Wf) : Metered (fun r => r ∈ [rPwrFreq, rPwrAvg] ∨ coreReg r) s s.governBeat := by
  have htargets : ∀ x y, Metered (fun r => r ∈ [rPwrFreq, rPwrAvg] ∨ coreReg r) s (s.setTargets x y) := fun x y =>
    (State.setTargets_metered w x y).mono fun r hr => hr.imp (by simp [·]) id
  have hrate : ∀ x, Metered (fun r => r ∈ [rPwrFreq, rPwrAvg] ∨ coreReg r) s (s.setMemRate x) := fun x =>
    (Metered.refl w _).setFld (.inl (by simp)) ..
  unfold State.governBeat
  extract_lets a e lo hi
  split
  · exact htargets ..
  · split
    · split
      · exact htargets ..
      · exact hrate _
    · split
      · exact hrate _
      · exact htargets ..

/-! ### A beat begins -/

/-- The next beat as the package keeps it, before the power control hears of it. -/
def State.nextBeat (s : State) : State :=
  let t := s.beatTime (s.beat + 1)
  let u := s.advanceTo t
  let v := { u with fab := { u.fab with beatStart := t } }
  (v.setReg rPfBeat ((s.beat + 1) % 2 ^ 48 + 2 ^ 48 * (stretchAt u.stretchTable (s.beat + 1) % 2 ^ 12))).retireStretch.showStretch.oweTime

theorem State.beatStarts_eq (s : State) (a : Activity) : s.beatStarts a
    = (let u := s.nextBeat.capDue.estimate (s.beatTime (s.beat + 1) - (s.advanceTo (s.beatTime (s.beat + 1))).fab.beatStart) (rawParts a)
       (u.setFld rPwrStretch 16 12 u.adviceOf).governBeat) := rfl

theorem State.nextBeat_spec (w : s.Wf) : Wired [rPfPackTime, rPfBeat, rPfStretchStat, rPfStretchNext] s s.nextBeat
    ∧ s.nextBeat.reg rPfBeat = (s.beat + 1) % 2 ^ 48 + 2 ^ 48 * (stretchAt s.stretchTable (s.beat + 1) % 2 ^ 12)
    ∧ s.nextBeat.fab.beatStart = s.beatTime (s.beat + 1)
    ∧ s.nextBeat.now = (s.advanceTo (s.beatTime (s.beat + 1))).now
    ∧ (s.fld rPfSyncCtrl 6 1 = 1 → s.fld rPfSyncCtrl 0 1 = 1 → ∀ p ∈ s.fabricUp, (s.nextBeat.port p).timeDue = true) := by
  obtain ⟨R, hR⟩ : ∃ R, R = [rPfPackTime, rPfBeat, rPfStretchStat, rPfStretchNext] := ⟨_, rfl⟩
  rw [← hR]
  have hport : ∀ r ∈ R, r < 0x8_0000 := by rw [hR]; decide
  unfold State.nextBeat
  extract_lets t u f v
  have hu : Wired R s u := (State.advanceTo_wired w t).mono (by simp [hR])
  have hfab : u.fab = s.fab := s.advanceTo_fab t
  have hv : Wired R s v := hu.setFab _
  have htable : u.stretchTable = s.stretchTable := by rw [State.stretchTable, hfab]; rfl
  rw [htable]
  obtain ⟨x, hx⟩ : ∃ x, x = v.setReg rPfBeat ((s.beat + 1) % 2 ^ 48 + 2 ^ 48 * (stretchAt s.stretchTable (s.beat + 1) % 2 ^ 12)) := ⟨_, rfl⟩
  have hxs : Wired R s x := hx ▸ hv.setReg (by simp [hR]) _
  have hret : Wired R s x.retireStretch := hxs.setFab _
  have hshow := State.showStretch_regs hret.wf
  have hy : Wired R s x.retireStretch.showStretch := hret.trans (hshow.wired.mono (by simp [hR]))
  have ho := State.oweTime_wired hy.wf
  rw [← hx]
  refine ⟨hy.trans (ho.mono (List.nil_subset _)), ?_, ?_, ?_, fun h6 h0 p hp => ?_⟩
  · rw [ho.regs _ List.not_mem_nil, hshow.reg (by decide)]
    refine (show x.retireStretch.reg rPfBeat = x.reg rPfBeat from rfl).trans ?_
    rw [hx, State.reg_setReg_same hv.wf.regs]
    omega
  · have hkeep : ∀ z : State, z.oweTime.fab = z.fab := fun z => by
      unfold State.oweTime
      split
      · exact foldl_keep State.fab (f := fun s p => s.setPort p _) (fun _ _ => rfl) _ _
      · rfl
    rw [hkeep, hshow.only.1, hx]
    rfl
  · rw [State.now, ho.regs _ List.not_mem_nil, hshow.reg (by decide)]
    refine (show x.retireStretch.reg rPfPackTime = x.reg rPfPackTime from rfl).trans ?_
    rw [hx, State.reg_setReg_ne hv.wf.regs (by decide)]
    rfl
  · have hup : x.retireStretch.showStretch.fabricUp = s.fabricUp := by
      refine List.filter_congr fun p _ => ?_
      rw [hy.mode fun hm => not_portReg (hport _ hm) p (by simp), hy.portUp fun hm => not_portReg (hport _ hm) p (by simp)]
    exact State.oweTime_root hy.wf ((hy.fld (by simp [hR]; decide) ..).trans h6) ((hy.fld (by simp [hR]; decide) ..).trans h0) (hup ▸ hp)

/-- Pack time is the later of what it was and what it comes to. -/
theorem State.now_advanceTo_max (w : s.Wf) (h : b < 2 ^ 64) : (s.advanceTo b).now = max s.now b := by
  rcases Nat.le_total s.now b with hle | hle
  · rw [State.now_advanceTo w hle h, max_eq_right hle]
  · rw [State.advanceTo_of_le hle, max_eq_left hle]

/-- The power control leaves what the beat's beginning has set. -/
theorem State.beatStarts_metered (w : s.Wf) (a : Activity) : Metered powerReg s.nextBeat (s.beatStarts a)
    ∧ (s.beatStarts a).fld rPwrEst 16 16 = min 65535 ((rawParts a).1 + (rawParts a).2.1 + (rawParts a).2.2) := by
  obtain ⟨hw, -⟩ := State.nextBeat_spec w
  have hcap := State.capDue_metered hw.wf
  rw [State.beatStarts_eq]
  extract_lets u
  obtain ⟨hest, hraw⟩ := State.estimate_spec hcap.wf (s.beatTime (s.beat + 1) - (s.advanceTo (s.beatTime (s.beat + 1))).fab.beatStart) (rawParts a)
  have hadv : Metered powerReg u (u.setFld rPwrStretch 16 12 u.adviceOf) := (Metered.refl hest.wf _).setFld (.inl (by simp)) ..
  have hgov := State.governBeat_metered hadv.wf
  refine ⟨((hcap.trans hest).trans hadv).trans (hgov.mono fun r hr => hr.imp (fun h => ?_) id), ?_⟩
  · simp only [List.mem_cons, List.not_mem_nil, or_false] at h ⊢
    tauto
  · rw [hgov.fld (fun h => h.elim (by decide) (not_coreReg (by decide))), State.fld_setFld_ne hest.wf.regs (by decide)]
    exact hraw

/-- Settles O43: the beat is the package's before the power control hears of it, which leaves it. -/
theorem beatStart : Obligations.BeatStart := by
  refine ⟨by decide, rfl, by decide, fun act s w hd hb hn => ?_⟩
  obtain ⟨hw, hbeat, hstart, hnow, howe⟩ := State.nextBeat_spec w
  obtain ⟨hm, hest⟩ := State.beatStarts_metered w act
  have hlow : ∀ {r}, r < coreBase → r ∉ [rPwrCap, rPwrCapSched, rPwrShare, rPwrEst, rPwrStretch, rPwrFreq, rPwrAvg] → ¬ powerReg r :=
    fun h h' hr => hr.elim h' (not_coreReg h)
  obtain ⟨t, ht⟩ : ∃ t, t = s.beatStarts act := ⟨_, rfl⟩
  rw [← ht] at hm hest
  have hframe := hm.frame
  have hfab : t.fab = s.nextBeat.fab := by rw [hframe]
  have hport : t.port = s.nextBeat.port := by rw [hframe]; rfl
  have hreg : t.reg rPfBeat = _ := (hm.regs _ (hlow (by decide) (by decide))).trans hbeat
  have hnowt : t.now = (s.advanceTo (s.beatTime (s.beat + 1))).now := (hm.regs _ (hlow (by decide) (by decide))).trans hnow
  have hwait : t.anyWaits = false := by
    have hcores : t.anyWaits = s.nextBeat.anyWaits := by rw [hframe]; rfl
    rw [hcores, hw.anyWaits, hn]
  have hsettle : t.settle = t := by
    rw [State.settle, hwait, Bool.and_false]
    exact if_neg (by decide)
  refine ⟨t, (whenTimed_of_live hd fun s => s.beatStarts act).trans (by rw [← ht, hsettle]), ?_, ?_, ?_, fun hlt => ?_, hest, ?_, ?_, ?_,
    fun h6 h0 p hp => ?_⟩
  · rw [State.beat, State.fld, hreg, bitsOf]; omega
  · rw [hfab, hstart, State.beatTime_next]
  · rw [State.fld, hreg, bitsOf]; omega
  · rw [hfab, hstart] at hlt ⊢
    rw [hnowt, State.now_advanceTo_max w hlt]
  · rw [hframe]; exact hw.mem
  · rw [hframe]; exact hw.nv
  · rw [hframe]; exact hw.job
  · rw [hport]; exact howe h6 h0 p hp

end Sys2Proof.Machine
end

section
/-! SUPPORT. What the arrival of a good flit changes before its TYPE is looked at (R238, R242, R244, R249, R272). -/

namespace Sys2Proof.Machine
open Sys2Proof

-- Proofs elaborated in threads of their own would pass the check's limit of memory.
set_option Elab.async false

variable {s t u : State} {p q : Nat} {f : Flit} {x : Arrival} {hold : Bool}

/-! ### Measuring the parent -/

theorem State.phaseOf_eq (hl : t.reg (rPortLink p) = s.reg (rPortLink p)) (hf : t.fab = s.fab) : t.phaseOf p f x = s.phaseOf p f x := by
  simp only [State.phaseOf, State.fld, hl, hf]

theorem State.follows_eq (hc : t.reg rPfSyncCtrl = s.reg rPfSyncCtrl) : t.follows = s.follows := by simp only [State.follows, State.fld, hc]

theorem State.keepsLock_eq (hc : t.reg rPfSyncCtrl = s.reg rPfSyncCtrl) (hs : t.reg rPfSyncStat = s.reg rPfSyncStat)
    (hl : t.reg (rPortLink p) = s.reg (rPortLink p)) (hf : t.fab = s.fab) : t.keepsLock p f x ↔ s.keepsLock p f x := by
  simp only [State.keepsLock, State.follows_eq hc, State.phaseOf_eq hl hf, State.fld, hc, hs]

/-- What a measured flit that shows no loss of lock changes. -/
structure Measures (s t : State) : Prop where
  wired  : Wired [rPfSyncStat] s t
  ports  : t.ports = s.ports
  outbox : t.outbox = s.outbox
  fab    : measured t s.fab
  sync   : ∀ lo n, lo + n ≤ 8 → t.fld rPfSyncStat lo n = s.fld rPfSyncStat lo n

theorem State.measure_keeps (w : s.Wf) (h : s.keepsLock p f x) : Measures s (s.measure p f x) := by
  unfold State.measure
  split
  · exact ⟨.refl w _, rfl, rfl, rfl, fun _ _ _ => rfl⟩
  · next hm =>
    extract_lets e within locked far g v
    have hv : Wired [rPfSyncStat] s v := (Wired.refl w _).setFab _
    rw [if_neg]
    · exact ⟨hv.setFld (by simp) .., rfl, rfl, rfl, fun lo n hn => State.fld_setFld_disjoint hv.wf.regs (by decide) (.inl hn) ..⟩
    · intro hlost
      simp only [Bool.or_eq_true, Bool.not_eq_true', bne_iff_ne, ne_eq, not_or, Bool.not_eq_false, Decidable.not_not, Bool.not_eq_true] at hm
      simp only [locked, Bool.and_eq_true, beq_iff_eq, decide_eq_true_eq] at hlost
      obtain ⟨hlo, hhi⟩ := h hm.1.1 hm.1.2 hm.2 hlost.1
      have := hlost.2
      unfold e at this
      omega

/-! ### A good flit -/

/-- A corrected block is counted. -/
def State.countFec (s : State) (p : Nat) (x : Arrival) : State := if fecCorrects x.errs then s.addFld (rPortErr p) 0 16 1 else s

/-- What a good flit does before its TYPE is looked at. -/
def State.heard (s : State) (p : Nat) (f : Flit) (x : Arrival) (hold : Bool) : State :=
  (((s.countFec p x).goodFlit p hold).nakOf p f).measure p f x

theorem State.rx_good (hu : s.portUp p = true) (hm : s.mode p = 1) (hf : fecOk x.errs = true) (hg : f.good = true) (q : Nat)
    (k : State → State) : s.rx p q f x hold k = k (s.heard p f x hold) := by
  unfold State.rx
  dsimp only
  rw [if_neg (by simp [hu, hm]), if_pos (by simp [hf, hg])]
  rfl

theorem State.rx_failed (hu : s.portUp p = true) (hm : s.mode p = 1) (h : fecOk x.errs = false ∨ (x.errs = [] ∧ f.good = false)) (q : Nat)
    (k : State → State) : s.rx p q f x hold k = s.failedFlit p q := by
  have hc : fecCorrects x.errs = false := by
    rcases h with h | ⟨h, -⟩
    · rw [fecCorrects, h, Bool.false_and]
    · rw [h]; decide
  have hb : (fecOk x.errs && f.good) = false := by
    rcases h with h | ⟨-, h⟩
    · rw [h, Bool.false_and]
    · rw [h, Bool.and_false]
  unfold State.rx
  dsimp only
  rw [if_neg (by simp [hu, hm]), hc, hb]
  rfl

theorem State.countFec_spec (w : s.Wf) (p : Nat) (x : Arrival) : OnRegs [rPortErr p] s (s.countFec p x)
    ∧ (s.countFec p x).fld (rPortErr p) 0 16 = min 65535 (s.fld (rPortErr p) 0 16 + b2n (fecCorrects x.errs)) := by
  have hlt : s.fld (rPortErr p) 0 16 < 2 ^ 16 := bitsOf_lt _ 0 16
  unfold State.countFec
  split
  · next h =>
    refine ⟨(OnRegs.refl w _).addFld (by simp), (State.fld_setFld_same w.regs (by decide) ..).trans ?_⟩
    rw [satAdd, h]
    exact Nat.mod_eq_of_lt (by omega)
  · next h =>
    refine ⟨.refl w _, ?_⟩
    rw [Bool.not_eq_true _ |>.mp h, b2n]
    simp only [Bool.false_eq_true, if_false]
    omega

/-- What a good flit without a NAK that shows no loss of lock has changed at the port. -/
structure Heard (p : Nat) (x : Arrival) (hold : Bool) (s t : State) : Prop where
  wired  : Wired [rPortStat p, rPortErr p, rPfSyncStat] s t
  outbox : t.outbox = s.outbox
  port   : t.port p = { s.port p with silence := 0 }
  others : ∀ o, o ≠ p → t.port o = s.port o
  fab    : measured t s.fab
  hold   : t.fld (rPortStat p) 10 1 = b2n hold
  stat   : ∀ lo n, lo + n ≤ 10 → t.fld (rPortStat p) lo n = s.fld (rPortStat p) lo n
  errs   : t.fld (rPortErr p) 0 16 = min 65535 (s.fld (rPortErr p) 0 16 + b2n (fecCorrects x.errs))
  sync   : ∀ lo n, lo + n ≤ 8 → t.fld rPfSyncStat lo n = s.fld rPfSyncStat lo n

/-- A register of the package below the ports', but for PF_SYNC_STAT. -/
theorem not_heardReg {r : Nat} (h : r < 0x8_0000) (h' : r ≠ rPfSyncStat) (p : Nat) : r ∉ [rPortStat p, rPortErr p, rPfSyncStat] := by
  have := not_portReg h p
  simp only [List.mem_cons, List.not_mem_nil, or_false, not_or] at this ⊢
  tauto

theorem rPortErr_ne_stat (p q : Nat) : rPortErr p ≠ rPortStat q := by unfold rPortErr rPortStat; omega
theorem rPortLink_not_heard (p : Nat) : rPortLink p ∉ [rPortStat p, rPortErr p, rPfSyncStat] := by
  simp only [rPortLink, rPortStat, rPortErr, rPfSyncStat, List.mem_cons, List.not_mem_nil, or_false]; omega
theorem rPortMode_not_heard (p o : Nat) : rPortMode o ∉ [rPortStat p, rPortErr p, rPfSyncStat] := by
  simp only [rPortMode, rPortStat, rPortErr, rPfSyncStat, List.mem_cons, List.not_mem_nil, or_false]; omega

/-- The port's side of a good flit, before the parent is measured. -/
theorem State.goodFlit_heard (w : s.Wf) (p : Nat) (x : Arrival) (hold : Bool) : Heard p x hold s ((s.countFec p x).goodFlit p hold)
    ∧ ((s.countFec p x).goodFlit p hold).fab = s.fab ∧ ((s.countFec p x).goodFlit p hold).reg rPfSyncStat = s.reg rPfSyncStat := by
  obtain ⟨hc, herr⟩ := State.countFec_spec w p x
  generalize s.countFec p x = c at *
  unfold State.goodFlit
  obtain ⟨y, hy⟩ : ∃ y, y = c.setPort p { c.port p with silence := 0 } := ⟨_, rfl⟩
  have hcs : Wired [rPortStat p, rPortErr p, rPfSyncStat] s c := hc.wired.mono (by simp)
  have hys : Wired [rPortStat p, rPortErr p, rPfSyncStat] s y := hy ▸ hcs.setPort ..
  have hframe := hc.only.1
  have hport : ∀ o, c.port o = s.port o := fun o => by rw [hframe]; rfl
  have hstat : ∀ lo n, y.fld (rPortStat p) lo n = s.fld (rPortStat p) lo n := fun lo n => by
    rw [hy]; exact hc.fld (by simp [(rPortErr_ne_stat p p).symm]) ..
  rw [← hy]
  refine ⟨⟨hys.setFld (by simp) .., ?_, ?_, fun o ho => ?_, ?_, ?_, fun lo n hn => ?_, ?_, fun lo n hn => ?_⟩, ?_, ?_⟩
  · show y.outbox = _
    rw [hy, hframe]; rfl
  · show y.port p = _
    rw [hy, hc.wf.port_setPort_same, hport]
  · show y.port o = _
    rw [hy, hc.wf.port_setPort_ne ho, hport]
  · show y.fab = _
    rw [hy, hframe]; rfl
  · refine (State.fld_setFld_same hys.wf.regs (by decide) ..).trans ?_
    cases hold <;> rfl
  · exact (State.fld_setFld_disjoint hys.wf.regs (by decide) (.inl hn) ..).trans (hstat ..)
  · refine (State.fld_setFld_ne hys.wf.regs (rPortErr_ne_stat p p) ..).trans ?_
    rw [hy]; exact herr
  · have h1 : rPfSyncStat ≠ rPortStat p := fun e => not_portReg (r := rPfSyncStat) (by decide) p (by simp [e])
    have h2 : rPfSyncStat ≠ rPortErr p := fun e => not_portReg (r := rPfSyncStat) (by decide) p (by simp [e])
    refine (State.fld_setFld_ne hys.wf.regs h1 ..).trans ?_
    rw [hy]; exact hc.fld (by simpa using h2) ..
  · show y.fab = _
    rw [hy, hframe]; rfl
  · have h1 : rPfSyncStat ≠ rPortStat p := fun e => not_portReg (r := rPfSyncStat) (by decide) p (by simp [e])
    have h2 : rPfSyncStat ≠ rPortErr p := fun e => not_portReg (r := rPfSyncStat) (by decide) p (by simp [e])
    refine (State.reg_setFld_ne hys.wf.regs h1 ..).trans ?_
    rw [hy]; exact hc.reg (by simpa using h2)

theorem State.nakOf_none (h : f.nakValid = false) : s.nakOf p f = s := by simp [State.nakOf, h]

theorem State.heard_spec (w : s.Wf) (hn : f.nakValid = false) (hk : s.keepsLock p f x) (hold : Bool) :
    Heard p x hold s (s.heard p f x hold) := by
  obtain ⟨h, hfab, hsync⟩ := State.goodFlit_heard w p x hold
  unfold State.heard
  rw [State.nakOf_none hn]
  generalize (s.countFec p x).goodFlit p hold = u at *
  have hk' : u.keepsLock p f x := (State.keepsLock_eq (h.wired.regs _ (not_heardReg (by decide) (by decide) p)) hsync
    (h.wired.regs _ (rPortLink_not_heard p)) hfab).2 hk
  have m := State.measure_keeps h.wired.wf hk'
  have hfld : ∀ r, r ≠ rPfSyncStat → ∀ lo n, (u.measure p f x).fld r lo n = u.fld r lo n := fun r hr => m.wired.fld (by simpa using hr)
  have hport : (u.measure p f x).port = u.port := by rw [m.wired.frame, m.ports]; rfl
  have hs : rPortStat p ≠ rPfSyncStat := fun e => not_portReg (r := rPfSyncStat) (by decide) p (by simp [← e])
  have he : rPortErr p ≠ rPfSyncStat := fun e => not_portReg (r := rPfSyncStat) (by decide) p (by simp [← e])
  exact ⟨h.wired.trans (m.wired.mono (by simp)), m.outbox.trans h.outbox, by rw [hport, h.port], fun o ho => by rw [hport, h.others o ho],
    hfab ▸ m.fab, (hfld _ hs ..).trans h.hold, fun lo n hn => (hfld _ hs ..).trans (h.stat lo n hn), (hfld _ he ..).trans h.errs,
    fun lo n hn => (m.sync lo n hn).trans (h.sync lo n hn)⟩

/-! ### What a good flit leaves as it was -/

/-- The slot tables are the job's and the step's. -/
theorem State.tableAt_eq (hj : t.job = s.job) (hs : t.stp = s.stp) (p : Nat) (recv : Bool) (q : Nat) : t.tableAt p recv q = s.tableAt p recv q := by
  have hruns : t.runs = s.runs := by rw [State.runs, hj]; rfl
  have hframe : t.frameOf q = s.frameOf q := by rw [State.frameOf, hj, hs]; rfl
  rw [State.tableAt, hruns, hframe]
  rfl

namespace Heard

variable (h : Heard p x hold s t)
include h

theorem fld_low {r : Nat} (hr : r < 0x8_0000) (hr' : r ≠ rPfSyncStat) (lo n : Nat) : t.fld r lo n = s.fld r lo n :=
  h.wired.fld (not_heardReg hr hr' p) ..

theorem running : t.running = s.running := h.wired.running (not_heardReg (by decide) (by decide) p)
theorem issuing : t.issuing = s.issuing := h.wired.issuing (not_heardReg (by decide) (by decide) p)
theorem bu : t.bu = s.bu := h.wired.bu (not_heardReg (by decide) (by decide) p)
theorem now : t.now = s.now := h.wired.now (not_heardReg (by decide) (by decide) p)
theorem beat : t.beat = s.beat := h.wired.beat (not_heardReg (by decide) (by decide) p)
theorem armed : t.armed = s.armed := h.wired.armed (not_heardReg (by decide) (by decide) p)
theorem herdIndex : t.herdIndex = s.herdIndex := h.wired.herdIndex (not_heardReg (by decide) (by decide) p)
theorem lambda : t.lambda p = s.lambda p := h.wired.lambda (rPortLink_not_heard p)
theorem mode (o : Nat) : t.mode o = s.mode o := h.wired.mode (rPortMode_not_heard p o)

theorem portState (o : Nat) : t.portState o = s.portState o := by
  by_cases ho : o = p
  · exact ho ▸ h.stat 0 3 (by decide)
  · refine h.wired.fld ?_ ..
    simp only [rPortStat, rPortErr, rPfSyncStat, List.mem_cons, List.not_mem_nil, or_false]
    omega

theorem fabricUp : t.fabricUp = s.fabricUp := by
  refine List.filter_congr fun o _ => ?_
  rw [State.portUp, State.portUp, h.portState, h.mode]

theorem table : t.fab.table = s.fab.table := by rw [h.fab]

theorem stretchTable : t.stretchTable = s.stretchTable := by rw [State.stretchTable, State.stretchTable, h.fab]

theorem packOf (q : Nat) : t.packOf q = s.packOf q := State.packOf_eq h.beat (by rw [h.fab]) h.stretchTable h.wired.stp q

theorem tableAt (recv : Bool) (q : Nat) : t.tableAt p recv q = s.tableAt p recv q := State.tableAt_eq h.wired.job h.wired.stp ..

theorem failedRx : (t.port p).failedRx = (s.port p).failedRx := by rw [h.port]

theorem expects : t.expects p = s.expects p := by simp only [State.expects, h.failedRx, h.lambda]

theorem ownHalts (hp : p < 18) : t.ownHalts = s.ownHalts :=
  h.wired.ownHalts (by simp [rPortStat, rPortErr, rPfSyncStat, coreBase]; omega)

theorem cstate (hp : p < 18) (n : Nat) : t.cstate n = s.cstate n := by
  refine State.cstate_of_regs (h.wired.regs _ ?_)
  simp only [rCore, coreBase, rPortStat, rPortErr, rPfSyncStat, List.mem_cons, List.not_mem_nil, or_false]
  omega

end Heard

/-! ### A slot where nothing is due -/

theorem sortKeys_nil {α : Type} : sortKeys ([] : List (Nat × α)) = [] := rfl

theorem State.expects_nil (h : (s.port p).failedRx = []) : s.expects p = [] := by simp [State.expects, h, sortKeys_nil]

/-- A good flit that is not DATA does no more where none is due. -/
theorem State.otherFlit_of_free (h : s.issuing = true → (s.port p).failedRx = [] ∧ s.tableAt p true q = none) : s.otherFlit p q f = s := by
  unfold State.otherFlit
  split
  · rfl
  · next hi =>
    obtain ⟨hr, ht⟩ := h (by simpa using hi)
    rw [State.expects_nil hr]
    simp [State.noData, ht]

theorem Heard.otherFlit_free (h : Heard p x hold s t) (hs : s.issuing = true → (s.port p).failedRx = [] ∧ s.tableAt p true q = none) :
    t.otherFlit p q f = t :=
  State.otherFlit_of_free fun hi => by
    rw [h.failedRx, h.tableAt]
    exact hs (h.issuing ▸ hi)

/-- The first fault in RUN, with no halt waiting, is the one that is raised. -/
theorem State.raise_first (w : s.Wf) (hr : s.running = true) (hf : s.fld rPfFault 16 1 = 0) (hh : s.ownHalts = []) {reason : Nat}
    (hx : reason < 2 ^ 16) (unit index : Nat) : (s.raise reason unit index).bu = 7 ∧ (s.raise reason unit index).fld rPfFault 0 16 = reason
      ∧ (s.raise reason unit index).mem = s.mem := by
  obtain ⟨hb, hreg, -⟩ := State.raise_run w hr hf hh hx unit index
  refine ⟨hb, ?_, (s.raise_quiet ..).mem⟩
  rw [State.fld, hreg, bitsOf]
  omega

theorem State.running_of_issuing (h : s.issuing = true) : s.running = true := (Bool.and_eq_true_iff.1 h).1

/-- The same of a good flit's port. -/
theorem Heard.raise_first (h : Heard p x hold s t) (hp : p < 18) (hr : s.running = true) (hf : s.fld rPfFault 16 1 = 0) (hh : s.ownHalts = [])
    {reason : Nat} (hx : reason < 2 ^ 16) (unit index : Nat) : (t.raise reason unit index).bu = 7
      ∧ (t.raise reason unit index).fld rPfFault 0 16 = reason ∧ (t.raise reason unit index).mem = s.mem := by
  obtain ⟨h1, h2, h3⟩ := State.raise_first h.wired.wf (h.running.trans hr) ((h.fld_low (by decide) (by decide) ..).trans hf) ((h.ownHalts hp).trans hh)
    hx unit index
  exact ⟨h1, h2, h3.trans h.wired.mem⟩

end Sys2Proof.Machine
end

section
/-! SUPPORT. Stretch requests and announcements (R267, R268, R270, R410). -/

namespace Sys2Proof.Machine
open Sys2Proof

-- Proofs elaborated in threads of their own would pass the check's limit of memory.
set_option Elab.async false

variable {s t u : State} {p q be sv : Nat} {f : Flit} {x : Arrival} {hold : Bool}

/-! ### An announcement enters the table -/

/-- From `s` to `t` the announcement of `sv` slots from beat `be` on has entered the table. -/
structure Entered (be sv : Nat) (s t : State) : Prop where
  wired  : Wired [rPfStretchStat, rPfStretchNext] s t
  outbox : t.outbox = s.outbox
  fab    : t.fab = { s.fab with table := s.fab.table ++ [(be, sv)] }
  count  : t.fld rPfStretchStat 0 3 = (s.fab.table.length + 1) % 8
  annUp  : ∀ o ∈ s.fabricUp, (t.port o).annOut = (s.port o).annOut ++ [.stretch be sv]
  annNot : ∀ o, o ∉ s.fabricUp → (t.port o).annOut = (s.port o).annOut

/-- Showing the table writes the number of its entries. -/
theorem State.showStretch_count (w : s.Wf) : s.showStretch.fld rPfStretchStat 0 3 = s.fab.table.length % 8 := by
  have h := State.fld_setFld_same w.regs (lo := 0) (w := 3) (by decide) rPfStretchStat s.fab.table.length
  have w1 : (s.setFld rPfStretchStat 0 3 s.fab.table.length).Wf := (Quiet.setFld s _ 0 3 _).wf w
  unfold State.showStretch
  extract_lets tbl y ahead
  clear_value ahead
  cases ahead with
  | nil => exact (congrArg (bitsOf · 0 3) (State.reg_setReg_ne w1.regs (by decide) _)).trans h
  | cons => exact (congrArg (bitsOf · 0 3) (State.reg_setReg_ne w1.regs (by decide) _)).trans h

theorem State.queueAnn_own (w : s.Wf) (p : Nat) (a : Announce) : ((s.queueAnn p a).port p).annOut = (s.port p).annOut ++ [a] :=
  congrArg PortSt.annOut (w.port_setPort_same p _)

theorem State.enterAnn_spec (w : s.Wf) (be sv : Nat) : Entered be sv s (s.enterAnn be sv) := by
  unfold State.enterAnn
  extract_lets g y
  have hy : Wired [] s y := (Wired.refl w _).setFab _
  obtain ⟨z, hz⟩ : ∃ z, z = y.fabricUp.foldl (fun s p => s.queueAnn p (.stretch be sv)) y := ⟨_, rfl⟩
  have hzw : Wired [] y z := hz ▸ (Wired.refl hy.wf _).foldl fun p _ h => h.setPort ..
  have hzout : z.outbox = s.outbox := hz ▸ foldl_keep State.outbox (f := fun s p => s.queueAnn p (.stretch be sv)) (fun _ _ => rfl) _ y
  have hzfab : z.fab = y.fab := hz ▸ foldl_keep State.fab (f := fun s p => s.queueAnn p (.stretch be sv)) (fun _ _ => rfl) _ y
  obtain ⟨hout, hin⟩ := foldl_ports (P := fun v x => x.annOut = v.annOut ++ [.stretch be sv]) (f := fun s p => s.queueAnn p (.stretch be sv))
    (fun s p w => ⟨((Wired.refl w []).setPort ..).wf, fun q hq => w.port_setPort_ne hq _, State.queueAnn_own w p _⟩)
    y.fabricUp_nodup hy.wf
  rw [← hz] at hout hin ⊢
  have hshow := State.showStretch_regs hzw.wf
  have hport : z.showStretch.port = z.port := by rw [hshow.only.1]; rfl
  refine ⟨(hy.trans hzw).mono (List.nil_subset _) |>.trans hshow.wired, by rw [hshow.only.1]; exact hzout,
    by rw [hshow.only.1]; exact hzfab, ?_, fun o ho => ?_, fun o ho => ?_⟩
  · rw [State.showStretch_count hzw.wf, hzfab]
    exact congrArg (· % 8) (List.length_append ..)
  · rw [hport]; exact hin o ho
  · rw [hport, hout o ho]; rfl

theorem Entered.frame (h : Entered be sv s t) : t = { s with regs := t.regs, ports := t.ports, fab := t.fab } := by
  rw [h.wired.frame, h.outbox]

theorem Entered.shown (h : Entered be sv s t) (hl : s.fab.table.length < 4) : t.fld rPfStretchStat 0 3 = s.fab.table.length + 1 := by
  rw [h.count]; omega

/-! ### Requests -/

theorem exec_pfStretchReq (hd : s.dark = false) (v : W64) :
    exec (.pfStretchReq v) s = .next (s.stretchReq (bitsOf v.toNat 0 48) (bitsOf v.toNat 48 12)) :=
  whenLive_of_live hd fun s => s.stretchReq (bitsOf v.toNat 0 48) (bitsOf v.toNat 48 12)

theorem State.stretchReq_enters (hb : s.beat + 2048 ≤ be) (hl : s.fab.table.length < 4) (hs : sv ≤ 3840)
    (hc : s.fab.table.contains (be, sv) = false) : s.stretchReq be sv = s.enterAnn be sv := by
  rw [State.stretchReq, if_neg (by omega), hc]
  exact if_neg (by decide)

theorem State.stretchReq_held (hb : s.beat + 2048 ≤ be) (hl : s.fab.table.length < 4) (hs : sv ≤ 3840)
    (hc : s.fab.table.contains (be, sv) = true) : s.stretchReq be sv = s := by
  rw [State.stretchReq, if_neg (by omega), if_pos hc]

theorem State.stretchReq_refused (h : be < s.beat + 2048 ∨ 4 ≤ s.fab.table.length ∨ 3840 < sv) :
    s.stretchReq be sv = s.setFld rPfStretchStat 3 1 1 := if_pos h

/-- The automatic evaluation requests the advice (R410). -/
theorem State.autoEval_requests (w : s.Wf) (h0 : s.fld rPwrStretch 0 1 = 1) (hr : s.running = true) (hb : (s.beat + 2560) % 4096 = 0)
    (hs : s.pwr.autoSent.contains (s.beat + 2560) = false) (h1 : 0 < s.fld rPwrStretch 16 12) (h2 : s.fld rPwrStretch 16 12 ≤ 3840)
    (hl : s.fab.table.length < 4) (hc : s.fab.table.contains (s.beat + 2560, s.fld rPwrStretch 16 12) = false) :
    s.autoEval.fab.table = s.fab.table ++ [(s.beat + 2560, s.fld rPwrStretch 16 12)] := by
  obtain ⟨y, hy⟩ : ∃ y, y = { s with pwr := { s.pwr with autoSent := (s.beat + 2560) :: s.pwr.autoSent.filter (fun b => s.beat < b) } } :=
    ⟨_, rfl⟩
  have e : s.autoEval = y.stretchReq (s.beat + 2560) (s.fld rPwrStretch 16 12) := by
    unfold State.autoEval
    dsimp only
    rw [if_pos ⟨h0, hr, hb, by rw [hs]; rfl⟩, if_pos (.inl h1), hy]
  have hbeat : y.beat = s.beat := by rw [hy]; rfl
  have hfab : y.fab = s.fab := by rw [hy]
  have wy : y.Wf := hy ▸ { w with }
  rw [e, State.stretchReq_enters (by omega) (by rw [hfab]; exact hl) h2 (by rw [hfab]; exact hc), (State.enterAnn_spec wy ..).fab, hfab]

/-! ### Announcements -/

theorem exec_announceFlitReceive (hd : s.dark = false) (hu : s.portUp p = true) (hm : s.mode p = 1) (hf : fecOk x.errs = true)
    (hg : f.good = true) (q : Nat) (a : Announce) :
    exec (.announceFlitReceive p ⟨⟨q, ⟨f, x⟩⟩, a⟩) s = .next (((s.heard p f x false).otherFlit p q f).announced p a) :=
  (whenLive_of_live hd fun s => s.rx p q f x false (fun s => (s.otherFlit p q f).announced p a)).trans
    (by rw [State.rx_good hu hm hf hg])

section
variable (h : Heard p x hold s t)
include h

theorem Heard.frame : t = { s with regs := t.regs, ports := t.ports, fab := t.fab } := by rw [h.wired.frame, h.outbox]

/-- An announcement that is held changes nothing but the port. -/
theorem Heard.stretch_held (hc : s.fab.table.contains (be, sv) = true) : t.stretchArrives p be sv = t := if_pos (by rw [h.table]; exact hc)

/-- A new announcement in time enters the table and is sent on. -/
theorem Heard.stretch_enters (hc : s.fab.table.contains (be, sv) = false) (hb : s.beat + 64 ≤ be) (hl : s.fab.table.length < 4) :
    Entered be sv t (t.stretchArrives p be sv) := by
  have e : t.stretchArrives p be sv = t.enterAnn be sv := by
    rw [State.stretchArrives, h.table, hc, h.beat, if_neg (by decide), if_neg (by omega)]
  exact e ▸ State.enterAnn_spec h.wired.wf ..

theorem Heard.stretch_late (hc : s.fab.table.contains (be, sv) = false) (hb : be < s.beat + 64 ∨ 4 ≤ s.fab.table.length) :
    t.stretchArrives p be sv = if s.running then t.raise cStretchConflict 1 p else t.setFld rPfStretchStat 3 1 1 := by
  rw [State.stretchArrives, h.table, hc, h.beat, if_neg (by decide), if_pos hb, h.running]

/-- Only the silence of the port has changed. -/
theorem Heard.annOut (o : Nat) : (t.port o).annOut = (s.port o).annOut := by
  by_cases ho : o = p
  · rw [ho, h.port]
  · rw [h.others o ho]

end

/-- A package that stops as origin changes of the fabric only that it has stopped. -/
theorem State.stopAsOrigin_fab (s : State) (reason time : Nat) : ∃ a, (s.stopAsOrigin reason time).fab
    = { s.fab with stopOut := true, issueStopped := true, haltedAt := a } := by
  unfold State.stopAsOrigin
  extract_lets r y g z
  have hy : y.fab = r.fab := by
    have h : PortsOnly r y := r.sendStop_portsOnly ..
    rw [h]
  have hr : r.fab = s.fab := s.recordStop_fab ..
  have hg : g = s.fab := hy.trans hr
  refine ⟨some y.now, ?_⟩
  rw [State.enterHalted_fab, State.stopCores_fab]
  show { g with stopOut := true, issueStopped := true, haltedAt := some y.now } = _
  rw [hg]

theorem State.raise_fab (hr : s.running = true) (reason unit index : Nat) : ∃ a, (s.raise reason unit index).fab
    = { s.fab with stopOut := true, issueStopped := true, haltedAt := a } := by
  have hbu : ¬ s.bu < stLoad := by
    have h6 : s.bu = 6 := by simpa [State.running, stRun] using hr
    rw [h6]; decide
  have hnote : (s.noteHalts.noteFault reason unit index s.now).fab = s.fab :=
    (State.noteFault_fab ..).trans (foldl_keep State.fab (fun s _ => s.noteFault_fab ..) _ s)
  rw [State.raise, if_neg hbu, if_pos hr, ← hnote]
  exact State.stopAsOrigin_fab ..

/-- Settles O42: requests at the table, announcements after the port has heard them. -/
theorem stretchAnnouncements : Obligations.StretchAnnouncements := by
  intro v s w hd be sv entered
  simp only [exec_pfStretchReq hd]
  refine ⟨fun hb hl hs => ⟨fun hc => ?_, fun hc => ?_⟩, fun h => ?_, fun p q f x hp hu hm hg hf hn hk hfree => ?_,
    fun h0 hr hb hs h1 h2 hl hc => ⟨_, whenLive_of_live hd _, State.autoEval_requests w h0 hr hb hs h1 h2 hl hc⟩⟩
  · have h := State.enterAnn_spec w be sv
    refine ⟨_, by rw [State.stretchReq_enters hb hl hs hc], ⟨by rw [measured, h.fab], h.outbox, h.shown hl, h.wired.mem, h.wired.cores, h.annUp, h.annNot⟩, h.frame,
      fun r h1 h2 => h.wired.regs r (by simp [h1, h2])⟩
  · rw [State.stretchReq_held hb hl hs hc]
  · rw [State.stretchReq_refused h]
    exact ⟨_, rfl, ((OnRegs.refl w _).setFld).only, State.fld_setFld_same w.regs (by decide) ..⟩
  · have h := State.heard_spec w hn hk false
    obtain ⟨t, ht⟩ : ∃ t, t = s.heard p f x false := ⟨_, rfl⟩
    have e : exec (.announceFlitReceive p ⟨⟨q, ⟨f, x⟩⟩, .stretch be sv⟩) s = .next (t.stretchArrives p be sv) := by
      rw [exec_announceFlitReceive hd hu hm hf hg, h.otherFlit_free hfree, ht]
      rfl
    rw [← ht] at h
    simp only [e]
    refine ⟨fun hc => ⟨fun hb hl => ?_, fun hb => ⟨fun hr h0 hh => ?_, fun hr => ?_⟩⟩, fun hc => ?_⟩
    · have k := h.stretch_enters hc hb hl
      refine ⟨_, rfl, ?_, k.outbox.trans h.outbox, ?_, k.wired.mem.trans h.wired.mem, k.wired.cores.trans h.wired.cores, fun o ho => ?_,
        fun o ho => ?_⟩
      · rw [measured, k.fab, h.fab]
      · rw [k.shown (by rw [h.table]; exact hl), h.table]
      · rw [k.annUp o (h.fabricUp ▸ ho), h.annOut]
      · rw [k.annNot o (h.fabricUp ▸ ho), h.annOut]
    · rw [h.stretch_late hc hb, if_pos hr]
      obtain ⟨h1, h2, -⟩ := h.raise_first hp hr h0 hh (reason := cStretchConflict) (by decide) 1 p
      obtain ⟨a, hfab⟩ := State.raise_fab (h.running.trans hr) cStretchConflict 1 p
      exact ⟨_, rfl, h1, h2, by rw [hfab]; exact h.table⟩
    · rw [h.stretch_late hc hb, if_neg (by simp [hr])]
      have hset : Wired [rPortStat p, rPortErr p, rPfSyncStat, rPfStretchStat] s (t.setFld rPfStretchStat 3 1 1) :=
        (h.wired.mono (by simp)).setFld (by simp) ..
      refine ⟨_, rfl, State.fld_setFld_same h.wired.wf.regs (by decide) .., h.fab, ?_, hset.regs⟩
      rw [hset.frame, show (t.setFld rPfStretchStat 3 1 1).outbox = s.outbox from h.outbox]
    · rw [h.stretch_held hc]
      exact ⟨t, rfl, ⟨by rw [h.frame], h.wired.regs⟩, h.fab, h.annOut⟩

end Sys2Proof.Machine
end

section
/-! SUPPORT. Received DATA, failed, IDLE and IDLE_HOLD flits (R244, R252, R255 to R257, R272). -/

namespace Sys2Proof.Machine
open Sys2Proof

-- Proofs elaborated in threads of their own would pass the check's limit of memory.
set_option Elab.async false

variable {s t u : State} {p q q₀ seq : Nat} {f : Flit} {x : Arrival} {hold : Bool} {r : Run} {c : Stream}

/-! ### What the commands do once the port has heard a good flit -/

theorem exec_dataFlitReceive (hd : s.dark = false) (p q : Nat) (f : Flit) (x : Arrival) : exec (.dataFlitReceive p q ⟨f, x⟩) s
    = .next (s.rx p q f x false (fun s => if f.type = 1 then s.dataArrives p q f else s.otherFlit p q f)) :=
  whenLive_of_live hd fun s => s.rx p q f x false (fun s => if f.type = 1 then s.dataArrives p q f else s.otherFlit p q f)

theorem exec_idleFlitReceive (hd : s.dark = false) (p q : Nat) (f : Flit) (x : Arrival) :
    exec (.idleFlitReceive p q ⟨f, x⟩) s = .next (s.rx p q f x false (fun s => s.otherFlit p q f)) :=
  whenLive_of_live hd fun s => s.rx p q f x false (fun s => s.otherFlit p q f)

theorem exec_idleHoldReceive (hd : s.dark = false) (p q : Nat) (f : Flit) (x : Arrival) :
    exec (.idleHoldReceive p ⟨q, ⟨f, x⟩⟩) s = .next (s.rx p q f x true (fun s => s.otherFlit p q f)) :=
  whenLive_of_live hd fun s => s.rx p q f x true (fun s => s.otherFlit p q f)

theorem exec_failedFlitReceive (hd : s.dark = false) (hu : s.portUp p = true) (q : Nat) :
    exec (.failedFlitReceive p q) s = .next (s.failedFlit p q) :=
  (whenLive_of_live hd fun s => if s.portUp p then s.failedFlit p q else s).trans (by rw [if_pos hu])

/-- The port's registers after a good flit, where no more than ports and the fabric has changed since. -/
theorem Heard.arrived (h : Heard p x hold s t) (hu : u = { t with ports := u.ports, fab := u.fab }) (ho : ∀ o, o ≠ p → u.port o = t.port o) :
    u = { s with regs := u.regs, ports := u.ports, fab := u.fab } ∧ (∀ r, r ∉ [rPortStat p, rPortErr p, rPfSyncStat] → u.reg r = s.reg r)
      ∧ u.fld (rPortStat p) 10 1 = b2n hold
      ∧ u.fld (rPortErr p) 0 16 = min 65535 (s.fld (rPortErr p) 0 16 + b2n (fecCorrects x.errs))
      ∧ (∀ o, o ≠ p → u.port o = s.port o) := by
  have hreg : u.reg = t.reg := by rw [hu]; rfl
  have hfld : u.fld = t.fld := by rw [hu]; rfl
  rw [hreg, hfld]
  exact ⟨by rw [hu, h.frame], h.wired.regs, h.hold, h.errs, fun o hne => (ho o hne).trans (h.others o hne)⟩

/-! ### DATA -/

/-- A DATA flit whose stamp is its slot's pack time is held until its delivery slot. -/
theorem State.holdData_held (ht : s.tableAt p true q = some (r, seq)) (hs : f.sendStamp % 2 ^ 24 = s.packOf q % 2 ^ 24)
    (hc : s.stream? (r.ctx % 0x8000) = some c) (hok : s.collectiveOk c f.payload = true) : s.holdData p q f
    = { s with fab := { s.fab with held := s.fab.held ++ [s.heldFor c (r.ctx % 0x8000) p q f seq] } } := by
  unfold State.holdData
  simp only [ht, if_neg (not_not.2 hs), hc, hok, if_true]

/-- A wrong stamp is PACKTIME_SKEW (R256). -/
theorem State.holdData_skewed (ht : s.tableAt p true q = some (r, seq)) (hs : f.sendStamp % 2 ^ 24 ≠ s.packOf q % 2 ^ 24) :
    s.holdData p q f = s.raise cPacktimeSkew 1 p := by
  unfold State.holdData
  simp only [ht, if_pos hs]

theorem State.dataArrives_new (hi : s.issuing = true) (he : (s.expects p).find? (fun e => e.1 == q) = none) :
    s.dataArrives p q f = s.holdData p q f := by
  unfold State.dataArrives
  simp only [hi, he, Bool.not_true, Bool.false_eq_true, if_false]

theorem State.dataArrives_again (hi : s.issuing = true) (he : (s.expects p).find? (fun e => e.1 == q) = some (q, q₀)) (hr : f.resend = true)
    (hs : f.sendStamp % 2 ^ 24 = s.packOf q₀ % 2 ^ 24) : s.dataArrives p q f = (s.rxDone p q₀).holdData p q₀ f := by
  unfold State.dataArrives
  simp only [hi, he, hr, hs, Bool.not_true, Bool.false_eq_true, if_false, beq_self_eq_true, Bool.and_self, if_true]

section
variable (h : Heard p x hold s t)
include h

theorem Heard.collectiveOk (c : Stream) (b : List Byte) : t.collectiveOk c b = s.collectiveOk c b := by
  rw [State.collectiveOk, h.wired.job]; rfl

theorem Heard.heldFor (c : Stream) (ctx q : Nat) (f : Flit) (seq : Nat) : t.heldFor c ctx p q f seq = s.heldFor c ctx p q f seq := by
  rw [State.heldFor, h.herdIndex]; rfl

theorem Heard.holds (hc : s.stream? (r.ctx % 0x8000) = some c) (hok : s.collectiveOk c f.payload = true) (ht : s.tableAt p true q = some (r, seq))
    (hs : f.sendStamp % 2 ^ 24 = s.packOf q % 2 ^ 24) : t.holdData p q f
    = { t with fab := { t.fab with held := t.fab.held ++ [s.heldFor c (r.ctx % 0x8000) p q f seq] } } := by
  rw [State.holdData_held ((h.tableAt ..).trans ht) (by rw [h.packOf]; exact hs) ((h.wired.stream? _).trans hc) ((h.collectiveOk ..).trans hok),
    h.heldFor]

end

/-- What is done with a failed flit's re-send changes the port alone. -/
theorem State.rxDone_port (w : s.Wf) (p q : Nat) : (s.rxDone p q).port p
    = { s.port p with failedRx := (s.port p).failedRx.map (fun e => if e.1 = q then (q, true) else e) } := w.port_setPort_same ..

/-- The re-send that stands for a failed flit is held in that flit's place (R259). -/
theorem Heard.holds_again (h : Heard p x hold s t) (hc : s.stream? (r.ctx % 0x8000) = some c) (hok : s.collectiveOk c f.payload = true)
    (ht : s.tableAt p true q₀ = some (r, seq)) (hs : f.sendStamp % 2 ^ 24 = s.packOf q₀ % 2 ^ 24) : (t.rxDone p q₀).holdData p q₀ f
      = { t.rxDone p q₀ with fab := { t.fab with held := t.fab.held ++ [s.heldFor c (r.ctx % 0x8000) p q₀ f seq] } } := by
  have e := State.holdData_held (s := t.rxDone p q₀) (f := f) ((h.tableAt ..).trans ht) (by rw [← h.packOf] at hs; exact hs)
    ((h.wired.stream? _).trans hc) ((h.collectiveOk ..).trans hok)
  rw [e, show (t.rxDone p q₀).heldFor c (r.ctx % 0x8000) p q₀ f seq = t.heldFor c (r.ctx % 0x8000) p q₀ f seq from rfl, h.heldFor]
  rfl

/-! ### A failed flit -/

theorem spareList_one (lam q : Nat) : spareList lam [q] = [some (spareFrom (q + 2 * lam + 3))] := by
  simp [spareList, assignSpare]

/-- A failed flit is counted, NAKed twice, and its re-send awaited (R244, R257, R258). -/
theorem State.failedFlit_spec (w : s.Wf) (hm : s.mode p = 1) (hi : s.issuing = true) (hr : (s.port p).failedRx = []) (q : Nat) :
    regsOnly { s with ports := (s.failedFlit p q).ports } (s.failedFlit p q) [rPortErr p]
      ∧ (s.failedFlit p q).fld (rPortErr p) 32 16 = min (2 ^ 16 - 1) (s.fld (rPortErr p) 32 16 + 1)
      ∧ ((s.failedFlit p q).port p).naks = (s.port p).naks ++ [(s.packOf q + s.lambda p + 1, s.packOf q % 2 ^ 12),
          (s.packOf q + s.lambda p + 2, s.packOf q % 2 ^ 12)]
      ∧ (s.failedFlit p q).expects p = [(spareFrom (q + 2 * s.lambda p + 3), q)] := by
  obtain ⟨y, hy⟩ : ∃ y, y = s.addFld (rPortErr p) 32 16 1 := ⟨_, rfl⟩
  have ho : OnRegs [rPortErr p] s y := hy ▸ (OnRegs.refl w _).addFld (by simp)
  have hframe := ho.only.1
  have hport : y.port p = s.port p := by rw [hframe]; rfl
  have hlow : ∀ {r}, r < 0x8_0000 → r ∉ [rPortErr p] := fun hr e => not_portReg hr p (by rw [List.mem_singleton.1 e]; simp)
  have hm' : y.mode p = 1 := (ho.fld (fun e => rPortMode_not_heard p p (by rw [List.mem_singleton.1 e]; simp)) ..).trans hm
  have hl' : y.lambda p = s.lambda p := ho.fld (fun e => rPortLink_not_heard p (by rw [List.mem_singleton.1 e]; simp)) ..
  have hi' : y.issuing = true := (ho.wired.issuing (hlow (by decide))).trans hi
  have hpk : y.packOf q = s.packOf q := State.packOf_eq (ho.wired.beat (hlow (by decide))) (by rw [hframe]) (by rw [hframe]; rfl) (by rw [hframe]) q
  obtain ⟨z, hz⟩ : ∃ z, z = y.setPort p { y.port p with
      naks := (y.port p).naks ++ [(s.packOf q + s.lambda p + 1, s.packOf q % 2 ^ 12), (s.packOf q + s.lambda p + 2, s.packOf q % 2 ^ 12)] } := ⟨_, rfl⟩
  have wz : z.Wf := hz ▸ (Quiet.setPort noReg y p _).wf ho.wf
  have hzp := hz ▸ ho.wf.port_setPort_same p { y.port p with
      naks := (y.port p).naks ++ [(s.packOf q + s.lambda p + 1, s.packOf q % 2 ^ 12), (s.packOf q + s.lambda p + 2, s.packOf q % 2 ^ 12)] }
  have hzr : (z.port p).failedRx = [] := by rw [hzp, hport]; exact hr
  have hzi : z.issuing = true := by rw [hz]; exact hi'
  have e : s.failedFlit p q = z.setPort p { z.port p with failedRx := [(q, false)] } := by
    unfold State.failedFlit
    dsimp only
    rw [← hy, if_neg (by omega), hpk, hl', ← hz, if_neg (by simp [hzi]), State.expects_nil hzr]
    simp only [List.find?_nil, State.expectResend, hzr, List.any_nil, Bool.false_eq_true, if_false, List.filter_nil, insKey]
  have hregs : (z.setPort p { z.port p with failedRx := [(q, false)] }).reg = y.reg := by rw [hz]; rfl
  have hlam : (z.setPort p { z.port p with failedRx := [(q, false)] }).lambda p = s.lambda p := by rw [← hl', hz]; rfl
  have herr : y.fld (rPortErr p) 32 16 = min (2 ^ 16 - 1) (s.fld (rPortErr p) 32 16 + 1) := by
    rw [hy, State.addFld, State.fld_setFld_same w.regs (by decide), satAdd]
    omega
  rw [e]
  refine ⟨⟨?_, fun r hr => ?_⟩, ?_, ?_, ?_⟩
  · rw [hz, hframe]; rfl
  · rw [hregs]; exact ho.reg hr
  · rw [State.fld, hregs]; exact herr
  · rw [wz.port_setPort_same, hzp, hport]
  · rw [State.expects, hlam, wz.port_setPort_same]
    simp [spareList_one, sortKeys, insKey]

/-! ### A good flit without DATA where DATA is due -/

theorem State.otherFlit_missed (hi : s.issuing = true) (hr : (s.port p).failedRx = []) (ht : (s.tableAt p true q).isSome = true)
    (ha : s.armed = false) : s.otherFlit p q f = s.raise cSlotMissed 1 p := by
  unfold State.otherFlit
  rw [State.expects_nil hr]
  simp [hi, State.noData, ht, State.slotMissed, ha]

/-- Settles O38: the port hears a good flit, and then its TYPE decides. -/
theorem receivedFlits : Obligations.ReceivedFlits := by
  intro p q f x s w hd hp hu hm good arrived
  simp only [exec_dataFlitReceive hd, exec_idleFlitReceive hd, exec_idleHoldReceive hd, exec_failedFlitReceive hd hu]
  refine ⟨fun hgood htype hi r seq c hc hok => ?_, fun h => ?_, fun hi hr => ⟨_, rfl, State.failedFlit_spec w hm hi hr q⟩, fun hgood hr => ?_⟩
  · obtain ⟨hg, hf, hn, hk⟩ := hgood
    have h := State.heard_spec w hn hk false
    rw [State.rx_good hu hm hf hg, if_pos htype]
    generalize s.heard p f x false = t at h
    have hti := h.issuing.trans hi
    refine ⟨fun he ht => ⟨fun hs => ?_, fun hs h0 hh => ?_⟩, fun q₀ he ht hre hs => ?_⟩
    · rw [State.dataArrives_new hti (by rw [h.expects, he]), h.holds hc hok ht hs]
      refine ⟨_, rfl, h.arrived rfl fun _ _ => rfl, ?_, h.port⟩
      rw [measured, h.fab]
    · rw [State.dataArrives_new hti (by rw [h.expects, he]), State.holdData_skewed ((h.tableAt ..).trans ht) (by rw [h.packOf]; exact hs)]
      exact ⟨_, rfl, h.raise_first hp (State.running_of_issuing hi) h0 hh (by decide) ..⟩
    · rw [State.dataArrives_again hti (by rw [h.expects, he]) hre (by rw [h.packOf]; exact hs), h.holds_again hc hok ht hs]
      refine ⟨_, rfl, h.arrived rfl fun o ho => h.wired.wf.port_setPort_ne ho _, ?_, ?_⟩
      · rw [measured, h.fab]
      · rw [← h.failedRx]
        exact congrArg PortSt.failedRx (State.rxDone_port h.wired.wf p q₀)
  · simp only [State.rx_failed hu hm h, and_self]
  · obtain ⟨hg, hf, hn, hk⟩ := hgood
    have h0 := State.heard_spec w hn hk false
    have h1 := State.heard_spec w hn hk true
    rw [State.rx_good hu hm hf hg, State.rx_good hu hm hf hg]
    refine ⟨fun ht => ?_, fun ht hi ha hz hh => ?_⟩
    · rw [h0.otherFlit_free fun _ => ⟨hr, ht⟩, h1.otherFlit_free fun _ => ⟨hr, ht⟩]
      exact ⟨⟨_, rfl, h0.arrived rfl fun _ _ => rfl, h0.fab, h0.port⟩, ⟨_, rfl, h1.arrived rfl fun _ _ => rfl, h1.fab, h1.port⟩⟩
    · have hmiss : ∀ {hold : Bool}, Heard p x hold s (s.heard p f x hold) → (s.heard p f x hold).otherFlit p q f
          = (s.heard p f x hold).raise cSlotMissed 1 p := fun h =>
        State.otherFlit_missed (h.issuing.trans hi) (h.failedRx.trans hr) (by rw [h.tableAt]; exact ht) (h.armed.trans ha)
      rw [hmiss h0, hmiss h1]
      exact ⟨⟨_, rfl, h0.raise_first hp (State.running_of_issuing hi) hz hh (by decide) ..⟩,
        ⟨_, rfl, h1.raise_first hp (State.running_of_issuing hi) hz hh (by decide) ..⟩⟩

end Sys2Proof.Machine
end

section
/-! SUPPORT. A received STOP (R263, R265, R423; log entries 57 and 133). -/

namespace Sys2Proof.Machine
open Sys2Proof

-- Proofs elaborated in threads of their own would pass the check's limit of memory.
set_option Elab.async false

variable {s t u : State} {p q n origin reason time : Nat} {f : Flit} {x : Arrival} {hold : Bool}

/-! ### The port takes a STOP -/

/-- The port shows the STOP, and its repetition of the package's first one ends. -/
def State.stopNoted (s : State) (p origin : Nat) : State := (s.setFld (rPortStat p) 11 1 1).peerStopped p origin

/-- What is so of the port and the package once a STOP has been heard there. -/
structure StopHeard (p : Nat) (s t : State) : Prop where
  wired    : Wired [rPortStat p, rPortErr p, rPfSyncStat] s t
  outbox   : t.outbox = s.outbox
  fab      : measured t s.fab
  shown    : t.fld (rPortStat p) 11 1 = 1
  fabricUp : t.fabricUp = s.fabricUp

theorem Heard.stopNoted (h : Heard p x hold s t) (origin : Nat) : StopHeard p s (t.stopNoted p origin) := by
  have h1 : OnRegs [rPortStat p] t (t.setFld (rPortStat p) 11 1 1) := (OnRegs.refl h.wired.wf _).setFld (by simp)
  have h2 : Wired [rPortStat p] t (t.stopNoted p origin) := h1.wired.setPort ..
  have hstate : ∀ o, (t.stopNoted p origin).portState o = t.portState o := fun o => by
    by_cases ho : o = p
    · subst ho; exact State.fld_setFld_disjoint h.wired.wf.regs (by decide) (by decide) ..
    · exact State.fld_setFld_ne h.wired.wf.regs (fun e => ho (rPortStat_inj e)) ..
  refine ⟨h.wired.trans (h2.mono (by simp)), h.outbox, h.fab, State.fld_setFld_same h.wired.wf.regs (by decide) .., ?_⟩
  rw [← h.fabricUp]
  refine List.filter_congr fun o _ => ?_
  rw [State.portUp, State.portUp, hstate, h2.mode (by simp [rPortMode_ne_stat])]

/-! ### A STOP is sent on and recorded -/

/-- A STOP of another origin is sent on, and the cause of the package's stop is as R265 says. -/
def State.relayStop (s : State) (p origin reason time : Nat) : State :=
  (s.forwardStop p origin reason time).recordStop origin reason time false

theorem State.stopArrives_ignored (h : (s.stopNoted p origin).running = false) (hb : (s.stopNoted p origin).bu ≠ 7) :
    s.stopArrives p origin reason time = s.stopNoted p origin := by
  refine if_pos ?_
  have hb' : ((s.stopNoted p origin).bu == stHalted) = false := beq_eq_false_iff_ne.2 hb
  show (!((s.stopNoted p origin).running || (s.stopNoted p origin).bu == stHalted) || _ || _) = true
  rw [h, hb']
  rfl

theorem State.stopArrives_taken (h : (s.stopNoted p origin).running = true ∨ (s.stopNoted p origin).bu = 7)
    (hf : s.fab.originsFwd.contains origin = false) (ho : s.fab.stopOut = true → origin ≠ (s.stopNoted p origin).herdIndex) :
    s.stopArrives p origin reason time
      = (let t := (s.stopNoted p origin).endHalts.relayStop p origin reason time
         if t.running then
           (({ t with fab := { t.fab with issueStopped := true, haltedAt := some t.now } } : State).stopCores cStopReceived).enterHalted
         else t) := by
  refine if_neg ?_
  show ¬ (!((s.stopNoted p origin).running || (s.stopNoted p origin).bu == stHalted) || s.fab.originsFwd.contains origin
    || (s.fab.stopOut && origin == (s.stopNoted p origin).herdIndex)) = true
  have h1 : ((s.stopNoted p origin).running || (s.stopNoted p origin).bu == stHalted) = true := by
    rcases h with h | h
    · rw [h]; rfl
    · rw [h, Bool.or_eq_true]; exact .inr rfl
  have h2 : (s.fab.stopOut && origin == (s.stopNoted p origin).herdIndex) = false := by
    cases hs : s.fab.stopOut with
    | false => rfl
    | true => exact beq_eq_false_iff_ne.2 (ho hs)
  rw [h1, hf, h2]
  decide

theorem State.forwardStop_spec (w : s.Wf) (p origin reason time : Nat) : Wired [] s (s.forwardStop p origin reason time)
    ∧ (s.forwardStop p origin reason time).fab = { s.fab with originsFwd := s.fab.originsFwd ++ [origin] }
    ∧ ∀ o ∈ s.fabricUp, o ≠ p → .stop o origin reason time ∈ (s.forwardStop p origin reason time).outbox := by
  obtain ⟨l, hl⟩ : ∃ l, l = s.fabricUp.filter (· != p) := ⟨_, rfl⟩
  have hsend : Wired [] s (s.sendStop l origin reason time) := (Wired.refl w _).foldl fun o _ h => (h.setPort ..).emit _
  have hfab : (s.sendStop l origin reason time).fab = s.fab := by
    have h := s.sendStop_portsOnly l origin reason time
    rw [h]
  have hmem : ∀ o ∈ s.fabricUp, o ≠ p → o ∈ l := fun o ho hne => hl ▸ List.mem_filter.2 ⟨ho, by simpa using hne⟩
  have e : s.forwardStop p origin reason time = { s.sendStop l origin reason time with
      fab := { (s.sendStop l origin reason time).fab with originsFwd := (s.sendStop l origin reason time).fab.originsFwd ++ [origin] } } := by
    rw [hl]; rfl
  rw [e]
  exact ⟨hsend.setFab _, by rw [hfab], fun o ho hne => State.stop_mem_sendStop s (hmem o ho hne) ..⟩

/-- A change of registers of the package, ports, the fabric and messages is none of a core. -/
theorem Wired.sameCore {R : List Nat} (h : Wired R s t) (hR : ∀ r ∈ R, r < coreBase) (n : Nat) : SameCore n s t where
  wf := h.wf
  core := h.core n
  regs r hr := h.regs r fun hm => ofCore_ne_low hr (hR r hm) rfl

theorem State.recordStop_wired (w : s.Wf) (origin reason time : Nat) (loc : Bool) :
    Wired [rPfStopCause, rPfStopTime] s (s.recordStop origin reason time loc) := by
  unfold State.recordStop
  split
  · exact (Wired.refl w _).addFld (by simp) ..
  · extract_lets held y later z
    split
    · exact .refl w _
    · exact ((Wired.refl w _).setReg (by simp) _).setReg (by simp) _

theorem State.relayStop_wired (w : s.Wf) (p origin reason time : Nat) : Wired [rPfStopCause, rPfStopTime] s (s.relayStop p origin reason time) :=
  have h := (State.forwardStop_spec w p origin reason time).1
  (h.mono (List.nil_subset _)).trans (State.recordStop_wired h.wf ..)

theorem State.relayStop_fab (w : s.Wf) (p origin reason time : Nat) :
    (s.relayStop p origin reason time).fab = { s.fab with originsFwd := s.fab.originsFwd ++ [origin] } :=
  (State.recordStop_fab ..).trans (State.forwardStop_spec w ..).2.1

theorem State.relayStop_stops (w : s.Wf) {o : Nat} (ho : o ∈ s.fabricUp) (hne : o ≠ p) :
    .stop o origin reason time ∈ (s.relayStop p origin reason time).outbox :=
  have h := State.forwardStop_spec w p origin reason time
  (State.recordStop_wired h.1.wf ..).outbox.subset (h.2.2 o ho hne)

/-- After the halt a STOP of a new origin is counted (log entry 57). -/
theorem State.recordStop_counted (w : s.Wf) (hb : s.bu = 7) (ha : s.fab.haltedAt ≠ some s.now) (loc : Bool) :
    let t := s.recordStop origin reason time loc
    t.reg rPfStopTime = s.reg rPfStopTime ∧ t.fld rPfStopCause 48 16 = min 65535 (s.fld rPfStopCause 48 16 + 1)
      ∧ t.fld rPfStopCause 0 32 = s.fld rPfStopCause 0 32 := by
  have e : s.recordStop origin reason time loc = s.addFld rPfStopCause 48 16 1 := if_pos ⟨hb, ha⟩
  intro t
  rw [show t = s.addFld rPfStopCause 48 16 1 from e]
  refine ⟨State.reg_setFld_ne w.regs (by decide) .., ?_, State.fld_setFld_disjoint w.regs (by decide) (by decide) ..⟩
  rw [State.addFld, State.fld_setFld_same w.regs (by decide), satAdd]
  omega

/-- A STOP that comes first, in detection time too, is the cause (R265). -/
theorem State.recordStop_first (w : s.Wf) (hb : ¬(s.bu = 7 ∧ s.fab.haltedAt ≠ some s.now))
    (ht : s.fld rPfStopCause 32 1 = 0 ∨ time < s.reg rPfStopTime) (ho : origin < 2 ^ 11) (hr : reason < 2 ^ 16) (htm : time < 2 ^ 64) (loc : Bool) :
    let t := s.recordStop origin reason time loc
    t.reg rPfStopTime = time ∧ t.fld rPfStopCause 0 11 = origin ∧ t.fld rPfStopCause 16 16 = reason := by
  have hl : s.fld rPfStopCause 48 16 < 2 ^ 16 := bitsOf_lt _ 48 16
  have hown : b2n loc ≤ 1 := by cases loc <;> decide
  obtain ⟨y, hy⟩ : ∃ y, y = origin % 2 ^ 11 + 2 ^ 16 * (reason % 2 ^ 16) + 2 ^ 32 + 2 ^ 33 * b2n loc + 2 ^ 48 * s.fld rPfStopCause 48 16 := ⟨_, rfl⟩
  have e : s.recordStop origin reason time loc = (s.setReg rPfStopCause y).setReg rPfStopTime time := by
    unfold State.recordStop
    dsimp only
    rw [if_neg (show ¬(s.bu = stHalted ∧ _) from hb), if_neg (by omega), hy]
  have w1 : (s.setReg rPfStopCause y).Wf := (Quiet.setReg s _ y).wf w
  have hcause : ((s.setReg rPfStopCause y).setReg rPfStopTime time).reg rPfStopCause = y := by
    rw [State.reg_setReg_ne w1.regs (by decide), State.reg_setReg_same w.regs _ (by omega)]
  intro t
  rw [show t = (s.setReg rPfStopCause y).setReg rPfStopTime time from e]
  refine ⟨State.reg_setReg_same w1.regs _ htm, ?_, ?_⟩
  · rw [State.fld, hcause, bitsOf, hy]; omega
  · rw [State.fld, hcause, bitsOf, hy]; omega

/-- What decides of the cause is as before once the STOP has been sent on. -/
theorem State.relayStop_first (w : s.Wf) (hb : ¬(s.bu = 7 ∧ s.fab.haltedAt ≠ some s.now))
    (ht : s.fld rPfStopCause 32 1 = 0 ∨ time < s.reg rPfStopTime) (ho : origin < 2 ^ 11) (hr : reason < 2 ^ 16) (htm : time < 2 ^ 64) :
    let t := s.relayStop p origin reason time
    t.reg rPfStopTime = time ∧ t.fld rPfStopCause 0 11 = origin ∧ t.fld rPfStopCause 16 16 = reason := by
  obtain ⟨h, hfab, -⟩ := State.forwardStop_spec w p origin reason time
  refine State.recordStop_first h.wf ?_ ?_ ho hr htm false
  · rw [h.bu List.not_mem_nil, hfab, h.now List.not_mem_nil]; exact hb
  · rw [h.fld List.not_mem_nil, h.regs _ List.not_mem_nil]; exact ht

theorem State.relayStop_counted (w : s.Wf) (hb : s.bu = 7) (ha : s.fab.haltedAt ≠ some s.now) :
    let t := s.relayStop p origin reason time
    t.reg rPfStopTime = s.reg rPfStopTime ∧ t.fld rPfStopCause 48 16 = min 65535 (s.fld rPfStopCause 48 16 + 1)
      ∧ t.fld rPfStopCause 0 32 = s.fld rPfStopCause 0 32 := by
  obtain ⟨h, hfab, -⟩ := State.forwardStop_spec w p origin reason time
  obtain ⟨h1, h2, h3⟩ := State.recordStop_counted (origin := origin) (reason := reason) (time := time) h.wf
    ((h.bu List.not_mem_nil).trans hb) (by rw [hfab, h.now List.not_mem_nil]; exact ha) false
  refine ⟨h1.trans (h.regs _ List.not_mem_nil), h2.trans ?_, h3.trans (h.fld List.not_mem_nil ..)⟩
  rw [h.fld List.not_mem_nil]

/-! ### Cores that a received STOP halts -/

/-- A core with no halt of its own takes the reason of its package's stop, not as its own (R423). -/
theorem HaltsAs.stopInfo {code : Nat} (e : HaltsAs code n s t) (hl : s.coreLive n = true) (he : (s.core n).ending = none) (hc : code < 2 ^ 16)
    (h0 : s.cfld n oHaltInfo 16 1 = 0) : t.cfld n oHaltInfo 0 16 = code ∧ t.cfld n oHaltInfo 17 1 = 0 := by
  obtain ⟨u, h1, h2⟩ := e
  have hul : u.coreLive n = true := h1.coreLive.trans hl
  have hu0 : u.cfld n oHaltInfo 16 1 = 0 := (State.cfld_of_reg h1.reg ..).trans h0
  have qn := u.nextAttr_quiet noReg n
  have hrec : u.stopRecord code n = (u.nextAttr n).2.haltRecord n code false false (u.nextAttr n).1 := by rw [State.stopRecord, h1.core, he]
  have hn0 : (u.nextAttr n).2.cfld n oHaltInfo 16 1 = 0 := (State.cfld_of_reg (qn.regs h1.wf _ id) ..).trans hu0
  obtain ⟨hinfo, -⟩ := State.haltRecord_spec (qn.wf h1.wf) n false false (u.nextAttr n).1 hc hn0
  obtain ⟨⟨-, -, hkeep, -⟩, -⟩ := State.coreToHalted_spec ((u.stopRecord_ofCore code n).wf h1.wf) n
  have hreg : t.reg (rCore n oHaltInfo) = code + 2 ^ 16 + 2 ^ 17 * b2n false + 2 ^ 18 * b2n false + 2 ^ 32 * ((u.nextAttr n).1.offset % 2 ^ 32) := by
    rw [h2.reg, State.stopCore, if_pos hul]
    exact (hkeep _ (rCore_notMem (l := [oState, oBank]) (by decide) (by decide) n)).trans (hrec ▸ hinfo)
  have hb : b2n false = 0 := rfl
  rw [hb] at hreg
  rw [State.cfld, State.cfld, State.fld, State.fld, hreg, bitsOf, bitsOf]
  omega

/-- The package halts for a received STOP. -/
theorem State.haltForStop_spec (w : s.Wf) (g : Fab) (code : Nat) :
    let t := (({ s with fab := g } : State).stopCores code).enterHalted
    t.bu = 7 ∧ Quiet faultReg s t ∧ (∀ r, r < coreBase → r ∉ [rBuState, rPfDbgCtrl] → t.reg r = s.reg r)
      ∧ ∀ n ∈ s.used, s.coreLive n = true → HaltsAs code n s t := by
  have q1 : Quiet faultReg s { s with fab := g } := .setFab _ s g
  have w1 := q1.wf w
  have q2 := State.stopCores_quiet { s with fab := g } code
  have w2 := q2.wf w1
  have q3 := State.enterHalted_quiet (({ s with fab := g } : State).stopCores code)
  refine ⟨State.bu_enterHalted w2, (q1.trans (q2.mono fun _ h => .inr h)).trans q3, fun r hr hm => ?_, fun n hn hl => ?_⟩
  · exact (State.enterHalted_regs w2 hm).trans (q2.regs w1 r (not_coreReg hr))
  · have hs : SameCore n s { s with fab := g } := ⟨w1, rfl, fun _ _ => rfl⟩
    refine .before hs (.after (State.stopCores_haltsAs w1 hn hl code) ⟨q3.wf w2, ?_, fun m hm => ?_⟩)
    · rw [State.core, State.enterHalted_cores]; rfl
    · refine State.enterHalted_regs w2 ?_
      simp only [List.mem_cons, List.not_mem_nil, or_false, not_or]
      exact ⟨ofCore_ne_low hm (by decide), ofCore_ne_low hm (by decide)⟩

/-- The halts that wait stop their package: it is HALTED, and each core halts as it would have. -/
theorem State.endHalts_halts (w : s.Wf) (hr : s.running = true) (hn : n ∈ s.used) (hl : s.coreLive n = true) {a : Attr} {code tm : Nat}
    {noEff : Bool} (he : (s.core n).ending = some (.halt a code noEff tm)) :
    s.endHalts.bu = 7 ∧ Quiet faultReg s s.endHalts ∧ ∃ reason, HaltsAs reason n s s.endHalts := by
  have hne : s.ownHalts.isEmpty = false := by
    have hm : (n, code, tm) ∈ s.ownHalts := List.mem_filterMap.2 ⟨n, hn, by rw [he]; exact if_pos hl⟩
    cases h : s.ownHalts with
    | nil => rw [h] at hm; cases hm
    | cons => rfl
  have qn := s.noteHalts_quiet
  have wn := qn.wf w
  have e : s.endHalts = s.noteHalts.stopAsOrigin (s.noteHalts.fld rPfFault 0 16) (s.noteHalts.reg rPfFaultTime) := by
    rw [State.endHalts, hr, hne]; rfl
  have hsame : SameCore n s s.noteHalts := List.foldlRecOn (motive := SameCore n s) _ _ (.refl w n) fun _ h _ _ =>
    h.trans (State.noteFault_sameCore h.wf ..)
  rw [e]
  refine ⟨(State.stopAsOrigin_spec wn ..).1, qn.trans (State.stopAsOrigin_quiet ..), _, .before hsame
    (State.stopAsOrigin_haltsAs wn (qn.used.symm ▸ hn) (hsame.coreLive.trans hl) ..)⟩

/-! ### The obligation -/

theorem exec_stopFlitReceive (hd : s.dark = false) (hu : s.portUp p = true) (hm : s.mode p = 1) (hf : fecOk x.errs = true)
    (hg : f.good = true) (q origin reason time : Nat) : exec (.stopFlitReceive p q ⟨f, x⟩ ⟨origin, reason, time⟩) s
    = .next (((s.heard p f x false).otherFlit p q f).stopArrives p origin reason time) :=
  (whenLive_of_live hd fun s => s.rx p q f x false (fun s => (s.otherFlit p q f).stopArrives p origin reason time)).trans
    (by rw [State.rx_good hu hm hf hg])

namespace StopHeard

variable (h : StopHeard p s t)
include h

theorem fld_low {r : Nat} (hr : r < 0x8_0000) (hr' : r ≠ rPfSyncStat) (lo l : Nat) : t.fld r lo l = s.fld r lo l :=
  h.wired.fld (not_heardReg hr hr' p) ..
theorem reg_low {r : Nat} (hr : r < 0x8_0000) (hr' : r ≠ rPfSyncStat) : t.reg r = s.reg r := h.wired.regs r (not_heardReg hr hr' p)
theorem running : t.running = s.running := h.wired.running (not_heardReg (by decide) (by decide) p)
theorem bu : t.bu = s.bu := h.wired.bu (not_heardReg (by decide) (by decide) p)
theorem now : t.now = s.now := h.wired.now (not_heardReg (by decide) (by decide) p)
theorem herdIndex : t.herdIndex = s.herdIndex := h.wired.herdIndex (not_heardReg (by decide) (by decide) p)
theorem sameCore (hp : p < 18) (n : Nat) : SameCore n s t :=
  h.wired.sameCore (by simp [rPortStat, rPortErr, rPfSyncStat, coreBase]; omega) n

end StopHeard

/-- A package that runs a job, with no halt waiting, halts for a new origin's STOP. -/
theorem StopHeard.halts (h : StopHeard p s t) (hp : p < 18) (hr : s.running = true) (hh : ∀ n ∈ s.used, (s.core n).ending = none)
    (hc : s.fld rPfStopCause 32 1 = 0) (ho : origin < 2 ^ 11) (hre : reason < 2 ^ 16) (htm : time < 2 ^ 64) (g : Fab) :
    let v := (({ t.relayStop p origin reason time with fab := g } : State).stopCores cStopReceived).enterHalted
    v.bu = 7 ∧ v.fld rPfStopCause 0 11 = origin ∧ v.fld rPfStopCause 16 16 = reason ∧ v.reg rPfStopTime = time
      ∧ (∀ o ∈ s.fabricUp, o ≠ p → .stop o origin reason time ∈ v.outbox)
      ∧ (∀ n ∈ s.used, s.coreLive n = true → v.cstate n = 5
          ∧ (s.cfld n oHaltInfo 16 1 = 0 → v.cfld n oHaltInfo 0 16 = 0x0601 ∧ v.cfld n oHaltInfo 17 1 = 0))
      ∧ v.fld (rPortStat p) 11 1 = 1 ∧ v.mem = s.mem ∧ v.nv = s.nv ∧ v.job = s.job := by
  have wt := h.wired.wf
  have hrel := State.relayStop_wired wt p origin reason time
  have hb : t.bu ≠ 7 := by
    have h6 : s.bu = 6 := by simpa [State.running, stRun] using hr
    rw [h.bu, h6]; decide
  obtain ⟨htime, horig, hreas⟩ := State.relayStop_first (p := p) wt (fun h => hb h.1) (.inl ((h.fld_low (by decide) (by decide) ..).trans hc)) ho hre htm
  obtain ⟨hbu, hq, hregs, hcores⟩ := State.haltForStop_spec hrel.wf g cStopReceived
  have hlow : ∀ r, r < coreBase → r ∉ [rBuState, rPfDbgCtrl] → ∀ lo l, State.fld _ r lo l = State.fld _ r lo l := fun r h1 h2 lo l =>
    congrArg (bitsOf · lo l) (hregs r h1 h2)
  intro v
  refine ⟨hbu, (hlow _ (by decide) (by decide) ..).trans horig, (hlow _ (by decide) (by decide) ..).trans hreas,
    (hregs _ (by decide) (by decide)).trans htime, fun o ho hne => hq.outbox.subset (State.relayStop_stops wt (h.fabricUp.symm ▸ ho) hne),
    fun n hn hl => ?_, ?_, hq.mem.trans (hrel.mem.trans h.wired.mem), hq.nv.trans (hrel.nv.trans h.wired.nv),
    hq.job.trans (hrel.job.trans h.wired.job)⟩
  · have hsame : SameCore n s (t.relayStop p origin reason time) := (h.sameCore hp n).trans (hrel.sameCore (by decide) n)
    have hhalt : HaltsAs cStopReceived n s v := .before hsame
      (hcores n ((hrel.used.trans h.wired.used).symm ▸ hn) (hsame.coreLive.trans hl))
    exact ⟨hhalt.cstate hl, fun h0 => hhalt.stopInfo hl (hh n hn) (by decide) h0⟩
  · refine (hlow _ ?_ ?_ ..).trans ((hrel.fld ?_ ..).trans h.shown)
    · simp only [rPortStat, coreBase]; omega
    · simp only [rPortStat, rBuState, rPfDbgCtrl, List.mem_cons, List.not_mem_nil, or_false]; omega
    · simp only [rPortStat, rPfStopCause, rPfStopTime, List.mem_cons, List.not_mem_nil, or_false]; omega

/-- Settles O41: the port hears the STOP, the package's own halts come first, and what is left of the STOP is sent on and recorded. -/
theorem stopReceived : Obligations.StopReceived := by
  intro p q f x origin reason time s w hd hp hu hm ho hre htm hg hf hn hk hfree
  have hh := State.heard_spec w hn hk false
  rw [exec_stopFlitReceive hd hu hm hf hg, hh.otherFlit_free hfree]
  generalize s.heard p f x false = t at hh
  have h := hh.stopNoted origin
  have horigins : t.fab.originsFwd = s.fab.originsFwd := by rw [hh.fab]
  have hout : t.fab.stopOut = s.fab.stopOut := by rw [hh.fab]
  refine ⟨fun hr h1 h2 h3 h4 => ?_, fun n a code noEff tm hr h1 h2 hn' hl he hc h0 => ?_, fun hb h1 h2 => ?_, fun hr hb => ?_⟩
  · have hends : (t.stopNoted p origin).endHalts = t.stopNoted p origin := by
      have : (t.stopNoted p origin).ownHalts = [] := State.ownHalts_nil fun n hn _ => by
        rw [h.wired.core]; exact h4 n (h.wired.used ▸ hn)
      rw [State.endHalts, this, List.isEmpty_nil, Bool.not_true, Bool.and_false]
      exact if_neg (by decide)
    rw [State.stopArrives_taken (.inl (h.running.trans hr)) (by rw [horigins, h1]; rfl) (by rw [hout, h2]; exact fun e => absurd e (by decide)), hends]
    have hrun : ((t.stopNoted p origin).relayStop p origin reason time).running = true :=
      ((State.relayStop_wired h.wired.wf ..).running (by decide)).trans (h.running.trans hr)
    dsimp only
    rw [if_pos hrun]
    exact ⟨_, rfl, h.halts hp hr h4 h3 ho hre htm _⟩
  · obtain ⟨hbu, hq, r, hhalt⟩ := State.endHalts_halts h.wired.wf (h.running.trans hr) (h.wired.used.symm ▸ hn')
      ((h.sameCore hp n).coreLive.trans hl) (by rw [h.wired.core]; exact he)
    rw [State.stopArrives_taken (.inl (h.running.trans hr)) (by rw [horigins, h1]; rfl) (by rw [hout, h2]; exact fun e => absurd e (by decide))]
    have wb := hq.wf h.wired.wf
    have hrel := State.relayStop_wired wb p origin reason time
    have hb : ((t.stopNoted p origin).endHalts.relayStop p origin reason time).bu = 7 := (hrel.bu (by decide)).trans hbu
    dsimp only
    rw [if_neg (by rw [State.running, hb]; decide)]
    have hall := (hhalt.after (hrel.sameCore (by decide) n)).before (h.sameCore hp n)
    have hinfo := hall.haltInfo hl he hc h0
    have hflag : b2n noEff ≤ 1 := by cases noEff <;> decide
    refine ⟨_, rfl, hb, hall.cstate hl, ?_, ?_, hrel.mem.trans (hq.mem.trans h.wired.mem), hrel.nv.trans (hq.nv.trans h.wired.nv)⟩
    · rw [State.cfld, State.fld, hinfo, bitsOf]; omega
    · rw [State.cfld, State.fld, hinfo, bitsOf]; omega
  · have hbt := h.bu.trans hb
    have hends : (t.stopNoted p origin).endHalts = t.stopNoted p origin := by
      rw [State.endHalts, show (t.stopNoted p origin).running = false by rw [State.running, hbt]; rfl, Bool.false_and]
      exact if_neg (by decide)
    have hrel := State.relayStop_wired h.wired.wf p origin reason time
    rw [State.stopArrives_taken (.inr hbt) (by rw [horigins]; exact h1) (by rw [hout, h.herdIndex]; exact h2), hends]
    have hb7 : ((t.stopNoted p origin).relayStop p origin reason time).bu = 7 := (hrel.bu (by decide)).trans hbt
    have hat : (t.stopNoted p origin).fab.haltedAt = s.fab.haltedAt := by rw [h.fab]
    dsimp only
    rw [if_neg (by rw [State.running, hb7]; decide)]
    refine ⟨_, rfl, hb7, fun o ho hne => State.relayStop_stops h.wired.wf (h.fabricUp.symm ▸ ho) hne, hrel.mem.trans h.wired.mem,
      hrel.nv.trans h.wired.nv, ?_, fun ha => ?_, fun ha hlt => ?_⟩
    · rw [State.relayStop_fab h.wired.wf, h.fab]
    · obtain ⟨k1, k2, k3⟩ := State.relayStop_counted (p := p) (origin := origin) (reason := reason) (time := time) h.wired.wf hbt
        (by rw [hat, h.now]; exact ha)
      rw [k1, k2, k3, h.reg_low (by decide) (by decide), h.fld_low (by decide) (by decide), h.fld_low (by decide) (by decide)]
      exact ⟨rfl, rfl, rfl⟩
    · refine State.relayStop_first h.wired.wf (fun hx => hx.2 ?_) (.inr ?_) ho hre htm
      · rw [hat, h.now]; exact ha
      · rw [h.reg_low (by decide) (by decide)]; exact hlt
  · rw [State.stopArrives_ignored (h.running.trans hr) (by rw [h.bu]; exact hb)]
    refine ⟨_, rfl, ⟨?_, h.wired.regs⟩, h.fab, h.shown⟩
    rw [h.wired.frame, h.outbox]

end Sys2Proof.Machine
end

section
/-! SUPPORT. Pack-time synchronization: the lock, the time that it takes over, and its loss (R249 to R251; log entry 120). -/

namespace Sys2Proof.Machine
open Sys2Proof

-- Proofs elaborated in threads of their own would pass the check's limit of memory.
set_option Elab.async false

variable {s t u : State} {p q b bs tm sv ago : Nat} {tbl : List (Nat × Nat)} {f : Flit} {x : Arrival} {hold : Bool} {phase : Int}

theorem phaseField_lt (phase : Int) : phaseField phase < 256 := by unfold phaseField; omega

/-! ### The time that a lock takes over -/

theorem stretchSum_none (t : List (Nat × Nat)) (c : Nat) : stretchSum t c c = 0 := by
  rw [stretchSum_eq]
  refine List.sum_eq_zero fun x hx => ?_
  obtain ⟨be, -, rfl⟩ := List.mem_map.1 hx
  rw [stretchShare, show min c _ - max c be = 0 by omega, Nat.zero_mul]

/-- The current beat begins at its start. -/
theorem State.beatTime_now (s : State) : s.beatTime s.beat = s.fab.beatStart := by
  unfold State.beatTime
  dsimp only
  rw [if_pos le_rfl, stretchSum_none, Nat.sub_self]
  omega

/-- A pack time within 256 slots of the current beat's start is the current beat's. -/
theorem State.beatAt_current (h1 : s.fab.beatStart ≤ tm) (h2 : tm < s.fab.beatStart + 256) : s.beatAt tm = s.beat := by
  have hnone : (s.stretchTable.map (·.1)).filter (fun b => decide (s.beat < b) && decide (s.beatTime b ≤ tm)) = [] := by
    refine List.filter_eq_nil_iff.2 fun b _ => ?_
    simp only [Bool.and_eq_true, decide_eq_true_eq, not_and, Nat.not_le]
    intro hb
    unfold State.beatTime
    dsimp only
    rw [if_pos hb.le]
    omega
  unfold State.beatAt
  dsimp only
  rw [if_neg (by omega), hnone, List.foldl_nil, State.beatTime_now, Nat.div_eq_of_lt (by omega)]
  rfl

/-- The state in which the package has its parent's beat, of before the announcement went out, and no beat of its own yet. -/
def State.follow (s : State) (ago tm b bs sv : Nat) (tbl : List (Nat × Nat)) : State :=
  let s := (allPorts.filter s.portUp).foldl (fun s p => s.setPort p { s.port p with carried := tm + ago }) s
  let s := s.setReg rPfPackTime (tm + ago)
  let s := s.setReg rPfBeat (b % 2 ^ 48 + 2 ^ 48 * (sv % 2 ^ 12))
  { s with fab := { s.fab with beatStart := bs, table := tbl.take 4, past := [] } }

/-- The current beat began at `start`, and the 1 ms interval is that of `now` (R405). -/
def State.beatFrom (s : State) (start now : Nat) : State :=
  { s with fab := { s.fab with beatStart := start }, pwr := { s.pwr with interval := now / intervalSlots } }

theorem State.adopt_eq (s : State) (ago tm b bs sv : Nat) (tbl : List (Nat × Nat)) : s.adopt ago (.time tm b bs sv tbl)
    = (let u := s.follow ago tm b bs sv tbl
       let nb := u.beatAt (tm + ago)
       let v := u.setReg rPfBeat (nb % 2 ^ 48 + 2 ^ 48 * (stretchAt u.stretchTable nb % 2 ^ 12))
       (v.beatFrom (u.beatTime nb) (tm + ago)).showStretch) :=
  rfl

theorem State.follow_spec (w : s.Wf) (ago tm b bs sv : Nat) (tbl : List (Nat × Nat)) : Wired [rPfPackTime, rPfBeat] s (s.follow ago tm b bs sv tbl)
    ∧ (s.follow ago tm b bs sv tbl).reg rPfPackTime = (tm + ago) % 2 ^ 64
    ∧ (s.follow ago tm b bs sv tbl).fab = { s.fab with beatStart := bs, table := tbl.take 4, past := [] }
    ∧ (b < 2 ^ 48 → (s.follow ago tm b bs sv tbl).beat = b) := by
  unfold State.follow
  extract_lets y z v g
  have hy : Wired [rPfPackTime, rPfBeat] s y := (Wired.refl w _).foldl fun p _ h => h.setPort ..
  have hyfab : y.fab = s.fab := foldl_keep State.fab (f := fun s p => s.setPort p _) (fun _ _ => rfl) _ s
  have hz : Wired [rPfPackTime, rPfBeat] s z := hy.setReg (by simp) _
  have hv : Wired [rPfPackTime, rPfBeat] s v := hz.setReg (by simp) _
  refine ⟨hv.setFab _, ?_, ?_, fun hb => ?_⟩
  · refine (State.reg_setReg_ne hz.wf.regs (by decide) _).trans ?_
    rw [State.reg_setReg hy.wf.regs, if_pos rfl]
  · show { y.fab with beatStart := bs, table := tbl.take 4, past := [] } = _
    rw [hyfab]
  · show v.fld rPfBeat 0 48 = b
    rw [State.fld, State.reg_setReg_same hz.wf.regs _ (by omega), bitsOf]
    omega

/-- What the package has taken over from its parent. -/
structure Adopted (ago tm b bs : Nat) (tbl : List (Nat × Nat)) (s t : State) : Prop where
  wf       : t.Wf
  frame    : t = { s with regs := t.regs, ports := t.ports, fab := t.fab, outbox := t.outbox, pwr := t.pwr }
  now      : t.reg rPfPackTime = (tm + ago) % 2 ^ 64
  table    : t.fab.table = tbl.take 4
  interval : t.pwr.interval = (tm + ago) / 250000
  beat     : b < 2 ^ 48 → bs ≤ tm + ago → tm + ago < bs + 256 → t.beat = b ∧ t.fab.beatStart = bs

theorem State.adopt_spec (w : s.Wf) (ago tm b bs sv : Nat) (tbl : List (Nat × Nat)) :
    Adopted ago tm b bs tbl s (s.adopt ago (.time tm b bs sv tbl)) := by
  obtain ⟨hu, hnow, hfab, hbeat⟩ := State.follow_spec w ago tm b bs sv tbl
  rw [State.adopt_eq]
  extract_lets u nb v
  obtain ⟨y, hy⟩ : ∃ y, y = v.beatFrom (u.beatTime nb) (tm + ago) := ⟨_, rfl⟩
  have hv : Wired [rPfPackTime, rPfBeat] s v := hu.setReg (by simp) _
  have wy : y.Wf := hy ▸ { hv.wf with }
  have hshow := State.showStretch_regs wy
  have hyframe : y = { s with regs := y.regs, ports := y.ports, fab := y.fab, outbox := y.outbox, pwr := y.pwr } := by
    rw [hy, State.beatFrom, hv.frame]
  have hsame := hshow.only.1
  rw [← hy]
  refine ⟨hshow.wf, by rw [hsame, hyframe], ?_, by rw [hsame, hy]; exact congrArg Fab.table hfab, by rw [hsame, hy]; rfl, fun h48 h1 h2 => ?_⟩
  · rw [hshow.reg (by decide), hy]
    exact (State.reg_setReg_ne hu.wf.regs (by decide) _).trans hnow
  · have hub : u.beat = b := hbeat h48
    have hus : u.fab.beatStart = bs := congrArg Fab.beatStart hfab
    have hnb : nb = b := (State.beatAt_current (by rw [hus]; exact h1) (by rw [hus]; exact h2)).trans hub
    refine ⟨?_, ?_⟩
    · rw [State.beat, hshow.fld (by decide), hy]
      show bitsOf (v.reg rPfBeat) 0 48 = b
      rw [State.reg_setReg_same hu.wf.regs _ (by omega), bitsOf, hnb]
      omega
    · rw [hsame, hy]
      show u.beatTime nb = bs
      rw [hnb, ← hub, State.beatTime_now, hus]

/-! ### The lock -/

/-- The package locks. -/
def State.lockTime (s : State) (phase : Int) : State :=
  let s := { s with fab := { s.fab with everLocked := true, stepNext := false, parent := none, steady := none } }
  (s.setFld rPfSyncStat 0 1 1).setFld rPfSyncStat 8 8 (phaseField phase)

theorem State.lockTime_spec (w : s.Wf) (phase : Int) :
    OnRegs [rPfSyncStat] { s with fab := { s.fab with everLocked := true, stepNext := false, parent := none, steady := none } } (s.lockTime phase)
      ∧ (s.lockTime phase).fld rPfSyncStat 0 1 = 1 ∧ (s.lockTime phase).fld rPfSyncStat 8 8 = phaseField phase := by
  unfold State.lockTime
  extract_lets g y
  have wy : y.Wf := (Quiet.setFab noReg s _).wf w
  have h1 : OnRegs [rPfSyncStat] y (y.setFld rPfSyncStat 0 1 1) := (OnRegs.refl wy _).setFld
  refine ⟨h1.setFld, ?_, ?_⟩
  · exact (State.fld_setFld_disjoint h1.wf.regs (by decide) (by decide) ..).trans (State.fld_setFld_same wy.regs (by decide) ..)
  · exact (State.fld_setFld_same h1.wf.regs (by decide) ..).trans (Nat.mod_eq_of_lt (phaseField_lt phase))

/-- PACKTIME_LOCK once the phase has stayed within bounds for 256 slots. -/
theorem exec_packtimeLock (hd : s.dark = false) (hf : s.follows = true) (h1 : -16 ≤ phase) (h2 : phase ≤ 16) : exec (.packtimeLock phase) s
    = .next (if s.fab.steady.any (fun t => decide (t + 256 ≤ s.now)) then
        (if s.fab.everLocked && !s.fab.stepNext then s.lockTime phase
         else match s.fab.parent with
          | some (at_, a) => (s.adopt (s.now - at_) a).lockTime phase
          | none => s)
      else s) := by
  refine (next_of_live hd).trans (congrArg Host.Outcome.next ?_)
  show (if (s.follows && decide (-16 ≤ phase ∧ phase ≤ 16) && s.fab.steady.any (fun t => decide (t + 256 ≤ s.now))) = true then _ else s) = _
  rw [hf, decide_eq_true (p := -16 ≤ phase ∧ phase ≤ 16) ⟨h1, h2⟩, Bool.true_and, Bool.true_and]
  rfl

section
variable (hd : s.dark = false) (hf : s.follows = true) (h1 : -16 ≤ phase) (h2 : phase ≤ 16) {t₀ at₀ : Nat} (hs : s.fab.steady = some t₀)
  (ht : t₀ + 256 ≤ s.now)
include hd hf h1 h2 hs ht

/-- A lock that is not the first, with no step to make, leaves pack time alone. -/
theorem exec_packtimeLock_again (he : s.fab.everLocked = true) (hn : s.fab.stepNext = false) :
    exec (.packtimeLock phase) s = .next (s.lockTime phase) := by
  rw [exec_packtimeLock hd hf h1 h2, hs, Option.any_some, decide_eq_true ht, if_pos rfl, he, hn]
  rfl

theorem exec_packtimeLock_steps (he : s.fab.everLocked = false ∨ s.fab.stepNext = true) : exec (.packtimeLock phase) s
    = .next (match s.fab.parent with
      | some (at_, a) => (s.adopt (s.now - at_) a).lockTime phase
      | none => s) := by
  rw [exec_packtimeLock hd hf h1 h2, hs, Option.any_some, decide_eq_true ht, if_pos rfl, if_neg (by rcases he with he | he <;> simp [he])]

/-- With no announcement yet the lock waits for one (log entry 120). -/
theorem exec_packtimeLock_waits (he : s.fab.everLocked = false ∨ s.fab.stepNext = true) (hp : s.fab.parent = none) :
    exec (.packtimeLock phase) s = .next s := by
  rw [exec_packtimeLock_steps hd hf h1 h2 hs ht he, hp]

theorem exec_packtimeLock_adopts (he : s.fab.everLocked = false ∨ s.fab.stepNext = true) {a : Announce} (hp : s.fab.parent = some (at₀, a)) :
    exec (.packtimeLock phase) s = .next ((s.adopt (s.now - at₀) a).lockTime phase) := by
  rw [exec_packtimeLock_steps hd hf h1 h2 hs ht he, hp]

end

/-! ### The lock is lost -/

theorem State.loseLock_spec (w : s.Wf) (phase : Int) : ∃ u, u.Wf ∧ regsOnly { s with fab := u.fab } u [rPfSyncStat]
    ∧ u.fld rPfSyncStat 0 1 = 0 ∧ u.fld rPfSyncStat 1 1 = 1
    ∧ s.loseLock phase = if s.running then u.raise cPacktimeSkew 1 (u.fld rPfSyncCtrl 1 5) else u := by
  have h1 : OnRegs [rPfSyncStat] s (s.setFld rPfSyncStat 0 1 0) := (OnRegs.refl w _).setFld
  have h2 := h1.setFld (a := rPfSyncStat) (lo := 1) (l := 1) (x := 1)
  have h3 := h2.setFld (a := rPfSyncStat) (lo := 8) (l := 8) (x := phaseField phase)
  obtain ⟨v, hv⟩ : ∃ v, v = ((s.setFld rPfSyncStat 0 1 0).setFld rPfSyncStat 1 1 1).setFld rPfSyncStat 8 8 (phaseField phase) := ⟨_, rfl⟩
  rw [← hv] at h3
  have hlow : ∀ lo n, lo + n ≤ 8 → v.fld rPfSyncStat lo n = ((s.setFld rPfSyncStat 0 1 0).setFld rPfSyncStat 1 1 1).fld rPfSyncStat lo n :=
    fun lo n hn => hv ▸ State.fld_setFld_disjoint h2.wf.regs (by decide) (.inl hn) ..
  have hrun : v.running = s.running := h3.wired.running (by decide)
  refine ⟨{ v with fab := { v.fab with steady := none, stepNext := v.fab.stepNext || decide (phase < -128 ∨ 128 < phase) } },
    (Quiet.setFab noReg v _).wf h3.wf, ⟨?_, h3.only.2⟩, ?_, ?_, ?_⟩
  · rw [h3.only.1]
  · refine (hlow 0 1 (by decide)).trans ?_
    exact (State.fld_setFld_disjoint h1.wf.regs (by decide) (by decide) ..).trans (State.fld_setFld_same w.regs (by decide) ..)
  · exact (hlow 1 1 (by decide)).trans (State.fld_setFld_same h1.wf.regs (by decide) ..)
  · rw [← hrun, hv]; rfl

/-- A locked package that loses its lock in RUN has the fault PACKTIME_SKEW (R251). -/
theorem State.loseLock_faults (w : s.Wf) (hr : s.running = true) (hf : s.fld rPfFault 16 1 = 0) (hh : s.ownHalts = []) (phase : Int) :
    (s.loseLock phase).fld rPfSyncStat 0 1 = 0 ∧ (s.loseLock phase).fld rPfSyncStat 1 1 = 1 ∧ (s.loseLock phase).bu = 7
      ∧ (s.loseLock phase).fld rPfFault 0 16 = 0x0505 := by
  obtain ⟨u, wu, ⟨hframe, hregs⟩, hlock, hlost, e⟩ := State.loseLock_spec w phase
  have hu : Wired [rPfSyncStat] s u := ⟨wu, by rw [hframe], by rw [hframe], hregs⟩
  rw [e, if_pos hr]
  obtain ⟨hb, hcode, -⟩ := State.raise_first wu ((hu.running (by decide)).trans hr) ((hu.fld (by decide) ..).trans hf)
    ((hu.ownHalts (by decide)).trans hh) (reason := cPacktimeSkew) (by decide) 1 (u.fld rPfSyncCtrl 1 5)
  have hkeep : ∀ lo n, (u.raise cPacktimeSkew 1 (u.fld rPfSyncCtrl 1 5)).fld rPfSyncStat lo n = u.fld rPfSyncStat lo n :=
    (u.raise_quiet ..).fld wu (not_faultReg (by decide) (by decide))
  exact ⟨(hkeep ..).trans hlock, (hkeep ..).trans hlost, hb, hcode⟩

theorem exec_packtimeLockLost (hd : s.dark = false) (hl : s.fld rPfSyncStat 0 1 = 1) (hp : phase < -32 ∨ 32 < phase) :
    exec (.packtimeLockLost phase) s = .next (s.loseLock phase) :=
  (next_of_live hd).trans (congrArg Host.Outcome.next (if_pos ⟨hl, hp⟩))

/-! ### A flit from the parent -/

/-- A flit from the parent of a package that is locked is measured. -/
theorem State.measure_locked (hf : s.follows = true) (hp : p = s.fld rPfSyncCtrl 1 5) (hr : f.resend = false) (hl : s.fld rPfSyncStat 0 1 = 1) :
    ∃ steady, s.measure p f x
      = if s.phaseOf p f x < -32 ∨ 32 < s.phaseOf p f x then ({ s with fab := { s.fab with steady } } : State).loseLock (s.phaseOf p f x)
        else ({ s with fab := { s.fab with steady } } : State).setFld rPfSyncStat 8 8 (phaseField (s.phaseOf p f x)) := by
  refine ⟨if decide (-16 ≤ s.phaseOf p f x ∧ s.phaseOf p f x ≤ 16) then some (s.fab.steady.getD s.now) else none, ?_⟩
  unfold State.measure
  extract_lets e within locked far g v
  have hlocked : locked = true := by simp [locked, hl]
  have hfar : far = false := by simp [far, hlocked]
  have hv : v = { s with fab := { s.fab with steady := if within then some (s.fab.steady.getD s.now) else none } } := by
    unfold v
    rw [hfar, Bool.or_false]
  rw [if_neg (by simp [hf, ← hp, hr]), hlocked, Bool.true_and, hv]
  exact ite_congr (propext decide_eq_true_iff) (fun _ => rfl) (fun _ => rfl)

/-- What makes port `p` that of the parent, for a good flit that is not a re-send. -/
structure FromParent (s : State) (p q : Nat) (f : Flit) (x : Arrival) : Prop where
  lt      : p < 18
  up      : s.portUp p = true
  mode    : s.mode p = 1
  good    : f.good = true
  fec     : fecOk x.errs = true
  noNak   : f.nakValid = false
  fresh   : f.resend = false
  follows : s.follows = true
  parent  : p = s.fld rPfSyncCtrl 1 5
  free    : s.issuing = true → (s.port p).failedRx = [] ∧ s.tableAt p true q = none

/-- A locked package measures the parent's flit. -/
theorem FromParent.measured (h : FromParent s p q f x) (w : s.Wf) (hl : s.fld rPfSyncStat 0 1 = 1) : ∃ u steady,
    Heard p x false s u ∧ u.fab = s.fab ∧ s.heard p f x false
      = if s.phaseOf p f x < -32 ∨ 32 < s.phaseOf p f x then ({ u with fab := { u.fab with steady } } : State).loseLock (s.phaseOf p f x)
        else ({ u with fab := { u.fab with steady } } : State).setFld rPfSyncStat 8 8 (phaseField (s.phaseOf p f x)) := by
  obtain ⟨hu, hfab, hsync⟩ := State.goodFlit_heard w p x false
  have e : s.heard p f x false = ((s.countFec p x).goodFlit p false).measure p f x := by rw [State.heard, State.nakOf_none h.noNak]
  generalize (s.countFec p x).goodFlit p false = u at *
  have hctrl : u.reg rPfSyncCtrl = s.reg rPfSyncCtrl := hu.wired.regs _ (not_heardReg (by decide) (by decide) p)
  obtain ⟨steady, hm⟩ := State.measure_locked (s := u) (p := p) (f := f) (x := x) ((State.follows_eq hctrl).trans h.follows)
    (h.parent.trans (congrArg (bitsOf · 1 5) hctrl.symm)) h.fresh ((congrArg (bitsOf · 0 1) hsync).trans hl)
  rw [State.phaseOf_eq (hu.wired.regs _ (rPortLink_not_heard p)) hfab] at hm
  exact ⟨u, steady, hu, hfab, e.trans hm⟩

theorem FromParent.exec_idle (h : FromParent s p q f x) (hd : s.dark = false) :
    exec (.idleFlitReceive p q ⟨f, x⟩) s = .next ((s.heard p f x false).otherFlit p q f) := by
  rw [exec_idleFlitReceive hd, State.rx_good h.up h.mode h.fec h.good]

/-- Within 32/64 slot the lock holds. -/
theorem FromParent.keeps (h : FromParent s p q f x) (w : s.Wf) (hd : s.dark = false) (hl : s.fld rPfSyncStat 0 1 = 1) (h1 : -32 ≤ s.phaseOf p f x)
    (h2 : s.phaseOf p f x ≤ 32) : ∃ t, exec (.idleFlitReceive p q ⟨f, x⟩) s = .next t ∧ t.fld rPfSyncStat 0 1 = 1
      ∧ t.fld rPfSyncStat 8 8 = phaseField (s.phaseOf p f x) ∧ t.fab = { s.fab with steady := t.fab.steady } := by
  obtain ⟨u, steady, hu, hfab, e⟩ := h.measured w hl
  have hh : Heard p x false s (s.heard p f x false) := State.heard_spec w h.noNak (fun _ _ _ _ => ⟨h1, h2⟩) false
  rw [if_neg (by omega)] at e
  have wu : ({ u with fab := { u.fab with steady } } : State).Wf := (Quiet.setFab noReg u _).wf hu.wired.wf
  rw [h.exec_idle hd, hh.otherFlit_free h.free]
  refine ⟨_, rfl, (hh.sync 0 1 (by decide)).trans hl, ?_, ?_⟩
  · rw [e]
    exact (State.fld_setFld_same wu.regs (by decide) ..).trans (Nat.mod_eq_of_lt (phaseField_lt _))
  · rw [e, ← hfab]
    rfl

/-- Beyond 32/64 slot a package in RUN loses its lock and stops. -/
theorem FromParent.loses (h : FromParent s p q f x) (w : s.Wf) (hd : s.dark = false) (hl : s.fld rPfSyncStat 0 1 = 1)
    (hx : s.phaseOf p f x < -32 ∨ 32 < s.phaseOf p f x) (hr : s.running = true) (h0 : s.fld rPfFault 16 1 = 0) (hh : s.ownHalts = []) :
    ∃ t, exec (.idleFlitReceive p q ⟨f, x⟩) s = .next t ∧ t.fld rPfSyncStat 1 1 = 1 ∧ t.bu = 7 ∧ t.fld rPfFault 0 16 = 0x0505 := by
  obtain ⟨u, steady, hu, hfab, e⟩ := h.measured w hl
  rw [if_pos hx] at e
  have wu : ({ u with fab := { u.fab with steady } } : State).Wf := (Quiet.setFab noReg u _).wf hu.wired.wf
  obtain ⟨-, hlost, hb, hcode⟩ := State.loseLock_faults wu (hu.running.trans hr) ((hu.fld_low (by decide) (by decide) ..).trans h0)
    ((hu.ownHalts h.lt).trans hh) (s.phaseOf p f x)
  rw [← e] at hlost hb hcode
  have hstop : (s.heard p f x false).issuing = false := by
    rw [State.issuing, show (s.heard p f x false).running = false by rw [State.running, hb]; rfl, Bool.false_and]
  have hfree : (s.heard p f x false).otherFlit p q f = s.heard p f x false :=
    State.otherFlit_of_free fun hi => by rw [hstop] at hi; cases hi
  rw [h.exec_idle hd, hfree]
  exact ⟨_, rfl, hlost, hb, hcode⟩

/-- A package without lock keeps its parent's announcement for it. -/
theorem FromParent.announces (h : FromParent s p q f x) (w : s.Wf) (hd : s.dark = false) (hl : s.fld rPfSyncStat 0 1 = 0)
    (tm b bs sv : Nat) (tbl : List (Nat × Nat)) : ∃ t, exec (.announceFlitReceive p ⟨⟨q, ⟨f, x⟩⟩, .time tm b bs sv tbl⟩) s = .next t
        ∧ t.fab.parent = some (s.now, .time tm b bs sv tbl) ∧ t.now = s.now ∧ t.beat = s.beat
        ∧ t.fab.beatStart = s.fab.beatStart ∧ t.fab.table = s.fab.table ∧ t.mem = s.mem ∧ t.cores = s.cores := by
  have hh : Heard p x false s (s.heard p f x false) := State.heard_spec w h.noNak (fun _ _ _ h1 => by omega) false
  have hctrl : (s.heard p f x false).reg rPfSyncCtrl = s.reg rPfSyncCtrl := hh.wired.regs _ (not_heardReg (by decide) (by decide) p)
  have e : (s.heard p f x false).announced p (.time tm b bs sv tbl)
      = { s.heard p f x false with fab := { (s.heard p f x false).fab with parent := some (s.now, .time tm b bs sv tbl) } } := by
    rw [← hh.now]
    exact if_pos ⟨(State.follows_eq hctrl).trans h.follows, h.parent.trans (congrArg (bitsOf · 1 5) hctrl.symm), (hh.sync 0 1 (by decide)).trans hl⟩
  rw [exec_announceFlitReceive hd h.up h.mode h.fec h.good, hh.otherFlit_free h.free, e]
  exact ⟨_, rfl, rfl, hh.now, hh.beat, by rw [hh.fab], hh.table, hh.wired.mem, hh.wired.cores⟩

/-- Settles O44: the lock and what it takes over, its loss, and the parent's flits. -/
theorem packTimeLock : Obligations.PackTimeLock := by
  intro phase s w hd parent
  have hparent : ∀ {p q f x}, parent p q f x → FromParent s p q f x := fun ⟨h1, h2, h3, h4, h5, h6, h7, h8, h9, h10⟩ =>
    ⟨h1, h2, h3, h4, h5, h6, h7, h8, h9, h10⟩
  refine ⟨fun hf h1 h2 => ⟨fun t₀ hs ht => ⟨fun he hn => ?_, fun he => ⟨fun hp => ?_, fun at₀ tm b bs sv tbl hp hlt => ?_⟩⟩, fun hs => ?_⟩,
    fun hl hp hr h0 hh => ?_, fun hl hp hr => ?_, fun p q f x h hl => ⟨(hparent h).keeps w hd hl, (hparent h).loses w hd hl⟩,
    fun p q f x tm b bs sv tbl h hl => (hparent h).announces w hd hl tm b bs sv tbl⟩
  · rw [exec_packtimeLock_again hd hf h1 h2 hs ht he hn]
    obtain ⟨honly, hlock, hphase⟩ := State.lockTime_spec w phase
    refine ⟨_, rfl, hlock, hphase, ?_⟩
    have hg : ({ s.fab with everLocked := true, stepNext := false, parent := none, steady := none } : Fab)
        = { s.fab with stepNext := false, parent := none, steady := none } := by rw [← he]
    rw [← hg]
    exact honly.only
  · exact exec_packtimeLock_waits hd hf h1 h2 hs ht he hp
  · rw [exec_packtimeLock_adopts hd hf h1 h2 hs ht he hp]
    have ha := State.adopt_spec w (s.now - at₀) tm b bs sv tbl
    generalize s.adopt (s.now - at₀) (.time tm b bs sv tbl) = u at ha
    obtain ⟨honly, hlock, hphase⟩ := State.lockTime_spec ha.wf phase
    have hframe := honly.only.1
    have hnow : (u.lockTime phase).now = tm + (s.now - at₀) := by
      rw [State.now, honly.reg (by decide)]
      exact ha.now.trans (Nat.mod_eq_of_lt hlt)
    have hbeat : (u.lockTime phase).beat = u.beat := honly.fld (by decide) ..
    refine ⟨_, rfl, hlock, hphase, hnow, by rw [hframe]; exact ha.table, by rw [hframe], by rw [hframe], by rw [hframe], by rw [hframe], ?_, ?_, ?_, ?_, ?_⟩
    · rw [hnow, hframe]; exact ha.interval
    · rw [hnow, hbeat]
      intro h48 h1 h2
      obtain ⟨k1, k2⟩ := ha.beat h48 h1 h2
      exact ⟨k1, by rw [hframe]; exact k2⟩
    · rw [hframe, ha.frame]
    · rw [hframe, ha.frame]
    · rw [hframe, ha.frame]
  · have hnone : s.fab.steady.any (fun t => decide (t + 256 ≤ s.now)) = false := by
      cases hst : s.fab.steady with
      | none => rfl
      | some t₀ =>
        rw [hst, Option.all_some, decide_eq_true_eq] at hs
        exact decide_eq_false (by omega)
    rw [exec_packtimeLock hd hf h1 h2, hnone]
    rfl
  · rw [exec_packtimeLockLost hd hl hp]
    exact ⟨_, rfl, State.loseLock_faults w hr h0 hh phase⟩
  · obtain ⟨u, -, hregs, hlock, hlost, e⟩ := State.loseLock_spec w phase
    rw [exec_packtimeLockLost hd hl hp, e, if_neg (by simp [hr])]
    exact ⟨u, rfl, hlock, hlost, hregs⟩

end Sys2Proof.Machine
end

section
/-! SUPPORT. NAKs, re-sends and their spares (R258, R259). -/

namespace Sys2Proof.Machine
open Sys2Proof

-- Proofs elaborated in threads of their own would pass the check's limit of memory.
set_option Elab.async false

variable {s t u : State} {p q sp stamp : Nat} {x : SentFlit} {f : Flit} {rest : List (Nat × Nat)}

/-! ### The flit that a NAK names -/

theorem spareFrom_bounds (q : Nat) : q ≤ spareFrom q ∧ spareFrom q < q + 16 ∧ isSpare (spareFrom q) = true := by
  unfold spareFrom isSpare
  refine ⟨by omega, by omega, ?_⟩
  rw [beq_iff_eq]
  omega

/-- A NAK that names a DATA flit still kept. -/
theorem State.sentIn_kept (hs : (s.port p).sent = [x]) (ht : x.time % 2 ^ 12 = stamp % 2 ^ 12) (hn : s.nakable p x = true) :
    s.sentIn p stamp = some x := by
  unfold State.sentIn
  dsimp only
  rw [hs, List.reverse_singleton, List.find?_singleton, if_pos (by rw [ht, hn, beq_self_eq_true]; rfl)]

/-- The flit's eligible point has passed: its slot carried DATA, which is not the IDLE of a slot with nothing else in it. -/
theorem State.sentIn_late (hs : (s.port p).sent = [x]) (hn : s.nakable p x = false) (ht : s.stampTime stamp = x.time)
    (hq : s.slotOf x.time = some x.slot) : s.sentIn p stamp = none := by
  unfold State.sentIn
  dsimp only
  rw [hs, List.reverse_singleton, List.find?_singleton, if_neg (by simp [hn]), ht, hq]
  dsimp only
  rw [if_pos]
  simp

/-- The flit of a slot at pack time `t` with no DATA in it: the announcement `o`, or IDLE, which is IDLE_HOLD while `hold` (R258). -/
def idleFlit (hold : Bool) (o : Option (Nat × Announce)) (t q : Nat) : SentFlit :=
  let f : Flit := { type := if hold then 3 else 0, resend := false, last := false, stream := 0, hop := 0
                    sendStamp := t % 2 ^ 24, nakValid := false, nakStamp := 0, seq := 0, payload := pad224 [] }
  match o with
  | some e => { time := t, slot := q, flit := { f with type := 4 }, ann := some e.2 }
  | none => { time := t, slot := q, flit := f }

theorem idleFlit_spec (hold : Bool) (o : Option (Nat × Announce)) (t q : Nat) : (idleFlit hold o t q).slot = q ∧ (idleFlit hold o t q).time = t
    ∧ (idleFlit hold o t q).ann = o.map (·.2)
    ∧ (idleFlit hold o t q).flit.type = (if (idleFlit hold o t q).ann.isSome = true then 4 else if hold = true then 3 else 0) := by
  cases o with
  | none => exact ⟨rfl, rfl, rfl, rfl⟩
  | some e => exact ⟨rfl, rfl, rfl, rfl⟩

/-- What the port sent in slot `q`, which the NAK names and in which it sent no DATA. -/
def State.idleSent (s : State) (p stamp q : Nat) : SentFlit :=
  idleFlit s.fab.idleHold ((s.port p).annSent.find? (fun e => e.1 == s.stampTime stamp)) (s.stampTime stamp) q

theorem State.sentIn_idle (hs : (s.port p).sent = []) (hf : (s.port p).failedTx = []) (hst : (s.port p).stops = [])
    (hc : s.stampTime stamp < (s.port p).carried) (hq : s.slotOf (s.stampTime stamp) = some q)
    (hn : s.now < s.packOf (q + 2 * s.lambda p + 3)) : s.sentIn p stamp = some (s.idleSent p stamp q) := by
  obtain ⟨hslot, -⟩ := idleFlit_spec s.fab.idleHold ((s.port p).annSent.find? (fun e => e.1 == s.stampTime stamp)) (s.stampTime stamp) q
  have hplan : s.txPlan p = [] := by rw [State.txPlan, hf, List.zip_nil_left]
  have hnot : ∀ {c : Bool}, c = true → ¬ (!c) = true := by rintro _ rfl; decide
  have hnak : s.nakable p (s.idleSent p stamp q) = true := by
    rw [State.nakable, State.idleSent, hslot]; exact decide_eq_true hn
  unfold State.sentIn
  dsimp only
  rw [hs, List.reverse_nil, List.find?_nil, hq]
  dsimp only
  rw [hplan, hf, hst, if_neg]
  · rfl
  · simp only [List.any_nil, Bool.or_false, List.isEmpty_nil, Bool.not_true, Bool.or_eq_true, decide_eq_true_eq, not_or]
    exact ⟨by omega, hnot hnak⟩

/-! ### A NAK -/

theorem exec_nakReceive (hd : s.dark = false) (hi : s.issuing = true) (hu : s.portUp p = true) (stamp : Nat) :
    exec (.nakReceive p stamp) s = .next (s.nakArrives p stamp) :=
  (whenLive_of_live hd fun s => if s.issuing && s.portUp p then s.nakArrives p stamp else s).trans (by rw [hi, hu]; rfl)

/-- The first flit that has failed takes its place among the failed flits. -/
theorem State.nakArrives_first (hx : s.sentIn p stamp = some x) (hf : (s.port p).failedTx = []) :
    s.nakArrives p stamp = s.setPort p { s.port p with failedTx := [(x.slot, x, false)] } := by
  unfold State.nakArrives
  dsimp only
  rw [hx, hf]
  rfl

theorem State.nakArrives_again (hx : s.sentIn p stamp = some x) (hf : (s.port p).failedTx.any (fun e => e.1 == x.slot) = true) :
    s.nakArrives p stamp = s := by
  unfold State.nakArrives
  dsimp only
  rw [hx]
  exact if_pos hf

theorem State.nakArrives_none (hx : s.sentIn p stamp = none) : s.nakArrives p stamp = s := by
  unfold State.nakArrives
  dsimp only
  rw [hx]

/-- The one failed flit is re-sent in the first spare from its eligible point on. -/
theorem State.resends_one (hf : (s.port p).failedTx = [(q, x, false)]) : s.resends p = [(spareFrom (q + 2 * s.lambda p + 3), x)] := by
  rw [State.resends, State.txPlan, hf, List.map_singleton, spareList_one]
  rfl

/-! ### Pack time comes to a spare -/

section
variable (w : s.Wf)
include w

theorem State.advanceTo_packOf (b q : Nat) : (s.advanceTo b).packOf q = s.packOf q := by
  have h := State.advanceTo_wired w b
  refine State.packOf_eq (h.beat (by decide)) ?_ ?_ h.stp q
  · rw [State.advanceTo_fab]
  · rw [State.stretchTable, State.advanceTo_fab]; rfl

/-- What the sender's spare begins with: its pack time has come, and the failed flit is dealt with. -/
theorem State.txDone_spec (p b q : Nat) : Wired [rPfPackTime] s ((s.advanceTo b).txDone p q)
    ∧ (((s.advanceTo b).txDone p q).port p).failedTx = (s.port p).failedTx.map (fun e => if e.1 = q then (e.1, e.2.1, true) else e)
    ∧ (((s.advanceTo b).txDone p q).port p).stops = ((s.advanceTo b).port p).stops
    ∧ (∀ t, b ≤ t → (((s.advanceTo b).txDone p q).port p).nakAt t = (s.port p).nakAt t)
    ∧ ((s.advanceTo b).txDone p q).fab = s.fab := by
  have ha := State.advanceTo_wired w b
  have hp := State.advanceTo_passed w b p
  have hport := ha.wf.port_setPort_same p { (s.advanceTo b).port p with
    failedTx := ((s.advanceTo b).port p).failedTx.map (fun e => if e.1 = q then (e.1, e.2.1, true) else e)
    sent := ((s.advanceTo b).port p).sent.filter (fun x => x.slot != q) }
  unfold State.txDone
  dsimp only
  refine ⟨ha.setPort .., ?_, ?_, fun t ht => ?_, s.advanceTo_fab b⟩
  · rw [hport, hp.same]
  · rw [hport]
  · rw [hport]; exact hp.nakAt t ht

end

/-! ### A re-send goes out -/

/-- The flit of a re-send, with the NAK that is due in its slot. -/
theorem State.putFlit_spec (w : s.Wf) (p q : Nat) (f : Flit) : Wired [] s (s.putFlit p q f) ∧ (s.putFlit p q f).fab = s.fab
    ∧ (s.putFlit p q f).outbox = s.outbox ++ [.flit p q (Flit.sealed { f with
        nakValid := ((s.port p).nakAt (s.packOf q)).isSome, nakStamp := ((s.port p).nakAt (s.packOf q)).getD 0 })]
    ∧ (s.putFlit p q f).port p = { s.port p with carried := max (s.port p).carried (s.packOf q + 1) } := by
  refine ⟨((Wired.refl w _).setPort ..).emit _, rfl, ?_, w.port_setPort_same ..⟩
  unfold State.putFlit
  dsimp only
  cases (s.port p).nakAt (s.packOf q) with
  | none => rfl
  | some n => rfl

theorem State.resendIn_flit (hx : x.ann = none) : s.resendIn p sp x = s.putFlit p sp { x.flit with resend := true } := by
  unfold State.resendIn
  rw [hx]

theorem State.resendIn_ann {a : Announce} (hx : x.ann = some a) : s.resendIn p sp x
    = (s.setPort p { s.port p with carried := max (s.port p).carried (s.packOf sp + 1) }).emit
      (.annAgain p (s.packOf sp) (x.time % 2 ^ 24) ((s.port p).nakAt (s.packOf sp)) a) := by
  unfold State.resendIn
  rw [hx]

/-- A re-send leaves with RESEND, or the announcement again. -/
theorem State.resendIn_spec (w : s.Wf) (p sp : Nat) (x : SentFlit) : Wired [] s (s.resendIn p sp x)
    ∧ (x.ann = none → (s.resendIn p sp x).outbox.getLast? = some (.flit p sp (Flit.sealed { x.flit with
        resend := true, nakValid := ((s.port p).nakAt (s.packOf sp)).isSome, nakStamp := ((s.port p).nakAt (s.packOf sp)).getD 0 })))
    ∧ (∀ a, x.ann = some a → (s.resendIn p sp x).outbox.getLast?
        = some (.annAgain p (s.packOf sp) (x.time % 2 ^ 24) ((s.port p).nakAt (s.packOf sp)) a))
    ∧ ((s.resendIn p sp x).port p).failedTx = (s.port p).failedTx := by
  cases hx : x.ann with
  | none =>
    obtain ⟨hw, -, hout, hport⟩ := State.putFlit_spec w p sp { x.flit with resend := true }
    rw [State.resendIn_flit hx]
    exact ⟨hw, fun _ => by rw [hout, List.getLast?_concat], fun a ha => absurd ha nofun, (congrArg PortSt.failedTx hport).trans rfl⟩
  | some a =>
    rw [State.resendIn_ann hx]
    refine ⟨((Wired.refl w _).setPort ..).emit _, fun ha => absurd ha nofun, fun b hb => ?_,
      (congrArg PortSt.failedTx (w.port_setPort_same p _)).trans rfl⟩
    obtain rfl := Option.some.inj hb
    exact List.getLast?_concat ..

/-- A re-send in its spare. -/
theorem exec_resendSpare (w : s.Wf) (hd : s.dark = false) (hi : s.issuing = true) (hu : s.portUp p = true) {rest : List (Nat × SentFlit)}
    (hr : s.resends p = (sp, x) :: rest) (hs : (s.port p).stops = []) (hn : s.anyWaits = false) :
    exec (.resendSpare p) s = .next ((((s.advanceTo (s.packOf sp)).txDone p x.slot).addFld (rPortErr p) 16 16 1).resendIn p sp x)
      ∧ Wired [rPfPackTime, rPortErr p] s ((((s.advanceTo (s.packOf sp)).txDone p x.slot).addFld (rPortErr p) 16 16 1).resendIn p sp x) := by
  obtain ⟨hw, -, hstops, -, -⟩ := State.txDone_spec w p (s.packOf sp) x.slot
  have hs' := (State.advanceTo_passed w (s.packOf sp) p).stops hs
  have e : exec (.resendSpare p) s = .next (State.settle (if (((s.advanceTo (s.packOf sp)).txDone p x.slot).issuing
      && ((s.advanceTo (s.packOf sp)).txDone p x.slot).portUp p && (((s.advanceTo (s.packOf sp)).txDone p x.slot).port p).stops.isEmpty) = true
      then (((s.advanceTo (s.packOf sp)).txDone p x.slot).addFld (rPortErr p) 16 16 1).resendIn p sp x
      else (s.advanceTo (s.packOf sp)).txDone p x.slot)) := by
    show execResendSpare p s = _
    rw [execResendSpare, whenTimed_of_live hd, hr]
  rw [hstops, hs'] at e
  generalize (s.advanceTo (s.packOf sp)).txDone p x.slot = u at *
  have hadd : Wired [rPfPackTime, rPortErr p] s (u.addFld (rPortErr p) 16 16 1) := (hw.mono (by simp)).addFld (by simp) ..
  have hall : Wired [rPfPackTime, rPortErr p] s ((u.addFld (rPortErr p) 16 16 1).resendIn p sp x) :=
    hadd.trans ((State.resendIn_spec hadd.wf p sp x).1.mono (List.nil_subset _))
  rw [hw.issuing (by decide), hi, hw.portUp (by simp [(rPort_ne_packTime p).2.1]), hu, if_pos (by decide), hall.settle hn] at e
  exact ⟨e, hall⟩

/-! ### Overruns and exhaustion -/

/-- A fault of a spare whose pack time has come. -/
theorem State.spareFault (hi : s.issuing = true) (hf : s.fld rPfFault 16 1 = 0) (hh : s.ownHalts = [])
    {u : State} (hu : Wired [rPfPackTime] s u) {reason : Nat} (hx : reason < 2 ^ 16) :
    (u.raise reason 1 p).settle.bu = 7 ∧ (u.raise reason 1 p).settle.fld rPfFault 0 16 = reason ∧ (u.raise reason 1 p).settle.mem = s.mem := by
  obtain ⟨hb, hcode, hmem⟩ := State.raise_first hu.wf ((hu.running (by decide)).trans (State.running_of_issuing hi)) ((hu.fld (by decide) ..).trans hf)
    ((hu.ownHalts (by decide)).trans hh) hx 1 p
  have hstop : (u.raise reason 1 p).issuing = false := by
    rw [State.issuing, show (u.raise reason 1 p).running = false by rw [State.running, hb]; rfl, Bool.false_and]
  rw [State.settle_of_stopped hstop]
  exact ⟨hb, hcode, hmem.trans hu.mem⟩

theorem exec_retryOverrun (hd : s.dark = false) (hr : s.overruns p = (sp, q) :: rest) :
    exec (.retryOverrun p) s = .next (((s.advanceTo (s.packOf sp)).txDone p q).raise cRetryOverrun 1 p).settle := by
  show execRetryOverrun p s = _
  rw [execRetryOverrun, whenTimed_of_live hd, hr]

theorem exec_retryExhausted_none (hd : s.dark = false) (hr : s.expects p = (sp, q) :: rest) :
    exec (.retryExhausted p none) s = .next (((s.advanceTo (s.packOf sp)).rxDone p q).raise cRetryExhausted 1 p).settle := by
  show execRetryExhausted p none s = _
  rw [execRetryExhausted, whenTimed_of_live hd, hr]
  rfl

theorem exec_retryExhausted_some (w : s.Wf) (hd : s.dark = false) (hr : s.expects p = (sp, q) :: rest) (hg : f.good = true) (hre : f.resend = true)
    (hs : f.sendStamp % 2 ^ 24 = s.packOf q % 2 ^ 24) : exec (.retryExhausted p (some f)) s = .next (s.advanceTo (s.packOf sp)).settle := by
  show execRetryExhausted p (some f) s = _
  rw [execRetryExhausted, whenTimed_of_live hd, hr]
  dsimp only
  rw [State.advanceTo_packOf w, hg, hre, hs, beq_self_eq_true]
  rfl

/-- Settles O39: the failed flit and its spare, then what each side does in the spare. -/
theorem retryAssignsSpares : Obligations.RetryAssignsSpares := by
  intro p s w hd hi hu
  simp only [exec_nakReceive hd hi hu]
  refine ⟨fun x stamp hs ht => ⟨fun hn hf => ?_, fun hn hf => ?_, fun hn h1 h2 => ?_⟩, fun q stamp hs hf hst hc hq hn => ?_,
    fun sp x rest hr hs hn => ?_, fun sp q rest hr hf hh => ?_, fun sp q rest hr => ⟨fun hf hh => ?_, fun f hg _ hre hst hn => ?_⟩⟩
  · have hport := w.port_setPort_same p { s.port p with failedTx := [(x.slot, x, false)] }
    rw [State.nakArrives_first (State.sentIn_kept hs ht hn) hf]
    have hspare := State.resends_one (s := s.setPort p { s.port p with failedTx := [(x.slot, x, false)] }) (congrArg PortSt.failedTx hport)
    obtain ⟨h1, h2, h3⟩ := spareFrom_bounds (x.slot + 2 * s.lambda p + 3)
    exact ⟨_, _, rfl, hport, hspare, h1, h2, h3, rfl⟩
  · rw [State.nakArrives_again (State.sentIn_kept hs ht hn) hf]
  · rw [State.nakArrives_none (State.sentIn_late hs hn h1 h2)]
  · rw [State.nakArrives_first (State.sentIn_idle hs hf hst hc hq hn) hf]
    obtain ⟨h1, h2, h3, h4⟩ := idleFlit_spec s.fab.idleHold ((s.port p).annSent.find? (fun e => e.1 == s.stampTime stamp)) (s.stampTime stamp) q
    exact ⟨_, s.idleSent p stamp q, rfl, rfl, by rw [w.port_setPort_same, State.idleSent, h1], h1, h2, h3, h4⟩
  · obtain ⟨e, hall⟩ := exec_resendSpare w hd hi hu hr hs hn
    obtain ⟨hw, hfailed, -, hnak, hfab⟩ := State.txDone_spec w p (s.packOf sp) x.slot
    rw [e]
    refine ⟨_, rfl, hall.outbox, ?_⟩
    have hmem := hall.mem
    have hcores := hall.cores
    generalize (s.advanceTo (s.packOf sp)).txDone p x.slot = u at *
    obtain ⟨v, hv⟩ : ∃ v, v = u.addFld (rPortErr p) 16 16 1 := ⟨_, rfl⟩
    have huv : OnRegs [rPortErr p] u v := hv ▸ (OnRegs.refl hw.wf _).addFld (by simp)
    have herr : v.fld (rPortErr p) 16 16 = min (2 ^ 16 - 1) (s.fld (rPortErr p) 16 16 + 1) := by
      rw [hv, State.addFld, State.fld_setFld_same hw.wf.regs (by decide), satAdd, hw.fld (by simp [(rPort_ne_packTime p).2.2.2])]
      omega
    have hbeat : rPfBeat ≠ rPortErr p := fun e => not_portReg (r := rPfBeat) (by decide) p (by simp [e])
    have hport : v.port p = u.port p := by rw [hv]; rfl
    have hpack : v.packOf sp = s.packOf sp := by
      refine State.packOf_eq ((huv.wired.beat (by simpa using hbeat)).trans (hw.beat (by decide))) ?_ ?_ (huv.wired.stp.trans hw.stp) sp
      · rw [hv]; exact congrArg Fab.beatStart hfab
      · rw [hv]; exact congrArg (fun g : Fab => g.table ++ g.past) hfab
    obtain ⟨hres, hflit, hann, hport'⟩ := State.resendIn_spec huv.wf p sp x
    rw [hport, hpack, hnak _ le_rfl] at hflit hann
    rw [← hv] at hmem hcores ⊢
    refine ⟨hflit, hann, ?_, (hres.fld List.not_mem_nil ..).trans herr, hmem, hcores⟩
    rw [hport', hport, hfailed]
  · rw [exec_retryOverrun hd hr]
    exact ⟨_, rfl, State.spareFault hi hf hh (State.txDone_spec w p (s.packOf sp) q).1 (by decide)⟩
  · rw [exec_retryExhausted_none hd hr]
    exact ⟨_, rfl, State.spareFault hi hf hh ((State.advanceTo_wired w _).setPort ..) (by decide)⟩
  · have ha := State.advanceTo_wired w (s.packOf sp)
    rw [exec_retryExhausted_some w hd hr hg hre hst, ha.settle hn]
    exact ⟨_, rfl, s.advanceTo_frame _, ha.outbox, fun r hr' => ha.regs r (by simpa using hr')⟩

end Sys2Proof.Machine
end

section
/-! SUPPORT. Delivery of held flits to their endpoints (R253, R278, R280, R282; O40). -/

namespace Sys2Proof.Machine
open Sys2Proof

-- Proofs elaborated in threads of their own would pass the check's limit of memory.
set_option Elab.async false

variable {s t u : State} {k seq stack : Nat} {h : Held} {c : Stream}

/-! ### A held flit is taken at its slot -/

/-- A held flit's slot has come: pack time passes to it, and the flit is held no more. -/
def State.takeHeld (s : State) (h : Held) : State :=
  let a := s.advanceTo (s.packOf h.due)
  { a with fab := { a.fab with held := a.fab.held.erase h } }

theorem State.takeHeld_spec (w : s.Wf) (h : Held) : Wired [rPfPackTime] s (s.takeHeld h)
    ∧ (s.takeHeld h).fab = { s.fab with held := s.fab.held.erase h } := by
  refine ⟨(State.advanceTo_wired w _).setFab _, ?_⟩
  rw [State.takeHeld, State.advanceTo_fab]

/-- Nothing follows where no core's window or end has changed and none waits. -/
theorem State.settle_sameWindows (hj : t.job = s.job) (hw : ∀ n, (t.core n).window = (s.core n).window ∧ (t.core n).ending = (s.core n).ending)
    (hn : s.anyWaits = false) : t.settle = t := by
  have hu : t.used = s.used := by rw [State.used, hj]; rfl
  have : t.anyWaits = false := by
    rw [← hn]
    simp only [State.anyWaits, hu, (hw _).1, (hw _).2]
  rw [State.settle, this, Bool.and_false]
  exact if_neg (by decide)

/-- Nothing follows where a core has changed, but for its window and end. -/
theorem Wired.settle_setCore {R : List Nat} (h : Wired R s t) {n : Nat} {x : CoreSt}
    (hx : x.window = (s.core n).window ∧ x.ending = (s.core n).ending) (hn : s.anyWaits = false) : (t.setCore n x).settle = t.setCore n x := by
  refine State.settle_sameWindows (s := s) h.job (fun k => ?_) hn
  rw [State.core_setCore h.wf.cores]
  split
  · next hk => rw [hk]; exact hx
  · rw [h.core]; exact ⟨rfl, rfl⟩

/-- Nothing follows where the cores and the job are as before. -/
theorem Wired.settle_cores {R : List Nat} (h : Wired R s t) (hj : u.job = t.job) (hc : u.cores = t.cores) (hn : s.anyWaits = false) :
    u.settle = u := by
  refine State.settle_sameWindows (s := s) (hj.trans h.job) (fun n => ?_) hn
  rw [State.core, hc, h.cores]
  exact ⟨rfl, rfl⟩

theorem exec_flitDelivery (hd : s.dark = false) (hi : s.issuing = true) (hc : s.stream? h.stream = some c)
    (hf : s.fab.held.find? (fun x => x.stream == k && x.seq == seq && x.atEndpoint) = some h) (w : s.Wf) :
    exec (.flitDelivery k seq) s = .next ((s.takeHeld h).toEndpoint h c).settle := by
  show execFlitDelivery k seq s = _
  rw [execFlitDelivery, whenTimed_of_live hd, if_pos hi, State.flitDeliver, hf]
  dsimp only
  rw [State.handOver, (State.advanceTo_wired w _).stream?, hc]
  rfl

/-! ### The four kinds of endpoint -/

/-- The slot to which the delivery buffer binds a TRANSFER flit (Table 1.5). -/
def Held.boundTo (h : Held) (c : Stream) (slot : Nat) : Prop :=
  (h.kind = .onPkg ∧ slot = h.due) ∨ ∃ port linkNo, h.kind = .link port linkNo ∧ slot = h.due + edgeBound (portHalf port) (coreHalf c.dst)

theorem State.toEndpoint_transfer (hk : c.kind = 1) {slot : Nat} (hs : h.boundTo c slot) : s.toEndpoint h c
    = if (s.core c.dst).dlvFull then s
      else s.setCore c.dst { s.core c.dst with dlv := (s.core c.dst).dlv ++ [⟨h.stream, h.seq, slot, h.payload⟩] } := by
  rw [State.toEndpoint, if_pos hk]
  rcases hs with ⟨hkind, rfl⟩ | ⟨p, n, hkind, rfl⟩ <;> rw [hkind]

theorem State.toEndpoint_place (hk : c.kind = 2) : s.toEndpoint h c
    = { s with fab := { s.fab with held := s.fab.held ++ [{ h with due := h.due + 30, kind := .place }] } } := by
  rw [State.toEndpoint, if_neg (by omega), if_pos hk]

theorem State.toEndpoint_reduce (hk : c.kind = 3) : s.toEndpoint h c = s.holdReduce { h with due := h.due + 30 } c := by
  rw [State.toEndpoint, if_neg (by omega), if_neg (by omega), if_pos hk]

theorem State.toEndpoint_collective (hk : 4 ≤ c.kind) {width : Nat}
    (hw : ∀ i j, s.inst? c.dst = some i → s.job = some j → width = j.collWidth i) (hw1 : s.inst? c.dst = none → width = 1) :
    s.toEndpoint h c = s.contributeVals c.dst (if h.last then some h.stream else none) (collParse width h.stream h.seq h.payload) := by
  rw [State.toEndpoint, if_neg (by omega), if_neg (by omega), if_neg (by omega)]
  cases hi : s.inst? c.dst with
  | none => rw [hw1 hi]
  | some i =>
    cases hj : s.job with
    | none => simp [State.inst?, hj] at hi
    | some j => rw [hw i j hi hj]

/-! ### Contributions to a reduction unit -/

theorem State.redTarget_of (hj : t.job = s.job) (c : Stream) : t.redTarget c = s.redTarget c := by rw [State.redTarget, hj]; rfl

theorem State.redElems_of (hj : t.job = s.job) (hst : t.stp = s.stp) (c : Stream) (seq : Nat) : t.redElems c seq = s.redElems c seq := by
  simp only [State.redElems, State.redTarget_of hj, State.readSlot, hst]

theorem State.mem_redStacks {x : Nat} : x ∈ ((s.redElems c seq).map (fun p => p.2 / stackBytes)).eraseDups ↔ 0 < s.redCount c seq x := by
  rw [List.mem_eraseDups, State.redCount, List.length_pos_iff_exists_mem, List.mem_map]
  simp only [List.mem_filter, beq_iff_eq]

/-- Every unit of a list takes the flit, and its backlog is noted. -/
theorem State.holdIn_spec (w : s.Wf) (h : Held) (l : List Nat) :
    let t := l.foldl (fun s k =>
      ({ s with fab := { s.fab with held := s.fab.held ++ [{ h with kind := .reduce k }] } } : State).backlog k) s
    Wired [rPfRedStat] s t ∧ t.fab = { s.fab with held := s.fab.held ++ l.map (fun k => { h with kind := .reduce k }) } := by
  induction l generalizing s with
  | nil => exact ⟨.refl w _, by simp⟩
  | cons k l ih =>
    have hk : Wired [rPfRedStat] s (({ s with fab := { s.fab with held := s.fab.held ++ [{ h with kind := .reduce k }] } } : State).backlog k) :=
      ((Wired.refl w _).setFab _).setFld (by simp) ..
    obtain ⟨hw, hf⟩ := ih hk.wf
    refine ⟨hk.trans hw, hf.trans ?_⟩
    show Fab.mk .. = Fab.mk ..
    simp [State.backlog, State.setFld, State.setReg]

theorem State.holdReduce_spec (w : s.Wf) (h : Held) (c : Stream) : Wired [rPfRedStat] s (s.holdReduce h c)
    ∧ (s.holdReduce h c).fab = { s.fab with held := s.fab.held
        ++ ((s.redElems c h.seq).map (fun p => p.2 / stackBytes)).eraseDups.map (fun k => { h with kind := .reduce k }) } :=
  State.holdIn_spec w h _

/-- The units that have taken a flit are those that its elements lie in. -/
theorem State.mem_reduceParts {x : Nat} : { h with kind := .reduce x }
    ∈ ((s.redElems c seq).map (fun p => p.2 / stackBytes)).eraseDups.map (fun k => ({ h with kind := .reduce k } : Held))
      ↔ 0 < s.redCount c seq x := by
  rw [List.mem_map, ← State.mem_redStacks]
  constructor
  · rintro ⟨k, hk, he⟩
    cases he
    exact hk
  · exact fun hx => ⟨x, hx, rfl⟩

/-- A flit at its endpoint lies in no unit yet. -/
theorem Held.ne_reduce (ha : h.atEndpoint = true) (due x : Nat) : ({ h with due, kind := .reduce x } : Held) ≠ h := fun e => by
  rw [← e] at ha
  exact Bool.false_ne_true ha

/-! ### Values of a collective -/

theorem State.coll_id (s : State) (id : Nat) : (s.coll id).id = id := by
  unfold State.coll
  cases hf : s.fab.colls.find? (fun c => c.id == id) with
  | none => rfl
  | some x => simpa using List.find?_some hf

theorem State.coll_setColl (s : State) {x : CollSt} {id : Nat} (hx : x.id = id) : (s.setColl x).coll id = x := by
  subst hx
  have : (s.fab.colls.filter (fun y => y.id != x.id)).find? (fun y => y.id == x.id) = none := by
    simp
  show ((s.fab.colls.filter (fun y => y.id != x.id) ++ [x]).find? (fun y => y.id == x.id)).getD _ = x
  rw [List.find?_append, this]
  simp

theorem State.contributeVals_vals (s : State) (id : Nat) (o : Option Nat) (vs : List CVal) :
    ((s.contributeVals id o vs).coll id).vals = vs.foldl mergeVal (s.coll id).vals := by
  unfold State.contributeVals
  rw [State.coll_setColl]
  exact State.coll_id s id

theorem State.contributeVals_wired (w : s.Wf) (id : Nat) (o : Option Nat) (vs : List CVal) : Wired [] s (s.contributeVals id o vs) :=
  (Wired.refl w _).setFab _

/-! ### A PLACE flit in memory -/

theorem length_pad224 (bs : List Byte) : (pad224 bs).length = 224 := by
  simp only [pad224, List.length_append, List.length_take, List.length_replicate]; omega

/-- Noting the noseprints of written shards changes what the step has measured, and nothing else. -/
theorem State.reprint_eq (s : State) (a n : Nat) : ∃ x, s.reprint a n = { s with stp := x } := by
  unfold State.reprint
  split
  · exact ⟨s.stp, rfl⟩
  · refine List.foldlRecOn (motive := fun t => ∃ x, t = { s with stp := x }) _ _ ⟨s.stp, rfl⟩ fun t ht x _ => ?_
    split
    · exact ht
    · refine List.foldlRecOn (motive := fun t => ∃ x, t = { s with stp := x }) _ _ ht fun t ht sh _ => ?_
      refine List.foldlRecOn (motive := fun t => ∃ x, t = { s with stp := x }) _ _ ht fun t ht v _ => ?_
      obtain ⟨y, rfl⟩ := ht
      split
      · split
        · unfold State.notePrint State.bindScale
          split <;> exact ⟨_, rfl⟩
        · exact ⟨y, rfl⟩
      · exact ⟨y, rfl⟩

theorem State.badPart_of (hb : t.bad = s.bad) (hf : t.failing = s.failing) (a n : Nat) : t.badPart a n = s.badPart a n := by
  rw [State.badPart, State.badPart]
  congr 1
  funext b
  rw [State.blocked, State.blocked, hb, hf]

theorem State.placeArrive_clean (hb : s.badPart (c.dstAddr + 224 * h.seq) 224 = none) : s.placeArrive h c
    = (s.store (c.dstAddr + 224 * h.seq) (pad224 h.payload)).reprint (c.dstAddr + 224 * h.seq) 224 := by
  simp only [State.placeArrive, State.storeParts, length_pad224, hb]

theorem exec_placeDelivery (hd : s.dark = false) (hc : s.stream? k = some c)
    (hf : s.fab.held.find? (fun x => x.kind == .place && x.stream == k && x.seq == seq) = some h) :
    exec (.placeDelivery k ⟨seq, { }⟩) s = .next ((s.takeHeld h).placeArrive h c).settle := by
  show execPlaceDelivery k ⟨seq, { }⟩ s = _
  rw [execPlaceDelivery, whenTimed_of_live hd]
  simp only [hf, hc]
  rfl

theorem State.byte_store_apart (hm : mapWf memDefault s.mem) {a y : Nat} {bs : List Byte} (hy : y < a ∨ a + bs.length ≤ y) :
    (s.store a bs).byte y = s.byte y := by
  rw [State.byte_store hm, if_neg (by omega)]

/-- A PLACE flit that no block is in the way of is in memory at its place, and nowhere else. -/
theorem placeDelivery_writes (w : s.Wf) (hd : s.dark = false) (hn : s.anyWaits = false) (hc : s.stream? k = some c)
    (hf : s.fab.held.find? (fun x => x.kind == .place && x.stream == k && x.seq == seq) = some h)
    (hbad : s.badPart (c.dstAddr + 224 * h.seq) 224 = none) :
    ∃ t, exec (.placeDelivery k ⟨seq, { }⟩) s = .next t ∧ t.fab.held = s.fab.held.erase h ∧ t.cores = s.cores
      ∧ t.load (c.dstAddr + 224 * h.seq) 224 = pad224 h.payload
      ∧ ∀ y, y < c.dstAddr + 224 * h.seq ∨ c.dstAddr + 224 * h.seq + 224 ≤ y → t.byte y = s.byte y := by
  obtain ⟨hb, hbf⟩ := State.takeHeld_spec w h
  have hex := exec_placeDelivery hd hc hf
  generalize s.takeHeld h = b at hb hbf hex
  rw [State.placeArrive_clean (by rw [State.badPart_of hb.bad hb.failing, hbad])] at hex
  obtain ⟨x, hx⟩ := State.reprint_eq (b.store (c.dstAddr + 224 * h.seq) (pad224 h.payload)) (c.dstAddr + 224 * h.seq) 224
  rw [hx, hb.settle_cores (by exact rfl) (by exact rfl) hn] at hex
  refine ⟨_, hex, congrArg Fab.held hbf, hb.cores, ?_, fun y hy => ?_⟩
  · have := State.load_store hb.wf.mem (c.dstAddr + 224 * h.seq) (pad224 h.payload)
    rwa [length_pad224] at this
  · refine (State.byte_store_apart hb.wf.mem (by rwa [length_pad224])).trans ?_
    rw [State.byte, hb.mem]
    rfl

/-! ### A reduction unit applies a flit -/

theorem State.load_congr {a n : Nat} (hb : ∀ i < n, t.byte (a + i) = s.byte (a + i)) : t.load a n = s.load a n :=
  List.map_congr_left fun i hi => hb i (List.mem_range.mp hi)

theorem State.load_store_apart (hm : mapWf memDefault s.mem) {a x n : Nat} {bs : List Byte} (hx : x + n ≤ a ∨ a + bs.length ≤ x) :
    (s.store a bs).load x n = s.load x n :=
  State.load_congr fun i hi => State.byte_store_apart hm (by omega)

/-- An element of eight bytes becomes a function of what it held. -/
def State.rewrite8 (F : Nat × Nat → List Byte → List Byte) (s : State) (p : Nat × Nat) : State := s.store p.2 (F p (s.load p.2 8))

/-- Elements that lie apart are rewritten one by one, each from what it held at first. -/
theorem State.rewrite8_all {F : Nat × Nat → List Byte → List Byte} (hF : ∀ p bs, (F p bs).length = 8) (es : List (Nat × Nat))
    (hm : mapWf memDefault s.mem) (hp : es.Pairwise (fun d e => d.2 + 8 ≤ e.2 ∨ e.2 + 8 ≤ d.2)) :
    let t := es.foldl (State.rewrite8 F) s
    (∃ m b, t = { s with mem := m, bad := b }) ∧ (∀ e ∈ es, t.load e.2 8 = F e (s.load e.2 8))
      ∧ ∀ y, (∀ e ∈ es, y < e.2 ∨ e.2 + 8 ≤ y) → t.byte y = s.byte y := by
  induction es generalizing s with
  | nil => exact ⟨⟨s.mem, s.bad, rfl⟩, by simp, fun _ _ => rfl⟩
  | cons d es ih =>
    obtain ⟨hd, hp⟩ := List.pairwise_cons.mp hp
    have hlen := hF d (s.load d.2 8)
    obtain ⟨⟨m, b, hframe⟩, hload, hbyte⟩ := ih (s := s.rewrite8 F d) (State.store_memWf hm ..) hp
    refine ⟨⟨m, b, hframe⟩, fun e he => ?_, fun y hy => ?_⟩
    · rcases List.mem_cons.mp he with rfl | he
      · have h8 : (List.foldl (State.rewrite8 F) (s.rewrite8 F e) es).load e.2 8 = (s.rewrite8 F e).load e.2 8 :=
          State.load_congr fun i hi => hbyte _ fun x hx => by have := hd x hx; omega
        have hs := State.load_store hm e.2 (F e (s.load e.2 8))
        rw [hlen] at hs
        exact h8.trans hs
      · refine (hload e he).trans (congrArg (F e) (State.load_store_apart hm ?_))
        rw [hlen]
        have := hd e he
        omega
    · refine (hbyte y fun e he => hy e (by simp [he])).trans (State.byte_store_apart hm ?_)
      rw [hlen]
      exact hy d (by simp)

/-- What a contribution makes of an element in RBC form. -/
def Stream.addTo (c : Stream) (h : Held) (p : Nat × Nat) (old : List Byte) : List Byte :=
  pairBytes (pairadd (pairOf old) (contribAt (bitsOf c.flags 0 1 == 1) h.payload p.1))

theorem Stream.length_addTo (c : Stream) (h : Held) (p : Nat × Nat) (old : List Byte) : (c.addTo h p old).length = 8 := by
  simp [Stream.addTo, pairBytes]

theorem State.badIn_clean (hb : s.bad = []) (a n : Nat) : s.badIn a n = none := by simp [State.badIn, hb]

theorem State.badPart_clean (hb : s.bad = []) (hf : s.failing = []) (a n : Nat) : s.badPart a n = none := by
  simp [State.badPart, State.blocked, hb, hf]

/-- One contribution of a flit at its element. -/
def State.contributeAt (c : Stream) (h : Held) (r : RedRange) (x : Tensor) (s : State) (p : Nat × Nat) : State :=
  match s.badIn p.2 (elemSize .rbuf x.ns) with
  | some b => s.memFault b
  | none => match s.storeParts p.2 (reduceElem r x.ns c.level (s.load p.2 (elemSize .rbuf x.ns))
      (contribAt (bitsOf c.flags 0 1 == 1) h.payload p.1)) with
    | (some b, s) => s.memFault b
    | (none, s) => s

theorem State.contributeAt_clean (r : RedRange) {x : Tensor} (hns : x.ns = 0) (hb : s.bad = []) (hf : s.failing = []) (p : Nat × Nat) :
    s.contributeAt c h r x p = s.rewrite8 (c.addTo h) p := by
  simp only [State.contributeAt, hns, State.badIn_clean hb, State.storeParts, State.badPart_clean hb hf]
  rfl

/-- Where no block is in the way, a flit's contributions are added one after another. -/
theorem State.reduceFlit_clean {j : Job} {r : RedRange} {x : Tensor} (ht : s.redTarget c = some (j, r, x)) (hns : x.ns = 0) (hb : s.bad = [])
    (hf : s.failing = []) : s.reduceFlit c h stack
      = ((s.redElems c h.seq).filter (fun p => p.2 / stackBytes == stack)).foldl (State.rewrite8 (c.addTo h)) s := by
  rw [State.reduceFlit, ht]
  show List.foldl (State.contributeAt c h r x) s _ = _
  generalize (s.redElems c h.seq).filter _ = es
  clear ht
  induction es generalizing s with
  | nil => rfl
  | cons d es ih =>
    rw [List.foldl_cons, List.foldl_cons, State.contributeAt_clean r hns hb hf]
    exact ih (by simp [State.rewrite8, State.store, hb]) hf

theorem exec_reduceApply (w : s.Wf) (hd : s.dark = false) (hn : s.nextReduce stack = some h) (hc : s.stream? h.stream = some c) :
    exec (.reduceApply ⟨stack, { }⟩) s = .next ((s.takeHeld h).reduceFlit c h stack).settle := by
  show execReduceApply ⟨stack, { }⟩ s = _
  rw [execReduceApply, whenTimed_of_live hd, State.meet, if_pos rfl, State.reduceApply, hn]
  dsimp only
  rw [(State.advanceTo_wired w _).stream?, hc]
  rfl

/-- A reduction unit adds one flit's contributions to the elements they reach, and writes nothing else. -/
theorem reduceApply_adds (w : s.Wf) (hd : s.dark = false) (hn : s.anyWaits = false) (hc : s.stream? h.stream = some c)
    (hnext : s.nextReduce stack = some h) {j : Job} {r : RedRange} {x : Tensor} (htgt : s.redTarget c = some (j, r, x)) (hns : x.ns = 0)
    (hbad : s.bad = []) (hfail : s.failing = []) :
    let es := (s.redElems c h.seq).filter (fun e => e.2 / stackBytes == stack)
    es.Pairwise (fun d e => d.2 + 8 ≤ e.2 ∨ e.2 + 8 ≤ d.2) →
    ∃ t, exec (.reduceApply ⟨stack, { }⟩) s = .next t ∧ t.fab.held = s.fab.held.erase h ∧ t.cores = s.cores
      ∧ (∀ e ∈ es, t.load e.2 8 = c.addTo h e (s.load e.2 8)) ∧ ∀ y, (∀ e ∈ es, y < e.2 ∨ e.2 + 8 ≤ y) → t.byte y = s.byte y := by
  intro es hapart
  obtain ⟨hb, hbf⟩ := State.takeHeld_spec w h
  have hex := exec_reduceApply w hd hnext hc
  generalize s.takeHeld h = b at hb hbf hex
  rw [State.reduceFlit_clean ((State.redTarget_of hb.job c).trans htgt) hns (hb.bad.trans hbad) (hb.failing.trans hfail),
    State.redElems_of hb.job hb.stp] at hex
  change exec _ s = .next (State.settle (es.foldl _ b)) at hex
  obtain ⟨⟨m, bad, hframe⟩, hload, hbyte⟩ := State.rewrite8_all (c.length_addTo h) es hb.wf.mem hapart
  have hmem : ∀ y, b.byte y = s.byte y := fun y => by rw [State.byte, hb.mem]; rfl
  rw [hframe] at hload hbyte hex
  rw [hb.settle_cores (by exact rfl) (by exact rfl) hn] at hex
  refine ⟨_, hex, congrArg Fab.held hbf, hb.cores, fun e he => (hload e he).trans ?_, fun y hy => (hbyte y hy).trans (hmem y)⟩
  rw [State.load_congr (s := s) fun i _ => hmem _]

/-! ### Delivery -/

/-- Settles O40: each endpoint's part by the lemma about it, after the flit has been taken at its slot. -/
theorem deliveryToEndpoints : Obligations.DeliveryToEndpoints := by
  intro k seq h c s w hd hn hc hk hseq moved
  subst hk hseq
  obtain ⟨hb, hbf⟩ := State.takeHeld_spec w h
  generalize hbdef : s.takeHeld h = b at hb hbf
  have hmoved : ∀ {t}, Wired [rPfPackTime, rPfRedStat] s t → moved t := fun {t} ht => by
    refine ⟨?_, ht.outbox, fun r h1 h2 => ht.regs r (by simp [h1, h2])⟩
    rw [ht.frame]
  have hb2 : Wired [rPfPackTime, rPfRedStat] s b := hb.mono (by simp)
  refine ⟨fun hi hf => ?_, fun _ hf hbad => ?_, ?_⟩
  · have hex := exec_flitDelivery hd hi hc hf w
    rw [hbdef] at hex
    refine ⟨fun slot hk hs => ?_, fun hk => ?_, fun hk => ?_, fun width hk hw hw1 => ?_⟩
    · rw [State.toEndpoint_transfer hk hs, hb.core] at hex
      by_cases hfull : (s.core c.dst).dlvFull = true
      · rw [if_pos hfull, hb.settle hn] at hex
        exact ⟨_, hex, hmoved hb2, hbf, fun n _ => hb.core n, (hb.core _).trans (if_pos hfull).symm⟩
      · rw [if_neg hfull, hb.settle_setCore (by exact ⟨rfl, rfl⟩) hn] at hex
        refine ⟨_, hex, ⟨by rw [State.setCore, hb.frame], hb.outbox, fun r h1 _ => hb.regs r (by simpa using h1)⟩, hbf, fun n hne => ?_, ?_⟩
        · rw [State.core_setCore hb.wf.cores, if_neg hne, hb.core]
        · rw [State.core_setCore hb.wf.cores, if_pos rfl, if_neg hfull]
    · rw [State.toEndpoint_place hk] at hex
      have ht := hb2.setFab { b.fab with held := b.fab.held ++ [{ h with due := h.due + 30, kind := .place }] }
      rw [ht.settle hn] at hex
      exact ⟨_, hex, hmoved ht, ht.cores, by rw [hbf]⟩
    · rw [State.toEndpoint_reduce hk] at hex
      obtain ⟨hr, hrf⟩ := State.holdReduce_spec hb.wf { h with due := h.due + 30 } c
      have ht := hb2.trans (hr.mono (by simp))
      rw [ht.settle hn] at hex
      refine ⟨_, hex, hmoved ht, ht.cores, fun x => ?_⟩
      have hfound := List.find?_some hf
      have hend : h.atEndpoint = true := (Bool.and_eq_true_iff.1 hfound).2
      rw [hrf, hbf, List.mem_append, List.mem_erase_of_ne (Held.ne_reduce hend _ x), or_comm]
      refine or_congr_left (State.mem_reduceParts.trans ?_)
      rw [State.redCount, State.redCount, State.redElems_of hb.job hb.stp]
    · rw [State.toEndpoint_collective hk (by rwa [hb.inst?, hb.job]) (by rwa [hb.inst?])] at hex
      have ht := hb2.trans ((State.contributeVals_wired hb.wf c.dst (if h.last then some h.stream else none)
        (collParse width h.stream h.seq h.payload)).mono (by simp))
      rw [ht.settle hn] at hex
      refine ⟨_, hex, hmoved ht, ht.cores, (State.contributeVals_vals ..).trans ?_⟩
      rw [State.coll, State.coll, hbf]
  · exact placeDelivery_writes w hd hn hc hf hbad
  · exact fun stack j r x hnext htgt hns hbad hfail => reduceApply_adds w hd hn hc hnext htgt hns hbad hfail

end Sys2Proof.Machine
end

section
/-! SUPPORT. A SEND of contributions to a range of this package (R278, Table 10.6; O33). -/

namespace Sys2Proof.Machine
open Sys2Proof

-- Proofs elaborated in threads of their own would pass the check's limit of memory.
set_option Elab.async false

/-- Stream 0 of core 1 takes contributions in pairs to range 0 of this package, over no link. -/
def localRedStream : Stream := { (default : Stream) with kind := 3, flags := 1, owner := 1, flits := 1 }

/-- A job with one such stream, whose range 0 is the one element of the gradient. -/
def localRedJob : Job := { oneUpdateJob with streams := [localRedStream], ranges := [⟨1, 0, 0, 1, 0⟩] }

/-- Core 1 runs in a step of that job, and no contribution is pending. -/
def sLocalRed : State :=
  { State.reset with
    regs := [(rBuState, 6), (rCore 1 oState, 2)]
    job := some localRedJob
    stp := { StepSt.reset with started := true, begun := true } }

def localSendAttr : Attr := { core := 1, offset := 64, tag := 7, kind := .xfer, defined := true, engines := 0 }

theorem sLocalRed_wf : sLocalRed.Wf :=
  ⟨by decide +kernel, mapWf_nil, mapWf_nil, mapWf_nil, fun _ h => absurd h List.not_mem_nil, mapWf_nil, mapWf_nil⟩

theorem sLocalRed_ready : sLocalRed.Ready localSendAttr where
  live := by decide
  fetching := by decide
  alone := ⟨rfl, rfl⟩
  settled := ⟨fun _ h => absurd h List.not_mem_nil, fun _ _ => rfl, fun _ _ => rfl, rfl⟩
  unarmed := by decide
  defined := rfl
  engines := by decide
  errorFree := ⟨rfl, rfl⟩
  followed := by decide

/-- The SEND leaves the telemetry of contributions pending at 1, which was 0. -/
theorem sLocalRed_backlog : sLocalRed.reg rPfRedStat = 0
    ∧ (match exec (.send localSendAttr 0 0 0 7 true) sLocalRed with
      | .next t => t.fld rPfRedStat 32 16
      | _ => 0) = 1 := by decide +kernel

/-- Refutes O33: contributions sent to a range of this package over no link are handed to its reduction unit at once, and PF_RED_STAT then
counts them as pending (Table 10.6), a register that no retirement writes. -/
theorem not_streamCommands : ¬ Obligations.StreamCommands := by
  intro h
  obtain ⟨hsend, -⟩ := h localSendAttr 0 0 0 localRedJob sLocalRed sLocalRed_wf sLocalRed_ready rfl
  obtain ⟨-, hlocal, -⟩ := hsend localRedStream 7 true rfl rfl (by decide) (by decide) (fun _ => by decide) (by decide) (by decide) (by decide)
  obtain ⟨t, hex, -, -, -, hregs, -⟩ := hlocal (by decide) rfl
  obtain ⟨hbefore, hafter⟩ := sLocalRed_backlog
  rw [hex] at hafter
  have hkept : t.reg rPfRedStat = 0 := (hregs rPfRedStat (by decide)).trans hbefore
  have hzero : t.fld rPfRedStat 32 16 = 0 := by rw [State.fld, hkept]; decide
  exact absurd (hzero.symm.trans hafter) (by decide)

end Sys2Proof.Machine
end

section
/-! SUPPORT. A scheduled send of a norm collective's value where a gradient reads uncorrectable (R210, R282, R310; O37). -/

namespace Sys2Proof.Machine
open Sys2Proof

-- Proofs elaborated in threads of their own would pass the check's limit of memory.
set_option Elab.async false

variable {s t : State} {i : CollInst} {p q k seq : Nat} {r : Run} {c : Stream}

/-! ### A norm pass over an uncorrectable block -/

theorem State.memErr_wired (w : s.Wf) (addr source : Nat) (scrub : Bool) : Wired [rMemScrub, rMemErr] s (s.memErr addr source scrub) := by
  have h : Wired [rMemScrub, rMemErr] s (if slowTier then s.addFld rMemScrub 16 16 1 else s) :=
    .ite ((Wired.refl w _).addFld (by simp) ..) (.refl w _)
  exact .ite h (h.setReg (by simp) _)

/-- An uncorrectable block is the package's fault MEM_UNCORRECTABLE where none is recorded. -/
theorem State.memFault_first (w : s.Wf) (hr : s.running = true) (hf : s.fld rPfFault 16 1 = 0) (hh : s.ownHalts = []) (a : Nat) :
    (s.memFault a).bu = 7 ∧ (s.memFault a).fld rPfFault 0 16 = cMemUncorrectable := by
  have h := State.memErr_wired w a (memSource a) false
  obtain ⟨hb, hcode, -⟩ := State.raise_first h.wf ((h.running (by decide)).trans hr) ((h.fld (by decide) ..).trans hf)
    ((h.ownHalts (by decide)).trans hh) (reason := cMemUncorrectable) (by decide) (s.memUnit a).1 (s.memUnit a).2
  exact ⟨hb, hcode⟩

theorem State.normPass_bad (hu : s.collUse i = .norm) (hheld : s.fab.held = []) {b : Nat} (hb : s.job.bind s.badGradBlock = some b) :
    s.normPass i = s.memFault b := by
  unfold State.normPass
  rw [if_pos hu, State.settleReduce_of_empty hheld]
  simp only [hb]

/-- What a COLLECTIVE stream sends is read after its collective's norm pass. -/
theorem State.takeSend_collective (hr : r.ctx < 0x8000) (hc : s.stream? r.ctx = some c) (hk : c.kind = 4) (hi : s.inst? c.dst = some i) :
    (s.takeSend p q r seq).2 = s.normPass i := by
  unfold State.takeSend
  rw [if_neg (by omega)]
  simp only [hc, hk, hi, if_true]

/-- A send slot ends with what stops the package while the data is taken. -/
theorem exec_scheduledSendSlot_stops (hd : s.dark = false) (hi : s.issuing = true)
    (hn : s.nextSend p (max (s.port p).lastSend s.stp.origin) = some q) (ht : s.tableAt p false q = some (r, seq))
    (htake : (((s.advanceTo (s.packOf q)).served p q).takeSend p q r seq).2 = t) (hstop : t.bu = 7) :
    exec (.scheduledSendSlot p) s = .next t := by
  have hidle : t.issuing = false := by rw [State.issuing, State.running, hstop]; rfl
  show execScheduledSendSlot p s = _
  rw [execScheduledSendSlot, whenTimed_of_live hd, if_pos hi]
  unfold State.nextSlotSend
  simp only [hn, ht, htake, hidle, Bool.false_eq_true, if_false]
  rw [State.settle_of_stopped hidle]

/-! ### The counterexample -/

/-- The COLLECTIVE stream of collective 40. -/
def normStream : Stream := { (default : Stream) with kind := 4, owner := 1, links := 1, dst := 40, flits := 1 }

/-- The send table of port 1 gives its slot 0 to stream 0. -/
def normRun : Run := ⟨1, false, false, 0, 0, 1, 0⟩

/-- A job whose collective 40 delivers at the slot of norm collectives, E_n after the status collective's. -/
def normJob : Job :=
  { oneUpdateJob with
    hdr := { oneUpdateJob.hdr with eN := 64 }
    streams := [normStream], runs := [normRun], colls := [⟨40, 1, 0, 0, 4, 2112⟩] }

/-- A step of that job in which the block of the one gradient reads uncorrectable; port 1 is DOWN. -/
def sNormBad : State :=
  { State.reset with
    regs := [(rBuState, 6), (rCore 1 oState, 2)]
    bad := [0x2_0000]
    job := some normJob
    stp := { StepSt.reset with started := true, begun := true } }

theorem sNormBad_wf : sNormBad.Wf :=
  ⟨by decide +kernel, mapWf_nil, mapWf_nil, mapWf_nil, fun _ h => absurd h List.not_mem_nil, mapWf_nil, mapWf_nil⟩

/-- Slot 0 of port 1 is the next scheduled send; the slot has come and takes no time. -/
theorem sNormBad_due : sNormBad.nextSend 1 (max (sNormBad.port 1).lastSend sNormBad.stp.origin) = some 0
    ∧ sNormBad.tableAt 1 false 0 = some (normRun, 0) ∧ sNormBad.packOf 0 ≤ sNormBad.now := by decide +kernel

/-- The collective of the stream. -/
def normInst : CollInst := ⟨40, 1, 0, 0, 4, 2112⟩

/-- It is a norm collective, and the pass over its gradients stops at the uncorrectable block. -/
theorem sNormBad_norm : (sNormBad.served 1 0).collUse normInst = .norm
    ∧ (sNormBad.served 1 0).job.bind (sNormBad.served 1 0).badGradBlock = some 0x2_0000
    ∧ (sNormBad.served 1 0).stream? normRun.ctx = some normStream ∧ (sNormBad.served 1 0).inst? normStream.dst = some normInst := by
  decide +kernel

/-- The send stops the package with MEM_UNCORRECTABLE. -/
theorem sNormBad_fault : ∃ t, exec (.scheduledSendSlot 1) sNormBad = .next t ∧ t.fld rPfFault 0 16 = cMemUncorrectable := by
  obtain ⟨hnext, htable, hnow⟩ := sNormBad_due
  obtain ⟨hnorm, hblock, hstream, hinst⟩ := sNormBad_norm
  have hw : Wired [] sNormBad (sNormBad.served 1 0) := (Wired.refl sNormBad_wf _).setPort ..
  obtain ⟨hbu, hcode⟩ := State.memFault_first hw.wf (by decide) (by decide) (by decide) 0x2_0000
  refine ⟨_, exec_scheduledSendSlot_stops (by decide) (by decide) hnext htable ?_ hbu, hcode⟩
  rw [State.advanceTo_of_le hnow, State.takeSend_collective (by decide) hstream rfl hinst]
  exact State.normPass_bad hnorm rfl hblock

/-- Refutes O37: a norm collective's engine reads the gradients before its port is looked at, so that on a port that is DOWN an uncorrectable
block of them is the fault MEM_UNCORRECTABLE and not LINK_DOWN; the clause about DOWN ports does not except it. -/
theorem not_scheduledSends : ¬ Obligations.ScheduledSends := by
  intro h
  obtain ⟨hnext, htable, -⟩ := sNormBad_due
  obtain ⟨hslot, -⟩ := h 1 0 sNormBad sNormBad_wf (by decide) (by decide) (by decide)
  obtain ⟨-, -, -, -, hdown⟩ := hslot normRun 0 hnext htable
  obtain ⟨t, hex, -, hlink, -⟩ := hdown (by decide) (by decide) (by decide)
  obtain ⟨u, hex', hmem⟩ := sNormBad_fault
  cases hex.symm.trans hex'
  exact absurd (hlink.symm.trans hmem) (by decide)

end Sys2Proof.Machine
end

section
/-! SUPPORT. A collective at its last send slot and at its delivery slot (R118, R291 to R294; O45). -/

namespace Sys2Proof.Machine
open Sys2Proof

-- Proofs elaborated in threads of their own would pass the check's limit of memory.
set_option Elab.async false

variable {s t : State} {i : CollInst} {id : Nat}

/-! ### What a collective is read from -/

theorem Wired.collUse {R : List Nat} (h : Wired R s t) (i : CollInst) : t.collUse i = s.collUse i := by
  simp only [State.collUse, State.statusSlot, State.normSlot, h.job, h.stp]

theorem State.coll_advanceTo (s : State) (b id : Nat) : (s.advanceTo b).coll id = s.coll id := by
  rw [State.coll, State.advanceTo_fab]; rfl

/-- What a collective waits for is read from the job and the streams its engine has noted. -/
theorem State.missing_eq (hj : t.job = s.job) (hc : (t.coll id).streams = (s.coll id).streams) : t.missing id = s.missing id := by
  simp only [State.missing, State.lacks, State.expected, hj, hc]

/-- The package's own values come by no stream. -/
theorem State.contributeVals_streams (s : State) (id : Nat) (vs : List CVal) :
    ((s.contributeVals id none vs).coll id).streams = (s.coll id).streams := by
  unfold State.contributeVals
  rw [State.coll_setColl]
  exact State.coll_id s id

/-! ### The last send slot -/

theorem State.badGradBlock_clean (hb : s.bad = []) (j : Job) : s.badGradBlock j = none := by
  simp [State.badGradBlock, State.badIn_clean hb]

/-- With no contribution pending and no uncorrectable block, a norm pass only reads. -/
theorem State.normPass_clean (h : s.collUse i ≠ .norm ∨ (s.fab.held = [] ∧ s.bad = [])) : s.normPass i = s := by
  unfold State.normPass
  split
  · next hu =>
    obtain ⟨hheld, hbad⟩ := h.resolve_left (not_not_intro hu)
    have hblock : s.job.bind s.badGradBlock = none := Option.bind_eq_none_iff.2 fun j _ => State.badGradBlock_clean hbad j
    rw [State.settleReduce_of_empty hheld]
    simp only [hblock]
  · rfl

/-- The step notes the widen bit that it sends (R115, R118). -/
def State.widenNoted (s : State) (i : CollInst) : StepSt :=
  if s.collUse i = .status ∧ i.kind = 1 then { s.stp with widenSent := s.stp.localWiden && !s.stp.wide } else s.stp

/-- The last send slot has come, and the engine has taken what the package itself adds. -/
def State.ownTaken (s : State) (i : CollInst) : State :=
  let u := s.advanceTo (s.packOf (s.stp.origin + i.lastSend))
  u.contributeVals i.id none (u.ownStatus i)

theorem State.ownTaken_wired (w : s.Wf) (i : CollInst) : Wired [rPfPackTime] s (s.ownTaken i) := (State.advanceTo_wired w _).setFab _

/-- The engine's part with the step's note of the widen bit. -/
def State.ownSent (s : State) (i : CollInst) : State := { s.ownTaken i with stp := s.widenNoted i }

theorem State.ownSent_wf (w : s.Wf) (i : CollInst) : (s.ownSent i).Wf :=
  have h := (State.ownTaken_wired w i).wf
  ⟨h.regs, h.mem, h.ports, h.cores, h.sram, h.sqs, h.cqs⟩

theorem State.ownSent_missing (w : s.Wf) (i : CollInst) : (s.ownSent i).missing i.id = s.missing i.id := by
  refine State.missing_eq (State.ownTaken_wired w i).job ?_
  show ((s.ownTaken i).coll i.id).streams = _
  rw [State.ownTaken, State.contributeVals_streams, State.coll_advanceTo]

/-- A last send slot is the package's own part, and SLOT_MISSED where a contribution is missing. -/
theorem State.lastSend_eq (w : s.Wf) (h : s.collUse i ≠ .norm ∨ (s.fab.held = [] ∧ s.bad = [])) :
    s.lastSend i = if s.missing i.id then (s.ownSent i).slotMissed 4 ((s.ownSent i).engineDie i.id) else s.ownSent i := by
  have hu := State.advanceTo_wired w (s.packOf (s.stp.origin + i.lastSend))
  have ht := State.ownTaken_wired w i
  have hclean := State.normPass_clean (i := i) (s := s.advanceTo (s.packOf (s.stp.origin + i.lastSend)))
    (by rwa [hu.collUse, State.advanceTo_fab, hu.bad])
  have hown : (s.advanceTo (s.packOf (s.stp.origin + i.lastSend))).contributeVals i.id none
      ((s.advanceTo (s.packOf (s.stp.origin + i.lastSend))).ownStatus i) = s.ownTaken i := rfl
  have hnote : (if s.collUse i = .status ∧ i.kind = 1 then
        { s.ownTaken i with stp := { s.stp with widenSent := s.stp.localWiden && !s.stp.wide } } else s.ownTaken i) = s.ownSent i := by
    rw [State.ownSent, State.widenNoted]
    split
    · rfl
    · exact congrArg (fun x => { s.ownTaken i with stp := x }) ht.stp
  unfold State.lastSend
  simp only [hclean, hown, ht.collUse, ht.stp, hnote, State.ownSent_missing w]

theorem exec_collectiveLastSendSlot (hd : s.dark = false) (hi : s.issuing = true) (hin : s.inst? id = some i) :
    exec (.collectiveLastSendSlot id) s = .next (s.lastSend i).settle := by
  show execCollectiveLastSendSlot id s = _
  rw [execCollectiveLastSendSlot, whenTimed_of_live hd, hin]
  dsimp only
  rw [if_pos hi]

/-- The engine takes the package's own values where no contribution is missing. -/
theorem collectiveLastSendSlot_takes (w : s.Wf) (hd : s.dark = false) (hi : s.issuing = true) (hin : s.inst? id = some i)
    (hid : i.id = id) (hn : s.anyWaits = false) (hm : s.missing id = false)
    (hc : s.collUse i ≠ .norm ∨ (s.fab.held = [] ∧ s.bad = [])) : exec (.collectiveLastSendSlot id) s = .next (s.ownSent i) := by
  have hsettle : (s.ownSent i).settle = s.ownSent i := (State.ownTaken_wired w i).settle_cores rfl rfl hn
  rw [exec_collectiveLastSendSlot hd hi hin, State.lastSend_eq w hc, hid, hm, if_neg Bool.false_ne_true, hsettle]

/-- A missing contribution is the package's fault SLOT_MISSED of unit 4 where none is recorded (R292). -/
theorem collectiveLastSendSlot_missed (w : s.Wf) (hd : s.dark = false) (hi : s.issuing = true) (hin : s.inst? id = some i)
    (hid : i.id = id) (hn : s.anyWaits = false) (hm : s.missing id = true) (ha : s.armed = false) (hf : s.fld rPfFault 16 1 = 0)
    (hc : s.collUse i ≠ .norm ∨ (s.fab.held = [] ∧ s.bad = [])) :
    ∃ t, exec (.collectiveLastSendSlot id) s = .next t ∧ t.bu = 7 ∧ t.fld rPfFault 0 16 = 0x0501 ∧ t.fld rPfFault 17 3 = 4 := by
  have h := State.ownTaken_wired w i
  have harmed : (s.ownSent i).armed = false := (h.armed (by decide)).trans ha
  obtain ⟨hb, hreg, -⟩ := State.raise_run (s := s.ownSent i) (State.ownSent_wf w i)
    ((h.running (by decide)).trans (State.running_of_issuing hi)) ((h.fld (by decide) ..).trans hf)
    ((h.ownHalts (by decide)).trans (State.ownHalts_of_noneWaits hn)) (reason := cSlotMissed) (by decide) 4 ((s.ownSent i).engineDie id)
  have hend : s.lastSend i = (s.ownSent i).raise cSlotMissed 4 ((s.ownSent i).engineDie id) := by
    rw [State.lastSend_eq w hc, hid, hm, if_pos rfl, State.slotMissed, harmed, if_neg Bool.false_ne_true]
  have hidle : (s.lastSend i).issuing = false := by rw [hend, State.issuing, State.running, hb]; rfl
  refine ⟨_, exec_collectiveLastSendSlot hd hi hin, ?_⟩
  rw [State.settle_of_stopped hidle, hend]
  refine ⟨hb, ?_, ?_⟩
  all_goals
    rw [State.fld, hreg, bitsOf, cSlotMissed]
    omega

/-! ### The delivery slot -/

/-- The delivery slot has come, and the engine has given its result and is empty. -/
def State.emptied (s : State) (i : CollInst) : State :=
  (s.advanceTo (s.packOf (s.stp.origin + i.delivery))).setColl
    { id := i.id, vals := [], streams := [], result := (List.range (csumLen (s.coll i.id).vals)).map (csumFold (s.coll i.id).vals) }

theorem State.emptied_wired (w : s.Wf) (i : CollInst) : Wired [rPfPackTime] s (s.emptied i) := (State.advanceTo_wired w _).setFab _

theorem State.emptied_coll (s : State) (i : CollInst) : ((s.emptied i).coll i.id).vals = [] ∧ ((s.emptied i).coll i.id).streams = [] := by
  rw [State.emptied, State.coll_setColl _ rfl]
  exact ⟨rfl, rfl⟩

/-- A collective has been delivered: pack time has moved on, the engine is empty, and of the rest only the step's own part and the host's
descriptors may have changed. -/
def State.Took (s : State) (i : CollInst) (t : State) : Prop := t = { s.emptied i with stp := t.stp, hl := t.hl }

theorem State.Took.frame (h : s.Took i t) (w : s.Wf) : t.mem = s.mem ∧ t.cores = s.cores
    ∧ (∀ r, r ≠ rPfPackTime → t.reg r = s.reg r) ∧ (t.coll i.id).vals = [] ∧ (t.coll i.id).streams = [] := by
  have hw := State.emptied_wired w i
  rw [h]
  exact ⟨hw.mem, hw.cores, fun r hr => hw.regs r (by simpa using hr), s.emptied_coll i⟩

/-- Requests that name the next step change in the descriptors alone (R195). -/
theorem State.answerSnap_frame (s : State) : s.answerSnap = { s with hl := s.answerSnap.hl } := by
  have h : ({ s.answerSnap with hl := s.hl } : State) = s := foldl_keep (fun t : State => { t with hl := s.hl })
    (f := fun t (r : Nat × Nat × Nat) => t.decideDesc r.1 r.2.1 0 0 false) (fun _ _ => rfl) _ _
  exact congrArg (fun t : State => { t with hl := s.answerSnap.hl }) h

/-- The status collective's bits (R115, R118, R208). -/
theorem State.statusResult_bits (s : State) (vs : List CVal) : ∃ y, s.statusResult 1 vs = { s with
    hl := y
    stp := { s.stp with
      nfT := bitsOf (orOf vs) 1 1 == 1 && !(bitsOf (orOf vs) 0 1 == 1 && !s.stp.wide)
      widened := s.stp.widened || (bitsOf (orOf vs) 0 1 == 1 && !s.stp.wide)
      snapReq := s.stp.snapReq || bitsOf (orOf vs) 2 1 == 1 } } := by
  unfold State.statusResult
  rw [if_pos rfl]
  dsimp only
  split
  · exact ⟨s.answerSnap.hl, by rw [s.answerSnap_frame]⟩
  · exact ⟨s.hl, rfl⟩

/-- A layer statistic keeps each unit's partials, or their maximum, for the layer's pass (R217, R230). -/
def State.layerResult (s : State) (i : CollInst) (vs : List CVal) : State :=
  { s with stp := { s.stp with lred := s.stp.lred.filter (fun e => e.1 != i.id)
      ++ [(i.id, if i.kind = 3 then [(0, maxsOf vs)] else csumUnits vs)] } }

/-- Outside an armed run each use takes its result of the values that the engine held (R431). -/
theorem State.collDeliver_eq (w : s.Wf) (ha : s.armed = false) :
    (s.collUse i = .layer → s.collDeliver i = (s.emptied i).layerResult i (s.coll i.id).vals)
    ∧ (s.collUse i = .status → s.collDeliver i = (s.emptied i).statusResult i.kind (s.coll i.id).vals)
    ∧ (s.collUse i = .norm → s.collDeliver i = (s.emptied i).normResult i.kind (s.coll i.id).vals) := by
  have h := State.advanceTo_wired w (s.packOf (s.stp.origin + i.delivery))
  unfold State.collDeliver
  simp only [h.armed (by decide), ha, h.collUse, State.coll_advanceTo, Bool.false_and, Bool.false_eq_true, if_false]
  refine ⟨fun hu => ?_, fun hu => ?_, fun hu => ?_⟩
  · rw [hu]; rfl
  · rw [hu]; rfl
  · rw [hu]; rfl

/-- With no layer staged, no pass waits for a result. -/
theorem State.resumePasses_of_noneStaged (h : s.stp.staged = []) : s.resumePasses = s := by
  unfold State.resumePasses
  split
  · rw [h]; rfl
  · rfl

theorem exec_collectiveDelivery (hd : s.dark = false) (hi : s.issuing = true) (hin : s.inst? id = some i) :
    exec (.collectiveDelivery id) s = .next (s.collDeliver i).resumePasses.settle := by
  show execCollectiveDelivery id s = _
  rw [execCollectiveDelivery, whenTimed_of_live hd, hin]
  dsimp only
  rw [if_pos hi]

/-- With nothing waiting in the cores and no layer staged, nothing follows a delivery. -/
theorem State.Took.delivered (h : s.Took i t) (w : s.Wf) (hd : s.dark = false) (hi : s.issuing = true) (hin : s.inst? id = some i)
    (hn : s.anyWaits = false) (he : s.collDeliver i = t) (hs : t.stp.staged = []) : exec (.collectiveDelivery id) s = .next t := by
  have hsettle : t.settle = t := (State.emptied_wired w i).settle_cores (by rw [h]) (by rw [h]) hn
  rw [exec_collectiveDelivery hd hi hin, he, State.resumePasses_of_noneStaged hs, hsettle]

/-- Settles O45: the engine takes the package's own part or misses one, and each use of a collective takes its result. -/
theorem collectivesAtTheirSlots : Obligations.CollectivesAtTheirSlots := by
  unfold Obligations.CollectivesAtTheirSlots
  intro id i s w hd hi hin hid hn
  subst hid
  refine ⟨fun hm hc => ⟨collectiveLastSendSlot_takes w hd hi hin rfl hn hm hc,
      fun r hr => (State.advanceTo_wired w _).regs r (by simpa using hr)⟩,
    fun hm ha hf hc => collectiveLastSendSlot_missed w hd hi hin rfl hn hm ha hf hc, fun ha hs => ?_⟩
  have hstp := (State.emptied_wired w i).stp
  obtain ⟨hlayer, hstatus, hnorm⟩ := State.collDeliver_eq (i := i) w ha
  have gives : ∀ {t : State}, s.collDeliver i = t → s.Took i t → t.stp.staged = [] → exec (.collectiveDelivery i.id) s = .next t
      ∧ t.mem = s.mem ∧ t.cores = s.cores ∧ (∀ r, r ≠ rPfPackTime → t.reg r = s.reg r)
      ∧ (t.coll i.id).vals = [] ∧ (t.coll i.id).streams = [] :=
    fun he ht hst => ⟨ht.delivered w hd hi hin hn he hst, ht.frame w⟩
  refine ⟨fun hu => ?layer, fun hu hk => ?status, fun hu => ⟨fun hk => ?nonfinite, fun hk => ?lowest, fun hk => ?sum⟩⟩
  case layer =>
    have he := hlayer hu
    rw [State.layerResult, hstp] at he
    obtain ⟨hex, htaken⟩ := gives he rfl hs
    exact ⟨_, hex, htaken, List.mem_append_right _ (List.mem_singleton_self _)⟩
  case status =>
    have he := hstatus hu
    obtain ⟨y, hy⟩ := State.statusResult_bits (s.emptied i) (s.coll i.id).vals
    rw [hk, hy, hstp] at he
    obtain ⟨hex, htaken⟩ := gives he rfl hs
    exact ⟨_, hex, htaken, rfl, rfl, rfl⟩
  all_goals
    have he := hnorm hu
    rw [hk, State.normResult, hstp] at he
    obtain ⟨hex, htaken⟩ := gives he rfl hs
    exact ⟨_, hex, htaken, rfl⟩

end Sys2Proof.Machine
end

section
/-! SUPPORT. RETRIEVE and DEPOSIT without a conversion (R314, R315, R310): the bytes of a plain copy, and the zero write of a reduction
buffer (R276; log entries 112 and 134). -/

namespace Sys2Proof.Machine
open Sys2Proof

-- Proofs elaborated in threads of their own would pass the check's limit of memory.
set_option Elab.async false

variable {s u : State} {a : Attr} {j : Job} {t : Tensor} {x : Nat} {bs : List Byte}

/-- Elements of an unpacked format lie one after another. -/
theorem Tensor.bytesOf_unpacked (hp : isPacked t.format = false) (first count : Nat) :
    t.bytesOf first count = elemSize t.format t.ns * count := by
  rw [Tensor.bytesOf, hp]
  split
  · subst count; rfl
  · rfl

@[simp] theorem State.length_sramRead (s : State) (n off len : Nat) : (s.sramRead n off len).length = len := by
  simp [State.sramRead, mapGetRun]

/-- An effect of a pass that leaves what is staged is one that lets its command retire. -/
theorem Passing.undisturbed (h : Passing s u) : Undisturbed s u := by
  have hp := h.progress
  simp only [StepSt.progress, Prod.mk.injEq] at hp
  obtain ⟨-, -, -, -, -, hstaged, -⟩ := hp
  exact ⟨h.wf, h.regs, h.job, hstaged, h.windows⟩

/-! ### RETRIEVE -/

section
variable {o : RetArg} {first count v : Nat}

/-- A RETRIEVE that neither converts nor transposes nor gathers. -/
structure PlainCopy (o : RetArg) : Prop where
  conv   : o.conv = none
  transp : o.transp = none
  gather : o.gather = none

theorem PlainCopy.runs (ho : PlainCopy o) (s : State) (n : Nat) (t : Tensor) : s.retrieveRuns n t o = [(o.first, o.count)] := by
  rw [State.retrieveRuns, ho.transp, ho.gather]

/-- A plain RETRIEVE writes as many bytes as its elements occupy. -/
theorem PlainCopy.bytes (ho : PlainCopy o) (hp : isPacked t.format = false) : retrieveBytes t o = t.bytesOf o.first o.count := by
  rw [Tensor.bytesOf_unpacked hp, retrieveBytes, retrieveCount, retrieveFmt, ho.conv, ho.transp, ho.gather]
  simp [hp]

theorem PlainCopy.shape (ho : PlainCopy o) (hp : isPacked t.format = false) : retrieveShape t o = true := by
  rw [retrieveShape, ho.transp, ho.gather, hp]
  simp

/-- Elements of an unpacked tensor whose blocks all read good are read. -/
theorem State.readElems_good (hp : isPacked t.format = false) (hr : j.range? t v first count = some x)
    (hb : s.badIn x (t.bytesOf first count) = none) : ∃ vs n, s.readElems j t v first count = .ok vs n := by
  rw [Tensor.bytesOf_unpacked hp] at hb
  unfold State.readElems
  split
  · exact ⟨_, _, rfl⟩
  · simp only [hr, hp, hb]
    exact ⟨_, _, rfl⟩

/-- What a copy of `len` bytes at `x` brings: it converts and measures nothing (R315). -/
def State.storedData (s : State) (x len : Nat) : RetData := { bytes := s.load x len, cvts := [], xs := [], reads := 0 }

/-- A plain copy brings the stored bytes. -/
theorem PlainCopy.copyData (ho : PlainCopy o) (hp : isPacked t.format = false) (hr : j.range? t v o.first o.count = some x)
    (hb : s.badIn x (t.bytesOf o.first o.count) = none) : s.copyData j t v o [(o.first, o.count)]
      = .inr (s.storedData x (t.bytesOf o.first o.count)) := by
  obtain ⟨vs, n, he⟩ := State.readElems_good hp hr hb
  have hruns : s.readRuns j t v [(o.first, o.count)] = .inr [vs] := by
    simp only [State.readRuns, he]
  rw [State.copyData, hruns, ho.transp]
  simp [hr, State.storedData]

/-- A plain RETRIEVE whose checks pass fills data SRAM with the stored bytes. -/
theorem PlainCopy.retrieve (ho : PlainCopy o) (ht : j.tensor? o.tensor = some t) (hp : isPacked t.format = false)
    (hpair : retrievePair t.format none = true) (hrb : t.format ≠ .rbuf) (hs : sramOk [(o.dst, t.bytesOf o.first o.count)] = true)
    (hin : s.runsIn j t (s.readSlot j t) [(o.first, o.count)] = true) (hr : j.range? t (s.readSlot j t) o.first o.count = some x)
    (hb : s.badIn x (t.bytesOf o.first o.count) = none) : s.retrieve a j o
      = (s.sramFill a.core o [(o.first, o.count)] (s.storedData x (t.bytesOf o.first o.count))).setXfer a.core .fresh := by
  unfold State.retrieve
  simp [ht, ho.conv, ho.transp, ho.gather, ho.bytes hp, ho.runs, ho.shape hp, hs, hin, hpair, hrb, State.retrieveData,
    ho.copyData hp hr hb, State.retrieveInto, RetData.stat]

/-- A RETRIEVE of a tensor that the job does not hold fails its check. -/
theorem State.retrieve_absent (ht : j.tensor? o.tensor = none) (hg : o.gather = none) (hs : sramOk [(o.dst, 0)] = true) :
    s.retrieve a j o = s.checkFail a 0x0402 := by
  rw [State.retrieve, ht, hg]
  simp only [hs, if_true]
  rfl

theorem State.Ready.perform_retrieve (h : s.Ready a) (j : Job) (o : RetArg) : s.perform j (.retrieve a o) = s.retrieve a j o :=
  h.checked _

end

/-! ### What a transfer into data SRAM leaves -/

/-- `bs` stands at `off` in the data SRAM of core `n`, and of everything else only the note of SRAM's last writers and the record of the
core's last transfer are new. -/
structure FillsSram (n off : Nat) (bs : List Byte) (s u : State) : Prop where
  wf    : u.Wf
  frame : u = { s with cores := u.cores }
  core  : u.core n = { s.core n with
    sram := mapSetRun memDefault (s.core n).sram off bs, feeds := (u.core n).feeds, xferStat := (u.core n).xferStat }
  other : ∀ k, k ≠ n → u.core k = s.core k

theorem State.sramFill_fills (w : s.Wf) (n : Nat) (o : RetArg) (rs : List (Nat × Nat)) (d : RetData) :
    FillsSram n o.dst d.bytes s (s.sramFill n o rs d) := by
  have hcore := State.core_setCore w.cores n n
  refine ⟨w.setCore n ?_, rfl, ?_, fun k hk => (State.core_setCore w.cores ..).trans (if_neg hk)⟩
  · rw [CoreSt.noteFeed_sram]; exact mapSetRun_wf (w.core n) ..
  · rw [State.sramFill, hcore, if_pos rfl, CoreSt.noteFeed_eq]

/-- The record of a transfer. -/
theorem FillsSram.setXfer {n off : Nat} (h : FillsSram n off bs s u) (y : ConvStat) : FillsSram n off bs s (u.setXfer n y) := by
  have hcore := State.core_setCore h.wf.cores n
  refine ⟨h.wf.setCore n (h.wf.core n), by rw [State.setXfer, State.setCore, h.frame], ?_, fun k hk => ?_⟩
  · rw [State.setXfer, hcore, if_pos rfl, h.core]
  · rw [State.setXfer, hcore, if_neg hk, h.other k hk]

theorem FillsSram.undisturbed {n off : Nat} (h : FillsSram n off bs s u) : Undisturbed s u := by
  refine ⟨h.wf, by rw [h.frame], by rw [h.frame], by rw [h.frame], fun k => ?_⟩
  by_cases hk : k = n
  · subst hk; rw [h.core]; exact ⟨rfl, rfl⟩
  · rw [h.other k hk]; exact ⟨rfl, rfl⟩

/-- A command with this effect has written SRAM once it retires. -/
theorem FillsSram.sramResult_retire {off : Nat} (h : FillsSram a.core off bs s u) (w : s.Wf) : sramResult s (u.retire a) a off bs := by
  have hon : OnCore a.core (retireRegs a.core) s u := ⟨h.wf, by rw [h.frame], fun r _ => h.undisturbed.reg r, h.other⟩
  have hcore : (u.retire a).core a.core = u.core a.core := rfl
  have hsram : (u.core a.core).sram = mapSetRun memDefault (s.core a.core).sram off bs := by rw [h.core]
  refine ⟨h.undisturbed.retired a, (hon.retire fun _ => id).only, ?_, ?_, fun k hk => ?_⟩
  · rw [hcore, h.core]
  · rw [State.sramRead, hcore, hsram, mapGetRun_mapSetRun (w.core _)]
  · rw [hcore, hsram, mapGet_mapSetRun (w.core _), if_neg (by omega)]

/-! ### DEPOSIT -/

section
variable {o : DepArg}

theorem State.Ready.perform_deposit (h : s.Ready a) (j : Job) (o : DepArg) : s.perform j (.deposit a o) = s.deposit a j o :=
  h.checked _

/-- A store that no block is in the way of. -/
theorem State.storeParts_good (hb : s.badPart x bs.length = none) : s.storeParts x bs = (none, s.store x bs) := by
  rw [State.storeParts, hb]

/-- No copy goes into a reduction buffer (Table 11.7). -/
theorem ne_rbuf_of_depositPair {src dst : Fmt} (h : depositPair src dst true = true) : dst ≠ .rbuf := by
  rintro rfl
  simp [depositPair] at h

/-- With every block of its range writable, a copy into an unpacked tensor stores the bytes, and the shards it touched have new
noseprints. -/
theorem State.depositCopy_good (hp : isPacked t.format = false) (hb : s.badPart x (t.bytesOf o.first o.count) = none) :
    s.depositCopy a t x o
      = (s.store x (s.sramRead a.core o.src (t.bytesOf o.first o.count))).reprint x (t.bytesOf o.first o.count) := by
  have hlen := s.length_sramRead a.core o.src (t.bytesOf o.first o.count)
  simp only [State.depositCopy, hp, State.storeParts_good (hlen.symm ▸ hb), hlen, State.stored]

/-- With every block of its range writable and no flit held, the zero write stores the zero elements. -/
theorem State.depositZero_good (hheld : s.fab.held = []) (hb : s.badPart x (o.count * (zeroElem t.ns).length) = none) :
    s.depositZero a t x o = s.store x ((List.range o.count).flatMap (fun _ => zeroElem t.ns)) := by
  have hlen : ((List.range o.count).flatMap (fun _ => zeroElem t.ns)).length = o.count * (zeroElem t.ns).length := by
    simp [List.length_flatMap]
  simp only [State.depositZero, State.settleReduce_of_empty hheld, State.storeParts_good (hlen.symm ▸ hb)]

/-- A DEPOSIT of an unpacked tensor whose checks pass stores the bytes that data SRAM holds. -/
theorem State.deposit_plain (ht : j.tensor? o.tensor = some t) (hp : isPacked t.format = false)
    (hpair : depositPair o.sfmt t.format true = true) (hc : o.conv = none) (hz : o.zero = false)
    (hs : sramOk [(o.src, t.bytesOf o.first o.count)] = true) (hin : s.runsIn j t (s.depositSlot j t) [(o.first, o.count)] = true)
    (hr : j.range? t (s.depositSlot j t) o.first o.count = some x) (hb : s.badPart x (t.bytesOf o.first o.count) = none) :
    s.deposit a j o
      = (s.store x (s.sramRead a.core o.src (t.bytesOf o.first o.count))).reprint x (t.bytesOf o.first o.count) := by
  have hrb := ne_rbuf_of_depositPair hpair
  unfold State.deposit
  simp [ht, hc, hz, hs, hin, hr, hrb, hpair, hp, State.depositCopy_good hp hb]

/-- A DEPOSIT that zeroes elements of a reduction buffer, with no flit held, stores their zero elements. -/
theorem State.deposit_zero (ht : j.tensor? o.tensor = some t) (hrb : t.format = .rbuf) (hz : o.zero = true) (hheld : s.fab.held = [])
    (hin : s.runsIn j t (s.depositSlot j t) [(o.first, o.count)] = true)
    (hr : j.range? t (s.depositSlot j t) o.first o.count = some x) (hb : s.badPart x (o.count * (zeroElem t.ns).length) = none) :
    s.deposit a j o = s.store x ((List.range o.count).flatMap (fun _ => zeroElem t.ns)) := by
  unfold State.deposit
  simp [ht, hz, hin, hr, hrb, State.depositZero_good hheld hb]

/-- A DEPOSIT into a tensor that the job does not hold fails its check. -/
theorem State.deposit_absent (ht : j.tensor? o.tensor = none) (hs : o.zero = true ∨ sramOk [(o.src, 0)] = true) :
    s.deposit a j o = s.checkFail a 0x0402 := by
  have hcode : (o.zero || sramOk [(o.src, 0)]) = true := by simpa using hs
  rw [State.deposit, ht]
  simp only [hcode, if_true]
  rfl

end

/-! ### What a transfer into device memory leaves -/

/-- A ready command whose effect is one store, with at most records of the step beside it, has written memory. -/
theorem State.Ready.exec_stores (w : s.Wf) (h : s.Ready a) (hj : s.job = some j) {c : Instr} (hc : streamAttr c = some a)
    (hs : serialises c = false) (hu : s.unblocked a.core c = true) (hp : s.perform j c = u) (e : Passing s u)
    (he : ∃ y, u = { s.store x bs with stp := y }) : ∃ t, exec c s = .next t ∧ memResult s t a x bs := by
  refine ⟨u.retire a, (exec_stream hc s).trans (h.coreCmd_retires hj hs hu hp e.undisturbed), e.undisturbed.retired a, ?_⟩
  have hregs := fun r hr => e.undisturbed.reg_retire (a := a) (r := r) hr
  obtain ⟨y, rfl⟩ := he
  exact ⟨rfl, rfl, rfl, hregs, State.load_store w.mem x bs, fun k hk => State.byte_store_apart w.mem hk⟩

/-- Settles O32: a plain RETRIEVE fills data SRAM, a plain DEPOSIT and a zero write store to memory, and an absent tensor is MEM_RANGE. -/
theorem transfersCopyBytes : Obligations.TransfersCopyBytes := by
  unfold Obligations.TransfersCopyBytes
  intro a j s w h hj
  refine ⟨?retrieve, ?noSource, ?deposit, ?zero, ?noTarget⟩
  case retrieve =>
    intro o u x ht hp hpair hrb hc htr hg _ hs hin hr hb
    have ho : PlainCopy o := ⟨hc, htr, hg⟩
    have hfill := (s.sramFill_fills w a.core o [(o.first, o.count)] (s.storedData x (u.bytesOf o.first o.count))).setXfer .fresh
    have hperf := (h.perform_retrieve j o).trans (ho.retrieve ht hp hpair hrb hs hin hr hb)
    exact ⟨_, (exec_stream rfl s).trans (h.coreCmd_retires hj rfl rfl hperf hfill.undisturbed), hfill.sramResult_retire w⟩
  case noSource =>
    intro o ht hg hs
    rw [exec_stream rfl]
    exact h.coreCmd_fails w hj rfl rfl ((h.perform_retrieve j o).trans (State.retrieve_absent ht hg hs)) (by decide)
  case deposit =>
    intro o u x ht hp hpair hc hz hs hin hr hb
    have hperf := (h.perform_deposit j o).trans (State.deposit_plain ht hp hpair hc hz hs hin hr hb)
    exact h.exec_stores w hj rfl rfl rfl hperf (Passing.refl w).store.reprint (State.reprint_eq ..)
  case zero =>
    intro o u x ht hrb hz hheld hin hr hb
    have hperf := (h.perform_deposit j o).trans (State.deposit_zero ht hrb hz hheld hin hr hb)
    exact h.exec_stores w hj rfl rfl rfl hperf (Passing.refl w).store ⟨s.stp, rfl⟩
  case noTarget =>
    intro o ht hs
    rw [exec_stream rfl]
    exact h.coreCmd_fails w hj rfl rfl ((h.perform_deposit j o).trans (State.deposit_absent ht hs)) (by decide)

end Sys2Proof.Machine
end

section
/-! SUPPORT. The fused records: what SVN_COMMIT does to them, and that no other command does anything (R438, R439, R443). -/

namespace Sys2Proof.Machine
open Sys2Proof

-- Proofs elaborated in threads of their own would pass the check's limit of memory.
set_option Elab.async false

variable {s t : State} {x y z : Nv}

theorem Nv.Le.refl (x : Nv) : Nv.Le x x := ⟨rfl, rfl, rfl, le_rfl, le_rfl, fun _ => id⟩

/-- Records that agree in what only SVN_COMMIT changes are in order. -/
theorem Nv.Le.of_fused (h : y.fused = x.fused) : Nv.Le x y := by
  simp only [Nv.fused, Prod.mk.injEq] at h
  obtain ⟨hserial, huds, hroots, hmc, hcore, hrevoked⟩ := h
  exact ⟨hserial, huds, hroots, hmc.ge, hcore.ge, fun n hn => hrevoked ▸ hn⟩

/-- SVN_COMMIT raises counters to the maximum with the running image's version and adds revocations. -/
theorem State.svnCommit_nv_le (s : State) : Nv.Le s.nv s.svnCommit.nv where
  serial := rfl
  uds := rfl
  roots := rfl
  mcCtr := by
    cases h : s.pkg.mcFw with
    | none => simp [State.svnCommit, State.secEnd, h]
    | some i => simp [State.svnCommit, State.secEnd, h]
  coreCtr := by
    cases h : s.pkg.coreFw with
    | none => simp [State.svnCommit, State.secEnd, h]
    | some i => simp [State.svnCommit, State.secEnd, h]
  revoked n hn := by
    cases h : s.pkg.mcFw with
    | none => simpa [State.svnCommit, State.secEnd, h] using hn
    | some i => simp [State.svnCommit, State.secEnd, h, hn]

/-- The start of an operation leaves the fuses alone. -/
theorem State.secStart_nv (s : State) (m : Mc) (op : Nat) : (s.secStart m op).nv = s.nv := by
  unfold State.secStart State.secEnd
  split_ifs <;> rfl

/-- The row of an operation changes the fuses as the operation itself does. -/
theorem State.secRun_nv {m : Mc} {op : Nat} {k : State → State} {P : Nv → Prop} (h : P s.nv)
    (hk : ∀ t : State, t.nv = s.nv → P (k t).nv) : P (s.secRun m op k).nv := by
  unfold State.secRun
  split
  · split
    · exact hk s rfl
    · exact h
  · dsimp only
    split
    · exact hk _ (s.secStart_nv m op)
    · rwa [s.secStart_nv m op]

/-- Settles O7: SVN_COMMIT only raises, and every other command keeps the fused records. -/
theorem fusedRecordsOnlyAdvance : Obligations.FusedRecordsOnlyAdvance := by
  intro c s t e
  by_cases hc : c = .svnCommit
  · subst hc
    refine ⟨?_, fun hne => absurd rfl hne⟩
    have hk : Nv.Le s.nv (s.secRun s.leader 4 State.svnCommit).nv :=
      State.secRun_nv (P := Nv.Le s.nv) (.refl _) fun t ht => ht ▸ t.svnCommit_nv_le
    cases e
    split
    · exact .refl _
    · exact hk
  · have h := (Keeps.refl s).exec hc
    rw [e] at h
    have hf := h.fused
    refine ⟨.of_fused hf, fun _ => ?_⟩
    simp only [Nv.fused, Prod.mk.injEq] at hf
    obtain ⟨-, -, -, hmc, hcore, hrevoked⟩ := hf
    exact ⟨hmc, hcore, hrevoked⟩

end Sys2Proof.Machine
end

section
/-! SUPPORT. The state after reset (R373, R456; log entries 5 and 52). -/

namespace Sys2Proof.Machine
open Sys2Proof

-- Proofs elaborated in threads of their own would pass the check's limit of memory.
set_option Elab.async false

/-- The address of a window register lies between the package's registers and those of MC-E. -/
theorem rCore_lt_mceBase {n o : Nat} (hn : n < 2048) (ho : o < 0x2000) : rCore n o < 0x0200_0000 := by
  unfold rCore coreBase; omega

/-- Of a core's window only the heel's slot and the threshold of narrow weights have a reset value other than 0 (Table 18.12). -/
theorem regDefault_rCore {n o : Nat} (hn : n < 2048) (ho : o < 0x2000) :
    regDefault (rCore n o) = if o = oHeel then 0xFFFF else if o = oNwThresh then 0xFFFF_FFFF else 0 := by
  have hlt := rCore_lt_mceBase hn ho
  have hlow : ∀ r < coreBase, rCore n o ≠ r := fun r hr => rCore_ne_low hr
  have hhigh : ∀ r, rCore n o ≠ mceBase + r := fun r => by unfold mceBase; omega
  have hbase : coreBase ≤ rCore n o := coreReg_rCore n o
  have hport : ¬ (0x8_0000 ≤ rCore n o ∧ rCore n o < 0x9_2000 ∧ rCore n o % 0x1000 = 0) := by
    unfold coreBase at hbase; omega
  have hoff : (rCore n o - coreBase) % 0x2000 = o := coreOff_rCore ho n
  unfold regDefault
  rw [if_neg (not_or.2 ⟨hlow _ (by decide), hhigh _⟩), if_neg (hhigh _), if_neg (hlow _ (by decide)), if_neg (hlow _ (by decide)),
    if_neg (hlow _ (by decide)), if_neg (hlow _ (by decide)), if_neg (hlow _ (by decide)), if_neg (hlow _ (by decide)),
    if_neg (hlow _ (by decide)), if_neg (hlow _ (by decide)), if_neg (hlow _ (by decide)), if_neg (hlow _ (by decide)),
    if_neg (not_or.2 ⟨hlow _ (by decide), hlow _ (by decide)⟩), if_neg hport, if_neg (hlow _ (by decide)), if_pos ⟨hbase, hlt⟩, hoff]

/-- A window register holds its default after reset: the registers loaded from fuses lie elsewhere. -/
theorem reg_reset_rCore {n o : Nat} (hn : n < 2048) (ho : o < 0x2000) : State.reset.reg (rCore n o) = (regDefault (rCore n o)).toNat := by
  have hlt := rCore_lt_mceBase hn ho
  have hbase : coreBase ≤ rCore n o := coreReg_rCore n o
  have hkeys : ∀ e ∈ resetRegs, e.1 < coreBase ∨ 0x0200_0000 ≤ e.1 := by decide +kernel
  have hskip : ∀ l : List (Nat × W64), (∀ e ∈ l, e.1 < coreBase ∨ 0x0200_0000 ≤ e.1) →
      mapGet regDefault l (rCore n o) = regDefault (rCore n o) := by
    intro l
    induction l with
    | nil => exact fun _ => rfl
    | cons e l ih =>
      intro h
      have he := h e List.mem_cons_self
      rw [mapGet, if_neg (by omega)]
      exact ih fun x hx => h x (List.mem_cons_of_mem _ hx)
  exact congrArg BitVec.toNat (hskip _ hkeys)

theorem reset_wf : State.reset.Wf :=
  ⟨by decide +kernel, mapWf_nil, mapWf_nil, mapWf_nil, fun _ h => absurd h List.not_mem_nil, mapWf_nil, mapWf_nil⟩

/-- Settles O4: the reset values of the package's registers by evaluation, those of the core windows from their defaults. -/
theorem resetState : Obligations.ResetState := by
  refine ⟨⟨by decide +kernel, rfl, rfl, fun _ => rfl, by decide +kernel, by decide +kernel, by decide +kernel, by decide +kernel,
    by decide +kernel, by decide +kernel, by decide +kernel, by decide +kernel, fun n hn => ?_⟩, reset_wf⟩
  have hstate : State.reset.reg (rCore n oState) = 0 := by rw [reg_reset_rCore hn (by decide), regDefault_rCore hn (by decide)]; rfl
  have hheel : State.reset.reg (rCore n oHeel) = 0xFFFF := by rw [reg_reset_rCore hn (by decide), regDefault_rCore hn (by decide)]; rfl
  constructor
  · rw [State.cstate, State.cfld, State.fld, hstate]; decide
  · rw [State.cfld, State.fld, hheel]; decide

end Sys2Proof.Machine
end

section
/-! SUPPORT. The I3C targets (R463, R466 to R468): a command of a live package with SB33, and reads of registers through them. -/

namespace Sys2Proof.Machine
open Sys2Proof

-- Proofs elaborated in threads of their own would pass the check's limit of memory.
set_option Elab.async false

variable {s t : State}

theorem next_of_i3c (hd : s.dark = false) (hb : s.pkg.sb33 = true) :
    (.next (if s.dark then s else if s.pkg.sb33 then t else s) : Res) = .next t := by
  rw [hd, hb]
  rfl

theorem next_of_no_sb33 (hb : s.pkg.sb33 = false) : (.next (if s.dark then s else if s.pkg.sb33 then t else s) : Res) = .next s := by
  rw [hb]
  split <;> rfl

/-! ### Registers -/

theorem State.accessCode_setMc (s : State) (m n : Mc) (v : McSt) (x : Nat) : (s.setMc m v).accessCode n x = s.accessCode n x := by
  cases m <;> rfl

theorem State.setMc_dark (s : State) (m : Mc) (v : McSt) : (s.setMc m v).dark = s.dark := by cases m <;> rfl

/-- A write that is not served changes nothing and answers its code (Table 12.6). -/
theorem State.regWrite_refused {m : Mc} {x : Nat} (h : s.accessCode m x ≠ 0) (v : Nat) : s.regWrite m x v = (s.accessCode m x, s) := by
  unfold State.regWrite
  cases hb : blockOf x with
  | none => simp only [State.accessCode, hb]
  | some b =>
    cases hf : regFields x with
    | none => simp only [State.accessCode, hb, hf]
    | some fs => exact if_pos h

/-- A write that is served answers code 0. -/
theorem State.regWrite_served {m : Mc} {x : Nat} (h : s.accessCode m x = 0) (v : Nat) : (s.regWrite m x v).1 = 0 := by
  unfold State.regWrite
  split
  · rw [if_neg (not_not.2 h)]
  · rename_i hno
    rw [State.accessCode] at h
    split at h
    · exact absurd ‹_› (hno _ _ ‹_›)
    · exact absurd h (by decide)

/-- A read that is not served changes nothing and answers its code with value 0 (Table 12.6). -/
theorem State.regRead_refused {m : Mc} {x : Nat} (h : s.accessCode m x ≠ 0) : s.regRead m x = (s.accessCode m x, 0, s) := by
  unfold State.regRead
  cases hb : blockOf x with
  | none => simp only [State.accessCode, hb]
  | some b =>
    cases hf : regFields x with
    | none => simp only [State.accessCode, hb, hf]
    | some fs => exact if_pos h

/-- A read that is served answers the register's readable bits and clears its RC fields (R451). -/
theorem State.regRead_served {m : Mc} {x : Nat} {b : Block} {fs : List FieldDef} (h : s.accessCode m x = 0)
    (hb : blockOf x = some b) (hf : regFields x = some fs) (hu : s.unmapped b x = false) :
    s.regRead m x = (0, (regReadVal fs (s.reg (regKey m b x))).1,
      s.setReg (regKey m b x) (regReadVal fs (s.reg (regKey m b x))).2) := by
  simp only [State.regRead, hb, hf, h, hu, ne_eq, not_true_eq_false, if_false, Bool.false_eq_true]

theorem State.setReg_regsOnly (w : s.Wf) (r v : Nat) : regsOnly s (s.setReg r v) [r] :=
  ⟨rfl, fun x hx => State.reg_setReg_ne w.regs (by simpa using hx) v⟩

/-! ### Private writes and reads -/

theorem State.privateWrite_refused {m : Mc} {bs : List Byte} (hl : bs.length = 12) (hc : s.accessCode m (fieldLe bs 0 4) ≠ 0) :
    s.privateWrite m bs = s.setMc m { s.mc m with ptr := fieldLe bs 0 4, lastWr := s.accessCode m (fieldLe bs 0 4) } := by
  have hc' : (s.setMc m { s.mc m with ptr := fieldLe bs 0 4 }).accessCode m (fieldLe bs 0 4) ≠ 0 := by rwa [s.accessCode_setMc]
  rw [State.privateWrite, if_neg (by omega), if_pos hl]
  dsimp only
  rw [State.regWrite_refused hc', s.accessCode_setMc]
  cases m <;> rfl

theorem ofLe_lt (l : List Byte) : ofLe l < 256 ^ l.length := by
  induction l with
  | nil => decide
  | cons b l ih =>
    have hb := b.isLt
    rw [ofLe, List.length_cons, Nat.pow_succ]
    omega

theorem fieldLe_lt (bs : List Byte) (o n : Nat) : fieldLe bs o n < 256 ^ n := by
  have h := ofLe_lt (slice bs o n)
  rwa [length_slice] at h

/-- A 12-byte write that is served sets the pointer, writes as REGISTER_WRITE does, and keeps status 0. -/
theorem State.privateWrite_served {m : Mc} {bs : List Byte} (hl : bs.length = 12) (hc : s.accessCode m (fieldLe bs 0 4) = 0) :
    let u := s.setMc m { s.mc m with ptr := fieldLe bs 0 4 }
    let t := (u.regWrite m (fieldLe bs 0 4) (BitVec.ofNat 64 (fieldLe bs 4 8)).toNat).2
    s.privateWrite m bs = t.setMc m { t.mc m with lastWr := 0 } := by
  have hc' : (s.setMc m { s.mc m with ptr := fieldLe bs 0 4 }).accessCode m (fieldLe bs 0 4) = 0 := by rwa [s.accessCode_setMc]
  have hv : (BitVec.ofNat 64 (fieldLe bs 4 8)).toNat = fieldLe bs 4 8 :=
    (BitVec.toNat_ofNat ..).trans (Nat.mod_eq_of_lt (fieldLe_lt bs 4 8))
  rw [State.privateWrite, if_neg (by omega), if_pos hl]
  dsimp only
  rw [hv, State.regWrite_served hc']

theorem State.privateRead_refused {m : Mc} (h : s.accessCode m (s.mc m).ptr ≠ 0) : s.privateRead m = { s with outbox := s.outbox
      ++ [.i3c m (leBytes 8 0 ++ leBytes 2 (s.accessCode m (s.mc m).ptr) ++ leBytes 2 (s.mc m).lastWr)] } := by
  rw [State.privateRead, State.regRead_refused h]
  rfl

theorem State.privateRead_served {m : Mc} {b : Block} {fs : List FieldDef} (h : s.accessCode m (s.mc m).ptr = 0)
    (hb : blockOf (s.mc m).ptr = some b) (hf : regFields (s.mc m).ptr = some fs) (hu : s.unmapped b (s.mc m).ptr = false) :
    s.privateRead m
      = (s.setReg (regKey m b (s.mc m).ptr) (regReadVal fs (s.reg (regKey m b (s.mc m).ptr))).2).emit (.i3c m
          (leBytes 8 (regReadVal fs (s.reg (regKey m b (s.mc m).ptr))).1 ++ leBytes 2 0 ++ leBytes 2 (s.mc m).lastWr)) := by
  rw [State.privateRead, State.regRead_served h hb hf hu]
  cases m <;> rfl

theorem State.freeAnswer_spec (s : State) (m : Mc) (n : Nat) :
    ∃ a : List Byte, a.length = n ∧ s.freeAnswer m n = { s with outbox := s.outbox ++ [.i3c m a], free := s.free + 1 } :=
  ⟨leBytes n (Config.freeWord s.free).toNat, length_leBytes .., rfl⟩

/-- ENEC enables interrupts and sends the event held (R468). -/
theorem exec_enec (hd : s.dark = false) (hb : s.pkg.sb33 = true) (m : Mc) : ∃ t, exec (.enec m) s = .next t
    ∧ t.mc m = { s.mc m with ibiOn := true, ibiHeld := none } ∧ t.outbox = s.outbox ++ ((s.mc m).ibiHeld.map (Out.ibi m)).toList
    ∧ t.regs = s.regs ∧ t.mem = s.mem := by
  refine ⟨_, next_of_i3c hd hb, ?_⟩
  dsimp only
  cases (s.mc m).ibiHeld with
  | none => exact ⟨s.mc_setMc .., by simp, s.setMc_regs .., s.setMc_mem ..⟩
  | some c => exact ⟨by cases m <;> rfl, by cases m <;> rfl, by cases m <;> rfl, by cases m <;> rfl⟩

/-- Settles O51: each command of a target with SB33 is its own update, and without SB33 none does anything. -/
theorem i3cTargets : Obligations.I3cTargets := by
  intro m bs x y s w hd u code
  refine ⟨fun hb => ?_, fun hb c hc => ?_⟩
  · refine ⟨?pointer, ?refused, ?write, ?short, ?readRefused, ?read, ?setdasa, ?assigned, ?entdaa, ?kept, ?rstdaa, ?disec, ?enec, ?free⟩
    case pointer => exact fun hl => (next_of_i3c hd hb).trans (congrArg _ (if_pos hl))
    case refused => exact fun hl hc => (next_of_i3c hd hb).trans (congrArg _ (State.privateWrite_refused hl hc))
    case write =>
      exact fun hl hc => ⟨_, exec_registerWrite ((s.setMc_dark ..).trans hd) ..,
        (next_of_i3c hd hb).trans (congrArg _ (State.privateWrite_served hl hc))⟩
    case short =>
      intro h4 h12 c hc
      have hp : s.privateWrite m bs = s.setMc m { s.mc m with lastWr := 0xFFFF } := by rw [State.privateWrite, if_neg h4, if_neg h12]
      simp only [List.mem_cons, List.not_mem_nil, or_false] at hc
      rcases hc with rfl | rfl
      · exact (next_of_i3c hd hb).trans (congrArg _ hp)
      · exact (next_of_i3c hd hb).trans (congrArg _ hp)
    case readRefused => exact fun hc => (next_of_i3c hd hb).trans (congrArg _ (State.privateRead_refused hc))
    case read =>
      intro b fs hc hb' hf hu
      exact ⟨_, (next_of_i3c hd hb).trans (congrArg _ (State.privateRead_served hc hb' hf hu)), rfl, rfl, (State.setReg_regsOnly w ..).2⟩
    case setdasa =>
      exact fun hn hx => (next_of_i3c hd hb).trans (congrArg _ (if_pos ⟨hx, Option.isNone_iff_eq_none.2 hn⟩))
    case assigned =>
      intro h
      refine (next_of_i3c hd hb).trans (congrArg _ (if_neg fun ⟨hx, hn⟩ => h.elim (fun hsome => ?_) fun hne => hne hx))
      rw [Option.isNone_iff_eq_none.1 hn] at hsome
      cases hsome
    case entdaa => exact fun hn => (next_of_i3c hd hb).trans (congrArg _ (if_pos (Option.isNone_iff_eq_none.2 hn)))
    case kept =>
      intro h
      refine (next_of_i3c hd hb).trans (congrArg _ (if_neg fun hn => ?_))
      rw [Option.isNone_iff_eq_none.1 hn] at h
      cases h
    case rstdaa => exact next_of_i3c hd hb
    case disec => exact next_of_i3c hd hb
    case enec => exact exec_enec hd hb m
    case free =>
      intro c n hc
      simp only [List.mem_cons, List.not_mem_nil, or_false, Prod.mk.injEq] at hc
      obtain ⟨a, ha, he⟩ := s.freeAnswer_spec m n
      refine ⟨a, ha, ?_⟩
      rcases hc with ⟨rfl, rfl⟩ | ⟨rfl, rfl⟩ | ⟨rfl, rfl⟩ | ⟨rfl, rfl⟩ | ⟨rfl, rfl⟩ | ⟨rfl, rfl⟩ <;>
        exact (next_of_i3c hd hb).trans (congrArg _ he)
  · simp only [List.mem_cons, List.not_mem_nil, or_false] at hc
    rcases hc with rfl | rfl | rfl | rfl | rfl | rfl | rfl | rfl | rfl | rfl | rfl | rfl | rfl | rfl <;>
      exact next_of_no_sb33 hb

end Sys2Proof.Machine
end

section
/-! SUPPORT. Security operations (Chapter 17): how an operation starts and ends, and what each does. -/

namespace Sys2Proof.Machine
open Sys2Proof

-- Proofs elaborated in threads of their own would pass the check's limit of memory.
set_option Elab.async false

variable {s t : State} {m : Mc} {op : Nat} {k : State → State}

/-! ### Start and end -/

/-- The operation has been written to SEC_OP and runs. -/
def State.secOpened (s : State) (m : Mc) (op : Nat) : State :=
  { s with sec := { op, nonce := s.nonceBytes, mc := m } }.setFld rSecOpStat 0 1 1

theorem State.secOpened_regs (w : s.Wf) (m : Mc) (op : Nat) {r : Nat} (hr : r ≠ rSecOpStat) : (s.secOpened m op).reg r = s.reg r :=
  State.reg_setFld_ne (s := { s with sec := _ }) w.regs hr ..

theorem State.secOpened_fld (w : s.Wf) (m : Mc) (op lo n : Nat) {r : Nat} (hr : r ≠ rSecOpStat) :
    (s.secOpened m op).fld r lo n = s.fld r lo n := by rw [State.fld, State.secOpened_regs w m op hr]; rfl

theorem State.secOpened_rej (w : s.Wf) (m : Mc) (op : Nat) : (s.secOpened m op).fld rSecOpStat 5 1 = s.fld rSecOpStat 5 1 :=
  State.fld_setFld_disjoint (s := { s with sec := _ }) w.regs (by decide) (by decide) ..

theorem State.secOpened_wf (w : s.Wf) (m : Mc) (op : Nat) : (s.secOpened m op).Wf := ((Keeps.refl s).frame.setFld).wf w

/-- A row with no operation in progress is the write and the end together (log entry 36). -/
theorem State.secRun_opens (w : s.Wf) (h0 : s.fld rSecOpStat 0 1 = 0) (hop : op ≠ 0) (ha : s.secAllowed op = true) :
    s.secRun m op k = k (s.secOpened m op) := by
  have hidle : s.fld rSecOpStat 0 1 ≠ 1 := by omega
  have hstart : s.secStart m op = s.secOpened m op := by
    rw [State.secStart, if_neg hop, if_neg hidle, ha]; rfl
  have hbusy : (s.secOpened m op).fld rSecOpStat 0 1 = 1 := State.fld_setFld_same (s := { s with sec := _ }) w.regs (by decide) ..
  rw [State.secRun, if_neg hidle, hstart]
  exact if_pos hbusy

theorem State.secEnd_regs (w : s.Wf) (r out : Nat) {x : Nat} (hx : x ≠ rSecOpStat) : (s.secEnd r out).reg x = s.reg x :=
  State.reg_setReg_ne w.regs hx _

theorem State.secEnd_fld (w : s.Wf) (r out lo n : Nat) {x : Nat} (hx : x ≠ rSecOpStat) : (s.secEnd r out).fld x lo n = s.fld x lo n := by
  rw [State.fld, State.secEnd_regs w r out hx]; rfl

/-- SEC_OP_STAT at the end of an operation: DONE, RESULT and the bytes written, REJ as it was (Table 17.7). -/
theorem State.secEnd_stat (w : s.Wf) {r : Nat} (hr : r < 8) (out : Nat) :
    (s.secEnd r out).reg rSecOpStat = 2 + 2 ^ 2 * r + 2 ^ 5 * s.fld rSecOpStat 5 1 + 2 ^ 8 * (out % 2 ^ 24) := by
  have hrej := bitsOf_lt (s.reg rSecOpStat) 5 1
  exact State.reg_setReg_same w.regs _ (by simp only [State.fld]; omega)

/-- An operation that is not allowed ends with RESULT 4 and has no effect (R449). -/
theorem State.secRun_refused (w : s.Wf) (h0 : s.fld rSecOpStat 0 1 = 0) (hop : op ≠ 0) (ha : s.secAllowed op = false) :
    s.secRun m op k = s.secEnd 4 0 := by
  have hidle : s.fld rSecOpStat 0 1 ≠ 1 := by omega
  have hstart : s.secStart m op = s.secEnd 4 0 := by rw [State.secStart, if_neg hop, if_neg hidle, ha]; rfl
  have hended : (s.secEnd 4 0).fld rSecOpStat 0 1 ≠ 1 := by
    rw [State.fld, State.secEnd_stat w (by decide), bitsOf]; omega
  rw [State.secRun, if_neg hidle, hstart]
  exact if_neg hended

/-- While another operation is in progress a row sets REJ alone. -/
theorem State.secRun_busy (h1 : s.fld rSecOpStat 0 1 = 1) (hop : s.sec.op ≠ op) : s.secRun m op k = s.setFld rSecOpStat 5 1 1 := by
  rw [State.secRun, if_pos h1, if_neg hop]

/-! ### The seven rows -/

/-- The rows of the seven operations, each with the number that SEC_OP names it by (Table 17.6). -/
def secRows (ok : Bool) (m : Mc) (region rec : Option (List Byte)) : List (Instr × Nat) :=
  [(.attest ok m, 1), (.certOut ok, 2), (.fwWrite region ok, 3), (.svnCommit, 4), (.jobkey rec, 5), (.debugUnlock rec, 6), (.ownerEnrol rec, 7)]

/-- The row of an operation runs it, at the controller that receives it or at the leader. -/
theorem exec_secRow (hd : s.dark = false) {ok : Bool} {region rec : Option (List Byte)} {c : Instr}
    (hc : (c, op) ∈ secRows ok m region rec) : op ≠ 0 ∧ ∃ m' k, exec c s = .next (s.secRun m' op k) := by
  simp only [secRows, List.mem_cons, List.not_mem_nil, or_false, Prod.mk.injEq] at hc
  rcases hc with ⟨rfl, rfl⟩ | ⟨rfl, rfl⟩ | ⟨rfl, rfl⟩ | ⟨rfl, rfl⟩ | ⟨rfl, rfl⟩ | ⟨rfl, rfl⟩ | ⟨rfl, rfl⟩ <;>
    exact ⟨by decide, _, _, next_of_live hd⟩

section
variable (w : s.Wf) (hd : s.dark = false) (h0 : s.fld rSecOpStat 0 1 = 0)
include w hd h0

theorem exec_attest_opens (ok : Bool) (m : Mc) : exec (.attest ok m) s = .next ((s.secOpened m 1).attest ok) :=
  (next_of_live hd).trans (congrArg _ (State.secRun_opens (k := fun s => s.attest ok) w h0 (by decide) rfl))

theorem exec_certOut_opens (ok : Bool) (ha : s.secAllowed 2 = true) : exec (.certOut ok) s = .next ((s.secOpened s.leader 2).certOut ok) :=
  (next_of_live hd).trans (congrArg _ (State.secRun_opens (k := fun s => s.certOut ok) w h0 (by decide) ha))

theorem exec_fwWrite_opens (x : Option (List Byte)) (ok : Bool) (ha : s.secAllowed 3 = true) :
    exec (.fwWrite x ok) s = .next ((s.secOpened s.leader 3).fwWrite x ok) :=
  (next_of_live hd).trans (congrArg _ (State.secRun_opens (k := fun s => s.fwWrite x ok) w h0 (by decide) ha))

theorem exec_svnCommit_opens (ha : s.secAllowed 4 = true) : exec .svnCommit s = .next (s.secOpened s.leader 4).svnCommit :=
  (next_of_live hd).trans (congrArg _ (State.secRun_opens w h0 (by decide) ha))

theorem exec_jobkey_opens (x : Option (List Byte)) (ha : s.secAllowed 5 = true) :
    exec (.jobkey x) s = .next ((s.secOpened s.leader 5).jobkey x) :=
  (next_of_live hd).trans (congrArg _ (State.secRun_opens (k := fun s => s.jobkey x) w h0 (by decide) ha))

theorem exec_debugUnlock_opens (x : Option (List Byte)) (ha : s.secAllowed 6 = true) :
    exec (.debugUnlock x) s = .next ((s.secOpened s.leader 6).debugUnlock x) :=
  (next_of_live hd).trans (congrArg _ (State.secRun_opens (k := fun s => s.debugUnlock x) w h0 (by decide) ha))

theorem exec_ownerEnrol_opens (x : Option (List Byte)) (ha : s.secAllowed 7 = true) :
    exec (.ownerEnrol x) s = .next ((s.secOpened s.leader 7).ownerEnrol x) :=
  (next_of_live hd).trans (congrArg _ (State.secRun_opens (k := fun s => s.ownerEnrol x) w h0 (by decide) ha))

end

/-! ### SVN_COMMIT -/

theorem testBit_dropSlot (r slot k : Nat) (hk : k ≠ slot) : (r - 2 ^ slot * bitsOf r slot 1).testBit k = r.testBit k := by
  have h : r - 2 ^ slot * bitsOf r slot 1 = putBits r slot 1 0 := by simp [putBits]
  rw [h, testBit_putBits]
  split
  · rfl
  · rw [if_neg (by omega)]

theorem State.svnCommit_stat (w : s.Wf) : s.svnCommit.reg rSecOpStat = 2 + 2 ^ 5 * s.fld rSecOpStat 5 1 := by
  unfold State.svnCommit
  extract_lets nv mc co rv x
  have wx : x.Wf := ((Keeps.refl x).wf) ⟨w.regs, w.mem, w.ports, w.cores, w.sram, w.sqs, w.cqs⟩
  have h1 : OnRegs [rSecBootStat] x (((x.setFld rSecBootStat 14 6 mc).setFld rSecBootStat 20 6 co).setFld rSecBootStat 26 4 rv) :=
    (OnRegs.refl wx _).setFld.setFld.setFld
  have hrej := h1.fld (r := rSecOpStat) (by decide) 5 1
  rw [State.secEnd_stat h1.wf (by decide), hrej]
  rfl

/-! ### Data for the host -/

theorem PortsOnly.sendData' (h : PortsOnly s t) (p : Nat) (use : ReqUse) (f a : Nat) (bs : List Byte) : PortsOnly s (t.sendData' p use f a bs) := by
  induction f generalizing t a bs with
  | zero => exact h
  | succ f ih => exact .ite h (ih (h.request ..) ..)

theorem PortsOnly.fld (h : PortsOnly s t) (r lo n : Nat) : t.fld r lo n = s.fld r lo n := by rw [State.fld, h.reg]; rfl

/-- An operation that writes to the host ends with the bytes written, or with RESULT 3 where a write failed. -/
theorem State.secOut_spec (w : s.Wf) {p : Nat} (hp : s.secPort = some p) (ok : Bool) (bs : List Byte) :
    (s.secOut ok bs).reg rSecOpStat
        = (if ok = true then 2 + 2 ^ 5 * s.fld rSecOpStat 5 1 + 2 ^ 8 * (bs.length % 2 ^ 24) else 2 + 2 ^ 2 * 3 + 2 ^ 5 * s.fld rSecOpStat 5 1)
      ∧ (s.secOut ok bs).mem = s.mem ∧ (s.secOut ok bs).nv = s.nv ∧ (s.secOut ok bs).cores = s.cores := by
  unfold State.secOut
  rw [hp]
  dsimp only
  have hs := (PortsOnly.refl s).sendData' p .data (ceilDiv bs.length 64) (s.reg rSecOpAddr) bs
  have ws := ((Keeps.refl s).sendData' (p := p) (use := .data) (k := ceilDiv bs.length 64) (a := s.reg rSecOpAddr) (bs := bs)).wf w
  generalize s.sendData' p .data (ceilDiv bs.length 64) (s.reg rSecOpAddr) bs = u at hs ws ⊢
  cases ok
  · refine ⟨?_, hs.mem, by rw [hs]; rfl, hs.cores⟩
    simp only [Bool.false_eq_true, if_false]
    rw [State.secEnd_stat ws (by decide), hs.fld]
    omega
  · refine ⟨?_, hs.mem, by rw [hs]; rfl, hs.cores⟩
    simp only [if_true]
    rw [State.secEnd_stat ws (by decide), hs.fld]
    omega

theorem State.secPort_congr (h : ∀ p < 18, t.reg (rPortMode p) = s.reg (rPortMode p) ∧ t.reg (rPortStat p) = s.reg (rPortStat p)) :
    t.secPort = s.secPort := by
  have hmode : t.hlPorts = s.hlPorts := by
    unfold State.hlPorts
    refine List.filter_congr fun p hp => ?_
    rw [State.mode, State.fld, (h p (List.mem_range.1 hp)).1]; rfl
  unfold State.secPort
  rw [hmode]
  refine List.find?_congr fun p hp => ?_
  rw [State.portUp, State.portState, State.fld, (h p (List.mem_range.1 (List.mem_filter.1 hp).1)).2]; rfl

theorem State.secOpened_secPort (w : s.Wf) (m : Mc) (op : Nat) : (s.secOpened m op).secPort = s.secPort :=
  State.secPort_congr fun p hp => ⟨State.secOpened_regs w m op (by simp [rPortMode, rSecOpStat]; omega),
    State.secOpened_regs w m op (by simp [rPortStat, rSecOpStat]; omega)⟩

/-! ### ATTEST -/

@[simp] theorem length_digestBytes (d : Digest) : (digestBytes d).length = 64 := length_leBytes ..

@[simp] theorem length_optDigest (d : Option Digest) : (optDigest d).length = 64 := by
  cases d with
  | none => exact List.length_replicate
  | some d => exact length_digestBytes d

theorem length_flatMap_leBytes (n : Nat) (l : List Nat) (f : Nat → Nat) : (l.flatMap fun i => leBytes n (f i)).length = n * l.length := by
  induction l with
  | nil => rfl
  | cons x l ih => rw [List.flatMap_cons, List.length_append, length_leBytes, ih, List.length_cons]; ring

/-- The head of a report has 512 bytes where the nonce has 64 (Table 17.5). -/
theorem State.length_reportHead (hn : s.sec.nonce.length = 64) (m : Mc) : (s.reportHead m).length = 512 := by
  have hmagic : (ascii "TCHKATST").length = 8 := by decide
  unfold State.reportHead
  extract_lets nv fw svn slot flags
  generalize sha3_512 _ = d, sha3_512 _ = e
  simp only [List.length_append, length_leBytes, List.length_replicate, length_digestBytes, length_optDigest, length_flatMap_leBytes,
    List.length_range, hn, hmagic]

theorem length_report {head : List Byte} (h : head.length = 512) (sig : Nat) :
    (head ++ leBytes 4627 sig ++ List.replicate 45 0#8).length = 5184 := by
  rw [List.length_append, List.length_append, h, length_leBytes, List.length_replicate]

/-- ATTEST writes the 5,184 bytes of its report (R448). -/
theorem State.attest_spec (w : s.Wf) (hn : s.sec.nonce.length = 64) {p : Nat} (hp : s.secPort = some p) (ok : Bool) :
    (s.attest ok).reg rSecOpStat
        = (if ok = true then 2 + 2 ^ 5 * s.fld rSecOpStat 5 1 + 2 ^ 8 * 5184 else 2 + 2 ^ 2 * 3 + 2 ^ 5 * s.fld rSecOpStat 5 1)
      ∧ (s.attest ok).mem = s.mem ∧ (s.attest ok).nv = s.nv ∧ (s.attest ok).cores = s.cores := by
  unfold State.attest
  extract_lets head sig
  have wf : { s with free := s.free + 1 }.Wf := ⟨w.regs, w.mem, w.ports, w.cores, w.sram, w.sqs, w.cqs⟩
  have h := State.secOut_spec wf hp ok (head ++ leBytes 4627 sig.toNat ++ List.replicate 45 0#8)
  rw [length_report (State.length_reportHead hn _)] at h
  exact h

/-! ### FW_WRITE -/

theorem State.regionResult_le (s : State) (bs : List Byte) : s.regionResult bs ≤ 2 := by
  have hle : ∀ x : FwCheck, fwResult x ≤ 2 := fun x => match x with
    | .ok _ => Nat.zero_le _
    | .bad => by decide
    | .rollback => by decide
  unfold State.regionResult
  extract_lets a
  split
  · exact hle _
  · exact hle _

/-- A region that is long enough to be written: what FW_WRITE does with it (R442). -/
theorem State.fwWrite_sized (h0 : 0 < s.reg rSecOpLen) (hl : s.reg rSecOpLen ≤ regionBytes) (bs : List Byte) :
    let img := slice bs 0 (s.reg rSecOpLen)
    (s.regionResult img ≠ 0 → ∀ ok, s.fwWrite (some bs) ok = s.secEnd (s.regionResult img) 0)
    ∧ (s.regionResult img = 0 → s.pkg.sb33 = false → ∀ ok, s.fwWrite (some bs) ok = s.secEnd 3 0)
    ∧ (s.regionResult img = 0 → s.pkg.sb33 = true →
        s.fwWrite (some bs) true = (s.setRegion (1 - (s.mc s.leader).region) img).secEnd 0 0) := by
  intro img
  have hsize : ¬ (s.reg rSecOpLen = 0 ∨ regionBytes < s.reg rSecOpLen) := by omega
  refine ⟨fun hr ok => ?_, fun hr hb ok => ?_, fun hr hb => ?_⟩
  · rw [State.fwWrite]
    dsimp only
    rw [if_neg hsize, if_pos hr]
  · rw [State.fwWrite]
    dsimp only
    rw [if_neg hsize, if_neg (not_not.2 hr), hb]
    rfl
  · rw [State.fwWrite]
    dsimp only
    rw [if_neg hsize, if_neg (not_not.2 hr), hb]
    rfl

/-- The region that is not booted from is the one programmed. -/
theorem State.setRegion_other (s : State) (r : Nat) (bs : List Byte) :
    s.setRegion (1 - r) bs = { s with nv := if r = 0 then { s.nv with regionB := bs } else { s.nv with regionA := bs } } := by
  unfold State.setRegion
  by_cases hr : r = 0
  · subst hr; rfl
  · rw [if_pos (by omega), if_neg hr]

/-! ### JOBKEY, DEBUG_UNLOCK and OWNER_ENROL -/

/-- A listed signature under a key with the fused digest is the owner's (R444, R446). -/
theorem State.ownerSigned_of_mem {o : Digest} (ho : s.nv.owner = some o) {f : SigFact} (hf : f ∈ s.sigs) (hk : sha3_512 f.key = o) :
    s.ownerSigned f.ctx f.dig f.sig = true := by
  unfold State.ownerSigned
  rw [ho]
  exact List.any_eq_true.2 ⟨f, hf, by simp [hk]⟩

/-- Bits below the summand's place are not touched by it. -/
theorem bitsOf_add_high {i n : Nat} (hi : i < n) (m x : Nat) : bitsOf (m + 2 ^ n * x) i 1 = bitsOf m i 1 := by
  obtain ⟨d, rfl⟩ := Nat.exists_eq_add_of_lt hi
  have hsplit : m + 2 ^ (i + d + 1) * x = m + 2 ^ i * (2 * (2 ^ d * x)) := by ring
  rw [bitsOf, bitsOf, hsplit, Nat.add_mul_div_left _ _ (by positivity), pow_one, Nat.add_mul_mod_self_left]

/-- The mask of the slots in a state, as SEC_JOB_KEY shows it. -/
def slotMask (keys : List KeySlot) (k : Nat) : Nat :=
  (List.range 8).foldl (fun m n => if (keys.getD n ⟨0, []⟩).state = k then m + 2 ^ n else m) 0

theorem slotMask_bits (keys : List KeySlot) (k : Nat) : slotMask keys k < 2 ^ 8
    ∧ ∀ i < 8, bitsOf (slotMask keys k) i 1 = b2n (decide ((keys.getD i ⟨0, []⟩).state = k)) := by
  have hsum : slotMask keys k = (List.range 8).foldl (fun m i => m + 2 ^ i * b2n (decide ((keys.getD i ⟨0, []⟩).state = k))) 0 := by
    unfold slotMask
    congr 1
    funext m n
    by_cases h : (keys.getD n ⟨0, []⟩).state = k
    · rw [if_pos h, decide_eq_true h]; exact congrArg (m + ·) (Nat.mul_one _).symm
    · rw [if_neg h, decide_eq_false h]; rfl
  rw [hsum]
  exact bitsOf_foldl_bits fun i _ => by unfold b2n; split <;> decide

theorem State.showKeys_eq (s : State) : s.showKeys
    = s.setReg rSecJobKey (slotMask s.nv.keys 1 + 2 ^ 8 * slotMask s.nv.keys 2 + 2 ^ 16 * (s.nv.keySeq % 2 ^ 32)) := rfl

/-- Each enrolled slot shows in SEC_JOB_KEY (Table 17.7). -/
theorem State.showKeys_enrolled (w : s.Wf) {i : Nat} (hi : i < 8) (hk : (s.nv.keys.getD i ⟨0, []⟩).state = 1) :
    bitsOf (s.showKeys.reg rSecJobKey) i 1 = 1 := by
  obtain ⟨hm1, hbits⟩ := slotMask_bits s.nv.keys 1
  have hm2 := (slotMask_bits s.nv.keys 2).1
  rw [State.showKeys_eq, State.reg_setReg_same w.regs _ (by omega), bitsOf_add_high (by omega), bitsOf_add_high hi, hbits i hi, hk]
  rfl

/-- A record that passes its checks enrols its key (R444, R445). -/
theorem State.jobkey_enrols {o : Digest} {key sig bs : List Byte} (hlen : 7296 ≤ s.reg rSecOpLen) (ho : s.nv.owner = some o)
    (hs : ⟨key, ascii "TCHK-JKEY", sha3_512 (slice bs 0 0xA40), sig⟩ ∈ s.sigs) (hk : sha3_512 key = o) (hsig : slice bs 0xA40 4627 = sig)
    (hl : bs.length = 7296) (hmagic : slice bs 0 8 = ascii "TCHKJKEY") (hver : fieldLe bs 8 2 = 1) (hact : fieldLe bs 10 1 = 1)
    (hslot : fieldLe bs 11 1 < 8) (hser : fieldLe bs 16 16 = s.nv.serial.toNat) (hseq : s.nv.keySeq < fieldLe bs 12 4)
    (hempty : (s.nv.keys.getD (fieldLe bs 11 1) ⟨0, []⟩).state = 0) :
    s.jobkey (some bs) = ({ s with nv := { s.nv with keys := s.nv.keys.set (fieldLe bs 11 1) { state := 1, key := slice bs 0x20 2592 }
                                                     keySeq := fieldLe bs 12 4 } }.showKeys).secEnd 0 0 := by
  have hall : slice bs 0 7296 = bs := by rw [← hl, slice_all]
  have hsigned : s.ownerSigned (ascii "TCHK-JKEY") (sha3_512 (slice bs 0 0xA40)) sig = true := State.ownerSigned_of_mem ho hs hk
  have hform : ¬ (s.reg rSecOpLen < 7296 ∨ slice bs 0 8 ≠ ascii "TCHKJKEY" ∨ fieldLe bs 8 2 ≠ 1
      ∨ (fieldLe bs 10 1 ≠ 1 ∧ fieldLe bs 10 1 ≠ 2) ∨ 8 ≤ fieldLe bs 11 1) := by
    simp only [hmagic, hver, hact, ne_eq, not_true_eq_false, false_and, false_or]
    omega
  have hserial : s.serialOk true (fieldLe bs 16 16) = true := by simp [State.serialOk, hser]
  have hstate : ¬ ((!s.serialOk true (fieldLe bs 16 16)) = true ∨ fieldLe bs 12 4 ≤ s.nv.keySeq
      ∨ (s.nv.keys.getD (fieldLe bs 11 1) ⟨0, []⟩).state + 1 ≠ fieldLe bs 10 1) := by
    rw [hserial, hempty, hact]
    simp [hseq]
  rw [State.jobkey]
  dsimp only
  rw [hall, if_neg hform, ho, hsig, hsigned, if_neg hstate, if_pos hact]
  rfl

/-- A token for this package and nonce unlocks, one for another nonce ends with RESULT 4 (R447, log entry 37). -/
theorem State.debugUnlock_signed {o : Digest} {key sig bs : List Byte} (hlen : 4736 ≤ s.reg rSecOpLen) (ho : s.nv.owner = some o)
    (hs : ⟨key, ascii "TCHK-DBG", sha3_512 (slice bs 0 0x60), sig⟩ ∈ s.sigs) (hk : sha3_512 key = o) (hsig : slice bs 0x60 4627 = sig)
    (hl : bs.length = 4736) (hmagic : slice bs 0 8 = ascii "TCHKDBGU") (hver : fieldLe bs 8 2 = 1)
    (hser : fieldLe bs 16 16 = s.nv.serial.toNat) :
    s.debugUnlock (some bs) = if slice bs 0x20 64 = s.sec.nonce then (s.setFld rSecBootStat 34 1 1).secEnd 0 0 else s.secEnd 4 0 := by
  have hall : slice bs 0 4736 = bs := by rw [← hl, slice_all]
  have hsigned : s.ownerSigned (ascii "TCHK-DBG") (sha3_512 (slice bs 0 0x60)) sig = true := State.ownerSigned_of_mem ho hs hk
  have hform : ¬ (s.reg rSecOpLen < 4736 ∨ slice bs 0 8 ≠ ascii "TCHKDBGU" ∨ fieldLe bs 8 2 ≠ 1) := by
    simp only [hmagic, hver, ne_eq, not_true_eq_false, or_false]
    omega
  have hserial : s.serialOk false (fieldLe bs 16 16) = true := by simp [State.serialOk, hser]
  rw [State.debugUnlock]
  rw [hall, if_neg hform, ho, hsig, hsigned, hserial]
  by_cases hn : slice bs 0x20 64 = s.sec.nonce
  · simp [hn]
  · simp [hn]

theorem State.ownerEnrol_sized {bs : List Byte} (hlen : 2592 ≤ s.reg rSecOpLen) :
    s.ownerEnrol (some bs)
      = ({ s with nv := { s.nv with owner := some (sha3_512 (slice bs 0 2592)) } }.setFld rSecBootStat 32 1 1).secEnd 0 0 := by
  rw [State.ownerEnrol]
  exact if_neg (by omega)

/-! ### The obligation's clauses -/

theorem State.secOpened_nonce (s : State) (m : Mc) (op : Nat) : (s.secOpened m op).sec.nonce = s.nonceBytes := rfl

theorem State.length_nonceBytes (s : State) : s.nonceBytes.length = 64 := by
  rw [State.nonceBytes, length_flatMap_leBytes, List.length_range]

/-- The SEC_OP_STAT with which an operation of this package ends. -/
theorem State.secOpened_secEnd_stat (w : s.Wf) (m : Mc) (op : Nat) {r : Nat} (hr : r < 8) (out : Nat) :
    ((s.secOpened m op).secEnd r out).reg rSecOpStat = 2 + 2 ^ 2 * r + 2 ^ 5 * s.fld rSecOpStat 5 1 + 2 ^ 8 * (out % 2 ^ 24) := by
  rw [State.secEnd_stat (State.secOpened_wf w m op) hr, State.secOpened_rej w]

/-- An operation that only ends leaves everything but SEC_OP_STAT and the operation's own record. -/
theorem State.secEnd_regsOnly (w : s.Wf) (r out : Nat) : regsOnly { s with sec := (s.secEnd r out).sec } (s.secEnd r out) [rSecOpStat] :=
  ⟨rfl, fun _ hx => State.secEnd_regs w r out (List.ne_of_not_mem_cons hx)⟩

theorem State.secOpened_secEnd_regsOnly (w : s.Wf) (m : Mc) (op r out : Nat) :
    regsOnly { s with sec := ((s.secOpened m op).secEnd r out).sec } ((s.secOpened m op).secEnd r out) [rSecOpStat] :=
  ⟨rfl, fun _ hx => (State.secEnd_regs (State.secOpened_wf w m op) r out (List.ne_of_not_mem_cons hx)).trans
    (State.secOpened_regs w m op (List.ne_of_not_mem_cons hx))⟩

/-- An operation that fuses a record, shows it in a register and ends. -/
theorem State.setReg_secEnd (w : s.Wf) (nv : Nv) {a : Nat} (ha : a ≠ rSecOpStat) (v : Nat) :
    (({ s with nv }.setReg a v).secEnd 0 0).reg rSecOpStat = 2 + 2 ^ 5 * s.fld rSecOpStat 5 1
      ∧ (({ s with nv }.setReg a v).secEnd 0 0).reg a = ({ s with nv }.setReg a v).reg a := by
  have wn : { s with nv }.Wf := ⟨w.regs, w.mem, w.ports, w.cores, w.sram, w.sqs, w.cqs⟩
  have hset : OnRegs [a] { s with nv } ({ s with nv }.setReg a v) := (OnRegs.refl wn _).setReg (List.mem_singleton_self a)
  refine ⟨?_, State.secEnd_regs hset.wf 0 0 ha⟩
  rw [State.secEnd_stat hset.wf (by decide), hset.fld (by simpa using ha.symm)]
  rfl

/-- SVN_COMMIT raises the counters and the revocations of the images that run (R443). -/
theorem State.svnCommit_nv (s : State) :
    (∀ f, s.pkg.mcFw = some f → s.svnCommit.nv.mcCtr = max s.nv.mcCtr f.svn)
    ∧ (∀ f, s.pkg.coreFw = some f → s.svnCommit.nv.coreCtr = max s.nv.coreCtr f.svn)
    ∧ (s.pkg.mcFw = none → s.svnCommit.nv.mcCtr = s.nv.mcCtr ∧ s.svnCommit.nv.revoked = s.nv.revoked)
    ∧ (s.pkg.coreFw = none → s.svnCommit.nv.coreCtr = s.nv.coreCtr)
    ∧ (∀ f, s.pkg.mcFw = some f → ∀ k, k ≠ f.slot → s.svnCommit.nv.revoked.testBit k = (s.nv.revoked.testBit k || f.revoke.testBit k)) := by
  refine ⟨fun f hf => ?_, fun f hf => ?_, fun hf => ⟨?_, ?_⟩, fun hf => ?_, fun f hf k hk => ?_⟩ <;> unfold State.svnCommit <;> rw [hf]
  iterate 5 rfl
  exact (Nat.testBit_or ..).trans (congrArg _ (testBit_dropSlot f.revoke f.slot k hk))

/-- Settles O59, row by row: the write and the end are one command, so each clause is the operation's own lemma in the opened state. -/
theorem securityOperations : Obligations.SecurityOperations := by
  unfold Obligations.SecurityOperations
  intro m ok region rec bs s w hd rej ops
  have wo (m : Mc) (op : Nat) : (s.secOpened m op).Wf := State.secOpened_wf w m op
  have hreg (m : Mc) (op : Nat) {r : Nat} (hr : r ≠ rSecOpStat) : (s.secOpened m op).reg r = s.reg r := State.secOpened_regs w m op hr
  have hrej (m : Mc) (op : Nat) : (s.secOpened m op).fld rSecOpStat 5 1 = s.fld rSecOpStat 5 1 := State.secOpened_rej w m op
  have hend (m : Mc) (op : Nat) {r : Nat} (hr : r < 8) : ((s.secOpened m op).secEnd r 0).reg rSecOpStat = 2 + 2 ^ 2 * r + rej :=
    State.secOpened_secEnd_stat w m op hr 0
  refine ⟨?busy, ?refused, ?svn, ?out, ?fw, ?jobkey, ?unlock, ?enrol⟩
  case busy =>
    intro c op hc h1 hop
    obtain ⟨-, m', k, hexec⟩ := exec_secRow hd hc
    rw [State.secRun_busy h1 hop] at hexec
    exact ⟨_, hexec, ((OnRegs.refl w [rSecOpStat]).setFld).only, State.fld_setFld_same w.regs (by decide) ..,
      State.fld_setFld_disjoint w.regs (by decide) (by decide) ..⟩
  case refused =>
    intro c op hc h0 ha
    obtain ⟨hop, m', k, hexec⟩ := exec_secRow hd hc
    rw [State.secRun_refused w h0 hop ha] at hexec
    exact ⟨_, hexec, State.secEnd_stat w (by decide) 0, State.secEnd_regsOnly w 4 0⟩
  case svn =>
    intro h0 ha
    obtain ⟨hmc, hcore, hnomc, hnocore, hrevoked⟩ := State.svnCommit_nv (s.secOpened s.leader 4)
    refine ⟨_, exec_svnCommit_opens w hd h0 ha, ?_, hmc, hcore, hnomc, hnocore, hrevoked, rfl, rfl⟩
    rw [State.svnCommit_stat (wo ..), hrej]
  case out =>
    intro h0 p hp
    have hp' (m : Mc) (op : Nat) : (s.secOpened m op).secPort = some p := (State.secOpened_secPort w m op).trans hp
    refine ⟨⟨_, exec_attest_opens w hd h0 ok m, ?_⟩, fun ha hl hl24 => ?_, fun ha hl => ?_⟩
    · obtain ⟨hstat, hmem, hnv, hcores⟩ := State.attest_spec (wo m 1) (State.length_nonceBytes s) (hp' m 1) ok
      rw [hrej] at hstat
      exact ⟨hstat, hmem, hnv, hcores⟩
    · have hfits : ¬ (s.secOpened s.leader 2).reg rSecOpLen < s.nv.cert.length := by rw [hreg _ _ (by decide)]; omega
      obtain ⟨hstat, hmem, hnv, -⟩ := State.secOut_spec (wo s.leader 2) (hp' _ 2) true s.nv.cert
      rw [hrej, if_pos rfl, Nat.mod_eq_of_lt hl24] at hstat
      have hcert : (s.secOpened s.leader 2).certOut true = (s.secOpened s.leader 2).secOut true s.nv.cert := if_neg hfits
      rw [← hcert] at hstat hmem hnv
      exact ⟨_, exec_certOut_opens w hd h0 true ha, hstat, hmem, hnv⟩
    · have hshort : (s.secOpened s.leader 2).reg rSecOpLen < s.nv.cert.length := by rw [hreg _ _ (by decide)]; exact hl
      have hcert : (s.secOpened s.leader 2).certOut ok = (s.secOpened s.leader 2).secEnd 5 0 := if_pos hshort
      exact ⟨_, (exec_certOut_opens w hd h0 ok ha).trans (congrArg _ hcert), hend _ _ (by decide), State.secOpened_secEnd_regsOnly w ..⟩
  case fw =>
    intro h0 ha hlen hmax img
    have hl := hreg s.leader 3 (r := rSecOpLen) (by decide)
    obtain ⟨hbad, hdry, hgood⟩ := State.fwWrite_sized (s := s.secOpened s.leader 3) (by rw [hl]; exact hlen) (by rw [hl]; exact hmax) bs
    rw [hl] at hbad hdry hgood
    have hle := s.regionResult_le img
    have hleader : (s.secOpened s.leader 3).leader = s.leader := by
      unfold State.leader; rw [State.secOpened_fld w _ _ _ _ (by decide)]
    refine ⟨fun hr => ⟨_, (exec_fwWrite_opens w hd h0 (some bs) ok ha).trans (congrArg _ (hbad hr ok)), hend _ _ (Nat.lt_of_le_of_lt hle (by decide)), rfl, rfl⟩,
      fun hr hb => ⟨_, (exec_fwWrite_opens w hd h0 (some bs) ok ha).trans (congrArg _ (hdry hr hb ok)), hend _ _ (by decide), rfl, rfl⟩,
      fun hr hb => ⟨_, (exec_fwWrite_opens w hd h0 (some bs) true ha).trans (congrArg _ (hgood hr hb)), ?_, ?_, ?_⟩, hle⟩
    · rw [State.setRegion_other]
      exact hend s.leader 3 (r := 0) (by decide)
    · rw [State.setRegion_other]
      rfl
    · rw [State.setRegion_other, hleader]
      rfl
  case jobkey =>
    intro o key sig h0 ha hlen ho hs hk hsig hl hmagic hver hact hslot hser hseq hkeys hempty
    have henrol := State.jobkey_enrols (s := s.secOpened s.leader 5) (by rw [hreg _ _ (by decide)]; exact hlen) ho hs hk hsig hl hmagic hver
      hact hslot hser hseq hempty
    refine ⟨_, (exec_jobkey_opens w hd h0 (some bs) ha).trans (congrArg _ henrol), ?_, rfl, rfl, rfl, ?_⟩
    · exact (State.setReg_secEnd (wo s.leader 5) _ (a := rSecJobKey) (by decide) _).1.trans (by rw [hrej])
    · refine (congrArg (bitsOf · _ 1) (State.setReg_secEnd (wo s.leader 5) _ (a := rSecJobKey) (by decide) _).2).trans
        (State.showKeys_enrolled (s := { s.secOpened s.leader 5 with nv := _ }) ?_ hslot ?_)
      · have w' := wo s.leader 5
        exact ⟨w'.regs, w'.mem, w'.ports, w'.cores, w'.sram, w'.sqs, w'.cqs⟩
      · have hlt : fieldLe bs 11 1 < s.nv.keys.length := by rw [hkeys]; exact hslot
        have hset : (s.nv.keys.set (fieldLe bs 11 1) ⟨1, slice bs 0x20 2592⟩).getD (fieldLe bs 11 1) ⟨0, []⟩ = ⟨1, slice bs 0x20 2592⟩ := by
          rw [List.getD_eq_getElem _ _ (by rw [List.length_set]; exact hlt), List.getElem_set_self]
        exact congrArg KeySlot.state hset
  case unlock =>
    intro o key sig h0 ha hlen ho hs hk hsig hl hmagic hver hser
    have hunlock := State.debugUnlock_signed (s := s.secOpened s.leader 6) (by rw [hreg _ _ (by decide)]; exact hlen) ho hs hk hsig hl hmagic
      hver hser
    have hexec := (exec_debugUnlock_opens w hd h0 (some bs) ha).trans (congrArg _ hunlock)
    rw [State.secOpened_nonce] at hexec
    refine ⟨fun hn => ?_, fun hn => ?_⟩
    · rw [if_pos hn] at hexec
      obtain ⟨hstat, hboot⟩ := State.setReg_secEnd (wo s.leader 6) s.nv (a := rSecBootStat) (by decide)
        (putBits ((s.secOpened s.leader 6).reg rSecBootStat) 34 1 1)
      exact ⟨_, hexec, hstat.trans (by rw [hrej]),
        (congrArg (bitsOf · 34 1) hboot).trans (State.fld_setFld_same (s := { s.secOpened s.leader 6 with nv := s.nv }) (wo s.leader 6).regs (by decide) ..), rfl, rfl⟩
    · rw [if_neg hn] at hexec
      refine ⟨_, hexec, ?_, ?_, rfl, rfl⟩
      · rw [State.secEnd_fld (wo ..) _ _ _ _ (by decide)]; exact State.secOpened_fld w _ _ _ _ (by decide)
      · have hbit := bitsOf_lt (s.reg rSecOpStat) 5 1
        rw [State.fld, hend _ _ (by decide)]
        simp only [bitsOf, rej, State.fld] at hbit ⊢
        omega
  case enrol =>
    intro h0 ha hlen
    have henrol := State.ownerEnrol_sized (s := s.secOpened s.leader 7) (bs := bs) (by rw [hreg _ _ (by decide)]; exact hlen)
    refine ⟨_, (exec_ownerEnrol_opens w hd h0 (some bs) ha).trans (congrArg _ henrol), rfl, ?_, ?_, rfl⟩
    · exact (congrArg (bitsOf · 32 1) (State.setReg_secEnd (wo s.leader 7) _ (a := rSecBootStat) (by decide) _).2).trans
        (State.fld_setFld_same (s := { s.secOpened s.leader 7 with nv := _ }) (wo s.leader 7).regs (by decide) ..)
    · exact (State.setReg_secEnd (wo s.leader 7) _ (a := rSecBootStat) (by decide) _).1.trans (by rw [hrej])

end Sys2Proof.Machine
end

section
/-! SUPPORT. A MEM_WR into a block that cannot be written (R311, R336). -/

namespace Sys2Proof.Machine
open Sys2Proof

-- Proofs elaborated in threads of their own would pass the check's limit of memory.
set_option Elab.async false

/-- A package in MAP with port 0 UP in HOSTLINK mode, host window 0 open for writes, and the block at 0 failing the retry of its write. -/
def sWriteFails : State :=
  { State.reset with
    regs := [(rBuState, 3), (rHlWinLimit 0, 0xFFC0), (rHlWinAttr 0, 7), (rPortStat 0, 6)]
    pkg := { Pkg.reset with hbmUp := true }
    ports := [(0, { PortSt.reset with credits := [0, 0, 0, 16] })]
    failing := [0] }

theorem sWriteFails_wf : sWriteFails.Wf :=
  ⟨by decide +kernel, mapWf_nil, by decide +kernel, mapWf_nil, fun _ h => absurd h List.not_mem_nil, mapWf_nil, mapWf_nil⟩

/-- The line written to the failing block is lost: its first byte stays 0. -/
theorem sWriteFails_keeps : exec (.memWr 0 0 0 ⟨some (List.replicate 64 1#8), {}⟩) sWriteFails
      = .next (sWriteFails.memWrite 0 0 0 (List.replicate 64 1#8))
    ∧ (sWriteFails.memWrite 0 0 0 (List.replicate 64 1#8)).byte 0 = 0#8 := by
  refine ⟨?_, by decide +kernel⟩
  have hup : (sWriteFails.portUp 0 && sWriteFails.mode 0 == 2) = true := by decide
  exact (next_of_live (by decide)).trans (congrArg _ (if_pos hup))

/-- Refutes O52: MEM_WR to a mapped line that a window opens does not store its bytes where the write of the block fails its retry
(`failing`, R311), which the statement does not exclude. -/
theorem not_hostMemoryAccess : ¬ Obligations.HostMemoryAccess := by
  unfold Obligations.HostMemoryAccess
  intro h
  obtain ⟨hmem, -⟩ := h 0 0 0 0 (List.replicate 64 1#8) 0 0 ⟨0, [], false, none, false, 0⟩ sWriteFails sWriteFails_wf (by decide)
  obtain ⟨-, -, hwrite, -⟩ := hmem (by decide) (by decide) (by decide) (by decide) (by decide)
  obtain ⟨t, ht, -, hload, -⟩ := hwrite (by decide) (by decide) (by decide)
  obtain ⟨hexec, hbyte⟩ := sWriteFails_keeps
  obtain rfl : t = sWriteFails.memWrite 0 0 0 (List.replicate 64 1#8) := Host.Outcome.next.inj (ht.symm.trans hexec)
  have hfirst := congrArg (fun bs => bs.getD 0 0#8) hload
  exact absurd (hbyte.symm.trans hfirst) (by decide)

end Sys2Proof.Machine
end

section
/-! SUPPORT. Leadership (R373 to R377): the registers of the controllers, the handshake, LEADER_CONFLICT and what each of their
operations leaves alone. -/

namespace Sys2Proof.Machine
open Sys2Proof

-- Proofs elaborated in threads of their own would pass the check's limit of memory.
set_option Elab.async false

variable {s t u : State} {m : Mc} {R : Nat → Prop}

/-! ### MC_LEAD_STAT -/

/-- MC_LEAD_STAT of a controller. -/
def leadReg (m : Mc) : Nat := mcKey m + rMcLeadStat

theorem leadReg_other (m : Mc) : leadReg (mcOther m) ≠ leadReg m := by cases m <;> decide

theorem leadReg_ne_buState (m : Mc) : rBuState ≠ leadReg m := by cases m <;> decide

theorem State.lfld_setLfld_same (w : s.Wf) (m : Mc) {lo n : Nat} (h : lo + n ≤ 64) (x : Nat) :
    (s.setLfld m lo n x).lfld m lo n = x % 2 ^ n := State.fld_setFld_same w.regs h ..

theorem State.lfld_setLfld_disjoint (w : s.Wf) (m : Mc) {lo n lo' n' : Nat} (h : lo + n ≤ 64) (hd : lo' + n' ≤ lo ∨ lo + n ≤ lo')
    (x : Nat) : (s.setLfld m lo n x).lfld m lo' n' = s.lfld m lo' n' := State.fld_setFld_disjoint w.regs h hd ..

theorem State.lfld_of_reg (h : t.reg (leadReg m) = s.reg (leadReg m)) (lo n : Nat) : t.lfld m lo n = s.lfld m lo n :=
  congrArg (bitsOf · lo n) h

theorem State.lfld_setMc (s : State) (k : Mc) (v : McSt) (m : Mc) (lo n : Nat) : (s.setMc k v).lfld m lo n = s.lfld m lo n :=
  State.lfld_of_reg (by rw [State.reg, State.setMc_regs]; rfl) ..

theorem State.forced_of_pkg (h : t.pkg = s.pkg) (m : Mc) : t.forced m = s.forced m := by cases m <;> simp only [State.forced, h]

/-! ### Operations that leave memory, the fused records, the cores and the map alone -/

/-- From `s` to `t` the registers outside `R`, memory, the fused records, the job, the cores and the committed map stay. A proof follows
the operation, as with `Keeps`. -/
structure Spares (R : Nat → Prop) (s t : State) : Prop where
  wf    : s.Wf → t.Wf
  regs  : s.Wf → ∀ r, ¬ R r → t.reg r = s.reg r
  mem   : t.mem = s.mem
  nv    : t.nv = s.nv
  job   : t.job = s.job
  cores : t.cores = s.cores
  niMap : t.pkg.niMap = s.pkg.niMap

theorem Spares.refl (R : Nat → Prop) (s : State) : Spares R s s := ⟨id, fun _ _ _ => rfl, rfl, rfl, rfl, rfl, rfl⟩

theorem Spares.trans {R' : Nat → Prop} (h : Spares R s t) (k : Spares R' t u) : Spares (fun r => R r ∨ R' r) s u where
  wf w := k.wf (h.wf w)
  regs w r hr := (k.regs (h.wf w) r fun x => hr (.inr x)).trans (h.regs w r fun x => hr (.inl x))
  mem := k.mem.trans h.mem
  nv := k.nv.trans h.nv
  job := k.job.trans h.job
  cores := k.cores.trans h.cores
  niMap := k.niMap.trans h.niMap

theorem Spares.setReg (h : Spares R s t) {a v : Nat} (ha : R a) : Spares R s (t.setReg a v) where
  wf w := (Quiet.setReg t a v).wf (h.wf w)
  regs w r hr := (State.reg_setReg_ne (h.wf w).regs (fun e : r = a => hr (e ▸ ha)) v).trans (h.regs w r hr)
  mem := h.mem
  nv := h.nv
  job := h.job
  cores := h.cores
  niMap := h.niMap

theorem Spares.setFld (h : Spares R s t) {a lo n x : Nat} (ha : R a) : Spares R s (t.setFld a lo n x) := h.setReg ha

/-- A change of the parts that this relation does not speak of. -/
theorem Spares.frame (h : Spares R s t) (pkg : Pkg) (mcw mce : McSt) (fab : Fab) (outbox : List Out) (sec : SecSt)
    (hp : pkg.niMap = t.pkg.niMap := by rfl) : Spares R s { t with pkg, mcw, mce, fab, outbox, sec } where
  wf w := have v := h.wf w; ⟨v.regs, v.mem, v.ports, v.cores, v.sram, v.sqs, v.cqs⟩
  regs := h.regs
  mem := h.mem
  nv := h.nv
  job := h.job
  cores := h.cores
  niMap := hp.trans h.niMap

theorem Spares.setMc (h : Spares R s t) {m : Mc} {v : McSt} : Spares R s (t.setMc m v) := by
  cases m
  · exact h.frame ..
  · exact h.frame ..

theorem Spares.ibi (h : Spares R s t) {m : Mc} {code : Nat} : Spares R s (t.ibi m code) := by
  unfold State.ibi
  split
  · exact h.frame ..
  · exact h.setMc

theorem Spares.ite {c : Prop} [Decidable c] (h : c → Spares R s t) (k : ¬ c → Spares R s u) : Spares R s (if c then t else u) := by
  split
  · exact h ‹_›
  · exact k ‹_›

theorem Spares.lfld (h : Spares R s t) (w : s.Wf) {m : Mc} (hm : ¬ R (leadReg m)) (lo n : Nat) : t.lfld m lo n = s.lfld m lo n :=
  State.lfld_of_reg (h.regs w _ hm) lo n

theorem Spares.fld (h : Spares R s t) (w : s.Wf) {r : Nat} (hr : ¬ R r) (lo n : Nat) : t.fld r lo n = s.fld r lo n := by
  rw [State.fld, h.regs w r hr]; rfl

/-! ### Taking a role -/

theorem State.heed_spares (s : State) (m : Mc) : Spares (· = leadReg m) s (s.heed m) := by
  unfold State.heed
  exact .ite (fun _ => .refl _ s) fun _ => .ite (fun _ => (Spares.setMc (.refl _ s)).setFld rfl)
    fun _ => .ite (fun _ => .setMc (.refl _ s)) fun _ => .refl _ s

/-- A controller whose role is settled heeds nothing. -/
theorem State.heed_settled (h : s.roleFree m = false) : s.heed m = s := by
  rw [State.heed, h]; rfl

/-- A controller that has seen LEAD follows (R374). -/
theorem State.heed_lead (h : s.roleFree m = true) (hl : (s.mc m).sawLead = true) :
    s.heed m = (s.setMc m { s.mc m with follow := true }).setLfld m 1 2 2 := by
  rw [State.heed, h, hl]; rfl

/-- A controller that has seen FAIL and no LEAD asserts LEAD (R374). -/
theorem State.heed_fail (h : s.roleFree m = true) (hl : (s.mc m).sawLead = false) (hf : (s.mc m).sawFail = true) :
    s.heed m = s.setMc m { s.mc m with lead := true } := by
  rw [State.heed, h, hl, hf]; rfl

/-- A controller that has seen neither heeds nothing. -/
theorem State.heed_nothing (hl : (s.mc m).sawLead = false) (hf : (s.mc m).sawFail = false) : s.heed m = s := by
  rw [State.heed, hl, hf]; exact ite_self s

theorem State.roleFree_iff : s.roleFree m = true ↔ (s.mc m).checked = true ∧ s.role m ≠ 3 ∧ (s.mc m).lead = false
    ∧ (s.mc m).follow = false ∧ s.forced m = false ∧ s.conflict m = false := by
  simp [State.roleFree, and_assoc]

/-- What a controller takes up with a new state of its own. -/
theorem State.roleFree_setMc (s : State) (m : Mc) (v : McSt) : (s.setMc m v).roleFree m = true ↔
    v.checked = true ∧ s.role m ≠ 3 ∧ v.lead = false ∧ v.follow = false ∧ s.forced m = false ∧ s.conflict m = false := by
  rw [State.roleFree_iff, State.mc_setMc, State.forced_of_pkg (s.setMc_pkg m v), State.role, State.conflict, State.lfld_setMc,
    State.lfld_setMc]
  rfl

theorem State.setMc_setMc (s : State) (m : Mc) (v x : McSt) : (s.setMc m v).setMc m x = s.setMc m x := by cases m <;> rfl

theorem State.mc_setLfld (s : State) (m k : Mc) (lo n x : Nat) : (s.setLfld m lo n x).mc k = s.mc k := by cases k <;> rfl

/-- A controller with a new state of its own takes role 2, follower. -/
theorem State.takeFollower_spec (w : s.Wf) (m : Mc) (v : McSt) :
    ((s.setMc m v).setLfld m 1 2 2).mc m = v ∧ ((s.setMc m v).setLfld m 1 2 2).role m = 2 :=
  ⟨(State.mc_setLfld ..).trans (State.mc_setMc ..), State.lfld_setLfld_same (((Spares.refl noReg s).setMc).wf w) m (by decide) 2⟩

theorem State.mc_heed_other (s : State) (m : Mc) : (s.heed m).mc (mcOther m) = s.mc (mcOther m) := by
  unfold State.heed
  split
  · rfl
  · split
    · exact s.mc_setMc_other ..
    · split
      · exact s.mc_setMc_other ..
      · rfl

/-! ### The end of a self-check -/

/-- Ports of a controller's half. -/
def halfPorts (m : Mc) : List Nat := (List.range 9).map ((if m = .west then 0 else 9) + ·)

theorem mem_halfPorts (m : Mc) (p : Nat) : p ∈ halfPorts m ↔ if m = .west then p < 9 else 9 ≤ p ∧ p < 18 := by
  cases m
  · simp [halfPorts]
  · simp only [halfPorts, reduceCtorEq, if_false, List.mem_map, List.mem_range]
    exact ⟨by rintro ⟨i, hi, rfl⟩; omega, fun h => ⟨p - 9, by omega, by omega⟩⟩

/-- A HOSTLINK port that is DOWN starts training. -/
def State.trainWhelp (s : State) (p : Nat) : State :=
  if s.mode p = 2 ∧ s.portState p = 0 then s.setFld (rPortStat p) 0 3 1 else s

theorem State.startWhelpTraining_eq (s : State) (m : Mc) : s.startWhelpTraining m = (halfPorts m).foldl State.trainWhelp s :=
  (List.foldl_map (f := ((if m = .west then 0 else 9) + ·)) (g := State.trainWhelp) (l := List.range 9) (init := s)).symm

theorem rPortStat_ne_mode (p q : Nat) : rPortMode p ≠ rPortStat q := by unfold rPortMode rPortStat; omega

/-- STAT of some port. -/
def isPortStat (r : Nat) : Prop := ∃ p, r = rPortStat p

theorem not_isPortStat_leadReg (m : Mc) : ¬ isPortStat (leadReg m) := by
  rintro ⟨p, h⟩
  cases m <;> simp only [leadReg, mcKey, mceBase, rMcLeadStat, rPortStat] at h <;> omega

theorem State.trainWhelp_spares (s : State) (p : Nat) : Spares isPortStat s (s.trainWhelp p) :=
  .ite (fun _ => .setFld (.refl _ s) ⟨p, rfl⟩) fun _ => .refl _ s

theorem Spares.foldl {α : Type} {f : State → α → State} (hf : ∀ s x, Spares R s (f s x)) (l : List α) (s : State) :
    Spares R s (l.foldl f s) := by
  induction l generalizing s with
  | nil => exact .refl R s
  | cons x l ih =>
    have h := (hf s x).trans (ih (f s x))
    exact { h with regs := fun w r hr => h.regs w r fun x => hr (or_self_iff.1 x) }

theorem State.startWhelpTraining_spares (s : State) (m : Mc) : Spares isPortStat s (s.startWhelpTraining m) :=
  State.startWhelpTraining_eq s m ▸ .foldl State.trainWhelp_spares _ s

theorem State.startWhelpTraining_mc (s : State) (m k : Mc) : (s.startWhelpTraining m).mc k = s.mc k := by
  rw [State.startWhelpTraining_eq]
  refine foldl_keep (fun t => State.mc t k) (fun t p => ?_) _ s
  unfold State.trainWhelp
  split
  · cases k <;> rfl
  · rfl

theorem Spares.mode (h : Spares R s t) (w : s.Wf) (hR : ∀ p, ¬ R (rPortMode p)) (p : Nat) : t.mode p = s.mode p := h.fld w (hR p) ..

/-- A port that trains is in state 1, and every other port as it was. -/
theorem State.trainWhelp_portState (w : s.Wf) (p q : Nat) :
    (s.trainWhelp p).portState q = if q = p ∧ s.mode p = 2 ∧ s.portState p = 0 then 1 else s.portState q := by
  unfold State.trainWhelp
  by_cases hp : s.mode p = 2 ∧ s.portState p = 0
  · rw [if_pos hp]
    by_cases hq : q = p
    · rw [if_pos ⟨hq, hp⟩, hq]
      exact State.fld_setFld_same w.regs (by decide) ..
    · rw [if_neg fun h => hq h.1]
      exact State.fld_setFld_ne w.regs (fun e => hq (rPortStat_inj e)) ..
  · rw [if_neg hp, if_neg fun h => hp h.2]

/-- Every HOSTLINK port of the half that was DOWN trains, and no other port's state changes (R373, R324). -/
theorem State.trainWhelps_portState (w : s.Wf) {l : List Nat} (hl : l.Nodup) (q : Nat) :
    (l.foldl State.trainWhelp s).portState q = if q ∈ l ∧ s.mode q = 2 ∧ s.portState q = 0 then 1 else s.portState q := by
  induction l generalizing s with
  | nil => simp
  | cons p l ih =>
    obtain ⟨hp, hl⟩ := List.nodup_cons.1 hl
    have h := s.trainWhelp_spares p
    rw [List.foldl_cons, ih (h.wf w) hl, h.mode w (fun q ⟨k, e⟩ => rPortStat_ne_mode q k e), State.trainWhelp_portState w]
    by_cases hq : q = p
    · subst hq
      simp only [hp, false_and, if_false, true_and, List.mem_cons, true_or]
    · simp only [hq, false_and, if_false, List.mem_cons, false_or]

theorem State.startWhelpTraining_portState (w : s.Wf) {p : Nat} (hp : if m = .west then p < 9 else 9 ≤ p ∧ p < 18)
    (hm : s.mode p = 2) (h0 : s.portState p = 0) : (s.startWhelpTraining m).portState p = 1 := by
  have hnodup : (halfPorts m).Nodup := List.nodup_range.map fun _ _ h => Nat.add_left_cancel h
  rw [State.startWhelpTraining_eq, State.trainWhelps_portState w hnodup, if_pos ⟨(mem_halfPorts m p).2 hp, hm, h0⟩]

theorem State.startWhelpTraining_role (w : s.Wf) (m k : Mc) : (s.startWhelpTraining m).role k = s.role k :=
  (s.startWhelpTraining_spares m).lfld w (not_isPortStat_leadReg k) ..

theorem State.selfFail_spares (s : State) (m : Mc) : Spares (· = leadReg m) s (s.selfFail m) :=
  Spares.setMc (((Spares.refl (· = leadReg m) s).setFld rfl).setFld rfl)

/-- A controller whose self-check fails has role 3, asserts FAIL, and neither leads nor follows (R374). -/
theorem State.selfFail_spec (w : s.Wf) (m : Mc) : (s.selfFail m).role m = 3
    ∧ (s.selfFail m).mc m = { s.mc m with checked := true, lead := false, follow := false, failSig := true }
    ∧ (s.selfFail m).mc (mcOther m) = s.mc (mcOther m) := by
  have w1 : (s.setLfld m 1 2 3).Wf := ((Spares.refl (· = leadReg m) s).setFld rfl).wf w
  refine ⟨?_, ?_, ?_⟩
  · rw [State.role, State.selfFail, State.lfld_setMc, State.lfld_setLfld_disjoint w1 m (by decide) (by decide),
      State.lfld_setLfld_same w m (by decide)]
    rfl
  · rw [State.selfFail, State.mc_setMc]; cases m <;> rfl
  · rw [State.selfFail, State.mc_setMc_other]; cases m <;> rfl

/-- The region of the flash that the ROM chose, and its image, at a controller. -/
def State.bootRegion (s : State) (m : Mc) (r : Nat) (i : FwInfo) : State :=
  (match m with
    | .west => { s with pkg := { s.pkg with fwW := some i } }
    | .east => { s with pkg := { s.pkg with fwE := some i } } : State).setFld rSecBootStat (if m = Mc.west then 0 else 1) 1 r

theorem State.bootRegion_spares (s : State) (m : Mc) (r : Nat) (i : FwInfo) : Spares (· = rSecBootStat) s (s.bootRegion m r i) := by
  have h := Spares.refl (· = rSecBootStat) s
  cases m
  · exact (h.frame { s.pkg with fwW := some i } s.mcw s.mce s.fab s.outbox s.sec).setFld rfl
  · exact (h.frame { s.pkg with fwE := some i } s.mcw s.mce s.fab s.outbox s.sec).setFld rfl

theorem State.bootRegion_mc (s : State) (m : Mc) (r : Nat) (i : FwInfo) (k : Mc) : (s.bootRegion m r i).mc k = s.mc k := by
  cases m <;> cases k <;> rfl

theorem State.bootRegion_forced (s : State) (m : Mc) (r : Nat) (i : FwInfo) (k : Mc) : (s.bootRegion m r i).forced k = s.forced k := by
  cases m <;> cases k <;> rfl

theorem State.bootRegion_lfld (w : s.Wf) (m : Mc) (r : Nat) (i : FwInfo) (k : Mc) (lo n : Nat) :
    (s.bootRegion m r i).lfld k lo n = s.lfld k lo n :=
  (s.bootRegion_spares m r i).lfld w (show leadReg k ≠ rSecBootStat by cases k <;> decide) lo n

theorem State.candidate_of_lfld (h : t.lfld .west 3 1 = s.lfld .west 3 1) : t.candidate = s.candidate := by
  rw [State.candidate, h]; rfl

/-- A self-check that finds a valid image: the region that the ROM chose runs, and the candidate asserts LEAD (R374, R442). -/
def State.selfBoot (s : State) (m : Mc) (r : Nat) (i : FwInfo) : State :=
  (s.bootRegion m r i).setMc m { s.mc m with checked := true, region := r, lead := s.candidate == m }

theorem State.selfBoot_spares (s : State) (m : Mc) (r : Nat) (i : FwInfo) : Spares (· = rSecBootStat) s (s.selfBoot m r i) :=
  (s.bootRegion_spares m r i).setMc

theorem State.selfBoot_lfld (w : s.Wf) (m : Mc) (r : Nat) (i : FwInfo) (k : Mc) (lo n : Nat) :
    (s.selfBoot m r i).lfld k lo n = s.lfld k lo n := (State.lfld_setMc ..).trans (State.bootRegion_lfld w ..)

theorem State.selfBoot_roleFree (w : s.Wf) (m : Mc) (r : Nat) (i : FwInfo) : (s.selfBoot m r i).roleFree m = true ↔
    s.role m ≠ 3 ∧ s.candidate ≠ m ∧ (s.mc m).follow = false ∧ s.forced m = false ∧ s.conflict m = false := by
  have hrole : (s.bootRegion m r i).role m = s.role m := State.bootRegion_lfld w ..
  have hconf : (s.bootRegion m r i).conflict m = s.conflict m := congrArg (· == 1) (State.bootRegion_lfld w ..)
  rw [State.selfBoot, State.roleFree_setMc, hrole, hconf, State.bootRegion_forced]
  simp

/-- What MC_SELF_CHECK_DONE finds. -/
theorem exec_selfCheck (w : s.Wf) (hd : s.dark = false) (m : Mc) (rom sram : Bool) (hc : (s.mc m).checked = false) :
    (((rom && sram && s.pkg.sb33) = false ∨ romBoot s.nv s.sigs = none) →
        exec (.mcSelfCheckDone m rom sram) s = .next ((s.selfFail m).startWhelpTraining m))
    ∧ ∀ r i, (rom && sram && s.pkg.sb33) = true → romBoot s.nv s.sigs = some (r, i) →
        exec (.mcSelfCheckDone m rom sram) s = .next (((s.selfBoot m r i).heed m).startWhelpTraining m) := by
  refine ⟨fun h => ?_, fun r i hok hboot => ?_⟩
  · have hnone : (if rom && sram && s.pkg.sb33 then romBoot s.nv s.sigs else none) = none := by
      rcases h with h | h
      · rw [h]; rfl
      · rw [h]; exact ite_self none
    refine (next_of_live hd).trans (congrArg _ ((if_neg (by rw [hc]; decide)).trans ?_))
    simp only [hnone]
  · have hsome : (if rom && sram && s.pkg.sb33 then romBoot s.nv s.sigs else none) = some (r, i) := by rw [hok, hboot]; rfl
    have hmc := s.bootRegion_mc m r i m
    have hcand := State.candidate_of_lfld (State.bootRegion_lfld w m r i .west 3 1)
    refine (next_of_live hd).trans (congrArg _ ((if_neg (by rw [hc]; decide)).trans ?_))
    simp only [hsome]
    rw [State.selfBoot, ← hmc, ← hcand]
    cases m <;> rfl

theorem State.heed_keeps (s : State) (m : Mc) :
    ((s.heed m).mc m).checked = (s.mc m).checked ∧ ((s.heed m).mc m).region = (s.mc m).region := by
  unfold State.heed
  split
  · exact ⟨rfl, rfl⟩
  · split
    · cases m <;> exact ⟨rfl, rfl⟩
    · split
      · rw [State.mc_setMc]; exact ⟨rfl, rfl⟩
      · exact ⟨rfl, rfl⟩

/-- A self-check that is done spares all but the boot data, the controller's role and the training of its ports. -/
theorem Spares.checked (w : s.Wf) (h : Spares (fun r => r = leadReg m ∨ r = rSecBootStat) s u) :
    (u.startWhelpTraining m).mem = s.mem ∧ (u.startWhelpTraining m).cores = s.cores ∧ (u.startWhelpTraining m).nv = s.nv
      ∧ ∀ p, (if m = .west then p < 9 else 9 ≤ p ∧ p < 18) → s.mode p = 2 → s.portState p = 0 →
          (u.startWhelpTraining m).portState p = 1 := by
  have ht := u.startWhelpTraining_spares m
  refine ⟨ht.mem.trans h.mem, ht.cores.trans h.cores, ht.nv.trans h.nv, fun p hp hm h0 => ?_⟩
  have hport {r : Nat} (hr : r = rPortMode p ∨ r = rPortStat p) : ¬ (r = leadReg m ∨ r = rSecBootStat) := by
    simp only [leadReg, rMcLeadStat, rPortMode, rPortStat, rSecBootStat] at hr ⊢
    cases m <;> simp only [mcKey, mceBase] <;> omega
  exact State.startWhelpTraining_portState (h.wf w) hp ((h.fld w (hport (.inl rfl)) ..).trans hm)
    ((h.fld w (hport (.inr rfl)) ..).trans h0)

/-- Settles O9: the check's outcome, then what the controller has seen, then the ports of its half. -/
theorem selfCheckDecidesLead : Obligations.SelfCheckDecidesLead := by
  unfold Obligations.SelfCheckDecidesLead
  intro m rom sram s w hd
  refine ⟨fun hc => (next_of_live hd).trans (congrArg _ (if_pos hc)), fun hc => ?_⟩
  obtain ⟨hfail, hboot⟩ := exec_selfCheck w hd m rom sram hc
  by_cases hf : (rom && sram && s.pkg.sb33) = false ∨ romBoot s.nv s.sigs = none
  · have hs : Spares (fun r => r = leadReg m ∨ r = rSecBootStat) s (s.selfFail m) :=
      { s.selfFail_spares m with regs := fun w r hr => (s.selfFail_spares m).regs w r fun e => hr (.inl e) }
    obtain ⟨hrole, hmc, hother⟩ := State.selfFail_spec w m
    obtain ⟨hmem, hcores, hnv, hports⟩ := hs.checked w
    refine ⟨_, hfail hf, ?_, ?_, hmem, hcores, hnv, fun _ => ⟨?_, ?_, ?_⟩, fun r i hok hb => ?_, hports⟩
    · rw [State.startWhelpTraining_mc, hmc]
    · rw [State.startWhelpTraining_mc, hother]
    · rw [State.startWhelpTraining_role (hs.wf w), hrole]
    · rw [State.startWhelpTraining_mc, hmc]
    · rw [State.startWhelpTraining_mc, hmc]
    · exact hf.elim (fun h => absurd hok (by rw [h]; decide)) fun h => absurd hb (by rw [h]; exact nofun)
  · obtain ⟨hok, hsome⟩ := not_or.1 hf
    obtain ⟨⟨r, i⟩, hb⟩ := Option.ne_none_iff_exists'.1 hsome
    have hboots := hboot r i (by rw [← Bool.not_eq_false]; exact hok) hb
    have hsb := (s.selfBoot_spares m r i).trans ((s.selfBoot m r i).heed_spares m)
    have hs : Spares (fun r => r = leadReg m ∨ r = rSecBootStat) s ((s.selfBoot m r i).heed m) :=
      { hsb with regs := fun w r hr => hsb.regs w r fun e => hr e.symm }
    have hmc : (s.selfBoot m r i).mc m = { s.mc m with checked := true, region := r, lead := s.candidate == m } := State.mc_setMc ..
    obtain ⟨hchecked, hregion⟩ := (s.selfBoot m r i).heed_keeps m
    obtain ⟨hmem, hcores, hnv, hports⟩ := hs.checked w
    refine ⟨_, hboots, ?_, ?_, hmem, hcores, hnv, fun h => absurd h hf, fun r' i' _ hb' => ?_, hports⟩
    · rw [State.startWhelpTraining_mc, hchecked, hmc]
    · rw [State.startWhelpTraining_mc, State.mc_heed_other, State.selfBoot, State.mc_setMc_other, State.bootRegion_mc]
    · obtain ⟨rfl, rfl⟩ := Prod.mk.inj (Option.some.inj (hb.symm.trans hb'))
      have hrole : (s.selfBoot m r i).role m = s.role m := State.selfBoot_lfld w ..
      have hfree := State.selfBoot_roleFree w m r i
      have wb := (s.selfBoot_spares m r i).wf w
      rw [State.startWhelpTraining_mc, State.startWhelpTraining_role (hs.wf w), hregion, hmc]
      refine ⟨rfl, fun hcand => ?_, fun hcand hnl hnf => ?_, fun hcand h3 hfol hforced hconf => ⟨fun hl => ?_, fun hnl hsf => ?_⟩⟩
      · rw [State.heed_settled (by simpa [hcand] using mt hfree.1), hmc, hrole]
        exact ⟨by simp [hcand], rfl⟩
      · rw [State.heed_nothing (by rw [hmc]; exact hnl) (by rw [hmc]; exact hnf), hmc, hrole]
        exact ⟨by simp [hcand], rfl⟩
      · rw [State.heed_lead (hfree.2 ⟨h3, hcand, hfol, hforced, hconf⟩) (by rw [hmc]; exact hl), hmc]
        obtain ⟨hfollow, htwo⟩ := State.takeFollower_spec (s := s.selfBoot m r i) wb m { s.mc m with checked := true, region := r, lead := s.candidate == m, follow := true }
        rw [hfollow]
        exact ⟨rfl, htwo, by simp [hcand]⟩
      · rw [State.heed_fail (hfree.2 ⟨h3, hcand, hfol, hforced, hconf⟩) (by rw [hmc]; exact hnl) (by rw [hmc]; exact hsf), hmc, State.mc_setMc]
        exact ⟨rfl, (State.lfld_setMc ..).trans hrole⟩

/-! ### The leader -/

theorem State.showBoot_spares (s : State) : Spares (· = rSecBootStat) s s.showBoot := by
  unfold State.showBoot
  extract_lets +onlyGivenNames fw
  clear_value fw
  split
  · exact (((Spares.refl (· = rSecBootStat) s).frame _ s.mcw s.mce s.fab s.outbox s.sec).setFld rfl).setFld rfl
  · exact .refl _ s

theorem State.leader_of_fld (h : t.fld rBuState 6 1 = s.fld rBuState 6 1) : t.leader = s.leader := by rw [State.leader, h]; rfl

/-- A controller that becomes leader has role 1, and BU_STATE.LEADER names it (R374). -/
theorem State.makeLeader_spec (w : s.Wf) (m : Mc) : (s.makeLeader m).role m = 1 ∧ (s.makeLeader m).leader = m
    ∧ Spares (fun r => r = leadReg m ∨ r = rBuState ∨ r = rSecBootStat) s (s.makeLeader m) := by
  have hled := (Spares.refl (· = leadReg m) s).setFld (lo := 1) (n := 2) (x := 1) rfl
  have hnamed := (Spares.refl (· = rBuState) (s.setLfld m 1 2 1)).setFld (lo := 6) (n := 1) (x := if m = .east then 1 else 0) rfl
  have hboot := (((s.setLfld m 1 2 1).setFld rBuState 6 1 (if m = .east then 1 else 0))).showBoot_spares
  have w1 := hled.wf w
  have w2 := hnamed.wf w1
  have hall := hled.trans (hnamed.trans hboot)
  refine ⟨?_, ?_, { hall with regs := fun w r hr => hall.regs w r fun h => hr ?_ }⟩
  · exact (hboot.lfld w2 (show leadReg m ≠ rSecBootStat by cases m <;> decide) 1 2).trans
      ((hnamed.lfld w1 (leadReg_ne_buState m).symm 1 2).trans (State.lfld_setLfld_same w m (by decide) 1))
  · refine (State.leader_of_fld (hboot.fld w2 (by decide) 6 1)).trans ?_
    have hbit := State.fld_setFld_same (s := s.setLfld m 1 2 1) (a := rBuState) w1.regs (lo := 6) (w := 1) (by decide) (if m = .east then 1 else 0)
    rw [State.leader, hbit]
    cases m <;> rfl
  · rcases h with h | h | h
    · exact .inl h
    · exact .inr (.inl h)
    · exact .inr (.inr h)

theorem State.ibiBoth_spares (s : State) (code : Nat) : Spares noReg s (s.ibiBoth code) := by
  unfold State.ibiBoth
  have h1 : Spares noReg s (if s.role .west = 3 then s else s.ibi .west code) := .ite (fun _ => .refl _ s) fun _ => (Spares.refl _ s).ibi
  exact .ite (fun _ => h1) fun _ => h1.ibi

/-- WHELP, reached, shows in the record of the last trip at most. -/
theorem State.settleWhelp_spares (s : State) : Spares (· = rPwrTrip) s s.settleWhelp := by
  unfold State.settleWhelp
  extract_lets settled p u v
  refine .ite (fun _ => ?_) fun _ => .refl _ s
  have hu : Spares (· = rPwrTrip) s u := (Spares.refl _ s).frame ..
  have hv : Spares (· = rPwrTrip) s v := by
    unfold v
    split
    · exact .ite (fun _ => hu) fun _ => hu.setReg rfl
    · exact hu
  have h := hv.trans (State.ibiBoth_spares v 0)
  exact { h with regs := fun w r hr => h.regs w r fun h => h.elim hr id }

/-! ### The handshake -/

section
variable (hd : s.dark = false) (hch : s.pkg.channel = true)
include hd hch

theorem exec_sees_lead (h : (s.mc (mcOther m)).lead = true) :
    exec (.leaderHandshakeSignal m .lead) s = .next ((s.setMc m { s.mc m with sawLead := true }).heed m) :=
  (next_of_live hd).trans (congrArg _ ((if_neg (by rw [hch]; decide)).trans (if_pos h)))

theorem exec_sees_fail (h : (s.mc (mcOther m)).failSig = true) :
    exec (.leaderHandshakeSignal m .fail) s = .next ((s.setMc m { s.mc m with sawFail := true }).heed m) :=
  (next_of_live hd).trans (congrArg _ ((if_neg (by rw [hch]; decide)).trans (if_pos h)))

theorem exec_sees_follow (hc : (s.mc m).checked = true) (hf : (s.mc (mcOther m)).follow = true) (hl : (s.mc m).lead = true)
    (hr : s.role m = 0) (hforced : s.forced m = false) (hconf : s.conflict m = false) :
    exec (.leaderHandshakeSignal m .follow) s = .next (s.makeLeader m).settleWhelp := by
  have hall : ((s.mc (mcOther m)).follow && (s.mc m).checked && (s.mc m).lead && s.role m == 0 && !s.forced m && !s.conflict m) = true := by
    rw [hf, hc, hl, hr, hforced, hconf]; rfl
  exact (next_of_live hd).trans (congrArg _ ((if_neg (by rw [hch]; decide)).trans (if_pos hall)))

end

/-- Settles O10: a signal is remembered, then heeded where the role is free. -/
theorem handshakeSettlesLeadership : Obligations.HandshakeSettlesLeadership := by
  unfold Obligations.HandshakeSettlesLeadership
  intro m s w hd hc undecided
  refine ⟨fun hch => ⟨?lead, ?fail, ?settled, ?follow, ?alive⟩, fun hch => ⟨?deaf, ?lost⟩, ?timeout, next_of_live hd⟩
  case lead =>
    intro ho ⟨h3, hl, hf, hforced, hconf⟩
    have hfree : (s.setMc m { s.mc m with sawLead := true }).roleFree m = true :=
      (State.roleFree_setMc ..).2 ⟨hc, h3, hl, hf, hforced, hconf⟩
    have hexec := exec_sees_lead (m := m) hd hch ho
    rw [State.heed_lead hfree (by rw [State.mc_setMc]), State.mc_setMc, State.setMc_setMc] at hexec
    obtain ⟨hmc, hrole⟩ := State.takeFollower_spec w m { s.mc m with sawLead := true, follow := true }
    have hs := ((Spares.refl (· = leadReg m) s).setMc (m := m) (v := { s.mc m with sawLead := true, follow := true })).setFld
      (lo := 1) (n := 2) (x := 2) rfl
    exact ⟨_, hexec, by rw [hmc], hrole, (State.mc_setLfld ..).trans (State.mc_setMc_other ..), hs.regs w, hs.mem⟩
  case fail =>
    intro ho ⟨h3, hl, hf, hforced, hconf⟩ hnl
    have hfree : (s.setMc m { s.mc m with sawFail := true }).roleFree m = true :=
      (State.roleFree_setMc ..).2 ⟨hc, h3, hl, hf, hforced, hconf⟩
    rw [exec_sees_fail hd hch ho, State.heed_fail hfree (by rw [State.mc_setMc]; exact hnl) (by rw [State.mc_setMc]), State.mc_setMc,
      State.setMc_setMc]
  case settled =>
    intro hu
    have hbusy (v : McSt) (hv : v.lead = (s.mc m).lead ∧ v.follow = (s.mc m).follow) : (s.setMc m v).heed m = s.setMc m v := by
      refine State.heed_settled (Bool.eq_false_iff.2 fun h => hu ?_)
      obtain ⟨-, h3, hl, hf, hforced, hconf⟩ := (State.roleFree_setMc ..).1 h
      exact ⟨h3, hv.1.symm.trans hl, hv.2.symm.trans hf, hforced, hconf⟩
    exact ⟨fun ho => (exec_sees_lead hd hch ho).trans (congrArg _ (hbusy { s.mc m with sawLead := true } ⟨rfl, rfl⟩)),
      fun ho => (exec_sees_fail hd hch ho).trans (congrArg _ (hbusy { s.mc m with sawFail := true } ⟨rfl, rfl⟩))⟩
  case follow =>
    intro hf hl hr hforced hconf
    obtain ⟨hrole, hleader, hs⟩ := State.makeLeader_spec w m
    have hw := (s.makeLeader m).settleWhelp_spares
    have w' := hs.wf w
    exact ⟨_, exec_sees_follow hd hch hc hf hl hr hforced hconf,
      (hw.lfld w' (show leadReg m ≠ rPwrTrip by cases m <;> decide) 1 2).trans hrole,
      (State.leader_of_fld (hw.fld w' (by decide) 6 1)).trans hleader, hw.mem.trans hs.mem⟩
  case alive =>
    have hon : (s.pkg.channel && (s.mc m).checked) = true := by rw [hch, hc]; rfl
    refine ⟨_, (next_of_live hd).trans (congrArg _ (if_pos hon)), ((OnRegs.refl w [leadReg (mcOther m)]).setFld (List.mem_singleton_self _)).only, ?_⟩
    exact State.lfld_setLfld_same w _ (by decide) 1
  case deaf => exact (next_of_live hd).trans (congrArg _ (if_neg (by rw [hch]; exact Bool.false_ne_true)))
  case lost => exact fun sig => (next_of_live hd).trans (congrArg _ (if_pos (by rw [hch]; rfl)))
  case timeout =>
    intro ⟨h3, hl, hf, hforced, hconf⟩ hcand hnl hnf
    have hfree : (s.roleFree m && s.candidate != m && !(s.mc m).sawLead && !(s.mc m).sawFail) = true := by
      rw [State.roleFree_iff.2 ⟨hc, h3, hl, hf, hforced, hconf⟩, hnl, hnf]
      simp [hcand]
    exact (next_of_live hd).trans (congrArg _ (if_pos hfree))

/-! ### LEADER_CONFLICT -/

theorem State.loseCompute_mem (s : State) : s.loseCompute.mem = s.mem := (s.dropJobDescs_quiet noReg).mem

theorem State.loseCompute_nv (s : State) : s.loseCompute.nv = s.nv := (s.dropJobDescs_quiet noReg).nv

/-- A controller that becomes unconfirmed, before LEADER_CONFLICT shows: in RUN a fault, and past WHELP the compute part is lost (R376). -/
def State.conflictLosses (s : State) (m : Mc) : State :=
  let s := s.setMc m { s.mc m with lead := true, follow := false }
  let s := if s.running then s.raise cLeaderConflict 7 (if m = .east then 1 else 0) else s
  if s.bu = stWhelp then s else (s.loseCompute.keepStops s).trimPorts

theorem State.conflictLosses_spec (w : s.Wf) (m : Mc) : (s.conflictLosses m).Wf ∧ (s.conflictLosses m).mem = s.mem
    ∧ (s.conflictLosses m).nv = s.nv ∧ (s.bu ≠ 1 →
      (s.conflictLosses m).job = none ∧ (s.conflictLosses m).cores = [] ∧ (s.conflictLosses m).pkg.niMap = []) := by
  unfold State.conflictLosses
  extract_lets v a b
  have ha : Spares noReg s a := (Spares.refl _ s).setMc
  have hab : a.bu = s.bu := ha.fld w id 0 4
  have hb : b.mem = a.mem ∧ b.nv = a.nv ∧ (a.bu ≠ 1 → b.bu ≠ 1) := by
    unfold b
    split
    next hr => exact ⟨(a.raise_quiet ..).mem, (a.raise_quiet ..).nv, fun _ => by rw [State.raise_bu (ha.wf w) hr]; decide⟩
    next => exact ⟨rfl, rfl, id⟩
  obtain ⟨hmem, hnv, hbu⟩ := hb
  refine ⟨((((Keeps.refl s).setMc.when (·.raise)).unless (·.loseKeepTrim))).wf w, ?_, ?_, fun hne => ?_⟩
  · split
    · exact hmem.trans ha.mem
    · exact (State.loseCompute_mem b).trans (hmem.trans ha.mem)
  · split
    · exact hnv.trans ha.nv
    · exact (State.loseCompute_nv b).trans (hnv.trans ha.nv)
  · have hpast : ¬ b.bu = stWhelp := hbu (hab ▸ hne)
    rw [if_neg hpast]
    exact ⟨rfl, rfl, rfl⟩

/-- LEADER_CONFLICT shows at the controller, which leads, and in BU_STATE. -/
def State.showConflict (s : State) (m : Mc) : State :=
  let s := { s with pkg := { s.pkg with buOp := none, computeOn := false } }
  let s := (s.setLfld m 1 2 1).setLfld m 4 1 1
  ((s.setBu stWhelp).setFld rBuState 4 1 0).setFld rBuState 16 16 cLeaderConflict

theorem State.showConflict_spec (w : s.Wf) (m : Mc) : Spares (fun r => r = leadReg m ∨ r = rBuState) s (s.showConflict m)
    ∧ (s.showConflict m).role m = 1 ∧ (s.showConflict m).conflict m = true ∧ (s.showConflict m).bu = 1
    ∧ (s.showConflict m).fld rBuState 4 1 = 0 ∧ (s.showConflict m).fld rBuState 16 16 = 0x0B01 := by
  unfold State.showConflict
  extract_lets v a b
  have ha : Spares (fun r => r = leadReg m ∨ r = rBuState) s a := (Spares.refl _ s).frame ..
  have hb := (ha.setFld (lo := 1) (n := 2) (x := 1) (.inl rfl)).setFld (lo := 4) (n := 1) (x := 1) (.inl rfl)
  have w1 : (a.setLfld m 1 2 1).Wf := (ha.setFld (.inl rfl)).wf w
  have wb : b.Wf := hb.wf w
  have h3 := hb.setFld (a := rBuState) (lo := 0) (n := 4) (x := stWhelp) (.inr rfl)
  have h4 := h3.setFld (a := rBuState) (lo := 4) (n := 1) (x := 0) (.inr rfl)
  have h5 := h4.setFld (a := rBuState) (lo := 16) (n := 16) (x := cLeaderConflict) (.inr rfl)
  have hbus := (((Spares.refl (· = rBuState) b).setFld (a := rBuState) (lo := 0) (n := 4) (x := stWhelp) rfl).setFld
    (a := rBuState) (lo := 4) (n := 1) (x := 0) rfl).setFld (a := rBuState) (lo := 16) (n := 16) (x := cLeaderConflict) rfl
  have hl (lo n : Nat) := hbus.lfld wb (leadReg_ne_buState m).symm lo n
  refine ⟨h5, ?_, ?_, ?_, ?_, ?_⟩
  · exact (hl 1 2).trans ((State.lfld_setLfld_disjoint w1 m (by decide) (by decide) 1).trans
      (State.lfld_setLfld_same (ha.wf w) m (by decide) 1))
  · exact congrArg (· == 1) ((hl 4 1).trans (State.lfld_setLfld_same w1 m (by decide) 1))
  · exact (State.bu_setFld (h4.wf w).regs (by decide) (by decide)).trans ((State.bu_setFld (h3.wf w).regs (by decide) (by decide)).trans
      (State.fld_setFld_same wb.regs (by decide) ..))
  · exact (State.fld_setFld_disjoint (h4.wf w).regs (by decide) (by decide) ..).trans (State.fld_setFld_same (h3.wf w).regs (by decide) ..)
  · exact State.fld_setFld_same (h4.wf w).regs (by decide) ..

theorem State.enterConflict_eq (s : State) (m : Mc) :
    s.enterConflict m = (((s.conflictLosses m).showConflict m).ibi m cLeaderConflict).settleWhelp := rfl

/-- What an unconfirmed controller leaves (R375, R376). -/
def Conflicted (s t : State) (m : Mc) : Prop :=
  t.conflict m = true ∧ t.role m = 1 ∧ t.bu = 1 ∧ t.fld rBuState 16 16 = 0x0B01 ∧ t.fld rBuState 4 1 = 0 ∧ t.nv = s.nv
    ∧ t.mem = s.mem ∧ (s.bu ≠ 1 → t.job = none ∧ t.cores = [] ∧ t.pkg.niMap = [])

theorem State.enterConflict_spec (w : s.Wf) (m : Mc) : Conflicted s (s.enterConflict m) m := by
  obtain ⟨wl, hmem, hnv, hlost⟩ := State.conflictLosses_spec w m
  obtain ⟨hs, hrole, hconf, hbu, hbusy, hcode⟩ := State.showConflict_spec wl m
  have ws := hs.wf wl
  have hafter := ((Spares.refl noReg ((s.conflictLosses m).showConflict m)).ibi (m := m) (code := cLeaderConflict)).trans
    (State.settleWhelp_spares _)
  rw [← State.enterConflict_eq] at hafter
  have hne (m : Mc) : ¬ (noReg (leadReg m) ∨ leadReg m = rPwrTrip) := by
    rintro (h | h)
    · exact h
    · cases m <;> exact absurd h (by decide)
  have hbus : ¬ (noReg rBuState ∨ rBuState = rPwrTrip) := fun h => h.elim id (by decide)
  refine ⟨?_, (hafter.lfld ws (hne m) 1 2).trans hrole, (hafter.fld ws hbus 0 4).trans hbu, (hafter.fld ws hbus 16 16).trans hcode,
    (hafter.fld ws hbus 4 1).trans hbusy, hafter.nv.trans (hs.nv.trans hnv), hafter.mem.trans (hs.mem.trans hmem), fun h => ?_⟩
  · exact (congrArg (· == 1) (hafter.lfld ws (hne m) 4 1)).trans hconf
  · obtain ⟨hjob, hcores, hmap⟩ := hlost h
    exact ⟨hafter.job.trans (hs.job.trans hjob), hafter.cores.trans (hs.cores.trans hcores), hafter.niMap.trans (hs.niMap.trans hmap)⟩

/-! ### MC_LEAD_FORCE -/

/-- A controller that becomes leader keeps the other fields of its MC_LEAD_STAT, BU_STATE.CODE and the forced roles. -/
theorem State.makeLeader_keeps (w : s.Wf) (m : Mc) : (∀ lo n, lo + n ≤ 1 ∨ 3 ≤ lo → (s.makeLeader m).lfld m lo n = s.lfld m lo n)
    ∧ (s.makeLeader m).fld rBuState 16 16 = s.fld rBuState 16 16 ∧ ∀ k, (s.makeLeader m).forced k = s.forced k := by
  have hled := (Spares.refl (· = leadReg m) s).setFld (lo := 1) (n := 2) (x := 1) rfl
  have w1 := hled.wf w
  have hnamed := (Spares.refl (· = rBuState) (s.setLfld m 1 2 1)).setFld (lo := 6) (n := 1) (x := if m = .east then 1 else 0) rfl
  have hboot := (((s.setLfld m 1 2 1).setFld rBuState 6 1 (if m = .east then 1 else 0))).showBoot_spares
  refine ⟨fun lo n h => ?_, ?_, fun k => ?_⟩
  · exact (hboot.lfld (hnamed.wf w1) (show leadReg m ≠ rSecBootStat by cases m <;> decide) lo n).trans
      ((hnamed.lfld w1 (leadReg_ne_buState m).symm lo n).trans (State.lfld_setLfld_disjoint w m (by decide) h 1))
  · exact (hboot.fld (hnamed.wf w1) (by decide) 16 16).trans ((State.fld_setFld_disjoint w1.regs (by decide) (by decide) ..).trans
      (hled.fld w (leadReg_ne_buState m) 16 16))
  · rw [State.makeLeader, State.showBoot]
    dsimp only
    split <;> cases k <;> rfl

theorem State.endConflict_iff (s : State) : ([Mc.west, Mc.east].filter s.conflict).all s.forced = true ↔
    ∀ k, s.conflict k = true → s.forced k = true := by
  simp only [List.all_eq_true, List.mem_filter, List.mem_cons, List.not_mem_nil, or_false, and_imp]
  exact ⟨fun h k => h k (by cases k <;> simp), fun h k _ => h k⟩

/-- With every controller in conflict forced the conflict ends and CODE clears (R377, log entry 141). -/
theorem State.endConflict_ends (w : s.Wf) (h : ∀ k, s.conflict k = true → s.forced k = true) :
    (∀ k, s.endConflict.conflict k = false) ∧ s.endConflict.fld rBuState 16 16 = 0
      ∧ ∀ k lo n, lo + n ≤ 4 ∨ 5 ≤ lo → s.endConflict.lfld k lo n = s.lfld k lo n := by
  have he : s.endConflict = ((s.setLfld .west 4 1 0).setLfld .east 4 1 0).setFld rBuState 16 16 0 :=
    if_pos ((State.endConflict_iff s).2 h)
  have w1 := ((Keeps.refl s).setLfld (m := .west) (lo := 4) (w := 1) (x := 0)).wf w
  have w2 := ((Keeps.refl (s.setLfld .west 4 1 0)).setLfld (m := .east) (lo := 4) (w := 1) (x := 0)).wf w1
  have hcode := (Spares.refl (· = rBuState) ((s.setLfld .west 4 1 0).setLfld .east 4 1 0)).setFld (lo := 16) (n := 16) (x := 0) rfl
  have heast (lo n : Nat) : ((s.setLfld .west 4 1 0).setLfld .east 4 1 0).lfld .west lo n = (s.setLfld .west 4 1 0).lfld .west lo n :=
    State.fld_setFld_ne w1.regs (by decide) ..
  have hwest (lo n : Nat) : (s.setLfld .west 4 1 0).lfld .east lo n = s.lfld .east lo n := State.fld_setFld_ne w.regs (by decide) ..
  rw [he]
  refine ⟨fun k => ?_, State.fld_setFld_same w2.regs (by decide) .., fun k lo n hf => ?_⟩
  · have hk : (((s.setLfld .west 4 1 0).setLfld .east 4 1 0).setFld rBuState 16 16 0).lfld k 4 1 = 0 := by
      rw [hcode.lfld w2 (leadReg_ne_buState k).symm]
      cases k
      · rw [heast, State.lfld_setLfld_same w _ (by decide)]; rfl
      · rw [State.lfld_setLfld_same w1 _ (by decide)]; rfl
    rw [State.conflict, hk]; rfl
  · rw [hcode.lfld w2 (leadReg_ne_buState k).symm]
    cases k
    · rw [heast, State.lfld_setLfld_disjoint w _ (by decide) hf]
    · rw [State.lfld_setLfld_disjoint w1 _ (by decide) hf, hwest]

/-- While a controller in conflict is not forced the conflict goes on. -/
theorem State.endConflict_waits {k : Mc} (hc : s.conflict k = true) (hf : s.forced k = false) : s.endConflict = s :=
  if_neg fun h => absurd ((State.endConflict_iff s).1 h k hc) (by rw [hf]; decide)

theorem State.endConflict_spares (s : State) : s.endConflict.mem = s.mem ∧ s.endConflict.nv = s.nv
    ∧ ∀ k, s.endConflict.forced k = s.forced k := by
  rw [State.endConflict]
  dsimp only
  split
  · exact ⟨rfl, rfl, fun k => by cases k <;> rfl⟩
  · exact ⟨rfl, rfl, fun _ => rfl⟩

/-- A controller's role is forced, which MC_LEAD_STAT shows. -/
def State.markForced (s : State) (m : Mc) : State :=
  (match m with
    | .west => { s with pkg := { s.pkg with forcedW := true } }
    | .east => { s with pkg := { s.pkg with forcedE := true } } : State).setLfld m 5 1 1

theorem State.markForced_spec (w : s.Wf) (m : Mc) : Spares (· = leadReg m) s (s.markForced m) ∧ (s.markForced m).forced m = true
    ∧ (s.markForced m).forced (mcOther m) = s.forced (mcOther m) ∧ (s.markForced m).lfld m 5 1 = 1
    ∧ ∀ lo n, lo + n ≤ 5 → (s.markForced m).lfld m lo n = s.lfld m lo n := by
  have h := Spares.refl (· = leadReg m) s
  cases m
  · have hp := h.frame { s.pkg with forcedW := true } s.mcw s.mce s.fab s.outbox s.sec
    exact ⟨hp.setFld rfl, rfl, rfl, State.lfld_setLfld_same (hp.wf w) .west (by decide) 1,
      fun lo n hf => State.lfld_setLfld_disjoint (hp.wf w) .west (by decide) (.inl hf) 1⟩
  · have hp := h.frame { s.pkg with forcedE := true } s.mcw s.mce s.fab s.outbox s.sec
    exact ⟨hp.setFld rfl, rfl, rfl, State.lfld_setLfld_same (hp.wf w) .east (by decide) 1,
      fun lo n hf => State.lfld_setLfld_disjoint (hp.wf w) .east (by decide) (.inl hf) 1⟩

/-- The role that a write of MC_LEAD_FORCE gives a controller in conflict (R377). -/
def State.forceRole (s : State) (m : Mc) (lead : Nat) : State :=
  if (lead = 1 ∧ m = .west) ∨ (lead = 2 ∧ m = .east) then (s.markForced m).makeLeader m
  else ((s.markForced m).setLfld m 1 2 2).setMc m { (s.markForced m).mc m with lead := false, follow := true }

theorem State.leadForce_eq {v : Nat} (hc : s.conflict m = true) (hk : bitsOf v 16 16 = 0x4C44) (hl : bitsOf v 0 2 = 1 ∨ bitsOf v 0 2 = 2) :
    s.leadForce m v = (s.forceRole m (bitsOf v 0 2)).endConflict := by
  refine Eq.trans (if_pos ⟨hc, hk, hl⟩) ?_
  cases m <;> rfl

/-- What a controller with a forced role shows: of MC_LEAD_STAT ROLE and the mark, and the rest stays. -/
structure Forces (s t : State) (m : Mc) (role : Nat) : Prop where
  wf     : t.Wf
  mem    : t.mem = s.mem
  nv     : t.nv = s.nv
  forced : t.forced m = true
  other  : t.forced (mcOther m) = s.forced (mcOther m)
  conf   : ∀ k, t.conflict k = s.conflict k
  mark   : t.lfld m 5 1 = 1
  role   : t.role m = role
  code   : t.fld rBuState 16 16 = s.fld rBuState 16 16

theorem mc_cases (m k : Mc) : k = m ∨ k = mcOther m := by cases m <;> cases k <;> simp [mcOther]

theorem State.forceRole_spec (w : s.Wf) (m : Mc) (lead : Nat) :
    Forces s (s.forceRole m lead) m (if lead = (if m = .west then 1 else 2) then 1 else 2) := by
  obtain ⟨hs, hforced, hother, hmark, hkept⟩ := State.markForced_spec w m
  have ws := hs.wf w
  have hconf (k : Mc) : (s.markForced m).conflict k = s.conflict k := by
    rcases mc_cases m k with rfl | rfl
    · exact congrArg (· == 1) (hkept 4 1 (by decide))
    · exact congrArg (· == 1) (hs.lfld w (leadReg_other m) 4 1)
  have hcode := hs.fld w (leadReg_ne_buState m) 16 16
  have hside : ((lead = 1 ∧ m = .west) ∨ (lead = 2 ∧ m = .east)) ↔ lead = (if m = .west then 1 else 2) := by cases m <;> simp
  unfold State.forceRole
  by_cases hm : lead = (if m = .west then 1 else 2)
  · rw [if_pos (hside.2 hm), if_pos hm]
    obtain ⟨hrole, -, hled⟩ := State.makeLeader_spec ws m
    obtain ⟨hfields, hcode', hforced'⟩ := State.makeLeader_keeps ws m
    refine ⟨hled.wf ws, hled.mem.trans hs.mem, hled.nv.trans hs.nv, (hforced' m).trans hforced, (hforced' _).trans hother, fun k => ?_,
      (hfields 5 1 (by decide)).trans hmark, hrole, hcode'.trans hcode⟩
    rcases mc_cases m k with rfl | rfl
    · exact (congrArg (· == 1) (hfields 4 1 (by decide))).trans (hconf _)
    · refine (congrArg (· == 1) (hled.lfld ws ?_ 4 1)).trans (hconf _)
      cases m <;> decide
  · rw [if_neg (mt hside.1 hm), if_neg hm]
    have hrole := (Spares.refl (· = leadReg m) (s.markForced m)).setFld (lo := 1) (n := 2) (x := 2) rfl
    have hset := hrole.setMc (m := m) (v := { (s.markForced m).mc m with lead := false, follow := true })
    refine ⟨hset.wf ws, hset.mem.trans hs.mem, hset.nv.trans hs.nv, ?_, ?_, fun k => ?_, ?_, ?_, (hset.fld ws (leadReg_ne_buState m) 16 16).trans hcode⟩
    · exact (State.forced_of_pkg (State.setMc_pkg ..) m).trans ((State.forced_of_pkg rfl m).trans hforced)
    · exact (State.forced_of_pkg (State.setMc_pkg ..) _).trans ((State.forced_of_pkg rfl _).trans hother)
    · rcases mc_cases m k with rfl | rfl
      · exact (congrArg (· == 1) ((State.lfld_setMc ..).trans (State.lfld_setLfld_disjoint ws _ (by decide) (by decide) 2))).trans (hconf _)
      · exact (congrArg (· == 1) (hset.lfld ws (leadReg_other m) 4 1)).trans (hconf _)
    · exact (State.lfld_setMc ..).trans ((State.lfld_setLfld_disjoint ws m (by decide) (by decide) 2).trans hmark)
    · exact (State.lfld_setMc ..).trans (State.lfld_setLfld_same ws m (by decide) 2)

/-- Settles O11: what makes a controller unconfirmed enters the conflict; MC_LEAD_FORCE ends it once no controller in it is unforced. -/
theorem conflictAndForcedLead : Obligations.ConflictAndForcedLead := by
  unfold Obligations.ConflictAndForcedLead
  refine ⟨fun m s w hd => ?_, fun m v s w hd => ?_⟩
  · have hconfirm (hc : s.conflict m = false) (hf : s.forced m = false) (hl : (s.mc m).lead = true)
        (hr : (s.role m == 0 || s.role m == 1 && !(s.mc (mcOther m)).follow) = true) :
        exec (.leaderConfirmTimeout m) s = .next (s.enterConflict m) :=
      (next_of_live hd).trans (congrArg _ (if_pos (by rw [hl, hr, hc, hf]; rfl)))
    have hset : OnRegs [leadReg m] s (s.setLfld m 8 1 0) := (OnRegs.refl w _).setFld (List.mem_singleton_self _)
    have hkept (lo n : Nat) (h : lo + n ≤ 8) : (s.setLfld m 8 1 0).lfld m lo n = s.lfld m lo n :=
      State.lfld_setLfld_disjoint w m (by decide) (.inl h) 0
    refine ⟨fun hc hf hl hr => ⟨_, hconfirm hc hf hl (by rw [hr]; rfl), State.enterConflict_spec w m⟩,
      fun hc hf hl hr ho => ⟨_, hconfirm hc hf hl (by rw [hr, ho]; rfl), State.enterConflict_spec w m⟩, fun hc hf hr => ?_, fun h1 h2 => ?_⟩
    · have hany : (((s.setLfld m 8 1 0).role m == 1 || (s.setLfld m 8 1 0).role m == 2) && !(s.setLfld m 8 1 0).conflict m
          && !(s.setLfld m 8 1 0).forced m) = true := by
        have hforced : (s.setLfld m 8 1 0).forced m = false := (State.forced_of_pkg rfl m).trans hf
        have hconf : (s.setLfld m 8 1 0).conflict m = false := (congrArg (· == 1) (hkept 4 1 (by decide))).trans hc
        have hrole : (s.setLfld m 8 1 0).role m = s.role m := hkept 1 2 (by decide)
        rw [hforced, hconf, hrole]
        rcases hr with hr | hr
        · rw [hr]; rfl
        · rw [hr]; rfl
      obtain ⟨hconf, hrole, hbu, hcode, hbusy, hnv, hmem, hlost⟩ := State.enterConflict_spec hset.wf m
      exact ⟨_, (next_of_live hd).trans (congrArg _ (if_pos hany)), hconf, hrole, hbu, hcode, hbusy, hnv, hmem,
        fun h => hlost (by rw [State.bu, hset.fld (by simpa using leadReg_ne_buState m)]; exact h)⟩
    · have hnone : ¬ (((s.setLfld m 8 1 0).role m == 1 || (s.setLfld m 8 1 0).role m == 2) && !(s.setLfld m 8 1 0).conflict m
          && !(s.setLfld m 8 1 0).forced m) = true := by
        have hrole : (s.setLfld m 8 1 0).role m = s.role m := hkept 1 2 (by decide)
        rw [hrole]
        simp [h1, h2]
      exact ⟨_, (next_of_live hd).trans (congrArg _ (if_neg hnone)), hset.only, State.lfld_setLfld_same w m (by decide) 0⟩
  · refine ⟨fun hc hk hl => ?_, fun hbad => ?_⟩
    · have hf := State.forceRole_spec w m (bitsOf v.toNat 0 2)
      obtain ⟨hmem, hnv, hforced⟩ := (s.forceRole m (bitsOf v.toNat 0 2)).endConflict_spares
      have hends (h : s.conflict (mcOther m) = true → s.forced (mcOther m) = true) :=
        State.endConflict_ends hf.wf fun k hk => (mc_cases m k).elim (fun e => e ▸ hf.forced) fun e => by
          subst e
          exact hf.other.trans (h ((hf.conf _).symm.trans hk))
      have hshown (lo n : Nat) (h : lo + n ≤ 4 ∨ 5 ≤ lo) : (s.forceRole m (bitsOf v.toNat 0 2)).endConflict.lfld m lo n
          = (s.forceRole m (bitsOf v.toNat 0 2)).lfld m lo n := by
        by_cases ho : s.conflict (mcOther m) = true → s.forced (mcOther m) = true
        · exact (hends ho).2.2 m lo n h
        · obtain ⟨hc, hn⟩ := Classical.not_imp.1 ho
          rw [State.endConflict_waits ((hf.conf _).trans hc) (hf.other.trans (by simpa using hn))]
      refine ⟨_, (next_of_live hd).trans (congrArg _ (State.leadForce_eq hc hk hl)), (hforced m).trans hf.forced,
        (hshown 5 1 (by decide)).trans hf.mark, hmem.trans hf.mem, hnv.trans hf.nv, (hshown 1 2 (by decide)).trans hf.role, fun h => ?_,
        fun ho hn => ?_⟩
      · obtain ⟨hno, hzero, -⟩ := hends h
        exact ⟨hno m, hno _, hzero⟩
      · rw [State.endConflict_waits ((hf.conf _).trans ho) (hf.other.trans hn)]
        exact ⟨(hf.conf m).trans hc, hf.code⟩
    · have hrej : ¬ (s.conflict m = true ∧ bitsOf v.toNat 16 16 = 0x4C44 ∧ (bitsOf v.toNat 0 2 = 1 ∨ bitsOf v.toNat 0 2 = 2)) := by
        rintro ⟨hc, hk, hl⟩
        rcases hbad with h | h | h | h
        · rw [hc] at h; cases h
        · exact h hk
        · omega
        · omega
      exact ⟨_, (next_of_live hd).trans (congrArg _ (if_neg hrej)),
        ((OnRegs.refl w [leadReg m]).setFld (List.mem_singleton_self _)).only, State.lfld_setLfld_same w m (by decide) 1⟩

end Sys2Proof.Machine
end

section
/-! SUPPORT. The supplies (R22, R371, R373, R463): what a power-on loads, what a lost supply ends. -/

namespace Sys2Proof.Machine
open Sys2Proof

-- Proofs elaborated in threads of their own would pass the check's limit of memory.
set_option Elab.async false

variable {s t u : State} {m : Mc} {R R' : Nat → Prop}

/-! ### Loading registers -/

/-- From `s` to `t` only registers of `R` have changed, as with `OnRegs`, for registers that a loop writes. -/
structure Loads (R : Nat → Prop) (s t : State) : Prop where
  frame : t = { s with regs := t.regs }
  canon : mapWf regDefault s.regs → mapWf regDefault t.regs
  regs  : mapWf regDefault s.regs → ∀ r, ¬ R r → t.reg r = s.reg r

theorem Loads.refl (R : Nat → Prop) (s : State) : Loads R s s := ⟨rfl, id, fun _ _ _ => rfl⟩

theorem Loads.setReg (h : Loads R s t) {a v : Nat} (ha : R a) : Loads R s (t.setReg a v) where
  frame := by rw [State.setReg, h.frame]
  canon w := State.setReg_regsWf (h.canon w) a v
  regs w r hr := (State.reg_setReg_ne (h.canon w) (fun e : r = a => hr (e ▸ ha)) v).trans (h.regs w r hr)

theorem Loads.setFld (h : Loads R s t) {a lo n x : Nat} (ha : R a) : Loads R s (t.setFld a lo n x) := h.setReg ha

theorem Loads.foldl {α : Type} {f : State → α → State} {l : List α} (h : Loads R s t)
    (hf : ∀ {t}, ∀ x ∈ l, Loads R s t → Loads R s (f t x)) : Loads R s (l.foldl f t) :=
  List.foldlRecOn (motive := Loads R s) _ _ h fun _ h x hx => hf x hx h

theorem Loads.when {c : Prop} [Decidable c] (h : Loads R s t) (k : Loads R s u) : Loads R s (if c then u else t) := by
  split
  · exact k
  · exact h

theorem Loads.fld (h : Loads R s t) (w : mapWf regDefault s.regs) {r : Nat} (hr : ¬ R r) (lo n : Nat) : t.fld r lo n = s.fld r lo n := by
  rw [State.fld, h.regs w r hr]; rfl

/-- The log registers (Table 18.7). -/
def logReg (r : Nat) : Prop := rBuDlogStat ≤ r ∧ r < rBuJobStat ∨ rBuSiteLog 0 ≤ r ∧ r < rBuSiteTest 0 ∨ rBuDlog 0 ≤ r ∧ r < rBuDlog 256

theorem Loads.loadLog (h : Loads R s t) (hR : ∀ r, logReg r → R r) {sites : Bool} : Loads R s (t.loadLog sites) := by
  have hlog : Loads R s (t.setReg rBuDlogStat t.nv.dlog.length) := h.setReg (hR _ (.inl (by decide)))
  have hentries := hlog.foldl (l := List.range 256) (f := fun s j => s.setReg (rBuDlog j) (s.nv.dlog.getD j 0).toNat) fun j hj h =>
    h.setReg (hR _ (.inr (.inr (by have := List.mem_range.1 hj; unfold rBuDlog; omega))))
  exact hentries.when (hentries.foldl fun k hk h =>
    h.setReg (hR _ (.inr (.inl (by have := List.mem_range.1 hk; unfold rBuSiteLog rBuSiteTest; omega)))))

/-- What a power-on loads beside the power-on counts and the straps: identity and boot data, calibration, site records and log. -/
def fusedReg (r : Nat) : Prop := rSecBootStat ≤ r ∧ r ≤ rSecJobKey ∨ r = rPwrEstMap ∨ rPwrGain 0 ≤ r ∧ r < rPwrGain 64
  ∨ rBuSiteFuse 0 ≤ r ∧ r < rBuSiteLog 0 ∨ logReg r

/-- The power-on counts and the strap, as `loadFused` writes them first. -/
def State.showPowerOn (s : State) (leadSel : Bool) : State :=
  (((s.setReg rMcPowerOn s.nv.powerOn).setReg (mceBase + rMcPowerOn) s.nv.powerOn).setLfld .west 3 1 (b2n leadSel)).setLfld .east 3 1 (b2n leadSel)

theorem State.loadFused_loads (s : State) (leadSel : Bool) : Loads fusedReg (s.showPowerOn leadSel) (s.loadFused leadSel) := by
  unfold State.loadFused
  extract_lets nv s1 s2 s3 s4 s5 s6 s7 s8 s9 s10 en rv s11 s12 s13 s14
  have hsec {r : Nat} (h : rSecBootStat ≤ r ∧ r ≤ rSecJobKey) : fusedReg r := .inl h
  have h4 : Loads fusedReg (s.showPowerOn leadSel) s4 := .refl _ _
  have h10 : Loads fusedReg (s.showPowerOn leadSel) s10 :=
    (((((h4.setReg (hsec (by decide))).setReg (hsec (by decide))).setFld (hsec (by decide))).setFld (hsec (by decide))).setFld
      (hsec (by decide))).setFld (hsec (by decide))
  have h12 : Loads fusedReg (s.showPowerOn leadSel) s12 := (h10.setReg (hsec (by decide))).setReg (.inr (.inl rfl))
  have h13 : Loads fusedReg (s.showPowerOn leadSel) s13 := h12.foldl fun n hn h =>
    h.setReg (.inr (.inr (.inl (by have := List.mem_range.1 hn; unfold rPwrGain; omega))))
  have h14 : Loads fusedReg (s.showPowerOn leadSel) s14 := h13.foldl fun k hk h =>
    h.setReg (.inr (.inr (.inr (.inl (by have := List.mem_range.1 hk; unfold rBuSiteFuse rBuSiteLog; omega)))))
  exact h14.loadLog fun r h => .inr (.inr (.inr (.inr h)))

theorem State.showPowerOn_spec (w : mapWf regDefault s.regs) (hn : s.nv.powerOn < 2 ^ 64) (leadSel : Bool) :
    mapWf regDefault (s.showPowerOn leadSel).regs
      ∧ (s.showPowerOn leadSel).reg rMcPowerOn = s.nv.powerOn ∧ (s.showPowerOn leadSel).reg (mceBase + rMcPowerOn) = s.nv.powerOn
      ∧ (s.showPowerOn leadSel).lfld .west 3 1 = b2n leadSel ∧ (s.showPowerOn leadSel).lfld .east 3 1 = b2n leadSel
      ∧ ∀ r, r ≠ rMcPowerOn → r ≠ mceBase + rMcPowerOn → r ≠ leadReg .west → r ≠ leadReg .east → (s.showPowerOn leadSel).reg r = s.reg r := by
  have w1 := State.setReg_regsWf w rMcPowerOn s.nv.powerOn
  have w2 := State.setReg_regsWf w1 (mceBase + rMcPowerOn) s.nv.powerOn
  have w3 := State.setFld_regsWf w2 (leadReg .west) 3 1 (b2n leadSel)
  have hb : b2n leadSel % 2 ^ 1 = b2n leadSel := by cases leadSel <;> rfl
  refine ⟨State.setFld_regsWf w3 .., ?_, ?_, ?_, ?_, fun r h1 h2 h3 h4 => ?_⟩
  · exact (State.reg_setFld_ne w3 (by decide) ..).trans ((State.reg_setFld_ne w2 (by decide) ..).trans
      ((State.reg_setReg_ne w1 (by decide) _).trans (State.reg_setReg_same w _ hn)))
  · exact (State.reg_setFld_ne w3 (by decide) ..).trans ((State.reg_setFld_ne w2 (by decide) ..).trans (State.reg_setReg_same w1 _ hn))
  · exact (State.fld_setFld_ne w3 (by decide) ..).trans ((State.fld_setFld_same w2 (by decide) ..).trans hb)
  · exact (State.fld_setFld_same w3 (by decide) ..).trans hb
  · exact (State.reg_setFld_ne w3 h4 ..).trans ((State.reg_setFld_ne w2 h3 ..).trans
      ((State.reg_setReg_ne w1 h2 _).trans (State.reg_setReg_ne w h1 _)))

/-- The state of a power-on before its records are loaded. -/
def State.poweredOn (s : State) (a1 a0 low : Bool) : State :=
  { State.reset with
    regs := [], nv := { s.nv with powerOn := (s.nv.powerOn + 1) % 2 ^ 32 }, sigs := s.sigs, free := s.free, outbox := s.outbox
    pending := s.pending, hl := { HlSt.reset with ctxKeep := s.hl.ctxKeep, chryKeep := s.hl.chryKeep }
    pkg := { State.reset.pkg with sb33 := s.pkg.sb33, lowVoltage := low, channel := s.pkg.channel, i3cA := 2 * b2n a1 + b2n a0 } }

/-- A register that a power-on loads nothing into has its reset value (R456). -/
theorem State.powerOn_default (s : State) (lead a1 a0 low : Bool) {r : Nat} (hf : ¬ fusedReg r) (h1 : r ≠ rMcPowerOn)
    (h2 : r ≠ mceBase + rMcPowerOn) (h3 : r ≠ leadReg .west) (h4 : r ≠ leadReg .east) :
    (s.powerOn lead a1 a0 low).reg r = (regDefault r).toNat := by
  have hlt : (s.poweredOn a1 a0 low).nv.powerOn < 2 ^ 64 := (Nat.mod_lt _ (by decide)).trans (by decide)
  obtain ⟨wp, -, -, -, -, hrest⟩ := State.showPowerOn_spec (s := s.poweredOn a1 a0 low) mapWf_nil hlt lead
  exact ((State.loadFused_loads (s.poweredOn a1 a0 low) lead).regs wp r hf).trans (hrest r h1 h2 h3 h4)

theorem not_fusedReg {r : Nat} (h : ¬ (rSecBootStat ≤ r ∧ r < rBuSiteTest 0 ∨ rBuDlog 0 ≤ r ∧ r < rBuDlog 256)) : ¬ fusedReg r := by
  rintro (h' | h' | h' | h' | h' | h' | h') <;> simp only [rSecBootStat, rSecJobKey, rPwrEstMap, rPwrGain, rBuSiteFuse, rBuSiteLog,
    rBuDlogStat, rBuJobStat, rBuSiteTest, rBuDlog] at h h' <;> omega

/-- What a power-on finds and what it leaves (R371, R373, R456, R459, R465). -/
theorem State.powerOn_loads (s : State) (lead a1 a0 low : Bool) :
    let t := s.powerOn lead a1 a0 low
    t.pkg.vin = true ∧ t.bu = 1
      ∧ t.reg rMcPowerOn = (s.nv.powerOn + 1) % 2 ^ 32 ∧ t.reg (mceBase + rMcPowerOn) = (s.nv.powerOn + 1) % 2 ^ 32
      ∧ t.lfld .west 3 1 = b2n lead ∧ t.lfld .east 3 1 = b2n lead ∧ t.pkg.i3cA = 2 * b2n a1 + b2n a0
      ∧ t.pkg.lowVoltage = low ∧ t.mem = [] ∧ t.cores = [] ∧ t.ports = [] ∧ t.job = none ∧ t.pkg.niMap = []
      ∧ t.reg rPwrCap = 0x4640 ∧ t.reg rPfFault = 0 ∧ t.reg rPwrEnergy = 0 ∧ t.reg rPfPackTime = 0
      ∧ t.nv = { s.nv with powerOn := (s.nv.powerOn + 1) % 2 ^ 32 } ∧ t.pending = s.pending := by
  intro t
  have hlt : (s.poweredOn a1 a0 low).nv.powerOn < 2 ^ 64 := (Nat.mod_lt _ (by decide)).trans (by decide)
  obtain ⟨wp, hw, he, hlw, hle, -⟩ := State.showPowerOn_spec (s := s.poweredOn a1 a0 low) mapWf_nil hlt lead
  have hl := State.loadFused_loads (s.poweredOn a1 a0 low) lead
  have ht : t = { s.poweredOn a1 a0 low with regs := t.regs } := hl.frame
  have hlow {r : Nat} (hr : r < rSecBootStat) : ¬ fusedReg r := not_fusedReg (by simp only [rSecBootStat, rBuDlog, rBuSiteTest] at *; omega)
  have hhigh {r : Nat} (hr : rBuDlog 256 ≤ r) : ¬ fusedReg r := not_fusedReg (by simp only [rBuSiteTest, rBuDlog] at *; omega)
  have hsmall {r : Nat} (hf : ¬ fusedReg r) (hr : rMcLeadStat < r) (hr' : r < mceBase) : t.reg r = (regDefault r).toNat :=
    State.powerOn_default s lead a1 a0 low hf (by simp only [rMcPowerOn, rMcLeadStat] at *; omega) (by omega)
      (by simp only [leadReg, mcKey]; omega) (by simp only [leadReg, mcKey]; omega)
  refine ⟨by rw [ht]; rfl, (s.powerOn_spec lead a1 a0 low).2, (hl.regs wp _ (hlow (by decide))).trans hw,
    (hl.regs wp _ (hhigh (by decide))).trans he, (hl.fld wp (hlow (by decide)) 3 1).trans hlw, (hl.fld wp (hhigh (by decide)) 3 1).trans hle,
    by rw [ht]; rfl, by rw [ht]; rfl, by rw [ht]; rfl, by rw [ht]; rfl, by rw [ht]; rfl, by rw [ht]; rfl, by rw [ht]; rfl, ?_, ?_, ?_, ?_,
    by rw [ht]; rfl, by rw [ht]; rfl⟩
  · exact hsmall (r := rPwrCap) (by unfold fusedReg logReg; decide) (by decide) (by decide)
  · exact hsmall (r := rPfFault) (hhigh (by decide)) (by decide) (by decide)
  · exact hsmall (r := rPwrEnergy) (by unfold fusedReg logReg; decide) (by decide) (by decide)
  · exact hsmall (r := rPfPackTime) (hhigh (by decide)) (by decide) (by decide)

/-! ### The sideband supply -/

/-- A controller whose self-check is still in progress when SB33 goes: it fails, which ends it (R463). -/
def State.checkLost (s : State) (m : Mc) : State := if (s.mc m).checked then s else (s.selfFail m).startWhelpTraining m

theorem State.startWhelpTraining_loads (s : State) (m : Mc) : Loads isPortStat s (s.startWhelpTraining m) :=
  (Loads.refl _ s).foldl fun _ _ h => h.when (h.setFld ⟨_, rfl⟩)

/-- A self-check that is lost changes registers and its own controller. -/
theorem State.checkLost_frame (s : State) (m : Mc) :
    s.checkLost m = { s with regs := (s.checkLost m).regs, mcw := (s.checkLost m).mcw, mce := (s.checkLost m).mce } := by
  unfold State.checkLost
  split
  · rfl
  · have h := (s.selfFail m).startWhelpTraining_loads m
    rw [h.frame]
    cases m <;> rfl

theorem State.checkLost_spares (s : State) (m : Mc) : Spares (fun r => r = leadReg m ∨ isPortStat r) s (s.checkLost m) := by
  unfold State.checkLost
  exact .ite (fun _ => .refl _ s) fun _ => (s.selfFail_spares m).trans (State.startWhelpTraining_spares ..)

theorem State.checkLost_done (h : (s.mc m).checked = true) : s.checkLost m = s := if_pos h

theorem State.checkLost_other (s : State) (m : Mc) : (s.checkLost m).mc (mcOther m) = s.mc (mcOther m) := by
  unfold State.checkLost
  split
  · rfl
  · rw [State.startWhelpTraining_mc]
    cases m <;> rfl

theorem State.checkLost_failed (w : s.Wf) (h : (s.mc m).checked = false) :
    (s.checkLost m).role m = 3 ∧ ((s.checkLost m).mc m).failSig = true := by
  obtain ⟨hrole, hmc, -⟩ := State.selfFail_spec w m
  rw [State.checkLost, if_neg (by rw [h]; decide), State.startWhelpTraining_role ((s.selfFail_spares m).wf w), State.startWhelpTraining_mc, hmc]
  exact ⟨hrole, rfl⟩

/-- The ports of the half that a lost self-check sets training. -/
theorem State.checkLost_portState (w : s.Wf) (m : Mc) (p : Nat) : (s.checkLost m).portState p
    = if (s.mc m).checked = false ∧ (p ∈ halfPorts m ∧ s.mode p = 2 ∧ s.portState p = 0) then 1 else s.portState p := by
  cases hc : (s.mc m).checked with
  | true => rw [State.checkLost_done hc, if_neg (by simp)]
  | false =>
    have hs := s.selfFail_spares m
    have hport {r : Nat} (hr : r = rPortMode p ∨ r = rPortStat p) : r ≠ leadReg m := by
      simp only [leadReg, rMcLeadStat, rPortMode, rPortStat] at hr ⊢
      cases m <;> simp only [mcKey, mceBase] <;> omega
    have hmode : (s.selfFail m).mode p = s.mode p := hs.fld w (hport (.inl rfl)) ..
    have hstate : (s.selfFail m).portState p = s.portState p := hs.fld w (hport (.inr rfl)) ..
    have hnodup : (halfPorts m).Nodup := List.nodup_range.map fun _ _ h => Nat.add_left_cancel h
    rw [State.checkLost, if_neg (by rw [hc]; decide), State.startWhelpTraining_eq, State.trainWhelps_portState (hs.wf w) hnodup, hmode, hstate]
    simp only [true_and]

/-- A FW_WRITE that SB33's loss ends leaves the region it wrote blank. -/
def State.fwAbort (s : State) : State :=
  if s.fld rSecOpStat 0 1 = 1 ∧ s.sec.op = 3 then
    let s := { s with nv := if (s.mc s.leader).region = 0 then { s.nv with regionB := [] } else { s.nv with regionA := [] } }
    let s := s.setReg rSecOpStat (2 + 2 ^ 2 * 3 + 2 ^ 5 * s.fld rSecOpStat 5 1)
    { s with sec := { s.sec with op := 0 } }
  else s

theorem State.fwAbort_frame (s : State) : s.fwAbort = { s with regs := s.fwAbort.regs, nv := s.fwAbort.nv, sec := s.fwAbort.sec } := by
  unfold State.fwAbort
  split
  · rfl
  · rfl

theorem State.fwAbort_regs (w : s.Wf) : s.fwAbort.Wf ∧ ∀ r, r ≠ rSecOpStat → s.fwAbort.reg r = s.reg r := by
  unfold State.fwAbort
  split
  · have wn (nv : Nv) : { s with nv }.Wf := ⟨w.regs, w.mem, w.ports, w.cores, w.sram, w.sqs, w.cqs⟩
    have h := (Spares.refl (· = rSecOpStat) { s with nv := if (s.mc s.leader).region = 0 then { s.nv with regionB := [] } else { s.nv with regionA := [] } }).setReg
      (v := 2 + 2 ^ 2 * 3 + 2 ^ 5 * s.fld rSecOpStat 5 1) rfl
    have wf := h.wf (wn _)
    exact ⟨⟨wf.regs, wf.mem, wf.ports, wf.cores, wf.sram, wf.sqs, wf.cqs⟩, h.regs (wn _)⟩
  · exact ⟨w, fun _ _ => rfl⟩

theorem State.fwAbort_ends (w : s.Wf) (h1 : s.fld rSecOpStat 0 1 = 1) (h3 : s.sec.op = 3) :
    s.fwAbort.fld rSecOpStat 0 1 = 0 ∧ s.fwAbort.fld rSecOpStat 1 1 = 1
      ∧ s.fwAbort.nv = if (s.mc s.leader).region = 0 then { s.nv with regionB := [] } else { s.nv with regionA := [] } := by
  have hrej := bitsOf_lt (s.reg rSecOpStat) 5 1
  have hreg : s.fwAbort.reg rSecOpStat = 2 + 2 ^ 2 * 3 + 2 ^ 5 * s.fld rSecOpStat 5 1 := by
    rw [State.fwAbort, if_pos ⟨h1, h3⟩]
    exact State.reg_setReg_same w.regs _ (by change 2 + 2 ^ 2 * 3 + 2 ^ 5 * bitsOf (s.reg rSecOpStat) 5 1 < 2 ^ 64; omega)
  refine ⟨?_, ?_, ?_⟩
  · rw [State.fld, hreg, bitsOf]; omega
  · rw [State.fld, hreg, bitsOf]; omega
  · rw [State.fwAbort, if_pos ⟨h1, h3⟩]; rfl

/-- An interrupt held at a controller that has them enabled goes out (R468, log entry 22). -/
def State.sendHeld (s : State) (m : Mc) : State :=
  match (s.mc m).ibiHeld, (s.mc m).ibiOn with
  | some c, true => (s.setMc m { s.mc m with ibiHeld := none }).emit (.ibi m c)
  | _, _ => s

theorem exec_sb33Return_dark (hd : s.dark = true) : exec .sb33Return s = .next { s with pkg := { s.pkg with sb33 := true } } :=
  congrArg Host.Outcome.next (if_pos (c := State.dark { s with pkg := { s.pkg with sb33 := true } } = true) hd)

theorem exec_sb33Return_live (hd : s.dark = false) : exec .sb33Return s
    = .next ((({ s with pkg := { s.pkg with sb33 := true } } : State).sendHeld .west).sendHeld .east) :=
  congrArg Host.Outcome.next (if_neg (c := State.dark { s with pkg := { s.pkg with sb33 := true } } = true) (ne_true_of_eq_false hd))

theorem State.sendHeld_spec (s : State) (m : Mc) :
    s.sendHeld m = { s with mcw := (s.sendHeld m).mcw, mce := (s.sendHeld m).mce, outbox := (s.sendHeld m).outbox }
      ∧ s.outbox <+: (s.sendHeld m).outbox ∧ (s.sendHeld m).mc (mcOther m) = s.mc (mcOther m)
      ∧ ∀ c, (s.mc m).ibiHeld = some c → (s.mc m).ibiOn = true →
          .ibi m c ∈ (s.sendHeld m).outbox ∧ ((s.sendHeld m).mc m).ibiHeld = none := by
  unfold State.sendHeld
  split
  next c hc hon =>
    refine ⟨by cases m <;> rfl, by cases m <;> exact List.prefix_append .., by cases m <;> rfl, fun c' hc' _ => ?_⟩
    obtain rfl := Option.some.inj (hc.symm.trans hc')
    exact ⟨List.mem_append_right _ (List.mem_singleton_self _), by cases m <;> rfl⟩
  next hno => exact ⟨rfl, List.prefix_rfl, rfl, fun c hc hon => absurd hon (hno c hc)⟩

/-- What SB33's return leaves at both controllers. -/
theorem State.sendHeld_both (s : State) :
    let t := (s.sendHeld .west).sendHeld .east
    t = { s with mcw := t.mcw, mce := t.mce, outbox := t.outbox } ∧ ∀ m c, (s.mc m).ibiHeld = some c → (s.mc m).ibiOn = true →
      .ibi m c ∈ t.outbox ∧ (t.mc m).ibiHeld = none := by
  obtain ⟨hw, -, hother, hsent⟩ := s.sendHeld_spec .west
  obtain ⟨he, hprefix, hother', hsent'⟩ := (s.sendHeld .west).sendHeld_spec .east
  refine ⟨by rw [he, hw], fun m c hc hon => ?_⟩
  cases m with
  | west =>
    obtain ⟨hout, hnone⟩ := hsent c hc hon
    exact ⟨hprefix.mem hout, (congrArg McSt.ibiHeld hother').trans hnone⟩
  | east =>
    have hmc : (s.sendHeld .west).mc .east = s.mc .east := hother
    exact hsent' c (by rw [hmc]; exact hc) (by rw [hmc]; exact hon)

/-- What the loss of SB33 ends in a live package. -/
def State.sb33Lost (s : State) : State := (s.fwAbort.checkLost .west).checkLost .east

theorem exec_sb33Loss_dark (hd : s.dark = true) : exec .sb33Loss s = .next { s with pkg := { s.pkg with sb33 := false } } :=
  congrArg Host.Outcome.next (if_pos (c := State.dark { s with pkg := { s.pkg with sb33 := false } } = true) hd)

theorem exec_sb33Loss_live (hd : s.dark = false) :
    exec .sb33Loss s = .next (State.sb33Lost { s with pkg := { s.pkg with sb33 := false } }) :=
  congrArg Host.Outcome.next (if_neg (c := State.dark { s with pkg := { s.pkg with sb33 := false } } = true) (ne_true_of_eq_false hd))

/-- From `s` to `t` only registers, controllers, fused records and the security operation have changed. -/
def SideOnly (s t : State) : Prop := t = { s with regs := t.regs, mcw := t.mcw, mce := t.mce, nv := t.nv, sec := t.sec }

theorem SideOnly.trans (h : SideOnly s t) (k : SideOnly t u) : SideOnly s u := by
  rw [SideOnly] at *
  rw [k, h]

theorem State.checkLost_side (s : State) (m : Mc) : SideOnly s (s.checkLost m) := by rw [SideOnly, s.checkLost_frame m]

theorem State.sb33Lost_side (s : State) : SideOnly s s.sb33Lost :=
  have ha : SideOnly s s.fwAbort := by rw [SideOnly, s.fwAbort_frame]
  (ha.trans (State.checkLost_side ..)).trans (State.checkLost_side ..)

section
variable (w : s.Wf)
include w

theorem State.sb33Lost_mid : (s.fwAbort.checkLost .west).Wf
    ∧ Spares (fun r => r = leadReg .west ∨ isPortStat r) s.fwAbort (s.fwAbort.checkLost .west)
    ∧ Spares (fun r => r = leadReg .east ∨ isPortStat r) (s.fwAbort.checkLost .west) s.sb33Lost :=
  have hws := s.fwAbort.checkLost_spares .west
  ⟨hws.wf (State.fwAbort_regs w).1, hws, State.checkLost_spares ..⟩

omit w in
theorem State.fwAbort_mc (s : State) (m : Mc) : s.fwAbort.mc m = s.mc m := by rw [s.fwAbort_frame]; cases m <;> rfl

omit w in
theorem State.sb33Lost_mc_west (s : State) : s.sb33Lost.mc .west = (s.fwAbort.checkLost .west).mc .west :=
  (s.fwAbort.checkLost .west).checkLost_other .east

omit w in
theorem State.checkLost_mc_east (s : State) : (s.fwAbort.checkLost .west).mc .east = s.mc .east :=
  (s.fwAbort.checkLost_other .west).trans (s.fwAbort_mc .east)

/-- A self-check in progress fails (R463). -/
theorem State.sb33Lost_failed {m : Mc} (hm : (s.mc m).checked = false) : s.sb33Lost.role m = 3 ∧ (s.sb33Lost.mc m).failSig = true := by
  obtain ⟨ww, -, hes⟩ := State.sb33Lost_mid w
  cases m with
  | west =>
    obtain ⟨hrole, hfail⟩ := State.checkLost_failed (m := .west) (State.fwAbort_regs w).1 ((congrArg McSt.checked (s.fwAbort_mc _)).trans hm)
    exact ⟨(hes.lfld ww (m := .west) (fun h => h.elim (leadReg_other .east) (not_isPortStat_leadReg _)) 1 2).trans hrole,
      (congrArg McSt.failSig s.sb33Lost_mc_west).trans hfail⟩
  | east => exact State.checkLost_failed ww ((congrArg McSt.checked s.checkLost_mc_east).trans hm)

omit w in
/-- A controller that has done its self-check stays. -/
theorem State.sb33Lost_done {m : Mc} (hm : (s.mc m).checked = true) : s.sb33Lost.mc m = s.mc m := by
  cases m with
  | west => rw [s.sb33Lost_mc_west, State.checkLost_done ((congrArg McSt.checked (s.fwAbort_mc _)).trans hm), s.fwAbort_mc]
  | east =>
    have hdone := State.checkLost_done (s := s.fwAbort.checkLost .west) (m := .east) ((congrArg McSt.checked s.checkLost_mc_east).trans hm)
    exact (congrArg (State.mc · .east) hdone).trans s.checkLost_mc_east

/-- The HOSTLINK ports of a half whose self-check fails start training (R373). -/
theorem State.sb33Lost_trains {m : Mc} {p : Nat} (hm : (s.mc m).checked = false) (hp : if m = .west then p < 9 else 9 ≤ p ∧ p < 18)
    (hmode : s.mode p = 2) (h0 : s.portState p = 0) : s.sb33Lost.portState p = 1 := by
  obtain ⟨wa, hregs⟩ := State.fwAbort_regs w
  obtain ⟨ww, hws, -⟩ := State.sb33Lost_mid w
  have hmode' : s.fwAbort.mode p = 2 := (congrArg (bitsOf · 0 2) (hregs _ (by unfold rPortMode rSecOpStat; omega))).trans hmode
  have h0' : s.fwAbort.portState p = 0 := (congrArg (bitsOf · 0 3) (hregs _ (by unfold rPortStat rSecOpStat; omega))).trans h0
  have hlost (k : Mc) : (s.fwAbort.mc k).checked = (s.mc k).checked := congrArg McSt.checked (s.fwAbort_mc k)
  cases m with
  | west =>
    have hin : (s.fwAbort.mc .west).checked = false ∧ (p ∈ halfPorts .west ∧ s.fwAbort.mode p = 2 ∧ s.fwAbort.portState p = 0) :=
      ⟨(hlost _).trans hm, (mem_halfPorts ..).2 hp, hmode', h0'⟩
    rw [State.sb33Lost, State.checkLost_portState ww, State.checkLost_portState wa, if_pos hin, ite_self]
  | east =>
    have hout : p ∉ halfPorts .west := fun h => by
      have h := (mem_halfPorts ..).1 h
      simp only [if_true, reduceCtorEq, if_false] at h hp
      omega
    have hm' := hws.mode wa (fun q h => h.elim (fun e => by simp only [rPortMode, leadReg, mcKey, rMcLeadStat] at e; omega)
      fun ⟨k, e⟩ => rPortStat_ne_mode q k e) p
    have h0w : (s.fwAbort.checkLost .west).portState p = 0 := by
      rw [State.checkLost_portState wa, if_neg fun h => hout h.2.1, h0']
    rw [State.sb33Lost, State.checkLost_portState ww]
    exact if_pos ⟨(congrArg McSt.checked s.checkLost_mc_east).trans hm, (mem_halfPorts ..).2 hp, hm'.trans hmode', h0w⟩

/-- The end of a FW_WRITE shows in SEC_OP_STAT. -/
theorem State.sb33Lost_secStat (lo n : Nat) : s.sb33Lost.fld rSecOpStat lo n = s.fwAbort.fld rSecOpStat lo n := by
  obtain ⟨ww, hws, hes⟩ := State.sb33Lost_mid w
  have hne (m : Mc) : ¬ (rSecOpStat = leadReg m ∨ isPortStat rSecOpStat) := by
    rintro (h | ⟨p, h⟩)
    · cases m <;> exact absurd h (by decide)
    · unfold rSecOpStat rPortStat at h; omega
  exact (hes.fld ww (hne _) ..).trans (hws.fld (State.fwAbort_regs w).1 (hne _) ..)

end

/-- Settles O8: what a power-on loads, what either supply's loss ends, and the interrupts that SB33's return sends. -/
theorem powerInputs : Obligations.PowerInputs := by
  unfold Obligations.PowerInputs
  refine ⟨⟨fun lead a1 a0 low s => ⟨fun hv => congrArg Host.Outcome.next (if_pos hv), fun hv => ⟨_, congrArg Host.Outcome.next (if_neg (by rw [hv]; decide)),
    State.powerOn_loads s lead a1 a0 low⟩⟩, fun s => ⟨fun hv => congrArg Host.Outcome.next (if_pos (by rw [hv]; rfl)), fun hv => ?_⟩⟩, fun s w => ⟨?_, ?_⟩⟩
  · refine ⟨_, congrArg Host.Outcome.next (if_neg (by rw [hv]; decide)), rfl, rfl, rfl, rfl, rfl, rfl, rfl, ?_⟩
    cases hr : s.running <;> cases hl : s.pkg.latched <;> exact ⟨rfl, rfl, rfl⟩
  · have wp : { s with pkg := { s.pkg with sb33 := false } }.Wf := ⟨w.regs, w.mem, w.ports, w.cores, w.sram, w.sqs, w.cqs⟩
    have hf := State.sb33Lost_side { s with pkg := { s.pkg with sb33 := false } }
    rw [SideOnly] at hf
    cases hd : s.dark with
    | true => exact ⟨_, exec_sb33Loss_dark hd, rfl, rfl, rfl, rfl, rfl, nofun⟩
    | false =>
      refine ⟨_, exec_sb33Loss_live hd, by rw [hf], by rw [hf], by rw [hf], by rw [hf], by rw [hf], fun _ =>
        ⟨fun m hm => State.sb33Lost_failed wp (m := m) (by cases m <;> exact hm), fun m hm => ?_, fun m p hm hp hmode h0 => ?_, fun h1 h3 => ?_⟩⟩
      · exact (State.sb33Lost_done (s := { s with pkg := { s.pkg with sb33 := false } }) (by cases m <;> exact hm)).trans (by cases m <;> rfl)
      · exact State.sb33Lost_trains wp (m := m) (by cases m <;> exact hm) hp hmode h0
      · obtain ⟨hbusy, hdone, hnv⟩ := State.fwAbort_ends wp h1 h3
        obtain ⟨-, hws, hes⟩ := State.sb33Lost_mid wp
        have hnv := hes.nv.trans (hws.nv.trans hnv)
        refine ⟨(State.sb33Lost_secStat wp 0 1).trans hbusy, (State.sb33Lost_secStat wp 1 1).trans hdone, fun hr => ?_, fun hr => ?_⟩
        · exact (congrArg Nv.regionB hnv).trans (congrArg Nv.regionB (if_pos hr))
        · exact (congrArg Nv.regionA hnv).trans (congrArg Nv.regionA (if_neg hr))
  · cases hd : s.dark with
    | true => exact ⟨_, exec_sb33Return_dark hd, rfl, rfl, rfl, rfl, rfl, rfl, rfl, nofun⟩
    | false =>
      obtain ⟨hf, hsent⟩ := State.sendHeld_both { s with pkg := { s.pkg with sb33 := true } }
      exact ⟨_, exec_sb33Return_live hd, by rw [hf], by rw [hf], by rw [hf], by rw [hf], by rw [hf],
        by rw [hf], by rw [hf], fun _ m c hc hon => hsent m c (by cases m <;> exact hc) (by cases m <;> exact hon)⟩

end Sys2Proof.Machine
end

section
/-! SUPPORT. INSPECT and RESET (R379 to R391): what the steps find, how they end, and the refusals. -/

namespace Sys2Proof.Machine
open Sys2Proof

-- Proofs elaborated in threads of their own would pass the check's limit of memory.
set_option Elab.async false

variable {s t u : State} {full : Bool} {f : Findings} {i : FwInfo}

/-! ### What the steps before the judgement leave alone -/

/-- BU_STATE and the controllers' MC_LEAD_STAT. -/
def packageReg (r : Nat) : Prop := r = rBuState ∨ r = leadReg .west ∨ r = leadReg .east

/-- From `s` to `t` BU_STATE, the roles, memory, the records, the fabric, the controllers, SB33, the core image and the map stay. -/
structure Aside (s t : State) : Prop where
  wf     : s.Wf → t.Wf
  regs   : s.Wf → ∀ r, packageReg r → t.reg r = s.reg r
  mem    : t.mem = s.mem
  nv     : t.nv = s.nv
  sigs   : t.sigs = s.sigs
  fab    : t.fab = s.fab
  mcw    : t.mcw = s.mcw
  mce    : t.mce = s.mce
  sb33   : t.pkg.sb33 = s.pkg.sb33
  coreFw : t.pkg.coreFw = s.pkg.coreFw
  niMap  : t.pkg.niMap = s.pkg.niMap

theorem Aside.refl (s : State) : Aside s s := ⟨id, fun _ _ _ => rfl, rfl, rfl, rfl, rfl, rfl, rfl, rfl, rfl, rfl⟩

theorem Aside.setReg (h : Aside s t) {a v : Nat} (ha : ¬ packageReg a) : Aside s (t.setReg a v) :=
  { h with
    wf := fun w => (Quiet.setReg t a v).wf (h.wf w)
    regs := fun w r hr => (State.reg_setReg_ne (h.wf w).regs (fun e : r = a => ha (e ▸ hr)) v).trans (h.regs w r hr) }

theorem Aside.setFld (h : Aside s t) {a lo n x : Nat} (ha : ¬ packageReg a) : Aside s (t.setFld a lo n x) := h.setReg ha

/-- A change of other parts of the package. -/
theorem Aside.frame (h : Aside s t) (pkg : Pkg) (pwr : PwrSt) (hb : pkg.sb33 = t.pkg.sb33 := by rfl)
    (hc : pkg.coreFw = t.pkg.coreFw := by rfl) (hm : pkg.niMap = t.pkg.niMap := by rfl) : Aside s { t with pkg, pwr } :=
  { h with
    wf := fun w => have v := h.wf w; ⟨v.regs, v.mem, v.ports, v.cores, v.sram, v.sqs, v.cqs⟩
    regs := h.regs, sb33 := hb.trans h.sb33, coreFw := hc.trans h.coreFw, niMap := hm.trans h.niMap }

theorem Aside.event (h : Aside s t) {ev code core step value : Nat} : Aside s (t.event ev code core step value) := by
  have hf := t.event_frame ev code core step value
  have hr (w : s.Wf) := State.event_spec (h.wf w) ev code core step value
  refine ⟨fun w => (hr w).wf, fun w r hp => ((hr w).regs r ?_).trans (h.regs w r hp), ?_, ?_, ?_, ?_, ?_, ?_, ?_, ?_, ?_⟩
  · rcases hp with rfl | rfl | rfl <;> decide
  · rw [hf]; exact h.mem
  · rw [hf]; exact h.nv
  · rw [hf]; exact h.sigs
  · rw [hf]; exact h.fab
  · rw [hf]; exact h.mcw
  · rw [hf]; exact h.mce
  · rw [hf]; exact h.sb33
  · rw [hf]; exact h.coreFw
  · rw [hf]; exact h.niMap

theorem Aside.ite {c : Prop} [Decidable c] (h : Aside s t) (k : Aside s u) : Aside s (if c then t else u) := by
  split
  · exact h
  · exact k

theorem Aside.fld (h : Aside s t) (w : s.Wf) {r : Nat} (hr : packageReg r) (lo n : Nat) : t.fld r lo n = s.fld r lo n := by
  rw [State.fld, h.regs w r hr]; rfl

theorem Aside.configDdr (h : Aside s t) {mods : List (Option DdrModule)} : Aside s (t.configDdr mods) := by
  have hddr : ¬ packageReg rMemDdr := by unfold packageReg; decide
  unfold State.configDdr
  refine .ite h ?_
  extract_lets +onlyGivenNames ok
  clear_value ok
  split
  · exact h.setReg hddr
  · exact (h.setReg hddr).event

theorem Aside.trainHbm (h : Aside s t) {failing absent : List Nat} : Aside s (t.trainHbm failing absent) :=
  (h.setReg (a := rMemHbm) (by unfold packageReg; decide)).frame ..

/-- The steps of an INSPECT that precede the firmware. -/
def State.inspectPower (s : State) : State :=
  { s with pkg := { s.pkg with computeOn := true, pwrSettled := true }, pwr := { s.pwr with rising := s.pwr.rising || !s.pkg.computeOn } }

def State.inspectMemory (s : State) (full : Bool) (f : Findings) : State :=
  let s := s.inspectPower.trainHbm f.hbmFail f.hbmAbsent
  if full then { s.configDdr f.ddr with pkg := { (s.configDdr f.ddr).pkg with ddrOn := true } } else s

theorem State.inspectMemory_aside (s : State) (full : Bool) (f : Findings) : Aside s (s.inspectMemory full f) := by
  have hp : Aside s (s.inspectPower.trainHbm f.hbmFail f.hbmAbsent) := ((Aside.refl s).frame ..).trainHbm
  have hd := (hp.configDdr (mods := f.ddr)).frame { ((s.inspectPower.trainHbm f.hbmFail f.hbmAbsent).configDdr f.ddr).pkg with ddrOn := true }
    ((s.inspectPower.trainHbm f.hbmFail f.hbmAbsent).configDdr f.ddr).pwr
  exact .ite hd hp

/-! ### How an INSPECT begins -/

/-- The registers that an INSPECT clears and loads. -/
def State.inspectClear (s : State) : State :=
  (s.dropRegs (fun a => a = rBuInspect ∨ a = rBuSpan ∨ a = rBuRows
    ∨ rBuSiteGood 0 ≤ a ∧ a ≤ rBuSiteGood 71 ∨ rBuSiteTest 0 ≤ a ∧ a ≤ rBuSiteTest 71)).loadLog true

theorem not_logReg_package {r : Nat} (hr : packageReg r) : ¬ logReg r := by
  rcases hr with rfl | rfl | rfl <;> unfold logReg <;> decide

theorem State.inspectClear_aside (s : State) : Aside s s.inspectClear := by
  have hl : Loads logReg (s.dropRegs _) s.inspectClear := (Loads.refl logReg _).loadLog fun _ => id
  have hd (w : s.Wf) := State.dropRegs_regsWf w.regs (fun a => a = rBuInspect ∨ a = rBuSpan ∨ a = rBuRows
    ∨ rBuSiteGood 0 ≤ a ∧ a ≤ rBuSiteGood 71 ∨ rBuSiteTest 0 ≤ a ∧ a ≤ rBuSiteTest 71)
  refine ⟨(Keeps.refl s).dropRegs.loadLog.wf, fun w r hr => (hl.regs (hd w) r (not_logReg_package hr)).trans ?_, ?_, ?_, ?_, ?_, ?_, ?_, ?_, ?_, ?_⟩
  · rw [State.reg, State.dropRegs, mapGet_mapDrop, if_neg]
    · rfl
    · rcases hr with rfl | rfl | rfl <;> decide
  all_goals rw [hl.frame]; rfl

/-- What an INSPECT that has begun shows, and what of `s` it rests on. -/
structure Begun (s u : State) (full : Bool) : Prop where
  wf     : u.Wf
  bu     : u.bu = 2
  quick  : u.fld rBuState 7 1 = b2n !full
  code   : u.fld rBuState 16 16 = 0
  leader : u.leader = s.leader
  roles  : ∀ m, u.role m = s.role m
  mcs    : ∀ m, u.mc m = s.mc m
  mem    : u.mem = s.mem
  nv     : u.nv = s.nv
  sigs   : u.sigs = s.sigs
  fab    : u.fab = s.fab
  sb33   : u.pkg.sb33 = s.pkg.sb33
  coreFw : u.pkg.coreFw = s.pkg.coreFw
  niMap  : u.pkg.niMap = s.pkg.niMap

theorem Begun.aside (h : Begun s u full) (k : Aside u t) : Begun s t full where
  wf := k.wf h.wf
  bu := (k.fld h.wf (.inl rfl) ..).trans h.bu
  quick := (k.fld h.wf (.inl rfl) ..).trans h.quick
  code := (k.fld h.wf (.inl rfl) ..).trans h.code
  leader := (State.leader_of_fld (k.fld h.wf (.inl rfl) ..)).trans h.leader
  roles m := (State.lfld_of_reg (k.regs h.wf _ (by cases m <;> simp [packageReg])) ..).trans (h.roles m)
  mcs m := by
    rw [← h.mcs m]
    cases m
    · exact k.mcw
    · exact k.mce
  mem := k.mem.trans h.mem
  nv := k.nv.trans h.nv
  sigs := k.sigs.trans h.sigs
  fab := k.fab.trans h.fab
  sb33 := k.sb33.trans h.sb33
  coreFw := k.coreFw.trans h.coreFw
  niMap := k.niMap.trans h.niMap

/-- A field of BU_STATE beside the one that is written. -/
theorem State.buState_setFld (w : s.Wf) {lo n lo' n' : Nat} (h : lo + n ≤ 64) (hd : lo' + n' ≤ lo ∨ lo + n ≤ lo') (x : Nat) :
    (s.setFld rBuState lo n x).fld rBuState lo' n' = s.fld rBuState lo' n' := State.fld_setFld_disjoint w.regs h hd ..

theorem State.setFld_wf (w : s.Wf) (a lo n x : Nat) : (s.setFld a lo n x).Wf := ((Keeps.refl s).setFld).wf w

/-- An INSPECT begins with STATE, BUSY, QUICK and CODE in BU_STATE (R379). -/
theorem State.inspectStart_begun (w : s.Wf) (full : Bool) : Begun s (s.inspectStart full) full := by
  have ha := s.inspectClear_aside
  have wa := ha.wf w
  obtain ⟨a, ea⟩ : ∃ a, a = s.inspectClear := ⟨_, rfl⟩
  obtain ⟨b, eb⟩ : ∃ b, b = a.setBu stInspect := ⟨_, rfl⟩
  obtain ⟨c, ec⟩ : ∃ c, c = b.setFld rBuState 4 1 1 := ⟨_, rfl⟩
  obtain ⟨d, ed⟩ : ∃ d, d = c.setFld rBuState 7 1 (b2n !full) := ⟨_, rfl⟩
  rw [← ea] at ha wa
  have wb : b.Wf := eb ▸ State.setFld_wf wa ..
  have wc : c.Wf := ec ▸ State.setFld_wf wb ..
  have wd : d.Wf := ed ▸ State.setFld_wf wc ..
  have ht : s.inspectStart full = { d.setFld rBuState 16 16 0 with pkg := { (d.setFld rBuState 16 16 0).pkg with buOp := none } } := by
    rw [ed, ec, eb, ea]; rfl
  have hroles (m : Mc) : (d.setFld rBuState 16 16 0).reg (leadReg m) = a.reg (leadReg m) := by
    have hne := (leadReg_ne_buState m).symm
    rw [State.reg_setFld_ne wd.regs hne, ed, State.reg_setFld_ne wc.regs hne, ec, State.reg_setFld_ne wb.regs hne, eb]
    exact State.reg_setFld_ne wa.regs hne ..
  have hframe : d.setFld rBuState 16 16 0 = { a with regs := (d.setFld rBuState 16 16 0).regs } := by rw [ed, ec, eb]; rfl
  have wf := State.setFld_wf wd rBuState 16 16 0
  have h7 : b2n (!full) % 2 ^ 1 = b2n !full := by cases full <;> rfl
  rw [ht]
  refine ⟨⟨wf.regs, wf.mem, wf.ports, wf.cores, wf.sram, wf.sqs, wf.cqs⟩, ?_, ?_, State.fld_setFld_same wd.regs (by decide) .., ?_, fun m => ?_,
    fun m => ?_, ?_, ?_, ?_, ?_, ?_, ?_, ?_⟩
  · refine (State.buState_setFld wd (by decide) (by decide) 0).trans ?_
    rw [ed, State.buState_setFld wc (by decide) (by decide), ec, State.buState_setFld wb (by decide) (by decide), eb]
    exact State.fld_setFld_same wa.regs (by decide) ..
  · refine (State.buState_setFld wd (by decide) (by decide) 0).trans ?_
    rw [ed, State.fld_setFld_same wc.regs (by decide), h7]
  · refine State.leader_of_fld ((State.buState_setFld wd (by decide) (by decide) 0).trans ?_)
    rw [ed, State.buState_setFld wc (by decide) (by decide), ec, State.buState_setFld wb (by decide) (by decide), eb]
    exact (State.buState_setFld wa (by decide) (by decide) _).trans (ha.fld w (.inl rfl) 6 1)
  · refine (State.lfld_of_reg (hroles m) 1 2).trans (State.lfld_of_reg (ha.regs w _ ?_) 1 2)
    cases m <;> simp [packageReg]
  · rw [hframe]
    cases m
    · exact ha.mcw
    · exact ha.mce
  · rw [hframe]; exact ha.mem
  · rw [hframe]; exact ha.nv
  · rw [hframe]; exact ha.sigs
  · rw [hframe]; exact ha.fab
  · rw [hframe]; exact ha.sb33
  · rw [hframe]; exact ha.coreFw
  · rw [hframe]; exact ha.niMap

/-! ### How an INSPECT ends -/

/-- From `s` to `t` BU_STATE, memory, the fabric and the map stay. -/
structure Shown (s t : State) : Prop where
  wf    : t.Wf
  bus   : ∀ lo n, t.fld rBuState lo n = s.fld rBuState lo n
  mem   : t.mem = s.mem
  fab   : t.fab = s.fab
  niMap : t.pkg.niMap = s.pkg.niMap

theorem Aside.shown (h : Aside s t) (w : s.Wf) : Shown s t := ⟨h.wf w, fun _ _ => h.fld w (.inl rfl) .., h.mem, h.fab, h.niMap⟩

/-- The codes that an INSPECT stops with (R379). -/
def inspectCodes : List Nat := [0x0801, 0x0B07, 0x0901, 0x0902, 0x0B02, 0x0B03, 0x0B04]

/-- The end of an INSPECT that has begun in `u`: in MAP with 28 span rows or more, or in INSPECT with a code (R379). -/
structure Judged (u t : State) : Prop where
  quick : t.fld rBuState 7 1 = u.fld rBuState 7 1
  mem   : t.mem = u.mem
  fab   : t.fab = u.fab
  niMap : t.pkg.niMap = u.pkg.niMap
  ends  : (t.bu = 3 ∧ t.fld rBuState 16 16 = 0 ∧ 28 ≤ popCount (t.reg rBuSpan)) ∨ (t.bu = 2 ∧ t.fld rBuState 16 16 ∈ inspectCodes)

theorem Judged.of_shown (h : Shown s u) (k : Judged u t) : Judged s t :=
  { k with quick := k.quick.trans (h.bus ..), mem := k.mem.trans h.mem, fab := k.fab.trans h.fab, niMap := k.niMap.trans h.niMap }

/-- An INSPECT that stops shows its code and stays in INSPECT. -/
theorem State.inspectStop_spec (w : s.Wf) (code : Nat) : (s.inspectStop code).bu = s.bu
    ∧ (s.inspectStop code).fld rBuState 16 16 = code % 2 ^ 16 ∧ (s.inspectStop code).fld rBuState 7 1 = s.fld rBuState 7 1 := by
  have w1 := State.setFld_wf w rBuState 16 16 code
  refine ⟨?_, ?_, ?_⟩
  · exact (State.buState_setFld w1 (by decide) (by decide) 0).trans (State.buState_setFld w (by decide) (by decide) code)
  · exact (State.buState_setFld w1 (by decide) (by decide) 0).trans (State.fld_setFld_same w.regs (by decide) ..)
  · exact (State.buState_setFld w1 (by decide) (by decide) 0).trans (State.buState_setFld w (by decide) (by decide) code)

theorem State.inspectStop_judged (w : s.Wf) (hb : s.bu = 2) {code : Nat} (h : code % 2 ^ 16 ∈ inspectCodes) : Judged s (s.inspectStop code) := by
  obtain ⟨hb', hcode, hquick⟩ := State.inspectStop_spec w code
  exact ⟨hquick, rfl, rfl, rfl, .inr ⟨hb'.trans hb, hcode ▸ h⟩⟩

/-- An INSPECT that finds enough shows MAP and keeps CODE. -/
theorem State.enterMap_spec (w : s.Wf) : ((s.setFld rBuState 4 1 0).setBu stMap).bu = 3
    ∧ ((s.setFld rBuState 4 1 0).setBu stMap).fld rBuState 16 16 = s.fld rBuState 16 16
    ∧ ((s.setFld rBuState 4 1 0).setBu stMap).fld rBuState 7 1 = s.fld rBuState 7 1
    ∧ ∀ r, r ≠ rBuState → ((s.setFld rBuState 4 1 0).setBu stMap).reg r = s.reg r := by
  have w1 := State.setFld_wf w rBuState 4 1 0
  refine ⟨State.fld_setFld_same w1.regs (by decide) .., ?_, ?_, fun r hr => ?_⟩
  · exact (State.buState_setFld w1 (by decide) (by decide) stMap).trans (State.buState_setFld w (by decide) (by decide) 0)
  · exact (State.buState_setFld w1 (by decide) (by decide) stMap).trans (State.buState_setFld w (by decide) (by decide) 0)
  · exact (State.reg_setFld_ne w1.regs hr ..).trans (State.reg_setFld_ne w.regs hr ..)

theorem State.enterMap_judged (w : s.Wf) (hc : s.fld rBuState 16 16 = 0) (hp : 28 ≤ popCount (s.reg rBuSpan)) :
    Judged s ((s.setFld rBuState 4 1 0).setBu stMap) := by
  obtain ⟨hb, hcode, hquick, hregs⟩ := State.enterMap_spec w
  exact ⟨hquick, rfl, rfl, rfl, .inl ⟨hb, hcode.trans hc, (hregs rBuSpan (by decide)).symm ▸ hp⟩⟩

/-- The state that shows what the sites' judgement found, before its outcome. -/
def State.showSites (s : State) (f : Findings) (i : FwInfo) : State :=
  let ages := ageAll s.nv.age f.aged
  let r := s.judgeSites f i ages
  let s := { s with pkg := { s.pkg with fwBank := some (FwBank.whole i), fwOff := r.off } }
  let room := 256 - s.nv.dlog.length
  let kept := if f.logWriteFail then [] else r.newLog.take room
  let s := { s with nv := { s.nv with age := ages, dlog := s.nv.dlog ++ kept } }
  let s := s.loadLog false
  let full := decide (room < r.newLog.length)
  let s := s.setReg rBuInspect (goodCount r.good 0 + 2 ^ 11 * goodCount r.good 1 + 2 ^ 24 * min 255 r.newLog.length + 2 ^ 32 * r.rounds
    + 2 ^ 35 * b2n full + 2 ^ 36 * b2n (f.logWriteFail && !(r.newLog.take room).isEmpty) + 2 ^ 37 * (goodCount r.bbad 0 + goodCount r.bbad 1))
  let s := s.setReg rBuSpan r.span
  let s := s.setReg rBuRows (r.rowsW + 2 ^ 32 * r.rowsE)
  allColumns.foldl (fun s k => (s.setReg (rBuSiteGood k) (r.good k)).setReg (rBuSiteTest k) (r.test k)) s

/-- The outcome of the judgement (R386, R387). -/
theorem State.inspectJudge_eq (s : State) (f : Findings) (i : FwInfo) :
    let r := s.judgeSites f i (ageAll s.nv.age f.aged)
    s.inspectJudge f i =
      (if popCount r.span < 28 then (s.showSites f i).inspectStop cSpanDegraded
      else if r.ydead ∨ goodCount r.good 0 + goodCount r.bbad 0 < perDie ∨ goodCount r.good 1 + goodCount r.bbad 1 < perDie then
        (s.showSites f i).inspectStop cGradeShortfall
      else if goodCount r.good 0 < perDie ∨ goodCount r.good 1 < perDie then (s.showSites f i).inspectStop cBcastFailed
      else ((s.showSites f i).setFld rBuState 4 1 0).setBu stMap) := rfl

/-- One column of sites. -/
def showColumn (good test : Nat → Nat) (s : State) (k : Nat) : State :=
  (s.setReg (rBuSiteGood k) (good k)).setReg (rBuSiteTest k) (test k)

def columnReg (r : Nat) : Prop := rBuSiteGood 0 ≤ r ∧ r < rBuSiteGood 72 ∨ rBuSiteTest 0 ≤ r ∧ r < rBuSiteTest 72

theorem columnReg_good {k : Nat} (hk : k < 72) : columnReg (rBuSiteGood k) := .inl (by unfold rBuSiteGood; omega)

theorem columnReg_test {k : Nat} (hk : k < 72) : columnReg (rBuSiteTest k) := .inr (by unfold rBuSiteTest; omega)

theorem showColumns_loads (good test : Nat → Nat) {l : List Nat} (hl : ∀ k ∈ l, k < 72) (s : State) :
    Loads columnReg s (l.foldl (showColumn good test) s) :=
  (Loads.refl _ s).foldl fun k hk h => (h.setReg (columnReg_good (hl k hk))).setReg (columnReg_test (hl k hk))

/-- Every column that is shown reads back, in both of its registers. -/
theorem showColumns_reg (good test : Nat → Nat) : ∀ {l : List Nat}, (∀ k ∈ l, k < 72) → l.Nodup → ∀ {s : State}, mapWf regDefault s.regs →
    ∀ k ∈ l, (l.foldl (showColumn good test) s).reg (rBuSiteGood k) = good k % 2 ^ 64
      ∧ (l.foldl (showColumn good test) s).reg (rBuSiteTest k) = test k % 2 ^ 64
  | [], _, _, _, _, _, hk => absurd hk List.not_mem_nil
  | n :: l, hl, hnd, s, w, k, hk => by
    obtain ⟨hn, hnd⟩ := List.nodup_cons.1 hnd
    have wg := State.setReg_regsWf w (rBuSiteGood n) (good n)
    have wt := State.setReg_regsWf wg (rBuSiteTest n) (test n)
    rcases List.mem_cons.1 hk with rfl | hk
    · have hk72 := hl k List.mem_cons_self
      have hrest : ∀ {l : List Nat}, k ∉ l → (∀ j ∈ l, j < 72) → Loads (fun r => columnReg r ∧ r ≠ rBuSiteGood k ∧ r ≠ rBuSiteTest k)
          (showColumn good test s k) (l.foldl (showColumn good test) (showColumn good test s k)) := fun {l} hk hl =>
        (Loads.refl _ _).foldl fun j hj h => by
          have hne : j ≠ k := fun e => hk (e ▸ hj)
          have hj := hl j hj
          exact (h.setReg ⟨columnReg_good hj, by unfold rBuSiteGood; omega, by unfold rBuSiteGood rBuSiteTest; omega⟩).setReg
            ⟨columnReg_test hj, by unfold rBuSiteGood rBuSiteTest; omega, by unfold rBuSiteTest; omega⟩
      have h := hrest hn fun j hj => hl j (List.mem_cons_of_mem _ hj)
      refine ⟨(h.regs wt _ fun x => x.2.1 rfl).trans ?_, (h.regs wt _ fun x => x.2.2 rfl).trans ?_⟩
      · exact (State.reg_setReg_ne wg (by unfold rBuSiteGood rBuSiteTest; omega) _).trans ((State.reg_setReg w ..).trans (if_pos rfl))
      · exact (State.reg_setReg wg ..).trans (if_pos rfl)
    · exact showColumns_reg good test (fun j hj => hl j (List.mem_cons_of_mem _ hj)) hnd wt k hk

theorem State.showSites_spec (w : s.Wf) (f : Findings) (i : FwInfo) :
    let r := s.judgeSites f i (ageAll s.nv.age f.aged)
    let t := s.showSites f i
    Shown s t ∧ t.pkg.coreFw = s.pkg.coreFw ∧ t.reg rBuSpan = r.span % 2 ^ 64
      ∧ ∀ k < 72, t.reg (rBuSiteGood k) = r.good k % 2 ^ 64 ∧ t.reg (rBuSiteTest k) = r.test k % 2 ^ 64 := by
  intro r
  have hwf := ((Keeps.refl s).frame.frame.loadLog.setReg.setReg.setReg.foldl fun _ h => h.setReg.setReg : Keeps s (s.showSites f i)).wf w
  unfold State.showSites
  extract_lets ages r' p a room kept nv b c full d e g t
  have hbase : Loads logReg b c := (Loads.refl _ b).loadLog fun _ => id
  have wc : mapWf regDefault c.regs := hbase.canon w.regs
  have wd := State.setReg_regsWf wc rBuInspect (d.reg rBuInspect)
  have hall : ∀ k ∈ allColumns, k < 72 := fun k hk => List.mem_range.1 hk
  have hd : Loads (· = rBuInspect) c d := (Loads.refl _ c).setReg rfl
  have hg : Loads (fun r => r = rBuSpan ∨ r = rBuRows) d g := ((Loads.refl _ d).setReg (.inl rfl)).setReg (.inr rfl)
  have hcols : Loads columnReg g t := showColumns_loads r.good r.test hall g
  have wd : mapWf regDefault d.regs := hd.canon wc
  have wg : mapWf regDefault g.regs := hg.canon wd
  have hbu : t.reg rBuState = s.reg rBuState :=
    (hcols.regs wg _ (by unfold columnReg; decide)).trans ((hg.regs wd _ (by decide)).trans ((hd.regs wc _ (by decide)).trans
      (hbase.regs w.regs _ (by unfold logReg; decide))))
  have hspan : t.reg rBuSpan = r.span % 2 ^ 64 :=
    (hcols.regs wg _ (by unfold columnReg; decide)).trans ((State.reg_setReg_ne (State.setReg_regsWf wd ..) (by decide) _).trans
      ((State.reg_setReg wd ..).trans (if_pos rfl)))
  have hframe : t = { b with regs := t.regs } := by rw [hcols.frame, hg.frame, hd.frame, hbase.frame]
  refine ⟨⟨hwf, fun lo n => congrArg (bitsOf · lo n) hbu, ?_, ?_, ?_⟩, ?_, hspan, fun k hk =>
    showColumns_reg r.good r.test hall List.nodup_range wg k (List.mem_range.2 hk)⟩
  all_goals rw [hframe]

/-- The bits of a number that a register of 64 bits holds. -/
theorem popCount_mod (n : Nat) : popCount (n % 2 ^ 64) = popCount n := by
  have hbit : ∀ i < 64, bitsOf (n % 2 ^ 64) i 1 = bitsOf n i 1 := fun i hi => by
    have h := Nat.testBit_mod_two_pow n 64 i
    rw [decide_eq_true hi, Bool.true_and] at h
    rw [bitsOf, bitsOf, pow_one, ← Nat.toNat_testBit, ← Nat.toNat_testBit, h]
  unfold popCount
  refine List.foldl_ext _ _ _ fun c i hi => ?_
  rw [hbit i (List.mem_range.1 hi)]

/-- The judgement of an INSPECT ends it (R386, R387). -/
theorem State.inspectJudge_ends (w : s.Wf) (hb : s.bu = 2) (hc : s.fld rBuState 16 16 = 0) (f : Findings) (i : FwInfo) :
    Judged s (s.inspectJudge f i) := by
  obtain ⟨hshown, -, hspan, -⟩ := State.showSites_spec w f i
  rw [State.inspectJudge_eq]
  generalize s.showSites f i = t at hshown hspan ⊢
  have hstop {code : Nat} (h : code % 2 ^ 16 ∈ inspectCodes) := (State.inspectStop_judged hshown.wf ((hshown.bus 0 4).trans hb) h).of_shown hshown
  split
  · exact hstop (by decide)
  next hp =>
    split
    · exact hstop (by decide)
    · split
      · exact hstop (by decide)
      · exact (State.enterMap_judged hshown.wf ((hshown.bus 16 16).trans hc) (by rw [hspan, popCount_mod]; omega)).of_shown hshown

/-- An INSPECT that finds 28 span rows, no dead y-link and enough good sites on both dies ends in MAP. -/
theorem State.inspectJudge_map (w : s.Wf) (hc : s.fld rBuState 16 16 = 0) (f : Findings) (i : FwInfo) :
    let r := s.judgeSites f i (ageAll s.nv.age f.aged)
    28 ≤ popCount r.span → r.ydead = false → perDie ≤ goodCount r.good 0 → perDie ≤ goodCount r.good 1 →
      (s.inspectJudge f i).bu = 3 ∧ (s.inspectJudge f i).fld rBuState 16 16 = 0 ∧ (s.inspectJudge f i).pkg.coreFw = s.pkg.coreFw
        ∧ ∀ k < 72, (s.inspectJudge f i).reg (rBuSiteGood k) = r.good k % 2 ^ 64 ∧ (s.inspectJudge f i).reg (rBuSiteTest k) = r.test k % 2 ^ 64 := by
  intro r hspan hy hg0 hg1
  obtain ⟨hshown, hfw, -, hcols⟩ := State.showSites_spec w f i
  have he : s.inspectJudge f i = ((s.showSites f i).setFld rBuState 4 1 0).setBu stMap := by
    have hrows : ¬ popCount r.span < 28 := by omega
    have hgrade : ¬ (r.ydead = true ∨ goodCount r.good 0 + goodCount r.bbad 0 < perDie ∨ goodCount r.good 1 + goodCount r.bbad 1 < perDie) := by
      rw [hy]; simp only [Bool.false_eq_true, false_or]; omega
    have hcast : ¬ (goodCount r.good 0 < perDie ∨ goodCount r.good 1 < perDie) := by omega
    exact (State.inspectJudge_eq s f i).trans ((if_neg hrows).trans ((if_neg hgrade).trans (if_neg hcast)))
  rw [he]
  generalize s.showSites f i = t at hshown hfw hcols ⊢
  obtain ⟨hb, hcode, -, hregs⟩ := State.enterMap_spec hshown.wf
  refine ⟨hb, hcode.trans ((hshown.bus ..).trans hc), hfw, fun k hk => ?_⟩
  rw [hregs _ (by unfold rBuSiteGood rBuState; omega), hregs _ (by unfold rBuSiteTest rBuState; omega)]
  exact hcols k hk

/-! ### The firmware and the whole way -/

/-- The judgement rests on the records and the roles alone. -/
theorem State.judgeSites_congr (hn : t.nv = s.nv) (hr : ∀ m, t.role m = s.role m) : t.judgeSites = s.judgeSites := by
  have hdead : t.deadHalf = s.deadHalf := funext fun m => by rw [State.deadHalf, hr]; rfl
  funext f i ages
  unfold State.judgeSites
  rw [hn, hdead]

/-- The core image of the region that the leader runs. -/
def State.bootRegionBytes (s : State) : List Byte := if (s.mc s.leader).region = 0 then s.nv.regionA else s.nv.regionB

/-- A core image that verifies shows its version, and the sites are judged (R384, R441). -/
def State.loadCore (s : State) (i : FwInfo) : State :=
  ({ s with pkg := { s.pkg with coreFw := some i } } : State).setFld rSecBootStat 8 6 i.svn

theorem State.loadCore_shown (w : s.Wf) (i : FwInfo) : Shown s (s.loadCore i) ∧ (s.loadCore i).nv = s.nv ∧ ∀ m, (s.loadCore i).role m = s.role m := by
  have wp : { s with pkg := { s.pkg with coreFw := some i } }.Wf := ⟨w.regs, w.mem, w.ports, w.cores, w.sram, w.sqs, w.cqs⟩
  exact ⟨⟨State.setFld_wf wp .., fun _ _ => State.fld_setFld_ne wp.regs (by decide) .., rfl, rfl, rfl⟩, rfl,
    fun m => State.fld_setFld_ne wp.regs (by cases m <;> decide) ..⟩

theorem State.inspectRest_full (s : State) (f : Findings) : s.inspectRest true f =
    (match (if s.pkg.sb33 then fwCheck s.nv s.sigs 2 (coreImageOf s.bootRegionBytes) else .bad) with
    | .bad => s.inspectStop cSignatureFail
    | .rollback => s.inspectStop cRollback
    | .ok i => (s.loadCore i).inspectJudge f i) := rfl

theorem State.inspectRest_ends (w : s.Wf) (hb : s.bu = 2) (hc : s.fld rBuState 16 16 = 0) (full : Bool) (f : Findings) :
    Judged s (s.inspectRest full f) := by
  cases full with
  | true =>
    rw [State.inspectRest_full]
    split
    · exact State.inspectStop_judged w hb (by decide)
    · exact State.inspectStop_judged w hb (by decide)
    next i _ =>
      obtain ⟨hs, -, -⟩ := State.loadCore_shown w i
      exact (State.inspectJudge_ends hs.wf ((hs.bus 0 4).trans hb) ((hs.bus 16 16).trans hc) f i).of_shown hs
  | false =>
    have hfail : Judged s (s.inspectStop cSignatureFail) := State.inspectStop_judged w hb (by decide)
    change Judged s (match s.pkg.coreFw with
      | some i => if sha3_512 i.body = i.digest then s.inspectJudge f i else s.inspectStop cSignatureFail
      | none => s.inspectStop cSignatureFail)
    split
    · split
      · exact State.inspectJudge_ends w hb hc f _
      · exact hfail
    · exact hfail

theorem State.inspectRun_eq (s : State) (full : Bool) (f : Findings) : s.inspectRun full f =
    if full && !f.powerOk then (s.inspectStart full).inspectStop cElectricalTrip
    else if (f.hbmFail ++ f.hbmAbsent).any (· < 8) then ((s.inspectStart full).inspectPower.trainHbm f.hbmFail f.hbmAbsent).inspectStop cHbmFail
    else ((s.inspectStart full).inspectMemory full f).inspectRest full f := rfl

/-- Every INSPECT ends, and which way (R379). -/
theorem State.inspectRun_judged (w : s.Wf) (full : Bool) (f : Findings) : Judged (s.inspectStart full) (s.inspectRun full f) := by
  have hb := State.inspectStart_begun w full
  have hm := (s.inspectStart full).inspectMemory_aside full f
  have hp : Aside (s.inspectStart full) ((s.inspectStart full).inspectPower.trainHbm f.hbmFail f.hbmAbsent) :=
    ((Aside.refl _).frame ..).trainHbm
  rw [State.inspectRun_eq]
  generalize s.inspectStart full = u at hb hm hp ⊢
  have hp := hp.shown hb.wf
  have hm := hm.shown hb.wf
  split
  · exact State.inspectStop_judged hb.wf hb.bu (by decide)
  · split
    · exact (State.inspectStop_judged hp.wf ((hp.bus 0 4).trans hb.bu) (by decide)).of_shown hp
    · exact (State.inspectRest_ends hm.wf ((hm.bus 0 4).trans hb.bu) ((hm.bus 16 16).trans hb.code) full f).of_shown hm

/-- What an INSPECT of a package finds, cause by cause in the order of Table 14.5. -/
theorem State.inspectRun_causes (w : s.Wf) (f : Findings) :
    let t := s.inspectRun true f
    (f.powerOk = false → t.bu = 2 ∧ t.fld rBuState 16 16 = 0x0801)
    ∧ (f.powerOk = true → (∃ h ∈ f.hbmFail ++ f.hbmAbsent, h < 8) → t.bu = 2 ∧ t.fld rBuState 16 16 = 0x0B07)
    ∧ (f.powerOk = true → (∀ h ∈ f.hbmFail ++ f.hbmAbsent, 8 ≤ h) → s.pkg.sb33 = false → t.bu = 2 ∧ t.fld rBuState 16 16 = 0x0901)
    ∧ (∀ i, f.powerOk = true → (∀ h ∈ f.hbmFail ++ f.hbmAbsent, 8 ≤ h) → s.pkg.sb33 = true →
        fwCheck s.nv s.sigs 2 (coreImageOf s.bootRegionBytes) = .ok i →
        let r := s.judgeSites f i (ageAll s.nv.age f.aged)
        28 ≤ popCount r.span → r.ydead = false → perDie ≤ goodCount r.good 0 → perDie ≤ goodCount r.good 1 →
        t.bu = 3 ∧ t.fld rBuState 16 16 = 0 ∧ t.pkg.coreFw = some i
          ∧ ∀ k < 72, t.reg (rBuSiteGood k) = r.good k % 2 ^ 64 ∧ t.reg (rBuSiteTest k) = r.test k % 2 ^ 64) := by
  intro t
  have hb := State.inspectStart_begun w true
  have hstop {x : State} (wx : x.Wf) (hx : x.bu = 2) (code : Nat) : (x.inspectStop code).bu = 2 ∧ (x.inspectStop code).fld rBuState 16 16 = code % 2 ^ 16 :=
    ⟨(State.inspectStop_spec wx code).1.trans hx, (State.inspectStop_spec wx code).2.1⟩
  have hm := hb.aside ((s.inspectStart true).inspectMemory_aside true f)
  have hp := hb.aside (((Aside.refl _).frame ..).trainHbm : Aside _ ((s.inspectStart true).inspectPower.trainHbm f.hbmFail f.hbmAbsent))
  have hany (h : ∀ x ∈ f.hbmFail ++ f.hbmAbsent, 8 ≤ x) : ¬ (f.hbmFail ++ f.hbmAbsent).any (· < 8) = true := by
    simpa [Nat.not_lt, or_imp, forall_and] using h
  have hrest (hok : f.powerOk = true) (h : ∀ x ∈ f.hbmFail ++ f.hbmAbsent, 8 ≤ x) :
      t = ((s.inspectStart true).inspectMemory true f).inspectRest true f := by
    rw [show t = s.inspectRun true f from rfl, State.inspectRun_eq, if_neg (by rw [hok]; decide), if_neg (hany h)]
  refine ⟨fun hno => ?_, fun hok ⟨x, hx, hx8⟩ => ?_, fun hok h hsb => ?_, fun i hok h hsb hfw => ?_⟩
  · have ht : t = (s.inspectStart true).inspectStop cElectricalTrip := by
      rw [show t = s.inspectRun true f from rfl, State.inspectRun_eq, if_pos (by rw [hno]; rfl)]
    rw [ht]
    exact hstop hb.wf hb.bu _
  · have ht : t = ((s.inspectStart true).inspectPower.trainHbm f.hbmFail f.hbmAbsent).inspectStop cHbmFail := by
      rw [show t = s.inspectRun true f from rfl, State.inspectRun_eq, if_neg (by rw [hok]; decide),
        if_pos (List.any_eq_true.2 ⟨x, hx, decide_eq_true hx8⟩)]
    rw [ht]
    exact hstop hp.wf hp.bu _
  · rw [hrest hok h, State.inspectRest_full, hm.sb33, hsb]
    exact hstop hm.wf hm.bu _
  · have hboot : ((s.inspectStart true).inspectMemory true f).bootRegionBytes = s.bootRegionBytes := by
      rw [State.bootRegionBytes, hm.leader, hm.mcs, hm.nv]; rfl
    have hall := hrest hok h
    rw [State.inspectRest_full, hm.sb33, hsb, hboot, hm.nv, hm.sigs, if_pos rfl, hfw] at hall
    obtain ⟨hs, hnv, hroles⟩ := State.loadCore_shown hm.wf i
    have hjudge := State.judgeSites_congr (hnv.trans hm.nv) fun m => (hroles m).trans (hm.roles m)
    have hmap := State.inspectJudge_map hs.wf ((hs.bus ..).trans hm.code) f i
    rw [hjudge, hnv, hm.nv] at hmap
    rw [hall]
    exact hmap

/-! ### RESET -/

/-- A refused bring-up command sets CMD_REJ alone (R378). -/
theorem State.cmdRej_spec (w : s.Wf) : regsOnly s s.cmdRej [rBuState] ∧ s.cmdRej.fld rBuState 5 1 = 1 ∧ s.cmdRej.bu = s.bu :=
  ⟨((OnRegs.refl w [rBuState]).setFld).only, State.fld_setFld_same w.regs (by decide) .., State.buState_setFld w (by decide) (by decide) 1⟩

/-- The compute part of a RESET is lost before its INSPECT (R391). -/
def State.resetLoss (s : State) : State :=
  let s := s.loseCompute.trimPorts
  { s with fab := { s.fab with idleHold := true }, pkg := { s.pkg with softTrip := false, thermTrip := false, buOp := none } }

theorem State.computeReset_eq (s : State) (full : Bool) (f : Findings) :
    s.computeReset full f = s.resetLoss.inspectRun (full || s.pkg.softTrip) f := rfl

theorem State.resetLoss_wf (w : s.Wf) : s.resetLoss.Wf := (Keeps.refl s).loseTrim.frame.wf w

theorem State.resetLoss_mem (s : State) : s.resetLoss.mem = s.mem := s.loseCompute_mem

/-- What a RESET leaves (R391, R398). -/
theorem State.computeReset_spec (w : s.Wf) (full : Bool) (f : Findings) :
    let t := s.computeReset full f
    t.fld rBuState 4 1 = 0 ∧ t.job = none ∧ t.cores = [] ∧ t.pkg.niMap = [] ∧ t.fab.idleHold = true
      ∧ t.fld rBuState 7 1 = b2n (!(full || s.pkg.softTrip)) ∧ (t.bu = 3 ∨ t.bu = 2) ∧ t.mem = s.mem := by
  intro t
  obtain ⟨hbu, hidle, hjob, hcores⟩ := State.computeReset_ends w full f
  have wl := State.resetLoss_wf w
  have hb := State.inspectStart_begun wl (full || s.pkg.softTrip)
  have hj : Judged _ t := State.inspectRun_judged wl (full || s.pkg.softTrip) f
  exact ⟨hidle, hjob, hcores, hj.niMap.trans hb.niMap, (congrArg Fab.idleHold (hj.fab.trans hb.fab)), hj.quick.trans hb.quick, hbu.symm,
    hj.mem.trans (hb.mem.trans s.resetLoss_mem)⟩

/-- Settles O12: an INSPECT that is taken runs to its end, a RESET loses the compute part first, and a refusal is CMD_REJ. -/
theorem inspectEndsInMapOrWithCode : Obligations.InspectEndsInMapOrWithCode := by
  unfold Obligations.InspectEndsInMapOrWithCode
  intro full f s w hd
  refine ⟨fun htaken => ?_, fun hrefused => ?_, fun htaken hcool => ?_, fun hop hrefused => ?_⟩
  · have hexec : exec (.inspect f) s = .next (s.inspectRun true f) := by
      refine (next_of_live hd).trans (congrArg _ ?_)
      dsimp only
      rcases htaken with ⟨hop, hok⟩ | ⟨b, hop⟩
      · rw [hop]; exact if_pos hok
      · rw [hop]; rfl
    have hb := State.inspectStart_begun w true
    have hj := State.inspectRun_judged w true f
    obtain ⟨hpower, hhbm, hflash, hmap⟩ := State.inspectRun_causes w f
    exact ⟨_, hexec, (State.inspectRun_ends w true f).idle, hj.quick.trans hb.quick, hj.mem.trans hb.mem, hpower, hhbm, hflash, hmap, hj.ends⟩
  · refine ⟨s.cmdRej, (next_of_live hd).trans (congrArg _ ?_), State.cmdRej_spec w⟩
    dsimp only
    rcases hrefused with ⟨hop, hok⟩ | ⟨c, b, hop, hc⟩
    · rw [hop]; exact if_neg (by rw [hok]; decide)
    · rw [hop]
      split
      next h => exact absurd (congrArg Prod.fst (Option.some.inj h)) hc
      · rfl
      next h => cases h
  · refine ⟨s.computeReset full f, (next_of_live hd).trans (congrArg _ ?_), State.computeReset_spec w full f⟩
    dsimp only
    rcases htaken with ⟨hop, hok⟩ | hop
    · rw [hop]; exact if_pos (by rw [hok, hcool]; rfl)
    · rw [hop]; exact if_neg (by rw [hcool]; decide)
  · refine ⟨s.cmdRej, (next_of_live hd).trans (congrArg _ ?_), State.cmdRej_spec w⟩
    dsimp only
    rw [hop]
    refine if_neg ?_
    rcases hrefused with h | h
    · rw [h]; exact Bool.false_ne_true
    · rw [h]; simp

end Sys2Proof.Machine
end

section
/-! SUPPORT. COMMIT, RUN, JOB_START and STOP (R247, R262, R378, R388). -/

namespace Sys2Proof.Machine
open Sys2Proof

-- Proofs elaborated in threads of their own would pass the check's limit of memory.
set_option Elab.async false

variable {s t u : State}

/-! ### COMMIT -/

/-- A mapped core enters IDLE, and its window shows its site's frequencies. -/
def State.idleCore (s : State) (n : Nat) : State :=
  (s.setCstate n csIdle).setReg (rCore n oFreq) (min 1450 (currentMax (s.setCstate n csIdle).nv (s.mapEntry n))
    + 2 ^ 12 * currentMax (s.setCstate n csIdle).nv (s.mapEntry n) + 2 ^ 24 * fuseFreq (s.setCstate n csIdle).nv (s.mapEntry n)
    + 2 ^ 36 * min 31 (ageOf (s.setCstate n csIdle).nv (s.mapEntry n)))

theorem State.idleCores_loads (l : List Nat) (s : State) : Loads coreReg s (l.foldl State.idleCore s) :=
  (Loads.refl _ s).foldl fun n _ h => (h.setFld (coreReg_rCore n oState)).setReg (coreReg_rCore n oFreq)

theorem State.idleCore_wf (w : s.Wf) (n : Nat) : (s.idleCore n).Wf := (Keeps.refl s).setCstate.setReg.wf w

theorem State.cstate_idleCore (w : s.Wf) (n k : Nat) : (s.idleCore n).cstate k = if k = n then 1 else s.cstate k := by
  have w1 := ((Keeps.refl s).setCstate (n := n) (v := csIdle)).wf w
  refine (State.cstate_of_regs (State.reg_setReg_ne w1.regs (fun e => absurd (rCore_inj (by decide) (by decide) e).2 (by decide)) _)).trans ?_
  rw [State.cstate_setCstate w]
  rfl

theorem State.cstate_idleCores (w : s.Wf) (l : List Nat) (k : Nat) :
    (l.foldl State.idleCore s).cstate k = if k ∈ l then 1 else s.cstate k := by
  induction l generalizing s with
  | nil => simp
  | cons n l ih =>
    rw [List.foldl_cons, ih (State.idleCore_wf w n), State.cstate_idleCore w]
    by_cases hk : k = n <;> simp [hk]

/-- The map that the NIs hold once it is committed. -/
def committed (all : List Nat) : List Nat := all.map (fun e => e % 2 ^ 12 + 2 ^ 15 * bitsOf e 15 1)

def State.withMap (s : State) (all : List Nat) : State :=
  { s with pkg := { s.pkg with niMap := committed all, hbmMap := committed all
                               spanRow := (List.range 32).map (fun y => spanRowOf (s.reg rBuSpan) y), fwBank := none, fwOff := [] } }

theorem State.commitMap_eq (s : State) (all : List Nat) :
    s.commitMap all = ((List.range numCores).foldl State.idleCore (s.withMap all)).setBu stLoad := rfl

theorem committed_getD (f : Nat → Nat) {n : Nat} (hn : n < 2048) : (committed ((List.range 2048).map f)).getD n 0
    = ((List.range 2048).map f).getD n 0 % 2 ^ 12 + 2 ^ 15 * bitsOf (((List.range 2048).map f).getD n 0) 15 1 := by
  simp [committed, hn]

/-- A committed map: LOAD, every logical core IDLE, and the NIs hold the map (R388). -/
theorem State.commitMap_spec (w : s.Wf) (all : List Nat) :
    (s.commitMap all).bu = 4 ∧ (∀ n < numCores, (s.commitMap all).cstate n = 1)
      ∧ (∀ n, (s.commitMap all).mapEntry n = (committed all).getD n 0)
      ∧ (s.commitMap all).mem = s.mem ∧ (s.commitMap all).job = s.job ∧ (s.commitMap all).nv = s.nv := by
  have wm : (s.withMap all).Wf := ⟨w.regs, w.mem, w.ports, w.cores, w.sram, w.sqs, w.cqs⟩
  have hl := State.idleCores_loads (List.range numCores) (s.withMap all)
  have hstate := State.cstate_idleCores wm (List.range numCores)
  have wl : ((List.range numCores).foldl State.idleCore (s.withMap all)).Wf :=
    ((Keeps.refl _).foldl fun _ h => h.setCstate.setReg).wf wm
  rw [State.commitMap_eq]
  generalize (List.range numCores).foldl State.idleCore (s.withMap all) = t at hl hstate wl ⊢
  have hf : t.setBu stLoad = { s.withMap all with regs := (t.setBu stLoad).regs } := by rw [State.setBu, State.setFld, State.setReg, hl.frame]
  refine ⟨State.bu_setBu wl (by decide), fun n hn => ?_, fun n => ?_, ?_, ?_, ?_⟩
  · refine (State.cstate_of_regs (State.reg_setFld_ne wl.regs (rCore_ne_low (by decide)) ..)).trans ?_
    rw [hstate, if_pos (List.mem_range.2 hn)]
  all_goals rw [hf]; rfl

theorem mapFault_le (good : Nat → Nat) (all : List Nat) (n : Nat) : mapFault good all n ≤ 6 := by
  unfold mapFault
  dsimp only
  split_ifs <;> decide

/-- Settles O13: the first faulty entry is what the search of the entries finds, and without one the map is committed. -/
theorem commitChecksTheMap : Obligations.CommitChecksTheMap := by
  unfold Obligations.CommitChecksTheMap
  intro s w hd all bad
  have htaken (hb : s.bu = 3) (hi : s.fld rBuState 4 1 = 0) : exec .commit s = .next s.commit :=
    (next_of_live hd).trans (congrArg _ (if_pos ⟨hb, hi⟩))
  refine ⟨fun hb hi hgood => ?_, fun n hn hb hi hbad hfirst => ?_, fun h => ?_⟩
  · have hnone : (List.range 2048).find? (fun n => bad n != 0) = none :=
      List.find?_eq_none.2 fun n hn => by simp [hgood n (List.mem_range.1 hn)]
    have hcommit : s.commit = s.commitMap all := by
      unfold State.commit
      dsimp only
      rw [show (List.range 2048).find? _ = none from hnone]
    obtain ⟨hbu, hidle, hmap, hmem, hjob, hnv⟩ := State.commitMap_spec w all
    refine ⟨_, (htaken hb hi).trans (congrArg _ hcommit), hbu, hidle, fun n hn => (hmap n).trans (committed_getD _ hn), hmem, hjob, hnv⟩
  · have hsome : (List.range 2048).find? (fun n => bad n != 0) = some n :=
      List.find?_range_eq_some.2 ⟨by simpa using hbad, List.mem_range.2 hn, fun k hk => by simp [hfirst k hk]⟩
    have hcommit : s.commit = s.setReg rBuMapErr (n + 2 ^ 11 * bad n) := by
      unfold State.commit
      dsimp only
      rw [show (List.range 2048).find? _ = some n from hsome]
    have hle : bad n ≤ 6 := mapFault_le ..
    exact ⟨_, (htaken hb hi).trans (congrArg _ hcommit), ((OnRegs.refl w [rBuMapErr]).setReg).only,
      State.reg_setReg_same w.regs _ (by omega)⟩
  · have hno : ¬ (s.bu = stMap ∧ s.fld rBuState 4 1 = 0) := by
      rintro ⟨hb, hi⟩
      rcases h with h | h
      · exact h hb
      · omega
    exact ⟨_, (next_of_live hd).trans (congrArg _ (if_neg hno)), State.cmdRej_spec w⟩

/-! ### RUN -/

/-- From `s` to `t` only registers and cores have changed. -/
def CoresOnly (s t : State) : Prop := t = { s with regs := t.regs, cores := t.cores }

theorem CoresOnly.trans (h : CoresOnly s t) (k : CoresOnly t u) : CoresOnly s u := by
  rw [CoresOnly] at *
  rw [k, h]

theorem CoresOnly.foldl {α : Type} {f : State → α → State} (hf : ∀ s x, CoresOnly s (f s x)) (l : List α) (s : State) :
    CoresOnly s (l.foldl f s) := by
  induction l generalizing s with
  | nil => rfl
  | cons x l ih => exact (hf s x).trans (ih _)

/-- A core pants, or not, until the run begins. -/
def State.pantCore (pant : Bool) (s : State) (n : Nat) : State := s.setCore n { s.core n with panting := pant }

/-- RUN before BU_STATE shows it: PF_DBG_STAT shows whether the run is armed, and the cores pant where that is enabled. -/
def State.armRun (s : State) : State :=
  let s := s.setFld rPfDbgStat 0 1 (s.fld rPfDbgCtrl 0 1)
  s.used.foldl (State.pantCore (s.fld rPwrPant 0 1 == 1)) s

theorem State.enterRun_eq (s : State) : s.enterRun = State.setBu { s.armRun with
    stp := { s.armRun.stp with b0 := s.fld rPfStart 0 48, started := false, origin := 0, prevOrigin := none }
    fab := { s.armRun.fab with idleHold := false, haltedAt := none } } stRun := rfl

theorem State.armRun_regs (s : State) : s.armRun.regs = (s.setFld rPfDbgStat 0 1 (s.fld rPfDbgCtrl 0 1)).regs :=
  foldl_keep State.regs (f := State.pantCore _) (fun _ _ => rfl) _ _

theorem State.armRun_only (s : State) : CoresOnly s s.armRun :=
  have ha : CoresOnly s (s.setFld rPfDbgStat 0 1 (s.fld rPfDbgCtrl 0 1)) := rfl
  ha.trans (CoresOnly.foldl (f := State.pantCore _) (fun _ _ => rfl) _ _)

/-- What RUN shows (R378, R429). -/
theorem State.enterRun_regs (w : s.Wf) : s.enterRun.fld rPfDbgStat 0 1 = s.fld rPfDbgCtrl 0 1
    ∧ ∀ r, r ≠ rBuState → r ≠ rPfDbgStat → s.enterRun.reg r = s.reg r := by
  have wa : mapWf regDefault s.armRun.regs := s.armRun_regs ▸ State.setFld_regsWf w.regs ..
  have hreg (r : Nat) : s.armRun.reg r = (s.setFld rPfDbgStat 0 1 (s.fld rPfDbgCtrl 0 1)).reg r := by rw [State.reg, s.armRun_regs]; rfl
  have hrun (r : Nat) (hr : r ≠ rBuState) : s.enterRun.reg r = s.armRun.reg r := State.reg_setFld_ne (s := { s.armRun with stp := _, fab := _ }) wa hr ..
  have hbit : s.fld rPfDbgCtrl 0 1 % 2 ^ 1 = s.fld rPfDbgCtrl 0 1 := Nat.mod_eq_of_lt (bitsOf_lt ..)
  refine ⟨?_, fun r hr hd => (hrun r hr).trans ((hreg r).trans (State.reg_setFld_ne w.regs hd ..))⟩
  refine (congrArg (bitsOf · 0 1) ((hrun rPfDbgStat (by decide)).trans (hreg _))).trans ?_
  exact (State.fld_setFld_same w.regs (by decide) ..).trans hbit

/-- What RUN leaves, and how the ports then idle (R271). -/
theorem State.enterRun_frame (s : State) : s.enterRun.stp.started = false
    ∧ s.enterRun.fab = { s.fab with idleHold := false, haltedAt := none } ∧ s.enterRun.mem = s.mem ∧ s.enterRun.job = s.job
    ∧ s.enterRun.nv = s.nv := by
  have h := s.armRun_only
  rw [CoresOnly] at h
  refine ⟨rfl, ?_, ?_, ?_, ?_⟩ <;> rw [s.enterRun_eq, h] <;> rfl

/-! ### JOB_START -/

/-- A core that starts pants no more, and changes its own STATE alone. -/
theorem State.startCore_spec (w : s.Wf) (n : Nat) : (s.startCore n).Wf
    ∧ (∀ k, (s.startCore n).core k = if k = n then { s.core n with panting := false } else s.core k)
    ∧ ∀ r, r ≠ rCore n oState → (s.startCore n).reg r = s.reg r := by
  have w1 := (Quiet.setCore coreReg s n (s.core n).window (s.core n).stream (s.core n).ending false).wf w
  have w2 := (Quiet.setCfld (s.setCore n { s.core n with panting := false }) n oState 3 1
    (b2n ((s.setCore n { s.core n with panting := false }).cfld n oBank 2 2 == 3))).wf w1
  exact ⟨(s.startCore_quiet n).wf w, fun k => State.core_setCore w.cores n k _, fun r hr =>
    (State.reg_setFld_ne w2.regs hr ..).trans (State.reg_setFld_ne w1.regs hr ..)⟩

theorem State.startCores_cores (w : s.Wf) (l : List Nat) : (l.foldl State.startCore s).Wf
    ∧ (∀ k, (l.foldl State.startCore s).core k = if k ∈ l then { s.core k with panting := false } else s.core k)
    ∧ ∀ r, (∀ n ∈ l, r ≠ rCore n oState) → (l.foldl State.startCore s).reg r = s.reg r := by
  induction l generalizing s with
  | nil => exact ⟨w, fun _ => by simp, fun _ _ => rfl⟩
  | cons n l ih =>
    obtain ⟨w1, hcore, hreg⟩ := State.startCore_spec w n
    obtain ⟨wf, hcores, hregs⟩ := ih w1
    refine ⟨wf, fun k => ?_, fun r hr => ?_⟩
    · rw [List.foldl_cons, hcores, hcore]
      by_cases hk : k = n
      · subst hk
        simp
      · simp [hk]
    · exact (hregs r fun n hn => hr n (List.mem_cons_of_mem _ hn)).trans (hreg r (hr n List.mem_cons_self))

/-- The frequencies of the mapped cores are shown in their FREQ registers alone. -/
theorem State.showFreq_loads (s : State) : Loads (fun r => ∃ n ∈ s.mappedCores, r = rCore n oFreq) s s.showFreq :=
  (Loads.refl _ s).foldl fun n hn h => h.setFld ⟨n, hn, rfl⟩

/-- JOB_START in a run whose B₀ has come. -/
def State.startJob (s : State) : State :=
  ((s.used.filter s.hasActive).foldl State.startCore { s with stp := { s.stp with started := true } }).showFreq

theorem State.startJob_spec (w : s.Wf) :
    let t := s.startJob
    (∀ n ∈ s.used, s.hasActive n = true → t.cstate n = 2 ∧ (t.core n).panting = false)
      ∧ (∀ n, ¬(n ∈ s.used ∧ s.hasActive n = true) → t.cstate n = s.cstate n ∧ t.core n = s.core n)
      ∧ t = { s with regs := t.regs, cores := t.cores, stp := { s.stp with started := true } }
      ∧ ∀ r, (∀ n ∈ s.used, s.hasActive n = true → r ≠ rCore n oState) → (∀ n ∈ s.mappedCores, r ≠ rCore n oFreq) → t.reg r = s.reg r := by
  intro t
  have w' : State.Wf { s with stp := { s.stp with started := true } } := ⟨w.regs, w.mem, w.ports, w.cores, w.sram, w.sqs, w.cqs⟩
  have hmem (n : Nat) : n ∈ s.used.filter s.hasActive ↔ n ∈ s.used ∧ s.hasActive n = true := List.mem_filter
  obtain ⟨wl, hcores, hregs⟩ := State.startCores_cores w' (s.used.filter s.hasActive)
  have hstate := State.cstate_startCores w' (s.used.filter s.hasActive)
  have honly : CoresOnly { s with stp := { s.stp with started := true } } _ :=
    CoresOnly.foldl (f := State.startCore) (fun _ _ => rfl) (s.used.filter s.hasActive) _
  have hf := State.showFreq_loads ((s.used.filter s.hasActive).foldl State.startCore { s with stp := { s.stp with started := true } })
  have ht : t = State.showFreq _ := rfl
  generalize (s.used.filter s.hasActive).foldl State.startCore { s with stp := { s.stp with started := true } } = u at *
  have hmapped : u.mappedCores = s.mappedCores := by rw [honly]; rfl
  have hcore (n : Nat) : t.core n = u.core n := by rw [ht, hf.frame]; rfl
  have hcstate (n : Nat) : t.cstate n = u.cstate n :=
    ht ▸ State.cstate_of_regs (hf.regs wl.regs _ fun ⟨_, _, e⟩ => absurd (rCore_inj (by decide) (by decide) e).2 (by decide))
  refine ⟨fun n hn ha => ?_, fun n hn => ?_, ?_, fun r hr hfr => ?_⟩
  · have hin := (hmem n).2 ⟨hn, ha⟩
    exact ⟨(hcstate n).trans ((hstate n).trans (if_pos hin)), by rw [hcore, hcores, if_pos hin]⟩
  · have hout := mt (hmem n).1 hn
    exact ⟨(hcstate n).trans ((hstate n).trans (if_neg hout)), (hcore n).trans ((hcores n).trans (if_neg hout))⟩
  · rw [ht, hf.frame, honly]
  · rw [ht]
    exact (hf.regs wl.regs r fun ⟨n, hn, e⟩ => hfr n (hmapped ▸ hn) e).trans (hregs r fun n hn => hr n ((hmem n).1 hn).1 ((hmem n).1 hn).2)

/-- Settles O14: RUN and JOB_START where they are taken, STOP in RUN, and the refusals. -/
theorem runStartAndStop : Obligations.RunStartAndStop := by
  unfold Obligations.RunStartAndStop
  refine ⟨fun s w hd => ⟨fun hb hi hs => ?_, fun h => ?_, fun hr hn hb => ?_, fun h => ?_⟩, fun s w hd => ⟨fun hr => ?_, fun hr => ?_⟩⟩
  · obtain ⟨hbu, hb0⟩ := State.enterRun_spec w
    obtain ⟨hdbg, hregs⟩ := State.enterRun_regs w
    obtain ⟨hstarted, hfab, hmem, hjob, hnv⟩ := s.enterRun_frame
    exact ⟨s.enterRun, (next_of_live hd).trans (congrArg _ (if_pos ⟨hb, hi, hs⟩)), hbu, hb0, hstarted, hfab, hdbg, hmem, hjob, hnv, hregs⟩
  · have hno : ¬ (s.bu = stReady ∧ s.fld rBuState 4 1 = 0 ∧ s.beat < s.fld rPfStart 0 48) := by
      rintro ⟨hb, hi, hs⟩
      rcases h with h | h | h
      · exact h hb
      · omega
      · omega
    exact ⟨_, (next_of_live hd).trans (congrArg _ (if_neg hno)), State.cmdRej_spec w⟩
  · obtain ⟨hstart, hrest, hframe, hregs⟩ := State.startJob_spec w
    obtain ⟨t, ht, hissuing, -⟩ := execJobStart_ends w hd hr hn hb
    have hexec : exec .jobStart s = .next s.startJob := (next_of_live hd).trans (congrArg _ (if_pos (by simp [hr, hn, hb])))
    obtain rfl := Host.Outcome.next.inj (ht.symm.trans hexec)
    exact ⟨_, hexec, hissuing, hstart, hrest, hframe, hregs⟩
  · have hno : ¬ (s.running && !s.stp.started && decide (s.stp.b0 ≤ s.beat)) = true := by
      rcases h with h | h | h
      · simp [h]
      · simp [h]
      · simp [Nat.not_le.2 h]
    exact (next_of_live hd).trans (congrArg _ (if_neg hno))
  · exact (next_of_live hd).trans (congrArg _ (if_pos hr))
  · exact ⟨_, (next_of_live hd).trans (congrArg _ (if_neg (by rw [hr]; decide))), State.cmdRej_spec w⟩

end Sys2Proof.Machine
end

section
/-! SUPPORT. The cap, the energy meter, the interval and the gains (R401 to R407). -/

namespace Sys2Proof.Machine
open Sys2Proof

-- Proofs elaborated in threads of their own would pass the check's limit of memory.
set_option Elab.async false

variable {s t u : State}

/-! ### The cap -/

/-- A good PWR_CAP takes effect from the next interval (R405). -/
theorem State.capWrite_good (w : s.Wf) (v : Nat) (h : 600 ≤ bitsOf v 0 12 ∧ bitsOf v 0 12 ≤ 2100 ∧ 1 ≤ bitsOf v 12 4 ∧ bitsOf v 12 4 ≤ 10) :
    (s.capWrite v).fld rPwrCap 0 12 = bitsOf v 0 12 ∧ (s.capWrite v).fld rPwrCap 12 4 = bitsOf v 12 4
      ∧ (s.capWrite v).pwr = { s.pwr with capNext := some (bitsOf v 0 12) }
      ∧ regsOnly { s with pwr := (s.capWrite v).pwr } (s.capWrite v) [rPwrCap] := by
  unfold State.capWrite
  extract_lets c x s1 s2
  have h1 : OnRegs [rPwrCap] s s1 := (OnRegs.refl w _).when (·.setFld)
  have h2 : OnRegs [rPwrCap] s s2 := h1.setFld.setFld
  rw [if_pos h]
  refine ⟨?_, ?_, ?_, ?_⟩
  · exact (State.fld_setFld_disjoint (h1.setFld (a := rPwrCap)).wf.regs (by decide) (by decide) ..).trans
      ((State.fld_setFld_same h1.wf.regs (by decide) ..).trans (Nat.mod_eq_of_lt (bitsOf_lt ..)))
  · exact (State.fld_setFld_same (h1.setFld (a := rPwrCap)).wf.regs (by decide) ..).trans (Nat.mod_eq_of_lt (bitsOf_lt ..))
  · show { s2.pwr with capNext := some c } = _
    rw [h2.only.1]
  · refine ⟨?_, h2.only.2⟩
    rw [h2.only.1]

/-- Any other PWR_CAP is refused (R405). -/
theorem State.capWrite_bad (w : s.Wf) (v : Nat) (h : ¬ (600 ≤ bitsOf v 0 12 ∧ bitsOf v 0 12 ≤ 2100 ∧ 1 ≤ bitsOf v 12 4 ∧ bitsOf v 12 4 ≤ 10)) :
    (s.capWrite v).fld rPwrCap 16 1 = 1 ∧ (s.capWrite v).fld rPwrCap 0 16 = s.fld rPwrCap 0 16
      ∧ regsOnly s (s.capWrite v) [rPwrCap] := by
  unfold State.capWrite
  extract_lets c x s1 s2
  have h1 : OnRegs [rPwrCap] s s1 := (OnRegs.refl w _).when (·.setFld)
  have hcap : s1.fld rPwrCap 0 16 = s.fld rPwrCap 0 16 := by
    unfold s1
    split
    · exact State.fld_setFld_disjoint w.regs (by decide) (by decide) ..
    · rfl
  rw [if_neg h]
  exact ⟨State.fld_setFld_same h1.wf.regs (by decide) .., (State.fld_setFld_disjoint h1.wf.regs (by decide) (by decide) ..).trans hcap,
    h1.setFld.only⟩

/-- A good PWR_CAP_SCHED waits for its beat (R405). -/
theorem State.capSched_good (w : s.Wf) (v : Nat) (h : s.beat < bitsOf v 0 48 ∧ 600 ≤ bitsOf v 48 12 ∧ bitsOf v 48 12 ≤ 2100) :
    (s.capSched v).fld rPwrCapSched 0 48 = bitsOf v 0 48 ∧ (s.capSched v).fld rPwrCapSched 48 12 = bitsOf v 48 12
      ∧ regsOnly s (s.capSched v) [rPwrCapSched] := by
  have hb := bitsOf_lt v 0 48
  have hc := bitsOf_lt v 48 12
  have e : s.capSched v = s.setReg rPwrCapSched (bitsOf v 0 48 + 2 ^ 48 * bitsOf v 48 12) := if_pos h
  have hreg := State.reg_setReg_same w.regs rPwrCapSched (v := bitsOf v 0 48 + 2 ^ 48 * bitsOf v 48 12) (by omega)
  rw [e, State.fld, State.fld, hreg]
  generalize bitsOf v 0 48 = b at *
  generalize bitsOf v 48 12 = c at *
  refine ⟨?_, ?_, (OnRegs.refl w [rPwrCapSched]).setReg.only⟩ <;> rw [bitsOf] <;> omega

/-! ### A sample -/

/-- What a sample writes once it has shown the temperature warning: PWR_AVG, the targets, the floor, counts of pairs, island frequencies. -/
def followReg (r : Nat) : Prop := r = rPwrAvg ∨ r = rPwrFloor ∨ r = rPwrFreq ∨ rPwrGain 0 ≤ r ∧ r < rPwrGain 64 ∨ coreBase ≤ r

/-- From `s` to `t` the meter and the warning have stayed: the rest of a sample. -/
structure Follows (s t : State) : Prop where
  frame : t = { s with regs := t.regs, pwr := t.pwr }
  meter : t.pwr.mj = s.pwr.mj ∧ t.pwr.e = s.pwr.e
  canon : mapWf regDefault t.regs
  regs  : ∀ r, ¬ followReg r → t.reg r = s.reg r
  warn  : t.fld rPwrAvg 38 1 = s.fld rPwrAvg 38 1

theorem Follows.refl (w : mapWf regDefault s.regs) : Follows s s := ⟨rfl, ⟨rfl, rfl⟩, w, fun _ _ => rfl, rfl⟩

theorem Follows.setReg (h : Follows s t) {a v : Nat} (ha : followReg a) (hw : rPwrAvg ≠ a) : Follows s (t.setReg a v) where
  frame := by rw [State.setReg, h.frame]
  meter := h.meter
  canon := State.setReg_regsWf h.canon a v
  regs r hr := (State.reg_setReg_ne h.canon (fun e : r = a => hr (e ▸ ha)) v).trans (h.regs r hr)
  warn := (congrArg (bitsOf · 38 1) (State.reg_setReg_ne h.canon hw v)).trans h.warn

/-- A field of PWR_AVG beside the warning. -/
theorem Follows.setAvg (h : Follows s t) {lo n x : Nat} (hl : lo + n ≤ 38) : Follows s (t.setFld rPwrAvg lo n x) where
  frame := by rw [State.setFld, State.setReg, h.frame]
  meter := h.meter
  canon := State.setFld_regsWf h.canon ..
  regs r hr := (State.reg_setFld_ne h.canon (fun e : r = rPwrAvg => hr (.inl e)) ..).trans (h.regs r hr)
  warn := (State.fld_setFld_disjoint h.canon (by omega) (.inr hl) ..).trans h.warn

theorem Follows.setPwr (h : Follows s t) (p : PwrSt) (hm : p.mj = t.pwr.mj ∧ p.e = t.pwr.e := by exact ⟨rfl, rfl⟩) :
    Follows s { t with pwr := p } where
  frame := by rw [h.frame]
  meter := ⟨hm.1.trans h.meter.1, hm.2.trans h.meter.2⟩
  canon := h.canon
  regs := h.regs
  warn := h.warn

theorem Follows.ite {c : Prop} [Decidable c] (h : Follows s t) (k : Follows s u) : Follows s (if c then t else u) := by
  split
  · exact h
  · exact k

theorem Follows.setTargets (h : Follows s t) (x y : Nat) : Follows s (t.setTargets x y) := by
  have h1 : Follows s (t.setReg rPwrFreq (x % 2 ^ 12 + 2 ^ 16 * (y % 2 ^ 12))) := h.setReg (.inr (.inr (.inl rfl))) (by decide)
  refine List.foldlRecOn (motive := Follows s) _ _ h1 fun _ h n _ => h.setReg (.inr (.inr (.inr (.inr ?_)))) ?_
  all_goals unfold rCore coreBase
  · omega
  · unfold rPwrAvg; omega

theorem Follows.govern (h : Follows s t) : Follows s t.govern := by
  unfold State.govern
  extract_lets left flr budget e q s1 lim lim' s2
  have h1 : Follows s s1 := (h.setAvg (by decide)).setAvg (by decide)
  have h2 : Follows s s2 := (h.setAvg (by decide)).setAvg (by decide)
  exact .ite (h1.setTargets ..) (h2.setPwr _)

theorem cellOf_lt (raw x : Nat) : cellOf raw x < 64 := by
  have h1 : tempBin x ≤ 7 := Nat.min_le_left ..
  have h2 : loadBin raw ≤ 7 := Nat.min_le_left ..
  unfold cellOf
  omega

theorem Follows.pairSample (h : Follows s t) (m : PowerMeas) : Follows s (t.pairSample m) := by
  unfold State.pairSample
  extract_lets mean c
  have hc : c < 64 := cellOf_lt ..
  split
  have h1 : Follows s (t.addFld (rPwrGain c) 16 16 1) :=
    h.setReg (.inr (.inr (.inr (.inl (by unfold rPwrGain; omega))))) (by unfold rPwrGain rPwrAvg; omega)
  exact h1.setPwr _

/-- A sample's input and energy. -/
def State.meterPower (s : State) (m : PowerMeas) : State :=
  let s := s.setReg rPwrIn (min 65535 m.vin + 2 ^ 16 * min 65535 m.pin)
  let uj := s.pwr.mj + 10 * m.pin
  let s := s.setReg rPwrEnergy (s.reg rPwrEnergy + uj / 1000)
  { s with pwr := { s.pwr with mj := uj % 1000, e := s.pwr.e + 10 * m.pin } }

/-- A sample's temperature and the warning of it. -/
def State.meterHeat (s : State) (m : PowerMeas) : State :=
  let s := s.setFld rPwrTherm 0 8 (min 255 m.tMax)
  let thr := s.fld rPwrTherm 8 8
  let hot := decide (thr ≤ m.tMax)
  let s := { s with pkg := { s.pkg with thermWarn := hot }
                    pwr := { s.pwr with factor := if hot then max 50 (100 - 2 * (m.tMax - thr + 1)) else 100 } }
  s.setFld rPwrAvg 38 1 (b2n hot)

/-- The rest of a sample: its pair joins a cell, the floor and the average are shown, the governor acts. -/
def State.heedSample (s : State) (m : PowerMeas) : State :=
  let s := s.pairSample m
  let fl := s.pwr.floors.filter (fun f => s.now ≤ f.1 + 25_000_000)
  let fl := if s.fld rPwrAvg 32 1 = 1 then fl ++ [(s.now, m.pin)] else fl
  let s := { s with pwr := { s.pwr with floors := fl } }
  let flr := max (fl.foldl (fun x f => max x f.2) 0) (ceilDiv (m.estFloor * 108) 100)
  let s := (s.setFld rPwrFloor 0 16 (min 65535 flr)).setFld rPwrFloor 16 16 (min 65535 m.pHold)
  let s := s.setFld rPwrAvg 0 16 (min 65535 ((s.ePast + s.pwr.e) / (1_000_000 * max 1 (s.fld rPwrCap 12 4))))
  s.govern

theorem State.sample_eq (s : State) (m : PowerMeas) : s.sample m = ((s.meterPower m).meterHeat m).heedSample m := rfl

theorem State.heedSample_follows (w : mapWf regDefault s.regs) (m : PowerMeas) : Follows s (s.heedSample m) :=
  ((((((Follows.refl w).pairSample m).setPwr _).setReg (.inr (.inl rfl)) (by decide)).setReg (.inr (.inl rfl)) (by decide)).setAvg
    (by decide)).govern

theorem State.meterPower_spec (w : mapWf regDefault s.regs) (m : PowerMeas) : mapWf regDefault (s.meterPower m).regs
    ∧ (s.meterPower m).reg rPwrIn = min 65535 m.vin + 2 ^ 16 * min 65535 m.pin
    ∧ (s.reg rPwrEnergy + (s.pwr.mj + 10 * m.pin) / 1000 < 2 ^ 64 →
      (s.meterPower m).reg rPwrEnergy = s.reg rPwrEnergy + (s.pwr.mj + 10 * m.pin) / 1000)
    ∧ ∀ r, r ≠ rPwrIn → r ≠ rPwrEnergy → (s.meterPower m).reg r = s.reg r := by
  have w1 := State.setReg_regsWf w rPwrIn (min 65535 m.vin + 2 ^ 16 * min 65535 m.pin)
  have he : (s.setReg rPwrIn (min 65535 m.vin + 2 ^ 16 * min 65535 m.pin)).reg rPwrEnergy = s.reg rPwrEnergy :=
    State.reg_setReg_ne w (by decide) _
  refine ⟨State.setReg_regsWf w1 .., ?_, fun h => ?_, fun r h1 h2 => ?_⟩
  · exact (State.reg_setReg_ne w1 (by decide) _).trans (State.reg_setReg_same w _ (by omega))
  · refine (State.reg_setReg_same w1 _ ?_).trans ?_ <;> rw [he]
    · exact h
    · rfl
  · exact (State.reg_setReg_ne w1 h2 _).trans (State.reg_setReg_ne w h1 _)

theorem State.meterHeat_spec (w : mapWf regDefault s.regs) (m : PowerMeas) : mapWf regDefault (s.meterHeat m).regs
    ∧ (s.meterHeat m).fld rPwrTherm 0 8 = min 255 m.tMax
    ∧ (s.meterHeat m).pkg.thermWarn = decide (s.fld rPwrTherm 8 8 ≤ m.tMax)
    ∧ (s.meterHeat m).fld rPwrAvg 38 1 = b2n (decide (s.fld rPwrTherm 8 8 ≤ m.tMax))
    ∧ ∀ r, r ≠ rPwrTherm → r ≠ rPwrAvg → (s.meterHeat m).reg r = s.reg r := by
  have w1 := State.setFld_regsWf w rPwrTherm 0 8 (min 255 m.tMax)
  have hthr : (s.setFld rPwrTherm 0 8 (min 255 m.tMax)).fld rPwrTherm 8 8 = s.fld rPwrTherm 8 8 :=
    State.fld_setFld_disjoint w (by decide) (by decide) ..
  refine ⟨State.setFld_regsWf w1 .., ?_, ?_, ?_, fun r h1 h2 => ?_⟩
  · refine (State.fld_setFld_ne w1 (by decide) ..).trans ((State.fld_setFld_same w (by decide) ..).trans ?_)
    omega
  · show decide ((s.setFld rPwrTherm 0 8 (min 255 m.tMax)).fld rPwrTherm 8 8 ≤ m.tMax) = _
    rw [hthr]
  · refine (State.fld_setFld_same w1 (by decide) ..).trans ?_
    rw [hthr]
    exact Nat.mod_eq_of_lt (by unfold b2n; split <;> decide)
  · exact (State.reg_setFld_ne w1 h2 ..).trans (State.reg_setFld_ne w h1 ..)

theorem not_followReg {r : Nat} (h : r < rPwrAvg ∨ r = rPwrTherm ∨ r = rBuState) : ¬ followReg r := by
  simp only [followReg, rPwrAvg, rPwrTherm, rBuState, rPwrFloor, rPwrFreq, rPwrGain, coreBase] at h ⊢
  omega

/-- What a sample shows (R401, R407). -/
theorem State.sample_spec (w : s.Wf) (m : PowerMeas) (t : State) (ht : s.sample m = t) :
    t.fld rPwrIn 0 16 = min 65535 m.vin ∧ t.fld rPwrIn 16 16 = min 65535 m.pin
      ∧ (s.reg rPwrEnergy + (s.pwr.mj + 10 * m.pin) / 1000 < 2 ^ 64 →
          1000 * t.reg rPwrEnergy + t.pwr.mj = 1000 * s.reg rPwrEnergy + s.pwr.mj + 10 * m.pin)
      ∧ t.pwr.e = s.pwr.e + 10 * m.pin ∧ t.fld rPwrTherm 0 8 = min 255 m.tMax
      ∧ t.pkg.thermWarn = decide (s.fld rPwrTherm 8 8 ≤ m.tMax) ∧ t.fld rPwrAvg 38 1 = b2n (decide (s.fld rPwrTherm 8 8 ≤ m.tMax))
      ∧ t.mem = s.mem ∧ t.cores = s.cores ∧ t.ports = s.ports ∧ t.nv = s.nv ∧ t.bu = s.bu := by
  obtain ⟨w1, hin, henergy, hrest⟩ := State.meterPower_spec w.regs m
  obtain ⟨w2, htherm, hwarn, havg, hkept⟩ := State.meterHeat_spec w1 m
  have hf : Follows ((s.meterPower m).meterHeat m) t := ht ▸ State.heedSample_follows w2 m
  have hthr : (s.meterPower m).fld rPwrTherm 8 8 = s.fld rPwrTherm 8 8 := congrArg (bitsOf · 8 8) (hrest _ (by decide) (by decide))
  rw [hthr] at hwarn havg
  have hlow {r : Nat} (h : r < rPwrAvg) : t.reg r = (s.meterPower m).reg r :=
    (hf.regs r (not_followReg (.inl h))).trans (hkept r (by unfold rPwrAvg at h; unfold rPwrTherm; omega) (by omega))
  have hbu : t.reg rBuState = s.reg rBuState := (hf.regs _ (not_followReg (.inr (.inr rfl)))).trans
    ((hkept _ (by decide) (by decide)).trans (hrest _ (by decide) (by decide)))
  have hin' := (hlow (by decide)).trans hin
  refine ⟨?_, ?_, fun h => ?_, hf.meter.2, ?_, ?_, hf.warn.trans havg, ?_, ?_, ?_, ?_, congrArg (bitsOf · 0 4) hbu⟩
  · rw [State.fld, hin', bitsOf]; omega
  · rw [State.fld, hin', bitsOf]; omega
  · rw [hlow (by decide), henergy h, hf.meter.1]
    show _ + (s.pwr.mj + 10 * m.pin) % 1000 = _
    omega
  · exact (congrArg (bitsOf · 0 8) (hf.regs _ (not_followReg (.inr (.inl rfl))))).trans htherm
  · rw [hf.frame]; exact hwarn
  all_goals rw [hf.frame]; rfl

/-! ### The end of an interval -/

/-- The interval's energy joins the window and the next cap comes into force (R405). -/
def State.nextInterval (s : State) : State := { s with pwr := { s.pwr with
  past := (s.pwr.e :: s.pwr.past).take 9999, caps := (s.pwr.capNow :: s.pwr.caps).take 9999, e := 0
  interval := s.pwr.interval + 1, capNow := s.pwr.capNext.getD s.pwr.capNow, capNext := none } }

theorem State.nextInterval_wf (w : s.Wf) : s.nextInterval.Wf := ⟨w.regs, w.mem, w.ports, w.cores, w.sram, w.sqs, w.cqs⟩

/-- Is the energy of the window above its budget? -/
def State.overBudget (s : State) : Bool := decide (s.aCap < s.ePast + s.pwr.e)

theorem Wired.overBudget {R : List Nat} (h : Wired R s t) (hR : rPwrCap ∉ R) : t.overBudget = s.overBudget := by
  have hp : t.pwr = s.pwr := by rw [h.frame]
  have hw : t.windowPast = s.windowPast := by rw [State.windowPast, h.fld hR]; rfl
  have ha : t.aCap = s.aCap := by simp only [State.aCap, hp, hw]
  have he : t.ePast = s.ePast := by simp only [State.ePast, hp, hw]
  rw [State.overBudget, ha, he, hp]
  rfl

/-- The interval's end with the window within its budget. -/
theorem State.intervalEnd_within (h : (s.advanceTo ((s.pwr.interval + 1) * intervalSlots)).overBudget = false) :
    s.intervalEnd = (s.advanceTo ((s.pwr.interval + 1) * intervalSlots)).nextInterval := by
  unfold State.overBudget at h
  unfold State.intervalEnd
  dsimp only
  rw [h]
  rfl

/-- The interval's end with the window over its budget (R407). -/
theorem State.intervalEnd_over (h : (s.advanceTo ((s.pwr.interval + 1) * intervalSlots)).overBudget = true) {t : State}
    (ht : ((s.advanceTo ((s.pwr.interval + 1) * intervalSlots)).setFld rPwrAvg 37 1 1).nextInterval = t) :
    s.intervalEnd = if t.running then t.raise cCapUnreachable 5 0 else t := by
  unfold State.overBudget at h
  unfold State.intervalEnd
  dsimp only
  rw [h]
  exact ht ▸ rfl

/-- What the interval's end leaves of the power state (R405). -/
theorem Wired.nextInterval_pwr {R : List Nat} (h : Wired R s t) : t.nextInterval.pwr = s.nextInterval.pwr := by
  have hp : t.pwr = s.pwr := by rw [h.frame]
  simp only [State.nextInterval, hp]

/-- Nothing waits after pack time has moved on where nothing waited before. -/
theorem Wired.nextInterval_settle {R : List Nat} (h : Wired R s t) (hn : s.anyWaits = false) : t.nextInterval.settle = t.nextInterval := by
  have hn' : t.nextInterval.anyWaits = false := h.anyWaits.trans hn
  rw [State.settle, hn', Bool.and_false]
  exact if_neg (by decide)

/-- The interval's end within the budget (R405). -/
theorem State.intervalEnd_quiet (w : s.Wf) (hn : s.anyWaits = false) (ho : s.overBudget = false) :
    ∃ t, s.intervalEnd.settle = t ∧ t.pwr = s.nextInterval.pwr ∧ s.outbox <+: t.outbox
      ∧ regsOnly { s with pwr := t.pwr, ports := t.ports, outbox := t.outbox } t [rPfPackTime] := by
  have ha := State.advanceTo_wired w ((s.pwr.interval + 1) * intervalSlots)
  have hf := State.advanceTo_frame s ((s.pwr.interval + 1) * intervalSlots)
  have he := State.intervalEnd_within ((ha.overBudget (by decide)).trans ho)
  generalize s.advanceTo ((s.pwr.interval + 1) * intervalSlots) = a at ha hf he
  obtain ⟨r, p, o, rfl⟩ : ∃ r p o, a = { s with regs := r, ports := p, outbox := o } := ⟨_, _, _, hf⟩
  exact ⟨_, (congrArg State.settle he).trans (ha.nextInterval_settle hn), rfl, ha.outbox, rfl, ha.regs⟩

/-- The interval's end over the budget: CAP_UNREACHABLE (R407). -/
theorem State.intervalEnd_fault (w : s.Wf) (hn : s.anyWaits = false) (ho : s.overBudget = true) :
    ∃ t, s.intervalEnd.settle = t ∧ t.pwr = s.nextInterval.pwr ∧ t.mem = s.mem ∧ t.nv = s.nv ∧ t.fld rPwrAvg 37 1 = 1
      ∧ (s.running = true → s.fld rPfFault 16 1 = 0 → t.bu = 7 ∧ t.fld rPfFault 0 16 = 0x0803) := by
  have ha := State.advanceTo_wired w ((s.pwr.interval + 1) * intervalSlots)
  have he := State.intervalEnd_over ((ha.overBudget (by decide)).trans ho) rfl
  generalize s.advanceTo ((s.pwr.interval + 1) * intervalSlots) = a at ha he
  have hb : Wired [rPfPackTime, rPwrAvg] s (a.setFld rPwrAvg 37 1 1) := (ha.mono (by simp)).setReg (by simp) _
  have havg : (a.setFld rPwrAvg 37 1 1).fld rPwrAvg 37 1 = 1 := State.fld_setFld_same ha.wf.regs (by decide) ..
  generalize a.setFld rPwrAvg 37 1 1 = b at hb havg he
  have wb := State.nextInterval_wf hb.wf
  by_cases hr : s.running = true
  · have hr' : b.nextInterval.running = true := (hb.running (by decide)).trans hr
    have q := State.raise_quiet b.nextInterval cCapUnreachable 5 0
    have hbu := State.raise_bu wb hr' cCapUnreachable 5 0
    rw [if_pos hr'] at he
    have hstop : (b.nextInterval.raise cCapUnreachable 5 0).settle = b.nextInterval.raise cCapUnreachable 5 0 :=
      State.settle_of_stopped (by simp [State.issuing, State.running, hbu, stRun])
    refine ⟨_, (congrArg State.settle he).trans hstop, q.pwr.trans hb.nextInterval_pwr, q.mem.trans hb.mem, q.nv.trans hb.nv,
      (q.fld wb (not_faultReg (by decide) (by decide)) ..).trans havg, fun _ hf => ?_⟩
    have hh : b.nextInterval.ownHalts = [] := State.ownHalts_of_noneWaits (hb.anyWaits.trans hn)
    obtain ⟨h1, h2, -⟩ := State.raise_first wb hr' ((hb.fld (by decide) ..).trans hf) hh (reason := cCapUnreachable) (by decide) 5 0
    exact ⟨h1, h2⟩
  · rw [if_neg (by rw [show b.nextInterval.running = s.running from hb.running (by decide)]; exact hr)] at he
    exact ⟨_, (congrArg State.settle he).trans (hb.nextInterval_settle hn), hb.nextInterval_pwr, hb.mem, hb.nv, havg,
      fun h => absurd h hr⟩

/-- What the interval's end leaves where no command waits (R405, R407). -/
theorem State.intervalEnd_spec (w : s.Wf) (hn : s.anyWaits = false) :
    ∃ t, s.intervalEnd.settle = t ∧ t.pwr = s.nextInterval.pwr ∧ t.mem = s.mem ∧ t.nv = s.nv
      ∧ (s.overBudget = false → s.outbox <+: t.outbox
          ∧ regsOnly { s with pwr := t.pwr, ports := t.ports, outbox := t.outbox } t [rPfPackTime])
      ∧ (s.overBudget = true → t.fld rPwrAvg 37 1 = 1)
      ∧ (s.overBudget = true → s.running = true → s.fld rPfFault 16 1 = 0 → t.bu = 7 ∧ t.fld rPfFault 0 16 = 0x0803) := by
  cases ho : s.overBudget with
  | false =>
    obtain ⟨t, ht, hp, hout, hf, hregs⟩ := State.intervalEnd_quiet w hn ho
    exact ⟨t, ht, hp, by rw [hf], by rw [hf], fun _ => ⟨hout, hf, hregs⟩, nofun, nofun⟩
  | true =>
    obtain ⟨t, ht, hp, hmem, hnv, havg, hfault⟩ := State.intervalEnd_fault w hn ho
    exact ⟨t, ht, hp, hmem, hnv, nofun, fun _ => havg, fun _ => hfault⟩

/-! ### The gains -/

/-- A cell with 4,096 pairs gets the gain measured over raw (R404). -/
theorem State.recalibrate_one {n x r : Nat} (hc : s.pwr.cells = [(n, x, r)]) (hr : r ≠ 0) (hp : 4096 ≤ s.fld (rPwrGain n) 16 16) :
    s.recalibrate = { s.setFld (rPwrGain n) 16 16 0 with pwr := { s.pwr with
      cells := [], gainsDue := (s.pwr.gainsDue.filter (fun f => f.1 != n)) ++ [(n, min 65535 (x * 32768 / r))] } } := by
  unfold State.recalibrate
  rw [hc]
  simp only [List.foldl_cons, List.foldl_nil, if_neg (Nat.not_lt.2 hp), if_neg hr]
  simp [State.setFld, State.setReg, hc]

theorem State.recalibrate_few {n x r : Nat} (hc : s.pwr.cells = [(n, x, r)]) (hp : s.fld (rPwrGain n) 16 16 < 4096) :
    s.recalibrate = s := by
  unfold State.recalibrate
  rw [hc]
  simp only [List.foldl_cons, List.foldl_nil, if_pos hp]

/-- Its gain then takes effect and covers the cell. -/
theorem State.recalibrate_applyGains {n x r : Nat} (hc : s.pwr.cells = [(n, x, r)]) (hg : s.pwr.gainsDue = []) (hr : r ≠ 0)
    (hp : 4096 ≤ s.fld (rPwrGain n) 16 16) : ∃ p, s.recalibrate.applyGains = { ((s.setFld (rPwrGain n) 16 16 0).setFld (rPwrGain n) 0 16
      (min 65535 (x * 32768 / r))).setFld rPwrEstMap n 1 1 with pwr := p } := by
  rw [State.recalibrate_one hc hr hp, hg]
  exact ⟨_, rfl⟩

theorem rPwrGain_ne_estMap (n : Nat) : rPwrGain n ≠ rPwrEstMap := by
  unfold rPwrGain rPwrEstMap
  omega

/-- Recalibration of one cell that has its pairs. -/
theorem State.recalibrated_spec (w : s.Wf) {n x r : Nat} (hn : n < 64) (hc : s.pwr.cells = [(n, x, r)]) (hg : s.pwr.gainsDue = [])
    (hr : r ≠ 0) (hp : 4096 ≤ s.fld (rPwrGain n) 16 16) : ∃ t, s.recalibrate.applyGains = t
      ∧ t.fld (rPwrGain n) 0 16 = min 65535 (x * 32768 / r) ∧ t.fld (rPwrGain n) 16 16 = 0 ∧ t.fld rPwrEstMap n 1 = 1
      ∧ regsOnly { s with pwr := t.pwr } t [rPwrGain n, rPwrEstMap] := by
  have hne := rPwrGain_ne_estMap n
  have h1 : OnRegs [rPwrGain n, rPwrEstMap] s (s.setFld (rPwrGain n) 16 16 0) := (OnRegs.refl w _).setFld (by simp)
  have h2 : OnRegs [rPwrGain n, rPwrEstMap] s ((s.setFld (rPwrGain n) 16 16 0).setFld (rPwrGain n) 0 16 (min 65535 (x * 32768 / r))) :=
    h1.setFld (by simp)
  have h3 := h2.setFld (a := rPwrEstMap) (by simp) (lo := n) (l := 1) (x := 1)
  obtain ⟨p, e⟩ := State.recalibrate_applyGains hc hg hr hp
  refine ⟨_, e, ?_, ?_, ?_, ?_, h3.only.2⟩
  · refine (State.fld_setFld_ne h2.wf.regs hne ..).trans ((State.fld_setFld_same h1.wf.regs (by decide) ..).trans ?_)
    exact Nat.mod_eq_of_lt (by omega)
  · refine (State.fld_setFld_ne h2.wf.regs hne ..).trans ((State.fld_setFld_disjoint h1.wf.regs (by decide) (by decide) ..).trans ?_)
    exact State.fld_setFld_same w.regs (by decide) ..
  · exact State.fld_setFld_same h2.wf.regs (by omega) ..
  · rfl

/-- Settles O56: the cap registers, the sample, the interval's end and the recalibration are each followed by what they write. -/
theorem powerCapAndMeter : Obligations.PowerCapAndMeter := by
  unfold Obligations.PowerCapAndMeter
  intro v m s w hd
  refine ⟨⟨fun h => ⟨_, next_of_live hd, State.capWrite_good w v.toNat h⟩, fun h => ⟨_, next_of_live hd, State.capWrite_bad w v.toNat h⟩⟩,
    ⟨fun h1 h2 h3 => ⟨_, next_of_live hd, State.capSched_good w v.toNat ⟨h1, h2, h3⟩⟩, fun h => ?_⟩,
    ⟨_, next_of_live hd, State.sample_spec w m _ rfl⟩, ?_, ?_⟩
  · have e : s.capSched v.toNat = s.setFld rPwrCap 16 1 1 := if_neg h
    exact ⟨_, (next_of_live hd).trans (congrArg _ e), State.fld_setFld_same w.regs (by decide) ..,
      State.fld_setFld_disjoint w.regs (by decide) (by decide) .., (OnRegs.refl w [rPwrCap]).setFld.only⟩
  · intro u hn
    obtain ⟨t, ht, hp, hrest⟩ := State.intervalEnd_spec w hn
    refine ⟨t, (whenTimed_of_live hd State.intervalEnd).trans (congrArg _ ht), ?_, ?_, ?_, ?_, hrest⟩ <;> rw [hp] <;> rfl
  · intro n x r hrun hlast hc hg hn hr
    have hcal : exec .estimatorRecalibration s
        = .next (State.recalibrate { s with pwr := { s.pwr with lastCal := s.beat } }).applyGains := by
      refine (next_of_live hd).trans (congrArg _ ?_)
      dsimp only
      rw [hrun]
      exact if_pos hlast
    have wc : State.Wf { s with pwr := { s.pwr with lastCal := s.beat } } := ⟨w.regs, w.mem, w.ports, w.cores, w.sram, w.sqs, w.cqs⟩
    refine ⟨fun hp => ?_, fun hp => ?_⟩
    · obtain ⟨t, ht, h⟩ := State.recalibrated_spec wc hn hc hg hr hp
      exact ⟨t, hcal.trans (congrArg _ ht), h⟩
    · have hsame := State.recalibrate_few (s := { s with pwr := { s.pwr with lastCal := s.beat } }) hc hp
      refine ⟨_, hcal, ?_, ?_⟩ <;> rw [hsame, State.applyGains, hg] <;> rfl

end Sys2Proof.Machine
end

section
/-! SUPPORT. Margin, droop and temperature monitors, and the patrol scrub (R305, R308, R312, R415, R416). -/

namespace Sys2Proof.Machine
open Sys2Proof

-- Proofs elaborated in threads of their own would pass the check's limit of memory.
set_option Elab.async false

variable {s t u : State} {n : Nat}

/-! ### A core that halts by itself, whatever its package's other cores are about to do -/

/-- A core that has halted stays as a package fault in RUN leaves it. -/
theorem State.coreHaltNow_core (w : s.Wf) (a : Attr) {code : Nat} (noEff : Bool) (hc : code < 2 ^ 16) :
    (s.coreHaltNow a code noEff).cstate a.core = 5
      ∧ (s.cfld a.core oHaltInfo 16 1 = 0 → (s.coreHaltNow a code noEff).reg (rCore a.core oHaltInfo)
          = code + 2 ^ 16 + 2 ^ 17 + 2 ^ 18 * b2n noEff + 2 ^ 32 * (a.offset % 2 ^ 32)) := by
  have w1 := (s.haltRecord_ofCore a.core code true noEff a).wf w
  have hrec (h : s.cfld a.core oHaltInfo 16 1 = 0) := (State.haltRecord_spec w a.core true noEff a hc h).1
  have e : s.coreHaltNow a code noEff = ((s.haltRecord a.core code true noEff a).coreToHalted a.core).raise code 0 a.core := rfl
  rw [e]
  generalize s.haltRecord a.core code true noEff a = u at w1 hrec
  have hh := (State.coreToHalted_spec w1 a.core).1
  have hstate : (u.coreToHalted a.core).cstate a.core = 5 := (State.cstate_coreToHalted w1 ..).trans (if_pos rfl)
  have hdead : (u.coreToHalted a.core).coreLive a.core = false := by rw [State.coreLive, hstate]; rfl
  have hinfo : (u.coreToHalted a.core).reg (rCore a.core oHaltInfo) = u.reg (rCore a.core oHaltInfo) := hh.only.2.1 _ <| by
    simp only [List.mem_cons, List.not_mem_nil, or_false, not_or]
    exact ⟨rCore_ne (by decide) (by decide) (by decide) _ _, rCore_ne (by decide) (by decide) (by decide) _ _⟩
  refine ⟨(State.cstate_of_regs (State.raise_keeps hh.wf _ _ _ (ofCore_rCore (by decide) _) hdead fun e => ?_)).trans hstate, fun h0 => ?_⟩
  · exact absurd e (rCore_ne (by decide) (by decide) (by decide) _ _)
  · have hr := (hinfo.trans (hrec h0))
    have hb : b2n noEff ≤ 1 := by cases noEff <;> decide
    have h1 : b2n true = 1 := rfl
    refine (State.raise_keeps hh.wf _ _ _ (ofCore_rCore (by decide) _) hdead fun _ => ?_).trans (hr.trans (by rw [h1, Nat.mul_one]))
    rw [State.cfld, State.fld, hr, bitsOf]
    omega

/-! ### The margin monitor -/

/-- The command that a halt without a cause names is the only thing that finding it draws. -/
theorem State.haltNext_eq (h : (s.core n).issues = false) (code : Nat) :
    s.haltNext n code = (s.nextAttr n).2.coreHaltNow { (s.nextAttr n).1 with core := n } code false := by
  have hc : (s.nextAttr n).2.core n = s.core n := by
    unfold State.nextAttr State.firstAttr
    split <;> rfl
  unfold State.haltNext State.coreHalt
  dsimp only
  rw [hc, h]
  rfl

/-- MARGIN_LOST of a core that runs at or below f_sched (R415). -/
theorem State.haltNext_spec (w : s.Wf) (hr : s.running = true) (h : (s.core n).issues = false) {code : Nat} (hc : code < 2 ^ 16) (hn : n < 2048) :
    (s.haltNext n code).cstate n = 5 ∧ (s.haltNext n code).mem = s.mem
      ∧ (s.cfld n oHaltInfo 16 1 = 0 → (s.haltNext n code).cfld n oHaltInfo 0 16 = code ∧ (s.haltNext n code).cfld n oHaltInfo 17 1 = 1)
      ∧ (s.fld rPfFault 16 1 = 0 → (∀ m ∈ s.used, (s.core m).ending = none) →
          (s.haltNext n code).bu = 7 ∧ (s.haltNext n code).fld rPfFault 0 16 = code ∧ (s.haltNext n code).fld rPfFault 20 11 = n) := by
  rw [State.haltNext_eq h]
  have q := s.nextAttr_quiet noReg n
  have hreg := q.regs w
  have hcore (m : Nat) : (s.nextAttr n).2.core m = s.core m := by
    unfold State.nextAttr State.firstAttr
    split <;> rfl
  generalize s.nextAttr n = x at q hreg hcore
  have hf {r lo l : Nat} : x.2.fld r lo l = s.fld r lo l := congrArg (bitsOf · lo l) (hreg r id)
  obtain ⟨hstate, hinfo⟩ := State.coreHaltNow_core (q.wf w) { x.1 with core := n } false hc
  refine ⟨hstate, (State.coreHaltNow_quiet ..).mem.trans q.mem, fun h0 => ?_, fun h0 he => ?_⟩
  · have hi := hinfo (hf.trans h0)
    have hb : b2n false = 0 := rfl
    rw [State.cfld, State.cfld, State.fld, State.fld, hi, hb, bitsOf, bitsOf]
    omega
  · have hrun : x.2.running = true := by rw [State.running, State.bu, hf]; exact hr
    obtain ⟨-, -, -, hfault⟩ := State.coreHaltNow_spec (q.wf w) { x.1 with core := n } false hc hrun
      fun m hm => by rw [hcore]; exact he m (q.used ▸ hm)
    obtain ⟨h1, h2, -, h3⟩ := hfault (hf.trans h0)
    exact ⟨h1, h2, h3.trans (Nat.mod_eq_of_lt hn)⟩

/-- A margin that is lost above f_sched lowers the island by 25 MHz (R415). -/
theorem State.lowerIsland_spec (w : s.Wf) (n x : Nat) (v : State → Nat) :
    let u := s.setCore n { s.core n with limit := x }
    ((u.setCfld n oFreq 0 12 (v u)).core n).limit = x ∧ coreOnly s (u.setCfld n oFreq 0 12 (v u)) n [rCore n oFreq] := by
  intro u
  have h1 : OnCore n [rCore n oFreq] s u := (OnCore.refl w n _).setCore (c := { s.core n with limit := x }) rfl
  refine ⟨?_, (h1.setCfld (by simp) ..).only⟩
  show (u.core n).limit = x
  rw [State.core_setCore w.cores, if_pos rfl]

/-! ### Temperatures -/

theorem bitMask_spec (n : Nat) (p : Nat → Bool) : bitMask n p < 2 ^ n ∧ ∀ i < n, bitsOf (bitMask n p) i 1 = b2n (p i) := by
  have e : bitMask n p = (List.range n).foldl (fun m i => m + 2 ^ i * b2n (p i)) 0 := by
    unfold bitMask
    congr 1
    funext m i
    cases p i <;> simp [b2n]
  rw [e]
  exact bitsOf_foldl_bits fun i _ => by cases p i <;> decide

/-- The hottest of the first eight readings. -/
theorem getD_le_hottest (temps : List Nat) {h : Nat} (hh : h < 8) : temps.getD h 0 ≤ (temps.take 8).foldl max 0 := by
  by_cases hl : h < temps.length
  · have hm : temps[h] ∈ temps.take 8 := List.mem_take_iff_getElem.2 ⟨h, by omega, rfl⟩
    rw [List.getD_eq_getElem _ _ hl]
    exact (foldl_max_ge id (temps.take 8) 0).2 _ hm
  · rw [List.getD_eq_default _ _ (Nat.not_lt.1 hl)]
    exact Nat.zero_le _

/-- A bit of a field. -/
theorem bitsOf_bitsOf (v : Nat) {lo n i : Nat} (h : i < n) : bitsOf (bitsOf v lo n) i 1 = bitsOf v (lo + i) 1 := by
  have hlow := bitsOf_add_high h (v / 2 ^ lo % 2 ^ n) (v / 2 ^ lo / 2 ^ n)
  rw [Nat.mod_add_div] at hlow
  refine hlow.symm.trans ?_
  rw [bitsOf, bitsOf, Nat.div_div_eq_div_mul, ← Nat.pow_add]

/-- HOT of every stack and the hottest one (R305). -/
theorem State.hbmTemps_spec (w : s.Wf) (temps : List Nat) :
    let t := (s.setFld rMemHbm 16 8 (bitMask 8 (fun h => decide (85 < temps.getD h 0)))).setFld rPwrTherm 24 8
      (min 255 ((temps.take 8).foldl max 0))
    regsOnly s t [rMemHbm, rPwrTherm]
        ∧ (∀ h < 8, t.fld rMemHbm (16 + h) 1 = b2n (decide (85 < temps.getD h 0)))
        ∧ (∀ h < 8, min 255 (temps.getD h 0) ≤ t.fld rPwrTherm 24 8) ∧ t.fld rMemHbm 0 16 = s.fld rMemHbm 0 16
        ∧ t.fld rPwrTherm 0 24 = s.fld rPwrTherm 0 24 := by
  have h1 : OnRegs [rMemHbm, rPwrTherm] s (s.setFld rMemHbm 16 8 (bitMask 8 (fun h => decide (85 < temps.getD h 0)))) :=
    (OnRegs.refl w _).setFld
  obtain ⟨hlt, hbits⟩ := bitMask_spec 8 fun h => decide (85 < temps.getD h 0)
  refine ⟨h1.setFld.only, fun h hh => ?_, fun h hh => ?_, ?_, ?_⟩
  · refine (State.fld_setFld_ne h1.wf.regs (by decide) ..).trans ((bitsOf_bitsOf _ hh).symm.trans ?_)
    refine (congrArg (bitsOf · h 1) (State.fld_setFld_same w.regs (by decide) ..)).trans ?_
    rw [Nat.mod_eq_of_lt hlt, hbits h hh]
  · rw [State.fld_setFld_same h1.wf.regs (by decide), Nat.mod_eq_of_lt (by omega)]
    have := getD_le_hottest temps hh
    omega
  · exact (State.fld_setFld_ne h1.wf.regs (by decide) ..).trans (State.fld_setFld_disjoint w.regs (by decide) (by decide) ..)
  · exact (State.fld_setFld_disjoint h1.wf.regs (by decide) (by decide) ..).trans (State.fld_setFld_ne w.regs (by decide) ..)

/-! ### The patrol scrub -/

/-- From `s` to `t` only registers of `R` and the list of uncorrectable blocks, which grows, have changed. -/
structure Scrubs (R : List Nat) (s t : State) : Prop where
  wf    : t.Wf
  only  : regsOnly { s with bad := t.bad } t R
  grows : s.bad ⊆ t.bad

theorem Scrubs.trans {R : List Nat} (h : Scrubs R s t) (k : Scrubs R t u) : Scrubs R s u := by
  obtain ⟨hf, hr⟩ := h.only
  obtain ⟨kf, kr⟩ := k.only
  refine ⟨k.wf, ⟨?_, fun r hm => (kr r hm).trans (hr r hm)⟩, fun _ hx => k.grows (h.grows hx)⟩
  rw [kf, hf]

theorem OnRegs.scrubs {R : List Nat} (h : OnRegs R s t) : Scrubs R s t := by
  obtain ⟨hf, hr⟩ := h.only
  obtain ⟨r, rfl⟩ : ∃ r, t = { s with regs := r } := ⟨_, hf⟩
  exact ⟨h.wf, ⟨rfl, hr⟩, List.Subset.refl _⟩

theorem State.markBad_spec (w : s.Wf) (R : List Nat) (a : Nat) : Scrubs R s (s.markBad a) ∧ a / 64 * 64 ∈ (s.markBad a).bad := by
  unfold State.markBad
  extract_lets b
  split
  · next h => exact ⟨⟨w, ⟨rfl, fun _ _ => rfl⟩, List.Subset.refl _⟩, List.contains_iff_mem.1 h⟩
  · exact ⟨⟨⟨w.regs, w.mem, w.ports, w.cores, w.sram, w.sqs, w.cqs⟩, ⟨rfl, fun _ _ => rfl⟩, List.subset_cons_self ..⟩, List.mem_cons_self⟩

theorem State.memErr_onRegs (w : s.Wf) (addr source : Nat) (scrub : Bool) : OnRegs [rMemErr, rMemScrub] s (s.memErr addr source scrub) := by
  have h1 : OnRegs [rMemErr, rMemScrub] s (if slowTier then s.addFld rMemScrub 16 16 1 else s) := (OnRegs.refl w _).when (·.addFld)
  unfold State.memErr
  exact .ite h1 h1.setReg

/-- What the scrub does with an uncorrectable block. -/
def State.scrubBlock (s : State) (a : Nat) : State := (s.markBad a).memErr a 1 true

theorem State.scrubBlock_spec (w : s.Wf) (a : Nat) : Scrubs [rMemErr, rMemScrub] s (s.scrubBlock a) ∧ a / 64 * 64 ∈ (s.scrubBlock a).bad := by
  obtain ⟨h1, hm⟩ := State.markBad_spec w [rMemErr, rMemScrub] a
  have h2 := State.memErr_onRegs h1.wf a 1 true
  have hs : Scrubs [rMemErr, rMemScrub] (s.markBad a) (s.scrubBlock a) := h2.scrubs
  exact ⟨h1.trans hs, hs.grows hm⟩

theorem State.scrubBlocks_spec (w : s.Wf) (l : List Nat) :
    Scrubs [rMemErr, rMemScrub] s (l.foldl State.scrubBlock s) ∧ ∀ a ∈ l, a / 64 * 64 ∈ (l.foldl State.scrubBlock s).bad := by
  induction l generalizing s with
  | nil => exact ⟨⟨w, ⟨rfl, fun _ _ => rfl⟩, List.Subset.refl _⟩, nofun⟩
  | cons b l ih =>
    obtain ⟨h1, hb⟩ := State.scrubBlock_spec w b
    obtain ⟨h2, hl⟩ := ih h1.wf
    refine ⟨h1.trans h2, fun a ha => ?_⟩
    rcases List.mem_cons.1 ha with rfl | ha
    · exact h2.grows hb
    · exact hl a ha

/-- A patrol pass (R312). -/
theorem State.scrub_spec (w : s.Wf) (hm : s.memReady = true) (hd : 0 < s.ddrC) (he : s.fld rMemScrub 0 1 = 1) (k : Nat) (unc : List Nat) :
    ∃ t, s.scrub k unc = t ∧ t.fld rMemEcc 32 24 = min (2 ^ 24 - 1) (s.fld rMemEcc 32 24 + k) ∧ t.mem = s.mem ∧ t.bu = s.bu
        ∧ (∀ a ∈ unc, s.inDdr a = true → a / 64 * 64 ∈ t.bad)
        ∧ regsOnly { s with bad := t.bad } t [rMemEcc, rMemErr, rMemScrub] := by
  have hgo : s.scrub k unc = (unc.filter s.inDdr).foldl State.scrubBlock (s.addFld rMemEcc 32 24 k) := by
    unfold State.scrub
    rw [hm, he, decide_eq_true hd]
    rfl
  have h1 : OnRegs [rMemEcc] s (s.addFld rMemEcc 32 24 k) := (OnRegs.refl w _).addFld
  have hcount : (s.addFld rMemEcc 32 24 k).fld rMemEcc 32 24 = min (2 ^ 24 - 1) (s.fld rMemEcc 32 24 + k) := by
    refine (State.fld_setFld_same w.regs (by decide) ..).trans ?_
    unfold satAdd
    omega
  obtain ⟨h2, hbad⟩ := State.scrubBlocks_spec h1.wf (unc.filter s.inDdr)
  obtain ⟨hf, hr⟩ := h2.only
  refine ⟨_, hgo, ?_, ?_, ?_, fun a ha hi => hbad a (List.mem_filter.2 ⟨ha, hi⟩), ?_, fun r hm => ?_⟩
  · exact (congrArg (bitsOf · 32 24) (hr _ (by decide))).trans hcount
  · rw [hf]; rfl
  · exact congrArg (bitsOf · 0 4) ((hr rBuState (by decide)).trans (h1.reg (by decide)))
  · rw [hf]; rfl
  · simp only [List.mem_cons, List.not_mem_nil, or_false, not_or] at hm
    exact (hr r (by simp [hm])).trans (h1.reg (by simp [hm]))

/-- Settles O58: a margin lowers its island or halts its core as any other own condition does; the other monitors write a field each. -/
theorem monitorsAndScrub : Obligations.MonitorsAndScrub := by
  unfold Obligations.MonitorsAndScrub
  intro n k temps unc s w hd hn
  refine ⟨fun hr hmap hst _ _ => ?_, fun hw hm => ?_, fun hm => ?_, fun hm hc hch => ?_, fun hm hc he => ?_, fun he => ?_⟩
  · have hgo : exec (.marginMonitor n) s = .next (if s.islandFreq n ≤ s.pwr.fsched then s.haltNext n cMarginLost
        else (s.setCore n { s.core n with limit := s.islandFreq n - 25 }).setCfld n oFreq 0 12
          ((s.setCore n { s.core n with limit := s.islandFreq n - 25 }).islandFreq n)) := by
      have hcond : (s.running && (s.used.contains n || s.mapped? n) && s.cstate n != csHalted) = true := by
        have hne : (s.cstate n != csHalted) = true := bne_iff_ne.2 hst
        rw [hr, hne]
        simpa using hmap
      exact (next_of_live hd).trans (congrArg _ (if_pos hcond))
    refine ⟨fun hlt => ?_, fun hle hi => ?_⟩
    · rw [if_neg (Nat.not_le.2 hlt)] at hgo
      exact ⟨_, hgo, State.lowerIsland_spec w n (s.islandFreq n - 25) fun u => u.islandFreq n⟩
    · rw [if_pos hle] at hgo
      exact ⟨_, hgo, State.haltNext_spec w hr hi (by decide) hn⟩
  · have hgo : exec (.droop n k) s = .next (s.addCfld n oFreq 48 16 k) :=
      (next_of_live hd).trans (congrArg _ (if_pos (by rw [hw, hm]; rfl)))
    exact ⟨_, hgo, ((OnRegs.refl w [rCore n oFreq]).addFld (by simp)).only, State.cfld_addCfld_same w (by decide) ..,
      State.cfld_addCfld_disjoint w (by decide) (by decide) ..⟩
  · exact ⟨_, (next_of_live hd).trans (congrArg _ (if_pos hm)), State.hbmTemps_spec w temps⟩
  · have hgo : exec (.ddr5ModuleTemperature ⟨n, k⟩) s = .next (s.setFld rMemDdr (20 + n) 1 (b2n (decide (85 < k)))) :=
      (next_of_live hd).trans (congrArg _ (if_pos (by rw [hm, decide_eq_true hc, decide_eq_true hch]; rfl)))
    refine ⟨_, hgo, ((OnRegs.refl w [rMemDdr]).setFld).only, ?_, fun f hf hne => ?_⟩
    · exact (State.fld_setFld_same w.regs (by omega) ..).trans (Nat.mod_eq_of_lt (by cases decide (85 < k) <;> decide))
    · exact State.fld_setFld_disjoint w.regs (by omega) (by omega) ..
  · obtain ⟨t, ht, h⟩ := State.scrub_spec w hm hc he k unc
    exact ⟨t, (next_of_live hd).trans (congrArg _ ht), h⟩
  · refine (next_of_live hd).trans (congrArg _ ?_)
    dsimp only
    rw [State.scrub, he]
    simp

end Sys2Proof.Machine
end

section
/-! SUPPORT. Hard and soft trips (R397 to R400, Table 15.2): the STOP that the port dies still send, the fault, the record. -/

namespace Sys2Proof.Machine
open Sys2Proof

-- Proofs elaborated in threads of their own would pass the check's limit of memory.
set_option Elab.async false

variable {s t u : State} {p b : Nat}

/-! ### The slots that carry a STOP -/

/-- The STOP of a port that sends no other one, from the slot after `now` on. -/
def newStop (origin reason time now : Nat) (left : Option Nat) : List StopRec := [⟨origin, reason, time, now + 1, left⟩]

/-- The slots that a STOP takes of the `n` that pass. -/
def stopSlots (left : Option Nat) (n : Nat) : Nat := match left with
  | some k => max 1 (min k n)
  | none => n

theorem State.stopOn_port (w : s.Wf) (origin reason time : Nat) (left : Option Nat) (p q : Nat) (hs : (s.port p).stops = []) :
    (s.stopOn origin reason time left p).port q = if q = p then { s.port p with stops := newStop origin reason time s.now left } else s.port q := by
  unfold State.stopOn
  dsimp only
  rw [hs]
  exact w.port_setPort p q _

/-- How long a STOP goes out: the package's first until the peer's comes, a later one for 64 slots (R262, R263). -/
def State.stopLeft (s : State) : Option Nat := if s.fab.originsFwd.isEmpty && !s.fab.stopOut then none else some 64

theorem State.sendStop_port (w : s.Wf) {l : List Nat} (hl : l.Nodup) (origin reason time : Nat) :
    (∀ q, q ∉ l → (s.sendStop l origin reason time).port q = s.port q)
      ∧ ∀ q ∈ l, (s.port q).stops = [] → (s.sendStop l origin reason time).port q
        = { s.port q with stops := newStop origin reason time s.now s.stopLeft } := by
  induction l generalizing s with
  | nil => exact ⟨fun _ _ => rfl, nofun⟩
  | cons p l ih =>
    obtain ⟨hp, hl⟩ := List.nodup_cons.1 hl
    have hw : Wired [] s (s.stopOn origin reason time s.stopLeft p) := ((Wired.refl w _).setPort ..).emit _
    obtain ⟨hout, hin⟩ := ih hw.wf hl
    have hfirst {q : Nat} (hq : q ≠ p) : (s.stopOn origin reason time s.stopLeft p).port q = s.port q := w.port_setPort_ne hq _
    have e : s.sendStop (p :: l) origin reason time = (s.stopOn origin reason time s.stopLeft p).sendStop l origin reason time := rfl
    rw [e]
    refine ⟨fun q hq => ?_, fun q hq hs => ?_⟩
    · rw [List.mem_cons, not_or] at hq
      exact (hout q hq.2).trans (hfirst hq.1)
    · rcases List.mem_cons.1 hq with rfl | hq
      · exact (hout q hp).trans ((State.stopOn_port w _ _ _ _ _ _ hs).trans (if_pos rfl))
      · have hne : q ≠ p := fun e => hp (e ▸ hq)
        have h := hin q hq
        rw [hfirst hne] at h
        exact h hs

/-- A port whose first free slot is that of a STOP sends it. -/
theorem State.fillOnce_stop {origin reason time now : Nat} {left : Option Nat} (hc : (s.port p).carried = now + 1) (hb : now + 1 < b)
    (hn : (s.port p).naks = []) (hs : (s.port p).stops = newStop origin reason time now left) :
    .stopSlots p (now + 1) (stopSlots left (b - (now + 1))) none origin reason time ∈ (s.fillOnce p b).outbox := by
  have hnak (t : Nat) : (s.port p).nakAt t = none := by rw [PortSt.nakAt, hn]; rfl
  unfold State.fillOnce
  cases left <;> simp [hc, Nat.not_le.2 hb, hnak, hn, hs, newStop, stopSlots, State.emit]

/-- A port that sends a STOP from a later slot on is idle until then. -/
theorem State.fillOnce_early (w : s.Wf) {origin reason time now : Nat} {left : Option Nat} (hc : (s.port p).carried < now + 1) (hb : now + 1 < b)
    (hn : (s.port p).naks = []) (hs : (s.port p).stops = newStop origin reason time now left) (ha : (s.port p).annOut = [])
    (ht : (s.port p).timeDue = false) : (s.fillOnce p b).port p = { s.port p with carried := now + 1 } := by
  have hnak (t : Nat) : (s.port p).nakAt t = none := by rw [PortSt.nakAt, hn]; rfl
  have e : s.fillOnce p b = (s.setPort p { s.port p with carried := now + 1 }).emit
      (.idle p (s.port p).carried (now + 1 - (s.port p).carried) s.fab.idleHold none) := by
    unfold State.fillOnce
    simp [hc, show ¬ b ≤ (s.port p).carried by omega, show ¬ now + 1 ≤ (s.port p).carried by omega, Nat.min_eq_right hb.le, hnak, hn, hs,
      newStop, ha, ht]
  rw [e]
  exact w.port_setPort_same ..

/-- A port on which only a STOP waits sends it (R262, R399). -/
theorem State.fillPort_stop (w : s.Wf) {origin reason time now : Nat} {left : Option Nat} (hc : (s.port p).carried ≤ now + 1) (hb : now + 1 < b)
    (hn : (s.port p).naks = []) (hs : (s.port p).stops = newStop origin reason time now left) (ha : (s.port p).annOut = [])
    (ht : (s.port p).timeDue = false) :
    .stopSlots p (now + 1) (stopSlots left (b - (now + 1))) none origin reason time ∈ (s.fillPort p b).outbox := by
  have hlen : 2 * ((s.port p).naks.length + (s.port p).stops.length + (s.port p).annOut.length) + 4 = 6 := by rw [hn, hs, ha]; rfl
  have h1 := FillsPort.fillOnce w p b
  have hfill : .stopSlots p (now + 1) (stopSlots left (b - (now + 1))) none origin reason time ∈ (s.fillTo p b 6).outbox := by
    rcases hc.lt_or_eq with hc | hc
    · have he := State.fillOnce_early w hc hb hn hs ha ht
      have hsent := State.fillOnce_stop (s := s.fillOnce p b) (b := b) (by rw [he]) hb (by rw [he]; exact hn) (by rw [he]; exact hs)
      have h2 := FillsPort.fillOnce h1.wired.wf p b
      exact (FillsPort.fillTo h2.wired.wf p b 4).wired.outbox.subset hsent
    · exact (FillsPort.fillTo h1.wired.wf p b 5).wired.outbox.subset (State.fillOnce_stop hc hb hn hs)
  unfold State.fillPort
  dsimp only
  rw [hlen]
  exact hfill

/-- The STOPs of the ports whose slots pass. -/
theorem State.passSlots_stop (w : s.Wf) {origin reason time now : Nat} {left : Option Nat} (hp : p ∈ s.fabricUp)
    (hc : (s.port p).carried ≤ now + 1) (hb : now + 1 < b) (hn : (s.port p).naks = [])
    (hs : (s.port p).stops = newStop origin reason time now left) (ha : (s.port p).annOut = []) (ht : (s.port p).timeDue = false) :
    .stopSlots p (now + 1) (stopSlots left (b - (now + 1))) none origin reason time ∈ (s.passSlots b).outbox := by
  unfold State.passSlots
  have hnd := s.fabricUp_nodup
  generalize s.fabricUp = l at hp hnd
  induction l generalizing s with
  | nil => cases hp
  | cons q l ih =>
    obtain ⟨hq, hl⟩ := List.nodup_cons.1 hnd
    obtain ⟨hw, -, hother, -⟩ := State.fillPort_spec w q b
    rw [List.foldl_cons]
    rcases List.mem_cons.1 hp with rfl | hp
    · have hrest : Wired [] (s.fillPort p b) (l.foldl (fun s q => s.fillPort q b) (s.fillPort p b)) :=
        (Wired.refl hw.wf _).foldl fun q _ h => h.trans (State.fillPort_spec h.wf q b).1
      exact hrest.outbox.subset (State.fillPort_stop w hc hb hn hs ha ht)
    · have hport := hother p fun e => hq (e ▸ hp)
      exact ih hw.wf (by rw [hport]; exact hc) (by rw [hport]; exact hn) (by rw [hport]; exact hs) (by rw [hport]; exact ha)
        (by rw [hport]; exact ht) hp hl

/-! ### A hard trip -/

theorem State.tripRecord_wf (w : s.Wf) (src : Nat) (hard : Bool) : (s.tripRecord src hard).Wf := ⟨w.regs, w.mem, w.ports, w.cores, w.sram, w.sqs, w.cqs⟩

/-- What a hard trip does (R399). -/
theorem State.hardTrip_spec (w : s.Wf) (src code : Nat) :
    (s.hardTrip src code).dark = true ∧ (s.hardTrip src code).pkg.latched = true
      ∧ (s.hardTrip src code).nv = { s.nv with trip := some (src, true, s.nv.powerOn) }
      ∧ (∀ p ∈ s.fabricUp, .stop p s.herdIndex code s.now ∈ (s.hardTrip src code).outbox
        ∧ ((s.port p).carried ≤ s.now + 1 → (s.port p).naks = [] → (s.port p).stops = [] → (s.port p).annOut = [] →
          (s.port p).timeDue = false → .stopSlots p (s.now + 1) (if s.fab.originsFwd.isEmpty && !s.fab.stopOut then 500 else 64)
            none s.herdIndex code s.now ∈ (s.hardTrip src code).outbox))
      ∧ (s.hardTrip src code).pkg.thermTrip = false ∧ (s.hardTrip src code).pkg.thermWarn = false
      ∧ (s.hardTrip src code).mem = s.mem ∧ (s.hardTrip src code).regs = s.regs ∧ (s.hardTrip src code).cores = s.cores := by
  have wr := State.tripRecord_wf w src true
  obtain ⟨v, hv⟩ : ∃ v, (s.tripRecord src true).sendStop s.fabricUp s.herdIndex code s.now = v := ⟨_, rfl⟩
  have h1 : PortsOnly (s.tripRecord src true) v := hv ▸ State.sendStop_portsOnly ..
  have w1 : v.Wf := hv ▸ ((State.sendStop_quiet noReg ..).wf wr)
  have hpass := State.passSlots_spec w1 (s.now + 501)
  have h2 : PortsOnly (s.tripRecord src true) (v.passSlots (s.now + 501)) := h1.passSlots _
  have hup : v.fabricUp = s.fabricUp := State.fabricUp_of_regs fun p _ => ⟨h1.reg _, h1.reg _⟩
  have e : s.hardTrip src code = { v.passSlots (s.now + 501) with
      pkg := { (v.passSlots (s.now + 501)).pkg with latched := true, thermTrip := false, thermWarn := false } } := by rw [← hv]; rfl
  rw [e]
  refine ⟨Bool.or_true _, rfl, ?_, fun p hp => ⟨?_, fun hc hn hs ha ht => ?_⟩, rfl, rfl, h2.mem, h2.regs, h2.cores⟩
  · show (v.passSlots (s.now + 501)).nv = _
    rw [h2]
    rfl
  · exact hpass.1.outbox.subset (hv ▸ State.stop_mem_sendStop (s.tripRecord src true) hp ..)
  · have hport : v.port p = { s.port p with stops := newStop s.herdIndex code s.now s.now s.stopLeft } :=
      hv ▸ (State.sendStop_port wr s.fabricUp_nodup s.herdIndex code s.now).2 p hp hs
    have hsent := State.passSlots_stop (b := s.now + 501) (now := s.now) w1 (hup ▸ hp) (by rw [hport]; exact hc) (by omega)
      (by rw [hport]; exact hn) (by rw [hport]) (by rw [hport]; exact ha) (by rw [hport]; exact ht)
    have hslots : stopSlots s.stopLeft (s.now + 501 - (s.now + 1)) = if s.fab.originsFwd.isEmpty && !s.fab.stopOut then 500 else 64 := by
      rw [show s.now + 501 - (s.now + 1) = 500 by omega, State.stopLeft]
      split <;> rfl
    rw [hslots] at hsent
    exact hsent

/-! ### A soft trip -/

/-- PWR_TRIP after a trip of source `src`: a record that the host has not cleared stays. -/
def State.tripReg (s : State) (src : Nat) : Nat :=
  if s.fld rPwrTrip 9 1 = 1 then s.reg rPwrTrip else src + 2 ^ 9 + 2 ^ 32 * (s.nv.powerOn % 2 ^ 32)

/-- A soft trip is recorded, and a thermal one is shown. -/
def State.softRecord (s : State) (src code : Nat) : State :=
  let s := s.tripRecord src false
  let s := if s.fld rPwrTrip 9 1 = 1 then s else s.setReg rPwrTrip (src + 2 ^ 9 + 2 ^ 32 * (s.nv.powerOn % 2 ^ 32))
  if code = cThermalTrip then { s with pkg := { s.pkg with thermTrip := true } } else s

/-- The compute dies are off and nothing issues any more. -/
def State.powerDown (s : State) : State :=
  ({ s.computeOff with fab := { s.computeOff.fab with issueStopped := true } }).endPanting

theorem State.softTrip_whelp {src code unit index : Nat} (hb : ((s.softRecord src code).raise code unit index).bu = 1) :
    s.softTrip src code unit index = (s.softRecord src code).raise code unit index := if_pos hb

theorem State.softTrip_on {src code unit index : Nat} (h1 : ((s.softRecord src code).raise code unit index).bu ≠ 1)
    (h2 : ((s.softRecord src code).raise code unit index).bu ≠ 2) :
    s.softTrip src code unit index = ((s.softRecord src code).raise code unit index).powerDown := (if_neg h1).trans (if_neg h2)

/-- The record writes PWR_TRIP, the power stage's own register and THERM_TRIP_N. -/
theorem State.softRecord_spec (w : s.Wf) {src : Nat} (hsrc : src < 2 ^ 9) (code : Nat) (t : State) (ht : s.softRecord src code = t) :
    t = { s with regs := t.regs, nv := t.nv, pkg := t.pkg } ∧ t.Wf ∧ t.reg rPwrTrip = s.tripReg src ∧ (∀ r, r ≠ rPwrTrip → t.reg r = s.reg r)
      ∧ t.nv = { s.nv with trip := some (src, false, s.nv.powerOn) }
      ∧ t.pkg = { s.pkg with thermTrip := s.pkg.thermTrip || code == 0x0802 } := by
  obtain ⟨v, hv⟩ : ∃ v, (if (s.tripRecord src false).fld rPwrTrip 9 1 = 1 then s.tripRecord src false
    else (s.tripRecord src false).setReg rPwrTrip (src + 2 ^ 9 + 2 ^ 32 * (s.nv.powerOn % 2 ^ 32))) = v := ⟨_, rfl⟩
  have h : OnRegs [rPwrTrip] (s.tripRecord src false) v := hv ▸ .ite (.refl (State.tripRecord_wf w ..) _) (.setReg (.refl (State.tripRecord_wf w ..) _))
  have hreg : v.reg rPwrTrip = s.tripReg src := by
    have hheld : (s.tripRecord src false).fld rPwrTrip 9 1 = s.fld rPwrTrip 9 1 := rfl
    unfold State.tripReg
    rw [← hv, hheld]
    by_cases hc : s.fld rPwrTrip 9 1 = 1
    · rw [if_pos hc, if_pos hc]; rfl
    · rw [if_neg hc, if_neg hc, State.reg_setReg_same (State.tripRecord_wf w ..).regs _ (by omega)]
  have e : t = if code = cThermalTrip then { v with pkg := { v.pkg with thermTrip := true } } else v := by rw [← ht, ← hv]; rfl
  have hpkg : v.pkg = s.pkg := by rw [h.only.1]; rfl
  have hnv : v.nv = { s.nv with trip := some (src, false, s.nv.powerOn) } := by rw [h.only.1]; rfl
  have hout (r : Nat) (hr : r ≠ rPwrTrip) : v.reg r = s.reg r := h.reg (by simpa using hr)
  obtain ⟨r, rfl⟩ : ∃ r, v = { s.tripRecord src false with regs := r } := ⟨_, h.only.1⟩
  by_cases hc : code = cThermalTrip
  · rw [if_pos hc] at e
    subst e
    refine ⟨rfl, ⟨h.wf.regs, w.mem, w.ports, w.cores, w.sram, w.sqs, w.cqs⟩, hreg, hout, rfl, ?_⟩
    rw [beq_iff_eq.2 (show code = 0x0802 from hc), Bool.or_true]
    rfl
  · rw [if_neg hc] at e
    subst e
    refine ⟨rfl, h.wf, hreg, hout, rfl, ?_⟩
    rw [beq_eq_false_iff_ne.2 (show code ≠ 0x0802 from hc), Bool.or_false]
    rfl

/-- The compute dies off: what stays, and DDR5's bytes (R398, R400). -/
theorem State.powerDown_spec (w : s.Wf) (t : State) (ht : s.powerDown = t) :
    t.regs = s.regs ∧ t.nv = s.nv ∧ t.outbox = s.outbox ∧ t.fab.issueStopped = true
      ∧ t.pkg = { s.pkg with computeOn := false, selfRef := true, softTrip := true } ∧ ∀ a, hbmTop ≤ a → t.byte a = s.byte a := by
  have hk {β : Type} (f : State → β) (hf : ∀ (u : State) n c, f (u.setCore n c) = f u) :
      f t = f { s.computeOff with fab := { s.computeOff.fab with issueStopped := true } } := by
    rw [← ht]
    exact foldl_keep f (fun u n => hf u n _) _ _
  have hmem := hk State.mem fun _ _ _ => rfl
  refine ⟨hk State.regs fun _ _ _ => rfl, hk State.nv fun _ _ _ => rfl, hk State.outbox fun _ _ _ => rfl,
    (congrArg Fab.issueStopped (hk State.fab fun _ _ _ => rfl)), hk State.pkg fun _ _ _ => rfl, fun a ha => ?_⟩
  have hb : (s.scramble fun a => decide (a < hbmTop)).byte a = s.byte a :=
    State.scramble_byte w (p := fun a => decide (a < hbmTop)) (decide_eq_false (Nat.not_lt.2 ha))
  rw [State.byte, hmem]
  exact hb

/-- Outside RUN a fault leaves the package state (R371). -/
theorem State.raise_idle (w : s.Wf) (hr : s.running = false) (reason unit index : Nat) : (s.raise reason unit index).bu = s.bu := by
  refine congrArg (bitsOf · 0 4) ?_
  unfold State.raise
  split
  · rfl
  rw [hr]
  have h1 := State.noteFault_keeps w reason unit index s.now (r := rBuState) (by decide)
  have w1 := (s.noteFault_quiet reason unit index s.now).wf w
  simp only [Bool.false_eq_true, if_false]
  generalize s.noteFault reason unit index s.now = t at h1 w1
  split
  · unfold State.recode
    dsimp only
    have q := t.recodeStops_quiet (s.fld rPfFault 0 16) (t.fld rPfFault 0 16)
    have h2 := q.regs w1 rBuState (not_coreReg (by decide))
    have w2 := q.wf w1
    generalize t.recodeStops (s.fld rPfFault 0 16) (t.fld rPfFault 0 16) = u at h2 w2
    have h3 : (if u.fld rPfStopCause 33 1 = 1 then u.setFld rPfStopCause 16 16 (t.fld rPfFault 0 16) else u).reg rBuState = u.reg rBuState := by
      split
      · exact State.reg_setFld_ne w2.regs (by decide) ..
      · rfl
    have w3 : (if u.fld rPfStopCause 33 1 = 1 then u.setFld rPfStopCause 16 16 (t.fld rPfFault 0 16) else u).Wf := by
      split
      · exact (Quiet.setFld ..).wf w2
      · exact w2
    exact ((State.restop_quiet noReg ..).regs w3 _ id).trans (h3.trans (h2.trans h1))
  · exact h1

/-- A soft trip in RUN. -/
theorem State.softTrip_run (w : s.Wf) (hd : s.dark = false) {src code unit index : Nat} (hsrc : src < 2 ^ 9) (hcode : code < 2 ^ 16)
    (hu : unit < 8) (hi : index < 2 ^ 11) (hr : s.running = true) (hf : s.fld rPfFault 16 1 = 0) (hh : s.ownHalts = [])
    (t : State) (ht : s.softTrip src code unit index = t) :
    t.bu = 7 ∧ t.fld rPfFault 0 16 = code
      ∧ t.fld rPfFault 17 3 = unit ∧ t.fld rPfFault 20 11 = index ∧ t.reg rPwrTrip = s.tripReg src
      ∧ t.nv = { s.nv with trip := some (src, false, s.nv.powerOn) } ∧ t.pkg.computeOn = false ∧ t.pkg.selfRef = true
      ∧ t.pkg.softTrip = true ∧ t.pkg.thermTrip = (s.pkg.thermTrip || code == 0x0802) ∧ t.dark = false
      ∧ (∀ p ∈ s.fabricUp, .stop p s.herdIndex code s.now ∈ t.outbox)
      ∧ (∀ n ∈ s.used, s.coreLive n = true → t.cstate n = 5) ∧ ∀ a, hbmTop ≤ a → t.byte a = s.byte a := by
  obtain ⟨v, hv⟩ : ∃ v, s.softRecord src code = v := ⟨_, rfl⟩
  obtain ⟨hframe, wv, htrip, hreg, hnv, hpkg⟩ := State.softRecord_spec w hsrc code v hv
  have hfld {r : Nat} (h : r ≠ rPwrTrip) (lo l : Nat) : v.fld r lo l = s.fld r lo l := congrArg (bitsOf · lo l) (hreg r h)
  have hrun : v.running = true := by rw [State.running, State.bu, hfld (by decide)]; exact hr
  have hlive (n : Nat) : v.coreLive n = s.coreLive n := by
    rw [State.coreLive, State.cstate_of_regs (hreg _ (rCore_ne_low (by decide)))]; rfl
  have hused : v.used = s.used := by rw [State.used, hframe]; rfl
  have hhalts : v.ownHalts = [] := by
    have hc (n : Nat) : v.core n = s.core n := by rw [State.core, hframe]; rfl
    rw [← hh]
    simp only [State.ownHalts, hused, hc, hlive]
  have hup : v.fabricUp = s.fabricUp := State.fabricUp_of_regs fun p hp => by
    refine ⟨hreg _ ?_, hreg _ ?_⟩ <;> simp only [rPortMode, rPortStat, rPwrTrip] <;> omega
  have hherd : v.herdIndex = s.herdIndex := hfld (by decide) ..
  have hnow : v.now = s.now := hreg _ (by decide)
  obtain ⟨hbu, hfault, -, -, -, hcs, hstop, -⟩ := State.raise_run wv hrun ((hfld (by decide) ..).trans hf) hhalts hcode unit index
  have q := State.raise_quiet v code unit index
  have he := State.softTrip_on (s := s) (src := src) (code := code) (unit := unit) (index := index)
    (by rw [hv, hbu]; decide) (by rw [hv, hbu]; decide)
  rw [hv] at he
  obtain ⟨hregs, hn, hout, -, hp, hbyte⟩ := State.powerDown_spec (q.wf wv) t (he.symm.trans ht)
  have hreg' (r : Nat) : t.reg r = (v.raise code unit index).reg r := by rw [State.reg, hregs]; rfl
  have hpf (lo l : Nat) : t.fld rPfFault lo l = bitsOf (code % 2 ^ 16 + 2 ^ 16 + 2 ^ 17 * (unit % 8) + 2 ^ 20 * (index % 2 ^ 11)) lo l :=
    congrArg (bitsOf · lo l) ((hreg' _).trans hfault)
  refine ⟨(congrArg (bitsOf · 0 4) (hreg' rBuState)).trans hbu, ?_, ?_, ?_, ?_, hn.trans (q.nv.trans hnv), ?_, ?_, ?_, ?_, ?_, fun p hp => ?_,
    fun n hn hl => ?_, fun a ha => ?_⟩
  · rw [hpf, bitsOf]; omega
  · rw [hpf, bitsOf]; omega
  · rw [hpf, bitsOf]; omega
  · exact (hreg' _).trans ((q.regs wv _ (not_faultReg (by decide) (by decide))).trans htrip)
  · rw [hp]
  · rw [hp]
  · rw [hp]
  · rw [hp, q.pkg, hpkg]
  · rw [State.dark, hp, q.pkg, hpkg]; exact hd
  · have h := hstop p (hup ▸ hp)
    rw [hherd, hnow] at h
    exact hout.symm ▸ h
  · rw [State.cstate_of_regs (hreg' _), hcs, if_pos ⟨hused ▸ hn, (hlive n).trans hl⟩]
  · rw [hbyte a ha, State.byte, q.mem, hframe]; rfl

/-- A soft trip in MAP, LOAD or READY (log entry 35). -/
theorem State.softTrip_ready (w : s.Wf) (hd : s.dark = false) {src code unit index : Nat} (hsrc : src < 2 ^ 9) (hb : s.bu = 3 ∨ s.bu = 4 ∨ s.bu = 5)
    (t : State) (ht : s.softTrip src code unit index = t) :
    t.bu = s.bu ∧ t.nv = { s.nv with trip := some (src, false, s.nv.powerOn) }
      ∧ t.pkg.computeOn = false ∧ t.pkg.selfRef = true ∧ t.pkg.softTrip = true ∧ t.fab.issueStopped = true ∧ t.dark = false
      ∧ t.pkg.thermTrip = (s.pkg.thermTrip || code == 0x0802) ∧ ∀ a, hbmTop ≤ a → t.byte a = s.byte a := by
  obtain ⟨v, hv⟩ : ∃ v, s.softRecord src code = v := ⟨_, rfl⟩
  obtain ⟨hframe, wv, -, hreg, hnv, hpkg⟩ := State.softRecord_spec w hsrc code v hv
  have hvb : v.bu = s.bu := congrArg (bitsOf · 0 4) (hreg _ (by decide))
  have hidle : v.running = false := by
    rw [State.running, hvb]
    rcases hb with hb | hb | hb <;> rw [hb] <;> rfl
  have hbu := (State.raise_idle wv hidle code unit index).trans hvb
  have q := State.raise_quiet v code unit index
  have he := State.softTrip_on (s := s) (src := src) (code := code) (unit := unit) (index := index)
    (by rw [hv, hbu]; omega) (by rw [hv, hbu]; omega)
  rw [hv] at he
  obtain ⟨hregs, hn, -, hstop, hp, hbyte⟩ := State.powerDown_spec (q.wf wv) t (he.symm.trans ht)
  have hreg' (r : Nat) : t.reg r = (v.raise code unit index).reg r := by rw [State.reg, hregs]; rfl
  refine ⟨(congrArg (bitsOf · 0 4) (hreg' rBuState)).trans hbu, hn.trans (q.nv.trans hnv), ?_, ?_, ?_, hstop, ?_, ?_, fun a ha => ?_⟩
  · rw [hp]
  · rw [hp]
  · rw [hp]
  · rw [State.dark, hp, q.pkg, hpkg]; exact hd
  · rw [hp, q.pkg, hpkg]
  · rw [hbyte a ha, State.byte, q.mem, hframe]; rfl

/-- A soft trip in WHELP only records. -/
theorem State.softTrip_off (w : s.Wf) {src code unit index : Nat} (hsrc : src < 2 ^ 9) (hb : s.bu = 1) (t : State)
    (ht : s.softTrip src code unit index = t) :
    t.bu = 1 ∧ t.nv = { s.nv with trip := some (src, false, s.nv.powerOn) } ∧ t.reg rPwrTrip = s.tripReg src
      ∧ t.mem = s.mem ∧ t.cores = s.cores ∧ ∀ r, r ≠ rPwrTrip → t.reg r = s.reg r := by
  obtain ⟨v, hv⟩ : ∃ v, s.softRecord src code = v := ⟨_, rfl⟩
  obtain ⟨hframe, wv, htrip, hreg, hnv, -⟩ := State.softRecord_spec w hsrc code v hv
  have hvb : v.bu = 1 := (congrArg (bitsOf · 0 4) (hreg rBuState (by decide))).trans hb
  have hraise : v.raise code unit index = v := if_pos (by rw [hvb]; decide)
  have he : s.softTrip src code unit index = v :=
    (State.softTrip_whelp (by rw [hv, hraise]; exact hvb)).trans (by rw [hv, hraise])
  obtain rfl : t = v := ht.symm.trans he
  exact ⟨hvb, hnv, htrip, by rw [hframe], by rw [hframe], hreg⟩

/-- Settles O57: a hard trip passes the slots that the port dies stay up; a soft one is the fault, and then powers the compute dies down. -/
theorem trips : Obligations.Trips := by
  unfold Obligations.Trips
  intro die half stack s w hd hhalf hstack
  refine ⟨fun c src code hc => ?_, fun c src code unit index hc => ?_⟩
  · have hgo : exec c s = .next (s.hardTrip src code) := by
      simp only [List.mem_cons, List.not_mem_nil, or_false, Prod.mk.injEq] at hc
      rcases hc with ⟨rfl, rfl, rfl⟩ | ⟨rfl, rfl, rfl⟩ | ⟨rfl, rfl, rfl⟩ | ⟨rfl, rfl, rfl⟩ <;> exact next_of_live hd
    exact ⟨_, hgo, State.hardTrip_spec w src code⟩
  · have hgo : exec c s = .next (s.softTrip src code unit index) ∧ src < 2 ^ 9 ∧ code < 2 ^ 16 ∧ unit < 8 ∧ index < 2 ^ 11 := by
      simp only [List.mem_cons, List.not_mem_nil, or_false, Prod.mk.injEq] at hc
      rcases hc with ⟨rfl, rfl, rfl, rfl, rfl⟩ | ⟨rfl, rfl, rfl, rfl, rfl⟩ | ⟨rfl, rfl, rfl, rfl, rfl⟩ | ⟨rfl, rfl, rfl, rfl, rfl⟩ <;>
        exact ⟨next_of_live hd, by decide, by decide, by decide, by omega⟩
    obtain ⟨hgo, hsrc, hcode, hu, hi⟩ := hgo
    exact ⟨fun hr hf hh => ⟨_, hgo, State.softTrip_run w hd hsrc hcode hu hi hr hf hh _ rfl⟩,
      fun hb => ⟨_, hgo, State.softTrip_ready w hd hsrc hb _ rfl⟩, fun hb => ⟨_, hgo, State.softTrip_off w hsrc hb _ rfl⟩⟩

end Sys2Proof.Machine
end

section
/-! SUPPORT. Freezes of an armed run (R430, R432): what a core's freeze leaves, and when the package ends with it. -/

namespace Sys2Proof.Machine
open Sys2Proof

-- Proofs elaborated in threads of their own would pass the check's limit of memory.
set_option Elab.async false

variable {s t u : State} {n : Nat}

/-! ### A core that freezes -/

/-- Registers that a freeze of core `n` writes once the halt record stands. -/
def freezeRegs (n : Nat) : List Nat := [rCore n oDbg, rCore n oState, rPfDbgStat]

/-- From `s` to `t` core `n` freezes: its record stands, its data and its groups stay, and its image may have been written. -/
structure Freezing (n : Nat) (s t : State) : Prop where
  wf    : t.Wf
  frame : t = { s with regs := t.regs, mem := t.mem, bad := t.bad, cores := t.cores, hl := { s.hl with ctxKeep := t.hl.ctxKeep } }
  regs  : ∀ r, r ∉ freezeRegs n → t.reg r = s.reg r
  kind  : t.cfld n oDbg 0 3 = s.cfld n oDbg 0 3
  cores : ∀ k, k ≠ n → t.core k = s.core k
  own   : (t.core n).sram = (s.core n).sram ∧ (t.core n).groups = (s.core n).groups

theorem Freezing.refl (w : s.Wf) (n : Nat) : Freezing n s s := ⟨w, rfl, fun _ _ => rfl, rfl, fun _ _ => rfl, rfl, rfl⟩

theorem Freezing.trans (h : Freezing n s t) (k : Freezing n t u) : Freezing n s u where
  wf := k.wf
  frame := by rw [k.frame, h.frame]
  regs r hr := (k.regs r hr).trans (h.regs r hr)
  kind := k.kind.trans h.kind
  cores m hm := (k.cores m hm).trans (h.cores m hm)
  own := ⟨k.own.1.trans h.own.1, k.own.2.trans h.own.2⟩

/-- A write of a register of the freeze that leaves KIND. -/
theorem Freezing.setFld (h : Freezing n s t) {a lo l x : Nat} (ha : a ∈ freezeRegs n) (hk : rCore n oDbg ≠ a ∨ lo + l ≤ 64 ∧ 3 ≤ lo) :
    Freezing n s (t.setFld a lo l x) where
  wf := (Quiet.setFld t a lo l x).wf h.wf
  frame := by rw [State.setFld, State.setReg, h.frame]
  regs r hr := (State.reg_setFld_ne h.wf.regs (fun e : r = a => hr (e ▸ ha)) ..).trans (h.regs r hr)
  kind := by
    refine Eq.trans ?_ h.kind
    rcases eq_or_ne (rCore n oDbg) a with rfl | hne
    · rcases hk with hk | ⟨hl, hlo⟩
      · exact absurd rfl hk
      · exact State.fld_setFld_disjoint h.wf.regs hl (.inl hlo) ..
    · exact State.fld_setFld_ne h.wf.regs hne ..
  cores := h.cores
  own := h.own

theorem Freezing.setCore (h : Freezing n s t) {c : CoreSt} (hc : c.sram = (t.core n).sram) (hg : c.groups = (t.core n).groups) :
    Freezing n s (t.setCore n c) where
  wf := h.wf.setCore n (hc ▸ h.wf.core n)
  frame := by rw [State.setCore, h.frame]
  regs := h.regs
  kind := h.kind
  cores k hk := (State.core_setCore h.wf.cores n k c).trans ((if_neg hk).trans (h.cores k hk))
  own := by
    rw [State.core_setCore h.wf.cores, if_pos rfl]
    exact ⟨hc.trans h.own.1, hg.trans h.own.2⟩

theorem Freezing.ite {c : Prop} [Decidable c] (h : Freezing n s t) (k : Freezing n s u) : Freezing n s (if c then t else u) := by
  split
  · exact h
  · exact k

theorem Freezing.store (h : Freezing n s t) (x : Nat) (bs : List Byte) : Freezing n s (t.store x bs) where
  wf := h.wf.store x bs
  frame := by rw [State.store, h.frame]
  regs := h.regs
  kind := h.kind
  cores := h.cores
  own := h.own

theorem Freezing.ctxKeep (h : Freezing n s t) (l : List (Nat × List (Nat × Group))) :
    Freezing n s { t with hl := { t.hl with ctxKeep := l } } where
  wf := ⟨h.wf.regs, h.wf.mem, h.wf.ports, h.wf.cores, h.wf.sram, h.wf.sqs, h.wf.cqs⟩
  frame := by rw [h.frame]
  regs := h.regs
  kind := h.kind
  cores := h.cores
  own := h.own

theorem Freezing.writeImage (h : Freezing n s t) (cause : Nat) : Freezing n s (t.writeImage n cause) := by
  unfold State.writeImage
  split
  · exact h
  · exact ((h.store _ _).ctxKeep _).setFld (by simp [freezeRegs]) (.inr (by decide))

theorem Freezing.setCstate (h : Freezing n s t) (v : Nat) : Freezing n s (t.setCstate n v) :=
  h.setFld (by simp [freezeRegs]) (.inl (rCore_ne (by decide) (by decide) (by decide) _ _))

theorem Freezing.dropWindow (h : Freezing n s t) : Freezing n s (t.dropWindow n) :=
  (h.setCore (c := { t.core n with window := [], stream := [], ending := none }) rfl rfl).setFld (by simp [freezeRegs])
    (.inl (rCore_ne (o := oDbg) (p := oState) (by decide) (by decide) (by decide) _ _))

theorem Freezing.showFrozen (h : Freezing n s t) : Freezing n s t.showFrozen :=
  h.setFld (by simp [freezeRegs]) (.inl (rCore_ne_low (by decide)))

/-- A core frozen before command `a`, before the package looks whether its run is over. -/
def State.frozen (s : State) (a : Attr) (code cause kind : Nat) (own image : Bool) : State :=
  let n := a.core
  let s := s.haltRecord n code own false a
  let s := s.setCfld n oDbg 0 3 kind
  let s := if kind ≤ 3 ∧ s.fld rPfDbgStat 3 1 = 0 then (s.setFld rPfDbgStat 3 1 1).setFld rPfDbgStat 4 11 n else s
  let s := s.setCore n { s.core n with resume := s.bankOffset n a.offset }
  let s := s.setCstate n csSaving
  let s := if image then s.writeImage n cause else s
  ((s.dropWindow n).setCstate n csBreak).showFrozen

theorem State.freeze_eq (s : State) (a : Attr) (code cause kind : Nat) (own image : Bool) : s.freeze a code cause kind own image
    = if kind = 5 then s.frozen a code cause kind own image else (s.frozen a code cause kind own image).endIfDone := rfl

theorem State.frozen_freezing (w : s.Wf) (a : Attr) (code cause kind : Nat) (own image : Bool) :
    Freezing a.core ((s.haltRecord a.core code own false a).setCfld a.core oDbg 0 3 kind) (s.frozen a code cause kind own image) := by
  have wr := (s.haltRecord_ofCore a.core code own false a).wf w
  have h1 := Freezing.refl (((Quiet.setCfld _ a.core oDbg 0 3 kind).wf wr)) a.core
  unfold State.frozen
  extract_lets n s1 s2 s3 c s4 s5 s6
  have hd : rPfDbgStat ∈ freezeRegs a.core := by simp [freezeRegs]
  have hne : rCore a.core oDbg ≠ rPfDbgStat := rCore_ne_low (by decide)
  have h3 : Freezing a.core s2 s3 := .ite ((h1.setFld hd (.inl hne)).setFld hd (.inl hne)) h1
  have h5 : Freezing a.core s2 s5 := Freezing.setCstate (h3.setCore (c := { c with resume := s3.bankOffset n a.offset }) rfl rfl) csSaving
  have h6 : Freezing a.core s2 s6 := .ite (h5.writeImage cause) h5
  exact (h6.dropWindow.setCstate csBreak).showFrozen

theorem State.haltRecord_frame (s : State) (n code : Nat) (own noEff : Bool) (a : Attr) :
    s.haltRecord n code own noEff a = { s with regs := (s.haltRecord n code own noEff a).regs } := by
  unfold State.haltRecord
  split <;> rfl

/-- A halt record that a core does not have yet. -/
theorem State.haltRecord_info (w : s.Wf) (n : Nat) {code : Nat} (own noEff : Bool) (a : Attr) (hc : code < 2 ^ 16) (h : s.cfld n oHaltInfo 16 1 = 0) :
    (s.haltRecord n code own noEff a).cfld n oHaltInfo 0 16 = code ∧ (s.haltRecord n code own noEff a).cfld n oHaltInfo 17 1 = b2n own := by
  have hb (b : Bool) : b2n b ≤ 1 := by cases b <;> decide
  have h1 := hb own
  have h2 := hb noEff
  rw [State.cfld, State.fld, State.cfld, State.fld, (State.haltRecord_spec w n own noEff a hc h).1, bitsOf, bitsOf]
  omega

/-- The last steps of a freeze: the window is dropped, the core is in BREAK. -/
theorem State.frozen_end (w : s.Wf) (n : Nat) :
    let t := ((s.dropWindow n).setCstate n csBreak).showFrozen
    t.cstate n = 4 ∧ (t.core n).window = [] ∧ (t.core n).ending = none := by
  have h1 := (s.dropWindow_ofCore n).wf w
  have h2 := (Quiet.setCfld (s.dropWindow n) n oState 0 3 csBreak).wf h1
  refine ⟨?_, ?_⟩
  · refine (State.cstate_of_regs (State.reg_setFld_ne h2.regs (rCore_ne_low (by decide)) ..)).trans ?_
    exact (State.cstate_setCstate h1 n n csBreak).trans (if_pos rfl)
  · show ((s.setCore n { s.core n with window := [], stream := [], ending := none }).core n).window = [] ∧
      ((s.setCore n { s.core n with window := [], stream := [], ending := none }).core n).ending = none
    rw [State.core_setCore w.cores, if_pos rfl]
    exact ⟨rfl, rfl⟩

/-- What a core's freeze leaves: its record and KIND, everything else of its data, and the other cores. -/
structure Frozen (s t : State) (n code kind : Nat) (own : Bool) : Prop where
  wf     : t.Wf
  frame  : t = { s with regs := t.regs, mem := t.mem, bad := t.bad, cores := t.cores, hl := { s.hl with ctxKeep := t.hl.ctxKeep } }
  cstate : ∀ k, t.cstate k = if k = n then 4 else s.cstate k
  kind   : t.cfld n oDbg 0 3 = kind
  count  : t.reg (rCore n oCount) = s.reg (rCore n oCount)
  info   : s.cfld n oHaltInfo 16 1 = 0 → t.cfld n oHaltInfo 0 16 = code ∧ t.cfld n oHaltInfo 17 1 = b2n own
  low    : ∀ r < coreBase, r ≠ rPfDbgStat → t.reg r = s.reg r
  others : ∀ k, k ≠ n → t.core k = s.core k
  data   : (t.core n).sram = (s.core n).sram ∧ (t.core n).groups = (s.core n).groups
  quiet  : (t.core n).window = [] ∧ (t.core n).ending = none

theorem State.frozen_spec (w : s.Wf) (a : Attr) {code : Nat} (hc : code < 2 ^ 16) (cause : Nat) {kind : Nat} (hk : kind < 8) (own image : Bool) :
    Frozen s (s.frozen a code cause kind own image) a.core code kind own := by
  have hf := State.frozen_freezing w a code cause kind own image
  have hend : (s.frozen a code cause kind own image).cstate a.core = 4 ∧ ((s.frozen a code cause kind own image).core a.core).window = []
      ∧ ((s.frozen a code cause kind own image).core a.core).ending = none := by
    unfold State.frozen
    extract_lets n s1 s2 s3 c s4 s5 s6
    have w6 : s6.Wf := (((((Keeps.refl s).haltRecord).setCfld.when (·.setFld.setFld)).setCore.setCstate.when (·.writeImage)).wf w)
    exact State.frozen_end w6 a.core
  have wr := (s.haltRecord_ofCore a.core code own false a).wf w
  have hr := s.haltRecord_frame a.core code own false a
  have hcount := State.haltRecord_count w a.core own false a hc
  have hinfo := State.haltRecord_info w a.core own false a hc
  have hother := (s.haltRecord_ofCore a.core code own false a).regs w
  generalize s.haltRecord a.core code own false a = v at *
  have hkind : (v.setCfld a.core oDbg 0 3 kind).cfld a.core oDbg 0 3 = kind :=
    (State.cfld_setCfld_same wr (by decide) ..).trans (Nat.mod_eq_of_lt hk)
  generalize s.frozen a code cause kind own image = t at *
  have hne {o : Nat} (ho : o < 0x2000) (h1 : o ≠ oDbg) (h2 : o ≠ oState) : rCore a.core o ∉ freezeRegs a.core := by
    simp only [freezeRegs, List.mem_cons, List.not_mem_nil, or_false, not_or]
    exact ⟨rCore_ne h1 ho (by decide) _ _, rCore_ne h2 ho (by decide) _ _, rCore_ne_low (by decide)⟩
  have hown {o : Nat} (ho : o < 0x2000) (h1 : o ≠ oDbg) (h2 : o ≠ oState) : t.reg (rCore a.core o) = v.reg (rCore a.core o) :=
    (hf.regs _ (hne ho h1 h2)).trans (State.reg_setFld_ne wr.regs (rCore_ne h1 ho (by decide) _ _) ..)
  have hcore (k : Nat) : (v.setCfld a.core oDbg 0 3 kind).core k = s.core k := by rw [hr]; rfl
  refine ⟨hf.wf, ?_, fun k => ?_, hf.kind.trans hkind, (hown (by decide) (by decide) (by decide)).trans hcount, fun h0 => ?_, fun r h1 h2 => ?_,
    fun k hk => (hf.cores k hk).trans (hcore k), ⟨hf.own.1.trans (by rw [hcore]), hf.own.2.trans (by rw [hcore])⟩, hend.2⟩
  · rw [hf.frame, hr]
    rfl
  · by_cases hka : k = a.core
    · rw [if_pos hka, hka]; exact hend.1
    · rw [if_neg hka]
      have hn {o : Nat} (ho : o < 0x2000) : rCore k oState ≠ rCore a.core o := fun e => hka (rCore_inj (by decide) ho e).1
      refine State.cstate_of_regs ((hf.regs _ ?_).trans ((State.reg_setFld_ne wr.regs (hn (by decide)) ..).trans
        (hother _ (not_ofCore (Ne.symm hka) (ofCore_rCore (by decide) k)))))
      simp only [freezeRegs, List.mem_cons, List.not_mem_nil, or_false, not_or]
      exact ⟨hn (by decide), hn (by decide), rCore_ne_low (by decide)⟩
  · obtain ⟨hi1, hi2⟩ := hinfo h0
    have hreg := hown (o := oHaltInfo) (by decide) (by decide) (by decide)
    exact ⟨(congrArg (bitsOf · 0 16) hreg).trans hi1, (congrArg (bitsOf · 17 1) hreg).trans hi2⟩
  · have hlow (k o : Nat) : r ≠ rCore k o := (rCore_ne_low h1).symm
    refine (hf.regs r ?_).trans ((State.reg_setFld_ne wr.regs (hlow _ _) ..).trans (hother r fun ho => ofCore_ne_low ho h1 rfl))
    simp only [freezeRegs, List.mem_cons, List.not_mem_nil, or_false, not_or]
    exact ⟨hlow _ _, hlow _ _, h2⟩

/-! ### The end of a run by its breaks -/

/-- The package looks whether its run is over. -/
theorem State.endIfDone_bu (w : s.Wf) (hr : s.running = true) :
    s.endIfDone.bu = if s.used.all (fun n => s.cstate n == csIdle || s.cstate n == csBreak || s.cstate n == csHalted) = true then 7 else 6 := by
  have h6 : s.bu = 6 := by simpa [State.running, stRun] using hr
  unfold State.endIfDone
  rw [hr, Bool.true_and]
  split
  · exact State.bu_enterHalted w
  · exact h6

theorem State.dropJobDescs_outbox (s : State) : s.dropJobDescs.outbox = s.outbox := by
  unfold State.dropJobDescs
  refine (foldl_keep State.outbox ?_ _ _).trans ((foldl_keep State.outbox ?_ _ _).trans
    ((foldl_keep State.outbox ?_ _ _).trans (foldl_keep State.outbox ?_ _ _)))
  · exact fun _ _ => rfl
  · exact fun _ _ => rfl
  · exact fun s r => by refine foldl_keep State.outbox ?_ _ _; exact fun _ _ => rfl
  · exact fun _ _ => rfl

theorem State.endIfDone_outbox (s : State) : s.endIfDone.outbox = s.outbox := by
  rcases s.endIfDone_cases with e | e <;> rw [e]
  exact s.dropJobDescs_outbox

/-- Nothing follows once the only core that did something waits for nothing. -/
theorem State.settle_alone {n : Nat} (hn : s.anyWaits = false) (hused : t.used = s.used) (hothers : ∀ k, k ≠ n → t.core k = s.core k)
    (hquiet : (t.core n).window = [] ∧ (t.core n).ending = none) : t.settle = t := by
  refine State.settle_of_noneWaits fun k hk => ?_
  by_cases hkn : k = n
  · exact hkn ▸ hquiet
  · rw [hothers k hkn]
    have h := List.any_eq_false.1 hn k (hused ▸ hk)
    simpa using h

/-- The targets' codes and KINDs (R430). -/
theorem State.target?_bounds {a : Attr} {code cause kind : Nat} (h : s.target? a = some (code, cause, kind)) :
    code < 2 ^ 16 ∧ 0 < kind ∧ kind < 4 := by
  unfold State.target? at h
  dsimp only at h
  split_ifs at h <;> cases h <;> decide

/-- A command that meets a target in a window that holds nothing (R430, R432). -/
theorem State.breakFreeze_spec (w : s.Wf) {a : Attr} (hf : s.fetching a.core = true) (hn : s.anyWaits = false) {code cause kind : Nat}
    (ht : s.target? a = some (code, cause, kind)) (t : State) (e : s.freeze a code cause kind true true = t) :
    t.settle = t ∧ t.cstate a.core = 4 ∧ t.cfld a.core oDbg 0 3 = kind
        ∧ t.reg (rCore a.core oCount) = s.reg (rCore a.core oCount) ∧ (t.core a.core).sram = (s.core a.core).sram
        ∧ (t.core a.core).groups = (s.core a.core).groups ∧ t.nv = s.nv ∧ t.job = s.job
        ∧ (s.cfld a.core oHaltInfo 16 1 = 0 → t.cfld a.core oHaltInfo 0 16 = code ∧ t.cfld a.core oHaltInfo 17 1 = 1)
        ∧ t.outbox = s.outbox ∧ t.reg rPfStopCause = s.reg rPfStopCause
        ∧ ((∀ k ∈ s.used, k = a.core ∨ s.cstate k = 1 ∨ s.cstate k = 4 ∨ s.cstate k = 5) → t.bu = 7)
        ∧ ((∃ k ∈ s.used, k ≠ a.core ∧ s.coreLive k = true) → t.bu = 6) := by
  obtain ⟨hcode, hk0, hk4⟩ := State.target?_bounds ht
  have h := State.frozen_spec w a hcode cause (kind := kind) (by omega) true true
  rw [State.freeze_eq, if_neg (by omega)] at e
  generalize s.frozen a code cause kind true true = v at h e
  have hrun : v.running = true := by
    have hs : s.running = true := by
      simp only [State.fetching, State.issuing, Bool.and_eq_true] at hf
      exact hf.1.1.1
    rw [State.running, State.bu, State.fld, h.low _ (by decide) (by decide)]
    exact hs
  have hused : v.used = s.used := by rw [State.used, h.frame]; rfl
  have q := v.endIfDone_quiet
  have hcores := v.endIfDone_cores
  have hregs {r : Nat} (hr : r ∉ [rBuState, rPfDbgCtrl]) := v.endIfDone_regs h.wf hr
  have hbu := State.endIfDone_bu h.wf hrun
  have hout := v.endIfDone_outbox
  rw [e] at q hcores hbu hout
  have hcoreEq (k : Nat) : t.core k = v.core k := by rw [State.core, hcores]; rfl
  have hcreg (o : Nat) : t.reg (rCore a.core o) = v.reg (rCore a.core o) := e ▸ hregs (by
    simp only [List.mem_cons, List.not_mem_nil, or_false, not_or]
    exact ⟨rCore_ne_low (by decide), rCore_ne_low (by decide)⟩)
  have hcf (o lo l : Nat) : t.cfld a.core o lo l = v.cfld a.core o lo l := congrArg (bitsOf · lo l) (hcreg o)
  refine ⟨?_, (State.cstate_of_regs (hcreg _)).trans ((h.cstate _).trans (if_pos rfl)), (hcf ..).trans h.kind, (hcreg _).trans h.count, ?_, ?_, ?_, ?_,
    fun h0 => ?_, ?_, ?_, fun hall => ?_, fun ⟨k, hk, hne, hl⟩ => ?_⟩
  · exact State.settle_alone hn (q.used.trans hused) (fun k hk => (hcoreEq k).trans (h.others k hk)) (by rw [hcoreEq]; exact h.quiet)
  · rw [hcoreEq]; exact h.data.1
  · rw [hcoreEq]; exact h.data.2
  · rw [q.nv, h.frame]
  · rw [q.job, h.frame]
  · rw [hcf, hcf]; exact h.info h0
  · rw [hout, h.frame]
  · exact (e ▸ hregs (by decide) : t.reg rPfStopCause = v.reg rPfStopCause).trans (h.low _ (by decide) (by decide))
  · rw [hbu, if_pos]
    rw [hused, List.all_eq_true]
    intro k hk
    rw [h.cstate]
    split
    · rfl
    · rcases hall k hk with rfl | hk | hk | hk
      · contradiction
      all_goals rw [hk]; rfl
  · rw [hbu, if_neg]
    rw [hused, List.all_eq_true]
    intro hall
    have := hall k hk
    rw [h.cstate, if_neg hne] at this
    rcases (State.coreLive_iff s k).1 hl with h2 | h2 <;> rw [h2] at this <;> exact absurd this (by decide)

/-- Settles O23: the freeze of the core is followed from its record to its BREAK, and the package ends with the last core. -/
theorem breaksFreezeBeforeTheCommand : Obligations.BreaksFreezeBeforeTheCommand := by
  unfold Obligations.BreaksFreezeBeforeTheCommand
  intro a s w hd hf ha
  have hgo : exec (.breakFreeze a) s = .next (s.breakFreeze a).settle := whenTimed_of_live hd _
  have hlive : (s.fetching a.core && s.armed) = true := by rw [hf, ha]; rfl
  refine ⟨fun hn code cause kind ht => ?_, fun hw code cause kind ht => ?_, fun hn ht => ?_, fun h0 hc => ?_⟩
  · have hu : a.core ∈ s.used := by
      simp only [State.fetching, Bool.and_eq_true] at hf
      exact List.contains_iff_mem.1 hf.1.2
    have hempty : (s.core a.core).window.isEmpty = true := by
      have h := List.any_eq_false.1 hn a.core hu
      simp only [Bool.or_eq_true, not_or, Bool.not_eq_true', Bool.not_eq_false] at h
      exact h.1
    have e : s.breakFreeze a = s.freeze a code cause kind true true := by
      unfold State.breakFreeze
      rw [if_pos hlive, ht]
      exact if_pos hempty
    obtain ⟨hset, h⟩ := State.breakFreeze_spec w hf hn ht _ rfl
    exact ⟨_, hgo.trans (by rw [e, hset]), h⟩
  · have e : s.breakFreeze a = s.setCore a.core { s.core a.core with ending := some (.freeze a code cause kind true true) } := by
      unfold State.breakFreeze
      rw [if_pos hlive, ht]
      exact if_neg (by rw [List.isEmpty_iff]; exact hw)
    rw [hgo, e]
  · have e : s.breakFreeze a = s := by
      unfold State.breakFreeze
      rw [if_pos hlive, ht]
    rw [hgo, e, State.settle, hn, Bool.and_false]
    exact congrArg _ (if_neg (by decide))
  · unfold State.target?
    dsimp only
    rw [if_pos ⟨h0, hc⟩]
    rfl

end Sys2Proof.Machine
end

section
/-! SUPPORT. A CTX_SAVE at a boundary where a recalibrated gain names no cell (R404, R435). -/

namespace Sys2Proof.Machine
open Sys2Proof

-- Proofs elaborated in threads of their own would pass the check's limit of memory.
set_option Elab.async false

/-- A run that has not begun its first step, for whose boundary a CTX_SAVE waits; the gain that is due is that of a cell beyond the 64 of
R404, and PWR_GAIN of that cell is BU_STATE. -/
def sStrayGain : State :=
  { State.reset with
    regs := [(rBuState, 6), (rCore 1 oState, 2)]
    job := some plainJob
    stp := { StepSt.reset with started := true }
    hl := { HlSt.reset with ctxReqs := [(0, 0, 0, 1)] }
    pwr := { PwrSt.reset with gainsDue := [(0x1FE0, 3)] } }

theorem sStrayGain_wf : sStrayGain.Wf :=
  ⟨by decide +kernel, mapWf_nil, mapWf_nil, mapWf_nil, fun _ h => absurd h List.not_mem_nil, mapWf_nil, mapWf_nil⟩

/-- The boundary of `sStrayGain` has come, with nothing left for its core to complete. -/
theorem sStrayGain_reached : sStrayGain.dark = false ∧ sStrayGain.issuing = true ∧ sStrayGain.ctxDue = some (0, 0, 0, 1)
    ∧ sStrayGain.armed = false ∧ sStrayGain.used = [1] ∧ sStrayGain.coreLive 1 = true := by decide +kernel

/-- BU_STATE of a state that a command answers. -/
def answeredBu (s : State) (i : Instr) : Nat := match exec i s with
  | .next t => t.bu
  | _ => 0

/-- The gain is written over BU_STATE, so that the save finds the package outside RUN and does not halt it. -/
theorem sStrayGain_leaves : answeredBu sStrayGain .ctxSaveFreeze = 3 := by decide +kernel

/-- Refutes O24: a gain that is due for a cell beyond the 64 of R404, which the statement does not exclude, is written over BU_STATE where the
boundary's step begins, and the package does not enter HALTED. -/
theorem not_contextSaveAtTheBoundary : ¬ Obligations.ContextSaveAtTheBoundary := by
  unfold Obligations.ContextSaveAtTheBoundary
  intro h
  obtain ⟨hd, hi, hc, ha, hu, hl⟩ := sStrayGain_reached
  have hidle : ∀ n ∈ sStrayGain.used, (sStrayGain.core n).window = [] ∧ (sStrayGain.core n).stream = [] ∧ (sStrayGain.core n).ending = none :=
    fun _ _ => ⟨rfl, rfl, rfl⟩
  have hlive : ∃ n ∈ sStrayGain.used, sStrayGain.coreLive n = true := ⟨1, by rw [hu]; exact List.mem_singleton_self 1, hl⟩
  obtain ⟨t, ht, hbu, -⟩ := h.1 sStrayGain (0, 0, 0, 1) sStrayGain_wf hd hi hc ha hlive hidle fun _ hx => absurd hx List.not_mem_nil
  have h3 := sStrayGain_leaves
  rw [answeredBu, ht] at h3
  exact absurd (hbu.symm.trans h3) (by decide)

end Sys2Proof.Machine
end

section
/-! SUPPORT. An INPUT of a step whose input index is declared with no buffers (R345). -/

namespace Sys2Proof.Machine
open Sys2Proof

-- Proofs elaborated in threads of their own would pass the check's limit of memory.
set_option Elab.async false

/-- An input index of 64 B with N_in = 0 buffers. -/
def noBuffers : InputDecl := { nIn := 0, bytes := 64, deadline := 0, base := 0 }

/-- An INPUT descriptor for all 64 bytes of input index 0 of step 0. -/
def firstInput : Desc :=
  { i := 0, bytes := 1#8 :: (List.range 63).map (fun k => if k = 39 then 64#8 else 0#8), started := false, done := none, posted := false, fetchAt := 0 }

/-- A run whose job declares an input index without buffers, with an INPUT for it that may start. -/
def sNoBuffers : State :=
  { State.reset with
    regs := [(rBuState, 6)]
    job := some { plainJob with inputs := [noBuffers] }
    hl := { HlSt.reset with sqs := [(0, { SqSt.reset with tail := 1, fetched := 1, descs := [firstInput] })] } }

theorem sNoBuffers_wf : sNoBuffers.Wf :=
  ⟨by decide +kernel, mapWf_nil, mapWf_nil, mapWf_nil, fun _ h => absurd h List.not_mem_nil, by decide +kernel, mapWf_nil⟩

/-- The INPUT may start, is well formed for the declaration, and no earlier step's input holds its buffer. -/
theorem sNoBuffers_startable : sNoBuffers.dark = false ∧ sNoBuffers.tooLate firstInput = false
    ∧ sNoBuffers.startable? 0 0 1 = some firstInput ∧ sNoBuffers.running = true ∧ sNoBuffers.inputBad firstInput noBuffers = false
    ∧ sNoBuffers.bufferHeld noBuffers (firstInput.f 24 4) (firstInput.f 16 8) = false := by decide +kernel

/-- The outcome of a descriptor after a command. -/
def outcomeAfter (s : State) (c : Instr) (q i : Nat) : Option (Nat × Nat × Bool) :=
  match exec c s with
  | .next t => (t.desc? q i).bind Desc.done
  | _ => none

/-- The range that the INPUT names holds, with N_in = 0, the buffer that it waits for: no host read is made, and so none fails. -/
theorem sNoBuffers_waits : outcomeAfter sNoBuffers (.input 0 0 ⟨none, {}⟩) 0 0 = none := by decide +kernel

/-- Refutes O54: an INPUT of an index that the job declares with N_in = 0, which the statement does not exclude, waits for the buffer that it
itself has taken, although no other input holds it, and a failed host read does not end it. -/
theorem not_runDescriptors : ¬ Obligations.RunDescriptors := by
  unfold Obligations.RunDescriptors
  intro h
  obtain ⟨hd, hlate, hstart, hrun, hbad, hheld⟩ := sNoBuffers_startable
  obtain ⟨-, hlive, -⟩ := h 0 0 firstInput sNoBuffers sNoBuffers_wf hd
  obtain ⟨-, -, hinput, -⟩ := hlive hlate
  obtain ⟨-, hfree⟩ := hinput { plainJob with inputs := [noBuffers] } noBuffers [] 0 hstart hrun rfl rfl hbad List.not_mem_nil
  obtain ⟨-, t, e, ht, hdesc, hdone, -⟩ := hfree hheld
  have hnone := sNoBuffers_waits
  rw [outcomeAfter, ht] at hnone
  simp only [hdesc, Option.bind_some, hdone] at hnone
  cases hnone

end Sys2Proof.Machine
end

section
/-! SUPPORT. Hostlink links (R326 to R328): flits received, the flit that answers, the replay. -/

namespace Sys2Proof.Machine
open Sys2Proof

-- Proofs elaborated in threads of their own would pass the check's limit of memory.
set_option Elab.async false

variable {s t u : State} {p q : Nat} {R : List Nat} {f : HlFlit} {errs : List Nat}

/-! ### Commands that send messages -/

/-- From `s` to `t` registers of `R` have changed and messages have been sent. -/
structure Mailed (R : List Nat) (s t : State) : Prop where
  wf    : t.Wf
  frame : t = { s with regs := t.regs, ports := t.ports, outbox := t.outbox }
  regs  : ∀ r, r ∉ R → t.reg r = s.reg r

theorem PortsOnly.mailed (h : PortsOnly s t) (w : t.Wf) : Mailed R s t where
  wf := w
  frame := h.trans (by rw [h.regs])
  regs r _ := h.reg r

theorem OnRegs.mailed (h : OnRegs R s t) : Mailed R s t where
  wf := h.wf
  frame := by rw [h.only.1]
  regs := h.only.2

namespace Mailed

theorem refl (w : s.Wf) (R : List Nat) : Mailed R s s := ⟨w, rfl, fun _ _ => rfl⟩

theorem trans (h : Mailed R s t) (k : Mailed R t u) : Mailed R s u :=
  ⟨k.wf, by rw [k.frame, h.frame], fun r hr => (k.regs r hr).trans (h.regs r hr)⟩

theorem setPort (h : Mailed R s t) (p : Nat) (v : PortSt) : Mailed R s (t.setPort p v) :=
  h.trans (((PortsOnly.refl t).setPort p v).mailed ((Keeps.refl t).setPort.wf h.wf))

theorem addFld (h : Mailed R s t) {a lo l x : Nat} (ha : a ∈ R) : Mailed R s (t.addFld a lo l x) :=
  h.trans ((OnRegs.refl h.wf R).addFld ha).mailed

theorem only (h : Mailed R s t) : regsOnly { s with ports := t.ports, outbox := t.outbox } t R := ⟨by rw [h.frame], h.regs⟩

theorem reg (h : Mailed R s t) {r : Nat} (hr : r ∉ R) : t.reg r = s.reg r := h.regs r hr

theorem fld (h : Mailed R s t) {r : Nat} (hr : r ∉ R) (lo l : Nat) : t.fld r lo l = s.fld r lo l := by
  rw [State.fld, h.reg hr, State.fld]

end Mailed

/-! ### One flit out -/

theorem State.sendHl_port (w : s.Wf) (p q : Nat) (f : HlFlit) : (s.sendHl p f).port q = if q = p then (s.port p).paid else s.port q :=
  ((Quiet.emit noReg s (.hlFlit p f.image)).wf w).port_setPort p q _

theorem State.sendHl_outbox (s : State) (p : Nat) (f : HlFlit) : (s.sendHl p f).outbox = s.outbox ++ [.hlFlit p f.image] := rfl

theorem State.sendHl_portsOnly (s : State) (p : Nat) (f : HlFlit) : PortsOnly s (s.sendHl p f) := ((PortsOnly.refl s).emit _).setPort ..

/-- With no message waiting, news is answered with an IDLE flit and nothing else is sent. -/
theorem State.answerHl_of_empty (h : (s.port p).txq = []) (news : Bool) :
    s.answerHl p news = if news then s.sendHl p ((s.port p).flitWith 0 0 []) else s := by
  unfold State.answerHl
  dsimp only
  rw [State.pump_of_empty h]
  cases news <;> simp

/-- A flit received on a port with no message waiting: its ACK, NAK, CREDIT and LSEQ are taken in, which makes `v` of the port, and a MSG flit
or a failed one is answered. -/
theorem State.answered_spec (w : s.Wf) {v : PortSt} (hv : v.txq = []) (news : Bool) :
    PortsOnly s ((s.setPort p v).answerHl p news) ∧ ((s.setPort p v).answerHl p news).Wf
      ∧ (∀ q, q ≠ p → ((s.setPort p v).answerHl p news).port q = s.port q)
      ∧ ((s.setPort p v).answerHl p news).port p = (if news then v.paid else v)
      ∧ ((s.setPort p v).answerHl p news).outbox = s.outbox ++ if news then [.hlFlit p (v.flitWith 0 0 []).image] else [] := by
  have hw : (s.setPort p v).Wf := (Keeps.refl s).setPort.wf w
  have hp : (s.setPort p v).port p = v := w.port_setPort_same p v
  have hset : PortsOnly s (s.setPort p v) := (PortsOnly.refl s).setPort p v
  have hwf : ((s.setPort p v).answerHl p news).Wf := (Keeps.refl _).answerHl.wf hw
  rw [State.answerHl_of_empty (by rw [hp]; exact hv), hp] at hwf ⊢
  cases news
  · exact ⟨hset, hw, fun q hq => w.port_setPort_ne hq v, hp, (List.append_nil _).symm⟩
  · refine ⟨(hset.emit _).setPort .., hwf, fun q hq => ?_, ?_, rfl⟩
    · exact (State.sendHl_port hw p q _).trans ((if_neg hq).trans (w.port_setPort_ne hq v))
    · exact (State.sendHl_port hw p p _).trans ((if_pos rfl).trans (congrArg PortSt.paid hp))

/-! ### The count of corrected blocks -/

theorem State.fld_addFld_same (hs : mapWf regDefault s.regs) {lo l : Nat} (hl : lo + l ≤ 64) (a n : Nat) :
    (s.addFld a lo l n).fld a lo l = min (2 ^ l - 1) (s.fld a lo l + n) :=
  (State.fld_setFld_same hs hl ..).trans (Nat.mod_eq_of_lt (lt_of_le_of_lt (min_le_left ..) (Nat.sub_one_lt_of_lt (Nat.two_pow_pos l))))

/-- A block that the FEC corrects is counted (R326). -/
def State.countHl (s : State) (p : Nat) (errs : List Nat) : State := if fecCorrects errs then s.addFld (rPortErr p) 0 16 1 else s

theorem State.countHl_spec (w : s.Wf) (p : Nat) (errs : List Nat) : OnRegs [rPortErr p] s (s.countHl p errs)
    ∧ (s.countHl p errs).fld (rPortErr p) 0 16 = min 65535 (s.fld (rPortErr p) 0 16 + b2n (fecCorrects errs))
    ∧ (s.countHl p errs).fld (rPortErr p) 32 16 = s.fld (rPortErr p) 32 16 := by
  have hlt : s.fld (rPortErr p) 0 16 < 65536 := bitsOf_lt _ 0 16
  unfold State.countHl
  split
  · next h =>
    refine ⟨(OnRegs.refl w _).addFld (by simp), ?_, State.fld_setFld_disjoint w.regs (by decide) (by decide) ..⟩
    rw [State.fld_addFld_same w.regs (by decide), h]
    rfl
  · next h =>
    rw [Bool.not_eq_true] at h
    refine ⟨OnRegs.refl w _, ?_, rfl⟩
    rw [h, b2n]
    exact (Nat.min_eq_right (by omega)).symm

theorem exec_hostlinkFlitReceive (hd : s.dark = false) (hu : s.portUp p = true) (hm : s.mode p = 2) :
    exec (.hostlinkFlitReceive p f.type f.lseq (f.ackSeq, f.ackValid) f.nak f.credit ⟨f.crc, f.payload, errs⟩) s
      = .next (if fecOk errs && f.good then ((s.countHl p errs).setPort p (((s.countHl p errs).port p).takeHl f)).answerHl p (f.type == 1)
        else (((s.countHl p errs).setPort p { (s.countHl p errs).port p with rxNak := true }).addFld (rPortErr p) 32 16 1).answerHl p true) := by
  refine (next_of_live hd).trans ?_
  simp only [hu, hm, beq_self_eq_true, Bool.and_self, Bool.not_true, Bool.false_eq_true, if_false]
  rfl

theorem State.countHl_port (s : State) (p : Nat) (errs : List Nat) (q : Nat) : (s.countHl p errs).port q = s.port q := by
  unfold State.countHl
  split <;> rfl

theorem State.countHl_outbox (s : State) (p : Nat) (errs : List Nat) : (s.countHl p errs).outbox = s.outbox := by
  unfold State.countHl
  split <;> rfl

/-! ### A flit that fails -/

/-- The port, the counts of corrected blocks and the other ports after a flit on port `p`. -/
def Counted (p : Nat) (errs : List Nat) (s t : State) : Prop :=
  t.fld (rPortErr p) 0 16 = min 65535 (s.fld (rPortErr p) 0 16 + b2n (fecCorrects errs))
    ∧ (∀ q, q ≠ p → t.port q = s.port q) ∧ regsOnly { s with ports := t.ports, outbox := t.outbox } t [rPortErr p]

theorem State.flitFails_spec (w : s.Wf) (hq : (s.port p).txq = []) (errs : List Nat) :
    ∃ t, (((s.countHl p errs).setPort p { (s.countHl p errs).port p with rxNak := true }).addFld (rPortErr p) 32 16 1).answerHl p true = t
      ∧ Counted p errs s t ∧ t.port p = { s.port p with rxNak := true }.paid
      ∧ t.outbox = s.outbox ++ [.hlFlit p ({ s.port p with rxNak := true }.flitWith 0 0 []).image]
      ∧ t.fld (rPortErr p) 32 16 = min (2 ^ 16 - 1) (s.fld (rPortErr p) 32 16 + 1) := by
  obtain ⟨hcount, hlow, hhigh⟩ := State.countHl_spec w p errs
  have hadd : OnRegs [rPortErr p] s ((s.countHl p errs).addFld (rPortErr p) 32 16 1) := hcount.addFld (by simp)
  obtain ⟨hsent, hwf, hother, hport, hout⟩ := State.answered_spec hadd.wf (p := p) (v := { s.port p with rxNak := true }) hq true
  rw [State.countHl_port]
  refine ⟨_, rfl, ⟨?_, fun q hne => (hother q hne).trans (s.countHl_port p errs q), (hadd.mailed.trans (hsent.mailed hwf)).only⟩, hport, ?_, ?_⟩
  · exact (hsent.fld ..).trans ((State.fld_setFld_disjoint hcount.wf.regs (by decide) (by decide) ..).trans hlow)
  · exact hout.trans (congrArg (· ++ _) (s.countHl_outbox p errs))
  · refine (hsent.fld ..).trans ((State.fld_addFld_same hcount.wf.regs (by decide) ..).trans ?_)
    rw [hhigh]

/-! ### A good flit -/

/-- What a good flit leaves of a port whatever its TYPE: silence, NAK, credits, replay buffer and waiting messages. -/
theorem PortSt.takeHl_fields (v : PortSt) (f : HlFlit) : (v.takeHl f).silence = 0 ∧ (v.takeHl f).nakSeen = f.nak
    ∧ (v.takeHl f).credits = addCredits v.credits f.credit
    ∧ (v.takeHl f).unacked = (if f.ackValid then ackUpTo v.unacked (f.ackSeq % 4096) else v.unacked) ∧ (v.takeHl f).txq = v.txq := by
  unfold PortSt.takeHl
  dsimp only
  split
  · exact ⟨rfl, rfl, rfl, rfl, rfl⟩
  · split <;> exact ⟨rfl, rfl, rfl, rfl, rfl⟩

theorem PortSt.takeHl_other (v : PortSt) (h : f.type ≠ 1) : (v.takeHl f).rxNext = v.rxNext ∧ (v.takeHl f).rxNak = v.rxNak
    ∧ (v.takeHl f).owed = v.owed := by
  unfold PortSt.takeHl
  dsimp only
  rw [if_pos h]
  exact ⟨rfl, rfl, rfl⟩

theorem PortSt.takeHl_expected (v : PortSt) (h : f.type = 1) (hs : f.lseq % 4096 = v.rxNext) : (v.takeHl f).rxNext = (v.rxNext + 1) % 4096
    ∧ (v.takeHl f).rxNak = false ∧ (v.takeHl f).rxAny = true
    ∧ (v.takeHl f).owed = List.zipWith (· + ·) v.owed (unitsTaken (f.msgs.getD [])) := by
  unfold PortSt.takeHl
  dsimp only
  rw [if_neg (not_not.2 h), if_pos hs]
  exact ⟨rfl, rfl, rfl, rfl⟩

theorem PortSt.takeHl_unexpected (v : PortSt) (h : f.type = 1) (hs : f.lseq % 4096 ≠ v.rxNext) : (v.takeHl f).rxNext = v.rxNext
    ∧ (v.takeHl f).rxNak = true ∧ (v.takeHl f).owed = v.owed := by
  unfold PortSt.takeHl
  dsimp only
  rw [if_neg (not_not.2 h), if_neg hs]
  exact ⟨rfl, rfl, rfl⟩

theorem addCredits_getD (cs : List Nat) (c : Nat) {i : Nat} (hi : i < 4) : (addCredits cs c).getD i 0 = cs.getD i 0 + bitsOf c (8 * i) 8 := by
  have h : (List.range 4)[i]? = some i := by rw [List.getElem?_range hi]
  rw [addCredits, List.getD_eq_getElem?_getD, List.getElem?_map, h]
  rfl

/-- An ACK of a flit that is not in the replay buffer drops none. -/
theorem ackUpTo_absent {l : List HlTx} {a : Nat} (h : ∀ e ∈ l, e.lseq ≠ a) : ackUpTo l a = l := by
  rw [ackUpTo, if_neg]
  simpa using h

/-- An ACK drops the flits up to and including the first with its LSEQ. -/
theorem ackUpTo_first {pre post : List HlTx} {e : HlTx} {a : Nat} (he : e.lseq = a) (h : ∀ x ∈ pre, x.lseq ≠ a) :
    ackUpTo (pre ++ e :: post) a = post := by
  have hany : (pre ++ e :: post).any (fun e => e.lseq == a) = true := List.any_eq_true.2 ⟨e, by simp, by simp [he]⟩
  have hpre : ∀ x ∈ pre, (x.lseq != a) = true := fun x hx => by simpa using h x hx
  rw [ackUpTo, if_pos hany, List.dropWhile_append_of_pos hpre, List.dropWhile_cons_of_neg (by simp [he])]
  rfl

/-- A good flit on a port with no message waiting: what it leaves, and the IDLE flit that answers a MSG flit. -/
theorem State.flitTaken_spec (w : s.Wf) (hq : (s.port p).txq = []) (f : HlFlit) (errs : List Nat) :
    ∃ t, ((s.countHl p errs).setPort p (((s.countHl p errs).port p).takeHl f)).answerHl p (f.type == 1) = t ∧ Counted p errs s t
      ∧ t.port p = (if (f.type == 1) = true then ((s.port p).takeHl f).paid else (s.port p).takeHl f)
      ∧ t.outbox = s.outbox ++ if (f.type == 1) = true then [.hlFlit p (((s.port p).takeHl f).flitWith 0 0 []).image] else [] := by
  obtain ⟨hcount, hlow, -⟩ := State.countHl_spec w p errs
  obtain ⟨-, -, -, -, htxq⟩ := (s.port p).takeHl_fields f
  obtain ⟨hsent, hwf, hother, hport, hout⟩ := State.answered_spec hcount.wf (p := p) (v := (s.port p).takeHl f) (htxq.trans hq) (f.type == 1)
  rw [State.countHl_port]
  refine ⟨_, rfl, ⟨(hsent.fld ..).trans hlow, fun q hne => (hother q hne).trans (s.countHl_port p errs q),
    (hcount.mailed.trans (hsent.mailed hwf)).only⟩, hport, hout.trans (congrArg (· ++ _) (s.countHl_outbox p errs))⟩

/-! ### The replay -/

/-- A flit of the replay buffer as port state `v` sends it again: all but the credit that it returns. -/
def PortSt.again (v : PortSt) (e : HlTx) (credit : Nat) : HlFlit := HlFlit.sealed
  { type := 1, lseq := e.lseq, ackSeq := (v.rxNext + 4095) % 4096, ackValid := v.rxAny, nak := v.rxNak, credit, payload := hlPayload e.msgs }

/-- The flits of `l` have gone out on port `p`, each with what credit was owed. -/
structure Replayed (p : Nat) (l : List HlTx) (s t : State) : Prop where
  wf    : t.Wf
  ports : PortsOnly s t
  port  : t.port p = { s.port p with owed := (t.port p).owed }
  out   : ∃ fs, t.outbox = s.outbox ++ fs ∧ fs.length = l.length
            ∧ ∀ (k : Nat) e, l[k]? = some e → ∃ credit, fs[k]? = some (.hlFlit p ((s.port p).again e credit).image)

theorem State.replay_spec (w : s.Wf) (p : Nat) (l : List HlTx) :
    Replayed p l s (l.foldl (fun s e => s.sendHl p ((s.port p).hlFlit e)) s) := by
  induction l generalizing s with
  | nil => exact ⟨w, .refl s, rfl, [], (List.append_nil _).symm, rfl, nofun⟩
  | cons e l ih =>
    rw [List.foldl_cons]
    have hw : (s.sendHl p ((s.port p).hlFlit e)).Wf := (Keeps.refl s).sendHl.wf w
    have hport : (s.sendHl p ((s.port p).hlFlit e)).port p = (s.port p).paid := (State.sendHl_port w ..).trans (if_pos rfl)
    obtain ⟨hwf, hports, hp, fs, hout, hlen, hk⟩ := ih hw
    rw [hport] at hp hk
    have hfirst : ∃ credit, (s.port p).hlFlit e = (s.port p).again e credit := ⟨_, rfl⟩
    obtain ⟨credit, hfirst⟩ := hfirst
    refine ⟨hwf, ?_, hp, .hlFlit p ((s.port p).hlFlit e).image :: fs, ?_, congrArg (· + 1) hlen, fun k x hx => ?_⟩
    · have hs := s.sendHl_portsOnly p ((s.port p).hlFlit e)
      rw [PortsOnly] at hs hports ⊢
      rw [hports, hs]
    · rw [hout, State.sendHl_outbox, List.append_assoc]; rfl
    · cases k with
      | zero =>
        obtain rfl : e = x := Option.some.inj hx
        exact ⟨credit, by rw [hfirst]; rfl⟩
      | succ k => exact hk k x hx

/-- Every flit of the replay buffer is sent once more; the NAK is answered. -/
def PortSt.resent (v : PortSt) : PortSt :=
  { v with unacked := v.unacked.map (fun e => { e with sends := e.sends + 1 }), nakSeen := false }

theorem exec_replay (hd : s.dark = false) (hu : s.portUp p = true) (hm : s.mode p = 2) : exec (.replay p) s
    = .next (if (s.port p).nakSeen = true then
        if (s.port p).unacked.any (fun e => decide (8 ≤ e.sends)) then s.portDown p
        else ((s.port p).unacked.foldl (fun s e => s.sendHl p ((s.port p).hlFlit e)) (s.setPort p (s.port p).resent)).addFld (rPortErr p) 16 16
          (s.port p).unacked.length
      else s) := by
  refine (next_of_live hd).trans ?_
  congr 1
  by_cases hn : (s.port p).nakSeen = true
  · rw [if_pos hn]
    exact if_neg (by simp [hu, hm, hn])
  · rw [if_neg hn]
    exact if_pos (by simp [hu, hm, hn])

/-! ### The port goes DOWN -/

theorem State.haltRecord_ports (s : State) (n code : Nat) (own noEff : Bool) (a : Attr) : (s.haltRecord n code own noEff a).ports = s.ports := by
  unfold State.haltRecord
  split <;> rfl

theorem State.nextAttr_ports (s : State) (n : Nat) : (s.nextAttr n).2.ports = s.ports := by
  unfold State.nextAttr State.firstAttr
  split <;> rfl

theorem State.stopCores_ports (s : State) (code : Nat) : (s.stopCores code).ports = s.ports := by
  refine foldl_keep State.ports (fun s n => ?_) _ s
  have hbank (t : State) : (t.coreToHalted n).ports = t.ports := by
    unfold State.coreToHalted State.bankRest
    dsimp only
    split <;> split <;> rfl
  have hrec : (s.stopRecord code n).ports = s.ports := by
    unfold State.stopRecord
    split
    · exact State.haltRecord_ports ..
    · exact State.haltRecord_ports ..
    · exact (State.haltRecord_ports ..).trans (s.nextAttr_ports n)
  split
  · exact (hbank _).trans hrec
  · rfl

theorem State.enterHalted_ports (s : State) : s.enterHalted.ports = s.ports := by
  refine Eq.trans (b := s.dropJobDescs.ports) rfl ?_
  unfold State.dropJobDescs
  refine (foldl_keep State.ports ?_ _ _).trans ((foldl_keep State.ports ?_ _ _).trans
    ((foldl_keep State.ports ?_ _ _).trans (foldl_keep State.ports ?_ _ _)))
  · exact fun _ _ => rfl
  · exact fun _ _ => rfl
  · exact fun s r => foldl_keep State.ports (f := fun s d => s.decideDesc d.1 d.2.1 cDescNoJob 0 false) (fun _ _ => rfl) r.descs s
  · exact fun _ _ => rfl

theorem State.noteFault_ports (s : State) (reason unit index time : Nat) : (s.noteFault reason unit index time).ports = s.ports := by
  unfold State.noteFault
  split
  · obtain ⟨-, -, hports, -⟩ := State.ibiBoth_keeps (s.recordFault reason unit index time 0) reason
    exact hports
  · dsimp only
    split <;> rfl

/-- A package that stops as origin changes no port but the FABRIC ports that are UP, which send its STOP. -/
theorem State.stopAsOrigin_port (w : s.Wf) (hp : p ∉ s.fabricUp) (reason time : Nat) : (s.stopAsOrigin reason time).port p = s.port p := by
  have hq : Quiet faultReg s (s.recordStop s.herdIndex reason time true) := s.recordStop_quiet ..
  have hports : (s.recordStop s.herdIndex reason time true).ports = s.ports := by
    unfold State.recordStop
    split
    · rfl
    · dsimp only
      split <;> rfl
  have hup : (s.recordStop s.herdIndex reason time true).fabricUp = s.fabricUp := hq.fabricUp w fun q hq => not_faultReg_port hq
  have hsend := (State.sendStop_port (hq.wf w) (State.fabricUp_nodup _) (s.recordStop s.herdIndex reason time true).herdIndex reason time).1 p (by rw [hup]; exact hp)
  unfold State.stopAsOrigin
  dsimp only
  rw [State.port, State.enterHalted_ports, State.stopCores_ports]
  exact hsend.trans (congrArg (mapGet portDefault · p) hports)

theorem State.raise_port (w : s.Wf) (hr : s.running = true) (hp : p ∉ s.fabricUp) (reason unit index : Nat) :
    (s.raise reason unit index).port p = s.port p := by
  have hbu : ¬ s.bu < stLoad := by
    have h6 : s.bu = 6 := by simpa [State.running, stRun] using hr
    rw [h6]; decide
  have hq : Quiet faultReg s (s.noteHalts.noteFault reason unit index s.now) := s.noteHalts_quiet.trans (State.noteFault_quiet ..)
  have hports : (s.noteHalts.noteFault reason unit index s.now).ports = s.ports :=
    (State.noteFault_ports ..).trans (foldl_keep State.ports (fun s _ => s.noteFault_ports ..) _ s)
  rw [State.raise, if_neg hbu, if_pos hr]
  refine (State.stopAsOrigin_port (hq.wf w) ?_ ..).trans (congrArg (mapGet portDefault · p) hports)
  rw [hq.fabricUp w fun q hq => not_faultReg_port hq]
  exact hp

/-- A port that goes DOWN has nothing to send again. -/
theorem State.portDown_unacked (w : s.Wf) (p : Nat) : ((s.portDown p).port p).unacked = [] := by
  obtain ⟨hlost, hdown, -⟩ := State.linkLost_spec w p
  have hempty : ((s.linkLost p).port p).unacked = [] := congrArg PortSt.unacked (w.port_setPort_same p _)
  rw [State.portDown_eq]
  split
  · next h =>
    have hnot : p ∉ (s.linkLost p).fabricUp := fun hm => by
      obtain ⟨-, -, hup⟩ := State.mem_fabricUp.1 hm
      rw [State.portUp, hdown] at hup
      exact absurd hup (by decide)
    rw [State.raise_port hlost.wf (Bool.and_eq_true_iff.1 h).2 hnot]
    exact hempty
  · exact hempty

/-- Settles O47: a flit is taken in and answered in a step each; the replay is an induction over the replay buffer. -/
theorem hostlinkFlits : Obligations.HostlinkFlits := by
  unfold Obligations.HostlinkFlits
  intro p f errs s w hd hu hm hp counted
  simp only [exec_hostlinkFlitReceive hd hu hm, exec_replay hd hu hm]
  refine ⟨fun hbad hq => ?_, fun hgood hfec hq => ?_, fun hn => ?_, fun hn hsends => ?_, fun hn hmax => ?_⟩
  · have hfail : ¬ (fecOk errs && f.good) = true := fun h => by
      obtain ⟨h1, h2⟩ := Bool.and_eq_true_iff.1 h
      rcases hbad with h | h
      · exact absurd (h2.symm.trans h) (by decide)
      · exact absurd (h1.symm.trans h) (by decide)
    obtain ⟨t, ht, hcount, hport, hout, herr⟩ := State.flitFails_spec w hq errs
    exact ⟨t, by rw [if_neg hfail, ht], hcount, hport, hout, herr⟩
  · obtain ⟨t, ht, hcount, hport, hout⟩ := State.flitTaken_spec w hq f errs
    obtain ⟨hsil, hnak, hcred, hun, -⟩ := (s.port p).takeHl_fields f
    have hkeep {α : Type} (g : PortSt → α) (hg : ∀ v : PortSt, g v.paid = g v) : g (t.port p) = g ((s.port p).takeHl f) := by
      rw [hport]
      split
      · exact hg _
      · rfl
    refine ⟨t, by rw [if_pos (by rw [hgood, hfec]; rfl), ht], hcount, (hkeep PortSt.silence fun _ => rfl).trans hsil,
      (hkeep PortSt.nakSeen fun _ => rfl).trans hnak, fun i hi => ?_, fun h => ?_, fun e pre post hv hsplit he hpre => ?_, fun h1 => ?_, fun h1 => ?_⟩
    · rw [hkeep PortSt.credits fun _ => rfl, hcred, addCredits_getD _ _ hi]
    · rw [hkeep PortSt.unacked fun _ => rfl, hun]
      rcases h with h | h
      · rw [h]; rfl
      · rw [ackUpTo_absent h, ite_self]
    · rw [hkeep PortSt.unacked fun _ => rfl, hun, if_pos hv, hsplit, ackUpTo_first he hpre]
    · have hno : ¬ (f.type == 1) = true := fun h => h1 (beq_iff_eq.1 h)
      rw [if_neg hno] at hport hout
      rw [hport]
      exact ⟨hout.trans (List.append_nil _), (s.port p).takeHl_other h1⟩
    · rw [if_pos (beq_iff_eq.2 h1)] at hport hout
      refine ⟨hout, fun hs => ?_, fun hs => ?_⟩
      · obtain ⟨hnext, hnak, hany, howed⟩ := (s.port p).takeHl_expected h1 hs
        rw [hport]
        exact ⟨hnext, hnak, hany, congrArg (List.map _) howed⟩
      · obtain ⟨hnext, hnak, howed⟩ := (s.port p).takeHl_unexpected h1 hs
        rw [hport]
        exact ⟨hnext, hnak, congrArg (List.map _) howed⟩
  · rw [if_neg (by rw [hn]; decide)]
  · have hno : ¬ (s.port p).unacked.any (fun e => decide (8 ≤ e.sends)) = true := fun h => by
      obtain ⟨e, he, h8⟩ := List.any_eq_true.1 h
      exact absurd (of_decide_eq_true h8) (Nat.not_le.2 (hsends e he))
    rw [if_pos hn, if_neg hno]
    have hset : PortsOnly s (s.setPort p (s.port p).resent) := (PortsOnly.refl s).setPort ..
    have hw : (s.setPort p (s.port p).resent).Wf := (Keeps.refl s).setPort.wf w
    obtain ⟨hwf, hports, hport, fs, hout, hlen, hk⟩ := State.replay_spec hw p (s.port p).unacked
    rw [w.port_setPort_same] at hport hk
    have hsent : Mailed [rPortErr p] s _ := (hset.mailed hw).trans (hports.mailed hwf)
    refine ⟨_, rfl, ⟨fs, hout.symm⟩, ?_, fun k e he => ?_, hport, ?_, (hsent.addFld (by simp)).only⟩
    · exact (congrArg List.length hout).trans (List.length_append.trans (congrArg (_ + ·) hlen))
    · obtain ⟨credit, hfs⟩ := hk k e he
      refine ⟨credit, (congrArg (·[s.outbox.length + k]?) hout).trans ?_⟩
      exact (List.getElem?_append_right (Nat.le_add_right ..)).trans (by rw [Nat.add_sub_cancel_left]; exact hfs)
    · rw [State.fld_addFld_same hsent.wf.regs (by decide), hports.fld]
      rfl
  · have hany : (s.port p).unacked.any (fun e => decide (8 ≤ e.sends)) = true := by
      obtain ⟨e, he, h8⟩ := hmax
      exact List.any_eq_true.2 ⟨e, he, decide_eq_true h8⟩
    rw [if_pos hn, if_pos hany]
    have h := State.portDown_spec w hp
    exact ⟨_, rfl, h.down, State.portDown_unacked w p, by rw [h.quiet.frame], by rw [h.quiet.frame], by rw [h.quiet.frame]⟩

end Sys2Proof.Machine
end

section
/-! SUPPORT. One message out of a Hostlink port (R327 to R329), and what sending leaves of its requests and lines. -/

namespace Sys2Proof.Machine
open Sys2Proof

-- Proofs elaborated in threads of their own would pass the check's limit of memory.
set_option Elab.async false

variable {s t u : State} {p q : Nat} {m : HlMsg}

/-! ### One message out -/

/-- A port on which no message waits and whose replay buffer has room. -/
structure State.FreeTo (s : State) (p : Nat) : Prop where
  up    : s.portUp p = true
  empty : (s.port p).txq = []
  room  : (s.port p).unacked.length < 512

/-- The message that waits alone goes next, if the host's credit allows. -/
theorem PortSt.nextMsg_alone {v : PortSt} (hq : v.txq = [m]) (hc : hlChannel m.op = 1 ∨ m.units ≤ v.credits.getD (hlChannel m.op) 0) :
    v.nextMsg = some m := by
  have hchan : hlChannel m.op = 1 ∨ hlChannel m.op = 3 ∨ hlChannel m.op = 2 := by
    unfold hlChannel
    split
    · exact .inl rfl
    · split
      · exact .inr (.inl rfl)
      · exact .inr (.inr rfl)
  unfold PortSt.nextMsg
  rcases hchan with h | h | h
  · simp [hq, h]
  · have hle : m.units ≤ v.credits.getD 3 0 := h ▸ hc.resolve_left (by rw [h]; decide)
    simp only [List.getD_eq_getElem?_getD] at hle
    simp [hq, h, hle]
  · have hle : m.units ≤ v.credits.getD 2 0 := h ▸ hc.resolve_left (by rw [h]; decide)
    simp only [List.getD_eq_getElem?_getD] at hle
    simp [hq, h, hle]

/-- What a port holds after a message has gone out in a MSG flit of its own. -/
def PortSt.sentAlone (v : PortSt) (m : HlMsg) : PortSt :=
  { v with txNext := (v.txNext + 1) % 4096, unacked := v.unacked ++ [{ lseq := v.txNext, sends := 1, msgs := [m] }], txq := v.txq.erase m
           credits := if hlChannel m.op = 1 then v.credits else v.credits.set (hlChannel m.op) (v.credits.getD (hlChannel m.op) 0 - m.units) }

theorem State.pumpOnce_alone (hup : s.portUp p = true) (hn : (s.port p).nextMsg = some m) (hroom : (s.port p).unacked.length < 512) :
    State.pumpOnce p (s, 0) = ((s.setPort p ((s.port p).sentAlone m)).emit (.hostlink p m.op m.tag m.addr m.status m.param m.data),
      flitUnits - m.units) := by
  have hnew : decide (0 < m.units) = true := decide_eq_true (by rw [HlMsg.units]; omega)
  have hfit : decide (512 ≤ (s.port p).unacked.length) = false := decide_eq_false (Nat.not_le.2 hroom)
  unfold State.pumpOnce
  simp only [hn, hnew, hup, hfit, Bool.not_true, Bool.and_false, Bool.or_false, Bool.false_eq_true, if_false, if_true]
  rfl

/-- The message that waits alone leaves in a MSG flit of its own (R329). -/
theorem State.pump_alone (w : s.Wf) (hup : s.portUp p = true) (hq : (s.port p).txq = [m]) (hroom : (s.port p).unacked.length < 512)
    (hc : hlChannel m.op = 1 ∨ m.units ≤ (s.port p).credits.getD (hlChannel m.op) 0) : (s.pump p).outbox = s.outbox ++ s.sends p m := by
  have hgo := State.pumpOnce_alone hup (PortSt.nextMsg_alone hq hc) hroom
  have hnow : ((s.setPort p ((s.port p).sentAlone m)).emit (.hostlink p m.op m.tag m.addr m.status m.param m.data)).port p
      = (s.port p).sentAlone m := w.port_setPort_same p _
  have hdrop : ((s.port p).sentAlone m).unacked.drop (s.port p).unacked.length = [⟨(s.port p).txNext, 1, [m]⟩] := List.drop_left
  unfold State.pump
  dsimp only
  rw [hq, List.foldl_cons, List.foldl_nil, hgo]
  dsimp only
  rw [hnow, hdrop, List.foldl_cons, List.foldl_nil, State.sendHl_outbox, hnow]
  exact List.append_assoc ..

/-- A message on a port that is free for it leaves at once. -/
theorem State.hlSend_free (w : s.Wf) (h : s.FreeTo p) (hc : hlChannel m.op = 1 ∨ m.units ≤ (s.port p).credits.getD (hlChannel m.op) 0) :
    (s.hlSend p m).outbox = s.outbox ++ s.sends p m := by
  obtain ⟨hup, hq, hroom⟩ := h
  have hport := w.port_setPort_same p { s.port p with txq := (s.port p).txq ++ [m] }
  have hw : (s.setPort p { s.port p with txq := (s.port p).txq ++ [m] }).Wf := (Keeps.refl s).setPort.wf w
  refine (State.pump_alone (m := m) hw hup ?_ ?_ ?_).trans ?_
  · rw [hport, hq]; rfl
  · rw [hport]; exact hroom
  · rw [hport]; exact hc
  · rw [State.sends, State.sends, hport]; rfl

theorem State.FreeTo.answer (h : s.FreeTo p) (w : s.Wf) {op tag x status : Nat} {data : List Byte}
    (hc : (⟨op, tag, x, status, 0, data⟩ : HlMsg).units ≤ (s.port p).credits.getD (hlChannel op) 0) :
    (s.answer p op tag x status data).outbox = s.outbox ++ s.sends p ⟨op, tag, x, status, 0, data⟩ := by
  rw [State.answer, if_pos h.up]
  exact State.hlSend_free w h (.inr hc)

/-! ### What sending keeps -/

/-- Messages have been sent; the requests outstanding and the lines held are as before. -/
structure Sent (s t : State) : Prop where
  wf    : t.Wf
  ports : PortsOnly s t
  reqs  : ∀ q, (t.port q).reqs = (s.port q).reqs
  lines : ∀ q, (t.port q).lines = (s.port q).lines

namespace Sent

theorem refl (w : s.Wf) : Sent s s := ⟨w, .refl s, fun _ => rfl, fun _ => rfl⟩

theorem setPort (h : Sent s t) {v : PortSt} (hr : v.reqs = (t.port p).reqs) (hl : v.lines = (t.port p).lines) : Sent s (t.setPort p v) where
  wf := (Keeps.refl t).setPort.wf h.wf
  ports := h.ports.setPort ..
  reqs q := by
    rw [h.wf.port_setPort]
    split
    · next e => rw [e, hr, h.reqs]
    · exact h.reqs q
  lines q := by
    rw [h.wf.port_setPort]
    split
    · next e => rw [e, hl, h.lines]
    · exact h.lines q

theorem emit (h : Sent s t) (o : Out) : Sent s (t.emit o) := ⟨(Quiet.emit noReg t o).wf h.wf, h.ports.emit o, h.reqs, h.lines⟩

theorem pumpOnce {x : State × Nat} (h : Sent s x.1) : Sent s (State.pumpOnce p x).1 := by
  unfold State.pumpOnce
  extract_lets y v
  split
  · exact h
  · extract_lets +onlyGivenNames new
    split
    · exact h
    · extract_lets c x
      have hx : x.reqs = v.reqs ∧ x.lines = v.lines := by
        unfold x
        split <;> exact ⟨rfl, rfl⟩
      refine (Sent.setPort h ?_ ?_).emit _
      · exact hx.1
      · exact hx.2

theorem pump (h : Sent s t) (p : Nat) : Sent s (t.pump p) := by
  unfold State.pump
  extract_lets y
  have hy : Sent s y := List.foldlRecOn (motive := fun x : State × Nat => Sent s x.1) _ _ h fun _ h _ _ => h.pumpOnce
  exact List.foldlRecOn (motive := Sent s) _ _ hy fun _ h _ _ => (h.emit _).setPort rfl rfl

theorem hlSend (h : Sent s t) (p : Nat) (m : HlMsg) : Sent s (t.hlSend p m) :=
  (Sent.setPort (v := { t.port p with txq := (t.port p).txq ++ [m] }) h rfl rfl).pump p

end Sent

/-- A request joins those outstanding on its port. -/
structure Asked (p : Nat) (r : Req) (s t : State) : Prop where
  wf     : t.Wf
  ports  : PortsOnly s t
  reqs   : (t.port p).reqs = (s.port p).reqs ++ [r]
  others : ∀ q, q ≠ p → (t.port q).reqs = (s.port q).reqs
  lines  : ∀ q, (t.port q).lines = (s.port q).lines

/-- Port `p` notes a request with its next tag (R331). -/
def State.noteReq (s : State) (p op addr : Nat) (use : ReqUse) : State :=
  s.setPort p { s.port p with reqs := (s.port p).reqs ++ [{ tag := (s.port p).tagNext, op, addr, stale := false, use }]
                              tagNext := ((s.port p).tagNext + 1) % 2 ^ 16 }

theorem State.request_eq (s : State) (p op addr param : Nat) (use : ReqUse) (data : List Byte) : s.request p op addr param use data
    = (s.noteReq p op addr use).hlSend p ⟨op, (s.port p).tagNext, addr, 0, param, data⟩ := rfl

theorem State.request_spec (w : s.Wf) (p op addr param : Nat) (use : ReqUse) (data : List Byte) :
    Asked p ⟨(s.port p).tagNext, op, addr, false, use⟩ s (s.request p op addr param use data) := by
  have hw : (s.noteReq p op addr use).Wf := (Keeps.refl s).setPort.wf w
  have hsent := (Sent.refl hw).hlSend p ⟨op, (s.port p).tagNext, addr, 0, param, data⟩
  have hport : (s.noteReq p op addr use).port p = _ := w.port_setPort_same p _
  rw [State.request_eq]
  refine ⟨hsent.wf, ((PortsOnly.refl s).setPort ..).hlSend .., ?_, fun q hq => ?_, fun q => (hsent.lines q).trans ?_⟩
  · rw [hsent.reqs, hport]
  · rw [hsent.reqs]
    exact congrArg PortSt.reqs (w.port_setPort_ne hq _)
  · rw [State.noteReq, w.port_setPort]
    split
    · next e => rw [e]
    · rfl

/-- A request on a port that is free for it leaves at once. -/
theorem State.request_free (w : s.Wf) (h : s.FreeTo p) (op addr param : Nat) (use : ReqUse) (data : List Byte)
    (hc : hlChannel op = 1 ∨ 1 + data.length / 16 ≤ (s.port p).credits.getD (hlChannel op) 0) :
    (s.request p op addr param use data).outbox = s.outbox ++ s.sends p ⟨op, (s.port p).tagNext, addr, 0, param, data⟩ := by
  have hw : (s.noteReq p op addr use).Wf := (Keeps.refl s).setPort.wf w
  have hport : (s.noteReq p op addr use).port p = _ := w.port_setPort_same p _
  obtain ⟨hup, hq, hroom⟩ := h
  rw [State.request_eq, State.hlSend_free hw ⟨hup, by rw [hport]; exact hq, by rw [hport]; exact hroom⟩ (by rw [hport]; exact hc),
    State.sends, State.sends, hport]
  rfl

end Sys2Proof.Machine
end

section
/-! SUPPORT. The register accesses of a host and of a controller (Table 12.6, R335, R451), and the Flutter test (R166). -/

namespace Sys2Proof.Machine
open Sys2Proof

-- Proofs elaborated in threads of their own would pass the check's limit of memory.
set_option Elab.async false

variable {s t : State} {p a : Nat} {fs : List FieldDef} {b : Block} {m : Mc}

/-! ### Registers that a read does not clear -/

/-- Where an address decodes to a register, a read clears none of its fields. -/
def NoRc (x : Option (List FieldDef)) : Prop := ∀ fs, x = some fs → ∀ f ∈ fs, f.acc ≠ .rc

theorem NoRc.none : NoRc none := nofun

theorem NoRc.some (h : ∀ f ∈ fs, f.acc ≠ .rc) : NoRc (some fs) := fun _ e => Option.some.inj e ▸ h

theorem NoRc.ite {c : Prop} [Decidable c] {x y : Option (List FieldDef)} (hx : NoRc x) (hy : NoRc y) : NoRc (if c then x else y) := by
  split
  · exact hx
  · exact hy

/-- No field of the MC_, SEC_, PWR_ and BU_ registers clears on a read. -/
theorem loFields_noRc (a : Nat) : NoRc (loFields a) := by
  unfold loFields
  repeat refine .ite (.some (by decide)) ?_
  exact .none

theorem clearRc_of_noRc (h : ∀ f ∈ fs, f.acc ≠ .rc) (v r : Nat) : clearRc fs v r = r := by
  induction fs with
  | nil => rfl
  | cons f fs ih =>
    rw [clearRc, List.foldl_cons, if_neg (h f List.mem_cons_self)]
    exact ih fun x hx => h x (List.mem_cons_of_mem _ hx)

/-- The addresses of the blocks of Table 18.1 from the HL_ block on. -/
theorem blockOf_range (hb : blockOf a = some b) : (b = .hl ∨ b = .pf → a < 0x6_0000) ∧ (b = .mem → 0x10_0000 ≤ a ∧ a < 0x11_0000)
    ∧ (b = .core → coreBase ≤ a) := by
  unfold blockOf at hb
  split_ifs at hb <;> cases hb <;> simp <;> omega

/-- PORT_STAT, and what stands where a port beyond the last would have its own, has no field that clears on a read. -/
theorem regFields_noRc_of_key (hb : blockOf a = some b) (hf : regFields a = some fs) (hk : regKey m b a = rPortStat p) :
    ∀ f ∈ fs, f.acc ≠ .rc := by
  obtain ⟨hlow, hmem, hcore⟩ := blockOf_range hb
  rw [regFields, hb] at hf
  rw [regKey, rPortStat] at hk
  cases b with
  | mc => exact loFields_noRc a fs hf
  | sec => exact loFields_noRc a fs hf
  | pwr => exact loFields_noRc a fs hf
  | bu => exact loFields_noRc a fs hf
  | hl =>
    have := hlow (.inl rfl)
    rw [if_neg (by decide)] at hk
    omega
  | pf =>
    have := hlow (.inr rfl)
    rw [if_neg (by decide)] at hk
    omega
  | port =>
    rw [if_neg (by decide)] at hk
    have ho : a % 0x1000 = 8 := by omega
    simp only [ho] at hf
    cases hf
    decide
  | mem =>
    obtain ⟨h1, h2⟩ := hmem rfl
    rw [if_neg (by decide)] at hk
    have hnone : memFields a = none := by
      have hne (x : Nat) (hx : x % 0x1000 ≠ 8) : a ≠ x := by omega
      rw [memFields, if_neg (hne rMemHbm (by decide)), if_neg (hne rMemEcc (by decide)), if_neg (hne rMemDdr (by decide)),
        if_neg (hne rMemErr (by decide)), if_neg (hne rMemScrub (by decide)), if_neg (hne rMemChryStat (by decide)),
        if_neg (hne rMemChryRel (by decide))]
    exact absurd (hnone.symm.trans hf) nofun
  | core =>
    have := hcore rfl
    rw [if_neg (by decide)] at hk
    have ho : (a - coreBase) % 0x2000 = 8 ∨ (a - coreBase) % 0x2000 = 0x1008 := by
      simp only [coreBase] at this ⊢
      omega
    rcases ho with ho | ho
    · simp only [ho] at hf
      cases hf
      decide
    · simp only [ho] at hf
      cases hf

/-! ### Reads -/

theorem exec_regRd (hd : s.dark = false) (hu : s.portUp p = true) (hm : s.mode p = 2) (tag a : Nat) : exec (.regRd p tag a) s
    = .next ((s.regRead (portMc p) a).2.2.answer p opDData tag a (s.regRead (portMc p) a).1 (leBytes 16 (s.regRead (portMc p) a).2.1)) := by
  refine (next_of_live hd).trans ?_
  simp only [hu, hm, beq_self_eq_true, Bool.and_self, if_true]

theorem exec_regWr (hd : s.dark = false) (hu : s.portUp p = true) (hm : s.mode p = 2) (tag a : Nat) (v : W64) : exec (.regWr p tag a v) s
    = .next ((s.regWrite (portMc p) a v.toNat).2.answer p opDAck tag a (s.regWrite (portMc p) a v.toNat).1 []) := by
  refine (next_of_live hd).trans ?_
  simp only [hu, hm, beq_self_eq_true, Bool.and_self, if_true]

/-- A read of a register leaves the port that asks UP. -/
theorem State.portUp_read (w : s.Wf) (hb : blockOf a = some b) (hf : regFields a = some fs) (m : Mc) (p : Nat) :
    (s.setReg (regKey m b a) (regReadVal fs (s.reg (regKey m b a))).2).portUp p = s.portUp p := by
  rw [State.portUp, State.portState, State.portUp, State.portState, State.fld, State.fld]
  by_cases hk : regKey m b a = rPortStat p
  · rw [hk, regReadVal_kept, clearRc_of_noRc (regFields_noRc_of_key hb hf hk), State.reg_setReg_same w.regs _ (s.reg_lt _)]
  · rw [State.reg_setReg_ne w.regs (Ne.symm hk)]

/-- A change of registers that leaves the port UP leaves it free to send, and what it sends. -/
theorem State.FreeTo.onRegs {R : List Nat} (h : s.FreeTo p) (ht : OnRegs R s t) (hup : t.portUp p = s.portUp p) : t.FreeTo p := by
  have hp : t.port p = s.port p := by rw [ht.only.1]; rfl
  exact ⟨hup.trans h.up, by rw [hp]; exact h.empty, by rw [hp]; exact h.room⟩

/-- A register access is answered: with `t` its effect on the registers, the answer is the only message. -/
theorem State.FreeTo.answered {R : List Nat} (h : s.FreeTo p) (ht : OnRegs R s t) (hup : t.portUp p = s.portUp p) {op tag status : Nat}
    {data : List Byte} (hc : 1 + data.length / 16 ≤ (s.port p).credits.getD (hlChannel op) 0) :
    Mailed R s (t.answer p op tag a status data) ∧ (∀ r, (t.answer p op tag a status data).reg r = t.reg r)
      ∧ (t.answer p op tag a status data).outbox = s.outbox ++ s.sends p ⟨op, tag, a, status, 0, data⟩ := by
  have hp : t.port p = s.port p := by rw [ht.only.1]; rfl
  have hout : t.outbox = s.outbox := by rw [ht.only.1]
  have hports : PortsOnly t (t.answer p op tag a status data) := (PortsOnly.refl t).answer ..
  refine ⟨ht.mailed.trans (hports.mailed ((Keeps.refl t).answer.wf ht.wf)), hports.reg, ?_⟩
  rw [(h.onRegs ht hup).answer ht.wf (by rw [hp]; exact hc), hout, State.sends, State.sends, hp]

/-! ### Writes of a register with one field -/

/-- HL_CTRL and the window registers. -/
def windowReg (a : Nat) : Prop := a = rHlCtrl ∨ ∃ w < 8, a = rHlWinBase w ∨ a = rHlWinLimit w ∨ a = rHlWinAttr w

/-- HL_CTRL and each window register has one field, an RW one (Table 12.12, Table 12.13). -/
theorem regFields_windowReg (h : windowReg a) : blockOf a = some .hl ∧ ∃ lo w, lo + w ≤ 64 ∧ regFields a = some [⟨lo, w, .rw⟩] := by
  obtain rfl | ⟨w, hw, h⟩ := h
  · exact ⟨rfl, 0, 7, by decide, rfl⟩
  · have hbase : ∀ w < 8, blockOf (rHlWinBase w) = some .hl ∧ regFields (rHlWinBase w) = some [⟨6, 42, .rw⟩] := by decide
    have hlimit : ∀ w < 8, blockOf (rHlWinLimit w) = some .hl ∧ regFields (rHlWinLimit w) = some [⟨6, 42, .rw⟩] := by decide
    have hattr : ∀ w < 8, blockOf (rHlWinAttr w) = some .hl ∧ regFields (rHlWinAttr w) = some [⟨0, 2, .rw⟩] := by decide
    rcases h with rfl | rfl | rfl
    · exact ⟨(hbase w hw).1, 6, 42, by decide, (hbase w hw).2⟩
    · exact ⟨(hlimit w hw).1, 6, 42, by decide, (hlimit w hw).2⟩
    · exact ⟨(hattr w hw).1, 0, 2, by decide, (hattr w hw).2⟩

theorem State.hlWrite_windowReg (h : windowReg a) (fs : List FieldDef) (v : Nat) : s.hlWrite a fs v = s.plainWrite a fs v := by
  have hq : (a - 0x4_0000) / 0x20 < 0x80 ∧ a ≠ rHlEvqCfg ∧ a ≠ rHlEvqBase ∧ a ≠ rHlEvqHead := by
    simp only [windowReg, rHlCtrl, rHlWinBase, rHlWinLimit, rHlWinAttr] at h
    simp only [rHlEvqCfg, rHlEvqBase, rHlEvqHead]
    obtain rfl | ⟨w, hw, h⟩ := h <;> omega
  obtain ⟨hq, h1, h2, h3⟩ := hq
  rw [State.hlWrite, if_neg h1, if_neg (not_or.2 ⟨h2, h3⟩), if_neg (by omega), if_neg (by omega)]

/-- A write by the access codes, where no field locks. -/
theorem State.plainWrite_open (h : ∀ f ∈ fs, f.acc ≠ .rwl) (k v : Nat) :
    s.plainWrite k fs v = s.setReg k (regWriteVal fs (s.flocks.contains k) (s.reg k) v) := by
  have hno : fs.any (fun f => f.acc == .rwl) = false := by simpa using h
  rw [State.plainWrite, hno]
  rfl

theorem regWriteVal_rw (lo w : Nat) (b : Bool) (v x : Nat) : regWriteVal [⟨lo, w, .rw⟩] b v x = 2 ^ lo * bitsOf x lo w := Nat.zero_add _

theorem bitsOf_shifted (lo w k : Nat) (hk : k < 2 ^ w) : bitsOf (2 ^ lo * k) lo w = k := by
  rw [bitsOf, Nat.mul_div_cancel_left _ (Nat.two_pow_pos lo), Nat.mod_eq_of_lt hk]

/-- A served write of HL_CTRL or a window register sets its field. -/
theorem State.regWrite_windowReg (w : s.Wf) (h : windowReg a) (hc : s.accessCode m a = 0) (hf : regFields a = some fs) (v : Nat) :
    OnRegs [a] s (s.regWrite m a v).2 ∧ ∀ f ∈ fs, (s.regWrite m a v).2.fld a f.lo f.w = bitsOf v f.lo f.w := by
  obtain ⟨hb, lo, l, hl, hfs⟩ := regFields_windowReg h
  obtain rfl : fs = [⟨lo, l, .rw⟩] := Option.some.inj (hf.symm.trans hfs)
  have hwrite : (s.regWrite m a v).2 = s.setReg a (2 ^ lo * bitsOf v lo l) := by
    unfold State.regWrite
    simp only [hb, hfs, hc, ne_eq, not_true_eq_false, if_false]
    exact (State.hlWrite_windowReg h ..).trans ((State.plainWrite_open (by simp) ..).trans (by rw [regWriteVal_rw]))
  have hx := bitsOf_lt v lo l
  have hlt : 2 ^ lo * bitsOf v lo l < 2 ^ 64 :=
    calc 2 ^ lo * bitsOf v lo l < 2 ^ lo * 2 ^ l := Nat.mul_lt_mul_of_pos_left hx (Nat.two_pow_pos lo)
      _ = 2 ^ (lo + l) := (Nat.pow_add ..).symm
      _ ≤ 2 ^ 64 := Nat.pow_le_pow_right (by decide) hl
  rw [hwrite]
  refine ⟨(OnRegs.refl w _).setReg (by simp), fun f hf => ?_⟩
  obtain rfl := List.mem_singleton.1 hf
  rw [State.fld, State.reg_setReg_same w.regs _ hlt]
  exact bitsOf_shifted _ _ _ hx

/-! ### PF_DBG_STAT -/

/-- The fields of PF_DBG_STAT (Table 16.6). -/
def dbgStatFields : List FieldDef := [⟨0, 2, .ro⟩, ⟨2, 1, .w1c⟩, ⟨3, 12, .ro⟩, ⟨16, 12, .ro⟩]

/-- A write of PF_DBG_STAT clears FAIL where it names it, and nothing else. -/
theorem regWriteVal_dbgStat (b : Bool) (v x : Nat) : regWriteVal dbgStatFields b v x = bitsOf v 0 2
    + 2 ^ 2 * (if bitsOf x 2 1 = 1 then 0 else bitsOf v 2 1) + 2 ^ 3 * bitsOf v 3 12 + 2 ^ 16 * bitsOf v 16 12 := by
  have hv := bitsOf_lt v 2 1
  have hx := bitsOf_lt x 2 1
  simp only [dbgStatFields, regWriteVal, List.foldl_cons, List.foldl_nil, Nat.pow_zero, Nat.one_mul, Nat.zero_add]
  rcases (by omega : bitsOf v 2 1 = 0 ∨ bitsOf v 2 1 = 1) with e | e <;>
    rcases (by omega : bitsOf x 2 1 = 0 ∨ bitsOf x 2 1 = 1) with e' | e' <;> rw [e, e'] <;> rfl

theorem State.regWrite_dbgStat (hc : s.accessCode m rPfDbgStat = 0) (v : Nat) : (s.regWrite m rPfDbgStat v).2
    = s.setReg rPfDbgStat (regWriteVal dbgStatFields (s.flocks.contains rPfDbgStat) (s.reg rPfDbgStat) v) := by
  have hb : blockOf rPfDbgStat = some .pf := rfl
  have hf : regFields rPfDbgStat = some dbgStatFields := rfl
  unfold State.regWrite
  simp only [hb, hf, hc, ne_eq, not_true_eq_false, if_false]
  exact State.plainWrite_open (fs := dbgStatFields) (by decide) ..

theorem State.regWrite_dbgStat_spec (w : s.Wf) (hc : s.accessCode m rPfDbgStat = 0) (v : Nat) :
    regsOnly s (s.regWrite m rPfDbgStat v).2 [rPfDbgStat]
      ∧ (s.regWrite m rPfDbgStat v).2.fld rPfDbgStat 0 2 = s.fld rPfDbgStat 0 2
      ∧ (s.regWrite m rPfDbgStat v).2.fld rPfDbgStat 16 12 = s.fld rPfDbgStat 16 12
      ∧ (s.regWrite m rPfDbgStat v).2.fld rPfDbgStat 2 1 = if bitsOf v 2 1 = 1 then 0 else s.fld rPfDbgStat 2 1 := by
  rw [State.regWrite_dbgStat hc, regWriteVal_dbgStat]
  have h0 := bitsOf_lt (s.reg rPfDbgStat) 0 2
  have h2 : (if bitsOf v 2 1 = 1 then 0 else bitsOf (s.reg rPfDbgStat) 2 1) < 2 := by
    split
    · decide
    · exact bitsOf_lt _ 2 1
  have h3 := bitsOf_lt (s.reg rPfDbgStat) 3 12
  have h16 := bitsOf_lt (s.reg rPfDbgStat) 16 12
  refine ⟨s.setReg_regsOnly w _ _, ?_⟩
  simp only [State.fld]
  rw [State.reg_setReg_same w.regs _ (by omega)]
  generalize (if bitsOf v 2 1 = 1 then 0 else bitsOf (s.reg rPfDbgStat) 2 1) = x at h2 ⊢
  generalize bitsOf (s.reg rPfDbgStat) 0 2 = y0 at h0 ⊢
  generalize bitsOf (s.reg rPfDbgStat) 3 12 = y3 at h3 ⊢
  generalize bitsOf (s.reg rPfDbgStat) 16 12 = y16 at h16 ⊢
  simp only [bitsOf]
  omega

/-! ### The Flutter test -/

theorem State.flutterTest_spec (w : s.Wf) (n : Nat) :
    let w (o k : Nat) : W32 := BitVec.ofNat 32 (s.reg (rCore n o) / 2 ^ (32 * k))
    let r := Sys2Proof.Machine.flutter ⟨w oFltKeyLo 0, w oFltKeyLo 1, w oFltKeyHi 0, w oFltKeyHi 1⟩
      ⟨w oFltCtrLo 0, w oFltCtrLo 1, w oFltCtrHi 0, w oFltCtrHi 1⟩
    regsOnly s (s.flutterTest n) [rCore n oFltOutLo, rCore n oFltOutHi, rCore n oFltCtrl]
      ∧ (s.flutterTest n).reg (rCore n oFltOutLo) = r.w0.toNat + 2 ^ 32 * r.w1.toNat
      ∧ (s.flutterTest n).reg (rCore n oFltOutHi) = r.w2.toNat + 2 ^ 32 * r.w3.toNat ∧ (s.flutterTest n).cfld n oFltCtrl 1 1 = 1 := by
  extract_lets word r
  have hzero (o : Nat) : word o 0 = BitVec.ofNat 32 (s.reg (rCore n o)) := congrArg (BitVec.ofNat 32) (Nat.div_one _)
  have heq : s.flutterTest n = ((s.setReg (rCore n oFltOutLo) (r.w0.toNat + 2 ^ 32 * r.w1.toNat)).setReg (rCore n oFltOutHi)
      (r.w2.toNat + 2 ^ 32 * r.w3.toNat)).setCfld n oFltCtrl 1 1 1 := by
    simp only [r, hzero]
    rfl
  have hlow : r.w0.toNat + 2 ^ 32 * r.w1.toNat < 2 ^ 64 := by
    have h0 := r.w0.isLt
    have h1 := r.w1.isLt
    omega
  have hhigh : r.w2.toNat + 2 ^ 32 * r.w3.toNat < 2 ^ 64 := by
    have h2 := r.w2.isLt
    have h3 := r.w3.isLt
    omega
  have h1 : OnRegs [rCore n oFltOutLo, rCore n oFltOutHi, rCore n oFltCtrl] s
      (s.setReg (rCore n oFltOutLo) (r.w0.toNat + 2 ^ 32 * r.w1.toNat)) := (OnRegs.refl w _).setReg (by simp)
  have h2 := h1.setReg (a := rCore n oFltOutHi) (by simp) (x := r.w2.toNat + 2 ^ 32 * r.w3.toNat)
  rw [heq]
  refine ⟨(h2.setFld (a := rCore n oFltCtrl) (by simp)).only, ?_, ?_, State.cfld_setCfld_same h2.wf (by decide) ..⟩
  · rw [State.setCfld, State.setFld, State.reg_setReg_ne h2.wf.regs (rCore_ne (by decide) (by decide) (by decide) n n),
      State.reg_setReg_ne h1.wf.regs (rCore_ne (by decide) (by decide) (by decide) n n), State.reg_setReg_same w.regs _ hlow]
  · rw [State.setCfld, State.setFld, State.reg_setReg_ne h2.wf.regs (rCore_ne (by decide) (by decide) (by decide) n n),
      State.reg_setReg_same h1.wf.regs _ hhigh]

theorem exec_flutterTestGo (hd : s.dark = false) {n : Nat} (hw : s.windowsUp = true) (hm : s.mapped? n = true) (hr : s.running = false) :
    exec (.flutterTestGo n) s = .next (s.flutterTest n) := by
  refine (next_of_live hd).trans ?_
  simp only [hw, hm, hr, Bool.not_false, Bool.and_self, if_true]

/-- Settles O49: an access is refused, read or written by the access codes; PORT_STAT has no field that a read clears, so that the answer
leaves. -/
theorem registerAccess : Obligations.RegisterAccess := by
  unfold Obligations.RegisterAccess
  intro p tag a v m s w hd
  refine ⟨fun hu hmode hq hroom hcred => ?_, fun hc => ?_, fun hc ha => ?_, fun hc => ?_, fun n hn hwin hmap hrun => ?_⟩
  · intro code
    have hfree : s.FreeTo p := ⟨hu, hq, hroom⟩
    have hsame : OnRegs [] s s := OnRegs.refl w _
    have hdata (v : Nat) : 1 + (leBytes 16 v).length / 16 ≤ (s.port p).credits.getD (hlChannel opDData) 0 := by
      rw [length_leBytes]; exact hcred
    have hack : 1 + ([] : List Byte).length / 16 ≤ (s.port p).credits.getD (hlChannel opDAck) 0 := (Nat.le_succ 1).trans hcred
    simp only [exec_regRd hd hu hmode, exec_regWr hd hu hmode]
    refine ⟨fun hcode => ⟨⟨_, rfl, ?_⟩, ⟨_, rfl, ?_⟩⟩, fun b fs hcode hb hf hmap => ?_, fun fs hcode ha hf => ?_⟩
    · rw [State.regRead_refused hcode]
      obtain ⟨-, -, hout⟩ := hfree.answered hsame rfl (a := a) (tag := tag) (status := code) (hdata 0)
      exact ⟨(PortsOnly.refl s).answer .., hout⟩
    · rw [State.regWrite_refused hcode]
      obtain ⟨-, -, hout⟩ := hfree.answered hsame rfl (a := a) (tag := tag) (status := code) hack
      exact ⟨(PortsOnly.refl s).answer .., hout⟩
    · rw [State.regRead_served hcode hb hf hmap]
      have hlt : (regReadVal fs (s.reg (regKey (portMc p) b a))).2 < 2 ^ 64 := (clearRc_le ..).trans_lt (s.reg_lt _)
      have hread : OnRegs [regKey (portMc p) b a] s
          (s.setReg (regKey (portMc p) b a) (regReadVal fs (s.reg (regKey (portMc p) b a))).2) := (OnRegs.refl w _).setReg (by simp)
      obtain ⟨hmail, hreg, hout⟩ := hfree.answered hread (s.portUp_read w hb hf ..) (a := a) (tag := tag) (status := 0) (hdata _)
      exact ⟨_, rfl, hout, (hreg _).trans (State.reg_setReg_same w.regs _ hlt), hmail.only⟩
    · subst ha
      obtain ⟨hwrite, hfld⟩ := State.regWrite_windowReg w (.inl rfl) hcode hf v.toNat
      have hup : (s.regWrite (portMc p) rHlCtrl v.toNat).2.portUp p = s.portUp p := by
        rw [State.portUp, State.portState, hwrite.fld (by simp [rPortStat, rHlCtrl]; omega)]; rfl
      obtain ⟨hmail, hreg, hout⟩ := hfree.answered hwrite hup (a := rHlCtrl) (tag := tag) (status := 0) hack
      rw [State.regWrite_served hcode]
      refine ⟨_, rfl, hout, ?_, hmail.only⟩
      have hone : (⟨0, 7, .rw⟩ : FieldDef) ∈ fs := by
        obtain rfl : fs = [⟨0, 7, .rw⟩] := Option.some.inj (hf.symm.trans rfl)
        exact List.mem_singleton_self _
      rw [State.fld, hreg]
      exact hfld _ hone
  · rw [exec_registerWrite hd, State.regWrite_refused hc]
  · rw [exec_registerWrite hd]
    obtain ⟨-, lo, l, -, hfs⟩ := regFields_windowReg ha
    obtain ⟨hwrite, hfld⟩ := State.regWrite_windowReg w ha hc hfs v.toNat
    refine ⟨_, rfl, hwrite.only, fun fs f hf hmem _ => ?_⟩
    obtain rfl : fs = [⟨lo, l, .rw⟩] := Option.some.inj (hf.symm.trans hfs)
    exact hfld f hmem
  · rw [exec_registerWrite hd]
    exact ⟨_, rfl, State.regWrite_dbgStat_spec w hc v.toNat⟩
  · exact ⟨_, exec_flutterTestGo hd hwin hmap hrun, State.flutterTest_spec w n⟩

end Sys2Proof.Machine
end

section
/-! SUPPORT. The line table and the control lines of the queues (R330, R331, R334, Table 12.5). -/

namespace Sys2Proof.Machine
open Sys2Proof

-- Proofs elaborated in threads of their own would pass the check's limit of memory.
set_option Elab.async false

variable {s t u : State} {p q a : Nat} {l : Line}

/-! ### Changes of the line tables -/

/-- From `s` to `t` the line tables and the requests have changed, HL_SNP_STAT shows it, and messages have been sent. -/
structure LineOps (s t : State) : Prop where
  wf    : t.Wf
  frame : t = { s with regs := t.regs, ports := t.ports, outbox := t.outbox, free := t.free }
  regs  : ∀ r, r ≠ rHlSnpStat → t.reg r = s.reg r

namespace LineOps

theorem refl (w : s.Wf) : LineOps s s := ⟨w, rfl, fun _ _ => rfl⟩

theorem trans (h : LineOps s t) (k : LineOps t u) : LineOps s u :=
  ⟨k.wf, by rw [k.frame, h.frame], fun r hr => (k.regs r hr).trans (h.regs r hr)⟩

theorem mem (h : LineOps s t) : t.mem = s.mem := by rw [h.frame]
theorem cores (h : LineOps s t) : t.cores = s.cores := by rw [h.frame]
theorem hl (h : LineOps s t) : t.hl = s.hl := by rw [h.frame]

theorem fld (h : LineOps s t) {r : Nat} (hr : r ≠ rHlSnpStat) (lo n : Nat) : t.fld r lo n = s.fld r lo n := by
  rw [State.fld, h.regs r hr, State.fld]

theorem sq (h : LineOps s t) (q : Nat) : t.sq q = s.sq q := by rw [State.sq, h.hl]; rfl
theorem cq (h : LineOps s t) (q : Nat) : t.cq q = s.cq q := by rw [State.cq, h.hl]; rfl

theorem setPort (h : LineOps s t) (p : Nat) (v : PortSt) : LineOps s (t.setPort p v) :=
  h.trans ⟨(Keeps.refl t).setPort.wf h.wf, rfl, fun _ _ => rfl⟩

theorem setFld (h : LineOps s t) (lo n x : Nat) : LineOps s (t.setFld rHlSnpStat lo n x) :=
  h.trans ⟨(Keeps.refl t).setFld.wf h.wf, rfl, fun _ hr => State.reg_setReg_ne h.wf.regs hr _⟩

theorem draw (h : LineOps s t) : LineOps s t.draw.2 := h.trans ⟨(Keeps.refl t).draw.wf h.wf, rfl, fun _ _ => rfl⟩

end LineOps

theorem PortsOnly.lineOps (h : PortsOnly s t) (w : t.Wf) : LineOps s t where
  wf := w
  frame := by
    rw [PortsOnly] at h
    rw [h]
  regs r _ := h.reg r

theorem Asked.lineOps {r : Req} (h : Asked p r s t) : LineOps s t := h.ports.lineOps h.wf

theorem Sent.lineOps (h : Sent s t) : LineOps s t := h.ports.lineOps h.wf

theorem State.dropLine_lineOps (w : s.Wf) (p a : Nat) : LineOps s (s.dropLine p a) := ((LineOps.refl w).setPort ..).setFld ..

theorem State.putLine_lineOps (w : s.Wf) (p : Nat) (l : Line) : LineOps s (s.putLine p l) := ((LineOps.refl w).setPort ..).setFld ..

theorem State.snooped_lineOps (w : s.Wf) (p : Nat) : LineOps s (s.snooped p) := (((LineOps.refl w).draw.setFld ..).setFld ..)

/-! ### What the table then holds -/

theorem State.dropLine_port (w : s.Wf) (p a q : Nat) : (s.dropLine p a).port q
    = if q = p then { s.port p with lines := (s.port p).lines.filter (fun l => l.addr != a) } else s.port q := w.port_setPort p q _

theorem State.putLine_port (w : s.Wf) (p : Nat) (l : Line) (q : Nat) : (s.putLine p l).port q
    = if q = p then { s.port p with lines := (s.port p).lines.filter (fun x => x.addr != l.addr) ++ [l] } else s.port q := w.port_setPort p q _

theorem line?_of_lines {v x : PortSt} (h : v.lines = x.lines) (a : Nat) : v.line? a = x.line? a := by rw [PortSt.line?, PortSt.line?, h]

theorem State.line?_dropLine (w : s.Wf) (p a : Nat) : ((s.dropLine p a).port p).line? a = none := by
  rw [State.dropLine_port w, if_pos rfl, PortSt.line?]
  simp

theorem State.line?_putLine (w : s.Wf) (p : Nat) (l : Line) : ((s.putLine p l).port p).line? l.addr = some l := by
  have hother : ((s.port p).lines.filter (fun x => x.addr != l.addr)).find? (fun x => x.addr == l.addr) = none := by simp
  rw [State.putLine_port w, if_pos rfl, PortSt.line?]
  simp [List.find?_append, hother]

theorem PortSt.line?_addr {v : PortSt} (h : v.line? a = some l) : l.addr = a := by
  have := List.find?_some h
  simpa using this

/-! ### Reading a line -/

theorem State.readLine_lineOps (w : s.Wf) (p op a : Nat) (use : LineUse) : LineOps s (s.readLine p op a use) := by
  unfold State.readLine
  split
  · exact .refl w
  · exact (State.request_spec w ..).lineOps

theorem State.readLine_lines (w : s.Wf) (p op a : Nat) (use : LineUse) (q : Nat) : ((s.readLine p op a use).port q).lines = (s.port q).lines := by
  unfold State.readLine
  split
  · rfl
  · exact (State.request_spec w ..).lines q

theorem State.readLine_reqs (w : s.Wf) (p op a : Nat) (use : LineUse) : (s.port p).reqs <+: ((s.readLine p op a use).port p).reqs := by
  unfold State.readLine
  split
  · exact List.prefix_rfl
  · exact ⟨_, (State.request_spec w ..).reqs.symm⟩

theorem State.readLine_new (w : s.Wf) {op : Nat} (hno : ∀ r ∈ (s.port p).reqs, lineReq r a = false) (use : LineUse) :
    ∃ r ∈ ((s.readLine p op a use).port p).reqs, r.op = op ∧ r.addr = a ∧ r.use = .line use := by
  have hany : ¬ (s.port p).reqs.any (fun r => lineReq r a) = true := by simpa using hno
  rw [State.readLine, if_neg hany, (State.request_spec w ..).reqs]
  exact ⟨_, List.mem_append_right _ (List.mem_singleton_self _), rfl, rfl, rfl⟩

theorem State.readLine_asked (w : s.Wf) {op : Nat} (hop : op = opRdShared ∨ op = opRdHeld) (p a : Nat) (use : LineUse) :
    ∃ r ∈ ((s.readLine p op a use).port p).reqs, lineReq r a = true := by
  by_cases hany : (s.port p).reqs.any (fun r => lineReq r a) = true
  · rw [State.readLine, if_pos hany]
    exact List.any_eq_true.1 hany
  · obtain ⟨r, hr, h1, h2, -⟩ := State.readLine_new (op := op) w (by simpa using hany) use
    refine ⟨r, hr, ?_⟩
    rcases hop with rfl | rfl <;> simp [lineReq, h1, h2]

/-! ### Answering a snoop -/

/-- Of port `p` only lines and the state of requests have changed, and nothing has been sent. -/
structure Relined (p : Nat) (s t : State) : Prop where
  ops    : LineOps s t
  port   : t.port p = { s.port p with reqs := (t.port p).reqs, lines := (t.port p).lines }
  outbox : t.outbox = s.outbox

theorem rPortStat_ne_snpStat (p : Nat) : rPortStat p ≠ rHlSnpStat := by
  simp only [rPortStat, rHlSnpStat]
  omega

theorem Relined.free (h : Relined p s t) (hf : s.FreeTo p) : t.FreeTo p := by
  obtain ⟨hup, hq, hroom⟩ := hf
  refine ⟨?_, by rw [h.port]; exact hq, by rw [h.port]; exact hroom⟩
  rw [State.portUp, State.portState, h.ops.fld (rPortStat_ne_snpStat p)]
  exact hup

/-- The answer to a snoop needs no credit and leaves at once (R328). -/
theorem Relined.respond (h : Relined p s t) (hf : s.FreeTo p) {op : Nat} (hop : hlChannel op = 1) (tag a : Nat) (data : List Byte) :
    (t.respond p op tag a data).outbox = s.outbox ++ s.sends p ⟨op, tag, a, 0, 0, data⟩ := by
  refine (State.hlSend_free h.ops.wf (h.free hf) (.inl hop)).trans ?_
  rw [h.outbox, State.sends, State.sends, h.port]
  rfl

theorem State.snooped_relined (w : s.Wf) (p : Nat) : Relined p s (s.snooped p) := ⟨s.snooped_lineOps w p, rfl, rfl⟩

theorem Relined.dropLine (h : Relined p s t) (a : Nat) : Relined p s (t.dropLine p a) where
  ops := h.ops.trans (State.dropLine_lineOps h.ops.wf p a)
  port := by rw [State.dropLine_port h.ops.wf, if_pos rfl, h.port]
  outbox := h.outbox

theorem Relined.putLine (h : Relined p s t) (l : Line) : Relined p s (t.putLine p l) where
  ops := h.ops.trans (State.putLine_lineOps h.ops.wf p l)
  port := by rw [State.putLine_port h.ops.wf, if_pos rfl, h.port]
  outbox := h.outbox

theorem State.markStale_port (w : s.Wf) (p a : Nat) : (s.markStale p a).port p
    = { s.port p with reqs := (s.port p).reqs.map (fun r => if lineReq r a then { r with stale := true } else r) } := w.port_setPort_same p _

theorem Relined.markStale (h : Relined p s t) (a : Nat) : Relined p s (t.markStale p a) where
  ops := h.ops.setPort ..
  port := by rw [State.markStale_port h.ops.wf, h.port]
  outbox := h.outbox

theorem State.respond_sent (w : s.Wf) (p op tag a : Nat) (data : List Byte) : Sent s (s.respond p op tag a data) := (Sent.refl w).hlSend ..

/-- A snoop is counted (HL_SNP_STAT.COUNT). -/
theorem State.snooped_count (w : s.Wf) (p : Nat) : (s.snooped p).fld rHlSnpStat 0 32 = min (2 ^ 32 - 1) (s.fld rHlSnpStat 0 32 + 1) := by
  have hd : s.draw.2.Wf := ((LineOps.refl w).draw).wf
  have hc : (s.draw.2.addFld rHlSnpStat 0 32 1).Wf := (((LineOps.refl w).draw).setFld ..).wf
  exact (State.fld_setFld_disjoint hc.regs (by decide) (by decide) ..).trans (State.fld_addFld_same hd.regs (by decide) ..)

/-- A snoop of a line that the table does not hold (Table 12.5). -/
def State.snpMiss (s : State) (p tag a : Nat) : State := ((s.snooped p).markStale p a).respond p opRspI tag a []

theorem State.snpMiss_spec (w : s.Wf) (hf : s.FreeTo p) (tag a : Nat) :
    (s.snpMiss p tag a).outbox = s.outbox ++ s.sends p ⟨opRspI, tag, a, 0, 0, []⟩
      ∧ (∀ r ∈ ((s.snpMiss p tag a).port p).reqs, r.addr = a → r.op = opRdShared ∨ r.op = opRdHeld → r.stale = true)
      ∧ (s.snpMiss p tag a).fld rHlSnpStat 0 32 = min (2 ^ 32 - 1) (s.fld rHlSnpStat 0 32 + 1) ∧ LineOps s (s.snpMiss p tag a) := by
  have hsnoop := State.snooped_relined w p
  have hmark := hsnoop.markStale a
  have hsent := State.respond_sent hmark.ops.wf p opRspI tag a []
  refine ⟨hmark.respond hf rfl tag a [], fun r hr haddr hop => ?_, ?_, hmark.ops.trans hsent.lineOps⟩
  · rw [State.snpMiss, hsent.reqs, State.markStale_port hsnoop.ops.wf] at hr
    obtain ⟨x, -, rfl⟩ := List.mem_map.1 hr
    by_cases hx : lineReq x a = true
    · rw [if_pos hx]
    · rw [if_neg hx] at haddr hop
      exact absurd (by rcases hop with h | h <;> simp [lineReq, haddr, h]) hx
  · exact (hsent.ports.fld ..).trans (State.snooped_count w p)

/-- A snoop of a line that the table holds, before the engine reads it again: SNP_INV gives it up. -/
def State.snpGive (s : State) (p tag a : Nat) (l : Line) : State :=
  ((s.snooped p).dropLine p a).respond p (if l.held = true then opRspID else opRspI) tag a (if l.held = true then l.data else [])

theorem State.snpGive_spec (w : s.Wf) (hf : s.FreeTo p) (tag a : Nat) (l : Line) :
    (s.snpGive p tag a l).outbox = s.outbox ++ s.sends p ⟨if l.held = true then opRspID else opRspI, tag, a, 0, 0, if l.held = true then l.data else []⟩
      ∧ ((s.snpGive p tag a l).port p).line? a = none ∧ ((s.snpGive p tag a l).port p).reqs = (s.port p).reqs
      ∧ LineOps s (s.snpGive p tag a l) := by
  have hsnoop := State.snooped_relined w p
  have hdrop := hsnoop.dropLine a
  have hsent := State.respond_sent hdrop.ops.wf p (if l.held = true then opRspID else opRspI) tag a (if l.held = true then l.data else [])
  refine ⟨hdrop.respond hf (by split <;> rfl) .., ?_, ?_, hdrop.ops.trans hsent.lineOps⟩
  · exact (line?_of_lines (hsent.lines p) a).trans (State.line?_dropLine hsnoop.ops.wf p a)
  · exact (hsent.reqs p).trans (by rw [State.dropLine_port hsnoop.ops.wf, if_pos rfl]; rfl)

theorem State.snpInv_miss (h : (s.port p).line? a = none) (tag : Nat) : s.snpInv p tag a = s.snpMiss p tag a := by
  rw [State.snpInv, h]
  rfl

theorem State.snpInv_hit (h : (s.port p).line? a = some l) (tag : Nat) : s.snpInv p tag a
    = if l.use.rings && !((s.snpGive p tag a l).port p).givesUp a then (s.snpGive p tag a l).readLine p opRdShared a l.use
      else s.snpGive p tag a l := by
  rw [State.snpInv, h]
  dsimp only
  unfold State.snpGive
  cases l.held <;> rfl

theorem State.snpData_miss (h : (s.port p).line? a = none) (tag : Nat) : s.snpData p tag a = s.snpMiss p tag a := by
  rw [State.snpData, h]
  rfl

/-- A SNP_DATA leaves the line Shared; a Held one goes with its bytes. -/
theorem State.snpData_hit (w : s.Wf) (hf : s.FreeTo p) (h : (s.port p).line? a = some l) (tag : Nat) :
    ((s.snpData p tag a).port p).line? a = some { l with held := false }
      ∧ (s.snpData p tag a).outbox = s.outbox
          ++ s.sends p ⟨if l.held = true then opRspSD else opRspS, tag, a, 0, 0, if l.held = true then l.data else []⟩
      ∧ LineOps s (s.snpData p tag a) := by
  have hsnoop := State.snooped_relined w p
  obtain rfl := PortSt.line?_addr h
  rw [State.snpData, h]
  dsimp only
  cases hheld : l.held
  · have hsent := State.respond_sent hsnoop.ops.wf p opRspS tag l.addr []
    have hline : some { l with held := false } = (s.port p).line? l.addr := by rw [h, ← hheld]
    exact ⟨(line?_of_lines (hsent.lines p) _).trans hline.symm, hsnoop.respond hf rfl .., hsnoop.ops.trans hsent.lineOps⟩
  · have hput := hsnoop.putLine { l with held := false }
    have hsent := State.respond_sent hput.ops.wf p opRspSD tag l.addr l.data
    exact ⟨(line?_of_lines (hsent.lines p) _).trans (State.line?_putLine hsnoop.ops.wf p { l with held := false }), hput.respond hf rfl ..,
      hput.ops.trans hsent.lineOps⟩

theorem exec_snpInv (hd : s.dark = false) (hu : s.portUp p = true) (hm : s.mode p = 2) (tag a : Nat) :
    exec (.snpInv p tag a) s = .next (s.snpInv p tag a) := by
  refine (next_of_live hd).trans ?_
  simp only [hu, hm, beq_self_eq_true, Bool.and_self, if_true]

theorem exec_snpData (hd : s.dark = false) (hu : s.portUp p = true) (hm : s.mode p = 2) (tag a : Nat) :
    exec (.snpData p tag a) s = .next (s.snpData p tag a) := by
  refine (next_of_live hd).trans ?_
  simp only [hu, hm, beq_self_eq_true, Bool.and_self, if_true]

theorem PortSt.givesUp_of_reqs {v x : PortSt} (h : v.reqs = x.reqs) (a : Nat) : v.givesUp a = x.givesUp a := by
  rw [PortSt.givesUp, PortSt.givesUp, h]

end Sys2Proof.Machine
end

section
/-! SUPPORT. The host's answers (R331, R333): lines, descriptors and records. -/

namespace Sys2Proof.Machine
open Sys2Proof

-- Proofs elaborated in threads of their own would pass the check's limit of memory.
set_option Elab.async false

variable {s t u : State} {p q i a c tag : Nat} {r : Req}

/-! ### Queues -/

theorem State.sq_setSq (w : s.Wf) (q k : Nat) (v : SqSt) : (s.setSq q v).sq k = if k = q then v else s.sq k :=
  mapGet_mapSet w.sqs.1 _ _ _

theorem State.cq_setCq (w : s.Wf) (q k : Nat) (v : CqSt) : (s.setCq q v).cq k = if k = q then v else s.cq k :=
  mapGet_mapSet w.cqs.1 _ _ _

theorem State.sq_setSq_same (w : s.Wf) (q : Nat) (v : SqSt) : (s.setSq q v).sq q = v := (State.sq_setSq w q q v).trans (if_pos rfl)

theorem State.cq_setCq_same (w : s.Wf) (q : Nat) (v : CqSt) : (s.setCq q v).cq q = v := (State.cq_setCq w q q v).trans (if_pos rfl)

theorem State.Wf.setSq (w : s.Wf) (q : Nat) (v : SqSt) : (s.setSq q v).Wf := (Keeps.refl s).setSq.wf w

theorem State.Wf.setCq (w : s.Wf) (q : Nat) (v : CqSt) : (s.setCq q v).Wf := (Keeps.refl s).setCq.wf w

/-! ### The report line -/

theorem State.evict_lineOps (w : s.Wf) (p a : Nat) : LineOps s (s.evict p a) := by
  unfold State.evict
  split
  · split
    · exact .refl w
    · exact (State.request_spec w ..).lineOps
  · exact .refl w

theorem State.restReport_lineOps (w : s.Wf) (q : Nat) : LineOps s (s.restReport q) := by
  unfold State.restReport
  split
  · split
    · exact State.evict_lineOps w ..
    · exact .refl w
  · exact .refl w

theorem State.report_lineOps (w : s.Wf) (q : Nat) : LineOps s (s.report q) := by
  unfold State.report
  split
  · exact .refl w
  · next p _ =>
    extract_lets a x
    split
    · exact .refl w
    · have hx : LineOps s x := by
        unfold x
        split
        · split
          · exact State.putLine_lineOps w ..
          · have hdrop := State.dropLine_lineOps w p a
            exact hdrop.trans (State.readLine_lineOps hdrop.wf ..)
        · exact State.readLine_lineOps w ..
      exact hx.trans (State.restReport_lineOps hx.wf q)

/-! ### The answered request leaves -/

/-- The host has answered request `r` of port `p` (R331). -/
def State.takeReq (s : State) (p : Nat) (r : Req) : State := s.setPort p { s.port p with reqs := (s.port p).reqs.erase r }

theorem State.takeReq_lineOps (w : s.Wf) (p : Nat) (r : Req) : LineOps s (s.takeReq p r) := (LineOps.refl w).setPort ..

theorem State.takeReq_port (w : s.Wf) (p : Nat) (r : Req) : (s.takeReq p r).port p = { s.port p with reqs := (s.port p).reqs.erase r } :=
  w.port_setPort_same p _

theorem exec_hData (hd : s.dark = false) (hu : s.portUp p = true) (hm : s.mode p = 2)
    (hr : (s.port p).reqs.find? (fun r => r.tag == tag) = some r) (param status : Nat) (data : List Byte) :
    exec (.hData p tag param status data) s = .next (match r.use with
      | .line u => (s.takeReq p r).lineArrives p r u param data
      | .desc q i => (s.takeReq p r).descArrives q i status data
      | _ => s.takeReq p r) := by
  refine (next_of_live hd).trans ?_
  simp only [hu, hm, beq_self_eq_true, Bool.and_self, Bool.not_true, Bool.false_eq_true, if_false, hr]
  rfl

theorem exec_hAck (hd : s.dark = false) (hu : s.portUp p = true) (hm : s.mode p = 2)
    (hr : (s.port p).reqs.find? (fun r => r.tag == tag) = some r) (status : Nat) : exec (.hAck p tag status) s = .next (match r.use with
      | .record c => ((s.takeReq p r).setCq c { (s.takeReq p r).cq c with unacked := ((s.takeReq p r).cq c).unacked - 1 }).wake c
      | .giveUp u => ((s.takeReq p r).dropLine p r.addr).rearm p r.addr u
      | .copyOut q i => (s.takeReq p r).copyAcked q i status
      | .stepRec c step => (((s.takeReq p r).setCq c { (s.takeReq p r).cq c with unacked := ((s.takeReq p r).cq c).unacked - 1 }).wake c).stepAcked step
      | _ => s.takeReq p r) := by
  refine (next_of_live hd).trans ?_
  simp only [hu, hm, beq_self_eq_true, Bool.and_self, Bool.not_true, Bool.false_eq_true, if_false, hr]
  rfl

/-- An answer to no request is ignored. -/
theorem exec_unasked (hd : s.dark = false) (hr : (s.port p).reqs.find? (fun r => r.tag == tag) = none) (param status : Nat) (data : List Byte) :
    exec (.hData p tag param status data) s = .next s ∧ exec (.hAck p tag status) s = .next s := by
  constructor <;> refine (next_of_live hd).trans ?_ <;> simp only [hr, ite_self]

/-! ### A doorbell read -/

theorem growTo_mod (old : Nat) {v : Nat} (hv : v < 2 ^ 32) : growTo old v % 2 ^ 32 = v := by
  rw [growTo]
  omega

theorem le_growTo (old v : Nat) : old ≤ growTo old v := Nat.le_add_right ..

/-- A doorbell enters the table Shared and its TAIL counts on to the value read (R333). -/
theorem State.doorbellRead (w : s.Wf) (hs : r.stale = false) (p q : Nat) (data : List Byte) :
    ((s.lineArrives p r (.doorbell q) 1 data).port p).line? r.addr = some ⟨r.addr, false, .doorbell q, data⟩
      ∧ (s.lineArrives p r (.doorbell q) 1 data).sq q = { s.sq q with tail := growTo (s.sq q).tail (fieldLe data 0 4) }
      ∧ ((s.lineArrives p r (.doorbell q) 1 data).port p).reqs = (s.port p).reqs
      ∧ (∀ x, x ≠ rHlSnpStat → (s.lineArrives p r (.doorbell q) 1 data).reg x = s.reg x)
      ∧ (s.lineArrives p r (.doorbell q) 1 data).mem = s.mem ∧ (s.lineArrives p r (.doorbell q) 1 data).cores = s.cores := by
  have hw := w.setSq q { s.sq q with tail := growTo (s.sq q).tail (fieldLe data 0 4) }
  have heq : s.lineArrives p r (.doorbell q) 1 data = (s.setSq q { s.sq q with tail := growTo (s.sq q).tail (fieldLe data 0 4) }).putLine p
      ⟨r.addr, false, .doorbell q, data⟩ := by
    unfold State.lineArrives
    rw [hs]
    rfl
  have hput := State.putLine_lineOps hw p ⟨r.addr, false, .doorbell q, data⟩
  rw [heq]
  refine ⟨State.line?_putLine hw p _, (hput.sq q).trans (State.sq_setSq_same w ..), ?_, fun x hx => hput.regs x hx, hput.mem, hput.cores⟩
  rw [State.putLine_port hw, if_pos rfl]
  rfl

/-! ### A descriptor read -/

/-- The outcome with which a descriptor arrives: none unless the host failed or its type is none of Table 12.8. -/
def arrivalOutcome (status : Nat) (data : List Byte) : Option (Nat × Nat × Bool) :=
  if status ≠ 0 then some (cHostError, 0, false) else if 8 ≤ fieldLe data 0 1 then some (cDescMalformed, 0, false) else none

theorem State.descArrives_spec (w : s.Wf) (hno : s.desc? q i = none) (status : Nat) (data : List Byte) :
    ∃ d, (s.descArrives q i status data).desc? q i = some d ∧ d.bytes = slice data 0 64 ∧ d.done = arrivalOutcome status data
      ∧ ((s.descArrives q i status data).sq q).fetched = (s.sq q).fetched + 1
      ∧ (s.descArrives q i status data).mem = s.mem ∧ (s.descArrives q i status data).cores = s.cores := by
  unfold State.descArrives
  extract_lets v d
  have hw := w.setSq q { v with descs := v.descs ++ [d], pend := v.pend.filter (· != i), fetched := v.fetched + 1 }
  have hrep := State.report_lineOps hw q
  have hsq := (hrep.sq q).trans (State.sq_setSq_same w q _)
  refine ⟨d, ?_, rfl, rfl, by rw [hsq], hrep.mem, hrep.cores⟩
  rw [State.desc?] at hno
  rw [State.desc?, hsq]
  simp [List.find?_append, v, hno, d]

/-! ### Acknowledged records and lines given up -/

theorem PortsOnly.hl (h : PortsOnly s t) : t.hl = s.hl := by rw [h]

/-- A WAKE, where one is due, leaves as a request. -/
theorem State.wake_spec (w : s.Wf) (c : Nat) : ((s.wake c).cq c).unacked = (s.cq c).unacked ∧ (s.wake c).mem = s.mem
    ∧ (s.wake c).cores = s.cores ∧ (s.wake c).regs = s.regs := by
  unfold State.wake
  extract_lets v count
  split
  · split
    · next p _ =>
      have hports := (State.request_spec (w.setCq c { v with since := 0, oldest := none, wakeDue := false }) p opWake (s.fld (rHlCqWake c) 0 16) 0
        (.wake c) []).ports
      refine ⟨?_, hports.mem, hports.cores, hports.regs⟩
      rw [State.cq, hports.hl]
      exact (congrArg CqSt.unacked (State.cq_setCq_same w c { v with since := 0, oldest := none, wakeDue := false })).trans rfl
    · exact ⟨rfl, rfl, rfl, rfl⟩
  · exact ⟨rfl, rfl, rfl, rfl⟩

/-- A line that has been given up is read again, or not. -/
theorem State.rearm_cases (s : State) (p a : Nat) (u : LineUse) : s.rearm p a u = s
    ∨ ∃ op, (op = opRdShared ∨ op = opRdHeld) ∧ s.rearm p a u = s.readLine p op a u := by
  unfold State.rearm
  split <;> split
  · exact .inr ⟨_, .inl rfl, rfl⟩
  · exact .inl rfl
  · exact .inr ⟨_, .inr rfl, rfl⟩
  · exact .inl rfl
  · exact .inr ⟨_, .inl rfl, rfl⟩
  · exact .inl rfl
  · exact .inr ⟨_, .inl rfl, rfl⟩
  · exact .inl rfl

theorem State.rearm_spec (w : s.Wf) (p a : Nat) (u : LineUse) : LineOps s (s.rearm p a u)
    ∧ ((s.rearm p a u).port p).lines = (s.port p).lines ∧ (s.port p).reqs <+: ((s.rearm p a u).port p).reqs := by
  rcases s.rearm_cases p a u with e | ⟨op, -, e⟩ <;> rw [e]
  · exact ⟨.refl w, rfl, List.prefix_rfl⟩
  · exact ⟨State.readLine_lineOps w .., State.readLine_lines w .., State.readLine_reqs w ..⟩

/-- The registers of a queue are none of HL_SNP_STAT. -/
theorem rHlSq_ne_snpStat (q : Nat) : rHlSqCfg q ≠ rHlSnpStat ∧ rHlSqDb q ≠ rHlSnpStat := by
  simp only [rHlSqCfg, rHlSqDb, rHlSnpStat]
  omega

theorem LineOps.sqOn (h : LineOps s t) (q : Nat) : t.sqOn q = s.sqOn q := by rw [State.sqOn, h.fld (rHlSq_ne_snpStat q).1]; rfl

theorem LineOps.hlPorts (h : LineOps s t) : t.hlPorts = s.hlPorts := by
  refine List.filter_congr fun p _ => ?_
  rw [State.mode, h.fld (by simp only [rPortMode, rHlSnpStat]; omega)]
  rfl

theorem LineOps.sqPort (h : LineOps s t) (q : Nat) : t.sqPort q = s.sqPort q := by
  rw [State.sqPort, State.hlPort, h.hlPorts, h.fld (rHlSq_ne_snpStat q).1]
  rfl

/-- A doorbell line that has been given up is read again just where its queue is on and the line is still its own. -/
theorem State.rearm_doorbell (s : State) (p a q : Nat) : s.rearm p a (.doorbell q)
    = if s.sqOn q && s.sqPort q == some p && s.reg (rHlSqDb q) == a then s.readLine p opRdShared a (.doorbell q) else s := rfl

/-- Settles O48: a snoop, a line or descriptor read, and an acknowledgement, each by the rules of the line table. -/
theorem snoopsAndAnswers : Obligations.SnoopsAndAnswers := by
  unfold Obligations.SnoopsAndAnswers
  intro p tag a s w hd hu hm
  refine ⟨fun c hc hq hroom hline => ?_, fun l hline hq hroom => ⟨fun hno => ?_, fun hrings hgives hreqs => ?_, ?_⟩,
    fun r data hr => ⟨fun q huse hstale => ?_, fun q i status huse hdesc => ?_, fun status u huse => ?_, fun c status huse => ?_⟩,
    fun hr param status data => exec_unasked hd hr param status data⟩
  · have hexec : exec c s = .next (s.snpMiss p tag a) := by
      rcases List.mem_pair.1 hc with rfl | rfl
      · rw [exec_snpInv hd hu hm, State.snpInv_miss hline]
      · rw [exec_snpData hd hu hm, State.snpData_miss hline]
    obtain ⟨hout, hstale, hcount, hops⟩ := State.snpMiss_spec w ⟨hu, hq, hroom⟩ tag a
    exact ⟨_, hexec, hout, hstale, hcount, hops.regs, hops.mem, hops.cores⟩
  · obtain ⟨hout, hnone, hreqs, hops⟩ := State.snpGive_spec w ⟨hu, hq, hroom⟩ tag a l
    have hstay : ¬ (l.use.rings && !((s.snpGive p tag a l).port p).givesUp a) = true := by
      rw [PortSt.givesUp_of_reqs hreqs]
      rcases hno with h | h <;> simp [h]
    exact ⟨_, by rw [exec_snpInv hd hu hm, State.snpInv_hit hline, if_neg hstay], hnone, hout, hops.mem, hops.cores⟩
  · obtain ⟨-, hnone, hkept, hops⟩ := State.snpGive_spec w ⟨hu, hq, hroom⟩ tag a l
    have hring : (l.use.rings && !((s.snpGive p tag a l).port p).givesUp a) = true := by
      rw [PortSt.givesUp_of_reqs hkept, hrings, hgives]
      rfl
    have hread := State.readLine_lineOps hops.wf p opRdShared a l.use
    refine ⟨_, by rw [exec_snpInv hd hu hm, State.snpInv_hit hline, if_pos hring], ?_, hread.mem.trans hops.mem, hread.cores.trans hops.cores,
      State.readLine_new hops.wf (by rwa [hkept]) l.use⟩
    exact (line?_of_lines (State.readLine_lines hops.wf ..) a).trans hnone
  · obtain ⟨hheld, hout, hops⟩ := State.snpData_hit w ⟨hu, hq, hroom⟩ hline tag
    exact ⟨_, exec_snpData hd hu hm tag a, hheld, hout, hops.mem, hops.cores⟩
  · have hops := State.takeReq_lineOps w p r
    obtain ⟨hl, hsq, hreqs, hregs, hmem, hcores⟩ := State.doorbellRead hops.wf hstale p q data
    rw [hops.sq] at hsq
    refine ⟨_, by rw [exec_hData hd hu hm hr, huse], hl, ?_, ?_, hreqs.trans (by rw [State.takeReq_port w]), fun x hx => (hregs x hx).trans (hops.regs x hx),
      hmem, hcores⟩
    · rw [hsq]; exact growTo_mod _ (fieldLe_lt data 0 4)
    · rw [hsq]; exact le_growTo ..
  · have hops := State.takeReq_lineOps w p r
    obtain ⟨d, hd', hbytes, hdone, hfetched, hmem, hcores⟩ := State.descArrives_spec hops.wf (q := q) (i := i) hdesc status data
    refine ⟨_, d, by rw [exec_hData hd hu hm hr, huse], hd', hbytes, hfetched, fun h0 h8 => ?_, fun h0 => ?_, fun h0 h8 => ?_, hmem, hcores⟩
    · rw [hdone, arrivalOutcome, if_neg (not_not.2 h0), if_neg (Nat.not_le.2 h8)]
    · rw [hdone, arrivalOutcome, if_pos h0]
    · rw [hdone, arrivalOutcome, if_neg (not_not.2 h0), if_pos h8]
  · have hops := State.takeReq_lineOps w p r
    have hdrop := State.dropLine_lineOps hops.wf p r.addr
    obtain ⟨hrearm, hlines, hreqs⟩ := State.rearm_spec hdrop.wf p r.addr u
    have hkept : (((s.takeReq p r).dropLine p r.addr).port p).reqs = (s.port p).reqs.erase r := by
      rw [State.dropLine_port hops.wf, if_pos rfl, State.takeReq_port w]
    have hall := hops.trans hdrop
    refine ⟨_, by rw [exec_hAck hd hu hm hr, huse], (line?_of_lines hlines r.addr).trans (State.line?_dropLine hops.wf ..), hkept ▸ hreqs,
      (hall.trans hrearm).mem, (hall.trans hrearm).cores, fun q hq hoff => ?_, fun q hq hon hport hdb => ?_⟩
    · subst hq
      rw [State.rearm_doorbell, hall.sqOn, hoff]
      exact hkept
    · subst hq
      rw [State.rearm_doorbell, hall.sqOn, hon, hall.sqPort, hport, hall.regs _ (rHlSq_ne_snpStat q).2, hdb, if_pos (by simp)]
      exact State.readLine_asked hdrop.wf (.inl rfl) ..
  · have hops := State.takeReq_lineOps w p r
    have hw := hops.wf.setCq c { (s.takeReq p r).cq c with unacked := ((s.takeReq p r).cq c).unacked - 1 }
    obtain ⟨hun, hmem, hcores, hregs⟩ := State.wake_spec hw c
    refine ⟨_, by rw [exec_hAck hd hu hm hr, huse], hun.trans ?_, hmem, hcores, hregs⟩
    rw [State.cq_setCq_same hops.wf, hops.cq]

end Sys2Proof.Machine
end

section
/-! SUPPORT. Queue configuration (R337): CFG writes of submission, completion and event queues. -/

namespace Sys2Proof.Machine
open Sys2Proof

-- Proofs elaborated in threads of their own would pass the check's limit of memory.
set_option Elab.async false

variable {s t u : State} {p q a v n c : Nat}

/-! ### The fields of a CFG register -/

/-- A CFG write's fields other than ENABLE. -/
theorem State.cfgFields_spec (w : s.Wf) (hn : n ≤ 13) (v : Nat) : OnRegs [a] s (s.cfgFields a n v)
    ∧ (s.cfgFields a n v).fld a 0 1 = s.fld a 0 1 ∧ (s.cfgFields a n v).fld a 1 (n - 1) = bitsOf v 1 (n - 1) := by
  unfold State.cfgFields
  extract_lets x
  have hx : OnRegs [a] s x ∧ x.fld a 0 1 = s.fld a 0 1 := by
    unfold x
    split
    · exact ⟨(OnRegs.refl w _).setFld (by simp), State.fld_setFld_disjoint w.regs (by decide) (by decide) ..⟩
    · exact ⟨OnRegs.refl w _, rfl⟩
  obtain ⟨hon, hen⟩ := hx
  refine ⟨hon.setFld (by simp), (State.fld_setFld_disjoint hon.wf.regs (by omega) (by omega) ..).trans hen, ?_⟩
  rw [State.fld_setFld_same hon.wf.regs (by omega), Nat.mod_eq_of_lt (bitsOf_lt ..)]

/-- What a CFG write leaves of the CFG register `a` with `n` fields' bits: ENABLE is `e`, the other fields are those of the write. -/
structure Configured (a n v e : Nat) (s t : State) : Prop where
  on     : OnRegs [a] s t
  enable : t.fld a 0 1 = e
  fields : t.fld a 1 (n - 1) = bitsOf v 1 (n - 1)

theorem State.cfgFields_configured (w : s.Wf) (hn : n ≤ 13) (v : Nat) : Configured a n v (s.fld a 0 1) s (s.cfgFields a n v) :=
  let ⟨hon, hen, hf⟩ := State.cfgFields_spec w hn v
  ⟨hon, hen, hf⟩

/-- ENABLE is set or cleared. -/
theorem Configured.enabled {e x : Nat} (h : Configured a n v e s t) (hx : x < 2) : Configured a n v x s (t.setFld a 0 1 x) where
  on := h.on.setFld (by simp)
  enable := (State.fld_setFld_same h.on.wf.regs (by decide) ..).trans (Nat.mod_eq_of_lt hx)
  fields := (State.fld_setFld_disjoint h.on.wf.regs (by decide) (by omega) ..).trans h.fields

/-- ERR of a refused ENABLE. -/
theorem Configured.err {e : Nat} (h : Configured a n v e s t) (hn : n ≤ 12) :
    Configured a n v e s (t.setFld a 12 1 1) ∧ (t.setFld a 12 1 1).fld a 12 1 = 1 :=
  ⟨⟨h.on.setFld (by simp), (State.fld_setFld_disjoint h.on.wf.regs (by decide) (by decide) ..).trans h.enable,
    (State.fld_setFld_disjoint h.on.wf.regs (by decide) (by omega) ..).trans h.fields⟩, State.fld_setFld_same h.on.wf.regs (by decide) ..⟩

/-! ### Control lines asked for -/

theorem State.armLine_lineOps (w : s.Wf) (p op a : Nat) (use : LineUse) : LineOps s (s.armLine p op a use) := by
  unfold State.armLine
  split
  · exact .refl w
  · exact State.readLine_lineOps w ..

/-! ### STEP records that wait -/

/-- Records have been posted: no HEAD, no register, no submission queue has changed. -/
structure Posts (s t : State) : Prop where
  wf    : t.Wf
  frame : t = { s with ports := t.ports, outbox := t.outbox, hl := { s.hl with cqs := t.hl.cqs, stepQ := t.hl.stepQ } }
  heads : ∀ c, (t.cq c).head = (s.cq c).head

namespace Posts

theorem refl (w : s.Wf) : Posts s s := ⟨w, rfl, fun _ => rfl⟩

theorem trans (h : Posts s t) (k : Posts t u) : Posts s u := ⟨k.wf, by rw [k.frame, h.frame], fun c => (k.heads c).trans (h.heads c)⟩

theorem regs (h : Posts s t) : t.regs = s.regs := by rw [h.frame]
theorem mem (h : Posts s t) : t.mem = s.mem := by rw [h.frame]
theorem cores (h : Posts s t) : t.cores = s.cores := by rw [h.frame]
theorem sq (h : Posts s t) (q : Nat) : t.sq q = s.sq q := by rw [h.frame]; rfl
theorem fld (h : Posts s t) (r lo n : Nat) : t.fld r lo n = s.fld r lo n := by rw [State.fld, State.reg, h.regs]; rfl

theorem setCq (h : Posts s t) {v : CqSt} (hv : v.head = (t.cq c).head) : Posts s (t.setCq c v) :=
  h.trans ⟨h.wf.setCq c v, rfl, fun k => by
    rw [State.cq_setCq h.wf]
    split
    · next e => rw [e, hv]
    · rfl⟩

theorem portsOnly (h : Posts s t) (k : PortsOnly t u) (w : u.Wf) : Posts s u :=
  h.trans ⟨w, by rw [PortsOnly] at k; rw [k], fun c => by rw [State.cq, k.hl]; rfl⟩

end Posts

theorem State.writeRecord_posts (w : s.Wf) (c : Nat) (use : ReqUse) (now : Bool) (r : List Byte) : Posts s (s.writeRecord c use now r) := by
  unfold State.writeRecord
  split
  · exact .refl w
  · extract_lets v n a x
    have hx : Posts s x := (Posts.refl w).setCq rfl
    have hreq := State.request_spec hx.wf
    exact hx.portsOnly (hreq ..).ports (hreq ..).wf

/-- Waiting STEP records are posted while the CQ has room (R344). -/
theorem State.postSteps_posts (w : s.Wf) : Posts s s.postSteps := by
  unfold State.postSteps
  extract_lets c
  split
  · exact .refl w
  · refine List.foldlRecOn (motive := Posts s) _ _ (.refl w) fun t h _ _ => ?_
    split
    · split
      · next r l _ _ =>
        have hq : Posts t { t with hl := { t.hl with stepQ := l } } :=
          ⟨⟨h.wf.regs, h.wf.mem, h.wf.ports, h.wf.cores, h.wf.sram, h.wf.sqs, h.wf.cqs⟩, rfl, fun _ => rfl⟩
        exact h.trans (hq.trans (State.writeRecord_posts hq.wf ..))
      · exact h
    · exact h

/-! ### Submission queues -/

/-- A submission queue is on where ENABLE stands in its CFG register. -/
theorem State.sqOn_iff (s : State) (q : Nat) : s.sqOn q = true ↔ s.fld (rHlSqCfg q) 0 1 = 1 := beq_iff_eq

theorem State.cqOn_iff (s : State) (q : Nat) : s.cqOn q = true ↔ s.fld (rHlCqCfg q) 0 1 = 1 := beq_iff_eq

theorem State.sqOn_off (h : s.fld (rHlSqCfg q) 0 1 = 0) : s.sqOn q = false := by rw [State.sqOn, h]; rfl

theorem State.cqOn_off (h : s.fld (rHlCqCfg q) 0 1 = 0) : s.cqOn q = false := by rw [State.cqOn, h]; rfl

theorem State.fld_of_sqOff (h : s.sqOn q = false) : s.fld (rHlSqCfg q) 0 1 = 0 := by
  have h1 : s.fld (rHlSqCfg q) 0 1 ≠ 1 := fun e => absurd ((s.sqOn_iff q).2 e) (by rw [h]; decide)
  have h2 : s.fld (rHlSqCfg q) 0 1 < 2 := bitsOf_lt _ 0 1
  omega

theorem State.fld_of_cqOff (h : s.cqOn q = false) : s.fld (rHlCqCfg q) 0 1 = 0 := by
  have h1 : s.fld (rHlCqCfg q) 0 1 ≠ 1 := fun e => absurd ((s.cqOn_iff q).2 e) (by rw [h]; decide)
  have h2 : s.fld (rHlCqCfg q) 0 1 < 2 := bitsOf_lt _ 0 1
  omega

theorem rHlCqCfg_ne_snpStat (q : Nat) : rHlCqCfg q ≠ rHlSnpStat := by
  simp only [rHlCqCfg, rHlSnpStat]
  omega

/-- The lines of a queue may be asked for: what a valid ENABLE finds. -/
def State.sqValid (s : State) (q v : Nat) : Bool :=
  let u := s.cfgFields (rHlSqCfg q) 12 v
  u.cfgValid (rHlSqCfg q) (rHlSqBase q) [rHlSqDb q, rHlSqRpt q] && u.cqOn (u.cqOf q)

theorem exec_hlSqCfgWrite (hd : s.dark = false) (hq : q < 64) (v : W64) : exec (.hlSqCfgWrite q v) s = .next (s.sqCfg q v.toNat) := by
  refine (next_of_live hd).trans ?_
  simp only [hq, if_true]

theorem exec_hlCqCfgWrite (hd : s.dark = false) (hq : q < 64) (v : W64) : exec (.hlCqCfgWrite q v) s = .next (s.cqCfg q v.toNat) := by
  refine (next_of_live hd).trans ?_
  simp only [hq, if_true]

theorem State.sqCfg_off (hoff : s.sqOn q = false) (he : bitsOf v 0 1 = 0) : s.sqCfg q v = s.cfgFields (rHlSqCfg q) 12 v := by
  simp [State.sqCfg, hoff, he]

/-- An ENABLE that is refused leaves ERR. -/
theorem State.sqCfg_refused (hoff : s.sqOn q = false) (he : bitsOf v 0 1 = 1) (hv : s.sqValid q v = false) :
    s.sqCfg q v = (s.cfgFields (rHlSqCfg q) 12 v).setFld (rHlSqCfg q) 12 1 1 := by
  rw [State.sqValid] at hv
  simp only [State.sqCfg, hoff, he, hv, Bool.false_eq_true, if_false]
  rfl

theorem State.sqCfg_stays (hon : s.sqOn q = true) (he : bitsOf v 0 1 = 1) : s.sqCfg q v = s := by simp [State.sqCfg, hon, he]

/-- The queue is on, its counts afresh unless descriptors fetched before have still to complete. -/
def State.sqEnabled (s : State) (q v : Nat) : State :=
  ((s.cfgFields (rHlSqCfg q) 12 v).setFld (rHlSqCfg q) 0 1 1).setSq q
    (if (s.sq q).idle then SqSt.reset else s.sq q)

theorem State.sqCfg_enables (w : s.Wf) (hoff : s.sqOn q = false) (he : bitsOf v 0 1 = 1) (hv : s.sqValid q v = true) :
    LineOps (s.sqEnabled q v) (s.sqCfg q v) := by
  rw [State.sqValid] at hv
  have hconf := (State.cfgFields_configured (a := rHlSqCfg q) (n := 12) w (by decide) v).enabled (x := 1) (by decide)
  have hsame : (s.cfgFields (rHlSqCfg q) 12 v).sq q = s.sq q := by rw [((State.cfgFields_spec w (by decide) v).1).only.1]; rfl
  have hw : (s.sqEnabled q v).Wf := hconf.on.wf.setSq q _
  have heq : s.sqCfg q v = match (s.sqEnabled q v).sqPort q with
      | some p => (((s.sqEnabled q v).armLine p opRdShared ((s.sqEnabled q v).reg (rHlSqDb q)) (.doorbell q))).report q
      | none => s.sqEnabled q v := by
    rw [State.sqEnabled, ← hsame]
    simp only [State.sqCfg, hoff, he, hv, Bool.false_eq_true, if_false, if_true, Nat.one_ne_zero] <;> rfl
  rw [heq]
  split
  · next p _ =>
    have harm := State.armLine_lineOps hw p opRdShared ((s.sqEnabled q v).reg (rHlSqDb q)) (.doorbell q)
    exact harm.trans (State.report_lineOps harm.wf q)
  · exact .refl hw

/-- A write that clears ENABLE gives up lines. -/
theorem State.sqCfg_disables (w : s.Wf) (hon : s.sqOn q = true) (he : bitsOf v 0 1 = 0) :
    LineOps ((s.cfgFields (rHlSqCfg q) 12 v).setFld (rHlSqCfg q) 0 1 0) (s.sqCfg q v) := by
  have hconf := (State.cfgFields_configured (a := rHlSqCfg q) (n := 12) w (by decide) v).enabled (x := 0) (by decide)
  simp only [State.sqCfg, hon, he, Nat.zero_ne_one, if_false, if_true]
  split
  · next p _ =>
    have hev := State.evict_lineOps hconf.on.wf p (((s.cfgFields (rHlSqCfg q) 12 v).setFld (rHlSqCfg q) 0 1 0).reg (rHlSqDb q))
    exact hev.trans (State.restReport_lineOps hev.wf q)
  · exact .refl hconf.on.wf

theorem SqSt.idle_iff (v : SqSt) : v.idle = true ↔ v.descs = [] ∧ v.pend = [] := by simp [SqSt.idle]

theorem Configured.mem {e : Nat} (h : Configured a n v e s t) : t.mem = s.mem := by rw [h.on.only.1]
theorem Configured.cores {e : Nat} (h : Configured a n v e s t) : t.cores = s.cores := by rw [h.on.only.1]
theorem Configured.hl {e : Nat} (h : Configured a n v e s t) : t.hl = s.hl := by rw [h.on.only.1]

/-- CFG writes of a submission queue that is off. -/
theorem State.sqCfg_off_spec (w : s.Wf) (hoff : s.sqOn q = false) :
    (bitsOf v 0 1 = 0 → regsOnly s (s.sqCfg q v) [rHlSqCfg q] ∧ (s.sqCfg q v).sqOn q = false ∧ (s.sqCfg q v).fld (rHlSqCfg q) 1 11 = bitsOf v 1 11)
      ∧ (bitsOf v 0 1 = 1 → s.sqValid q v = true → (s.sqCfg q v).sqOn q = true
          ∧ (s.sqCfg q v).sq q = (if (s.sq q).descs = [] ∧ (s.sq q).pend = [] then SqSt.reset else s.sq q)
          ∧ (s.sqCfg q v).fld (rHlSqCfg q) 1 11 = bitsOf v 1 11 ∧ (s.sqCfg q v).mem = s.mem ∧ (s.sqCfg q v).cores = s.cores)
      ∧ (bitsOf v 0 1 = 1 → s.sqValid q v = false → regsOnly s (s.sqCfg q v) [rHlSqCfg q] ∧ (s.sqCfg q v).sqOn q = false
          ∧ (s.sqCfg q v).fld (rHlSqCfg q) 12 1 = 1) := by
  have hconf := State.cfgFields_configured (a := rHlSqCfg q) (n := 12) w (by decide) v
  rw [State.fld_of_sqOff hoff] at hconf
  refine ⟨fun he => ?_, fun he hv => ?_, fun he hv => ?_⟩
  · rw [State.sqCfg_off hoff he]
    exact ⟨hconf.on.only, State.sqOn_off hconf.enable, hconf.fields⟩
  · have hen := hconf.enabled (x := 1) (by decide)
    have hops := State.sqCfg_enables w hoff he hv
    refine ⟨?_, ?_, (hops.fld (rHlSq_ne_snpStat q).1 ..).trans hen.fields, hops.mem.trans hen.mem, hops.cores.trans hen.cores⟩
    · rw [State.sqOn_iff]
      exact (hops.fld (rHlSq_ne_snpStat q).1 ..).trans hen.enable
    · rw [hops.sq]
      exact (State.sq_setSq_same hen.on.wf q _).trans (if_congr (s.sq q).idle_iff rfl rfl)
  · obtain ⟨herr, hset⟩ := hconf.err (by decide)
    rw [State.sqCfg_refused hoff he hv]
    exact ⟨herr.on.only, State.sqOn_off herr.enable, hset⟩

theorem State.sqCfg_disables_spec (w : s.Wf) (hon : s.sqOn q = true) (he : bitsOf v 0 1 = 0) :
    (s.sqCfg q v).sqOn q = false ∧ (s.sqCfg q v).sq q = s.sq q ∧ (s.sqCfg q v).mem = s.mem := by
  have hconf := (State.cfgFields_configured (a := rHlSqCfg q) (n := 12) w (by decide) v).enabled (x := 0) (by decide)
  have hops := State.sqCfg_disables w hon he
  refine ⟨State.sqOn_off ((hops.fld (rHlSq_ne_snpStat q).1 ..).trans hconf.enable), ?_, hops.mem.trans hconf.mem⟩
  rw [hops.sq, State.sq, hconf.hl]
  rfl

/-! ### Completion queues -/

/-- What a valid ENABLE of a completion queue finds. -/
def State.cqValid (s : State) (q v : Nat) : Bool := (s.cfgFields (rHlCqCfg q) 6 v).cfgValid (rHlCqCfg q) (rHlCqBase q) [rHlCqHead q]

/-- The queue is on, its counts afresh. -/
def State.cqEnabled (s : State) (q v : Nat) : State := ((s.cfgFields (rHlCqCfg q) 6 v).setFld (rHlCqCfg q) 0 1 1).setCq q CqSt.reset

theorem State.cqCfg_off (hoff : s.cqOn q = false) (he : bitsOf v 0 1 = 0) : s.cqCfg q v = s.cfgFields (rHlCqCfg q) 6 v := by
  simp [State.cqCfg, hoff, he]

theorem State.cqCfg_refused (hoff : s.cqOn q = false) (he : bitsOf v 0 1 = 1) (hv : s.cqValid q v = false) :
    s.cqCfg q v = (s.cfgFields (rHlCqCfg q) 6 v).setFld (rHlCqCfg q) 12 1 1 := by
  rw [State.cqValid] at hv
  simp only [State.cqCfg, hoff, he, hv, Bool.false_eq_true, if_false]
  rfl

theorem State.cqCfg_stays (hon : s.cqOn q = true) (he : bitsOf v 0 1 = 1) : s.cqCfg q v = s := by simp [State.cqCfg, hon, he]

/-- An ENABLE asks for the HEAD line and posts the STEP records that wait. -/
theorem State.cqCfg_enables (w : s.Wf) (hoff : s.cqOn q = false) (he : bitsOf v 0 1 = 1) (hv : s.cqValid q v = true) :
    ∃ t, LineOps (s.cqEnabled q v) t ∧ Posts t (s.cqCfg q v) := by
  rw [State.cqValid] at hv
  have hconf := (State.cfgFields_configured (a := rHlCqCfg q) (n := 6) w (by decide) v).enabled (x := 1) (by decide)
  have hw : (s.cqEnabled q v).Wf := hconf.on.wf.setCq q _
  have heq : s.cqCfg q v = match (s.cqEnabled q v).cqPort q with
      | some p => ((s.cqEnabled q v).armLine p opRdShared ((s.cqEnabled q v).reg (rHlCqHead q)) (.head q)).postSteps
      | none => s.cqEnabled q v := by
    simp only [State.cqCfg, hoff, he, hv, Bool.false_eq_true, if_false, if_true, Nat.one_ne_zero]
    rfl
  rw [heq]
  split
  · next p _ =>
    have harm := State.armLine_lineOps hw p opRdShared ((s.cqEnabled q v).reg (rHlCqHead q)) (.head q)
    exact ⟨_, harm, State.postSteps_posts harm.wf⟩
  · exact ⟨_, .refl hw, .refl hw⟩

theorem State.cqCfg_disables (w : s.Wf) (hon : s.cqOn q = true) (he : bitsOf v 0 1 = 0) :
    LineOps ((s.cfgFields (rHlCqCfg q) 6 v).setFld (rHlCqCfg q) 0 1 0) (s.cqCfg q v) := by
  have hconf := (State.cfgFields_configured (a := rHlCqCfg q) (n := 6) w (by decide) v).enabled (x := 0) (by decide)
  simp only [State.cqCfg, hon, he, Nat.zero_ne_one, if_false, if_true]
  split
  · exact State.evict_lineOps hconf.on.wf ..
  · exact .refl hconf.on.wf

theorem State.cqCfg_off_spec (w : s.Wf) (hoff : s.cqOn q = false) :
    (bitsOf v 0 1 = 0 → regsOnly s (s.cqCfg q v) [rHlCqCfg q] ∧ (s.cqCfg q v).cqOn q = false ∧ (s.cqCfg q v).fld (rHlCqCfg q) 1 5 = bitsOf v 1 5)
      ∧ (bitsOf v 0 1 = 1 → s.cqValid q v = true → (s.cqCfg q v).cqOn q = true ∧ ((s.cqCfg q v).cq q).head = 0
          ∧ (s.cqCfg q v).fld (rHlCqCfg q) 1 5 = bitsOf v 1 5 ∧ (s.cqCfg q v).mem = s.mem ∧ (s.cqCfg q v).cores = s.cores)
      ∧ (bitsOf v 0 1 = 1 → s.cqValid q v = false → regsOnly s (s.cqCfg q v) [rHlCqCfg q] ∧ (s.cqCfg q v).cqOn q = false
          ∧ (s.cqCfg q v).fld (rHlCqCfg q) 12 1 = 1) := by
  have hconf := State.cfgFields_configured (a := rHlCqCfg q) (n := 6) w (by decide) v
  rw [State.fld_of_cqOff hoff] at hconf
  refine ⟨fun he => ?_, fun he hv => ?_, fun he hv => ?_⟩
  · rw [State.cqCfg_off hoff he]
    exact ⟨hconf.on.only, State.cqOn_off hconf.enable, hconf.fields⟩
  · have hen := hconf.enabled (x := 1) (by decide)
    obtain ⟨t, hops, hposts⟩ := State.cqCfg_enables w hoff he hv
    have hfld (lo n : Nat) := (hposts.fld (rHlCqCfg q) lo n).trans (hops.fld (rHlCqCfg_ne_snpStat q) lo n)
    refine ⟨(State.cqOn_iff _ q).2 ((hfld 0 1).trans hen.enable), ?_, (hfld 1 5).trans hen.fields,
      hposts.mem.trans (hops.mem.trans hen.mem), hposts.cores.trans (hops.cores.trans hen.cores)⟩
    rw [hposts.heads, hops.cq]
    exact congrArg CqSt.head (State.cq_setCq_same hen.on.wf q CqSt.reset)
  · obtain ⟨herr, hset⟩ := hconf.err (by decide)
    rw [State.cqCfg_refused hoff he hv]
    exact ⟨herr.on.only, State.cqOn_off herr.enable, hset⟩

theorem State.cqCfg_disables_spec (w : s.Wf) (hon : s.cqOn q = true) (he : bitsOf v 0 1 = 0) :
    (s.cqCfg q v).cqOn q = false ∧ (s.cqCfg q v).cq q = s.cq q ∧ (s.cqCfg q v).mem = s.mem := by
  have hconf := (State.cfgFields_configured (a := rHlCqCfg q) (n := 6) w (by decide) v).enabled (x := 0) (by decide)
  have hops := State.cqCfg_disables w hon he
  refine ⟨State.cqOn_off ((hops.fld (rHlCqCfg_ne_snpStat q) ..).trans hconf.enable), ?_, hops.mem.trans hconf.mem⟩
  rw [hops.cq, State.cq, hconf.hl]
  rfl

/-! ### The event queue -/

/-- What a valid ENABLE of the event queue finds. -/
def State.evqValid (s : State) (v : Nat) : Bool := (s.cfgFields rHlEvqCfg 6 v).cfgValid rHlEvqCfg rHlEvqBase [rHlEvqHead]

/-- The queue is on, its counts afresh. -/
def State.evqEnabled (s : State) (v : Nat) : State :=
  let t := (s.cfgFields rHlEvqCfg 6 v).setFld rHlEvqCfg 0 1 1
  { t with hl := { t.hl with evHead := 0, evWritten := 0 } }

theorem State.Wf.evCounts (w : s.Wf) (x y : Nat) : { s with hl := { s.hl with evHead := x, evWritten := y } }.Wf :=
  ⟨w.regs, w.mem, w.ports, w.cores, w.sram, w.sqs, w.cqs⟩

theorem exec_hlEvqCfgWrite (hd : s.dark = false) (v : W64) : exec (.hlEvqCfgWrite v) s = .next (s.evqCfg v.toNat) := next_of_live hd

theorem State.evqCfg_off (hoff : s.fld rHlEvqCfg 0 1 = 0) (he : bitsOf v 0 1 = 0) : s.evqCfg v = s.cfgFields rHlEvqCfg 6 v := by
  simp [State.evqCfg, hoff, he]

theorem State.evqCfg_refused (hoff : s.fld rHlEvqCfg 0 1 = 0) (he : bitsOf v 0 1 = 1) (hv : s.evqValid v = false) :
    s.evqCfg v = (s.cfgFields rHlEvqCfg 6 v).setFld rHlEvqCfg 12 1 1 := by
  rw [State.evqValid] at hv
  simp only [State.evqCfg, hoff, he, hv, Bool.false_eq_true, Nat.zero_ne_one, Nat.one_ne_zero, if_false]

theorem State.evqCfg_stays (hon : s.fld rHlEvqCfg 0 1 = 1) (he : bitsOf v 0 1 = 1) : s.evqCfg v = s := by simp [State.evqCfg, hon, he]

theorem State.evqCfg_enables (w : s.Wf) (hoff : s.fld rHlEvqCfg 0 1 = 0) (he : bitsOf v 0 1 = 1) (hv : s.evqValid v = true) :
    LineOps (s.evqEnabled v) (s.evqCfg v) := by
  rw [State.evqValid] at hv
  have hconf := (State.cfgFields_configured (a := rHlEvqCfg) (n := 6) w (by decide) v).enabled (x := 1) (by decide)
  have hw : (s.evqEnabled v).Wf := hconf.on.wf.evCounts 0 0
  have heq : s.evqCfg v = match (s.evqEnabled v).hlPort ((s.evqEnabled v).fld rHlEvqCfg 5 1) with
      | some p => (s.evqEnabled v).armLine p opRdShared ((s.evqEnabled v).reg rHlEvqHead) .evHead
      | none => s.evqEnabled v := by
    simp only [State.evqCfg, hoff, he, hv, Nat.zero_ne_one, Nat.one_ne_zero, if_false, if_true]
    rfl
  rw [heq]
  split
  · exact State.armLine_lineOps hw ..
  · exact .refl hw

theorem State.evqCfg_disables (w : s.Wf) (hon : s.fld rHlEvqCfg 0 1 = 1) (he : bitsOf v 0 1 = 0) :
    LineOps ((s.cfgFields rHlEvqCfg 6 v).setFld rHlEvqCfg 0 1 0) (s.evqCfg v) := by
  have hconf := (State.cfgFields_configured (a := rHlEvqCfg) (n := 6) w (by decide) v).enabled (x := 0) (by decide)
  simp only [State.evqCfg, hon, he, Nat.zero_ne_one, if_false, if_true]
  split
  · exact State.evict_lineOps hconf.on.wf ..
  · exact .refl hconf.on.wf

theorem State.evqCfg_off_spec (w : s.Wf) (hoff : s.fld rHlEvqCfg 0 1 = 0) :
    (bitsOf v 0 1 = 0 → regsOnly s (s.evqCfg v) [rHlEvqCfg] ∧ (s.evqCfg v).fld rHlEvqCfg 0 1 = 0 ∧ (s.evqCfg v).fld rHlEvqCfg 1 5 = bitsOf v 1 5)
      ∧ (bitsOf v 0 1 = 1 → s.evqValid v = true → (s.evqCfg v).fld rHlEvqCfg 0 1 = 1 ∧ (s.evqCfg v).hl.evHead = 0
          ∧ (s.evqCfg v).hl.evWritten = 0 ∧ (s.evqCfg v).fld rHlEvqCfg 1 5 = bitsOf v 1 5 ∧ (s.evqCfg v).mem = s.mem
          ∧ (s.evqCfg v).cores = s.cores)
      ∧ (bitsOf v 0 1 = 1 → s.evqValid v = false → regsOnly s (s.evqCfg v) [rHlEvqCfg] ∧ (s.evqCfg v).fld rHlEvqCfg 0 1 = 0
          ∧ (s.evqCfg v).fld rHlEvqCfg 12 1 = 1) := by
  have hconf := State.cfgFields_configured (a := rHlEvqCfg) (n := 6) w (by decide) v
  rw [hoff] at hconf
  refine ⟨fun he => ?_, fun he hv => ?_, fun he hv => ?_⟩
  · rw [State.evqCfg_off hoff he]
    exact ⟨hconf.on.only, hconf.enable, hconf.fields⟩
  · have hen := hconf.enabled (x := 1) (by decide)
    have hops := State.evqCfg_enables w hoff he hv
    exact ⟨(hops.fld (by decide) ..).trans hen.enable, by rw [hops.hl]; rfl, by rw [hops.hl]; rfl, (hops.fld (by decide) ..).trans hen.fields,
      hops.mem.trans hen.mem, hops.cores.trans hen.cores⟩
  · obtain ⟨herr, hset⟩ := hconf.err (by decide)
    rw [State.evqCfg_refused hoff he hv]
    exact ⟨herr.on.only, herr.enable, hset⟩

theorem State.evqCfg_disables_spec (w : s.Wf) (hon : s.fld rHlEvqCfg 0 1 = 1) (he : bitsOf v 0 1 = 0) :
    (s.evqCfg v).fld rHlEvqCfg 0 1 = 0 ∧ (s.evqCfg v).mem = s.mem ∧ (s.evqCfg v).cores = s.cores := by
  have hconf := (State.cfgFields_configured (a := rHlEvqCfg) (n := 6) w (by decide) v).enabled (x := 0) (by decide)
  have hops := State.evqCfg_disables w hon he
  exact ⟨(hops.fld (by decide) ..).trans hconf.enable, hops.mem.trans hconf.mem, hops.cores.trans hconf.cores⟩

end Sys2Proof.Machine
end

section
/-! SUPPORT. Descriptors (R338 to R343, R346, R348): fetch, outcome, completion, WAKE. -/

namespace Sys2Proof.Machine
open Sys2Proof

-- Proofs elaborated in threads of their own would pass the check's limit of memory.
set_option Elab.async false

variable {s t u : State} {p q i c k ty : Nat} {d : Desc}

/-! ### Fetch -/

/-- DESC_FETCH notes the descriptor as being read, keeps room for its record, and asks the host for it. -/
def State.fetchNoted (s : State) (q : Nat) : State :=
  let v := s.sq q
  let s := s.setSq q { v with pend := v.pend ++ [v.fetched + v.pend.length] }
  s.setCq (s.cqOf q) { s.cq (s.cqOf q) with reserved := (s.cq (s.cqOf q)).reserved + 1 }

theorem exec_descFetch (hd : s.dark = false) (hp : s.sqPort q = some p) (hon : s.sqOn q = true)
    (hk : (s.sq q).fetched + (s.sq q).pend.length < (s.sq q).tail)
    (hroom : (s.sq q).fetched + (s.sq q).pend.length - (s.sq q).retired < s.sqSize q) (hc : s.cqRoom (s.cqOf q) = true) :
    exec (.descFetch q) s = .next ((s.fetchNoted q).request p opRdOnce
      (2 ^ 12 * s.fld (rHlSqBase q) 12 40 + 64 * (((s.sq q).fetched + (s.sq q).pend.length) % s.sqSize q)) 1
      (.desc q ((s.sq q).fetched + (s.sq q).pend.length)) []) := by
  refine (next_of_live hd).trans ?_
  simp only [hp, hon, hk, hroom, hc, decide_true, Bool.and_self, if_true]
  rfl

theorem State.fetchNoted_spec (w : s.Wf) (q : Nat) : (s.fetchNoted q).Wf
    ∧ ((s.fetchNoted q).sq q).pend = (s.sq q).pend ++ [(s.sq q).fetched + (s.sq q).pend.length]
    ∧ ((s.fetchNoted q).cq (s.cqOf q)).reserved = (s.cq (s.cqOf q)).reserved + 1 := by
  have hw := w.setSq q { s.sq q with pend := (s.sq q).pend ++ [(s.sq q).fetched + (s.sq q).pend.length] }
  refine ⟨hw.setCq _ _, ?_, ?_⟩
  · exact congrArg SqSt.pend (State.sq_setSq_same w q { s.sq q with pend := (s.sq q).pend ++ [(s.sq q).fetched + (s.sq q).pend.length] })
  · exact congrArg CqSt.reserved (State.cq_setCq_same hw (s.cqOf q) { s.cq (s.cqOf q) with reserved := (s.cq (s.cqOf q)).reserved + 1 })

/-! ### WAKE_TIMER -/

theorem exec_wakeTimer (hd : s.dark = false) {b : Nat} (hb : (s.cq q).oldest = some b) (ht : s.fld (rHlCqWake q) 32 16 ≠ 0) :
    exec (.wakeTimer q) s = .next (if b + s.fld (rHlCqWake q) 32 16 ≤ s.beat then (s.setCq q { s.cq q with wakeDue := true }).wake q else s) := by
  refine (next_of_live hd).trans ?_
  simp only [hb, ne_eq, ht, not_false_eq_true, true_and]

/-- A WAKE that is due leaves once every record is acknowledged (R348). -/
theorem State.wake_sends (w : s.Wf) (hs : (s.cq q).since ≠ 0) (hu : (s.cq q).unacked = 0) (hdue : (s.cq q).wakeDue = true)
    (hp : s.cqPort q = some p) (hf : s.FreeTo p) (hc : 1 ≤ (s.port p).credits.getD 2 0) :
    ((s.wake q).cq q).since = 0 ∧ (s.wake q).regs = s.regs ∧ (s.wake q).mem = s.mem
      ∧ (s.wake q).outbox = s.outbox ++ s.sends p ⟨opWake, (s.port p).tagNext, s.fld (rHlCqWake q) 0 16, 0, 0, []⟩ := by
  have hw := w.setCq q { s.cq q with since := 0, oldest := none, wakeDue := false }
  have heq : s.wake q = (s.setCq q { s.cq q with since := 0, oldest := none, wakeDue := false }).request p opWake (s.fld (rHlCqWake q) 0 16) 0
      (.wake q) [] := by
    simp only [State.wake, hs, hu, hdue, hp, ne_eq, not_false_eq_true, true_and, true_or, if_true]
  have hports := (State.request_spec hw p opWake (s.fld (rHlCqWake q) 0 16) 0 (.wake q) []).ports
  rw [heq]
  refine ⟨?_, hports.regs, hports.mem, State.request_free hw ⟨hf.up, hf.empty, hf.room⟩ _ _ _ _ _ (.inr hc)⟩
  rw [State.cq, hports.hl]
  exact congrArg CqSt.since (State.cq_setCq_same w q { s.cq q with since := 0, oldest := none, wakeDue := false })

/-! ### The outcome of a descriptor -/

/-- Descriptors that a map keeps at their place are found as before. -/
theorem find?_map_index (l : List Desc) (f : Desc → Desc) (hf : ∀ d, (f d).i = d.i) (i : Nat) :
    (l.map f).find? (fun d => d.i == i) = (l.find? (fun d => d.i == i)).map f := by
  rw [List.find?_map]
  congr 2
  funext d
  exact congrArg (· == i) (hf d)

theorem State.desc?_index (h : s.desc? q i = some d) : d.i = i := by
  rw [State.desc?] at h
  simpa using List.find?_some h

theorem State.startDesc_wf (w : s.Wf) (q i : Nat) : (s.startDesc q i).Wf := w.setSq _ _

theorem State.decideDesc_wf (w : s.Wf) (q i code n : Nat) (b : Bool) : (s.decideDesc q i code n b).Wf := w.setSq _ _

theorem State.desc?_startDesc (w : s.Wf) (h : s.desc? q i = some d) : (s.startDesc q i).desc? q i = some { d with started := true } := by
  have hi := State.desc?_index h
  rw [State.desc?] at h
  rw [State.startDesc, State.desc?, State.sq_setSq_same w]
  dsimp only
  rw [find?_map_index _ _ (fun d => by split <;> rfl), h]
  simp [hi]

/-- A descriptor without outcome is decided once. -/
theorem State.desc?_decideDesc (w : s.Wf) (h : s.desc? q i = some d) (hn : d.done = none) (code n : Nat) (b : Bool) :
    (s.decideDesc q i code n b).desc? q i = some { d with done := some (code, n, b) } := by
  have hi := State.desc?_index h
  rw [State.desc?] at h
  rw [State.decideDesc, State.desc?, State.sq_setSq_same w]
  dsimp only
  rw [find?_map_index _ _ (fun d => by split <;> rfl), h]
  simp [hi, hn]

/-- What a command that decides a descriptor of `s` leaves of it. -/
theorem State.finish_spec (w : s.Wf) (h : s.desc? q i = some d) (hn : d.done = none) (code n : Nat) :
    s.finish q i code n = { s with hl := (s.finish q i code n).hl }
      ∧ (s.finish q i code n).Wf
      ∧ ∃ e, (s.finish q i code n).desc? q i = some e ∧ e.done = some (code, n, d.deadline != 0 && d.deadline == s.now) := by
  have heq : s.finish q i code n = (s.startDesc q i).decideDesc q i code n (d.deadline != 0 && d.deadline == s.now) := by rw [State.finish, h]
  have hw := State.startDesc_wf w q i
  rw [heq]
  exact ⟨rfl, State.decideDesc_wf hw .., _, State.desc?_decideDesc hw (State.desc?_startDesc w h) hn .., rfl⟩

theorem State.startable?_spec (h : s.startable? q i ty = some d) : s.desc? q i = some d ∧ d.done = none ∧ d.f 0 1 = ty := by
  unfold State.startable? at h
  split at h
  · cases h
  · next e he =>
    extract_lets v at h
    split at h
    · next hc =>
      obtain rfl : e = d := Option.some.inj h
      simp only [Bool.and_eq_true, decide_eq_true_eq, Option.isNone_iff_eq_none] at hc
      tauto
    · cases h

/-- A descriptor of its type that may start runs, unless it is too late. -/
theorem State.withDesc_of_startable (h : s.startable? q i ty = some d) (f : Desc → State → State) :
    s.withDesc q i ty f = if s.tooLate d then s.finish q i cDescTimeout 0 else f d s := by rw [State.withDesc, h]

theorem exec_nop (hd : s.dark = false) (h : s.startable? q i 0 = some d) :
    exec (.nop q i) s = .next (s.finish q i (if s.tooLate d = true then cDescTimeout else 0) 0) := by
  refine (next_of_live hd).trans (congrArg _ ((State.withDesc_of_startable h _).trans ?_))
  split <;> rfl

/-! ### DESC_COMPLETE -/

theorem exec_descComplete (hd : s.dark = false) (h : s.desc? q i = some d) {o : Nat × Nat × Bool} (ho : d.done = some o)
    (hc : s.copyLeft q i = false) : exec (.descComplete q i) s = .next (s.descPost q d o) := by
  refine (next_of_live hd).trans ?_
  simp only [h, ho, hc, Bool.false_eq_true, if_false]

/-- A record written counts in its completion queue. -/
theorem State.writeRecord_written (w : s.Wf) (hp : s.cqPort c = some p) (use : ReqUse) (now : Bool) (r : List Byte) :
    ((s.writeRecord c use now r).cq c).written = (s.cq c).written + 1 := by
  unfold State.writeRecord
  rw [hp]
  dsimp only
  have hcq (v : CqSt) : (s.setCq c v).cq c = v := State.cq_setCq_same w c v
  rw [State.cq, (State.request_spec (w.setCq c _) ..).ports.hl]
  exact congrArg CqSt.written (hcq _)

/-- The record of a decided descriptor is posted, or dropped where its completion queue is off. -/
def State.recordPosted (s : State) (q : Nat) (d : Desc) (o : Nat × Nat × Bool) : State :=
  let c := s.cqOf q
  let t := s.setCq c { s.cq c with reserved := (s.cq c).reserved - 1 }
  if t.cqOn c then t.writeRecord c (.record c) (d.flag 1) (t.descRecord q d o) else t

/-- Its place in the submission queue is given up. -/
def SqSt.completed (v : SqSt) (i : Nat) : SqSt :=
  { v with descs := v.descs.filter (fun e => e.i != i), retired := (retireDone (v.doneSet.length + 1) v.retired (v.doneSet ++ [i])).1
           doneSet := (retireDone (v.doneSet.length + 1) v.retired (v.doneSet ++ [i])).2 }

theorem State.descPost_eq (s : State) (q : Nat) (d : Desc) (o : Nat × Nat × Bool) : s.descPost q d o
    = ((s.recordPosted q d o).setSq q (((s.recordPosted q d o).sq q).completed d.i)).report q := rfl

theorem State.recordPosted_spec (w : s.Wf) (q : Nat) (d : Desc) (o : Nat × Nat × Bool) : Posts s (s.recordPosted q d o)
    ∧ (s.cqOn (s.cqOf q) = true → s.cqPort (s.cqOf q) ≠ none →
        ((s.recordPosted q d o).cq (s.cqOf q)).written = (s.cq (s.cqOf q)).written + 1) := by
  unfold State.recordPosted
  extract_lets c v t
  have ht : Posts s t := (Posts.refl w).setCq rfl
  split
  · refine ⟨ht.trans (State.writeRecord_posts ht.wf ..), fun _ hp => ?_⟩
    obtain ⟨p, hp⟩ := Option.ne_none_iff_exists'.1 hp
    rw [State.writeRecord_written ht.wf (p := p) hp]
    exact (congrArg (CqSt.written · + 1) (State.cq_setCq_same w c { s.cq c with reserved := (s.cq c).reserved - 1 })).trans rfl
  · next hoff => exact ⟨ht, fun hon => absurd hon hoff⟩

theorem SqSt.retired_completed {v : SqSt} (h : v.doneSet = []) (i : Nat) :
    (v.completed i).retired = if i = v.retired then i + 1 else v.retired := by
  simp only [SqSt.completed, h, List.length_nil, List.nil_append, retireDone]
  by_cases hi : i = v.retired
  · subst hi; simp
  · simp [hi, Ne.symm hi]

theorem State.descPost_spec (w : s.Wf) (h : s.desc? q i = some d) (o : Nat × Nat × Bool) : (s.descPost q d o).desc? q i = none
    ∧ ((s.sq q).doneSet = [] → ((s.descPost q d o).sq q).retired = if i = (s.sq q).retired then i + 1 else (s.sq q).retired)
    ∧ (s.cqOn (s.cqOf q) = true → s.cqPort (s.cqOf q) ≠ none →
        ((s.descPost q d o).cq (s.cqOf q)).written = (s.cq (s.cqOf q)).written + 1)
    ∧ (s.descPost q d o).mem = s.mem ∧ (s.descPost q d o).cores = s.cores := by
  obtain rfl := State.desc?_index h
  obtain ⟨hpost, hwritten⟩ := State.recordPosted_spec w q d o
  have hops := State.report_lineOps (hpost.wf.setSq q (((s.recordPosted q d o).sq q).completed d.i)) q
  have hsq : (s.descPost q d o).sq q = (s.sq q).completed d.i := by
    rw [State.descPost_eq, hops.sq, State.sq_setSq_same hpost.wf, hpost.sq]
  refine ⟨?_, fun hs => ?_, fun hon hp => ?_, hops.mem.trans hpost.mem, hops.cores.trans hpost.cores⟩
  · rw [State.desc?, hsq, SqSt.completed]
    simp
  · rw [hsq, SqSt.retired_completed hs]
  · exact (congrArg CqSt.written (hops.cq (s.cqOf q))).trans (hwritten hon hp)

end Sys2Proof.Machine
end

section
/-! SUPPORT. The end of a deadline slot (R346, Table 12.11): memory that a cut COPY_IN or JOB_LOAD leaves, the discarded job. -/

namespace Sys2Proof.Machine
open Sys2Proof

-- Proofs elaborated in threads of their own would pass the check's limit of memory.
set_option Elab.async false

variable {s t u : State} {p q i : Nat} {d : Desc} {P : Nat → Prop} {R : Nat → Prop}

/-! ### Memory that is written over -/

/-- From `s` to `t` device memory has changed at the addresses of `P` alone, and nothing else but free values. -/
structure Overwritten (P : Nat → Prop) (s t : State) : Prop where
  wf    : t.Wf
  frame : t = { s with mem := t.mem, bad := t.bad, free := t.free }
  bytes : ∀ a, ¬ P a → t.byte a = s.byte a

namespace Overwritten

theorem refl (w : s.Wf) (P : Nat → Prop) : Overwritten P s s := ⟨w, rfl, fun _ _ => rfl⟩

theorem trans (h : Overwritten P s t) (k : Overwritten P t u) : Overwritten P s u :=
  ⟨k.wf, by rw [k.frame, h.frame], fun a ha => (k.bytes a ha).trans (h.bytes a ha)⟩

theorem store (h : Overwritten P s t) {a : Nat} {bs : List Byte} (hP : ∀ y, a ≤ y → y < a + bs.length → P y) : Overwritten P s (t.store a bs) :=
  h.trans ⟨h.wf.store a bs, rfl, fun y hy => by
    rw [State.byte_store h.wf.mem, if_neg]
    rintro ⟨h1, h2⟩
    exact hy (hP y h1 h2)⟩

theorem scramble (h : Overwritten P s t) {f : Nat → Bool} (hP : ∀ y, f y = true → P y) : Overwritten P s (t.scramble f) :=
  h.trans ⟨h.wf.scramble f, rfl, fun y hy => State.scramble_byte h.wf (by
    cases hf : f y
    · rfl
    · exact absurd (hP y hf) hy)⟩

theorem draw (h : Overwritten P s t) : Overwritten P s t.draw.2 := h.trans ⟨(Keeps.refl t).draw.wf h.wf, rfl, fun _ _ => rfl⟩

theorem foldl {α : Type} {f : State → α → State} {l : List α} (h : Overwritten P s t)
    (hf : ∀ {t} x, x ∈ l → Overwritten P s t → Overwritten P s (f t x)) : Overwritten P s (l.foldl f t) :=
  List.foldlRecOn (motive := Overwritten P s) _ _ h fun _ h x hx => hf x hx h

theorem hl (h : Overwritten P s t) : t.hl = s.hl := by rw [h.frame]
theorem regs (h : Overwritten P s t) : t.regs = s.regs := by rw [h.frame]
theorem cores (h : Overwritten P s t) : t.cores = s.cores := by rw [h.frame]
theorem job (h : Overwritten P s t) : t.job = s.job := by rw [h.frame]

end Overwritten

/-! ### A COPY_IN cut short -/

theorem State.drawBlock_spec (h : Overwritten P s t) : Overwritten P s t.drawBlock.2 ∧ t.drawBlock.1.length = 64 := by
  have hgo (l : List Nat) : ∀ x : List Byte × State, Overwritten P s x.2 →
      Overwritten P s (l.foldl (fun x _ => (x.1 ++ leBytes 8 x.2.draw.1.toNat, x.2.draw.2)) x).2
        ∧ (l.foldl (fun x _ => (x.1 ++ leBytes 8 x.2.draw.1.toNat, x.2.draw.2)) x).1.length = x.1.length + 8 * l.length := by
    induction l with
    | nil => exact fun x hx => ⟨hx, rfl⟩
    | cons y l ih =>
      intro x hx
      obtain ⟨h1, h2⟩ := ih (x.1 ++ leBytes 8 x.2.draw.1.toNat, x.2.draw.2) hx.draw
      refine ⟨h1, h2.trans ?_⟩
      simp only [List.length_append, length_leBytes, List.length_cons]
      omega
  exact hgo (List.range 8) ([], t) h

/-- The blocks of an aligned range lie in it. -/
theorem mem_blocksOf_aligned {a n b : Nat} (ha : a % 64 = 0) (hn : n % 64 = 0) (hb : b ∈ blocksOf a n) : a ≤ b ∧ b + 64 ≤ a + n := by
  unfold blocksOf at hb
  split at hb
  · cases hb
  · obtain ⟨k, hk, rfl⟩ := List.mem_map.1 hb
    rw [List.mem_range] at hk
    omega

/-- A COPY_IN that ends without its data changes no byte outside its range (Table 12.11). -/
theorem State.brokenCopy_spec (w : s.Wf) {a n : Nat} (ha : a % 64 = 0) (hn : n % 64 = 0) :
    Overwritten (fun y => a ≤ y ∧ y < a + n) s (s.brokenCopy a n) := by
  refine (Overwritten.refl w _).foldl fun {t} b hb h => ?_
  obtain ⟨hlow, hhigh⟩ := mem_blocksOf_aligned ha hn hb
  dsimp only
  split
  · exact h.draw
  · obtain ⟨hblock, hlen⟩ := State.drawBlock_spec h.draw
    refine hblock.store fun y h1 h2 => ?_
    rw [hlen] at h2
    omega

/-! ### The discarded job -/

theorem State.reg_dropRegs (s : State) {f : Nat → Bool} {r : Nat} (h : f r = false) : (s.dropRegs f).reg r = s.reg r := by
  rw [State.reg, State.dropRegs, mapGet_mapDrop, h]
  rfl

/-- Every bank of a core is EMPTY. -/
def State.emptyBanks (s : State) (n : Nat) : State :=
  (s.setReg (rCore n oBank) 0).setCore n { s.core n with bank0 := [], bank1 := [], load0 := none, load1 := none, entry := none }

/-- The registers that a discarded job leaves at reset. -/
def discardReg (r : Nat) : Prop := (rBuJobStat ≤ r ∧ r ≤ rBuJobDigest 7) ∨ coreReg r ∨ r = rPwrFloor ∨ r = rBuState

/-- The state with the job's registers at reset and every bank EMPTY. -/
def State.unloaded (s : State) : State :=
  (List.range numCores).foldl State.emptyBanks (s.dropRegs (fun a => rBuJobStat ≤ a ∧ a ≤ rBuJobDigest 7))

/-- No job. -/
def State.jobless (s : State) : State :=
  { s with job := none, stp := StepSt.reset, hl := { s.hl with restored := none }, pwr := { s.pwr with fsched := 0 } }

theorem State.discardJob_eq (s : State) : s.discardJob = (s.unloaded.setFld rPwrFloor 32 12 0).jobless.setBu stLoad := by
  unfold State.discardJob State.unloaded State.jobless State.emptyBanks
  with_reducible rfl

theorem State.emptyBanks_foldl (w : s.Wf) (l : List Nat) : CoresOnly s (l.foldl State.emptyBanks s) ∧ (l.foldl State.emptyBanks s).Wf
    ∧ ∀ r, ¬ coreReg r → (l.foldl State.emptyBanks s).reg r = s.reg r := by
  induction l generalizing s with
  | nil => exact ⟨rfl, w, fun _ _ => rfl⟩
  | cons n l ih =>
    obtain ⟨hframe, hwf, hregs⟩ := ih (s := s.emptyBanks n) ((Keeps.refl s).setReg.setCore.wf w)
    refine ⟨CoresOnly.trans (t := s.emptyBanks n) rfl hframe, hwf, fun r hr => (hregs r hr).trans ?_⟩
    exact State.reg_setReg_ne w.regs (fun e => hr (by rw [e]; exact coreReg_rCore n oBank)) 0

theorem State.unloaded_spec (w : s.Wf) : CoresOnly s s.unloaded ∧ s.unloaded.Wf
    ∧ ∀ r, ¬ (rBuJobStat ≤ r ∧ r ≤ rBuJobDigest 7) → ¬ coreReg r → s.unloaded.reg r = s.reg r := by
  have hdrop : (s.dropRegs (fun a => rBuJobStat ≤ a ∧ a ≤ rBuJobDigest 7)).Wf := (Keeps.refl s).dropRegs.wf w
  have hall := State.emptyBanks_foldl hdrop (List.range numCores)
  unfold State.unloaded
  generalize (List.range numCores).foldl State.emptyBanks _ = t at hall ⊢
  obtain ⟨hframe, hwf, hregs⟩ := hall
  refine ⟨CoresOnly.trans (t := s.dropRegs (fun a => rBuJobStat ≤ a ∧ a ≤ rBuJobDigest 7)) rfl hframe, hwf, fun r hjob hcore => ?_⟩
  exact (hregs r hcore).trans (s.reg_dropRegs (by simpa using hjob))

theorem State.Wf.jobless (w : s.Wf) : s.jobless.Wf := ⟨w.regs, w.mem, w.ports, w.cores, w.sram, w.sqs, w.cqs⟩

/-- What a discarded job leaves: LOAD, no job, the queues and what was sent as before (R362). -/
structure Discarded (s t : State) : Prop where
  wf    : t.Wf
  bu    : t.bu = 4
  frame : t = { s with regs := t.regs, cores := t.cores, job := none, stp := StepSt.reset, hl := { s.hl with restored := none }
                       pwr := { s.pwr with fsched := 0 } }
  regs  : ∀ r, ¬ discardReg r → t.reg r = s.reg r

theorem Discarded.of_coresOnly (hframe : CoresOnly s t) (hwf : t.Wf)
    (hregs : ∀ r, ¬ (rBuJobStat ≤ r ∧ r ≤ rBuJobDigest 7) → ¬ coreReg r → t.reg r = s.reg r) :
    Discarded s ((t.setFld rPwrFloor 32 12 0).jobless.setBu stLoad) := by
  have hless : (t.setFld rPwrFloor 32 12 0).jobless.Wf := ((Keeps.refl t).setFld.wf hwf).jobless
  refine ⟨(Keeps.refl _).setBu.wf hless, State.bu_setBu hless (by decide), ?_, fun r hr => ?_⟩
  · rw [CoresOnly] at hframe
    rw [hframe]
    rfl
  · simp only [discardReg, not_or] at hr
    obtain ⟨hjob, hcore, hfloor, hbu⟩ := hr
    exact (State.reg_setReg_ne hless.regs hbu _).trans ((State.reg_setReg_ne hwf.regs hfloor _).trans (hregs r hjob hcore))

theorem State.discardJob_spec (w : s.Wf) : Discarded s s.discardJob := by
  obtain ⟨hframe, hwf, hregs⟩ := State.unloaded_spec w
  rw [State.discardJob_eq]
  exact Discarded.of_coresOnly hframe hwf hregs

end Sys2Proof.Machine
end

section
/-! SUPPORT. DESC_DEADLINE (R346): the end of a descriptor's deadline slot. -/

namespace Sys2Proof.Machine
open Sys2Proof

-- Proofs elaborated in threads of their own would pass the check's limit of memory.
set_option Elab.async false

variable {s t u : State} {q i b : Nat} {d : Desc}

/-! ### The end of the deadline slot -/

/-- DESC_TIMEOUT at slot `b`: the descriptor is decided, and nothing waits for it any more. -/
def State.timeOut (s : State) (q i b : Nat) : State := (((s.advanceTo b).startDesc q i).decideDesc q i cDescTimeout 0 false).dropWaits q i

/-- Device memory, cores, job and the registers but for pack time are as before. -/
structure TimedOut (b : Nat) (s t : State) : Prop where
  now   : t.now = max s.now b
  regs  : ∀ r, r ≠ rPfPackTime → t.reg r = s.reg r
  frame : t = { s with regs := t.regs, ports := t.ports, outbox := t.outbox, hl := t.hl }

theorem State.dropWaits_frame (s : State) (q i : Nat) : s.dropWaits q i
    = { s with ports := (s.dropWaits q i).ports, hl := { s.hl with ctxReqs := (s.dropWaits q i).hl.ctxReqs } } := by
  have h := (PortsOnly.refl s).foldl (l := s.hlPorts) (f := fun s p => s.setPort p ((s.port p).cutCopy q i)) fun p h => h.setPort p _
  have hout : (s.hlPorts.foldl (fun s p => s.setPort p ((s.port p).cutCopy q i)) s).outbox = s.outbox :=
    List.foldlRecOn (motive := fun t : State => t.outbox = s.outbox) _ _ rfl fun _ h _ _ => h
  unfold State.dropWaits
  rw [PortsOnly] at h
  rw [h, hout]

theorem State.timeOut_spec (w : s.Wf) (h : s.desc? q i = some d) (hn : d.done = none) (hb : b < 2 ^ 64) :
    TimedOut b s (s.timeOut q i b) ∧ ∃ e, (s.timeOut q i b).desc? q i = some e ∧ e.done = some (cDescTimeout, 0, false) := by
  have hw := State.advanceTo_wf w b
  have hdesc : (s.advanceTo b).desc? q i = some d := by
    rw [← h, s.advanceTo_frame b]
    rfl
  have hsw := State.startDesc_wf hw q i
  have hout := State.desc?_decideDesc hsw (State.desc?_startDesc hw hdesc) hn cDescTimeout 0 false
  have hframe := s.advanceTo_frame b
  have hnow := State.now_advanceTo_max w hb
  have hregs (r : Nat) (hr : r ≠ rPfPackTime) := State.advanceTo_reg w b hr
  rw [State.timeOut, State.dropWaits_frame]
  generalize s.advanceTo b = t at *
  refine ⟨⟨hnow, hregs, ?_⟩, _, hout, rfl⟩
  rw [hframe]
  rfl

/-! ### What a deadline cuts short -/

/-- What the end of the deadline slot leaves of a COPY_IN or a JOB_LOAD under way (Table 12.11, R364). -/
def State.cutShort (s : State) (q i : Nat) (d : Desc) : State :=
  if d.f 0 1 = 2 ∧ d.fetchAt ≤ d.deadline ∧ copyBad (d.f 16 8) (d.f 24 8) (d.f 32 8) = false ∧ s.copyCode (d.f 24 8) (d.f 32 8) = 0 then
    s.brokenCopy (d.f 24 8) (d.f 32 8)
  else if d.f 0 1 = 6 ∧ d.fetchAt ≤ d.deadline ∧ s.bu = stReady ∧ d.f 16 8 % 64 = 0 ∧ d.f 24 8 ≠ 0 ∧ (s.startable? q i 6).isSome then
    s.discardJob.loosen s.job.toList
  else s

theorem exec_descDeadline (hd : s.dark = false) (h : s.desc? q i = some d) (hn : d.done = none) (hb : d.deadline ≠ 0) :
    exec (.descDeadline q i) s = .next ((s.cutShort q i d).timeOut q i d.deadline).settle := by
  refine (next_of_live hd).trans ?_
  simp only [h, hn, hb, ne_eq, not_false_eq_true, Option.isNone_none, and_self, if_true]
  rfl

theorem Desc.deadline_lt (d : Desc) : d.deadline < 2 ^ 64 := by
  unfold Desc.deadline
  split
  · decide
  · exact fieldLe_lt d.bytes 8 8

/-- A COPY whose fields R341 allows moves whole lines. -/
theorem aligned_of_copyBad {host dev n : Nat} (h : copyBad host dev n = false) : dev % 64 = 0 ∧ n % 64 = 0 := by
  simp only [copyBad, Bool.or_eq_false_iff, bne_eq_false_iff_eq] at h
  tauto

/-- A JOB_LOAD under way in READY, with fields that R341 allows: its deadline has discarded the job (R364). -/
structure State.LoadCut (s : State) (q i : Nat) (d : Desc) : Prop where
  starts  : s.startable? q i 6 = some d
  ready   : s.bu = 5
  fetched : d.fetchAt ≤ d.deadline
  aligned : d.f 16 8 % 64 = 0
  bytes   : d.f 24 8 ≠ 0

/-- Nothing but a COPY_IN's range is written over, unless a JOB_LOAD in READY is cut short. -/
theorem State.cutShort_keeps (w : s.Wf) (h : s.desc? q i = some d) (hload : ¬ s.LoadCut q i d) :
    Overwritten (fun y => d.f 24 8 ≤ y ∧ y < d.f 24 8 + d.f 32 8) s (s.cutShort q i d) ∧ (d.f 0 1 ≠ 2 → s.cutShort q i d = s) := by
  unfold State.cutShort
  split
  · next hc =>
    obtain ⟨h2, -, hgood, -⟩ := hc
    obtain ⟨hdev, hlen⟩ := aligned_of_copyBad hgood
    exact ⟨State.brokenCopy_spec w hdev hlen, (absurd h2)⟩
  · split
    · next hc =>
      obtain ⟨-, hfetch, hbu, ha, hl, hs⟩ := hc
      obtain ⟨e, he⟩ := Option.isSome_iff_exists.1 hs
      obtain rfl : d = e := Option.some.inj (h.symm.trans (State.startable?_spec he).1)
      exact absurd ⟨he, hbu, hfetch, ha, hl⟩ hload
    · exact ⟨.refl w _, fun _ => rfl⟩

theorem State.LoadCut.cutShort (h : s.LoadCut q i d) : s.cutShort q i d = s.discardJob.loosen s.job.toList := by
  obtain ⟨hs, hbu, hf, ha, hl⟩ := h
  obtain ⟨-, -, h6⟩ := State.startable?_spec hs
  rw [State.cutShort, if_neg (by rw [h6]; exact fun h => absurd h.1 (by decide)), if_pos]
  exact ⟨h6, hf, hbu, ha, hl, by rw [hs]; rfl⟩

theorem not_discardReg_rMemDdr : ¬ discardReg rMemDdr := by
  unfold discardReg coreReg
  decide

theorem not_discardReg_rPfPackTime : ¬ discardReg rPfPackTime := by
  unfold discardReg coreReg
  decide

theorem Discarded.declares (h : Discarded s t) (j : Job) (a : Nat) : t.declares j a = s.declares j a := by
  have hddr : t.ddrC = s.ddrC := by
    unfold State.ddrC State.fld
    rw [h.regs rMemDdr not_discardReg_rMemDdr]
  simp only [State.declares, hddr]

/-- Of the discarded job's memory only the declared bytes become unspecified. -/
theorem State.loosen_discardJob (w : s.Wf) :
    Overwritten (fun a => ∃ k ∈ s.job, s.declares k a = true) s.discardJob (s.discardJob.loosen s.job.toList) := by
  have h := State.discardJob_spec w
  refine (Overwritten.refl h.wf _).scramble fun y hy => ?_
  obtain ⟨k, hk, hdecl⟩ := List.any_eq_true.1 hy
  exact ⟨k, by simpa using hk, (h.declares k y).symm.trans hdecl⟩

/-- Without a job no core waits. -/
theorem State.settle_of_noJob (h : s.job = none) : s.settle = s :=
  State.settle_of_noneWaits fun n hn => by simp [State.used, h] at hn

/-- DESC_DEADLINE decides the descriptor, wherever what it cuts short leaves the queues, pack time and no waiting core. -/
theorem State.deadline_spec (w : t.Wf) (hdesc : t.desc? q i = s.desc? q i) (hnow : t.now = s.now) (h : s.desc? q i = some d)
    (hn : d.done = none) (hsettle : ∀ u : State, u.job = t.job → u.cores = t.cores → u.settle = u) :
    ∃ e, (t.timeOut q i d.deadline).settle = t.timeOut q i d.deadline ∧ TimedOut d.deadline t (t.timeOut q i d.deadline)
      ∧ (t.timeOut q i d.deadline).desc? q i = some e ∧ e.done = some (cDescTimeout, 0, false)
      ∧ (t.timeOut q i d.deadline).now = max s.now d.deadline := by
  obtain ⟨hout, e, he, hdone⟩ := State.timeOut_spec w (hdesc.trans h) hn d.deadline_lt
  refine ⟨e, hsettle _ ?_ ?_, hout, he, hdone, hout.now.trans (by rw [hnow])⟩ <;> rw [hout.frame]

/-- DESC_DEADLINE where no JOB_LOAD in READY is cut short. -/
theorem State.descDeadline_keeps (w : s.Wf) (h : s.desc? q i = some d) (hn : d.done = none) (hwait : s.anyWaits = false)
    (hload : ¬ s.LoadCut q i d) : ∃ e, let t := (s.cutShort q i d).timeOut q i d.deadline
      t.settle = t ∧ t.desc? q i = some e ∧ e.done = some (cDescTimeout, 0, false) ∧ t.now = max s.now d.deadline
        ∧ (∀ r, r ≠ rPfPackTime → t.reg r = s.reg r) ∧ t.cores = s.cores ∧ (d.f 0 1 ≠ 2 → t.mem = s.mem)
        ∧ ∀ a, a < d.f 24 8 ∨ d.f 24 8 + d.f 32 8 ≤ a → t.byte a = s.byte a := by
  obtain ⟨hcut, hsame⟩ := State.cutShort_keeps w h hload
  generalize s.cutShort q i d = x at hcut hsame
  have hdesc : x.desc? q i = s.desc? q i := by rw [hcut.frame]; rfl
  have hnow : x.now = s.now := by rw [hcut.frame]; rfl
  have hsettle : ∀ u : State, u.job = x.job → u.cores = x.cores → u.settle = u := fun u hj hc =>
    State.settle_sameWindows (s := s) (hj.trans hcut.job) (fun n => by rw [State.core, hc, hcut.cores]; exact ⟨rfl, rfl⟩) hwait
  obtain ⟨e, hset, hout, he, hdone, hmax⟩ := State.deadline_spec hcut.wf hdesc hnow h hn hsettle
  generalize x.timeOut q i d.deadline = t at *
  have hmem : t.mem = x.mem := by rw [hout.frame]
  have hbyte (a : Nat) : t.byte a = x.byte a := by rw [hout.frame]; rfl
  refine ⟨e, hset, he, hdone, hmax, fun r hr => (hout.regs r hr).trans ?_, ?_, fun h2 => hmem.trans (by rw [hsame h2]), fun a ha => ?_⟩
  · rw [State.reg, hcut.regs]; rfl
  · rw [hout.frame]; exact hcut.cores
  · exact (hbyte a).trans (hcut.bytes a fun hin => by omega)

/-- DESC_DEADLINE where the job has been discarded to `x` and declared bytes loosened to `y`. -/
theorem Discarded.descDeadline {x y : State} (hdisc : Discarded s x) (hloose : Overwritten (fun a => ∃ k ∈ s.job, s.declares k a = true) x y)
    (h : s.desc? q i = some d) (hn : d.done = none) : ∃ e, let t := y.timeOut q i d.deadline
      t.settle = t ∧ t.desc? q i = some e ∧ e.done = some (cDescTimeout, 0, false) ∧ t.now = max s.now d.deadline
        ∧ t.bu = 4 ∧ t.job = none ∧ ∀ a, (∀ k ∈ s.job, s.declares k a = false) → t.byte a = s.byte a := by
  have hdesc : y.desc? q i = s.desc? q i := by rw [hloose.frame, hdisc.frame]; rfl
  have hnow : y.now = s.now := by
    rw [State.now, State.reg, hloose.regs]
    exact hdisc.regs rPfPackTime not_discardReg_rPfPackTime
  have hjob : y.job = none := by rw [hloose.job, hdisc.frame]
  have hsettle : ∀ u : State, u.job = y.job → u.cores = y.cores → u.settle = u := fun u hj _ => State.settle_of_noJob (hj.trans hjob)
  obtain ⟨e, hset, hout, he, hdone, hmax⟩ := State.deadline_spec hloose.wf hdesc hnow h hn hsettle
  generalize y.timeOut q i d.deadline = t at *
  refine ⟨e, hset, he, hdone, hmax, ?_, by rw [hout.frame]; exact hjob, fun a hdecl => ?_⟩
  · rw [State.bu, State.fld, hout.regs _ (by decide), State.reg, hloose.regs]
    exact hdisc.bu
  · have hbyte : t.byte a = y.byte a := by rw [hout.frame]; rfl
    have hx : x.byte a = s.byte a := by rw [hdisc.frame]; rfl
    refine hbyte.trans ((hloose.bytes a ?_).trans hx)
    rintro ⟨k, hk, htrue⟩
    exact absurd (hdecl k hk) (by rw [htrue]; decide)

/-- DESC_DEADLINE where a JOB_LOAD in READY is cut short. -/
theorem State.LoadCut.descDeadline (w : s.Wf) (hc : s.LoadCut q i d) : ∃ e, let t := (s.cutShort q i d).timeOut q i d.deadline
      t.settle = t ∧ t.desc? q i = some e ∧ e.done = some (cDescTimeout, 0, false) ∧ t.now = max s.now d.deadline
        ∧ t.bu = 4 ∧ t.job = none ∧ ∀ a, (∀ k ∈ s.job, s.declares k a = false) → t.byte a = s.byte a := by
  obtain ⟨h, hn, -⟩ := State.startable?_spec hc.starts
  rw [hc.cutShort]
  exact (State.discardJob_spec w).descDeadline (State.loosen_discardJob w) h hn

/-- The end of the deadline slot of an undecided descriptor (R346, Table 12.11). -/
theorem State.descDeadline_spec (w : s.Wf) (hd : s.dark = false) (h : s.desc? q i = some d) (hn : d.done = none) (hb : d.deadline ≠ 0)
    (hwait : s.anyWaits = false) : ∃ t e, exec (.descDeadline q i) s = .next t
      ∧ t.desc? q i = some e ∧ e.done = some (cDescTimeout, 0, false) ∧ t.now = max s.now d.deadline
      ∧ (d.f 0 1 ≠ 6 ∨ s.bu ≠ 5 → (∀ r, r ≠ rPfPackTime → t.reg r = s.reg r) ∧ t.cores = s.cores
        ∧ (d.f 0 1 ≠ 2 → t.mem = s.mem) ∧ ∀ a, a < d.f 24 8 ∨ d.f 24 8 + d.f 32 8 ≤ a → t.byte a = s.byte a)
      ∧ (s.startable? q i 6 = some d → s.bu = 5 → d.fetchAt ≤ d.deadline → d.f 16 8 % 64 = 0 → d.f 24 8 ≠ 0 →
        t.bu = 4 ∧ t.job = none ∧ (∀ a, (∀ k ∈ s.job, s.declares k a = false) → t.byte a = s.byte a)) := by
  have hexec := exec_descDeadline hd h hn hb
  by_cases hload : s.LoadCut q i d
  · obtain ⟨e, hset, he, hdone, hmax, hafter⟩ := hload.descDeadline w
    refine ⟨_, e, hexec.trans (by rw [hset]), he, hdone, hmax, fun hkeep => ?_, fun _ _ _ _ _ => hafter⟩
    exact absurd hload.ready (hkeep.resolve_left (not_not.2 (State.startable?_spec hload.starts).2.2))
  · obtain ⟨e, hset, he, hdone, hmax, hafter⟩ := State.descDeadline_keeps w h hn hwait hload
    exact ⟨_, e, hexec.trans (by rw [hset]), he, hdone, hmax, fun _ => hafter,
      fun hs hbu hf ha hl => absurd ⟨hs, hbu, hf, ha, hl⟩ hload⟩

/-! ### The obligation -/

/-- Settles O53: a CFG write goes by ENABLE and the queue's state; fetch, WAKE, outcome and completion by what each command leaves of
the queues; the end of the deadline slot by what it cuts short. -/
theorem queuesAndDescriptors : Obligations.QueuesAndDescriptors := by
  unfold Obligations.QueuesAndDescriptors
  intro q i v s w hd hq en sqr cqr
  have hsq := exec_hlSqCfgWrite hd hq v
  have hcq := exec_hlCqCfgWrite hd hq v
  have hevq := exec_hlEvqCfgWrite hd v
  have hsqOff (h : s.sqOn q = false) := State.sqCfg_off_spec (v := v.toNat) w h
  have hcqOff (h : s.cqOn q = false) := State.cqCfg_off_spec (v := v.toNat) w h
  have hevqOff (h : s.fld rHlEvqCfg 0 1 = 0) := State.evqCfg_off_spec (v := v.toNat) w h
  refine ⟨?sqOff, ?sqEnable, ?sqOn, ?cqOff, ?cqEnable, ?cqOn, ?evqOff, ?evqEnable, ?evqOn, ?fetch, ?wake, ?nop, ?deadline, ?complete⟩
  case sqOff => exact fun hoff he => ⟨_, hsq, (hsqOff hoff).1 he⟩
  case sqEnable => exact fun hoff he => ⟨fun hv => ⟨_, hsq, (hsqOff hoff).2.1 he hv⟩, fun hv => ⟨_, hsq, (hsqOff hoff).2.2 he hv⟩⟩
  case sqOn =>
    exact fun hon => ⟨fun he => hsq.trans (by rw [State.sqCfg_stays hon he]), fun he => ⟨_, hsq, State.sqCfg_disables_spec w hon he⟩⟩
  case cqOff => exact fun hoff he => ⟨_, hcq, (hcqOff hoff).1 he⟩
  case cqEnable => exact fun hoff he => ⟨fun hv => ⟨_, hcq, (hcqOff hoff).2.1 he hv⟩, fun hv => ⟨_, hcq, (hcqOff hoff).2.2 he hv⟩⟩
  case cqOn =>
    exact fun hon => ⟨fun he => hcq.trans (by rw [State.cqCfg_stays hon he]), fun he => ⟨_, hcq, State.cqCfg_disables_spec w hon he⟩⟩
  case evqOff => exact fun hoff he => ⟨_, hevq, (hevqOff hoff).1 he⟩
  case evqEnable => exact fun hoff he => ⟨fun hv => ⟨_, hevq, (hevqOff hoff).2.1 he hv⟩, fun hv => ⟨_, hevq, (hevqOff hoff).2.2 he hv⟩⟩
  case evqOn =>
    exact fun hon => ⟨fun he => hevq.trans (by rw [State.evqCfg_stays hon he]), fun he => ⟨_, hevq, State.evqCfg_disables_spec w hon he⟩⟩
  case fetch =>
    intro k p hp hon hk hroom hc
    obtain ⟨hw, hpend, hreserved⟩ := State.fetchNoted_spec w q
    have hasked := State.request_spec hw p opRdOnce (2 ^ 12 * s.fld (rHlSqBase q) 12 40 + 64 * (k % s.sqSize q)) 1 (.desc q k) []
    refine ⟨_, exec_descFetch hd hp hon hk hroom hc, ?_, ?_, hasked.ports.regs, hasked.ports.mem, ?_⟩
    · rw [State.sq, hasked.ports.hl]
      exact hpend
    · rw [State.cq, hasked.ports.hl]
      exact hreserved
    · exact ⟨_, by rw [hasked.reqs]; exact List.mem_append_right _ (List.mem_singleton_self _), rfl, rfl, rfl⟩
  case wake =>
    intro b p hb ht
    have hexec := exec_wakeTimer hd hb ht
    refine ⟨fun hearly => hexec.trans (by rw [if_neg (Nat.not_le.2 hearly)]), fun hdue hs hu hp hup hempty hroom hc => ?_⟩
    rw [if_pos hdue] at hexec
    have hcq' : (s.setCq q { s.cq q with wakeDue := true }).cq q = { s.cq q with wakeDue := true } := State.cq_setCq_same w q _
    obtain ⟨hsince, hregs, hmem, hout⟩ := State.wake_sends (w.setCq q _) (by rw [hcq']; exact hs) (by rw [hcq']; exact hu) (by rw [hcq']) hp
      ⟨hup, hempty, hroom⟩ hc
    exact ⟨_, hexec, hsince, hregs, hmem, hout⟩
  case nop =>
    intro d h
    obtain ⟨hdesc, hn, -⟩ := State.startable?_spec h
    obtain ⟨hframe, -, e, he, hdone⟩ := State.finish_spec w hdesc hn (if s.tooLate d = true then cDescTimeout else 0) 0
    exact ⟨_, e, exec_nop hd h, hframe, he, hdone⟩
  case deadline => exact fun d h hn hb hwait => State.descDeadline_spec w hd h hn hb hwait
  case complete => exact fun d o h ho hc => ⟨_, exec_descComplete hd h ho hc, State.descPost_spec w h o⟩

end Sys2Proof.Machine
end

section
/-! SUPPORT. The install of a job (R366) and the load of a slot (R206): memory that is written, registers that are set. -/

namespace Sys2Proof.Machine
open Sys2Proof

-- Proofs elaborated in threads of their own would pass the check's limit of memory.
set_option Elab.async false

variable {s t u : State} {j : Job} {q n r : Nat}

/-! ### Device memory rewritten -/

/-- Nothing but device memory and free values has changed. -/
def Rewritten (s t : State) : Prop := Overwritten (fun _ => True) s t

namespace Rewritten

theorem store (h : Rewritten s t) (a : Nat) (bs : List Byte) : Rewritten s (t.store a bs) := Overwritten.store h fun _ _ _ => trivial

theorem zero (h : Rewritten s t) (a n : Nat) : Rewritten s (t.zero a n) :=
  Overwritten.trans h ⟨(Keeps.refl t).zero.wf h.wf, rfl, fun _ hy => absurd trivial hy⟩

theorem ite {c : Prop} [Decidable c] (h : Rewritten s t) (k : Rewritten s u) : Rewritten s (if c then t else u) := by
  split
  · exact h
  · exact k

theorem fillPart (h : Rewritten s t) (j : Job) (x : Tensor) (p : Place) (slots : List Nat) (bs : List Byte) :
    Rewritten s (t.fillPart j x p slots bs) := Overwritten.foldl h fun _ _ h => Rewritten.store h ..

theorem initPart (h : Rewritten s t) (j : Job) (p : Place) : Rewritten s (t.initPart j p) := by
  unfold State.initPart
  split
  · exact h
  · extract_lets n all
    split
    · exact h.fillPart ..
    · exact .ite (h.fillPart ..) (.ite (h.fillPart ..) (.ite (h.fillPart ..) h))

theorem putSection (h : Rewritten s t) (j : Job) (a : SnapAt) (c : Section) (bs : List Byte) : Rewritten s (t.putSection j a c bs) := by
  unfold State.putSection
  split
  · exact h
  · extract_lets v
    refine .ite ?_ (Overwritten.foldl h fun x _ h => ?_)
    · split
      · exact h.store ..
      · exact h
    · dsimp only
      split
      · exact h
      · exact Rewritten.ite (Rewritten.store h ..) (Rewritten.store h ..)

theorem clearBuffers (h : Rewritten s t) (j : Job) : Rewritten s (t.clearBuffers j) :=
  Overwritten.foldl h fun _ _ h => by
    split
    · exact Rewritten.ite (Rewritten.store h ..) h
    · exact h

end Rewritten

/-! ### A register for each entry of a list -/

theorem State.onRegs_foldl_setReg (w : s.Wf) (f v : Nat → Nat) (l : List Nat) : OnRegs (l.map f) s (l.foldl (fun s k => s.setReg (f k) (v k)) s) :=
  List.foldlRecOn (motive := OnRegs (l.map f) s) _ _ (.refl w _) fun _ h _ hk => h.setReg (List.mem_map_of_mem hk)

theorem State.reg_foldl_setReg (w : s.Wf) {f v : Nat → Nat} (hf : Function.Injective f) (hv : ∀ k, v k < 2 ^ 64) {l : List Nat} {k : Nat} (hk : k ∈ l) :
    (l.foldl (fun s k => s.setReg (f k) (v k)) s).reg (f k) = v k := by
  induction l generalizing s with
  | nil => cases hk
  | cons x l ih =>
    have hw : (s.setReg (f x) (v x)).Wf := (Quiet.setReg s (f x) (v x)).wf w
    by_cases hin : k ∈ l
    · exact ih hw hin
    · obtain rfl := (List.mem_cons.1 hk).resolve_right hin
      have hnew : f k ∉ l.map f := by rwa [List.mem_map_of_injective hf]
      exact ((State.onRegs_foldl_setReg hw f v l).reg hnew).trans (State.reg_setReg_same w.regs _ (hv k))

/-! ### The cores -/

/-- Nothing but cores and their registers has changed. -/
structure CoreSide (s t : State) : Prop where
  wf   : t.Wf
  only : CoresOnly s t
  low  : ∀ r, r < coreBase → t.reg r = s.reg r

namespace CoreSide

theorem refl (w : s.Wf) : CoreSide s s := ⟨w, rfl, fun _ _ => rfl⟩

theorem trans (h : CoreSide s t) (k : CoreSide t u) : CoreSide s u :=
  ⟨k.wf, h.only.trans k.only, fun r hr => (k.low r hr).trans (h.low r hr)⟩

theorem setReg (h : CoreSide s t) (n o v : Nat) : CoreSide s (t.setReg (rCore n o) v) :=
  h.trans ⟨(Quiet.setReg t _ v).wf h.wf, rfl, fun _ hr => State.reg_setReg_ne h.wf.regs (rCore_ne_low hr).symm v⟩

theorem setCfld (h : CoreSide s t) (n o lo l v : Nat) : CoreSide s (t.setCfld n o lo l v) := h.setReg n o _

theorem setCore (h : CoreSide s t) {c : CoreSt} (hc : c.sram = (t.core n).sram) : CoreSide s (t.setCore n c) :=
  h.trans ⟨h.wf.setCore n (hc ▸ h.wf.core n), rfl, fun _ _ => rfl⟩

end CoreSide

theorem State.installCore_coreSide (w : s.Wf) (j : Job) (n : Nat) : CoreSide s (s.installCore j n) :=
  ((((((CoreSide.refl w).setReg n oCount 0).setReg n oLast 0).setCfld n oHeel 0 16 0xFFFF).setReg n oBank _).setReg n oNwThresh _).setCore rfl

/-- Bank 0 of an installed core is ACTIVE; the banks of the others stay. -/
theorem State.bankState_installCore (w : s.Wf) (j : Job) (n k : Nat) :
    (s.installCore j n).bankState k 0 = if k = n then 3 else s.bankState k 0 := by
  unfold State.installCore
  extract_lets e seg bytes s1 s2 s3
  have h1 : CoreSide s s1 := (((CoreSide.refl w).setReg n oCount 0).setReg n oLast 0).setCfld n oHeel 0 16 0xFFFF
  have h2 : CoreSide s s2 := h1.setReg n oBank _
  have hthresh : s3.reg (rCore k oBank) = s2.reg (rCore k oBank) :=
    State.reg_setReg_ne h2.wf.regs (rCore_ne (by decide) (by decide) (by decide) k n) _
  refine (State.bankState_of_reg (t := s3.setCore n _) (s := s2) hthresh 0).trans ?_
  split
  · next hk =>
    subst hk
    have hseg : 3 + 2 ^ 16 * (e.2 % 2 ^ 16) < 2 ^ 64 := by omega
    rw [State.bankState, State.cfld, State.fld, State.reg_setReg_same h1.wf.regs _ hseg, bitsOf]
    omega
  · next hk =>
    have hother (o : Nat) (ho : o < 0x2000) : rCore k oBank ≠ rCore n o := fun he => hk (rCore_inj (by decide) ho he).1
    refine State.bankState_of_reg (State.reg_setReg_ne h1.wf.regs (hother oBank (by decide)) _ |>.trans ?_) 0
    have hc := (CoreSide.refl w).setReg n oCount 0
    exact (State.reg_setReg_ne (hc.setReg n oLast 0).wf.regs (hother oHeel (by decide)) _).trans
      ((State.reg_setReg_ne hc.wf.regs (hother oLast (by decide)) _).trans (State.reg_setReg_ne w.regs (hother oCount (by decide)) _))

theorem State.installCores_coreSide (w : s.Wf) (j : Job) (l : List Nat) : CoreSide s (l.foldl (fun s n => s.installCore j n) s) :=
  List.foldlRecOn (motive := CoreSide s) _ _ (.refl w) fun _ h _ _ => h.trans (State.installCore_coreSide h.wf j _)

theorem State.bankState_installCores (w : s.Wf) (j : Job) {l : List Nat} {k : Nat} (hk : k ∈ l ∨ s.bankState k 0 = 3) :
    (l.foldl (fun s n => s.installCore j n) s).bankState k 0 = 3 := by
  induction l generalizing s with
  | nil => simpa using hk
  | cons n l ih =>
    refine ih (State.installCore_coreSide w j n).wf ?_
    rw [State.bankState_installCore w]
    rcases hk with hk | hk
    · rcases List.mem_cons.1 hk with rfl | hk
      · exact .inr (if_pos rfl)
      · exact .inl hk
    · rw [hk]
      exact .inr (ite_self 3)

/-! ### The install (R366) -/

/-- What the install of a job sets before memory and cores are loaded, and keeps from then on. -/
structure Admitted (j : Job) (s t : State) : Prop where
  wf     : t.Wf
  job    : t.job = some j
  nv     : t.nv = s.nv
  sqs    : t.hl.sqs = s.hl.sqs
  step   : t.stp.step = 0
  held   : t.fab.held = []
  limits : t.reg rPfNormLimits = j.hdr.tauC.toNat + 2 ^ 32 * j.hdr.tauA.toNat
  now    : t.now = s.now

namespace Admitted

theorem rewritten (h : Admitted j s t) (k : Rewritten t u) : Admitted j s u where
  wf := k.wf
  job := (Overwritten.job k).trans h.job
  nv := by rw [k.frame]; exact h.nv
  sqs := by rw [Overwritten.hl k]; exact h.sqs
  step := by rw [k.frame]; exact h.step
  held := by rw [k.frame]; exact h.held
  limits := by rw [State.reg, Overwritten.regs k]; exact h.limits
  now := by rw [State.now, State.reg, Overwritten.regs k]; exact h.now

theorem coreSide (h : Admitted j s t) (k : CoreSide t u) : Admitted j s u := by
  obtain ⟨hw, honly, hlow⟩ := k
  have hlimits := (hlow rPfNormLimits (by decide)).trans h.limits
  have hnow := (hlow rPfPackTime (by decide)).trans h.now
  rw [CoresOnly] at honly
  refine ⟨hw, ?_, ?_, ?_, ?_, ?_, hlimits, hnow⟩ <;> rw [honly]
  exacts [h.job, h.nv, h.sqs, h.step, h.held]

theorem onRegs {R : List Nat} (h : Admitted j s t) (k : OnRegs R t u) (hl : rPfNormLimits ∉ R) (hn : rPfPackTime ∉ R) : Admitted j s u := by
  have hlimits := (k.reg hl).trans h.limits
  have hnow := (k.reg hn).trans h.now
  refine ⟨k.wf, ?_, ?_, ?_, ?_, ?_, hlimits, hnow⟩ <;> rw [k.only.1]
  exacts [h.job, h.nv, h.sqs, h.step, h.held]

/-- The scales of a step are set. -/
theorem scales (h : Admitted j s t) : Admitted j s ((t.freeScales j).bindInitial j) :=
  ⟨(Keeps.refl t).freeScales.bindInitial.wf h.wf, h.job, h.nv, h.sqs, h.step, h.held, h.limits, h.now⟩

end Admitted

/-- Steps 1 and 2 of R366: the registers of an earlier run at reset, the job and its limits. -/
def State.admitted (s : State) (j : Job) : State :=
  let s := s.dropRegs (fun a => admitResets.contains a)
  let s := { s with job := some j, stp := StepSt.reset
                    fab := { s.fab with colls := [], sendBuf := [], held := [], stopOut := false, originsFwd := [],
                                        issueStopped := false, haltedAt := none }
                    pwr := { s.pwr with fsched := j.hdr.freq }
                    hl := { s.hl with restored := none, inputs := [], waitIn := [] } }
  let s := s.setReg rPfNormLimits (j.hdr.tauC.toNat + 2 ^ 32 * j.hdr.tauA.toNat)
  s.setFld rPwrFloor 32 12 j.hdr.freq

theorem State.admitted_spec (w : s.Wf) (j : Job) : Admitted j s (s.admitted j) := by
  have hlimit : j.hdr.tauC.toNat + 2 ^ 32 * j.hdr.tauA.toNat < 2 ^ 64 := by omega
  unfold State.admitted
  extract_lets x fab pwr hl y z
  have hy : y.Wf := ((Keeps.refl s).dropRegs.frame : Keeps _ y).wf w
  have hz : z.Wf := (Quiet.setReg y _ _).wf hy
  have hfloor (r : Nat) (hr : r ≠ rPwrFloor) : (z.setFld rPwrFloor 32 12 j.hdr.freq).reg r = z.reg r := State.reg_setReg_ne hz.regs hr _
  refine ⟨(Quiet.setReg z _ _).wf hz, rfl, rfl, rfl, rfl, rfl, ?_, ?_⟩
  · exact (hfloor _ (by decide)).trans (State.reg_setReg_same hy.regs _ hlimit)
  · exact (hfloor rPfPackTime (by decide)).trans ((State.reg_setReg_ne hy.regs (by decide) _).trans (s.reg_dropRegs (by decide)))

/-- Steps 3 and 4: zeros, programs and initial contents in memory. -/
def State.memoryLoaded (s : State) (j : Job) : State :=
  let s := (List.range 8).foldl (fun s h => s.zero (h * stackBytes) (j.res.hbm.getD h 0)) s
  let s := (List.range 2).foldl (fun s h => s.zero (ddrBase + h * (6 * s.ddrC)) (j.res.ddr.getD h 0)) s
  let s := j.progs.foldl (fun s p => s.store p.base (p.bytes.take (j.res.cmdAddr + j.res.cmdLen - p.base))) s
  j.places.foldl (fun s p => s.initPart j p) s

theorem State.memoryLoaded_rewritten (w : s.Wf) (j : Job) : Rewritten s (s.memoryLoaded j) := by
  unfold State.memoryLoaded
  extract_lets s1 s2 s3
  have h1 : Rewritten s s1 := Overwritten.foldl (Overwritten.refl w _) fun _ _ h => Rewritten.zero h ..
  have h2 : Rewritten s s2 := Overwritten.foldl h1 fun _ _ h => Rewritten.zero h ..
  have h3 : Rewritten s s3 := Overwritten.foldl h2 fun _ _ h => Rewritten.store h ..
  exact Overwritten.foldl h3 fun _ _ h => Rewritten.initPart h ..

/-- Step 6: the digest, and READY. -/
def State.jobShown (s : State) (j : Job) : State :=
  let s := (List.range 8).foldl (fun s i => s.setReg (rBuJobDigest i) (bitsOf j.digest.toNat (64 * i) 64)) s
  let s := s.setReg rBuJobStat 2
  (s.setReg rBuJobDetail 0).setBu stReady

theorem State.install_eq (s : State) (j : Job) : s.install j
    = (((((usedCores j).foldl (fun s n => s.installCore j n) ((s.admitted j).memoryLoaded j)).freeScales j).bindInitial j).jobShown j) := by
  unfold State.install State.admitted State.memoryLoaded State.jobShown
  with_reducible rfl

def shownRegs : List Nat := rBuJobStat :: rBuJobDetail :: rBuState :: (List.range 8).map rBuJobDigest

/-- What an installed job shows. -/
structure JobShown (j : Job) (t : State) : Prop where
  bu     : t.bu = 5
  stat   : t.reg rBuJobStat = 2
  digest : ∀ k < 8, t.reg (rBuJobDigest k) = bitsOf j.digest.toNat (64 * k) 64

theorem State.jobShown_spec (w : s.Wf) (j : Job) : OnRegs shownRegs s (s.jobShown j) ∧ JobShown j (s.jobShown j) := by
  have hinj : Function.Injective rBuJobDigest := fun a b h => by simp only [rBuJobDigest] at h; omega
  have hnew (k : Nat) : rBuJobDigest k ≠ rBuJobStat ∧ rBuJobDigest k ≠ rBuJobDetail ∧ rBuJobDigest k ≠ rBuState := by
    simp only [rBuJobDigest, rBuJobStat, rBuJobDetail, rBuState]
    omega
  unfold State.jobShown
  extract_lets s1 s2
  have h1 : OnRegs shownRegs s s1 := List.foldlRecOn (motive := OnRegs shownRegs s) _ _ (.refl w _) fun _ h k hk =>
    h.setReg (by simp only [shownRegs, List.mem_cons]; exact .inr (.inr (.inr (List.mem_map_of_mem hk))))
  have hd1 (k : Nat) (hk : k < 8) : s1.reg (rBuJobDigest k) = bitsOf j.digest.toNat (64 * k) 64 :=
    State.reg_foldl_setReg w hinj (fun k => bitsOf_lt ..) (List.mem_range.2 hk)
  have h2 : OnRegs shownRegs s s2 := h1.setReg (by simp [shownRegs])
  have h3 : OnRegs shownRegs s (s2.setReg rBuJobDetail 0) := h2.setReg (by simp [shownRegs])
  have hlast (r : Nat) (hbu : r ≠ rBuState) (hdet : r ≠ rBuJobDetail) : ((s2.setReg rBuJobDetail 0).setBu stReady).reg r = s2.reg r :=
    (State.reg_setReg_ne h3.wf.regs hbu _).trans (State.reg_setReg_ne h2.wf.regs hdet _)
  refine ⟨h3.setFld (by simp [shownRegs]), State.bu_setBu h3.wf (by decide), ?_, fun k hk => ?_⟩
  · exact (hlast _ (by decide) (by decide)).trans (State.reg_setReg_same h1.wf.regs _ (by decide))
  · obtain ⟨hstat, hdet, hbu⟩ := hnew k
    exact (hlast _ hbu hdet).trans ((State.reg_setReg_ne h1.wf.regs hstat _).trans (hd1 k hk))

theorem not_mem_shownRegs (hr : ¬ (rBuState ≤ r ∧ r ≤ rBuJobDigest 7)) : r ∉ shownRegs := by
  intro hm
  simp only [shownRegs, List.mem_cons, List.mem_map, List.mem_range] at hm
  refine hr ?_
  rcases hm with rfl | rfl | rfl | ⟨k, hk, rfl⟩
  · decide
  · decide
  · decide
  · simp only [rBuState, rBuJobDigest]
    omega

/-- An image that passes every check: READY, its digest and norm limits in the registers, bank 0 of every used core ACTIVE. -/
theorem State.install_spec (w : s.Wf) (j : Job) : Admitted j s (s.install j) ∧ JobShown j (s.install j)
    ∧ ∀ n ∈ usedCores j, (s.install j).bankState n 0 = 3 := by
  have hadm := State.admitted_spec w j
  have hmem := State.memoryLoaded_rewritten hadm.wf j
  have hside := State.installCores_coreSide hmem.wf j (usedCores j)
  have hbank (n : Nat) (hn : n ∈ usedCores j) := State.bankState_installCores hmem.wf j (.inl hn)
  have hscaled := ((hadm.rewritten hmem).coreSide hside).scales
  rw [State.install_eq]
  generalize (usedCores j).foldl _ _ = t at hside hbank hscaled ⊢
  obtain ⟨hon, hshown⟩ := State.jobShown_spec hscaled.wf j
  refine ⟨hscaled.onRegs hon (not_mem_shownRegs (by decide)) (not_mem_shownRegs (by decide)), hshown, fun n hn => ?_⟩
  refine (State.bankState_of_reg (s := t) (hon.reg (not_mem_shownRegs ?_)) 0).trans (hbank n hn)
  simp only [rCore, coreBase, rBuState, rBuJobDigest]
  omega

end Sys2Proof.Machine
end

section
/-! SUPPORT. JOB_LOAD and RESTORE (R205, R206, R362 to R366). -/

namespace Sys2Proof.Machine
open Sys2Proof

-- Proofs elaborated in threads of their own would pass the check's limit of memory.
set_option Elab.async false

variable {s t u : State} {j : Job} {q i ty : Nat} {d : Desc} {img : List Byte} {r : Refuse}

/-! ### The reads of host memory -/

theorem PortsOnly.readMsgs {p k : Nat} (h : PortsOnly s t) (a lines : Nat) : PortsOnly s (t.readMsgs p k a lines) := by
  induction k generalizing t a lines with
  | zero => exact h
  | succ k ih => exact .ite h (ih ((h.setPort ..).hlSend ..) ..)

theorem State.readHost_portsOnly (s : State) (q a n : Nat) : PortsOnly s (s.readHost q a n) := by
  unfold State.readHost
  split
  · exact (PortsOnly.refl s).readMsgs ..
  · exact .refl s

theorem State.readHost_wf (w : s.Wf) (q a n : Nat) : (s.readHost q a n).Wf := (Keeps.refl s).readHost.wf w

/-! ### How a descriptor ends -/

/-- A descriptor that may start ends with its outcome in a state of the same queues and pack time. -/
theorem State.finish_ends (hs : s.startable? q i ty = some d) (w : t.Wf) (hsqs : t.hl.sqs = s.hl.sqs) (hnow : t.now = s.now) (code n : Nat) :
    t.finish q i code n = { t with hl := (t.finish q i code n).hl } ∧ ∃ e, (t.finish q i code n).desc? q i = some e
      ∧ e.done = some (code, n, d.deadline != 0 && d.deadline == s.now) := by
  obtain ⟨hdesc, hn, -⟩ := State.startable?_spec hs
  have ht : t.desc? q i = some d := by rw [← hdesc, State.desc?, State.sq, hsqs]; rfl
  obtain ⟨hframe, -, e, he, hdone⟩ := State.finish_spec w ht hn code n
  exact ⟨hframe, e, he, by rw [hdone, hnow]⟩

theorem State.finish_restored (t : State) (q i code n : Nat) : (t.finish q i code n).hl.restored = t.hl.restored := by
  unfold State.finish
  split <;> rfl

/-! ### JOB_LOAD -/

theorem exec_jobLoad (hd : s.dark = false) (hs : s.startable? q i 6 = some d) (hlate : s.tooLate d = false) (image : Option (List Byte)) :
    exec (.jobLoad q i image) s = .next (s.jobLoad q i d image) := by
  refine (next_of_live hd).trans (congrArg _ ((State.withDesc_of_startable hs _).trans ?_))
  rw [hlate]
  exact if_neg (by decide)

/-- The package that an admitted JOB_LOAD finds: an installed job has been discarded (R362). -/
def State.vacated (s : State) : State := if s.bu = 5 then s.discardJob else s

/-- LOAD; queues, pack time, fused records, memory and its map as before. -/
structure Vacated (s t : State) : Prop where
  wf       : t.Wf
  bu       : t.bu = 4
  nv       : t.nv = s.nv
  sqs      : t.hl.sqs = s.hl.sqs
  now      : t.now = s.now
  declares : ∀ k a, t.declares k a = s.declares k a
  byte     : ∀ a, t.byte a = s.byte a
  job      : s.job = none ∨ s.bu = 5 → t.job = none

theorem Discarded.vacated (h : Discarded s t) : Vacated s t := by
  have hnow : t.now = s.now := h.regs rPfPackTime not_discardReg_rPfPackTime
  have hdecl := h.declares
  obtain ⟨hw, hbu, hframe, -⟩ := h
  refine ⟨hw, hbu, ?_, ?_, hnow, hdecl, fun a => ?_, fun _ => ?_⟩ <;> rw [hframe]
  rfl

theorem State.vacated_spec (w : s.Wf) (hbu : s.bu = 4 ∨ s.bu = 5) : Vacated s s.vacated := by
  unfold State.vacated
  split
  · exact (State.discardJob_spec w).vacated
  · next h5 =>
    have h4 := hbu.resolve_right h5
    exact ⟨w, h4, rfl, rfl, rfl, fun _ _ => rfl, fun _ => rfl, fun h => h.resolve_right h5⟩

theorem State.jobLoad_busy (ha : d.f 16 8 % 64 = 0) (hl : d.f 24 8 ≠ 0) (h4 : s.bu ≠ 4) (h5 : s.bu ≠ 5) (image : Option (List Byte)) :
    s.jobLoad q i d image = s.finish q i cJobBusy 0 := by
  rw [State.jobLoad, if_neg (by tauto), if_pos ⟨h4, h5⟩]

/-- The bytes that the image holds are judged, and the job is installed or refused. -/
theorem State.jobLoad_image (ha : d.f 16 8 % 64 = 0) (hl : d.f 24 8 ≠ 0) (hbu : s.bu = 4 ∨ s.bu = 5) (bs : List Byte) :
    s.jobLoad q i d (some bs) = match s.vacated.imageRefusal (slice bs 0 (d.f 24 8)) (d.f 24 8) with
      | some r => (((s.vacated.readHost q (d.f 16 8) (d.f 24 8)).loosen (s.job.toList
          ++ if r.check = 2 then [] else [parseJob (slice bs 0 (d.f 24 8)) s.vacated.herdIndex])).refuseJob r).finish q i r.code 0
      | none => ((s.vacated.readHost q (d.f 16 8) (d.f 24 8)).install (parseJob (slice bs 0 (d.f 24 8)) s.vacated.herdIndex)).finish q i 0 0 := by
  rw [State.jobLoad, if_neg (by tauto), if_neg (fun h => hbu.elim h.1 h.2)]
  rfl

/-- The host's answers are read before the image is judged. -/
theorem Vacated.readHost (h : Vacated s t) (q a n : Nat) : Vacated s (t.readHost q a n) := by
  have hports := t.readHost_portsOnly q a n
  have hw := State.readHost_wf h.wf q a n
  generalize t.readHost q a n = x at hports hw ⊢
  have hregs := hports.regs
  rw [PortsOnly] at hports
  refine ⟨hw, ?_, ?_, ?_, ?_, fun k b => ?_, fun b => ?_, fun hj => ?_⟩
  · rw [State.bu, State.fld, State.reg, hregs]; exact h.bu
  · rw [hports]; exact h.nv
  · rw [hports]; exact h.sqs
  · rw [State.now, State.reg, hregs]; exact h.now
  · rw [hports]; exact h.declares k b
  · rw [hports]; exact h.byte b
  · rw [hports]; exact h.job hj

/-- What a refusal leaves (R364). -/
structure Refused (js : List Job) (r : Refuse) (s t : State) : Prop where
  wf    : t.Wf
  bu    : t.bu = 4
  stat  : t.fld rBuJobStat 0 2 = 3 ∧ t.fld rBuJobStat 8 5 = r.check ∧ t.fld rBuJobStat 16 16 = r.code
  nv    : t.nv = s.nv
  sqs   : t.hl.sqs = s.hl.sqs
  now   : t.now = s.now
  bytes : ∀ a, (∀ k ∈ js, s.declares k a = false) → t.byte a = s.byte a
  job   : s.job = none ∨ s.bu = 5 → t.job = none

theorem Vacated.refused (h : Vacated s t) (js : List Job) (hcode : r.code < 2 ^ 16) (hcheck : r.check < 2 ^ 5) :
    Refused js r s ((t.loosen js).refuseJob r) := by
  have hw : (t.loosen js).Wf := (Keeps.refl t).loosen.wf h.wf
  have hw2 : ((t.loosen js).setReg rBuJobStat (3 + 2 ^ 8 * r.check + 2 ^ 16 * r.code)).Wf := (Quiet.setReg _ _ _).wf hw
  have hreg (a : Nat) (hdet : a ≠ rBuJobDetail) (hstat : a ≠ rBuJobStat) : ((t.loosen js).refuseJob r).reg a = t.reg a :=
    (State.reg_setReg_ne hw2.regs hdet _).trans (State.reg_setReg_ne hw.regs hstat _)
  have hval : ((t.loosen js).refuseJob r).reg rBuJobStat = 3 + 2 ^ 8 * r.check + 2 ^ 16 * r.code :=
    (State.reg_setReg_ne hw2.regs (by decide) _).trans (State.reg_setReg_same hw.regs _ (by omega))
  refine ⟨(Quiet.setReg _ _ _).wf hw2, ?_, ?_, h.nv, h.sqs, ?_, fun a hdecl => ?_, h.job⟩
  · rw [State.bu, State.fld, hreg _ (by decide) (by decide)]
    exact h.bu
  · simp only [State.fld, hval, bitsOf]
    omega
  · exact (hreg rPfPackTime (by decide) (by decide)).trans h.now
  · have hkeep : (t.loosen js).byte a = t.byte a := State.scramble_byte h.wf (List.any_eq_false.2 fun k hk => by
      rw [h.declares, hdecl k hk]
      decide)
    exact hkeep.trans (h.byte a)

theorem State.jobLoad_refused (w : s.Wf) (ha : d.f 16 8 % 64 = 0) (hl : d.f 24 8 ≠ 0)
    (hbu : s.bu = 4 ∨ s.bu = 5) {bs : List Byte} (hr : s.vacated.imageRefusal (slice bs 0 (d.f 24 8)) (d.f 24 8) = some r)
    (hcode : r.code < 2 ^ 16) (hcheck : r.check < 2 ^ 5) :
    ∃ js, js ⊆ parseJob (slice bs 0 (d.f 24 8)) s.vacated.herdIndex :: s.job.toList
      ∧ ∃ t, Refused js r s t ∧ s.jobLoad q i d (some bs) = t.finish q i r.code 0 := by
  have heq := State.jobLoad_image (q := q) (i := i) ha hl hbu bs
  rw [hr] at heq
  refine ⟨_, ?_, _, ((State.vacated_spec w hbu).readHost q (d.f 16 8) (d.f 24 8)).refused _ hcode hcheck, heq⟩
  intro k hk
  rcases List.mem_append.1 hk with hk | hk
  · exact List.mem_cons_of_mem _ hk
  · split at hk
    · cases hk
    · rw [List.mem_singleton.1 hk]
      exact List.mem_cons_self

theorem State.jobLoad_installed (w : s.Wf) (ha : d.f 16 8 % 64 = 0) (hl : d.f 24 8 ≠ 0) (hbu : s.bu = 4 ∨ s.bu = 5) {bs : List Byte}
    (hr : s.vacated.imageRefusal (slice bs 0 (d.f 24 8)) (d.f 24 8) = none) :
    ∃ x, Vacated s x ∧ s.jobLoad q i d (some bs) = (x.install (parseJob (slice bs 0 (d.f 24 8)) s.vacated.herdIndex)).finish q i 0 0 := by
  have heq := State.jobLoad_image (q := q) (i := i) ha hl hbu bs
  rw [hr] at heq
  exact ⟨_, (State.vacated_spec w hbu).readHost q (d.f 16 8) (d.f 24 8), heq⟩

/-! ### RESTORE -/

theorem exec_restore (hd : s.dark = false) (hs : s.startable? q i 7 = some d) (hlate : s.tooLate d = false) (slot : Option (List Byte)) :
    exec (.restore q i slot) s = .next (s.restore q i d slot) := by
  refine (next_of_live hd).trans (congrArg _ ((State.withDesc_of_startable hs _).trans ?_))
  rw [hlate]
  exact if_neg (by decide)

theorem State.restore_busy (ha : d.f 16 8 % 64 = 0) (hl : d.f 24 8 ≠ 0) (h : s.bu ≠ 5 ∨ s.job = none) (slot : Option (List Byte)) :
    s.restore q i d slot = s.finish q i cJobBusy 0 := by
  rw [State.restore, if_neg (by tauto)]
  split
  · next j hbu hj => exact absurd h (by rw [hj, beq_iff_eq.1 hbu]; simp [stReady])
  · rfl

theorem State.restore_slot (ha : d.f 16 8 % 64 = 0) (hl : d.f 24 8 ≠ 0) (hbu : s.bu = 5) (hj : s.job = some j) (bs : List Byte) :
    s.restore q i d (some bs) = if j.slotCode (slice bs 0 (d.f 24 8)) ≠ 0
      then (s.readHost q (d.f 16 8) (d.f 24 8)).finish q i (j.slotCode (slice bs 0 (d.f 24 8))) 0
      else ((s.readHost q (d.f 16 8) (d.f 24 8)).loadSlot j (slice bs 0 (d.f 24 8))).finish q i 0 (d.f 24 8) := by
  have hready : (s.bu == stReady) = true := by rw [hbu]; rfl
  rw [State.restore, if_neg (by tauto), hready, hj]

/-- Memory and the step's state have been restored: the counters are the slot's. -/
structure Resumed (bs : List Byte) (s t : State) : Prop where
  wf       : t.Wf
  frame    : t = { s with mem := t.mem, bad := t.bad, free := t.free, stp := t.stp }
  counters : t.stp.step = fieldLe bs 0x010 8 ∧ t.stp.v = fieldLe bs 0x018 8 ∧ t.stp.n = fieldLe bs 0x030 8
  wide     : t.stp.wideRun = fieldLe bs 0x02E 1

namespace Resumed

variable {bs : List Byte}

/-- The counters are set over restored memory. -/
theorem of_rewritten (h : Rewritten s t) {x : StepSt} (hx : x.step = fieldLe bs 0x010 8 ∧ x.v = fieldLe bs 0x018 8 ∧ x.n = fieldLe bs 0x030 8)
    (hw : x.wideRun = fieldLe bs 0x02E 1) : Resumed bs s { t with stp := x } :=
  ⟨⟨h.wf.regs, h.wf.mem, h.wf.ports, h.wf.cores, h.wf.sram, h.wf.sqs, h.wf.cqs⟩, by rw [h.frame], hx, hw⟩

theorem rewritten (h : Resumed bs s t) (k : Rewritten t u) : Resumed bs s u := by
  have hstp : u.stp = t.stp := by rw [k.frame]
  exact ⟨k.wf, by rw [k.frame, h.frame], by rw [hstp]; exact h.counters, by rw [hstp]; exact h.wide⟩

/-- Other state of the step is restored. -/
theorem setStp (h : Resumed bs s t) {x : StepSt} (hx : x.step = t.stp.step ∧ x.v = t.stp.v ∧ x.n = t.stp.n ∧ x.wideRun = t.stp.wideRun) :
    Resumed bs s { t with stp := x } := by
  obtain ⟨h1, h2, h3, h4⟩ := hx
  obtain ⟨hw, hframe, ⟨k1, k2, k3⟩, hwide⟩ := h
  exact ⟨⟨hw.regs, hw.mem, hw.ports, hw.cores, hw.sram, hw.sqs, hw.cqs⟩, by rw [hframe], ⟨h1.trans k1, h2.trans k2, h3.trans k3⟩, h4.trans hwide⟩

end Resumed

/-- What a slot that passed its checks loads (R206). -/
structure SlotLoaded (bs : List Byte) (s t : State) : Prop where
  wf       : t.Wf
  frame    : t = { s with regs := t.regs, mem := t.mem, bad := t.bad, free := t.free, stp := t.stp, hl := { s.hl with restored := t.hl.restored } }
  counters : t.stp.step = fieldLe bs 0x010 8 ∧ t.stp.v = fieldLe bs 0x018 8 ∧ t.stp.n = fieldLe bs 0x030 8
  restored : t.hl.restored = some (fieldLe bs 0x010 8)
  widen    : t.fld rPfWidenStat 32 8 = fieldLe bs 0x02E 1
  regs     : ∀ r, r ≠ rPfWidenStat → t.reg r = s.reg r

theorem Resumed.slotLoaded {bs : List Byte} (h : Resumed bs s t) : SlotLoaded bs s
    { t.setFld rPfWidenStat 32 8 (min 255 t.stp.wideRun) with hl := { t.hl with restored := some (fieldLe bs 0x010 8) } } := by
  have hwide : min 255 t.stp.wideRun % 2 ^ 8 = fieldLe bs 0x02E 1 := by
    have := fieldLe_lt bs 0x02E 1
    rw [h.wide]
    omega
  have hw : (t.setFld rPfWidenStat 32 8 (min 255 t.stp.wideRun)).Wf := (Quiet.setReg _ _ _).wf h.wf
  have hregs (r : Nat) (hr : r ≠ rPfWidenStat) : t.reg r = s.reg r := by rw [h.frame]; rfl
  refine ⟨⟨hw.regs, hw.mem, hw.ports, hw.cores, hw.sram, hw.sqs, hw.cqs⟩, ?_, h.counters, rfl, ?_, fun r hr => ?_⟩
  · rw [h.frame]
    rfl
  · exact (State.fld_setFld_same h.wf.regs (by decide) ..).trans hwide
  · exact (State.reg_setReg_ne h.wf.regs hr _).trans (hregs r hr)

theorem State.loadSlot_spec (w : s.Wf) (j : Job) (bs : List Byte) : SlotLoaded bs s (s.loadSlot j bs) := by
  unfold State.loadSlot
  extract_lets a cs data rows recs tab ns body x stp0 y narrow other stp1 z stp2 v stp3 u
  have hx : Rewritten s x := Overwritten.foldl (Rewritten.clearBuffers (Overwritten.refl w _) j) fun _ _ h =>
    Rewritten.ite (Rewritten.putSection h ..) h
  have hy : Resumed bs s y := (Resumed.of_rewritten hx (x := y.stp) ⟨rfl, rfl, rfl⟩ rfl)
  have hz : Resumed bs s z := hy.setStp ⟨rfl, rfl, rfl, rfl⟩
  have hv : Resumed bs s v := hz.setStp ⟨rfl, rfl, rfl, rfl⟩
  have hu : Resumed bs s u := by
    unfold u
    split
    · next k _ =>
      have hk := hv.setStp (x := { v.stp with norms := k.norms, bound := k.bound, sfb := k.sfb }) ⟨rfl, rfl, rfl, rfl⟩
      exact hk.rewritten (Overwritten.foldl (Overwritten.refl hk.wf _) fun _ _ h => Rewritten.store h ..)
    · exact hv
  exact hu.slotLoaded

/-! ### The descriptor's outcome -/

/-- The descriptor has ended, in its deadline slot if that is now. -/
def State.Ended (s : State) (q i : Nat) (d : Desc) (code n : Nat) (t : State) : Prop :=
  ∃ e, t.desc? q i = some e ∧ e.done = some (code, n, d.deadline != 0 && d.deadline == s.now)

theorem Refused.finished {js : List Job} (h : Refused js r s t) (hs : s.startable? q i ty = some d) (hj : s.job = none ∨ s.bu = 5) :
    let x := t.finish q i r.code 0
    s.Ended q i d r.code 0 x ∧ x.bu = 4 ∧ x.job = none ∧ x.fld rBuJobStat 0 2 = 3 ∧ x.fld rBuJobStat 8 5 = r.check
      ∧ x.fld rBuJobStat 16 16 = r.code ∧ x.nv = s.nv ∧ ∀ a, (∀ k ∈ js, s.declares k a = false) → x.byte a = s.byte a := by
  obtain ⟨hframe, hends⟩ := State.finish_ends hs h.wf h.sqs h.now r.code 0
  obtain ⟨h1, h2, h3⟩ := h.stat
  refine ⟨hends, ?_⟩
  rw [hframe]
  exact ⟨h.bu, h.job hj, h1, h2, h3, h.nv, h.bytes⟩

theorem Vacated.installed (h : Vacated s t) (hs : s.startable? q i ty = some d) (j : Job) :
    let x := (t.install j).finish q i 0 0
    s.Ended q i d 0 0 x ∧ x.bu = 5 ∧ x.job = some j ∧ x.reg rBuJobStat = 2
      ∧ (∀ k < 8, x.reg (rBuJobDigest k) = bitsOf j.digest.toNat (64 * k) 64)
      ∧ x.fld rPfNormLimits 0 32 = j.hdr.tauC.toNat ∧ x.fld rPfNormLimits 32 32 = j.hdr.tauA.toNat
      ∧ (∀ n ∈ usedCores j, x.bankState n 0 = 3) ∧ x.nv = s.nv ∧ x.stp.step = 0 ∧ x.fab.held = [] := by
  obtain ⟨hadm, hshown, hbanks⟩ := State.install_spec h.wf j
  generalize t.install j = u at hadm hshown hbanks ⊢
  obtain ⟨hframe, hends⟩ := State.finish_ends hs hadm.wf (hadm.sqs.trans h.sqs) (hadm.now.trans h.now) 0 0
  have hlim (lo : Nat) : u.fld rPfNormLimits lo 32 = bitsOf (j.hdr.tauC.toNat + 2 ^ 32 * j.hdr.tauA.toNat) lo 32 := by
    rw [State.fld, hadm.limits]
  refine ⟨hends, ?_⟩
  rw [hframe]
  refine ⟨hshown.bu, hadm.job, hshown.stat, hshown.digest, (hlim 0).trans ?_, (hlim 32).trans ?_, hbanks, hadm.nv.trans h.nv, hadm.step, hadm.held⟩ <;>
  · simp only [bitsOf]
    omega

theorem SlotLoaded.finished {bs : List Byte} (h : SlotLoaded bs u t) (hu : PortsOnly s u) (hs : s.startable? q i ty = some d) (n : Nat) :
    let x := t.finish q i 0 n
    s.Ended q i d 0 n x ∧ x.stp.step = fieldLe bs 0x010 8 ∧ x.stp.v = fieldLe bs 0x018 8 ∧ x.stp.n = fieldLe bs 0x030 8
      ∧ x.hl.restored = some (fieldLe bs 0x010 8) ∧ x.fld rPfWidenStat 32 8 = fieldLe bs 0x02E 1
      ∧ (∀ r, r ≠ rPfWidenStat → x.reg r = s.reg r) ∧ x.cores = s.cores ∧ x.nv = s.nv := by
  obtain ⟨hw, hframe, ⟨hstep, hv, hcount⟩, hrest, hwiden, hregs⟩ := h
  have hureg := hu.regs
  have hhl : u.hl = s.hl := hu.hl
  have hsqs : t.hl.sqs = s.hl.sqs := by rw [hframe, ← hhl]
  have hreg (r : Nat) (hr : r ≠ rPfWidenStat) : t.reg r = s.reg r := (hregs r hr).trans (by rw [State.reg, hureg]; rfl)
  obtain ⟨hfinish, hends⟩ := State.finish_ends hs hw hsqs (hreg rPfPackTime (by decide)) 0 n
  have hcores : t.cores = s.cores := by rw [hframe]; exact hu.cores
  have hnv : t.nv = s.nv := by rw [hframe, hu]
  refine ⟨hends, ?_, ?_, ?_, (t.finish_restored q i 0 n).trans hrest, ?_, ?_, ?_, ?_⟩ <;> rw [hfinish]
  exacts [hstep, hv, hcount, hwiden, hreg, hcores, hnv]

/-! ### The obligation -/

/-- Settles O55: a refusal, an install and a loaded slot by what each leaves; the descriptor then ends with its outcome. -/
theorem jobLoadAndRestore : Obligations.JobLoadAndRestore := by
  unfold Obligations.JobLoadAndRestore
  intro q i d bs s w hd hlate ha hl atEnd ends img u j
  have hload (image : Option (List Byte)) (hs : s.startable? q i 6 = some d) := exec_jobLoad hd hs hlate image
  have hrestore (slot : Option (List Byte)) (hs : s.startable? q i 7 = some d) := exec_restore hd hs hlate slot
  have hbusy {ty : Nat} (hs : s.startable? q i ty = some d) := State.finish_ends hs w rfl rfl cJobBusy 0
  refine ⟨?loadBusy, ?refused, ?installed, fun hs => ⟨?restoreBusy, ?slotRefused, ?slotLoaded⟩⟩
  case loadBusy =>
    intro hs h4 h5 image
    obtain ⟨hframe, hends⟩ := hbusy hs
    exact ⟨_, (hload image hs).trans (by rw [State.jobLoad_busy ha hl h4 h5]), hends, hframe⟩
  case refused =>
    intro r hs hbu hjob hr hcode hcheck
    obtain ⟨js, hjs, x, hx, heq⟩ := State.jobLoad_refused (q := q) (i := i) w ha hl hbu hr hcode hcheck
    obtain ⟨hends, h4, hnone, h1, h2, h3, hnv, hbytes⟩ := hx.finished hs hjob
    refine ⟨_, (hload (some bs) hs).trans (congrArg _ heq), hends, h4, hnone, h1, h2, h3, hnv, fun a hnew hold => hbytes a fun k hk => ?_⟩
    rcases List.mem_cons.1 (hjs hk) with rfl | hk
    · exact hnew
    · exact hold k (by simpa using hk)
  case installed =>
    intro hs hbu hr
    obtain ⟨x, hx, heq⟩ := State.jobLoad_installed (q := q) (i := i) w ha hl hbu hr
    have hj : parseJob (slice bs 0 (d.f 24 8)) s.vacated.herdIndex = j := rfl
    rw [hj] at heq
    clear_value j
    exact ⟨_, (hload (some bs) hs).trans (congrArg _ heq), hx.installed hs j⟩
  case restoreBusy =>
    intro slot h
    obtain ⟨hframe, hends⟩ := hbusy hs
    exact ⟨_, (hrestore slot hs).trans (by rw [State.restore_busy ha hl h]), hends, hframe⟩
  case slotRefused =>
    intro k hbu hk hc
    have hports := s.readHost_portsOnly q (d.f 16 8) (d.f 24 8)
    have hnow : (s.readHost q (d.f 16 8) (d.f 24 8)).now = s.now := hports.reg _
    obtain ⟨hframe, hends⟩ := State.finish_ends hs (State.readHost_wf w ..) (congrArg HlSt.sqs hports.hl) hnow (k.slotCode img) 0
    refine ⟨_, (hrestore (some bs) hs).trans (by rw [State.restore_slot ha hl hbu hk, if_pos hc]), hends, ?_⟩
    rw [PortsOnly] at hports
    rw [hframe, hports]
  case slotLoaded =>
    intro k hbu hk hc
    have hslot := State.loadSlot_spec (State.readHost_wf w q (d.f 16 8) (d.f 24 8)) k img
    refine ⟨_, (hrestore (some bs) hs).trans (by rw [State.restore_slot ha hl hbu hk, if_neg (not_not.2 hc)]), ?_⟩
    generalize (s.readHost q (d.f 16 8) (d.f 24 8)).loadSlot k _ = t at hslot ⊢
    exact hslot.finished (s.readHost_portsOnly q (d.f 16 8) (d.f 24 8)) hs (d.f 24 8)

end Sys2Proof.Machine
end
